-- ==== Sys2Proof/Word.lean ====
section
/-! DEFINITION. The word types of the KD2048 model and their plainest arithmetic. -/

namespace Sys2Proof

/-- A byte of memory. -/
abbrev Byte := BitVec 8
/-- A 32-bit word (accumulator words, FP32 bit patterns). -/
abbrev Word32 := BitVec 32
/-- A 64-bit register or address (R50: every register is 64 bits wide). -/
abbrev Word64 := BitVec 64
/-- A stored bank code word: data in bits 7..0, the check field in bits 12..8 (R197). -/
abbrev Code13 := BitVec 13

end Sys2Proof
end

