-- ==== Sys2Proof/Syntax.lean ====
section
/-! DEFINITION. The commands and events the block takes, one constructor per row of the opcode table, and the plain data
they carry (a packet, a flit). -/

namespace Sys2Proof

/-- A Miltum packet: the header of Table 8.6 and the payload bytes. vc is the channel it arrived on (0 data, 1 control,
2 signal); rsv says that a reserved field is non-zero (R266). -/
structure Pkt where
  vc : Nat
  opc : Nat
  cst : Nat
  drank : Nat
  srank : Nat
  hops : Nat
  tgen : Nat
  addr : Nat
  len : Nat
  tag : Nat
  dtk : Nat
  dtken : Bool
  pmask : Nat
  rsv : Bool
  data : List Nat
  deriving DecidableEq, Repr


/-- One pass of a stack wrapper's boundary register (R232): the levels its cells capture at the PHY pins, in the order they are shifted
out, and what is shifted in. -/
structure WScan where
  pins : List Nat
  drive : Nat
  deriving DecidableEq, Repr

/-- The commands and events of the block: one constructor per row of spec/opcode_table.json, in its order. The first
argument of a tile instruction is the tile that issues it; the second holds bits [53:0] of the instruction word (Table 5.2),
the row itself standing for bits [63:54]. -/
inductive Instr where
  /-- PORST_N_ASSERT (R498): An assertion of PORST_N that passes the filter starts a power-on reset. -/
  | porstNAssert (us : Nat)
  /-- WARMRST_N_ASSERT (R498): An assertion of WARMRST_N that passes the filter starts a device reset. -/
  | warmrstNAssert (us : Nat)
  /-- PERST_ASSERT (R498): An assertion of PERST# that passes the filter starts a device reset. -/
  | perstAssert (us : Nat)
  /-- VIN48_BROWNOUT (R516): VIN48 below 38 V for more than 20 us while PORST_N is released acts as a PORST_N assertion. -/
  | vin48Brownout
  /-- POWER_CYCLE (R47): Removal and restoration of VIN48 and V3P3SB ends arbitration hold and clears all state that is not fused. -/
  | powerCycle
  /-- RESET_RELEASE (R502): Release of a device reset reads the fuses, restarts TBTIME on power-on and starts the start-up sequence. -/
  | resetRelease (src : Nat)
  /-- MGC_LEAVE_RESET (R502): 1,000 us after release the MGCs leave reset, PCIe training begins and arbitration attempt 0 starts. -/
  | mgcLeaveReset
  /-- ARBITRATION_ATTEMPT (R39): At k x 30 ms after the MGCs leave reset an arbitration attempt starts with a strap conversion. -/
  | arbitrationAttempt
  /-- STRAP_CONVERSION_DONE (R40): The median of 16 ADC samples is decoded and the Half 0 MGC sends STRAP. -/
  | strapConversionDone (code : Nat) (adcOk : Bool)
  /-- STRAP (R40): The Half 1 MGC receives STRAP, acknowledges it, forms its intent, drives its claim wire and sends CLAIM. -/
  | strap
  /-- STRAP_ACK (R40): The Half 0 MGC receives the acknowledgement, forms its intent, drives its claim wire and sends CLAIM. -/
  | strapAck
  /-- CLAIM (R40): An MGC receives the other half's CLAIM message and records its intent. -/
  | claim (h : Nat)
  /-- CLAIM_SAMPLE (R40): 20 us after driving its claim wire an MGC samples the other wire, reaches a verdict and sends it. -/
  | claimSample (h : Nat) (wire : Bool)
  /-- VERDICT (R40): An MGC receives the other verdict; the attempt continues to COMMIT or fails with its first cause. -/
  | verdict (h : Nat)
  /-- COMMIT (R40): The non-intending half receives COMMIT, takes the secondary role and answers ACK. -/
  | commit
  /-- ACK (R40): The intending half receives ACK, takes primacy and starts the image read. -/
  | ack
  /-- ABORT (R42): A half that took the secondary role receives ABORT and returns to arbitration. -/
  | abort
  /-- HOLD (R42): A half that receives HOLD enters arbitration hold at once. -/
  | hold (h : Nat)
  /-- ARBITRATION_TIMEOUT (R42): A management-channel message of an attempt times out after 100 us, resending COMMIT or failing the attempt with cause 4. -/
  | arbitrationTimeout (h : Nat)
  /-- STRAP_TIMEOUT (R42): Half 1 receives no STRAP within 300 us of the attempt's start and fails the attempt with cause 4. -/
  | strapTimeout
  /-- CONFIGURATION_TRAFFIC_TIMEOUT (R42): Configuration traffic absent or unacknowledged for 200 ms puts the half in arbitration hold and sends HOLD. -/
  | configurationTrafficTimeout (h : Nat)
  /-- BRIDGE_TEST_DONE (R24): The primary's start-up test of the bridge links ends, mapping out failed links or falling back to Half 0 alone. -/
  | bridgeTestDone (ok : BitVec 32)
  /-- IMAGE_READ_DONE (R486): The read of a flash slot ends and its checks accept it, move to the other slot, or select factory defaults. -/
  | imageReadDone (readErr : Bool)
  /-- IMAGE_APPLY (R493): The primary applies the accepted image, sends the secondary its share, and starts stack initialisation and tile marking. -/
  | imageApply
  /-- MARKING_DONE (R202): Marking of a tile's bank with the unwritten marker ends and its window accepts writes. -/
  | markingDone (t : Nat)
  /-- STACK_INIT_DONE (R228): Initialisation of a stack ends with its channels tested and mapped and SSTAT.INITD set. -/
  | stackInitDone (st : Nat) (failed : BitVec 32)
  /-- IMAGE_APPLIED (R502): Once initialisation and marking end, pins leave reset state, ports train, PCIe answers normally and contexts may start. -/
  | imageApplied
  /-- SITE_TIME_TICK (R32): TBTIME increments by one nanosecond. -/
  | siteTimeTick
  /-- TIMING_EXCHANGE (R275): At each timing exchange interval a follower sends TSYNC_REQ on its source port. -/
  | timingExchange (frac : Nat)
  /-- TSYNC_REQ (R275): A port receives TSYNC_REQ and answers with TSYNC_RSP carrying its timestamps, lock state and error bound. -/
  | tsyncReq (p : Nat) (seq : Nat) (frac : Nat) (turn : Nat)
  /-- TSYNC_RSP (R36): A follower receives TSYNC_RSP, computes offset and bound, slews TBTIME and updates its lock state. -/
  | tsyncRsp (seq : Nat) (locked : Bool) (t2 : Nat) (t3 : Nat) (errb : Nat) (frac : Nat)
  /-- TIMING_RESPONSE_TIMEOUT (R37): A timing exchange with no response within 100 us counts as missed and may end lock. -/
  | timingResponseTimeout
  /-- NOP (R154): The CTRL instruction NOP does nothing. -/
  | nop (t : Nat) (b : BitVec 54)
  /-- BR (R154): Branch by a signed offset. -/
  | br (t : Nat) (b : BitVec 54)
  /-- BRL (R154): Branch by a signed offset and write the return index to s31. -/
  | brl (t : Nat) (b : BitVec 54)
  /-- BRI (R154): Branch to the index held in a scalar register. -/
  | bri (t : Nat) (b : BitVec 54)
  /-- LOOP_S (R155): Start a hardware loop whose count is taken from a scalar register. -/
  | loopS (t : Nat) (b : BitVec 54)
  /-- LOOP_I (R155): Start a hardware loop with an immediate count. -/
  | loopI (t : Nat) (b : BitVec 54)
  /-- HALT (R154): Stop issuing, enter HALTED and record the halt code. -/
  | haltI (t : Nat) (b : BitVec 54)
  /-- TRAP (R154): Raise a software trap with cause 8 and a code. -/
  | trapI (t : Nat) (b : BitVec 54)
  /-- ADD (R156): Scalar 64-bit wrapping add. -/
  | add (t : Nat) (b : BitVec 54)
  /-- SUB (R156): Scalar 64-bit wrapping subtract. -/
  | sub (t : Nat) (b : BitVec 54)
  /-- MUL (R156): Scalar multiply giving the low 64 bits. -/
  | mul (t : Nat) (b : BitVec 54)
  /-- AND (R156): Scalar bitwise AND. -/
  | andR (t : Nat) (b : BitVec 54)
  /-- OR (R156): Scalar bitwise OR. -/
  | orR (t : Nat) (b : BitVec 54)
  /-- XOR (R156): Scalar bitwise XOR. -/
  | xorR (t : Nat) (b : BitVec 54)
  /-- SHL (R156): Scalar shift left by a register amount. -/
  | shl (t : Nat) (b : BitVec 54)
  /-- SHR (R156): Scalar logical shift right by a register amount. -/
  | shr (t : Nat) (b : BitVec 54)
  /-- SRA (R156): Scalar arithmetic shift right by a register amount. -/
  | sra (t : Nat) (b : BitVec 54)
  /-- MINS (R156): Scalar signed minimum. -/
  | mins (t : Nat) (b : BitVec 54)
  /-- MAXS (R156): Scalar signed maximum. -/
  | maxs (t : Nat) (b : BitVec 54)
  /-- MINU (R156): Scalar unsigned minimum. -/
  | minu (t : Nat) (b : BitVec 54)
  /-- MAXU (R156): Scalar unsigned maximum. -/
  | maxu (t : Nat) (b : BitVec 54)
  /-- ADDI (R156): Scalar add of a sign-extended immediate. -/
  | addi (t : Nat) (b : BitVec 54)
  /-- ANDI (R156): Scalar AND with a zero-extended immediate. -/
  | andi (t : Nat) (b : BitVec 54)
  /-- ORI (R156): Scalar OR with a zero-extended immediate. -/
  | ori (t : Nat) (b : BitVec 54)
  /-- XORI (R156): Scalar XOR with a zero-extended immediate. -/
  | xori (t : Nat) (b : BitVec 54)
  /-- SHLI (R156): Scalar shift left by an immediate. -/
  | shli (t : Nat) (b : BitVec 54)
  /-- SHRI (R156): Scalar logical shift right by an immediate. -/
  | shri (t : Nat) (b : BitVec 54)
  /-- SRAI (R156): Scalar arithmetic shift right by an immediate. -/
  | srai (t : Nat) (b : BitVec 54)
  /-- LI (R156): Load a sign-extended immediate into a scalar register. -/
  | li (t : Nat) (b : BitVec 54)
  /-- LIH (R156): Load an immediate into the upper 32 bits of a scalar register. -/
  | lih (t : Nat) (b : BitVec 54)
  /-- CMPEQ (R156): Set a predicate when two scalars are equal. -/
  | cmpeq (t : Nat) (b : BitVec 54)
  /-- CMPNE (R156): Set a predicate when two scalars differ. -/
  | cmpne (t : Nat) (b : BitVec 54)
  /-- CMPLT (R156): Set a predicate on signed less-than. -/
  | cmplt (t : Nat) (b : BitVec 54)
  /-- CMPLE (R156): Set a predicate on signed less-or-equal. -/
  | cmple (t : Nat) (b : BitVec 54)
  /-- CMPLTU (R156): Set a predicate on unsigned less-than. -/
  | cmpltu (t : Nat) (b : BitVec 54)
  /-- CMPLEU (R156): Set a predicate on unsigned less-or-equal. -/
  | cmpleu (t : Nat) (b : BitVec 54)
  /-- PAND (R156): Predicate AND. -/
  | pand (t : Nat) (b : BitVec 54)
  /-- POR (R156): Predicate OR. -/
  | por (t : Nat) (b : BitVec 54)
  /-- PXOR (R156): Predicate XOR. -/
  | pxor (t : Nat) (b : BitVec 54)
  /-- PNOT (R156): Predicate NOT. -/
  | pnot (t : Nat) (b : BitVec 54)
  /-- TIMERD (R156): Read TBTIME into a scalar register. -/
  | timerd (t : Nat) (b : BitVec 54)
  /-- RANKRD (R156): Read the device's logical rank into a scalar register. -/
  | rankrd (t : Nat) (b : BitVec 54)
  /-- TILERD (R156): Read the tile number into a scalar register. -/
  | tilerd (t : Nat) (b : BitVec 54)
  /-- LD1 (R160): Zero-extended scalar load of 1 byte. -/
  | ld1 (t : Nat) (b : BitVec 54)
  /-- LD2 (R160): Zero-extended scalar load of 2 bytes. -/
  | ld2 (t : Nat) (b : BitVec 54)
  /-- LD4 (R160): Zero-extended scalar load of 4 bytes. -/
  | ld4 (t : Nat) (b : BitVec 54)
  /-- LD8 (R160): Zero-extended scalar load of 8 bytes. -/
  | ld8 (t : Nat) (b : BitVec 54)
  /-- LDS1 (R160): Sign-extended scalar load of 1 byte. -/
  | lds1 (t : Nat) (b : BitVec 54)
  /-- LDS2 (R160): Sign-extended scalar load of 2 bytes. -/
  | lds2 (t : Nat) (b : BitVec 54)
  /-- LDS4 (R160): Sign-extended scalar load of 4 bytes. -/
  | lds4 (t : Nat) (b : BitVec 54)
  /-- ST1 (R160): Scalar store of 1 byte. -/
  | st1 (t : Nat) (b : BitVec 54)
  /-- ST2 (R160): Scalar store of 2 bytes. -/
  | st2 (t : Nat) (b : BitVec 54)
  /-- ST4 (R160): Scalar store of 4 bytes. -/
  | st4 (t : Nat) (b : BitVec 54)
  /-- ST8 (R160): Scalar store of 8 bytes. -/
  | st8 (t : Nat) (b : BitVec 54)
  /-- MOVA (R159): Move a scalar register into an address register. -/
  | mova (t : Nat) (b : BitVec 54)
  /-- MOVS (R159): Move an address register into a scalar register. -/
  | movs (t : Nat) (b : BitVec 54)
  /-- ADDA (R159): Set an address register to another plus a scalar. -/
  | adda (t : Nat) (b : BitVec 54)
  /-- ADDAI (R159): Set an address register to another plus an immediate offset. -/
  | addai (t : Nat) (b : BitVec 54)
  /-- LOAD_RETURN (R543): A scalar load's data returns and is written to its destination register, or raises the poison or address trap. -/
  | loadReturn (t : Nat) (k : Nat)
  /-- MX_MUL (R162): Issue one product of a streamed panel against a stationary block. -/
  | mxMul (t : Nat) (b : BitVec 54)
  /-- STATIONARY_LOAD_DONE (R55): A stationary block finishes loading into the shadow register. -/
  | stationaryLoadDone (t : Nat) (q : Nat)
  /-- PORT_EXPANSION_DONE (R333): The operand port finishes expanding and checking a folio, holding it in a buffer or raising the folio-check trap. -/
  | portExpansionDone (t : Nat) (q : Nat)
  /-- RESULT_ROW_WRITE (R78): The write stage adds or writes one result row of a product into the accumulator with its poison bit. -/
  | resultRowWrite (t : Nat) (q : Nat)
  /-- PRODUCT_COMPLETE (R87): A product completes one beat after its last row passes the write stage, releasing holds and counting toward spills. -/
  | productComplete (t : Nat) (q : Nat)
  /-- ACC_BIND (R121): Bind an accumulator tile to an E48 spill buffer, clearing the tile. -/
  | accBind (t : Nat) (b : BitVec 54)
  /-- ACC_SPILL (R127): Spill every non-zero-count column half of a bound tile. -/
  | accSpill (t : Nat) (b : BitVec 54)
  /-- ACC_ROUND (R128): Round a bound tile's buffer plus accumulator once to FP32 and release the binding. -/
  | accRound (t : Nat) (b : BitVec 54)
  /-- ACC_DROP (R129): Release a bound tile without touching accumulator or buffer. -/
  | accDrop (t : Nat) (b : BitVec 54)
  /-- ACC_CHAIN (R165): Issue a chain-add that waits on the vector datapath for its token. -/
  | accChain (t : Nat) (b : BitVec 54)
  /-- SPILL_PASS_COMPLETE (R126): A spill pass finishes writing its rows to E48 buffers, clearing counts and releasing held instructions. -/
  | spillPassComplete (t : Nat)
  /-- ACC_ROUND_COMPLETE (R128): An ACC.ROUND pass finishes writing FP32 rows and the tile is released. -/
  | accRoundComplete (t : Nat)
  /-- CHAIN_TOKEN_ACQUIRE (R165): A waiting chain-add finds its token at least 1, subtracts it and starts adding. -/
  | chainTokenAcquire (t : Nat)
  /-- CHAIN_ADD_COMPLETE (R133): A chain-add finishes writing its E48 output rows. -/
  | chainAddComplete (t : Nat)
  /-- VEC_ADD (R167): Vector element-wise add. -/
  | vecAdd (t : Nat) (b : BitVec 54)
  /-- VEC_MUL (R167): Vector element-wise multiply. -/
  | vecMul (t : Nat) (b : BitVec 54)
  /-- VEC_FMA (R167): Vector fused multiply-add with one rounding. -/
  | vecFma (t : Nat) (b : BitVec 54)
  /-- VEC_MAX (R167): Vector element-wise maximum. -/
  | vecMax (t : Nat) (b : BitVec 54)
  /-- VEC_MIN (R167): Vector element-wise minimum. -/
  | vecMin (t : Nat) (b : BitVec 54)
  /-- VEC_CMP (R167): Vector compare writing all-ones or zero words. -/
  | vecCmp (t : Nat) (b : BitVec 54)
  /-- VEC_SEL (R167): Vector select by mask, bits unchanged. -/
  | vecSel (t : Nat) (b : BitVec 54)
  /-- VEC_RED (R167): Vector lane reduction of each 32 elements by sum, max or min. -/
  | vecRed (t : Nat) (b : BitVec 54)
  /-- VEC_EXP2 (R167): Vector base-2 exponential. -/
  | vecExp2 (t : Nat) (b : BitVec 54)
  /-- VEC_LOG2 (R167): Vector base-2 logarithm. -/
  | vecLog2 (t : Nat) (b : BitVec 54)
  /-- VEC_RCP (R167): Vector reciprocal. -/
  | vecRcp (t : Nat) (b : BitVec 54)
  /-- VEC_RSQ (R167): Vector reciprocal square root. -/
  | vecRsq (t : Nat) (b : BitVec 54)
  /-- VEC_CVT (R168): Vector format conversion, including block encodes and FX32 and E48 conversions. -/
  | vecCvt (t : Nat) (b : BitVec 54)
  /-- VEC_ICVT (R167): Vector conversion of INT32 or INT16 words to FP32. -/
  | vecIcvt (t : Nat) (b : BitVec 54)
  /-- VEC_PHX (R424): Vector Philox generation of stream words in counter order. -/
  | vecPhx (t : Nat) (b : BitVec 54)
  /-- VEC_TOPK (R81): Vector top-k selection over rows of 64 scores. -/
  | vecTopk (t : Nat) (b : BitVec 54)
  /-- VEC_MOV (R167): Vector copy with bits unchanged. -/
  | vecMov (t : Nat) (b : BitVec 54)
  /-- VECTOR_COMPLETE (R80): A vector instruction finishes writing its results and flags. -/
  | vectorComplete (t : Nat)
  /-- PLAIN_COPY (R173): Submit a stream-mover descriptor of kind 0, a plain copy. -/
  | plainCopy (t : Nat) (b : BitVec 54)
  /-- SKEWED_WRITE (R61): Submit a stream-mover descriptor of kind 1 that writes rows as a skewed panel. -/
  | skewedWrite (t : Nat) (b : BitVec 54)
  /-- FOLIO_COMPRESSION (R329): Submit a stream-mover descriptor of kind 2 that compresses blocks into folios. -/
  | folioCompression (t : Nat) (b : BitVec 54)
  /-- FOLIO_EXPANSION (R330): Submit a stream-mover descriptor of kind 3 that checks and expands folios into a stack. -/
  | folioExpansion (t : Nat) (b : BitVec 54)
  /-- FP32_TO_E48 (R134): Submit a stream-mover descriptor of kind 4 that converts FP32 exactly to E48. -/
  | fp32ToE48 (t : Nat) (b : BitVec 54)
  /-- TRANSFER_COMPLETE (R175): A transfer completes, delivering its destination token, recording a bad status and adding to its local token. -/
  | transferComplete (t : Nat) (k : Nat)
  /-- FENCE_G (R188): Issue a global fence that holds later instructions until earlier accesses are performed. -/
  | fenceG (t : Nat) (b : BitVec 54)
  /-- FENCE_G_COMPLETE (R188): Every earlier access of the tile is performed and acknowledged and the fence completes. -/
  | fenceGComplete (t : Nat)
  /-- FENCE_I (R151): Issue an instruction fence. -/
  | fenceI (t : Nat) (b : BitVec 54)
  /-- FENCE_I_COMPLETE (R178): Earlier stores to the instruction region complete and prefetched instructions are discarded. -/
  | fenceIComplete (t : Nat)
  /-- TOK_WAIT (R178): Issue a wait until a token reaches a count. -/
  | tokWait (t : Nat) (b : BitVec 54)
  /-- TOKEN_WAIT_RELEASE (R178): A waiting TOK.WAIT finds its token at the count and subtracts it. -/
  | tokenWaitRelease (t : Nat)
  /-- TOK_ADD (R177): Add a count to a token, saturating at 65,535. -/
  | tokAdd (t : Nat) (b : BitVec 54)
  /-- TOK_RD (R178): Read a token into a scalar register. -/
  | tokRd (t : Nat) (b : BitVec 54)
  /-- WAIT_TIME (R178): Issue a wait until TBTIME reaches a value. -/
  | waitTime (t : Nat) (b : BitVec 54)
  /-- WAIT_TIME_RELEASE (R33): TBTIME reaches the awaited site time and the waiting tile is released. -/
  | waitTimeRelease (t : Nat)
  /-- WAIT_UNIT (R178): Issue a wait until named units are idle. -/
  | waitUnit (t : Nat) (b : BitVec 54)
  /-- WAIT_UNIT_RELEASE (R178): Every named unit becomes idle and the WAIT.UNIT completes. -/
  | waitUnitRelease (t : Nat)
  /-- WAIT_TIMEOUT (R174): A token, fence or register wait exceeds the context's wait timeout and raises the wait-timeout trap. -/
  | waitTimeout (t : Nat) (chain : Bool)
  /-- SIG_BAR (R287): Issue a barrier over a signal-plane group. -/
  | sigBar (t : Nat) (b : BitVec 54)
  /-- SIG_RED (R288): Issue a scalar reduction over a signal-plane group. -/
  | sigRed (t : Nat) (b : BitVec 54)
  /-- MBX_ST (R179): Store a mailbox word as a mailbox operation. -/
  | mbxSt (t : Nat) (b : BitVec 54)
  /-- MBX_LD (R179): Load a mailbox word as a mailbox operation. -/
  | mbxLd (t : Nat) (b : BitVec 54)
  /-- MBX_FADD (R179): Atomically fetch and add to a mailbox word. -/
  | mbxFadd (t : Nat) (b : BitVec 54)
  /-- MBX_CAS (R179): Atomically compare and swap a mailbox word. -/
  | mbxCas (t : Nat) (b : BitVec 54)
  /-- MAILBOX_RESULT (R180): The result of a mailbox operation returns through the signal engine and writes the destination register. -/
  | mailboxResult (t : Nat)
  /-- MAILBOX_ACCESS (R180): A plain access by the host or another requester to a mailbox word is performed as a mailbox operation. -/
  | mailboxAccess (t : Nat) (n : Nat) (w : Bool) (v : BitVec 64)
  /-- FUSE_CIRC (R305): Prefix that hands the next CVT's output to a circulation as it is written. -/
  | fuseCirc (t : Nat) (b : BitVec 54)
  /-- FUSE_DISP (R349): Prefix that sends or returns the next instruction's output rows through a dispatch stream. -/
  | fuseDisp (t : Nat) (b : BitVec 54)
  /-- DISP_SEND (R340): Send token rows to the owners of their selected experts within quota. -/
  | dispSend (t : Nat) (b : BitVec 54)
  /-- DISP_END (R342): Close the slot's current batch, sending END once every packet is acknowledged. -/
  | dispEnd (t : Nat) (b : BitVec 54)
  /-- DISP_CNT (R347): Read the landed-row or return counts of a stream queue. -/
  | dispCnt (t : Nat) (b : BitVec 54)
  /-- TRAPPED (R184): After a trap, issued instructions drain and the tile enters TRAPPED and reports to its context. -/
  | trapped (t : Nat)
  /-- TSQCTL_RUN (R146): A write of TSQCTL.RUN starts an IDLE or HALTED tile at TSQCTL.START. -/
  | tsqctlRun (t : Nat) (start : Nat)
  /-- TSQCTL_STOP (R193): A write of TSQCTL.STOP stops issuing, abandons waits and halts the tile with HCODE 0xFFFF. -/
  | tsqctlStop (t : Nat)
  /-- TFLIP_ARM (R212): Arm a one-time corruption of the next write to a bank byte. -/
  | tflipArm (t : Nat) (v : BitVec 64)
  /-- STREAM_CACHE_INVALIDATE (R206): A write of TSCCTL.INV invalidates the tile's whole stream cache. -/
  | streamCacheInvalidate (t : Nat)
  /-- LINE_FILL (R205): A 2 KiB line fetched from a stack for a demand miss or prefetch is installed in the stream cache. -/
  | lineFill (t : Nat) (a : Nat)
  /-- LEAK_TICK (R210): TBTIME crosses a multiple of the leak interval and each bucket level falls by one. -/
  | leakTick (k : Nat)
  /-- ERROR_REPORT (R215): A report reaches its ring's MGC and is coalesced, entered, or lost when the ring is full. -/
  | errorReport
  /-- ERROR_LOG_RP_WRITE (R216): A write of a ring's RP consumes entries, clamped to WP. -/
  | errorLogRpWrite (h : Nat) (rp : Nat)
  /-- CHANNEL_RETRAIN_TIMEOUT (R230): A stack channel that lost training does not retrain within 1 ms and is marked failed. -/
  | channelRetrainTimeout (st : Nat) (ch : Nat)
  /-- SCTL_TEST_REQUEST (R231): A write of SCTL.TEST = 1 requests test state, waiting for the stack to be idle. -/
  | sctlTestRequest (st : Nat)
  /-- TEST_STATE_ENTRY (R231): With no access or descriptor outstanding the stack enters test state and logs type 0x27. -/
  | testStateEntry (st : Nat)
  /-- SCTL_TEST_EXIT (R231): A write of SCTL.TEST = 0 leaves test state and starts initialisation of that stack. -/
  | sctlTestExit (st : Nat)
  /-- WS_BYPASS (R232): The stack wrapper bypass instruction. -/
  | wsBypass
  /-- WS_EXTEST (R232): Interconnect test of the stack PHY pins through the wrapper boundary. -/
  | wsExtest (v : WScan)
  /-- RP_READ (R232): Read the repair record of a channel and bank set. -/
  | rpRead (ch : BitVec 5) (set : BitVec 7)
  /-- RP_STAGE (R232): Stage a soft repair against a failing address. -/
  | rpStage (ch : BitVec 5) (addr : Nat) (row : Bool)
  /-- RP_FUSE (R232): Start burning a channel's staged repairs into fuses. -/
  | rpFuse (ch : BitVec 5)
  /-- RP_FUSE_DONE (R232): A repair burn ends after 200 ms, setting the fail bit if it failed. -/
  | rpFuseDone (st : Nat) (ok : Bool)
  /-- RP_MAPOUT (R232): Fuse a channel into the stack's map-out record. -/
  | rpMapout (ch : BitVec 5)
  /-- MB_RUN (R232): Start the array test on selected channels. -/
  | mbRun (mask : BitVec 32)
  /-- MB_RUN_DONE (R232): The array test ends and its results become available. -/
  | mbRunDone (st : Nat) (fails : BitVec 32) (addr : Nat)
  /-- MB_RESULT (R232): Read pass or fail per channel and the first failing address. -/
  | mbResult
  /-- TEST_LOGIC_RESET (R536): The TAP enters Test-Logic-Reset and selects IDCODE. -/
  | testLogicReset
  /-- IDCODE (R536): TAP instruction that reads the identification code. -/
  | idcode
  /-- SAMPLE (R536): TAP instruction that samples the boundary register. -/
  | sample (v : BitVec 918)
  /-- PRELOAD (R536): TAP instruction that preloads the boundary register. -/
  | preload (w : BitVec 918)
  /-- EXTEST (R536): TAP boundary test; pins leave the device logic and links go DOWN. -/
  | extest (v : BitVec 918) (w : BitVec 918)
  /-- EXTEST_PULSE (R536): IEEE 1149.6 pulsed test of the high-speed lanes. -/
  | extestPulse (v : BitVec 918) (w : BitVec 918)
  /-- EXTEST_TRAIN (R536): IEEE 1149.6 train test of the high-speed lanes. -/
  | extestTrain (v : BitVec 918) (w : BitVec 918)
  /-- CLAMP (R536): TAP instruction that holds pins from the boundary register. -/
  | clamp
  /-- HIGHZ (R536): TAP instruction that puts outputs in high impedance. -/
  | highz
  /-- STKWRAP (R231): TAP instruction that routes the data path through a stack's wrapper. -/
  | stkwrap (sel : BitVec 3)
  /-- BYPASS (R536): TAP bypass instruction. -/
  | bypass
  /-- PI_WRITE (R236): A write of BQPTR.PI enqueues bindery descriptors or is discarded with QERR. -/
  | piWrite (c : Nat) (st : Nat) (e : Nat) (p : Nat)
  /-- DESCRIPTOR_FETCH (R237): An engine fetches its next descriptor after the covering PI write and runs its static checks. -/
  | descriptorFetch (st : Nat) (e : Nat)
  /-- BINDERY_NOP (R238): Bindery NOP completes at once. -/
  | binderyNop (st : Nat) (e : Nat)
  /-- COPY (R238): Bindery copy within the stack. -/
  | copy (st : Nat) (e : Nat)
  /-- FILL (R238): Bindery fill with a 64-byte pattern. -/
  | fill (st : Nat) (e : Nat)
  /-- PUBLISH (R386): Quantise a source matrix and write generation blocks into tile banks. -/
  | publish (st : Nat) (e : Nat)
  /-- PACK (R440): Pack one checkpoint item with its header. -/
  | pack (st : Nat) (e : Nat)
  /-- BINDERY_FENCE (R238): Complete when earlier writes of the engine are performed and visible. -/
  | binderyFence (st : Nat) (e : Nat)
  /-- ADAMW (R376): RUN of an AdamW update program on a shard, by its stage word. -/
  | adamw (st : Nat) (e : Nat)
  /-- ADAM_L2 (R376): RUN of an Adam update program with L2 decay on a shard. -/
  | adamL2 (st : Nat) (e : Nat)
  /-- SCAN (R365): RUN of the SCAN program giving exponent maximum or sum of squares. -/
  | scan (st : Nat) (e : Nat)
  /-- XSEL (R399): RUN of the far selection program writing sparse pages. -/
  | xsel (st : Nat) (e : Nat)
  /-- XOUT (R412): RUN of the outer Nesterov step program. -/
  | xout (st : Nat) (e : Nat)
  /-- UNPACK (R443): RUN that loads a checkpoint item into a target box. -/
  | unpack (st : Nat) (e : Nat)
  /-- CHUNK_COMPLETE (R375): An update chunk finishes its writes and advances SSTAGEn.CURSOR, or the pass or RUN ends. -/
  | chunkComplete (st : Nat) (e : Nat)
  /-- FRAGMENT_COMPLETE (R401): An XSEL or XOUT fragment finishes its outputs and its STATE granule. -/
  | fragmentComplete (st : Nat) (e : Nat)
  /-- SEMAPHORE_ACQUIRE (R239): A waiting descriptor finds its semaphore at WCNT, subtracts it and starts. -/
  | semaphoreAcquire (st : Nat) (e : Nat)
  /-- SEMAPHORE_TIMEOUT (R239): A semaphore wait exceeds the bindery wait timeout and ends with TIMEOUT. -/
  | semaphoreTimeout (st : Nat) (e : Nat)
  /-- BSEM_ADD (R247): A write of BSEMn adds to a semaphore, saturating with SEMOVF. -/
  | bsemAdd (st : Nat) (n : Nat) (v : Nat)
  /-- DESCRIPTOR_COMPLETE (R240): A descriptor ends: writes visible, completion record, semaphore post, target update and interrupt. -/
  | descriptorComplete (st : Nat) (e : Nat)
  /-- BCQPTR_TAIL_WRITE (R240): A write of BCQPTR.TAIL frees completion-ring space, clamped to HEAD. -/
  | bcqptrTailWrite (st : Nat) (e : Nat) (v : Nat)
  /-- BINDERY_ABORT (R242): A write of BECTL.ABORT ends the current and queued descriptors with ABORT. -/
  | binderyAbort (st : Nat) (e : Nat)
  /-- PMD_TRAINING_DONE (R253): Electrical training of a Miltum port ends, moving to HELLO, degrade, fallback or DOWN. -/
  | pmdTrainingDone (p : Nat) (good : Nat)
  /-- HELLO_RESEND (R254): Every 10 us in HELLO a port sends HELLO until it hears the partner. -/
  | helloResend (p : Nat)
  /-- HELLO (R256): A port receives HELLO, agrees the version and sends HELLOACK. -/
  | hello (p : Nat) (ver : Nat) (rank : Nat) (pport : Nat) (kind : Nat) (crdd : Nat) (crdc : Nat) (crds : Nat) (lanes : Nat)
  /-- HELLOACK (R254): A port receives HELLOACK and comes UP, resuming replay after a retrain. -/
  | helloack (p : Nat) (ackseq : Nat)
  /-- HELLO_TIMEOUT (R254): No HELLOACK within 10 ms of entering HELLO sends the port DOWN with cause 2. -/
  | helloTimeout (p : Nat)
  /-- DOWN_WAIT_END (R253): 100 ms after DOWN the port returns to ELEC. -/
  | downWaitEnd (p : Nat)
  /-- FLIT (R262): A flit is received and accepted, or discarded with a NAK; its acknowledgements and credits are applied. -/
  | flit (p : Nat) (bytes : List Nat)
  /-- ACK_TIMER (R262): Every 1 us the receiver sends an acknowledging flit. -/
  | ackTimer (p : Nat)
  /-- NAK_HOLD_END (R262): 2 us after a NAK the receiver may NAK again. -/
  | nakHoldEnd (p : Nat)
  /-- ACK_TIMEOUT (R262): Unacknowledged flits with no acknowledgement for 100 us put the port in RETRAIN. -/
  | ackTimeout (p : Nat)
  /-- FPCTL_RETRAIN (R279): A write of FPCTL.RETRAIN takes an UP port into RETRAIN. -/
  | fpctlRetrain (p : Nat)
  /-- FPCTL_DISABLE (R253): A write of FPCTL.DISABLE disables the port or lets it train as the image directs. -/
  | fpctlDisable (p : Nat) (d : Bool)
  /-- REPLAY_WINDOW_END (R264): A replay-count window ends; replays above threshold set WARN and warn of failure. -/
  | replayWindowEnd (p : Nat)
  /-- HINT_HOLDOFF_END (R438): The checkpoint-hint hold-off expires. -/
  | hintHoldoffEnd
  /-- WRITE_PACKET (R267): A WRITE packet is performed at its home, answered by WRACK and may deliver a token, or is forwarded. -/
  | writePacket (port : Nat) (p : Pkt)
  /-- READ_PACKET (R274): A READ packet is served with RDCPL or answered with an error status. -/
  | readPacket (port : Nat) (p : Pkt)
  /-- RDCPL (R272): A read completion is matched to its tag and delivered, or discarded and counted in LATECPL. -/
  | rdcpl (port : Nat) (p : Pkt)
  /-- WRACK (R267): A write acknowledgement arrives and counts toward its transfer's completion. -/
  | wrack (port : Nat) (p : Pkt)
  /-- MBX_PACKET (R292): An MBX packet is performed at its home mailbox word and answered with MBXRSP. -/
  | mbxPacket (port : Nat) (p : Pkt)
  /-- MBXRSP (R292): A mailbox response arrives and writes the requester's register. -/
  | mbxrsp (port : Nat) (p : Pkt)
  /-- RRESET_PACKET (R277): An RRESET packet is verified and accepted as a remote reset, or rejected. -/
  | rresetPacket (port : Nat) (p : Pkt)
  /-- READ_TIMEOUT (R272): A remote read unanswered within the timeout is reported and its tag quarantined. -/
  | readTimeout (rid : Nat)
  /-- TAG_QUARANTINE_END (R272): A quarantined read tag becomes free after four timeout periods. -/
  | tagQuarantineEnd (tag : Nat)
  /-- WRITE_ACK_TIMEOUT (R273): A WRITE with no WRACK within the timeout counts as failed. -/
  | writeAckTimeout (wid : Nat)
  /-- ROUTE_ENTRY_WRITE (R271): A route-window write changes a rank's route once earlier writes toward it are acknowledged. -/
  | routeEntryWrite (c : Nat) (r : Nat) (v : Nat)
  /-- UP_RECORD (R287): A signal engine receives a child's UP record and combines it, sending UP or DOWN when complete. -/
  | upRecord (src : Nat) (r : List Nat)
  /-- DOWN_RECORD (R287): A signal engine receives DOWN, forwards it and writes results to member tiles. -/
  | downRecord (src : Nat) (r : List Nat)
  /-- ABANDON_RECORD (R291): A device receives ABANDON and abandons its pending operation or collective once. -/
  | abandonRecord (src : Nat) (r : List Nat)
  /-- PRE_ROUND_RECORD (R296): A pre-round record is combined up the tree or delivers agreed exponents and overflow down it. -/
  | preRoundRecord (src : Nat) (r : List Nat)
  /-- SIGNAL_TIMEOUT (R291): A signal-plane operation not completed within the signal timeout is abandoned. -/
  | signalTimeout (g : Nat)
  /-- CIRC (R298): Submit a circulation descriptor. -/
  | circ (c : Nat) (a : Nat) (host : Bool)
  /-- AGATHER (R301): Submit an all-gather descriptor. -/
  | agather (c : Nat) (a : Nat) (host : Bool)
  /-- BCAST (R302): Submit a broadcast descriptor. -/
  | bcast (c : Nat) (a : Nat) (host : Bool)
  /-- PERMUTE (R303): Submit a permute descriptor. -/
  | permute (c : Nat) (a : Nat) (host : Bool)
  /-- COLL_PACKET (R295): A COLL packet is added and forwarded, written, or buffered for an unsubmitted CID. -/
  | collPacket (port : Nat) (p : Pkt)
  /-- COLLECTIVE_COMPLETE (R299): A collective completes at a member, writing its record and updating its target. -/
  | collectiveComplete (cid : Nat)
  /-- COLLECTIVE_TIMEOUT (R307): A collective awaiting a packet, record or WRACK beyond the collective timeout is abandoned. -/
  | collectiveTimeout (cid : Nat)
  /-- ADOPT (R310): A write of FRSVCTL.ADOPT makes a reserve device take a new rank. -/
  | adopt (c : Nat) (r : Nat)
  /-- FORWARD_ROW (R344): A forward dispatch row lands in the next free slot of its queue buffer, or is discarded. -/
  | forwardRow (port : Nat) (p : Pkt)
  /-- BACKWARD_ROW (R354): A backward dispatch row lands at its forward slot. -/
  | backwardRow (port : Nat) (p : Pkt)
  /-- END_PACKET (R342): An END packet marks a source ended for a batch, possibly closing buffers. -/
  | endPacket (port : Nat) (p : Pkt)
  /-- RETURN (R350): A return slice lands at the sender and updates its return word. -/
  | returnRow (port : Nat) (p : Pkt)
  /-- REORDER_DONE (R356): Under determinism a closed buffer's rows are sorted and the buffer becomes READY. -/
  | reorderDone (q : Nat) (e : Nat) (b : Nat)
  /-- POST (R351): A write of FDSCTL.POST closes sending, writes the histogram and requests a plan. -/
  | post (c : Nat) (q : Nat) (st : Nat)
  /-- OPEN (R353): A write of FDSCTL.OPEN opens a step with the pending or current plan. -/
  | openBuf (c : Nat) (q : Nat) (useNew : Bool)
  /-- REL (R359): A write of FDSCTL.REL releases a queue buffer. -/
  | rel (c : Nat) (q : Nat) (e : Nat) (b : Nat)
  /-- FDSCTL_ABORT (R358): A write of FDSCTL.ABORT ends the current batch and marks it abandoned. -/
  | fdsctlAbort (c : Nat) (q : Nat)
  /-- PLAN_DOORBELL (R352): A write of FDSPDB offers a plan, accepted before the deadline or counted late. -/
  | planDoorbell (c : Nat) (q : Nat) (st : Nat)
  /-- PLAN_DEADLINE (R352): TBTIME reaches FDSDL and the plan question is decided. -/
  | planDeadline (q : Nat)
  /-- DISPATCH_TIMEOUT (R357): A queue buffer not CLOSED within DISPTO is abandoned. -/
  | dispatchTimeout (q : Nat) (e : Nat) (b : Nat)
  /-- GSTEPIN_GO (R367): A write of GSTEPIN with GO starts a step decision or sets GDECIDE.ERR. -/
  | gstepinGo (c : Nat) (step : Nat) (vote : Nat)
  /-- DECISION_COMPLETE (R368): The step decision completes, writing GDECIDE, GCLIP, GNORM, GSTEP and the loss scale. -/
  | decisionComplete
  /-- NONFINITE_LOG (R371): A write of GNFLOG records a non-finite finding or counts it lost. -/
  | nonfiniteLog (c : Nat) (v : BitVec 64)
  /-- PHASE_START (R391): A phase mark of KIND 0 records a start time and opens the phase. -/
  | phaseStart (c : Nat) (p : Nat)
  /-- PHASE_END (R391): A phase mark of KIND 1 records the end time of an open phase. -/
  | phaseEnd (c : Nat) (p : Nat)
  /-- PHASE_CLEAR (R391): A phase mark of KIND 2 closes the phase. -/
  | phaseClear (c : Nat) (p : Nat)
  /-- SSTAGE_WRITE (R392): A write of a shard stage word, waiting until any RUN on the shard ends. -/
  | sstageWrite (c : Nat) (st : Nat) (n : Nat) (v : BitVec 64)
  /-- FAR_SEND_FRAG (R404): A far send descriptor of type FRAG sends a folio run to recipient sites. -/
  | farSendFrag (c : Nat) (a : Nat)
  /-- FAR_SEND_CATCH (R414): A far send descriptor of type CATCH sends a snapshot part to a catching site. -/
  | farSendCatch (c : Nat) (a : Nat)
  /-- FAR_PACKET_TRANSMIT (R405): A far packet leaves its port once its token bucket holds its bytes. -/
  | farPacketTransmit (p : Nat)
  /-- FRAG_PACKET (R407): A received FRAG is checked and filed in a receive slot, or discarded and counted. -/
  | fragPacket (p : Nat) (frame : List Nat)
  /-- FAR_HELLO (R417): A received far HELLO updates the partner's version, last sealed round and receipt report. -/
  | farHello (p : Nat) (frame : List Nat)
  /-- JOIN_PACKET (R414): A received JOIN marks the partner CATCHING, or requests sponsorship or repair pages. -/
  | joinPacket (p : Nat) (frame : List Nat)
  /-- CATCH_PACKET (R415): A received CATCH page is filed, possibly completing accession. -/
  | catchPacket (p : Nat) (frame : List Nat)
  /-- ENTER_PACKET (R416): A received ENTER makes a catching partner ACTIVE from a chosen round. -/
  | enterPacket (p : Nat) (frame : List Nat)
  /-- NEIGHBOR_SOLICITATION (R395): A Neighbor Solicitation for the port's address is answered with a Neighbor Advertisement. -/
  | neighborSolicitation (p : Nat) (frame : List Nat)
  /-- CLOSE (R406): A write of XRCTL.CLOSE closes a round and starts its deadline. -/
  | closeRound (c : Nat) (r : Nat) (ownex : Bool)
  /-- SEAL (R409): A write of XRCTL.SEAL forces the waiting round to seal. -/
  | sealRound (c : Nat)
  /-- FREE (R411): A write of XRCTL.FREE releases a manifest and its slots, letting a waiting seal proceed. -/
  | freeRound (c : Nat) (r : Nat)
  /-- JOIN (R414): A write of XRCTL.JOIN starts accession and sends JOIN to partners. -/
  | joinRound (c : Nat)
  /-- ENTER (R416): A write of XRCTL.ENTER ends accession and sends ENTER to partners. -/
  | enterRound (c : Nat)
  /-- ROUND_DEADLINE (R409): TBTIME reaches a waiting round's deadline and the round is sealed. -/
  | roundDeadline
  /-- FAR_HELLO_INTERVAL (R417): Every XTMO.HELLO the device sends far HELLO to each partner. -/
  | farHelloInterval
  /-- CATCH_REPAIR_TIMER (R415): 100 ms without a CATCH arrival sends a JOIN repair list to the sponsor. -/
  | catchRepairTimer
  /-- CATCH_TIMEOUT (R415): Accession incomplete at CATCHTO sets CATCHFAIL and stops repairing. -/
  | catchTimeout
  /-- FAR_LINK_CHANGE (R395): A far port's link comes up or is lost. -/
  | farLinkChange (p : Nat) (up : Bool)
  /-- GRSTRND_WRITE (R446): A write of GRSTRND restores XRSTAT.SEALED or is refused. -/
  | grstrndWrite (c : Nat) (v : Nat)
  /-- LEDGER_MODE_WRITE (R431): A write of GLEDCTL.MODE commits pending records and changes the ledger mode. -/
  | ledgerModeWrite (c : Nat) (mode : Nat) (far : Bool)
  /-- LEDGER_RP_WRITE (R436): A write of GLEDRP frees ring space or, in replay, supplies recorded records. -/
  | ledgerRpWrite (rp : Nat)
  /-- GAP_RECORD (R435): After a lost record a GAP record is written as soon as one fits. -/
  | gapRecord
  /-- SQ_DOORBELL (R460): A write of HQSQTAIL submits commands or faults the context. -/
  | sqDoorbell (c : Nat) (v : Nat)
  /-- COMMAND_FETCH (R461): The device fetches the next command covered by the doorbell and starts it. -/
  | commandFetch (c : Nat)
  /-- NOP_COMMAND (R462): Host NOP command completes at once. -/
  | nopCommand (c : Nat) (k : Nat)
  /-- WRITE_COMMAND (R462): Host WRITE command copies host memory into device memory and records HOSTDATA. -/
  | writeCommand (c : Nat) (k : Nat)
  /-- READ_COMMAND (R462): Host READ command copies device memory to host memory. -/
  | readCommand (c : Nat) (k : Nat)
  /-- START_COMMAND (R462): Host START command starts a tile at an index. -/
  | startCommand (c : Nat) (k : Nat)
  /-- STOP_COMMAND (R462): Host STOP command halts a tile. -/
  | stopCommand (c : Nat) (k : Nat)
  /-- COLL_COMMAND (R462): Host COLL command submits a collective descriptor. -/
  | collCommand (c : Nat) (k : Nat)
  /-- PLAN_COMMAND (R462): Host PLAN command copies a plan record and writes the plan doorbell. -/
  | planCommand (c : Nat) (k : Nat)
  /-- TOKWAIT (R462): Host TOKWAIT command waits for a token count and subtracts it. -/
  | tokwait (c : Nat) (k : Nat) (expired : Bool)
  /-- TOKADD (R462): Host TOKADD command adds to a token. -/
  | tokadd (c : Nat) (k : Nat)
  /-- RRESET_COMMAND (R462): Host RRESET command builds, tags and sends a remote reset packet. -/
  | rresetCommand (c : Nat) (k : Nat)
  /-- COMMAND_COMPLETE (R463): A command completes and its completion entry is written when the ring has room. -/
  | commandComplete (c : Nat) (k : Nat)
  /-- COMPLETION_HEAD_WRITE (R463): A write of HQCQHEAD consumes completion entries and frees ring space. -/
  | completionHeadWrite (c : Nat) (v : Nat)
  /-- EVENT_HEAD_WRITE (R465): A write of HQEVHEAD consumes event entries and re-arms the loss log. -/
  | eventHeadWrite (c : Nat) (v : Nat)
  /-- QUEUE_ENABLE (R466): A write of HQCFG.EN enables the queues with a version, or faults the context. -/
  | queueEnable (c : Nat) (v : BitVec 64)
  /-- HOST_READ (R456): A host BAR2 read is checked and completed with data or Completer Abort. -/
  | hostRead (c : Nat) (bar : Nat) (x : Nat) (n : Nat)
  /-- HOST_WRITE (R456): A host BAR2 write is checked and performed, poisoning granules on EP, or discarded. -/
  | hostWrite (c : Nat) (bar : Nat) (x : Nat) (bs : List Nat) (ep : Bool)
  /-- HOST_DMA_COMPLETION (R451): A completion for a device read of host memory arrives, possibly as a host DMA error. -/
  | hostDmaCompletion (id : Nat) (status : Nat) (bytes : List Nat) (pois : List Nat)
  /-- QUANTUM_END (R467): A partition's quantum ends and a switch starts when another context is ready. -/
  | quantumEnd (part : Nat)
  /-- DRAIN_DONE (R468): A switching partition finishes draining and its caches are invalidated. -/
  | drainDone (part : Nat)
  /-- SAVE_DONE (R468): The outgoing context's save image is written. -/
  | saveDone (part : Nat)
  /-- RESTORE_DONE (R468): The incoming context is restored or initialised and resumes. -/
  | restoreDone (part : Nat)
  /-- CONTEXT_RESET (R473): A write of HCTXCTL.RESET or HCTXRST resets one context. -/
  | contextReset (by_ : Nat) (c : Nat)
  /-- FLR (R474): A function level reset resets the function's context and configuration. -/
  | flr (fn : Nat)
  /-- PARTITION_RESET (R475): A write of HPRST resets every context, tile and engine of a partition. -/
  | partitionReset (c : Nat) (part : Nat)
  /-- PCIE_LINK_LOSS (R452): The PCIe link leaves L0 other than by PERST# and queue fetches wait. -/
  | pcieLinkLoss
  /-- PCIE_LINK_RETRAINED (R452): The PCIe link returns to L0 and queue fetches resume. -/
  | pcieLinkRetrained (rate : Nat) (width : Nat)
  /-- BUS_MASTER_DISABLE (R472): Bus Master Enable cleared while EN = 1 faults the context with cause 4. -/
  | busMasterDisable (c : Nat)
  /-- VF_ENABLE (R453): The host enables or disables virtual functions, changing their contexts' states. -/
  | vfEnable (n : Nat)
  /-- MODERATION_DELAY_END (R471): An interrupt moderation delay ends and one vector signal is sent. -/
  | moderationDelayEnd (fn : Nat)
  /-- FLASH_READ (R495): CFLCMD read of 256 flash bytes into CFLBUF. -/
  | flashRead (c : Nat) (a : Nat)
  /-- FLASH_PROGRAM (R495): CFLCMD program of a 256-byte page from CFLBUF. -/
  | flashProgram (c : Nat) (a : Nat)
  /-- FLASH_ERASE (R495): CFLCMD erase of a 64 KiB sector. -/
  | flashErase (c : Nat) (a : Nat)
  /-- FLASH_OP_DONE (R495): A flash operation ends and CFLSTAT.BUSY clears. -/
  | flashOpDone (ok : Bool)
  /-- WATCHDOG_KICK (R504): A write of CWDOG.KICK restarts the watchdog count. -/
  | watchdogKick (c : Nat)
  /-- WATCHDOG_EXPIRY (R504): The watchdog limit passes without a kick and a device reset follows. -/
  | watchdogExpiry
  /-- KEY_LOAD (R508): A write of KLDCTL.GO starts loading a key blob into a slot, or is refused. -/
  | keyLoad (c : Nat) (n : Nat)
  /-- KEY_LOAD_DONE (R508): A key load ends, replacing the slot's key and USE or recording a failure code. -/
  | keyLoadDone
  /-- KEY_CLEAR (R508): A write of KLDCTL.CLR empties a key slot. -/
  | keyClear (c : Nat) (n : Nat)
  /-- PEAK_REQUEST (R523): A write of GCTL.PEAKEN requests Peak mode, refused once the budget is spent. -/
  | peakRequest (c : Nat) (v : Bool)
  /-- PACED_SELECT (R519): A write of GCTL.PACED selects or leaves Paced mode. -/
  | pacedSelect (c : Nat) (v : Bool)
  /-- EFFICIENT_SELECT (R519): A write of PCTL.EFF selects or leaves Efficient mode. -/
  | efficientSelect (c : Nat) (v : Bool)
  /-- PARK (R525): A write of PCTL.PARK = 1 parks the device or is refused. -/
  | park (c : Nat)
  /-- UNPARK (R525): A write of PCTL.PARK = 0 restores the core voltage and retrains the ports. -/
  | unpark (c : Nat)
  /-- GOVERNOR_TICK (R521): Each millisecond the governor measures power, updates the energy credit and the voltage, and may open a window. -/
  | governorTick (avg : Nat) (mv : Nat) (beat : Nat)
  /-- PEAK_WINDOW_END (R521): A Peak window closes 250 ms after it opened. -/
  | peakWindowEnd
  /-- PEAK_SECOND (R522): A second of Peak window time is counted, burning a fuse bit every 3,600 s. -/
  | peakSecond
  /-- PACED_ALLOWANCE (R524): Each 125 ns of TBTIME grants every unit 264 beats in Paced mode. -/
  | pacedAllowance (met : Bool)
  /-- SENSOR_READ (R526): Every 100 us the sensors are read, driving throttling and thermal-approach hints. -/
  | sensorRead (t0 : BitVec 16) (t1 : BitVec 16) (ts : BitVec 16)
  /-- THROTTLE_STEP (R527): Each millisecond of throttling the core voltage moves by 5 mV. -/
  | throttleStep
  /-- THERMAL_TRIP (R528): A sensor reaching 115 C asserts THERMTRIP_N, cuts regulators and starts a device reset. -/
  | thermalTrip (sensor : Nat)
  /-- THERMTRIP_RELEASE (R528): Every sensor at 100 C or less releases THERMTRIP_N and the held reset. -/
  | thermtripRelease
  /-- HALT_SAMPLE (R529): Every 1,000 ns the halt pins are sampled and judged as agreement, disagreement or halt. -/
  | haltSample (a : Bool) (b : Bool)
  /-- DISCREPANCY_TIMEOUT (R529): A halt-pin disagreement lasting longer than TD latches PHALT.FAULT and halts. -/
  | discrepancyTimeout
  /-- RESUME (R531): A write of PHALT.RESUME ends a halt when both pins are high and no fault is latched. -/
  | resume (c : Nat)
  /-- FAULT_CLEAR (R531): A write of 1 to PHALT.FAULT clears the fault only while both pins are high. -/
  | faultClear (c : Nat)
  /-- READ_CLEAR (R542): A read that covers a whole RC field returns it and clears it. -/
  | readClear (c : Nat) (x : Nat) (n : Nat)
  /-- REGISTER_WRITE (R542): A write to a register without a row of its own updates its RW and W1C bits or meets the address fault. -/
  | registerWrite (c : Nat) (x : Nat) (bs : List Nat)
  /-- COMPLETION_TIMEOUT (R451): A device read of host memory that receives no completion within the PCIe completion timeout becomes a host DMA error. -/
  | completionTimeout (id : Nat)
  /-- CHANNEL_TRAINING_LOST (R230): A stack channel's interface loses training while the device runs, starting the 1 ms window in which it must retrain. -/
  | channelTrainingLost (st : Nat) (ch : Nat)
  deriving DecidableEq, Repr

end Sys2Proof
end

