-- ==== Sys2Proof/Decode.lean ====
section
/-! DEFINITION. Reading a command from a word of the opcode table's bits. No row of spec/opcode_table.json gives bits: the commands are
events and requests at the block, not words it decodes, so no word spells one. (The words of tile programs are operands: the rows of tile
instructions carry bits [53:0] of theirs, and Machine/Operands.lean compares the whole word with what the tile fetches.) -/

namespace Sys2Proof

/-- The command that a word of nbits bits spells: none, since the table gives no row any bits. -/
def decodeTableWord (_nbits _w : Nat) : Option Instr := none

end Sys2Proof
end

