-- ==== Sys2Proof/Machine/Bits.lean ====
section
/-! DEFINITION. Bit fields, sign extension and little-endian byte order, the one place each is decided. -/

namespace Sys2Proof.Machine

/-- Bits [lo + w - 1 : lo] of a natural number. -/
def bitsOf (x lo w : Nat) : Nat := (x >>> lo) % 2 ^ w

/-- Bit i of a natural number. -/
def bitOf (x i : Nat) : Bool := bitsOf x i 1 == 1

/-- x with bits [lo + w - 1 : lo] replaced by v. -/
def putBits (x lo w v : Nat) : Nat :=
  x - bitsOf x lo w * 2 ^ lo + (v % 2 ^ w) * 2 ^ lo

/-- The natural number whose two's-complement value in w bits is the integer i. -/
def ofIntW (w : Nat) (i : Int) : Nat := (i % (2 ^ w : Nat)).toNat

/-- The two's-complement value of the low w bits of x. -/
def toIntW (w x : Nat) : Int :=
  let y := x % 2 ^ w
  if w = 0 then 0 else if 2 ^ (w - 1) ≤ y then (y : Int) - (2 ^ w : Nat) else (y : Int)

/-- Saturating addition at a counter's largest value. -/
def satAdd (cap x n : Nat) : Nat := min cap (x + n)

/-- The n bytes of x, least significant first (all multi-byte fields are little-endian). -/
def leBytes (n x : Nat) : List Nat := (List.range n).map fun i => bitsOf x (8 * i) 8

/-- The number whose bytes are bs, least significant first. -/
def ofLE (bs : List Nat) : Nat := bs.foldr (fun b acc => b % 256 + 256 * acc) 0

/-- The number in the n bytes at offset o of a byte list. -/
def le (bs : List Nat) (o n : Nat) : Nat := ofLE ((bs.drop o).take n)

/-- The exclusive or of the low n bits of x. -/
def parity (n x : Nat) : Bool := (List.range n).foldl (fun p i => xor p (bitOf x i)) false

/-- The number of ones among the low n bits of x. -/
def popcount (n x : Nat) : Nat := ((List.range n).filter fun i => bitOf x i).length

/-- Floor of the base-2 logarithm (0 at 0). -/
def ilog2 (x : Nat) : Nat := Nat.log2 x

/-- Number of bits needed to write x. -/
def bitLen (x : Nat) : Nat := if x = 0 then 0 else Nat.log2 x + 1

/-- The element at position i, or d. -/
def nth {α : Type} (d : α) (l : List α) (i : Nat) : α := (l[i]?).getD d

/-- Replace position i of a list; a position past the end changes nothing. -/
def setNth {α : Type} (l : List α) (i : Nat) (v : α) : List α := l.set i v

/-- The integer quotient rounded up. -/
def ceilDiv (a b : Nat) : Nat := (a + b - 1) / b

end Sys2Proof.Machine
end

