-- ==== Sys2Proof/Machine/Crypto.lean ====
section
/-! DEFINITION. The keyed-check engine's arithmetic (R484, R505, R507, R508): AES-256, AES-256-CMAC (NIST SP
800-38B) and the AES key-wrap algorithm (NIST SP 800-38F, KW); and CRC-32C (R325). Bytes are natural numbers
below 256, in message order. -/

namespace Sys2Proof.Machine

/-- The AES substitution box, 32 entries a word, entry 0 in the lowest byte. -/
def aesSboxWords : List Nat :=
  [0xc072a49cafa2d4adf04759fa7dc982ca76abd7fe2b670130c56f6bf27b777c63,
   0x75b227ebe28012079a059618c323c7041531d871f1e5a534ccf73f362693fdb7,
   0xcf584c4a39becb6a5bb1fc20ed00d153842fe329b3d63b52a05a6e1b1a2c8309,
   0xd2f3ff1021dab6bcf5389d928f40a351a89f3c507f02f94585334d43fbaaefd0,
   0xdb0b5ede14b8ee4688902a22dc4f816073195d643d7ea7c41744975fec130ccd,
   0x08ae7a65eaf4566ca94ed58d6d37c8e779e4959162acd3c25c2406490a3a32e0,
   0x9e1dc186b95735610ef6034866b53e708a8bbd4b1f74dde8c6b4a61c2e2578ba,
   0x16bb54b00f2d99416842e6bf0d89a18cdf2855cee9871e9b948ed9691198f8e1]

/-- SubBytes of one byte. -/
def aesSub (x : Nat) : Nat := bitsOf (nth 0 aesSboxWords (x / 32)) (8 * (x % 32)) 8

/-- Inverse SubBytes of one byte. -/
def aesSubInv (y : Nat) : Nat := ((List.range 256).find? fun x => aesSub x == y).getD 0

/-- Multiplication by x in GF(2^8). -/
def gfX (a : Nat) : Nat := if a < 128 then 2 * a else (2 * a) ^^^ 0x11B

/-- Multiplication in GF(2^8); the second factor is one of the small MixColumns constants. -/
def gfMul (a b : Nat) : Nat :=
  let a2 := gfX a
  let a4 := gfX a2
  let a8 := gfX a4
  (if bitOf b 0 then a else 0) ^^^ (if bitOf b 1 then a2 else 0) ^^^ (if bitOf b 2 then a4 else 0)
    ^^^ (if bitOf b 3 then a8 else 0)

/-- Bytewise exclusive or. -/
def xorBytes (a b : List Nat) : List Nat := (a.zip b).map fun p => p.1 ^^^ p.2

/-- ShiftRows: byte 4c + r comes from column c + r. -/
def aesShift (st : List Nat) : List Nat :=
  (List.range 16).map fun i => nth 0 st (4 * ((i / 4 + i % 4) % 4) + i % 4)

/-- Inverse ShiftRows. -/
def aesShiftInv (st : List Nat) : List Nat :=
  (List.range 16).map fun i => nth 0 st (4 * ((i / 4 + 4 - i % 4) % 4) + i % 4)

/-- MixColumns with the circulant row k. -/
def aesMix (k : List Nat) (st : List Nat) : List Nat :=
  (List.range 16).map fun i =>
    (List.range 4).foldl (fun a j => a ^^^ gfMul (nth 0 st (4 * (i / 4) + j)) (nth 0 k ((4 + j - i % 4) % 4))) 0

/-- Round constants of AES-256's key schedule. -/
def aesRcon : List Nat := [1, 2, 4, 8, 16, 32, 64]

/-- One word of the key schedule: ws holds the words so far, newest first; i is the new word's index. -/
def aesNextWord (ws : List (List Nat)) (i : Nat) : List Nat :=
  let prev := nth [] ws 0
  let t :=
    if i % 8 = 0 then
      xorBytes ([nth 0 prev 1, nth 0 prev 2, nth 0 prev 3, nth 0 prev 0].map aesSub) [nth 0 aesRcon (i / 8 - 1), 0, 0, 0]
    else if i % 8 = 4 then prev.map aesSub
    else prev
  xorBytes (nth [] ws 7) t

/-- The 15 round keys of a 32-byte key. -/
def aesRoundKeys (key : List Nat) : List (List Nat) :=
  let w0 := ((List.range 8).map fun i => (key.drop (4 * i)).take 4).reverse
  let ws := ((List.range 52).foldl (fun ws i => aesNextWord ws (i + 8) :: ws) w0).reverse
  (List.range 15).map fun r => ((ws.drop (4 * r)).take 4).flatten

/-- AES-256 encryption of a 16-byte block. -/
def aesEnc (key blk : List Nat) : List Nat :=
  let ks := aesRoundKeys key
  let s := xorBytes blk (nth [] ks 0)
  let s := (List.range 13).foldl (fun s r => xorBytes (aesMix [2, 3, 1, 1] (aesShift (s.map aesSub))) (nth [] ks (r + 1))) s
  xorBytes (aesShift (s.map aesSub)) (nth [] ks 14)

/-- AES-256 decryption of a 16-byte block. -/
def aesDec (key blk : List Nat) : List Nat :=
  let ks := aesRoundKeys key
  let s := (aesShiftInv (xorBytes blk (nth [] ks 14))).map aesSubInv
  let s := (List.range 13).foldl
    (fun s r => (aesShiftInv (aesMix [14, 11, 13, 9] (xorBytes s (nth [] ks (13 - r))))).map aesSubInv) s
  xorBytes s (nth [] ks 0)

/-- Doubling in GF(2^128), most significant byte first. -/
def cmacDbl (b : List Nat) : List Nat :=
  let x := ofLE b.reverse
  let y := if x < 2 ^ 127 then 2 * x else ((2 * x) % 2 ^ 128) ^^^ 0x87
  (leBytes 16 y).reverse

/-- CBC chaining over the full blocks of a message. -/
def cmacChain (key : List Nat) : Nat → List Nat → List Nat → List Nat
  | 0, c, _ => c
  | n + 1, c, m => cmacChain key n (aesEnc key (xorBytes c (m.take 16))) (m.drop 16)

/-- AES-256-CMAC tag of a message. -/
def cmac (key msg : List Nat) : List Nat :=
  let k1 := cmacDbl (aesEnc key (List.replicate 16 0))
  let k2 := cmacDbl k1
  let n := if msg.isEmpty then 1 else ceilDiv msg.length 16
  let last := msg.drop (16 * (n - 1))
  let lastX := if last.length = 16 then xorBytes last k1
    else xorBytes (last ++ [0x80] ++ List.replicate (15 - last.length) 0) k2
  aesEnc key (xorBytes (cmacChain key (n - 1) (List.replicate 16 0) msg) lastX)

/-- One unwrap step of KW: t counts down from 6n. -/
def kwStep (key : List Nat) (n : Nat) (st : List Nat × List (List Nat)) (k : Nat) : List Nat × List (List Nat) :=
  let t := 6 * n - k
  let i := (t - 1) % n
  let a := xorBytes st.1 ((leBytes 8 t).reverse)
  let b := aesDec key (a ++ nth [] st.2 i)
  (b.take 8, setNth st.2 i (b.drop 8))

/-- AES-KW unwrap: the plaintext when the default ICV checks. -/
def kwUnwrap (key blob : List Nat) : Option (List Nat) :=
  let n := blob.length / 8 - 1
  let rs := (List.range n).map fun i => (blob.drop (8 * (i + 1))).take 8
  let r := (List.range (6 * n)).foldl (kwStep key n) (blob.take 8, rs)
  if r.1 = List.replicate 8 0xA6 then some r.2.flatten else none

/-- One wrap step of KW. -/
def kwWrapStep (key : List Nat) (n : Nat) (st : List Nat × List (List Nat)) (k : Nat) : List Nat × List (List Nat) :=
  let t := k + 1
  let i := k % n
  let b := aesEnc key (st.1 ++ nth [] st.2 i)
  (xorBytes (b.take 8) ((leBytes 8 t).reverse), setNth st.2 i (b.drop 8))

/-- AES-KW wrap (used to state what a blob is). -/
def kwWrap (key pt : List Nat) : List Nat :=
  let n := pt.length / 8
  let rs := (List.range n).map fun i => (pt.drop (8 * i)).take 8
  let r := (List.range (6 * n)).foldl (kwWrapStep key n) (List.replicate 8 0xA6, rs)
  r.1 ++ r.2.flatten

/-- One bit of the reflected CRC-32C (R325). -/
def crcBit (c : Nat) : Nat := if c % 2 = 1 then (c / 2) ^^^ 0x82F63B78 else c / 2

/-- One byte of the CRC. -/
def crcByte (c b : Nat) : Nat := (List.range 8).foldl (fun c _ => crcBit c) (c ^^^ (b % 256))

/-- CRC-32C of a byte string (R325). -/
def crc32c (bs : List Nat) : Nat := (bs.foldl crcByte 0xFFFFFFFF) ^^^ 0xFFFFFFFF

end Sys2Proof.Machine
end

