-- ==== Sys2Proof/Config.lean ====
section
/-! DEFINITION. What one device's manufacture fixes and this manual does not give (fused values), and the free values:
constants with no body, which stand wherever the manual leaves a value open. No proof can see what they are. -/

namespace Sys2Proof.Config

/-- GID.GRADEX (R49): fused, 1 for KD2048-B1-X. -/
opaque gradeX : Bool
/-- ARFP.AREV (R429, Table 14.3): the fused arithmetic revision, 0x01 at stepping B1, which this model is of (R1). -/
def arev : BitVec 8 := 0x01
/-- KFUSE.CMACREQ (R513): fused. -/
opaque cmacReq : Bool
/-- KFUSE.ROOTOK (R513): fused. -/
opaque rootOk : Bool
/-- KFUSE.SERIAL (R513): fused device serial number. -/
opaque serial : BitVec 48
/-- Peak hours fused before the first state of the model (R522). -/
opaque peakHours : Nat
/-- The fused 256-bit root key (R507), as 32 bytes. -/
opaque rootKey : BitVec 256
/-- Free value: where exp2, log2, reciprocal and reciprocal square root land inside their stated accuracy (R80,
R113), by operation and operand; the model takes it modulo the number of permitted values. -/
opaque vecSlack : Nat → BitVec 32 → Nat
/-- Free value: the contents of an error-log word outside RP to WP (R220: undefined), by address and a counter. -/
opaque logWord : Nat → Nat → BitVec 64
/-- Free value: the result of a conversion whose FX32 exponent byte is 0xFF, for which the manual states none (R101): by formats, mode bits,
scale and random bits, by the block's elements, and by position, 32 being the exponent byte (R80, R390: a function of these alone). -/
opaque fxFree : List Nat → List Nat → Nat → Nat
/-- Free value: which of two permitted outcomes occurs, by a counter (for example a reset-pin assertion between
10 and 100 microseconds, R499). -/
opaque coin : Nat → Bool
/-- Free value: which of several permitted outcomes occurs, by a counter (for example which of several PROG codes that hold together a
completion record shows). -/
opaque pick : Nat → Nat
/-- Free value: a permitted subset (R175, R464, Table 7.6: "any subset written"), by a counter and a position. -/
opaque subset : Nat → Nat → Bool
/-- Free value: an outcome byte the manual leaves undefined, by a counter and a position. -/
opaque freeByte : Nat → Nat → BitVec 8

/-- The fused fixed delay of a Miltum port, in 1/16 ns, that its timestamps leave out (R275): by port, of what it sends (true) or receives. -/
opaque portDelay : Nat → Bool → Nat

/-- The MAC address of a far port, which the manual gives no source for (R395 takes the next hop's from the image). -/
opaque farMac : Nat → BitVec 48

/-- The RP_READ data register's layout, which the manual does not give (R232): by channel and bank set, spare rows left, spare
column groups left. -/
opaque repairWord : Nat → Nat → Nat → BitVec 64
/-- The RP_FUSE data register's layout: by its fail bit (R232). -/
opaque burnWord : Bool → BitVec 64
/-- The MB_RESULT data register's layout: by the failing channels and the first failing address (R232). -/
opaque arrayWord : Nat → Nat → BitVec 128

end Sys2Proof.Config
end

