-- ==== Sys2Proof/Machine/RegMap.lean ====
section
/-! DEFINITION. The device's register maps, field by field, as the chapters that own them give them (R12, R13, R49,
R50, R89, R118, R143, R194, R219, R220, R245 to R247, R278, R335, R360, R393, R448, R449, R478, R479, R512, R513 and
the far, power and table windows). A field whose Reset column reads "image" or "fused" has reset 0 here; the image
and the fuses set it (see Machine/Regs.lean and Machine/Boot.lean). -/

namespace Sys2Proof.Machine

/-- Register field types (Table 0.6). -/
inductive FKind where
  | ro | rw | w1c | wo | rc
  deriving DecidableEq, Repr

/-- A field of a register: lowest bit, width, type, reset value. -/
structure FSpec where
  lo : Nat
  w : Nat
  kind : FKind
  rst : Nat
  deriving DecidableEq, Repr

/-- A register, or cnt registers of one layout, stride bytes apart, from an offset of its block. -/
structure RSpec where
  off : Nat
  cnt : Nat
  stride : Nat
  fs : List FSpec
  deriving DecidableEq, Repr

/-- A block, or cnt blocks of one layout: base address, distance, size. -/
structure BSpec where
  base : Nat
  cnt : Nat
  stride : Nat
  size : Nat
  regs : List RSpec
  deriving DecidableEq, Repr

/-- A named field at a device address. -/
structure Fld where
  addr : Nat
  lo : Nat
  w : Nat
  deriving DecidableEq, Repr

/-- Device address of TSQCTL. -/
def aTSQCTL (t : Nat) : Nat := 0x010000300100 + t * 0x400000
/-- Field TSQCTL.START. -/
def TSQCTL_START (t : Nat) : Fld := ⟨aTSQCTL t, 0, 13⟩
/-- Field TSQCTL.RUN. -/
def TSQCTL_RUN (t : Nat) : Fld := ⟨aTSQCTL t, 16, 1⟩
/-- Field TSQCTL.STOP. -/
def TSQCTL_STOP (t : Nat) : Fld := ⟨aTSQCTL t, 17, 1⟩
/-- Device address of TSQSTAT. -/
def aTSQSTAT (t : Nat) : Nat := 0x010000300108 + t * 0x400000
/-- Field TSQSTAT.STATE. -/
def TSQSTAT_STATE (t : Nat) : Fld := ⟨aTSQSTAT t, 0, 2⟩
/-- Field TSQSTAT.TOKOVF. -/
def TSQSTAT_TOKOVF (t : Nat) : Fld := ⟨aTSQSTAT t, 2, 1⟩
/-- Field TSQSTAT.PC. -/
def TSQSTAT_PC (t : Nat) : Fld := ⟨aTSQSTAT t, 16, 13⟩
/-- Field TSQSTAT.HCODE. -/
def TSQSTAT_HCODE (t : Nat) : Fld := ⟨aTSQSTAT t, 32, 16⟩
/-- Device address of TSQTRAP. -/
def aTSQTRAP (t : Nat) : Nat := 0x010000300110 + t * 0x400000
/-- Field TSQTRAP.CAUSE. -/
def TSQTRAP_CAUSE (t : Nat) : Fld := ⟨aTSQTRAP t, 0, 5⟩
/-- Field TSQTRAP.IMPR. -/
def TSQTRAP_IMPR (t : Nat) : Fld := ⟨aTSQTRAP t, 5, 1⟩
/-- Field TSQTRAP.PC. -/
def TSQTRAP_PC (t : Nat) : Fld := ⟨aTSQTRAP t, 6, 13⟩
/-- Field TSQTRAP.CODE. -/
def TSQTRAP_CODE (t : Nat) : Fld := ⟨aTSQTRAP t, 19, 16⟩
/-- Device address of TSQWTO. -/
def aTSQWTO (t : Nat) : Nat := 0x010000300118 + t * 0x400000
/-- Field TSQWTO.LIMIT. -/
def TSQWTO_LIMIT (t : Nat) : Fld := ⟨aTSQWTO t, 0, 32⟩
/-- Device address of TSMSTAT. -/
def aTSMSTAT (t : Nat) : Nat := 0x010000300120 + t * 0x400000
/-- Field TSMSTAT.CODE. -/
def TSMSTAT_CODE (t : Nat) : Fld := ⟨aTSMSTAT t, 0, 4⟩
/-- Field TSMSTAT.TOKEN. -/
def TSMSTAT_TOKEN (t : Nat) : Fld := ⟨aTSMSTAT t, 4, 5⟩
/-- Device address of TSMERR. -/
def aTSMERR (t : Nat) : Nat := 0x010000300128 + t * 0x400000
/-- Field TSMERR.ERR. -/
def TSMERR_ERR (t : Nat) : Fld := ⟨aTSMERR t, 0, 32⟩
/-- Device address of TMXSTAT. -/
def aTMXSTAT (t : Nat) : Nat := 0x010000300200 + t * 0x400000
/-- Field TMXSTAT.QMODE. -/
def TMXSTAT_QMODE (t : Nat) : Fld := ⟨aTMXSTAT t, 0, 1⟩
/-- Field TMXSTAT.BUSY. -/
def TMXSTAT_BUSY (t : Nat) : Fld := ⟨aTMXSTAT t, 1, 4⟩
/-- Field TMXSTAT.STAVAL. -/
def TMXSTAT_STAVAL (t : Nat) : Fld := ⟨aTMXSTAT t, 5, 4⟩
/-- Field TMXSTAT.ACCPOIS. -/
def TMXSTAT_ACCPOIS (t : Nat) : Fld := ⟨aTMXSTAT t, 9, 8⟩
/-- Device address of TMXBUSY. -/
def aTMXBUSY (t : Nat) : Nat := 0x010000300208 + t * 0x400000
/-- Field TMXBUSY.BEATS. -/
def TMXBUSY_BEATS (t : Nat) : Fld := ⟨aTMXBUSY t, 0, 48⟩
/-- Device address of TMXWAIT. -/
def aTMXWAIT (t : Nat) : Nat := 0x010000300210 + t * 0x400000
/-- Field TMXWAIT.BEATS. -/
def TMXWAIT_BEATS (t : Nat) : Fld := ⟨aTMXWAIT t, 0, 48⟩
/-- Device address of TBKWAIT. -/
def aTBKWAIT (t : Nat) : Nat := 0x010000300218 + t * 0x400000
/-- Field TBKWAIT.BEATS. -/
def TBKWAIT_BEATS (t : Nat) : Fld := ⟨aTBKWAIT t, 0, 48⟩
/-- Device address of VCTL. -/
def aVCTL (t : Nat) : Nat := 0x010000300220 + t * 0x400000
/-- Field VCTL.FTZ. -/
def VCTL_FTZ (t : Nat) : Fld := ⟨aVCTL t, 0, 1⟩
/-- Device address of VSTAT. -/
def aVSTAT (t : Nat) : Nat := 0x010000300228 + t * 0x400000
/-- Field VSTAT.FLUSHED. -/
def VSTAT_FLUSHED (t : Nat) : Fld := ⟨aVSTAT t, 0, 1⟩
/-- Field VSTAT.INVALID. -/
def VSTAT_INVALID (t : Nat) : Fld := ⟨aVSTAT t, 1, 1⟩
/-- Field VSTAT.OVERFLOW. -/
def VSTAT_OVERFLOW (t : Nat) : Fld := ⟨aVSTAT t, 2, 1⟩
/-- Field VSTAT.SATUR. -/
def VSTAT_SATUR (t : Nat) : Fld := ⟨aVSTAT t, 3, 1⟩
/-- Field VSTAT.UNDER. -/
def VSTAT_UNDER (t : Nat) : Fld := ⟨aVSTAT t, 4, 1⟩
/-- Field VSTAT.DIVZ. -/
def VSTAT_DIVZ (t : Nat) : Fld := ⟨aVSTAT t, 5, 1⟩
/-- Field VSTAT.NONFIN. -/
def VSTAT_NONFIN (t : Nat) : Fld := ⟨aVSTAT t, 6, 1⟩
/-- Device address of BLKUF. -/
def aBLKUF (t : Nat) : Nat := 0x010000300230 + t * 0x400000
/-- Field BLKUF.COUNT. -/
def BLKUF_COUNT (t : Nat) : Fld := ⟨aBLKUF t, 0, 32⟩
/-- Field BLKUF.MAXN. -/
def BLKUF_MAXN (t : Nat) : Fld := ⟨aBLKUF t, 32, 6⟩
/-- Device address of TSPILL. -/
def aTSPILL (t : Nat) : Nat := 0x010000300240 + t * 0x400000
/-- Field TSPILL.INTERVAL. -/
def TSPILL_INTERVAL (t : Nat) : Fld := ⟨aTSPILL t, 0, 14⟩
/-- Device address of TSPBND. -/
def aTSPBND (t i : Nat) : Nat := 0x010000300280 + t * 0x400000 + i * 0x8
/-- Field TSPBND.BASE. -/
def TSPBND_BASE (t i : Nat) : Fld := ⟨aTSPBND t i, 0, 15⟩
/-- Field TSPBND.BOUND. -/
def TSPBND_BOUND (t i : Nat) : Fld := ⟨aTSPBND t i, 15, 1⟩
/-- Field TSPBND.EMPTY0. -/
def TSPBND_EMPTY0 (t i : Nat) : Fld := ⟨aTSPBND t i, 16, 1⟩
/-- Field TSPBND.EMPTY1. -/
def TSPBND_EMPTY1 (t i : Nat) : Fld := ⟨aTSPBND t i, 17, 1⟩
/-- Field TSPBND.COUNT0. -/
def TSPBND_COUNT0 (t i : Nat) : Fld := ⟨aTSPBND t i, 24, 11⟩
/-- Field TSPBND.COUNT1. -/
def TSPBND_COUNT1 (t i : Nat) : Fld := ⟨aTSPBND t i, 35, 11⟩
/-- Field TSPBND.SPILLS. -/
def TSPBND_SPILLS (t i : Nat) : Fld := ⟨aTSPBND t i, 48, 16⟩
/-- Device address of TTOK. -/
def aTTOK (t i : Nat) : Nat := 0x010000300300 + t * 0x400000 + i * 0x8
/-- Field TTOK.COUNT. -/
def TTOK_COUNT (t i : Nat) : Fld := ⟨aTTOK t i, 0, 16⟩
/-- Device address of TMBX. -/
def aTMBX (t i : Nat) : Nat := 0x010000300400 + t * 0x400000 + i * 0x8
/-- Field TMBX.WORD. -/
def TMBX_WORD (t i : Nat) : Fld := ⟨aTMBX t i, 0, 64⟩
/-- Device address of TFLIP. -/
def aTFLIP (t : Nat) : Nat := 0x010000300500 + t * 0x400000
/-- Field TFLIP.ADDR. -/
def TFLIP_ADDR (t : Nat) : Fld := ⟨aTFLIP t, 0, 21⟩
/-- Field TFLIP.DMASK. -/
def TFLIP_DMASK (t : Nat) : Fld := ⟨aTFLIP t, 21, 8⟩
/-- Field TFLIP.CMASK. -/
def TFLIP_CMASK (t : Nat) : Fld := ⟨aTFLIP t, 29, 5⟩
/-- Field TFLIP.ARM. -/
def TFLIP_ARM (t : Nat) : Fld := ⟨aTFLIP t, 34, 1⟩
/-- Field TFLIP.PEND. -/
def TFLIP_PEND (t : Nat) : Fld := ⟨aTFLIP t, 35, 1⟩
/-- Device address of TSCCTL. -/
def aTSCCTL (t : Nat) : Nat := 0x010000300508 + t * 0x400000
/-- Field TSCCTL.INV. -/
def TSCCTL_INV (t : Nat) : Fld := ⟨aTSCCTL t, 0, 1⟩
/-- Device address of TSCSTAT. -/
def aTSCSTAT (t : Nat) : Nat := 0x010000300510 + t * 0x400000
/-- Field TSCSTAT.SIZE. -/
def TSCSTAT_SIZE (t : Nat) : Fld := ⟨aTSCSTAT t, 0, 3⟩
/-- Field TSCSTAT.DEPTH. -/
def TSCSTAT_DEPTH (t : Nat) : Fld := ⟨aTSCSTAT t, 3, 5⟩
/-- Device address of TSCCNT. -/
def aTSCCNT (t : Nat) : Nat := 0x010000300518 + t * 0x400000
/-- Field TSCCNT.HITS. -/
def TSCCNT_HITS (t : Nat) : Fld := ⟨aTSCCNT t, 0, 32⟩
/-- Field TSCCNT.MISSES. -/
def TSCCNT_MISSES (t : Nat) : Fld := ⟨aTSCCNT t, 32, 32⟩
/-- Device address of TECCCNT. -/
def aTECCCNT (t : Nat) : Nat := 0x010000300520 + t * 0x400000
/-- Field TECCCNT.CE. -/
def TECCCNT_CE (t : Nat) : Fld := ⟨aTECCCNT t, 0, 32⟩
/-- Field TECCCNT.UE. -/
def TECCCNT_UE (t : Nat) : Fld := ⟨aTECCCNT t, 32, 32⟩
/-- Device address of TFOLCNT. -/
def aTFOLCNT (t : Nat) : Nat := 0x010000300528 + t * 0x400000
/-- Field TFOLCNT.BLOCKS. -/
def TFOLCNT_BLOCKS (t : Nat) : Fld := ⟨aTFOLCNT t, 0, 32⟩
/-- Field TFOLCNT.OUT64. -/
def TFOLCNT_OUT64 (t : Nat) : Fld := ⟨aTFOLCNT t, 32, 32⟩
/-- Device address of TFOLERR. -/
def aTFOLERR (t : Nat) : Nat := 0x010000300530 + t * 0x400000
/-- Field TFOLERR.RAW. -/
def TFOLERR_RAW (t : Nat) : Fld := ⟨aTFOLERR t, 0, 32⟩
/-- Field TFOLERR.CHKFAIL. -/
def TFOLERR_CHKFAIL (t : Nat) : Fld := ⟨aTFOLERR t, 32, 16⟩
/-- Device address of TRNGSTEP. -/
def aTRNGSTEP (t : Nat) : Nat := 0x010000300540 + t * 0x400000
/-- Field TRNGSTEP.STEP. -/
def TRNGSTEP_STEP (t : Nat) : Fld := ⟨aTRNGSTEP t, 0, 32⟩

/-- The register map of the tile block. -/
def regs_tile : List RSpec :=
  [⟨0x100, 1, 8, [⟨0, 13, .rw, 0⟩, ⟨16, 1, .wo, 0⟩, ⟨17, 1, .wo, 0⟩]⟩,
   ⟨0x108, 1, 8, [⟨0, 2, .ro, 0⟩, ⟨2, 1, .w1c, 0⟩, ⟨16, 13, .ro, 0⟩, ⟨32, 16, .ro, 0⟩]⟩,
   ⟨0x110, 1, 8, [⟨0, 5, .ro, 0⟩, ⟨5, 1, .ro, 0⟩, ⟨6, 13, .ro, 0⟩, ⟨19, 16, .ro, 0⟩]⟩,
   ⟨0x118, 1, 8, [⟨0, 32, .ro, 100000⟩]⟩,
   ⟨0x120, 1, 8, [⟨0, 4, .ro, 0⟩, ⟨4, 5, .ro, 0⟩]⟩,
   ⟨0x128, 1, 8, [⟨0, 32, .w1c, 0⟩]⟩,
   ⟨0x200, 1, 8, [⟨0, 1, .ro, 0⟩, ⟨1, 4, .ro, 0⟩, ⟨5, 4, .ro, 0⟩, ⟨9, 8, .ro, 0⟩]⟩,
   ⟨0x208, 1, 8, [⟨0, 48, .rc, 0⟩]⟩,
   ⟨0x210, 1, 8, [⟨0, 48, .rc, 0⟩]⟩,
   ⟨0x218, 1, 8, [⟨0, 48, .rc, 0⟩]⟩,
   ⟨0x220, 1, 8, [⟨0, 1, .rw, 0⟩]⟩,
   ⟨0x228, 1, 8, [⟨0, 1, .w1c, 0⟩, ⟨1, 1, .w1c, 0⟩, ⟨2, 1, .w1c, 0⟩, ⟨3, 1, .w1c, 0⟩, ⟨4, 1, .w1c, 0⟩, ⟨5, 1, .w1c, 0⟩, ⟨6, 1, .w1c, 0⟩]⟩,
   ⟨0x230, 1, 8, [⟨0, 32, .rc, 0⟩, ⟨32, 6, .rc, 0⟩]⟩,
   ⟨0x240, 1, 8, [⟨0, 14, .ro, 2048⟩]⟩,
   ⟨0x280, 8, 8, [⟨0, 15, .ro, 0⟩, ⟨15, 1, .ro, 0⟩, ⟨16, 1, .ro, 0⟩, ⟨17, 1, .ro, 0⟩, ⟨24, 11, .ro, 0⟩, ⟨35, 11, .ro, 0⟩, ⟨48, 16, .ro, 0⟩]⟩,
   ⟨0x300, 32, 8, [⟨0, 16, .rw, 0⟩]⟩,
   ⟨0x400, 16, 8, [⟨0, 64, .rw, 0⟩]⟩,
   ⟨0x500, 1, 8, [⟨0, 21, .rw, 0⟩, ⟨21, 8, .rw, 0⟩, ⟨29, 5, .rw, 0⟩, ⟨34, 1, .wo, 0⟩, ⟨35, 1, .ro, 0⟩]⟩,
   ⟨0x508, 1, 8, [⟨0, 1, .wo, 0⟩]⟩,
   ⟨0x510, 1, 8, [⟨0, 3, .ro, 0⟩, ⟨3, 5, .ro, 4⟩]⟩,
   ⟨0x518, 1, 8, [⟨0, 32, .rc, 0⟩, ⟨32, 32, .rc, 0⟩]⟩,
   ⟨0x520, 1, 8, [⟨0, 32, .rc, 0⟩, ⟨32, 32, .rc, 0⟩]⟩,
   ⟨0x528, 1, 8, [⟨0, 32, .rc, 0⟩, ⟨32, 32, .rc, 0⟩]⟩,
   ⟨0x530, 1, 8, [⟨0, 32, .rc, 0⟩, ⟨32, 16, .rc, 0⟩]⟩,
   ⟨0x540, 1, 8, [⟨0, 32, .rw, 0⟩]⟩]

/-- Device address of GID. -/
def aGID : Nat := 0x020000000000
/-- Field GID.STEPL. -/
def GID_STEPL : Fld := ⟨aGID, 0, 4⟩
/-- Field GID.STEPN. -/
def GID_STEPN : Fld := ⟨aGID, 4, 4⟩
/-- Field GID.GRADEX. -/
def GID_GRADEX : Fld := ⟨aGID, 8, 1⟩
/-- Field GID.DEVCODE. -/
def GID_DEVCODE : Fld := ⟨aGID, 16, 16⟩
/-- Device address of GSTAT. -/
def aGSTAT : Nat := 0x020000000008
/-- Field GSTAT.ARBHOLD. -/
def GSTAT_ARBHOLD : Fld := ⟨aGSTAT, 0, 1⟩
/-- Field GSTAT.PRIM. -/
def GSTAT_PRIM : Fld := ⟨aGSTAT, 1, 1⟩
/-- Field GSTAT.CFGDEF. -/
def GSTAT_CFGDEF : Fld := ⟨aGSTAT, 2, 1⟩
/-- Field GSTAT.STRAPBAD. -/
def GSTAT_STRAPBAD : Fld := ⟨aGSTAT, 3, 1⟩
/-- Field GSTAT.TBLOCK. -/
def GSTAT_TBLOCK : Fld := ⟨aGSTAT, 4, 1⟩
/-- Field GSTAT.BRDEG. -/
def GSTAT_BRDEG : Fld := ⟨aGSTAT, 5, 1⟩
/-- Device address of GARB. -/
def aGARB : Nat := 0x020000000010
/-- Field GARB.ATTEMPT. -/
def GARB_ATTEMPT : Fld := ⟨aGARB, 0, 2⟩
/-- Field GARB.CAUSE. -/
def GARB_CAUSE : Fld := ⟨aGARB, 2, 3⟩
/-- Field GARB.STRAPVAL. -/
def GARB_STRAPVAL : Fld := ⟨aGARB, 8, 4⟩
/-- Field GARB.STRAPADC. -/
def GARB_STRAPADC : Fld := ⟨aGARB, 12, 6⟩
/-- Field GARB.STRAPHALF. -/
def GARB_STRAPHALF : Fld := ⟨aGARB, 18, 1⟩
/-- Device address of GBRIDGE. -/
def aGBRIDGE : Nat := 0x020000000018
/-- Field GBRIDGE.LINKOK. -/
def GBRIDGE_LINKOK : Fld := ⟨aGBRIDGE, 0, 32⟩
/-- Device address of GCTL. -/
def aGCTL : Nat := 0x020000000020
/-- Field GCTL.DETM. -/
def GCTL_DETM : Fld := ⟨aGCTL, 0, 1⟩
/-- Field GCTL.DETMF. -/
def GCTL_DETMF : Fld := ⟨aGCTL, 1, 1⟩
/-- Field GCTL.PEAKEN. -/
def GCTL_PEAKEN : Fld := ⟨aGCTL, 2, 1⟩
/-- Field GCTL.PACED. -/
def GCTL_PACED : Fld := ⟨aGCTL, 3, 1⟩
/-- Device address of ARFP. -/
def aARFP : Nat := 0x020000000028
/-- Field ARFP.STEPC. -/
def ARFP_STEPC : Fld := ⟨aARFP, 0, 8⟩
/-- Field ARFP.AREV. -/
def ARFP_AREV : Fld := ⟨aARFP, 8, 8⟩
/-- Field ARFP.DETM. -/
def ARFP_DETM : Fld := ⟨aARFP, 16, 1⟩
/-- Field ARFP.FTZ0. -/
def ARFP_FTZ0 : Fld := ⟨aARFP, 17, 1⟩
/-- Field ARFP.SPILL. -/
def ARFP_SPILL : Fld := ⟨aARFP, 18, 5⟩
/-- Device address of GSEED. -/
def aGSEED : Nat := 0x020000000030
/-- Field GSEED.SEED. -/
def GSEED_SEED : Fld := ⟨aGSEED, 0, 64⟩
/-- Device address of GCKHINT. -/
def aGCKHINT : Nat := 0x020000000038
/-- Field GCKHINT.BUCKET. -/
def GCKHINT_BUCKET : Fld := ⟨aGCKHINT, 0, 1⟩
/-- Field GCKHINT.LINK. -/
def GCKHINT_LINK : Fld := ⟨aGCKHINT, 1, 1⟩
/-- Field GCKHINT.CHAN. -/
def GCKHINT_CHAN : Fld := ⟨aGCKHINT, 2, 1⟩
/-- Field GCKHINT.THERM. -/
def GCKHINT_THERM : Fld := ⟨aGCKHINT, 3, 1⟩
/-- Field GCKHINT.COUNT. -/
def GCKHINT_COUNT : Fld := ⟨aGCKHINT, 16, 16⟩
/-- Device address of GCKCFG. -/
def aGCKCFG : Nat := 0x020000000040
/-- Field GCKCFG.AUTO. -/
def GCKCFG_AUTO : Fld := ⟨aGCKCFG, 0, 1⟩
/-- Field GCKCFG.NARROW. -/
def GCKCFG_NARROW : Fld := ⟨aGCKCFG, 1, 1⟩
/-- Field GCKCFG.THERM. -/
def GCKCFG_THERM : Fld := ⟨aGCKCFG, 8, 8⟩
/-- Field GCKCFG.HOLDOFF. -/
def GCKCFG_HOLDOFF : Fld := ⟨aGCKCFG, 16, 12⟩
/-- Device address of GCKTGT. -/
def aGCKTGT : Nat := 0x020000000048
/-- Field GCKTGT.TGT. -/
def GCKTGT_TGT : Fld := ⟨aGCKTGT, 0, 64⟩
/-- Device address of GRSTRND. -/
def aGRSTRND : Nat := 0x020000000050
/-- Field GRSTRND.ROUND. -/
def GRSTRND_ROUND : Fld := ⟨aGRSTRND, 0, 32⟩

/-- The register map of the global block. -/
def regs_global : List RSpec :=
  [⟨0x0, 1, 8, [⟨0, 4, .ro, 2⟩, ⟨4, 4, .ro, 1⟩, ⟨8, 1, .ro, 0⟩, ⟨16, 16, .ro, 8264⟩]⟩,
   ⟨0x8, 1, 8, [⟨0, 1, .ro, 0⟩, ⟨1, 1, .ro, 0⟩, ⟨2, 1, .ro, 0⟩, ⟨3, 1, .ro, 0⟩, ⟨4, 1, .ro, 0⟩, ⟨5, 1, .ro, 0⟩]⟩,
   ⟨0x10, 1, 8, [⟨0, 2, .ro, 0⟩, ⟨2, 3, .ro, 0⟩, ⟨8, 4, .ro, 0⟩, ⟨12, 6, .ro, 0⟩, ⟨18, 1, .ro, 0⟩]⟩,
   ⟨0x18, 1, 8, [⟨0, 32, .ro, 0⟩]⟩,
   ⟨0x20, 1, 8, [⟨0, 1, .ro, 0⟩, ⟨1, 1, .ro, 1⟩, ⟨2, 1, .rw, 0⟩, ⟨3, 1, .rw, 0⟩]⟩,
   ⟨0x28, 1, 8, [⟨0, 8, .ro, 33⟩, ⟨8, 8, .ro, 0⟩, ⟨16, 1, .ro, 1⟩, ⟨17, 1, .ro, 0⟩, ⟨18, 5, .ro, 0⟩]⟩,
   ⟨0x30, 1, 8, [⟨0, 64, .rw, 0⟩]⟩,
   ⟨0x38, 1, 8, [⟨0, 1, .w1c, 0⟩, ⟨1, 1, .w1c, 0⟩, ⟨2, 1, .w1c, 0⟩, ⟨3, 1, .w1c, 0⟩, ⟨16, 16, .rc, 0⟩]⟩,
   ⟨0x40, 1, 8, [⟨0, 1, .ro, 0⟩, ⟨1, 1, .ro, 0⟩, ⟨8, 8, .ro, 100⟩, ⟨16, 12, .ro, 60⟩]⟩,
   ⟨0x48, 1, 8, [⟨0, 64, .ro, 0⟩]⟩,
   ⟨0x50, 1, 8, [⟨0, 32, .wo, 0⟩]⟩]

/-- Device address of TBTIME. -/
def aTBTIME : Nat := 0x020000010000
/-- Field TBTIME.TIME. -/
def TBTIME_TIME : Fld := ⟨aTBTIME, 0, 64⟩
/-- Device address of TBSTAT. -/
def aTBSTAT : Nat := 0x020000010008
/-- Field TBSTAT.LOCK. -/
def TBSTAT_LOCK : Fld := ⟨aTBSTAT, 0, 1⟩
/-- Field TBSTAT.REF. -/
def TBSTAT_REF : Fld := ⟨aTBSTAT, 1, 1⟩
/-- Field TBSTAT.STEPPED. -/
def TBSTAT_STEPPED : Fld := ⟨aTBSTAT, 2, 1⟩
/-- Field TBSTAT.SRCPORT. -/
def TBSTAT_SRCPORT : Fld := ⟨aTBSTAT, 4, 3⟩
/-- Field TBSTAT.LOSSCNT. -/
def TBSTAT_LOSSCNT : Fld := ⟨aTBSTAT, 8, 8⟩
/-- Device address of TBOFS. -/
def aTBOFS : Nat := 0x020000010010
/-- Field TBOFS.OFFSET. -/
def TBOFS_OFFSET : Fld := ⟨aTBOFS, 0, 32⟩

/-- The register map of the tb block. -/
def regs_tb : List RSpec :=
  [⟨0x0, 1, 8, [⟨0, 64, .ro, 0⟩]⟩,
   ⟨0x8, 1, 8, [⟨0, 1, .ro, 0⟩, ⟨1, 1, .ro, 0⟩, ⟨2, 1, .ro, 0⟩, ⟨4, 3, .ro, 0⟩, ⟨8, 8, .ro, 0⟩]⟩,
   ⟨0x10, 1, 8, [⟨0, 32, .ro, 0⟩]⟩]

/-- Device address of GECCCFG. -/
def aGECCCFG (i : Nat) : Nat := 0x020000020000 + i * 0x8
/-- Field GECCCFG.THRESH. -/
def GECCCFG_THRESH (i : Nat) : Fld := ⟨aGECCCFG i, 0, 16⟩
/-- Field GECCCFG.INC. -/
def GECCCFG_INC (i : Nat) : Fld := ⟨aGECCCFG i, 16, 4⟩
/-- Field GECCCFG.LEAK. -/
def GECCCFG_LEAK (i : Nat) : Fld := ⟨aGECCCFG i, 24, 24⟩
/-- Device address of GECCBKT. -/
def aGECCBKT (i : Nat) : Nat := 0x020000020100 + i * 0x8
/-- Field GECCBKT.LEVEL. -/
def GECCBKT_LEVEL (i : Nat) : Fld := ⟨aGECCBKT i, 0, 16⟩
/-- Field GECCBKT.OVFCNT. -/
def GECCBKT_OVFCNT (i : Nat) : Fld := ⟨aGECCBKT i, 16, 16⟩
/-- Field GECCBKT.OVF. -/
def GECCBKT_OVF (i : Nat) : Fld := ⟨aGECCBKT i, 32, 1⟩
/-- Device address of ERRPTR. -/
def aERRPTR (i : Nat) : Nat := 0x020000020200 + i * 0x8
/-- Field ERRPTR.WP. -/
def ERRPTR_WP (i : Nat) : Fld := ⟨aERRPTR i, 0, 10⟩
/-- Field ERRPTR.RP. -/
def ERRPTR_RP (i : Nat) : Fld := ⟨aERRPTR i, 16, 10⟩
/-- Device address of ERRLOST. -/
def aERRLOST : Nat := 0x020000020210
/-- Field ERRLOST.LOST0. -/
def ERRLOST_LOST0 : Fld := ⟨aERRLOST, 0, 32⟩
/-- Field ERRLOST.LOST1. -/
def ERRLOST_LOST1 : Fld := ⟨aERRLOST, 32, 32⟩
/-- Device address of GERRSTAT. -/
def aGERRSTAT : Nat := 0x020000020218
/-- Field GERRSTAT.OVF0. -/
def GERRSTAT_OVF0 : Fld := ⟨aGERRSTAT, 0, 1⟩
/-- Field GERRSTAT.OVF1. -/
def GERRSTAT_OVF1 : Fld := ⟨aGERRSTAT, 1, 1⟩
/-- Device address of ERRLOG. -/
def aERRLOG (i : Nat) : Nat := 0x020000021000 + i * 0x8
/-- Field ERRLOG.ENTRY. -/
def ERRLOG_ENTRY (i : Nat) : Fld := ⟨aERRLOG i, 0, 64⟩

/-- The register map of the err block. -/
def regs_err : List RSpec :=
  [⟨0x0, 2, 8, [⟨0, 16, .ro, 64⟩, ⟨16, 4, .ro, 1⟩, ⟨24, 24, .ro, 100000⟩]⟩,
   ⟨0x100, 10, 8, [⟨0, 16, .ro, 0⟩, ⟨16, 16, .ro, 0⟩, ⟨32, 1, .w1c, 0⟩]⟩,
   ⟨0x200, 2, 8, [⟨0, 10, .ro, 0⟩, ⟨16, 10, .rw, 0⟩]⟩,
   ⟨0x210, 1, 8, [⟨0, 32, .rc, 0⟩, ⟨32, 32, .rc, 0⟩]⟩,
   ⟨0x218, 1, 8, [⟨0, 1, .w1c, 0⟩, ⟨1, 1, .w1c, 0⟩]⟩,
   ⟨0x1000, 4096, 8, [⟨0, 64, .ro, 0⟩]⟩]

/-- Device address of FCFG. -/
def aFCFG : Nat := 0x020000030000
/-- Field FCFG.RANK. -/
def FCFG_RANK : Fld := ⟨aFCFG, 0, 16⟩
/-- Field FCFG.MAXVER. -/
def FCFG_MAXVER : Fld := ⟨aFCFG, 16, 4⟩
/-- Field FCFG.HOPLIM. -/
def FCFG_HOPLIM : Fld := ⟨aFCFG, 20, 6⟩
/-- Device address of FRDTO. -/
def aFRDTO : Nat := 0x020000030008
/-- Field FRDTO.LIMIT. -/
def FRDTO_LIMIT : Fld := ⟨aFRDTO, 0, 32⟩
/-- Device address of LATECPL. -/
def aLATECPL : Nat := 0x020000030010
/-- Field LATECPL.COUNT. -/
def LATECPL_COUNT : Fld := ⟨aLATECPL, 0, 32⟩
/-- Field LATECPL.QUAR. -/
def LATECPL_QUAR : Fld := ⟨aLATECPL, 32, 13⟩
/-- Device address of FRRCTR. -/
def aFRRCTR : Nat := 0x020000030018
/-- Field FRRCTR.CTR. -/
def FRRCTR_CTR : Fld := ⟨aFRRCTR, 0, 64⟩
/-- Device address of FPSTAT. -/
def aFPSTAT (i : Nat) : Nat := 0x020000031000 + i * 0x100
/-- Field FPSTAT.STATE. -/
def FPSTAT_STATE (i : Nat) : Fld := ⟨aFPSTAT i, 0, 3⟩
/-- Field FPSTAT.VER. -/
def FPSTAT_VER (i : Nat) : Fld := ⟨aFPSTAT i, 4, 2⟩
/-- Field FPSTAT.LANES. -/
def FPSTAT_LANES (i : Nat) : Fld := ⟨aFPSTAT i, 8, 8⟩
/-- Field FPSTAT.SPEED. -/
def FPSTAT_SPEED (i : Nat) : Fld := ⟨aFPSTAT i, 16, 1⟩
/-- Field FPSTAT.PRANK. -/
def FPSTAT_PRANK (i : Nat) : Fld := ⟨aFPSTAT i, 32, 16⟩
/-- Field FPSTAT.PPORT. -/
def FPSTAT_PPORT (i : Nat) : Fld := ⟨aFPSTAT i, 48, 3⟩
/-- Field FPSTAT.PSW. -/
def FPSTAT_PSW (i : Nat) : Fld := ⟨aFPSTAT i, 51, 1⟩
/-- Field FPSTAT.DCAUSE. -/
def FPSTAT_DCAUSE (i : Nat) : Fld := ⟨aFPSTAT i, 52, 4⟩
/-- Device address of FPCNT. -/
def aFPCNT (i : Nat) : Nat := 0x020000031008 + i * 0x100
/-- Field FPCNT.RETRY. -/
def FPCNT_RETRY (i : Nat) : Fld := ⟨aFPCNT i, 0, 32⟩
/-- Field FPCNT.CRCERR. -/
def FPCNT_CRCERR (i : Nat) : Fld := ⟨aFPCNT i, 32, 32⟩
/-- Device address of FPRATE. -/
def aFPRATE (i : Nat) : Nat := 0x020000031010 + i * 0x100
/-- Field FPRATE.LAST. -/
def FPRATE_LAST (i : Nat) : Fld := ⟨aFPRATE i, 0, 16⟩
/-- Field FPRATE.WARN. -/
def FPRATE_WARN (i : Nat) : Fld := ⟨aFPRATE i, 16, 1⟩
/-- Device address of FPCTL. -/
def aFPCTL (i : Nat) : Nat := 0x020000031018 + i * 0x100
/-- Field FPCTL.RETRAIN. -/
def FPCTL_RETRAIN (i : Nat) : Fld := ⟨aFPCTL i, 0, 1⟩
/-- Field FPCTL.DISABLE. -/
def FPCTL_DISABLE (i : Nat) : Fld := ⟨aFPCTL i, 1, 1⟩

/-- The register map of the fab block. -/
def regs_fab : List RSpec :=
  [⟨0x0, 1, 8, [⟨0, 16, .ro, 0⟩, ⟨16, 4, .ro, 3⟩, ⟨20, 6, .ro, 16⟩]⟩,
   ⟨0x8, 1, 8, [⟨0, 32, .ro, 2000⟩]⟩,
   ⟨0x10, 1, 8, [⟨0, 32, .rc, 0⟩, ⟨32, 13, .ro, 0⟩]⟩,
   ⟨0x18, 1, 8, [⟨0, 64, .ro, 0⟩]⟩,
   ⟨0x1000, 8, 256, [⟨0, 3, .ro, 1⟩, ⟨4, 2, .ro, 0⟩, ⟨8, 8, .ro, 0⟩, ⟨16, 1, .ro, 0⟩, ⟨32, 16, .ro, 0⟩, ⟨48, 3, .ro, 0⟩, ⟨51, 1, .ro, 0⟩, ⟨52, 4, .ro, 0⟩]⟩,
   ⟨0x1008, 8, 256, [⟨0, 32, .rc, 0⟩, ⟨32, 32, .rc, 0⟩]⟩,
   ⟨0x1010, 8, 256, [⟨0, 16, .ro, 0⟩, ⟨16, 1, .w1c, 0⟩]⟩,
   ⟨0x1018, 8, 256, [⟨0, 1, .wo, 0⟩, ⟨1, 1, .rw, 0⟩]⟩]

/-- Device address of FROUTE. -/
def aFROUTE (i : Nat) : Nat := 0x020000040000 + i * 0x8

/-- The register map of the route block. -/
def regs_route : List RSpec :=
  [⟨0x0, 8192, 8, [⟨0, 64, .rw, 0⟩]⟩]

/-- Device address of FCOLCFG. -/
def aFCOLCFG : Nat := 0x020000050000
/-- Field FCOLCFG.SIGTO. -/
def FCOLCFG_SIGTO : Fld := ⟨aFCOLCFG, 0, 32⟩
/-- Field FCOLCFG.COLTO. -/
def FCOLCFG_COLTO : Fld := ⟨aFCOLCFG, 32, 32⟩
/-- Device address of FCOLSTAT. -/
def aFCOLSTAT : Nat := 0x020000050008
/-- Field FCOLSTAT.ACTIVE. -/
def FCOLSTAT_ACTIVE : Fld := ⟨aFCOLSTAT, 0, 5⟩
/-- Field FCOLSTAT.UBUSY. -/
def FCOLSTAT_UBUSY : Fld := ⟨aFCOLSTAT, 5, 8⟩
/-- Device address of FCOLLATE. -/
def aFCOLLATE : Nat := 0x020000050010
/-- Field FCOLLATE.LATE. -/
def FCOLLATE_LATE : Fld := ⟨aFCOLLATE, 0, 32⟩
/-- Field FCOLLATE.ABNDN. -/
def FCOLLATE_ABNDN : Fld := ⟨aFCOLLATE, 32, 32⟩
/-- Device address of FCOLSAT. -/
def aFCOLSAT : Nat := 0x020000050018
/-- Field FCOLSAT.COUNT. -/
def FCOLSAT_COUNT : Fld := ⟨aFCOLSAT, 0, 32⟩
/-- Device address of FCOLSUB. -/
def aFCOLSUB : Nat := 0x020000050020
/-- Field FCOLSUB.DESC. -/
def FCOLSUB_DESC : Fld := ⟨aFCOLSUB, 0, 64⟩
/-- Device address of FRSVCTL. -/
def aFRSVCTL : Nat := 0x020000050028
/-- Field FRSVCTL.NEWRANK. -/
def FRSVCTL_NEWRANK : Fld := ⟨aFRSVCTL, 0, 16⟩
/-- Field FRSVCTL.ADOPT. -/
def FRSVCTL_ADOPT : Fld := ⟨aFRSVCTL, 16, 1⟩
/-- Field FRSVCTL.RESERVE. -/
def FRSVCTL_RESERVE : Fld := ⟨aFRSVCTL, 17, 1⟩

/-- The register map of the coll block. -/
def regs_coll : List RSpec :=
  [⟨0x0, 1, 8, [⟨0, 32, .ro, 10000⟩, ⟨32, 32, .ro, 50000⟩]⟩,
   ⟨0x8, 1, 8, [⟨0, 5, .ro, 0⟩, ⟨5, 8, .ro, 0⟩]⟩,
   ⟨0x10, 1, 8, [⟨0, 32, .rc, 0⟩, ⟨32, 32, .rc, 0⟩]⟩,
   ⟨0x18, 1, 8, [⟨0, 32, .rc, 0⟩]⟩,
   ⟨0x20, 1, 8, [⟨0, 64, .wo, 0⟩]⟩,
   ⟨0x28, 1, 8, [⟨0, 16, .wo, 0⟩, ⟨16, 1, .wo, 0⟩, ⟨17, 1, .ro, 0⟩]⟩]

/-- Device address of FGROUP. -/
def aFGROUP (i : Nat) : Nat := 0x020000060000 + i * 0x8

/-- n words of one layout from an offset of a record, in cnt records stride bytes apart. -/
def recWords (cnt stride off n : Nat) (fs : List FSpec) : List RSpec := (List.range n).map fun i => ⟨off + 8 * i, cnt, stride, fs⟩

/-- The register map of the group block: 256 records of Table 9.1, reserved fields apart. -/
def regs_group : List RSpec :=
  recWords 256 512 0 1 [⟨0, 17, .rw, 0⟩, ⟨32, 16, .rw, 0⟩]
    ++ recWords 256 512 8 1 [⟨0, 16, .rw, 0⟩, ⟨16, 16, .rw, 0⟩, ⟨32, 16, .rw, 0⟩, ⟨48, 7, .rw, 0⟩, ⟨56, 4, .rw, 0⟩]
    ++ recWords 256 512 16 48 [⟨0, 64, .rw, 0⟩] ++ recWords 256 512 400 14 []

/-- Device address of FDSCTL. -/
def aFDSCTL (q : Nat) : Nat := 0x020000080000 + q * 0x40
/-- Field FDSCTL.POST. -/
def FDSCTL_POST (q : Nat) : Fld := ⟨aFDSCTL q, 0, 1⟩
/-- Field FDSCTL.OPEN. -/
def FDSCTL_OPEN (q : Nat) : Fld := ⟨aFDSCTL q, 1, 1⟩
/-- Field FDSCTL.USENEW. -/
def FDSCTL_USENEW (q : Nat) : Fld := ⟨aFDSCTL q, 2, 1⟩
/-- Field FDSCTL.REL. -/
def FDSCTL_REL (q : Nat) : Fld := ⟨aFDSCTL q, 3, 1⟩
/-- Field FDSCTL.RELBUF. -/
def FDSCTL_RELBUF (q : Nat) : Fld := ⟨aFDSCTL q, 4, 1⟩
/-- Field FDSCTL.RELEXP. -/
def FDSCTL_RELEXP (q : Nat) : Fld := ⟨aFDSCTL q, 5, 6⟩
/-- Field FDSCTL.ABORT. -/
def FDSCTL_ABORT (q : Nat) : Fld := ⟨aFDSCTL q, 11, 1⟩
/-- Field FDSCTL.STEP. -/
def FDSCTL_STEP (q : Nat) : Fld := ⟨aFDSCTL q, 16, 32⟩
/-- Device address of FDSSTAT. -/
def aFDSSTAT (q : Nat) : Nat := 0x020000080008 + q * 0x40
/-- Field FDSSTAT.STATE. -/
def FDSSTAT_STATE (q : Nat) : Fld := ⟨aFDSSTAT q, 0, 2⟩
/-- Field FDSSTAT.DECIDED. -/
def FDSSTAT_DECIDED (q : Nat) : Fld := ⟨aFDSSTAT q, 2, 1⟩
/-- Field FDSSTAT.HAVE. -/
def FDSSTAT_HAVE (q : Nat) : Fld := ⟨aFDSSTAT q, 3, 1⟩
/-- Field FDSSTAT.OPENERR. -/
def FDSSTAT_OPENERR (q : Nat) : Fld := ⟨aFDSSTAT q, 4, 1⟩
/-- Field FDSSTAT.BATCH. -/
def FDSSTAT_BATCH (q : Nat) : Fld := ⟨aFDSSTAT q, 16, 12⟩
/-- Field FDSSTAT.PLANSTEP. -/
def FDSSTAT_PLANSTEP (q : Nat) : Fld := ⟨aFDSSTAT q, 32, 32⟩
/-- Device address of FDSDL. -/
def aFDSDL (q : Nat) : Nat := 0x020000080010 + q * 0x40
/-- Field FDSDL.DEADLINE. -/
def FDSDL_DEADLINE (q : Nat) : Fld := ⟨aFDSDL q, 0, 64⟩
/-- Device address of FDSCNT. -/
def aFDSCNT (q : Nat) : Nat := 0x020000080018 + q * 0x40
/-- Field FDSCNT.REUSE. -/
def FDSCNT_REUSE (q : Nat) : Fld := ⟨aFDSCNT q, 0, 16⟩
/-- Field FDSCNT.LATE. -/
def FDSCNT_LATE (q : Nat) : Fld := ⟨aFDSCNT q, 16, 16⟩
/-- Field FDSCNT.ABNDN. -/
def FDSCNT_ABNDN (q : Nat) : Fld := ⟨aFDSCNT q, 32, 16⟩
/-- Field FDSCNT.QOVF. -/
def FDSCNT_QOVF (q : Nat) : Fld := ⟨aFDSCNT q, 48, 16⟩
/-- Device address of FDSPDB. -/
def aFDSPDB (q : Nat) : Nat := 0x020000080020 + q * 0x40
/-- Field FDSPDB.STEP. -/
def FDSPDB_STEP (q : Nat) : Fld := ⟨aFDSPDB q, 0, 32⟩

/-- The register map of the disp block. -/
def regs_disp : List RSpec :=
  [⟨0x0, 1, 8, [⟨0, 1, .wo, 0⟩, ⟨1, 1, .wo, 0⟩, ⟨2, 1, .wo, 0⟩, ⟨3, 1, .wo, 0⟩, ⟨4, 1, .wo, 0⟩, ⟨5, 6, .wo, 0⟩, ⟨11, 1, .wo, 0⟩, ⟨16, 32, .wo, 0⟩]⟩,
   ⟨0x8, 1, 8, [⟨0, 2, .ro, 0⟩, ⟨2, 1, .ro, 1⟩, ⟨3, 1, .ro, 0⟩, ⟨4, 1, .w1c, 0⟩, ⟨16, 12, .ro, 0⟩, ⟨32, 32, .ro, 0⟩]⟩,
   ⟨0x10, 1, 8, [⟨0, 64, .ro, 0⟩]⟩,
   ⟨0x18, 1, 8, [⟨0, 16, .rc, 0⟩, ⟨16, 16, .rc, 0⟩, ⟨32, 16, .rc, 0⟩, ⟨48, 16, .rc, 0⟩]⟩,
   ⟨0x20, 1, 8, [⟨0, 32, .wo, 0⟩]⟩]

/-- Device address of FSTREAM. -/
def aFSTREAM (i : Nat) : Nat := 0x020000090000 + i * 0x8

/-- The register map of the stream block: 64 records of Table 11.1, reserved fields apart. -/
def regs_stream : List RSpec :=
  recWords 64 512 0 1 [⟨0, 4, .rw, 0⟩, ⟨8, 7, .rw, 0⟩, ⟨16, 7, .rw, 0⟩, ⟨24, 6, .rw, 0⟩, ⟨32, 5, .rw, 0⟩]
    ++ recWords 64 512 8 1 [⟨0, 16, .rw, 0⟩, ⟨16, 16, .rw, 0⟩, ⟨32, 16, .rw, 0⟩, ⟨48, 6, .rw, 0⟩]
    ++ recWords 64 512 16 5 [⟨0, 64, .rw, 0⟩] ++ recWords 64 512 56 1 [] ++ recWords 64 512 64 48 [⟨0, 64, .rw, 0⟩]
    ++ recWords 64 512 448 8 []

/-- Device address of FPLAN. -/
def aFPLAN (i : Nat) : Nat := 0x0200000A0000 + i * 0x8

/-- A plan record (Table 11.8) in the plan area of every stream. -/
def planRec (off : Nat) (k : FKind) : List RSpec :=
  recWords 64 0x400 off 1 [⟨0, 32, k, 0⟩, ⟨32, 7, k, 0⟩] ++ recWords 64 0x400 (off + 8) 1 [] ++ recWords 64 0x400 (off + 16) 16 [⟨0, 64, k, 0⟩]
    ++ recWords 64 0x400 (off + 144) 14 []

/-- The register map of the plan block: incoming, pending and in force; the rest is reserved. -/
def regs_plan : List RSpec := planRec 0 .rw ++ planRec 0x100 .ro ++ planRec 0x200 .ro ++ recWords 64 0x400 0x300 32 []

/-- Device address of FHIST. -/
def aFHIST (i : Nat) : Nat := 0x0200000B0000 + i * 0x8

/-- The register map of the hist block. -/
def regs_hist : List RSpec :=
  [⟨0x0, 8192, 8, [⟨0, 64, .ro, 0⟩]⟩]

/-- Device address of GLSCALE. -/
def aGLSCALE : Nat := 0x0200000C0000
/-- Field GLSCALE.EXP. -/
def GLSCALE_EXP : Fld := ⟨aGLSCALE, 0, 8⟩
/-- Field GLSCALE.ATMIN. -/
def GLSCALE_ATMIN : Fld := ⟨aGLSCALE, 8, 1⟩
/-- Field GLSCALE.ATMAX. -/
def GLSCALE_ATMAX : Fld := ⟨aGLSCALE, 9, 1⟩
/-- Field GLSCALE.CLEAN. -/
def GLSCALE_CLEAN : Fld := ⟨aGLSCALE, 16, 17⟩
/-- Device address of GSTEP. -/
def aGSTEP : Nat := 0x0200000C0008
/-- Field GSTEP.LAST. -/
def GSTEP_LAST : Fld := ⟨aGSTEP, 0, 32⟩
/-- Device address of GSTEPNSQ. -/
def aGSTEPNSQ : Nat := 0x0200000C0010
/-- Field GSTEPNSQ.NSQ. -/
def GSTEPNSQ_NSQ : Fld := ⟨aGSTEPNSQ, 0, 64⟩
/-- Device address of GSTEPIN. -/
def aGSTEPIN : Nat := 0x0200000C0018
/-- Field GSTEPIN.STEP. -/
def GSTEPIN_STEP : Fld := ⟨aGSTEPIN, 0, 32⟩
/-- Field GSTEPIN.VOTE. -/
def GSTEPIN_VOTE : Fld := ⟨aGSTEPIN, 32, 9⟩
/-- Field GSTEPIN.GO. -/
def GSTEPIN_GO : Fld := ⟨aGSTEPIN, 63, 1⟩
/-- Device address of GDECIDE. -/
def aGDECIDE : Nat := 0x0200000C0020
/-- Field GDECIDE.STEP. -/
def GDECIDE_STEP : Fld := ⟨aGDECIDE, 0, 32⟩
/-- Field GDECIDE.SKIP. -/
def GDECIDE_SKIP : Fld := ⟨aGDECIDE, 32, 1⟩
/-- Field GDECIDE.CAUSE. -/
def GDECIDE_CAUSE : Fld := ⟨aGDECIDE, 33, 3⟩
/-- Field GDECIDE.CLIPPED. -/
def GDECIDE_CLIPPED : Fld := ⟨aGDECIDE, 36, 1⟩
/-- Field GDECIDE.ERR. -/
def GDECIDE_ERR : Fld := ⟨aGDECIDE, 37, 1⟩
/-- Field GDECIDE.LSEXP. -/
def GDECIDE_LSEXP : Fld := ⟨aGDECIDE, 40, 8⟩
/-- Device address of GCLIP. -/
def aGCLIP : Nat := 0x0200000C0028
/-- Field GCLIP.C. -/
def GCLIP_C : Fld := ⟨aGCLIP, 0, 32⟩
/-- Device address of GNORM. -/
def aGNORM : Nat := 0x0200000C0030
/-- Field GNORM.N2. -/
def GNORM_N2 : Fld := ⟨aGNORM, 0, 32⟩
/-- Field GNORM.NORM. -/
def GNORM_NORM : Fld := ⟨aGNORM, 32, 32⟩
/-- Device address of GSKIPCNT. -/
def aGSKIPCNT : Nat := 0x0200000C0038
/-- Field GSKIPCNT.OVF. -/
def GSKIPCNT_OVF : Fld := ⟨aGSKIPCNT, 0, 16⟩
/-- Field GSKIPCNT.NONFIN. -/
def GSKIPCNT_NONFIN : Fld := ⟨aGSKIPCNT, 16, 16⟩
/-- Field GSKIPCNT.ABSURD. -/
def GSKIPCNT_ABSURD : Fld := ⟨aGSKIPCNT, 32, 16⟩
/-- Field GSKIPCNT.CLIP. -/
def GSKIPCNT_CLIP : Fld := ⟨aGSKIPCNT, 48, 16⟩
/-- Device address of GNFLOG. -/
def aGNFLOG : Nat := 0x0200000C0040
/-- Field GNFLOG.TENSOR. -/
def GNFLOG_TENSOR : Fld := ⟨aGNFLOG, 0, 20⟩
/-- Field GNFLOG.ELEM. -/
def GNFLOG_ELEM : Fld := ⟨aGNFLOG, 20, 44⟩
/-- Device address of GNFPTR. -/
def aGNFPTR : Nat := 0x0200000C0048
/-- Field GNFPTR.WP. -/
def GNFPTR_WP : Fld := ⟨aGNFPTR, 0, 4⟩
/-- Field GNFPTR.RP. -/
def GNFPTR_RP : Fld := ⟨aGNFPTR, 8, 4⟩
/-- Field GNFPTR.LOST. -/
def GNFPTR_LOST : Fld := ⟨aGNFPTR, 32, 16⟩
/-- Device address of GLSCFG. -/
def aGLSCFG : Nat := 0x0200000C0050
/-- Field GLSCFG.INTERVAL. -/
def GLSCFG_INTERVAL : Fld := ⟨aGLSCFG, 0, 17⟩
/-- Field GLSCFG.INIT. -/
def GLSCFG_INIT : Fld := ⟨aGLSCFG, 24, 8⟩
/-- Device address of GNRMCFG. -/
def aGNRMCFG : Nat := 0x0200000C0058
/-- Field GNRMCFG.CLIPN. -/
def GNRMCFG_CLIPN : Fld := ⟨aGNRMCFG, 0, 32⟩
/-- Field GNRMCFG.MAXN. -/
def GNRMCFG_MAXN : Fld := ⟨aGNRMCFG, 32, 32⟩
/-- Device address of GNFREC. -/
def aGNFREC (i : Nat) : Nat := 0x0200000C0100 + i * 0x10
/-- Field GNFREC.TENSOR. -/
def GNFREC_TENSOR (i : Nat) : Fld := ⟨aGNFREC i, 0, 20⟩
/-- Field GNFREC.ELEM. -/
def GNFREC_ELEM (i : Nat) : Fld := ⟨aGNFREC i, 20, 44⟩
/-- Device address of GNFTIM. -/
def aGNFTIM (i : Nat) : Nat := 0x0200000C0108 + i * 0x10
/-- Field GNFTIM.TIME. -/
def GNFTIM_TIME (i : Nat) : Fld := ⟨aGNFTIM i, 0, 64⟩
/-- Device address of GPHS. -/
def aGPHS (i : Nat) : Nat := 0x0200000C0200 + i * 0x10
/-- Field GPHS.TIME. -/
def GPHS_TIME (i : Nat) : Fld := ⟨aGPHS i, 0, 64⟩
/-- Device address of GPHE. -/
def aGPHE (i : Nat) : Nat := 0x0200000C0208 + i * 0x10
/-- Field GPHE.TIME. -/
def GPHE_TIME (i : Nat) : Fld := ⟨aGPHE i, 0, 64⟩
/-- Device address of GPHMARK. -/
def aGPHMARK : Nat := 0x0200000C0280
/-- Field GPHMARK.PHASE. -/
def GPHMARK_PHASE : Fld := ⟨aGPHMARK, 0, 3⟩
/-- Field GPHMARK.KIND. -/
def GPHMARK_KIND : Fld := ⟨aGPHMARK, 3, 2⟩
/-- Device address of GPHOPEN. -/
def aGPHOPEN : Nat := 0x0200000C0288
/-- Field GPHOPEN.OPEN. -/
def GPHOPEN_OPEN : Fld := ⟨aGPHOPEN, 0, 6⟩

/-- The register map of the train block. -/
def regs_train : List RSpec :=
  [⟨0x0, 1, 8, [⟨0, 8, .rw, 0⟩, ⟨8, 1, .w1c, 0⟩, ⟨9, 1, .w1c, 0⟩, ⟨16, 17, .rw, 0⟩]⟩,
   ⟨0x8, 1, 8, [⟨0, 32, .rw, 0⟩]⟩,
   ⟨0x10, 1, 8, [⟨0, 64, .rw, 0⟩]⟩,
   ⟨0x18, 1, 8, [⟨0, 32, .wo, 0⟩, ⟨32, 9, .wo, 0⟩, ⟨63, 1, .wo, 0⟩]⟩,
   ⟨0x20, 1, 8, [⟨0, 32, .ro, 0⟩, ⟨32, 1, .ro, 0⟩, ⟨33, 3, .ro, 0⟩, ⟨36, 1, .ro, 0⟩, ⟨37, 1, .w1c, 0⟩, ⟨40, 8, .ro, 0⟩]⟩,
   ⟨0x28, 1, 8, [⟨0, 32, .ro, 1065353216⟩]⟩,
   ⟨0x30, 1, 8, [⟨0, 32, .ro, 0⟩, ⟨32, 32, .ro, 0⟩]⟩,
   ⟨0x38, 1, 8, [⟨0, 16, .rc, 0⟩, ⟨16, 16, .rc, 0⟩, ⟨32, 16, .rc, 0⟩, ⟨48, 16, .rc, 0⟩]⟩,
   ⟨0x40, 1, 8, [⟨0, 20, .wo, 0⟩, ⟨20, 44, .wo, 0⟩]⟩,
   ⟨0x48, 1, 8, [⟨0, 4, .ro, 0⟩, ⟨8, 4, .rw, 0⟩, ⟨32, 16, .rc, 0⟩]⟩,
   ⟨0x50, 1, 8, [⟨0, 17, .ro, 2000⟩, ⟨24, 8, .ro, 16⟩]⟩,
   ⟨0x58, 1, 8, [⟨0, 32, .ro, 1065353216⟩, ⟨32, 32, .ro, 1233125376⟩]⟩,
   ⟨0x100, 8, 16, [⟨0, 20, .ro, 0⟩, ⟨20, 44, .ro, 0⟩]⟩,
   ⟨0x108, 8, 16, [⟨0, 64, .ro, 0⟩]⟩,
   ⟨0x200, 6, 16, [⟨0, 64, .ro, 0⟩]⟩,
   ⟨0x208, 6, 16, [⟨0, 64, .ro, 0⟩]⟩,
   ⟨0x280, 1, 8, [⟨0, 3, .wo, 0⟩, ⟨3, 2, .wo, 0⟩]⟩,
   ⟨0x288, 1, 8, [⟨0, 6, .ro, 0⟩]⟩]

/-- Device address of XCFG. -/
def aXCFG : Nat := 0x0200000D0000
/-- Field XCFG.SITE. -/
def XCFG_SITE : Fld := ⟨aXCFG, 0, 4⟩
/-- Field XCFG.STALE. -/
def XCFG_STALE : Fld := ⟨aXCFG, 8, 3⟩
/-- Field XCFG.MAXVER. -/
def XCFG_MAXVER : Fld := ⟨aXCFG, 12, 2⟩
/-- Field XCFG.KEYSLOT0. -/
def XCFG_KEYSLOT0 : Fld := ⟨aXCFG, 16, 5⟩
/-- Field XCFG.KEYSLOT1. -/
def XCFG_KEYSLOT1 : Fld := ⟨aXCFG, 24, 5⟩
/-- Field XCFG.QUORUM. -/
def XCFG_QUORUM : Fld := ⟨aXCFG, 32, 4⟩
/-- Field XCFG.FILL. -/
def XCFG_FILL : Fld := ⟨aXCFG, 36, 10⟩
/-- Device address of XJOB. -/
def aXJOB : Nat := 0x0200000D0008
/-- Field XJOB.JOB. -/
def XJOB_JOB : Fld := ⟨aXJOB, 0, 32⟩
/-- Device address of XTMO. -/
def aXTMO : Nat := 0x0200000D0010
/-- Field XTMO.DEADLINE. -/
def XTMO_DEADLINE : Fld := ⟨aXTMO, 0, 32⟩
/-- Field XTMO.HELLO. -/
def XTMO_HELLO : Fld := ⟨aXTMO, 32, 16⟩
/-- Field XTMO.CATCHTO. -/
def XTMO_CATCHTO : Fld := ⟨aXTMO, 48, 16⟩
/-- Device address of XRCTL. -/
def aXRCTL : Nat := 0x0200000D0020
/-- Field XRCTL.ROUND. -/
def XRCTL_ROUND : Fld := ⟨aXRCTL, 0, 32⟩
/-- Field XRCTL.CLOSE. -/
def XRCTL_CLOSE : Fld := ⟨aXRCTL, 32, 1⟩
/-- Field XRCTL.OWNEX. -/
def XRCTL_OWNEX : Fld := ⟨aXRCTL, 33, 1⟩
/-- Field XRCTL.SEAL. -/
def XRCTL_SEAL : Fld := ⟨aXRCTL, 34, 1⟩
/-- Field XRCTL.FREE. -/
def XRCTL_FREE : Fld := ⟨aXRCTL, 35, 1⟩
/-- Field XRCTL.JOIN. -/
def XRCTL_JOIN : Fld := ⟨aXRCTL, 36, 1⟩
/-- Field XRCTL.ENTER. -/
def XRCTL_ENTER : Fld := ⟨aXRCTL, 37, 1⟩
/-- Device address of XRSTAT. -/
def aXRSTAT : Nat := 0x0200000D0028
/-- Field XRSTAT.SEALED. -/
def XRSTAT_SEALED : Fld := ⟨aXRSTAT, 0, 32⟩
/-- Field XRSTAT.WAITING. -/
def XRSTAT_WAITING : Fld := ⟨aXRSTAT, 32, 1⟩
/-- Field XRSTAT.CATCHING. -/
def XRSTAT_CATCHING : Fld := ⟨aXRSTAT, 33, 1⟩
/-- Field XRSTAT.BEHIND. -/
def XRSTAT_BEHIND : Fld := ⟨aXRSTAT, 34, 1⟩
/-- Field XRSTAT.QCOUNT. -/
def XRSTAT_QCOUNT : Fld := ⟨aXRSTAT, 40, 4⟩
/-- Device address of XEVT. -/
def aXEVT : Nat := 0x0200000D0030
/-- Field XEVT.SEALED. -/
def XEVT_SEALED : Fld := ⟨aXEVT, 0, 1⟩
/-- Field XEVT.JOINREQ. -/
def XEVT_JOINREQ : Fld := ⟨aXEVT, 1, 1⟩
/-- Field XEVT.CATCHDONE. -/
def XEVT_CATCHDONE : Fld := ⟨aXEVT, 2, 1⟩
/-- Field XEVT.CATCHFAIL. -/
def XEVT_CATCHFAIL : Fld := ⟨aXEVT, 3, 1⟩
/-- Field XEVT.ENTERED. -/
def XEVT_ENTERED : Fld := ⟨aXEVT, 4, 1⟩
/-- Field XEVT.BEHIND. -/
def XEVT_BEHIND : Fld := ⟨aXEVT, 5, 1⟩
/-- Field XEVT.CMDERR. -/
def XEVT_CMDERR : Fld := ⟨aXEVT, 6, 1⟩
/-- Field XEVT.SENDERR. -/
def XEVT_SENDERR : Fld := ⟨aXEVT, 7, 1⟩
/-- Field XEVT.JSITE. -/
def XEVT_JSITE : Fld := ⟨aXEVT, 8, 4⟩
/-- Device address of XNTGT. -/
def aXNTGT : Nat := 0x0200000D0038
/-- Field XNTGT.TGT. -/
def XNTGT_TGT : Fld := ⟨aXNTGT, 0, 64⟩
/-- Device address of XSUB. -/
def aXSUB : Nat := 0x0200000D0040
/-- Field XSUB.DESC. -/
def XSUB_DESC : Fld := ⟨aXSUB, 0, 64⟩
/-- Device address of XKEY. -/
def aXKEY : Nat := 0x0200000D0048
/-- Field XKEY.USE. -/
def XKEY_USE : Fld := ⟨aXKEY, 0, 1⟩
/-- Device address of XCNT0. -/
def aXCNT0 : Nat := 0x0200000D0050
/-- Field XCNT0.MISSING. -/
def XCNT0_MISSING : Fld := ⟨aXCNT0, 0, 32⟩
/-- Field XCNT0.ABSENT. -/
def XCNT0_ABSENT : Fld := ⟨aXCNT0, 32, 16⟩
/-- Field XCNT0.DEADLN. -/
def XCNT0_DEADLN : Fld := ⟨aXCNT0, 48, 16⟩
/-- Device address of XCNT1. -/
def aXCNT1 : Nat := 0x0200000D0058
/-- Field XCNT1.STALE. -/
def XCNT1_STALE : Fld := ⟨aXCNT1, 0, 16⟩
/-- Field XCNT1.FUTURE. -/
def XCNT1_FUTURE : Fld := ⟨aXCNT1, 16, 16⟩
/-- Field XCNT1.DUP. -/
def XCNT1_DUP : Fld := ⟨aXCNT1, 32, 16⟩
/-- Field XCNT1.NOSLOT. -/
def XCNT1_NOSLOT : Fld := ⟨aXCNT1, 48, 16⟩
/-- Device address of XCNT2. -/
def aXCNT2 : Nat := 0x0200000D0060
/-- Field XCNT2.TAGFAIL. -/
def XCNT2_TAGFAIL : Fld := ⟨aXCNT2, 0, 32⟩
/-- Field XCNT2.MALFORM. -/
def XCNT2_MALFORM : Fld := ⟨aXCNT2, 32, 32⟩
/-- Device address of XCNT3. -/
def aXCNT3 : Nat := 0x0200000D0068
/-- Field XCNT3.LATE. -/
def XCNT3_LATE : Fld := ⟨aXCNT3, 0, 32⟩
/-- Device address of XPSTAT. -/
def aXPSTAT (i : Nat) : Nat := 0x0200000D0100 + i * 0x40
/-- Field XPSTAT.UP. -/
def XPSTAT_UP (i : Nat) : Fld := ⟨aXPSTAT i, 0, 1⟩
/-- Device address of XPRATE. -/
def aXPRATE (i : Nat) : Nat := 0x0200000D0108 + i * 0x40
/-- Field XPRATE.RATE. -/
def XPRATE_RATE (i : Nat) : Fld := ⟨aXPRATE i, 0, 32⟩
/-- Field XPRATE.BURST. -/
def XPRATE_BURST (i : Nat) : Fld := ⟨aXPRATE i, 32, 32⟩
/-- Device address of XPCNT. -/
def aXPCNT (i : Nat) : Nat := 0x0200000D0110 + i * 0x40
/-- Field XPCNT.TXPKT. -/
def XPCNT_TXPKT (i : Nat) : Fld := ⟨aXPCNT i, 0, 32⟩
/-- Field XPCNT.RXPKT. -/
def XPCNT_RXPKT (i : Nat) : Fld := ⟨aXPCNT i, 32, 32⟩
/-- Device address of XPDROP. -/
def aXPDROP (i : Nat) : Nat := 0x0200000D0118 + i * 0x40
/-- Field XPDROP.TXDROP. -/
def XPDROP_TXDROP (i : Nat) : Fld := ⟨aXPDROP i, 0, 32⟩
/-- Field XPDROP.RXDROP. -/
def XPDROP_RXDROP (i : Nat) : Fld := ⟨aXPDROP i, 32, 32⟩
/-- Device address of XAREA. -/
def aXAREA (i : Nat) : Nat := 0x0200000D0200 + i * 0x8
/-- Field XAREA.OFFSET. -/
def XAREA_OFFSET (i : Nat) : Fld := ⟨aXAREA i, 0, 36⟩
/-- Field XAREA.STACK. -/
def XAREA_STACK (i : Nat) : Fld := ⟨aXAREA i, 36, 3⟩
/-- Field XAREA.COUNT. -/
def XAREA_COUNT (i : Nat) : Fld := ⟨aXAREA i, 40, 24⟩
/-- Device address of XPART. -/
def aXPART (i : Nat) : Nat := 0x0200000D1000 + i * 0x8

/-- The register map of the far block. -/
def regs_far : List RSpec :=
  [⟨0x0, 1, 8, [⟨0, 4, .ro, 0⟩, ⟨8, 3, .ro, 2⟩, ⟨12, 2, .ro, 2⟩, ⟨16, 5, .ro, 0⟩, ⟨24, 5, .ro, 0⟩, ⟨32, 4, .ro, 15⟩, ⟨36, 10, .ro, 999⟩]⟩,
   ⟨0x8, 1, 8, [⟨0, 32, .ro, 0⟩]⟩,
   ⟨0x10, 1, 8, [⟨0, 32, .ro, 5000⟩, ⟨32, 16, .ro, 1000⟩, ⟨48, 16, .ro, 3600⟩]⟩,
   ⟨0x20, 1, 8, [⟨0, 32, .wo, 0⟩, ⟨32, 1, .wo, 0⟩, ⟨33, 1, .wo, 0⟩, ⟨34, 1, .wo, 0⟩, ⟨35, 1, .wo, 0⟩, ⟨36, 1, .wo, 0⟩, ⟨37, 1, .wo, 0⟩]⟩,
   ⟨0x28, 1, 8, [⟨0, 32, .ro, 0⟩, ⟨32, 1, .ro, 0⟩, ⟨33, 1, .ro, 0⟩, ⟨34, 1, .ro, 0⟩, ⟨40, 4, .ro, 0⟩]⟩,
   ⟨0x30, 1, 8, [⟨0, 1, .w1c, 0⟩, ⟨1, 1, .w1c, 0⟩, ⟨2, 1, .w1c, 0⟩, ⟨3, 1, .w1c, 0⟩, ⟨4, 1, .w1c, 0⟩, ⟨5, 1, .w1c, 0⟩, ⟨6, 1, .w1c, 0⟩, ⟨7, 1, .w1c, 0⟩, ⟨8, 4, .ro, 0⟩]⟩,
   ⟨0x38, 1, 8, [⟨0, 64, .rw, 0⟩]⟩,
   ⟨0x40, 1, 8, [⟨0, 64, .wo, 0⟩]⟩,
   ⟨0x48, 1, 8, [⟨0, 1, .rw, 0⟩]⟩,
   ⟨0x50, 1, 8, [⟨0, 32, .rc, 0⟩, ⟨32, 16, .rc, 0⟩, ⟨48, 16, .rc, 0⟩]⟩,
   ⟨0x58, 1, 8, [⟨0, 16, .rc, 0⟩, ⟨16, 16, .rc, 0⟩, ⟨32, 16, .rc, 0⟩, ⟨48, 16, .rc, 0⟩]⟩,
   ⟨0x60, 1, 8, [⟨0, 32, .rc, 0⟩, ⟨32, 32, .rc, 0⟩]⟩,
   ⟨0x68, 1, 8, [⟨0, 32, .rc, 0⟩]⟩,
   ⟨0x100, 2, 64, [⟨0, 1, .ro, 0⟩]⟩,
   ⟨0x108, 2, 64, [⟨0, 32, .ro, 10000⟩, ⟨32, 32, .ro, 1024⟩]⟩,
   ⟨0x110, 2, 64, [⟨0, 32, .rc, 0⟩, ⟨32, 32, .rc, 0⟩]⟩,
   ⟨0x118, 2, 64, [⟨0, 32, .rc, 0⟩, ⟨32, 32, .rc, 0⟩]⟩,
   ⟨0x200, 7, 8, [⟨0, 36, .ro, 0⟩, ⟨36, 3, .ro, 0⟩, ⟨40, 24, .ro, 0⟩]⟩,
   ⟨0x1000, 16, 64, [⟨0, 4, .rw, 0⟩, ⟨8, 3, .rw, 0⟩, ⟨16, 2, .rw, 0⟩, ⟨32, 32, .rw, 0⟩]⟩] ++ recWords 16 64 0x1008 5 [⟨0, 64, .rw, 0⟩]
    ++ recWords 16 64 0x1030 1 [⟨0, 32, .rw, 0⟩] ++ recWords 16 64 0x1038 1 []

/-- Device address of GLEDCTL. -/
def aGLEDCTL : Nat := 0x0200000E0000
/-- Field GLEDCTL.MODE. -/
def GLEDCTL_MODE : Fld := ⟨aGLEDCTL, 0, 2⟩
/-- Field GLEDCTL.FAR. -/
def GLEDCTL_FAR : Fld := ⟨aGLEDCTL, 2, 1⟩
/-- Device address of GLEDCFG. -/
def aGLEDCFG : Nat := 0x0200000E0008
/-- Field GLEDCFG.LEDMAX. -/
def GLEDCFG_LEDMAX : Fld := ⟨aGLEDCFG, 0, 21⟩
/-- Device address of GLEDBASE. -/
def aGLEDBASE : Nat := 0x0200000E0010
/-- Field GLEDBASE.OFFSET. -/
def GLEDBASE_OFFSET : Fld := ⟨aGLEDBASE, 0, 36⟩
/-- Field GLEDBASE.STACK. -/
def GLEDBASE_STACK : Fld := ⟨aGLEDBASE, 36, 3⟩
/-- Field GLEDBASE.SIZE. -/
def GLEDBASE_SIZE : Fld := ⟨aGLEDBASE, 40, 24⟩
/-- Device address of GLEDWP. -/
def aGLEDWP : Nat := 0x0200000E0018
/-- Field GLEDWP.WP. -/
def GLEDWP_WP : Fld := ⟨aGLEDWP, 0, 64⟩
/-- Device address of GLEDCP. -/
def aGLEDCP : Nat := 0x0200000E0020
/-- Field GLEDCP.CP. -/
def GLEDCP_CP : Fld := ⟨aGLEDCP, 0, 64⟩
/-- Device address of GLEDRP. -/
def aGLEDRP : Nat := 0x0200000E0028
/-- Field GLEDRP.RP. -/
def GLEDRP_RP : Fld := ⟨aGLEDRP, 0, 64⟩
/-- Device address of GLEDSTAT. -/
def aGLEDSTAT : Nat := 0x0200000E0030
/-- Field GLEDSTAT.GAP. -/
def GLEDSTAT_GAP : Fld := ⟨aGLEDSTAT, 0, 1⟩
/-- Field GLEDSTAT.EARLY. -/
def GLEDSTAT_EARLY : Fld := ⟨aGLEDSTAT, 1, 1⟩
/-- Field GLEDSTAT.DIVERGE. -/
def GLEDSTAT_DIVERGE : Fld := ⟨aGLEDSTAT, 2, 1⟩
/-- Field GLEDSTAT.WAITREC. -/
def GLEDSTAT_WAITREC : Fld := ⟨aGLEDSTAT, 3, 1⟩
/-- Field GLEDSTAT.PENDING. -/
def GLEDSTAT_PENDING : Fld := ⟨aGLEDSTAT, 32, 13⟩
/-- Device address of GLEDSEQ. -/
def aGLEDSEQ : Nat := 0x0200000E0038
/-- Field GLEDSEQ.NEXT. -/
def GLEDSEQ_NEXT : Fld := ⟨aGLEDSEQ, 0, 64⟩
/-- Device address of GLEDLOST. -/
def aGLEDLOST : Nat := 0x0200000E0040
/-- Field GLEDLOST.LOST. -/
def GLEDLOST_LOST : Fld := ⟨aGLEDLOST, 0, 32⟩

/-- The register map of the led block. -/
def regs_led : List RSpec :=
  [⟨0x0, 1, 8, [⟨0, 2, .rw, 0⟩, ⟨2, 1, .rw, 0⟩]⟩,
   ⟨0x8, 1, 8, [⟨0, 21, .ro, 4096⟩]⟩,
   ⟨0x10, 1, 8, [⟨0, 36, .ro, 0⟩, ⟨36, 3, .ro, 0⟩, ⟨40, 24, .ro, 0⟩]⟩,
   ⟨0x18, 1, 8, [⟨0, 64, .ro, 0⟩]⟩,
   ⟨0x20, 1, 8, [⟨0, 64, .ro, 0⟩]⟩,
   ⟨0x28, 1, 8, [⟨0, 64, .rw, 0⟩]⟩,
   ⟨0x30, 1, 8, [⟨0, 1, .w1c, 0⟩, ⟨1, 1, .w1c, 0⟩, ⟨2, 1, .w1c, 0⟩, ⟨3, 1, .ro, 0⟩, ⟨32, 13, .ro, 0⟩]⟩,
   ⟨0x38, 1, 8, [⟨0, 64, .ro, 1⟩]⟩,
   ⟨0x40, 1, 8, [⟨0, 32, .rc, 0⟩]⟩]

/-- Device address of HLINK. -/
def aHLINK : Nat := 0x0200000F0000
/-- Field HLINK.RATE. -/
def HLINK_RATE : Fld := ⟨aHLINK, 0, 4⟩
/-- Field HLINK.WIDTH. -/
def HLINK_WIDTH : Fld := ⟨aHLINK, 4, 5⟩
/-- Field HLINK.UP. -/
def HLINK_UP : Fld := ⟨aHLINK, 9, 1⟩
/-- Field HLINK.DOWNS. -/
def HLINK_DOWNS : Fld := ⟨aHLINK, 16, 16⟩
/-- Device address of HCTXRST. -/
def aHCTXRST : Nat := 0x0200000F0008
/-- Field HCTXRST.CTX. -/
def HCTXRST_CTX : Fld := ⟨aHCTXRST, 0, 9⟩
/-- Field HCTXRST.GO. -/
def HCTXRST_GO : Fld := ⟨aHCTXRST, 9, 1⟩
/-- Device address of HPRST. -/
def aHPRST : Nat := 0x0200000F0010
/-- Field HPRST.PART. -/
def HPRST_PART : Fld := ⟨aHPRST, 0, 6⟩
/-- Field HPRST.GO. -/
def HPRST_GO : Fld := ⟨aHPRST, 6, 1⟩
/-- Device address of HPSTAT. -/
def aHPSTAT (i : Nat) : Nat := 0x0200000F0100 + i * 0x8
/-- Field HPSTAT.CUR. -/
def HPSTAT_CUR (i : Nat) : Fld := ⟨aHPSTAT i, 0, 9⟩
/-- Field HPSTAT.HELD. -/
def HPSTAT_HELD (i : Nat) : Fld := ⟨aHPSTAT i, 9, 1⟩
/-- Field HPSTAT.SWITCHES. -/
def HPSTAT_SWITCHES (i : Nat) : Fld := ⟨aHPSTAT i, 32, 32⟩

/-- The register map of the host block. -/
def regs_host : List RSpec :=
  [⟨0x0, 1, 8, [⟨0, 4, .ro, 0⟩, ⟨4, 5, .ro, 0⟩, ⟨9, 1, .ro, 0⟩, ⟨16, 16, .ro, 0⟩]⟩,
   ⟨0x8, 1, 8, [⟨0, 9, .wo, 0⟩, ⟨9, 1, .wo, 0⟩]⟩,
   ⟨0x10, 1, 8, [⟨0, 6, .wo, 0⟩, ⟨6, 1, .wo, 0⟩]⟩,
   ⟨0x100, 64, 8, [⟨0, 9, .ro, 0⟩, ⟨9, 1, .ro, 0⟩, ⟨32, 32, .rc, 0⟩]⟩]

/-- Device address of SCTL. -/
def aSCTL (st : Nat) : Nat := 0x020000100000 + st * 0x10000
/-- Field SCTL.TEST. -/
def SCTL_TEST (st : Nat) : Fld := ⟨aSCTL st, 0, 1⟩
/-- Device address of SSTAT. -/
def aSSTAT (st : Nat) : Nat := 0x020000100008 + st * 0x10000
/-- Field SSTAT.LIVE. -/
def SSTAT_LIVE (st : Nat) : Fld := ⟨aSSTAT st, 0, 6⟩
/-- Field SSTAT.INITD. -/
def SSTAT_INITD (st : Nat) : Fld := ⟨aSSTAT st, 6, 1⟩
/-- Field SSTAT.TEST. -/
def SSTAT_TEST (st : Nat) : Fld := ⟨aSSTAT st, 7, 1⟩
/-- Field SSTAT.TOPGB. -/
def SSTAT_TOPGB (st : Nat) : Fld := ⟨aSSTAT st, 16, 7⟩
/-- Device address of SCHMAP. -/
def aSCHMAP (st : Nat) : Nat := 0x020000100010 + st * 0x10000
/-- Field SCHMAP.LIVEMAP. -/
def SCHMAP_LIVEMAP (st : Nat) : Fld := ⟨aSCHMAP st, 0, 32⟩
/-- Device address of SFAIL. -/
def aSFAIL (st : Nat) : Nat := 0x020000100018 + st * 0x10000
/-- Field SFAIL.FAILMAP. -/
def SFAIL_FAILMAP (st : Nat) : Fld := ⟨aSFAIL st, 0, 32⟩
/-- Device address of SCECNT. -/
def aSCECNT (st : Nat) : Nat := 0x020000100020 + st * 0x10000
/-- Field SCECNT.CE. -/
def SCECNT_CE (st : Nat) : Fld := ⟨aSCECNT st, 0, 32⟩
/-- Field SCECNT.UE. -/
def SCECNT_UE (st : Nat) : Fld := ⟨aSCECNT st, 32, 32⟩
/-- Device address of SBURST. -/
def aSBURST (st : Nat) : Nat := 0x020000100028 + st * 0x10000
/-- Field SBURST.BURSTS. -/
def SBURST_BURSTS (st : Nat) : Fld := ⟨aSBURST st, 0, 32⟩
/-- Field SBURST.GRANS. -/
def SBURST_GRANS (st : Nat) : Fld := ⟨aSBURST st, 32, 32⟩
/-- Device address of SSTAGE. -/
def aSSTAGE (st i : Nat) : Nat := 0x020000108000 + st * 0x10000 + i * 0x8
/-- Field SSTAGE.STEP. -/
def SSTAGE_STEP (st i : Nat) : Fld := ⟨aSSTAGE st i, 0, 32⟩
/-- Field SSTAGE.CURSOR. -/
def SSTAGE_CURSOR (st i : Nat) : Fld := ⟨aSSTAGE st i, 32, 21⟩
/-- Field SSTAGE.STAGE. -/
def SSTAGE_STAGE (st i : Nat) : Fld := ⟨aSSTAGE st i, 56, 2⟩
/-- Field SSTAGE.SKIPPED. -/
def SSTAGE_SKIPPED (st i : Nat) : Fld := ⟨aSSTAGE st i, 58, 1⟩
/-- Field SSTAGE.LATEOVF. -/
def SSTAGE_LATEOVF (st i : Nat) : Fld := ⟨aSSTAGE st i, 59, 1⟩
/-- Field SSTAGE.NFOUT. -/
def SSTAGE_NFOUT (st i : Nat) : Fld := ⟨aSSTAGE st i, 60, 1⟩
/-- Field SSTAGE.IDLESK. -/
def SSTAGE_IDLESK (st i : Nat) : Fld := ⟨aSSTAGE st i, 61, 1⟩

/-- The register map of the stack block. -/
def regs_stack : List RSpec :=
  [⟨0x0, 1, 8, [⟨0, 1, .rw, 0⟩]⟩,
   ⟨0x8, 1, 8, [⟨0, 6, .ro, 0⟩, ⟨6, 1, .ro, 0⟩, ⟨7, 1, .ro, 0⟩, ⟨16, 7, .ro, 0⟩]⟩,
   ⟨0x10, 1, 8, [⟨0, 32, .ro, 0⟩]⟩,
   ⟨0x18, 1, 8, [⟨0, 32, .ro, 0⟩]⟩,
   ⟨0x20, 1, 8, [⟨0, 32, .rc, 0⟩, ⟨32, 32, .rc, 0⟩]⟩,
   ⟨0x28, 1, 8, [⟨0, 32, .rc, 0⟩, ⟨32, 32, .rc, 0⟩]⟩,
   ⟨0x8000, 4096, 8, [⟨0, 32, .rw, 0⟩, ⟨32, 21, .rw, 0⟩, ⟨56, 2, .rw, 0⟩, ⟨58, 1, .rw, 0⟩, ⟨59, 1, .rw, 0⟩, ⟨60, 1, .rw, 0⟩, ⟨61, 1, .rw, 0⟩]⟩]

/-- Device address of BBLKUF. -/
def aBBLKUF (st : Nat) : Nat := 0x020000200000 + st * 0x10000
/-- Field BBLKUF.COUNT. -/
def BBLKUF_COUNT (st : Nat) : Fld := ⟨aBBLKUF st, 0, 32⟩
/-- Field BBLKUF.MAXN. -/
def BBLKUF_MAXN (st : Nat) : Fld := ⟨aBBLKUF st, 32, 6⟩
/-- Device address of BQBASE. -/
def aBQBASE (st i : Nat) : Nat := 0x020000200100 + st * 0x10000 + i * 0x40
/-- Field BQBASE.BASE. -/
def BQBASE_BASE (st i : Nat) : Fld := ⟨aBQBASE st i, 12, 24⟩
/-- Device address of BQPTR. -/
def aBQPTR (st i : Nat) : Nat := 0x020000200108 + st * 0x10000 + i * 0x40
/-- Field BQPTR.PI. -/
def BQPTR_PI (st i : Nat) : Fld := ⟨aBQPTR st i, 0, 9⟩
/-- Field BQPTR.CI. -/
def BQPTR_CI (st i : Nat) : Fld := ⟨aBQPTR st i, 16, 9⟩
/-- Device address of BCQBASE. -/
def aBCQBASE (st i : Nat) : Nat := 0x020000200110 + st * 0x10000 + i * 0x40
/-- Field BCQBASE.BASE. -/
def BCQBASE_BASE (st i : Nat) : Fld := ⟨aBCQBASE st i, 12, 24⟩
/-- Device address of BCQPTR. -/
def aBCQPTR (st i : Nat) : Nat := 0x020000200118 + st * 0x10000 + i * 0x40
/-- Field BCQPTR.HEAD. -/
def BCQPTR_HEAD (st i : Nat) : Fld := ⟨aBCQPTR st i, 0, 9⟩
/-- Field BCQPTR.TAIL. -/
def BCQPTR_TAIL (st i : Nat) : Fld := ⟨aBCQPTR st i, 16, 9⟩
/-- Device address of BECTL. -/
def aBECTL (st i : Nat) : Nat := 0x020000200120 + st * 0x10000 + i * 0x40
/-- Field BECTL.ABORT. -/
def BECTL_ABORT (st i : Nat) : Fld := ⟨aBECTL st i, 0, 1⟩
/-- Device address of BESTAT. -/
def aBESTAT (st i : Nat) : Nat := 0x020000200128 + st * 0x10000 + i * 0x40
/-- Field BESTAT.BUSY. -/
def BESTAT_BUSY (st i : Nat) : Fld := ⟨aBESTAT st i, 0, 1⟩
/-- Field BESTAT.WAITSEM. -/
def BESTAT_WAITSEM (st i : Nat) : Fld := ⟨aBESTAT st i, 1, 1⟩
/-- Field BESTAT.CQFULL. -/
def BESTAT_CQFULL (st i : Nat) : Fld := ⟨aBESTAT st i, 2, 1⟩
/-- Field BESTAT.QERR. -/
def BESTAT_QERR (st i : Nat) : Fld := ⟨aBESTAT st i, 3, 1⟩
/-- Field BESTAT.SEMOVF. -/
def BESTAT_SEMOVF (st i : Nat) : Fld := ⟨aBESTAT st i, 4, 1⟩
/-- Device address of BSEM. -/
def aBSEM (st i : Nat) : Nat := 0x020000200400 + st * 0x10000 + i * 0x8
/-- Field BSEM.COUNT. -/
def BSEM_COUNT (st i : Nat) : Fld := ⟨aBSEM st i, 0, 16⟩

/-- The register map of the bind block. -/
def regs_bind : List RSpec :=
  [⟨0x0, 1, 8, [⟨0, 32, .rc, 0⟩, ⟨32, 6, .rc, 0⟩]⟩,
   ⟨0x100, 8, 64, [⟨12, 24, .rw, 0⟩]⟩,
   ⟨0x108, 8, 64, [⟨0, 9, .rw, 0⟩, ⟨16, 9, .ro, 0⟩]⟩,
   ⟨0x110, 8, 64, [⟨12, 24, .rw, 0⟩]⟩,
   ⟨0x118, 8, 64, [⟨0, 9, .ro, 0⟩, ⟨16, 9, .rw, 0⟩]⟩,
   ⟨0x120, 8, 64, [⟨0, 1, .wo, 0⟩]⟩,
   ⟨0x128, 8, 64, [⟨0, 1, .ro, 0⟩, ⟨1, 1, .ro, 0⟩, ⟨2, 1, .ro, 0⟩, ⟨3, 1, .w1c, 0⟩, ⟨4, 1, .w1c, 0⟩]⟩,
   ⟨0x400, 64, 8, [⟨0, 16, .rw, 0⟩]⟩]

/-- Device address of HQVER. -/
def aHQVER (fn : Nat) : Nat := 0x020000300000 + fn * 0x100
/-- Field HQVER.MAXVER. -/
def HQVER_MAXVER (fn : Nat) : Fld := ⟨aHQVER fn, 0, 2⟩
/-- Device address of HQCFG. -/
def aHQCFG (fn : Nat) : Nat := 0x020000300008 + fn * 0x100
/-- Field HQCFG.VER. -/
def HQCFG_VER (fn : Nat) : Fld := ⟨aHQCFG fn, 0, 2⟩
/-- Field HQCFG.EN. -/
def HQCFG_EN (fn : Nat) : Fld := ⟨aHQCFG fn, 2, 1⟩
/-- Field HQCFG.SQLOG. -/
def HQCFG_SQLOG (fn : Nat) : Fld := ⟨aHQCFG fn, 8, 4⟩
/-- Field HQCFG.CQLOG. -/
def HQCFG_CQLOG (fn : Nat) : Fld := ⟨aHQCFG fn, 12, 4⟩
/-- Field HQCFG.EVLOG. -/
def HQCFG_EVLOG (fn : Nat) : Fld := ⟨aHQCFG fn, 16, 4⟩
/-- Field HQCFG.MODUS. -/
def HQCFG_MODUS (fn : Nat) : Fld := ⟨aHQCFG fn, 32, 10⟩
/-- Device address of HQSQBASE. -/
def aHQSQBASE (fn : Nat) : Nat := 0x020000300010 + fn * 0x100
/-- Field HQSQBASE.BASE. -/
def HQSQBASE_BASE (fn : Nat) : Fld := ⟨aHQSQBASE fn, 12, 52⟩
/-- Device address of HQCQBASE. -/
def aHQCQBASE (fn : Nat) : Nat := 0x020000300018 + fn * 0x100
/-- Field HQCQBASE.BASE. -/
def HQCQBASE_BASE (fn : Nat) : Fld := ⟨aHQCQBASE fn, 12, 52⟩
/-- Device address of HQEVBASE. -/
def aHQEVBASE (fn : Nat) : Nat := 0x020000300020 + fn * 0x100
/-- Field HQEVBASE.BASE. -/
def HQEVBASE_BASE (fn : Nat) : Fld := ⟨aHQEVBASE fn, 12, 52⟩
/-- Device address of HQSQTAIL. -/
def aHQSQTAIL (fn : Nat) : Nat := 0x020000300028 + fn * 0x100
/-- Field HQSQTAIL.TAIL. -/
def HQSQTAIL_TAIL (fn : Nat) : Fld := ⟨aHQSQTAIL fn, 0, 17⟩
/-- Device address of HQSQHEAD. -/
def aHQSQHEAD (fn : Nat) : Nat := 0x020000300030 + fn * 0x100
/-- Field HQSQHEAD.HEAD. -/
def HQSQHEAD_HEAD (fn : Nat) : Fld := ⟨aHQSQHEAD fn, 0, 17⟩
/-- Device address of HQCQHEAD. -/
def aHQCQHEAD (fn : Nat) : Nat := 0x020000300038 + fn * 0x100
/-- Field HQCQHEAD.HEAD. -/
def HQCQHEAD_HEAD (fn : Nat) : Fld := ⟨aHQCQHEAD fn, 0, 17⟩
/-- Device address of HQEVHEAD. -/
def aHQEVHEAD (fn : Nat) : Nat := 0x020000300040 + fn * 0x100
/-- Field HQEVHEAD.HEAD. -/
def HQEVHEAD_HEAD (fn : Nat) : Fld := ⟨aHQEVHEAD fn, 0, 17⟩
/-- Device address of HCTXSTAT. -/
def aHCTXSTAT (fn : Nat) : Nat := 0x020000300048 + fn * 0x100
/-- Field HCTXSTAT.STATE. -/
def HCTXSTAT_STATE (fn : Nat) : Fld := ⟨aHCTXSTAT fn, 0, 3⟩
/-- Field HCTXSTAT.FAULT. -/
def HCTXSTAT_FAULT (fn : Nat) : Fld := ⟨aHCTXSTAT fn, 3, 1⟩
/-- Field HCTXSTAT.FCAUSE. -/
def HCTXSTAT_FCAUSE (fn : Nat) : Fld := ⟨aHCTXSTAT fn, 4, 4⟩
/-- Field HCTXSTAT.PART. -/
def HCTXSTAT_PART (fn : Nat) : Fld := ⟨aHCTXSTAT fn, 8, 6⟩
/-- Field HCTXSTAT.FW. -/
def HCTXSTAT_FW (fn : Nat) : Fld := ⟨aHCTXSTAT fn, 14, 1⟩
/-- Field HCTXSTAT.TRAIN. -/
def HCTXSTAT_TRAIN (fn : Nat) : Fld := ⟨aHCTXSTAT fn, 15, 1⟩
/-- Field HCTXSTAT.IMPL. -/
def HCTXSTAT_IMPL (fn : Nat) : Fld := ⟨aHCTXSTAT fn, 16, 1⟩
/-- Device address of HCTXCTL. -/
def aHCTXCTL (fn : Nat) : Nat := 0x020000300050 + fn * 0x100
/-- Field HCTXCTL.RESET. -/
def HCTXCTL_RESET (fn : Nat) : Fld := ⟨aHCTXCTL fn, 0, 1⟩
/-- Device address of HEVLOST. -/
def aHEVLOST (fn : Nat) : Nat := 0x020000300058 + fn * 0x100
/-- Field HEVLOST.LOST. -/
def HEVLOST_LOST (fn : Nat) : Fld := ⟨aHEVLOST fn, 0, 32⟩
/-- Device address of HAPER. -/
def aHAPER (fn i : Nat) : Nat := 0x020000300060 + fn * 0x100 + i * 0x8
/-- Field HAPER.BASE. -/
def HAPER_BASE (fn i : Nat) : Fld := ⟨aHAPER fn i, 32, 10⟩

/-- The register map of the func block. -/
def regs_func : List RSpec :=
  [⟨0x0, 1, 8, [⟨0, 2, .ro, 2⟩]⟩,
   ⟨0x8, 1, 8, [⟨0, 2, .rw, 0⟩, ⟨2, 1, .rw, 0⟩, ⟨8, 4, .rw, 0⟩, ⟨12, 4, .rw, 0⟩, ⟨16, 4, .rw, 0⟩, ⟨32, 10, .rw, 0⟩]⟩,
   ⟨0x10, 1, 8, [⟨12, 52, .rw, 0⟩]⟩,
   ⟨0x18, 1, 8, [⟨12, 52, .rw, 0⟩]⟩,
   ⟨0x20, 1, 8, [⟨12, 52, .rw, 0⟩]⟩,
   ⟨0x28, 1, 8, [⟨0, 17, .rw, 0⟩]⟩,
   ⟨0x30, 1, 8, [⟨0, 17, .ro, 0⟩]⟩,
   ⟨0x38, 1, 8, [⟨0, 17, .rw, 0⟩]⟩,
   ⟨0x40, 1, 8, [⟨0, 17, .rw, 0⟩]⟩,
   ⟨0x48, 1, 8, [⟨0, 3, .ro, 0⟩, ⟨3, 1, .ro, 0⟩, ⟨4, 4, .ro, 0⟩, ⟨8, 6, .ro, 0⟩, ⟨14, 1, .ro, 0⟩, ⟨15, 1, .ro, 0⟩, ⟨16, 1, .ro, 0⟩]⟩,
   ⟨0x50, 1, 8, [⟨0, 1, .wo, 0⟩]⟩,
   ⟨0x58, 1, 8, [⟨0, 32, .rc, 0⟩]⟩,
   ⟨0x60, 4, 8, [⟨32, 10, .rw, 0⟩]⟩]

/-- Device address of CSTAT. -/
def aCSTAT : Nat := 0x020000400000
/-- Field CSTAT.SRC. -/
def CSTAT_SRC : Fld := ⟨aCSTAT, 0, 1⟩
/-- Field CSTAT.SLOT. -/
def CSTAT_SLOT : Fld := ⟨aCSTAT, 1, 1⟩
/-- Field CSTAT.VER. -/
def CSTAT_VER : Fld := ⟨aCSTAT, 2, 2⟩
/-- Field CSTAT.TRIED. -/
def CSTAT_TRIED : Fld := ⟨aCSTAT, 4, 2⟩
/-- Field CSTAT.REJ0. -/
def CSTAT_REJ0 : Fld := ⟨aCSTAT, 8, 4⟩
/-- Field CSTAT.REJ1. -/
def CSTAT_REJ1 : Fld := ⟨aCSTAT, 12, 4⟩
/-- Field CSTAT.SUBST. -/
def CSTAT_SUBST : Fld := ⟨aCSTAT, 16, 16⟩
/-- Field CSTAT.SEQ. -/
def CSTAT_SEQ : Fld := ⟨aCSTAT, 32, 32⟩
/-- Device address of CRSTCAUSE. -/
def aCRSTCAUSE : Nat := 0x020000400008
/-- Field CRSTCAUSE.LAST. -/
def CRSTCAUSE_LAST : Fld := ⟨aCRSTCAUSE, 0, 4⟩
/-- Field CRSTCAUSE.DEVRST. -/
def CRSTCAUSE_DEVRST : Fld := ⟨aCRSTCAUSE, 16, 16⟩
/-- Field CRSTCAUSE.IGNORED. -/
def CRSTCAUSE_IGNORED : Fld := ⟨aCRSTCAUSE, 32, 16⟩
/-- Device address of CWDOG. -/
def aCWDOG : Nat := 0x020000400010
/-- Field CWDOG.KICK. -/
def CWDOG_KICK : Fld := ⟨aCWDOG, 0, 1⟩
/-- Field CWDOG.LIMIT. -/
def CWDOG_LIMIT : Fld := ⟨aCWDOG, 32, 32⟩
/-- Device address of CFLCMD. -/
def aCFLCMD : Nat := 0x020000400018
/-- Field CFLCMD.OP. -/
def CFLCMD_OP : Fld := ⟨aCFLCMD, 0, 2⟩
/-- Field CFLCMD.GO. -/
def CFLCMD_GO : Fld := ⟨aCFLCMD, 2, 1⟩
/-- Field CFLCMD.ADDR. -/
def CFLCMD_ADDR : Fld := ⟨aCFLCMD, 8, 27⟩
/-- Device address of CFLSTAT. -/
def aCFLSTAT : Nat := 0x020000400020
/-- Field CFLSTAT.BUSY. -/
def CFLSTAT_BUSY : Fld := ⟨aCFLSTAT, 0, 1⟩
/-- Field CFLSTAT.ERR. -/
def CFLSTAT_ERR : Fld := ⟨aCFLSTAT, 1, 1⟩
/-- Device address of CFLBUF. -/
def aCFLBUF (i : Nat) : Nat := 0x020000400100 + i * 0x8
/-- Field CFLBUF.DATA. -/
def CFLBUF_DATA (i : Nat) : Fld := ⟨aCFLBUF i, 0, 64⟩

/-- The register map of the cfg block. -/
def regs_cfg : List RSpec :=
  [⟨0x0, 1, 8, [⟨0, 1, .ro, 0⟩, ⟨1, 1, .ro, 0⟩, ⟨2, 2, .ro, 0⟩, ⟨4, 2, .ro, 0⟩, ⟨8, 4, .ro, 0⟩, ⟨12, 4, .ro, 0⟩, ⟨16, 16, .ro, 0⟩, ⟨32, 32, .ro, 0⟩]⟩,
   ⟨0x8, 1, 8, [⟨0, 4, .ro, 1⟩, ⟨16, 16, .ro, 0⟩, ⟨32, 16, .ro, 0⟩]⟩,
   ⟨0x10, 1, 8, [⟨0, 1, .wo, 0⟩, ⟨32, 32, .ro, 0⟩]⟩,
   ⟨0x18, 1, 8, [⟨0, 2, .rw, 0⟩, ⟨2, 1, .wo, 0⟩, ⟨8, 27, .rw, 0⟩]⟩,
   ⟨0x20, 1, 8, [⟨0, 1, .ro, 0⟩, ⟨1, 1, .w1c, 0⟩]⟩,
   ⟨0x100, 32, 8, [⟨0, 64, .rw, 0⟩]⟩]

/-- Device address of KLDADDR. -/
def aKLDADDR : Nat := 0x020000410000
/-- Field KLDADDR.ADDR. -/
def KLDADDR_ADDR : Fld := ⟨aKLDADDR, 0, 64⟩
/-- Device address of KLDCTL. -/
def aKLDCTL : Nat := 0x020000410008
/-- Field KLDCTL.SLOT. -/
def KLDCTL_SLOT : Fld := ⟨aKLDCTL, 0, 5⟩
/-- Field KLDCTL.GO. -/
def KLDCTL_GO : Fld := ⟨aKLDCTL, 5, 1⟩
/-- Field KLDCTL.CLR. -/
def KLDCTL_CLR : Fld := ⟨aKLDCTL, 6, 1⟩
/-- Device address of KSTAT. -/
def aKSTAT : Nat := 0x020000410010
/-- Field KSTAT.BUSY. -/
def KSTAT_BUSY : Fld := ⟨aKSTAT, 0, 1⟩
/-- Field KSTAT.RES. -/
def KSTAT_RES : Fld := ⟨aKSTAT, 1, 3⟩
/-- Device address of KFUSE. -/
def aKFUSE : Nat := 0x020000410018
/-- Field KFUSE.CMACREQ. -/
def KFUSE_CMACREQ : Fld := ⟨aKFUSE, 0, 1⟩
/-- Field KFUSE.ROOTOK. -/
def KFUSE_ROOTOK : Fld := ⟨aKFUSE, 1, 1⟩
/-- Field KFUSE.SERIAL. -/
def KFUSE_SERIAL : Fld := ⟨aKFUSE, 16, 48⟩
/-- Device address of KSLOT. -/
def aKSLOT (i : Nat) : Nat := 0x020000410100 + i * 0x8
/-- Field KSLOT.LOADED. -/
def KSLOT_LOADED (i : Nat) : Fld := ⟨aKSLOT i, 0, 1⟩
/-- Field KSLOT.USE. -/
def KSLOT_USE (i : Nat) : Fld := ⟨aKSLOT i, 1, 3⟩
/-- Field KSLOT.SRC. -/
def KSLOT_SRC (i : Nat) : Fld := ⟨aKSLOT i, 4, 1⟩

/-- The register map of the key block. -/
def regs_key : List RSpec :=
  [⟨0x0, 1, 8, [⟨0, 64, .rw, 0⟩]⟩,
   ⟨0x8, 1, 8, [⟨0, 5, .rw, 0⟩, ⟨5, 1, .wo, 0⟩, ⟨6, 1, .wo, 0⟩]⟩,
   ⟨0x10, 1, 8, [⟨0, 1, .ro, 0⟩, ⟨1, 3, .ro, 0⟩]⟩,
   ⟨0x18, 1, 8, [⟨0, 1, .ro, 0⟩, ⟨1, 1, .ro, 0⟩, ⟨16, 48, .ro, 0⟩]⟩,
   ⟨0x100, 32, 8, [⟨0, 1, .ro, 0⟩, ⟨1, 3, .ro, 0⟩, ⟨4, 1, .ro, 0⟩]⟩]

/-- Device address of PCTL. -/
def aPCTL : Nat := 0x020000420000
/-- Field PCTL.EFF. -/
def PCTL_EFF : Fld := ⟨aPCTL, 0, 1⟩
/-- Field PCTL.PARK. -/
def PCTL_PARK : Fld := ⟨aPCTL, 1, 1⟩
/-- Device address of PSTAT. -/
def aPSTAT : Nat := 0x020000420008
/-- Field PSTAT.MODE. -/
def PSTAT_MODE : Fld := ⟨aPSTAT, 0, 3⟩
/-- Field PSTAT.WINDOW. -/
def PSTAT_WINDOW : Fld := ⟨aPSTAT, 3, 1⟩
/-- Field PSTAT.THROT. -/
def PSTAT_THROT : Fld := ⟨aPSTAT, 4, 1⟩
/-- Field PSTAT.PACELOST. -/
def PSTAT_PACELOST : Fld := ⟨aPSTAT, 5, 1⟩
/-- Field PSTAT.PEAKREF. -/
def PSTAT_PEAKREF : Fld := ⟨aPSTAT, 6, 1⟩
/-- Field PSTAT.PARKREF. -/
def PSTAT_PARKREF : Fld := ⟨aPSTAT, 7, 1⟩
/-- Field PSTAT.VCORE. -/
def PSTAT_VCORE : Fld := ⟨aPSTAT, 16, 16⟩
/-- Field PSTAT.BEAT. -/
def PSTAT_BEAT : Fld := ⟨aPSTAT, 32, 16⟩
/-- Device address of PPOWER. -/
def aPPOWER : Nat := 0x020000420010
/-- Field PPOWER.NOW. -/
def PPOWER_NOW : Fld := ⟨aPPOWER, 0, 16⟩
/-- Field PPOWER.MAX. -/
def PPOWER_MAX : Fld := ⟨aPPOWER, 16, 16⟩
/-- Device address of PCREDIT. -/
def aPCREDIT : Nat := 0x020000420018
/-- Field PCREDIT.CREDIT. -/
def PCREDIT_CREDIT : Fld := ⟨aPCREDIT, 0, 12⟩
/-- Field PCREDIT.WINCNT. -/
def PCREDIT_WINCNT : Fld := ⟨aPCREDIT, 16, 16⟩
/-- Device address of PTEMP. -/
def aPTEMP : Nat := 0x020000420020
/-- Field PTEMP.TJ0. -/
def PTEMP_TJ0 : Fld := ⟨aPTEMP, 0, 16⟩
/-- Field PTEMP.TJ1. -/
def PTEMP_TJ1 : Fld := ⟨aPTEMP, 16, 16⟩
/-- Field PTEMP.TJSTK. -/
def PTEMP_TJSTK : Fld := ⟨aPTEMP, 32, 16⟩
/-- Device address of PLIFE. -/
def aPLIFE : Nat := 0x020000420028
/-- Field PLIFE.HOURS. -/
def PLIFE_HOURS : Fld := ⟨aPLIFE, 0, 16⟩
/-- Field PLIFE.SECS. -/
def PLIFE_SECS : Fld := ⟨aPLIFE, 16, 12⟩
/-- Field PLIFE.BUDGET. -/
def PLIFE_BUDGET : Fld := ⟨aPLIFE, 32, 16⟩
/-- Device address of PHALT. -/
def aPHALT : Nat := 0x020000420030
/-- Field PHALT.INA. -/
def PHALT_INA : Fld := ⟨aPHALT, 0, 1⟩
/-- Field PHALT.INB. -/
def PHALT_INB : Fld := ⟨aPHALT, 1, 1⟩
/-- Field PHALT.HALTED. -/
def PHALT_HALTED : Fld := ⟨aPHALT, 2, 1⟩
/-- Field PHALT.FAULT. -/
def PHALT_FAULT : Fld := ⟨aPHALT, 3, 1⟩
/-- Field PHALT.RESUME. -/
def PHALT_RESUME : Fld := ⟨aPHALT, 4, 1⟩
/-- Field PHALT.DISCNT. -/
def PHALT_DISCNT : Fld := ⟨aPHALT, 16, 16⟩
/-- Device address of PCFG. -/
def aPCFG : Nat := 0x020000420038
/-- Field PCFG.PSUST. -/
def PCFG_PSUST : Fld := ⟨aPCFG, 0, 16⟩
/-- Field PCFG.PPEAK. -/
def PCFG_PPEAK : Fld := ⟨aPCFG, 16, 16⟩
/-- Field PCFG.CREDMIN. -/
def PCFG_CREDMIN : Fld := ⟨aPCFG, 32, 8⟩
/-- Field PCFG.THROTT. -/
def PCFG_THROTT : Fld := ⟨aPCFG, 40, 8⟩
/-- Field PCFG.TD. -/
def PCFG_TD : Fld := ⟨aPCFG, 48, 16⟩

/-- The register map of the pwr block. -/
def regs_pwr : List RSpec :=
  [⟨0x0, 1, 8, [⟨0, 1, .rw, 0⟩, ⟨1, 1, .rw, 0⟩]⟩,
   ⟨0x8, 1, 8, [⟨0, 3, .ro, 5⟩, ⟨3, 1, .ro, 0⟩, ⟨4, 1, .ro, 0⟩, ⟨5, 1, .w1c, 0⟩, ⟨6, 1, .w1c, 0⟩, ⟨7, 1, .w1c, 0⟩, ⟨16, 16, .ro, 700⟩, ⟨32, 16, .ro, 0⟩]⟩,
   ⟨0x10, 1, 8, [⟨0, 16, .ro, 0⟩, ⟨16, 16, .rc, 0⟩]⟩,
   ⟨0x18, 1, 8, [⟨0, 12, .ro, 2000⟩, ⟨16, 16, .rc, 0⟩]⟩,
   ⟨0x20, 1, 8, [⟨0, 16, .ro, 0⟩, ⟨16, 16, .ro, 0⟩, ⟨32, 16, .ro, 0⟩]⟩,
   ⟨0x28, 1, 8, [⟨0, 16, .ro, 0⟩, ⟨16, 12, .ro, 0⟩, ⟨32, 16, .ro, 0⟩]⟩,
   ⟨0x30, 1, 8, [⟨0, 1, .ro, 0⟩, ⟨1, 1, .ro, 0⟩, ⟨2, 1, .ro, 0⟩, ⟨3, 1, .w1c, 0⟩, ⟨4, 1, .wo, 0⟩, ⟨16, 16, .rc, 0⟩]⟩,
   ⟨0x38, 1, 8, [⟨0, 16, .ro, 2600⟩, ⟨16, 16, .ro, 3400⟩, ⟨32, 8, .ro, 200⟩, ⟨40, 8, .ro, 105⟩, ⟨48, 16, .ro, 5000⟩]⟩]

/-- Every block of registers of the device. -/
def regBlocks : List BSpec :=
  [⟨0x010000300000, 2048, 0x400000, 0x100000, regs_tile⟩,
   ⟨0x020000000000, 1, 0x10000, 0x10000, regs_global⟩,
   ⟨0x020000010000, 1, 0x10000, 0x10000, regs_tb⟩,
   ⟨0x020000020000, 1, 0x10000, 0x10000, regs_err⟩,
   ⟨0x020000030000, 1, 0x10000, 0x10000, regs_fab⟩,
   ⟨0x020000040000, 1, 0x10000, 0x10000, regs_route⟩,
   ⟨0x020000050000, 1, 0x10000, 0x10000, regs_coll⟩,
   ⟨0x020000060000, 1, 0x20000, 0x20000, regs_group⟩,
   ⟨0x020000080000, 64, 0x40, 0x40, regs_disp⟩,
   ⟨0x020000090000, 1, 0x8000, 0x8000, regs_stream⟩,
   ⟨0x0200000A0000, 1, 0x10000, 0x10000, regs_plan⟩,
   ⟨0x0200000B0000, 1, 0x10000, 0x10000, regs_hist⟩,
   ⟨0x0200000C0000, 1, 0x10000, 0x10000, regs_train⟩,
   ⟨0x0200000D0000, 1, 0x10000, 0x10000, regs_far⟩,
   ⟨0x0200000E0000, 1, 0x10000, 0x10000, regs_led⟩,
   ⟨0x0200000F0000, 1, 0x10000, 0x10000, regs_host⟩,
   ⟨0x020000100000, 8, 0x10000, 0x10000, regs_stack⟩,
   ⟨0x020000200000, 8, 0x10000, 0x10000, regs_bind⟩,
   ⟨0x020000300000, 512, 0x100, 0x100, regs_func⟩,
   ⟨0x020000400000, 1, 0x10000, 0x10000, regs_cfg⟩,
   ⟨0x020000410000, 1, 0x10000, 0x10000, regs_key⟩,
   ⟨0x020000420000, 1, 0x10000, 0x10000, regs_pwr⟩]

/-- The register layout at an 8-byte aligned device address, if a register lies there. -/
def regSpecAt (a : Nat) : Option RSpec :=
  match regBlocks.find? fun b => decide (b.base ≤ a) && decide (a < b.base + b.cnt * b.stride) && decide ((a - b.base) % b.stride < b.size) with
  | none => none
  | some b =>
    let o := (a - b.base) % b.stride
    b.regs.find? fun r => decide (r.off ≤ o) && decide (o < r.off + r.cnt * r.stride) && (o - r.off) % r.stride == 0

/-- The bits of a register's fields that satisfy p. -/
def RSpec.mask (r : RSpec) (p : FSpec → Bool) : Nat :=
  (r.fs.filter p).foldl (fun m f => m + (2 ^ f.w - 1) * 2 ^ f.lo) 0

/-- A register's reset value (R13). -/
def RSpec.reset (r : RSpec) : Nat := r.fs.foldl (fun m f => m + f.rst * 2 ^ f.lo) 0

/-- What an unlisted register address holds: the Reset column. -/
def regReset (a : Nat) : BitVec 64 :=
  match regSpecAt a with
  | some r => BitVec.ofNat 64 r.reset
  | none => 0

end Sys2Proof.Machine
end

