-- ==== Sys2Proof/Machine/Num.lean ====
section
/-! DEFINITION. Numbers and formats (chapter 3): exact dyadic values, the format codes of Table 3.1, decoding of
elements (R91, R93 to R95, R100), rounding and overflow (R103, R104) and the subnormal classes (R108 to R111).
Arithmetic is exact on dyadics and is narrowed once, at the end. -/

namespace Sys2Proof.Machine

/-- A decoded value: NaN, a signed infinity, or (-1)^neg × m × 2^e, with m = 0 a signed zero. -/
inductive Val where
  | nan
  | inf (neg : Bool)
  | fin (neg : Bool) (m : Nat) (e : Int)
  deriving DecidableEq, Repr

/-- The VSTAT flags an operation raises (Table 3.13), as a bit mask. -/
abbrev Flags := Nat

/-- VSTAT.FLUSHED (Table 3.13). -/
def fFlushed : Flags := 1
/-- VSTAT.INVALID (Table 3.13). -/
def fInvalid : Flags := 2
/-- VSTAT.OVERFLOW (Table 3.13). -/
def fOverflow : Flags := 4
/-- VSTAT.SATUR (Table 3.13). -/
def fSatur : Flags := 8
/-- VSTAT.UNDER (Table 3.13). -/
def fUnder : Flags := 16
/-- VSTAT.DIVZ (Table 3.13). -/
def fDivz : Flags := 32
/-- VSTAT.NONFIN (Table 3.13). -/
def fNonfin : Flags := 64

/-- +0. -/
def Val.zero : Val := .fin false 0 0

/-- The value is zero of either sign. -/
def Val.isZero : Val → Bool
  | .fin _ m _ => m == 0
  | _ => false

/-- The value is a NaN. -/
def Val.isNan : Val → Bool
  | .nan => true
  | _ => false

/-- The value is a NaN or an infinity. -/
def Val.nonFinite : Val → Bool
  | .fin _ _ _ => false
  | _ => true

/-- The sign bit (a NaN counts as positive). -/
def Val.neg : Val → Bool
  | .nan => false
  | .inf n => n
  | .fin n _ _ => n

/-- The value with its sign reversed. -/
def Val.negate : Val → Val
  | .nan => .nan
  | .inf n => .inf (!n)
  | .fin n m e => .fin (!n) m e

/-- The magnitude with sign cleared. -/
def Val.abs : Val → Val
  | .nan => .nan
  | .inf _ => .inf false
  | .fin _ m e => .fin false m e

/-- The significand as a signed integer. -/
def signedM (neg : Bool) (m : Nat) : Int := if neg then -(m : Int) else (m : Int)

/-- 2^(e - f) × x for f ≤ e. -/
def alignTo (x : Int) (e f : Int) : Int := x * (2 ^ (e - f).toNat : Nat)

/-- Exact sum; a zero sum of non-zero opposite values, and of zeros of opposite sign, is +0 (IEEE 754 under
round to nearest). Opposite infinities give NaN. -/
def Val.add : Val → Val → Val
  | .nan, _ => .nan
  | _, .nan => .nan
  | .inf a, .inf b => if a = b then .inf a else .nan
  | .inf a, .fin _ _ _ => .inf a
  | .fin _ _ _, .inf b => .inf b
  | .fin a m e, .fin b n f =>
    if m = 0 ∧ n = 0 then .fin (a && b) 0 0
    else if m = 0 then .fin b n f
    else if n = 0 then .fin a m e
    else
      let g := min e f
      let x := alignTo (signedM a m) e g + alignTo (signedM b n) f g
      .fin (decide (x < 0)) x.natAbs g

/-- Exact product; an infinity times a zero gives NaN. -/
def Val.mul : Val → Val → Val
  | .nan, _ => .nan
  | _, .nan => .nan
  | .inf a, .inf b => .inf (xor a b)
  | .inf a, .fin b n _ => if n = 0 then .nan else .inf (xor a b)
  | .fin a m _, .inf b => if m = 0 then .nan else .inf (xor a b)
  | .fin a m e, .fin b n f => .fin (xor a b) (m * n) (e + f)

/-- Times 2^k. -/
def Val.scale (k : Int) : Val → Val
  | .nan => .nan
  | .inf n => .inf n
  | .fin n m e => .fin n m (e + k)

/-- The values are ordered and the first is smaller (+0 and −0 compare equal; R112). -/
def Val.lt : Val → Val → Bool
  | .nan, _ => false
  | _, .nan => false
  | .inf a, .inf b => a && !b
  | .inf a, .fin _ _ _ => a
  | .fin _ _ _, .inf b => !b
  | .fin a m e, .fin b n f =>
    let g := min e f
    decide (alignTo (signedM a m) e g < alignTo (signedM b n) f g)

/-- The values compare equal (+0 equals −0; no NaN equals anything). -/
def Val.eqv : Val → Val → Bool
  | .nan, _ => false
  | _, .nan => false
  | .inf a, .inf b => a == b
  | .inf _, .fin _ _ _ => false
  | .fin _ _ _, .inf _ => false
  | .fin a m e, .fin b n f =>
    let g := min e f
    decide (alignTo (signedM a m) e g = alignTo (signedM b n) f g)

/-- m × 2^(-d) rounded to nearest, ties to even (exact for d ≤ 0). -/
def rneShift (m : Nat) (d : Int) : Nat :=
  if d ≤ 0 then m <<< (-d).toNat
  else
    let k := d.toNat
    let q := m >>> k
    let r := m % 2 ^ k
    let h := 2 ^ (k - 1)
    if h < r ∨ (r = h ∧ q % 2 = 1) then q + 1 else q

/-- floor(m × 2^(-d)). -/
def floorShift (m : Nat) (d : Int) : Nat := if d ≤ 0 then m <<< (-d).toNat else m >>> d.toNat

/-- m × 2^(-d) is not an integer. -/
def inexactShift (m : Nat) (d : Int) : Bool := if d ≤ 0 then false else m % 2 ^ d.toNat != 0

/-- Stochastic rounding of ±m × 2^(-d) (R103): u is the 16-bit random value; lo and hi are the adjacent
integers in signed order. -/
def srShift (neg : Bool) (m : Nat) (d : Int) (u : Nat) : Nat :=
  if d ≤ 0 then m <<< (-d).toNat
  else
    let k := d.toNat
    let q := m >>> k
    let r := m % 2 ^ k
    if r = 0 then q
    else if neg then
      -- lo = -(q+1), hi = -q
      let t := ((2 ^ k - r) * 65536) >>> k
      if u < t then q else q + 1
    else
      let t := (r * 65536) >>> k
      if u < t then q + 1 else q

/-- How an instruction rounds: to nearest even, or stochastically with the 16-bit value u (R103). -/
inductive Rnd where
  | rne
  | sr (u : Nat)
  deriving DecidableEq, Repr

/-- One rounding of ±m × 2^(-d) to an integer magnitude. -/
def Rnd.shift (r : Rnd) (neg : Bool) (m : Nat) (d : Int) : Nat :=
  match r with
  | .rne => rneShift m d
  | .sr u => srShift neg m d u

/-- A binary floating-point layout (Table 3.2): fraction bits, exponent bits, bias. -/
structure FFmt where
  f : Nat
  ex : Nat
  bias : Nat
  /-- e all ones with f = 0 is an infinity and with f ≠ 0 a NaN. -/
  ieee : Bool
  /-- e all ones with f all ones is a NaN and there is no infinity (E4M3). -/
  nanTop : Bool
  deriving DecidableEq, Repr

/-- Table 3.2. -/
def fp32F : FFmt := ⟨23, 8, 127, true, false⟩
/-- Table 3.2. -/
def bf16F : FFmt := ⟨7, 8, 127, true, false⟩
/-- Table 3.2. -/
def fp16F : FFmt := ⟨10, 5, 15, true, false⟩
/-- Table 3.2. -/
def e4m3F : FFmt := ⟨3, 4, 7, false, true⟩
/-- Table 3.2. -/
def e5m2F : FFmt := ⟨2, 5, 15, true, false⟩
/-- Table 3.2. -/
def e3m2F : FFmt := ⟨2, 3, 3, false, false⟩
/-- Table 3.2. -/
def e2m3F : FFmt := ⟨3, 2, 1, false, false⟩
/-- Table 3.2. -/
def e2m1F : FFmt := ⟨1, 2, 1, false, false⟩
/-- Table 3.2. -/
def e48F : FFmt := ⟨39, 8, 127, true, false⟩

/-- Exponent of the smallest normal value. -/
def FFmt.emin (F : FFmt) : Int := 1 - (F.bias : Int)

/-- The first magnitude encoding above the largest finite one. -/
def FFmt.topEnc (F : FFmt) : Nat :=
  if F.ieee then (2 ^ F.ex - 1) <<< F.f
  else if F.nanTop then 2 ^ (F.ex + F.f) - 1
  else 2 ^ (F.ex + F.f)

/-- The largest finite magnitude encoding. -/
def FFmt.maxEnc (F : FFmt) : Nat := F.topEnc - 1

/-- The canonical NaN (Table 3.3). -/
def FFmt.nanEnc (F : FFmt) : Nat :=
  if F.ieee then F.topEnc + 2 ^ (F.f - 1) else 2 ^ (F.ex + F.f) - 1

/-- Decode an element (R91), scale not applied. -/
def FFmt.decode (F : FFmt) (x : Nat) : Val :=
  let neg := bitOf x (F.f + F.ex)
  let e := bitsOf x F.f F.ex
  let f := bitsOf x 0 F.f
  if F.ieee ∧ e = 2 ^ F.ex - 1 then (if f = 0 then .inf neg else .nan)
  else if F.nanTop ∧ e = 2 ^ F.ex - 1 ∧ f = 2 ^ F.f - 1 then .nan
  else if e = 0 then .fin neg f (F.emin - F.f)
  else .fin neg (2 ^ F.f + f) ((e : Int) - F.bias - F.f)

/-- The sign bit placed above a magnitude encoding. -/
def FFmt.signed (F : FFmt) (neg : Bool) (mag : Nat) : Nat := (if neg then 2 ^ (F.f + F.ex) else 0) + mag

/-- Magnitude encoding of m × 2^e (m > 0) rounded once with gradual underflow, range unbounded above. -/
def FFmt.encMag (F : FFmt) (r : Rnd) (neg : Bool) (m : Nat) (e : Int) : Nat :=
  let qn := (ilog2 m : Int) + e - F.f
  let q0 := F.emin - F.f
  let q := max qn q0
  ((q - q0).toNat <<< F.f) + r.shift neg m (q - e)

/-- Magnitude encoding of m × 2^e (m > 0) rounded toward zero. -/
def FFmt.encFloor (F : FFmt) (m : Nat) (e : Int) : Nat :=
  let q0 := F.emin - F.f
  let q := max ((ilog2 m : Int) + e - F.f) q0
  ((q - q0).toNat <<< F.f) + floorShift m (q - e)

/-- Rounded with unbounded exponent range, m × 2^e (m > 0) lies below the smallest normal value. -/
def FFmt.tiny (F : FFmt) (r : Rnd) (neg : Bool) (m : Nat) (e : Int) : Bool :=
  let q := (ilog2 m : Int) + e - F.f
  let k := r.shift neg m (q - e)
  -- k × 2^q < 2^emin
  decide ((ilog2 k : Int) + q < F.emin) || k == 0

/-- Array-class result (R102, R105, R106, R109): one rounding to nearest even, overflow to infinity, a result
below the smallest normal flushed to zero of its sign, canonical NaN, no flag. -/
def FFmt.encArray (F : FFmt) : Val → Nat
  | .nan => F.nanEnc
  | .inf n => F.signed n F.topEnc
  | .fin n m e =>
    if m = 0 then F.signed n 0
    else if F.tiny .rne n m e then F.signed n 0
    else F.signed n (min F.topEnc (F.encMag .rne n m e))

/-- Array-class input (R108): a subnormal is read as zero of its sign. -/
def FFmt.decArray (F : FFmt) (x : Nat) : Val :=
  if bitsOf x F.f F.ex = 0 then .fin (bitOf x (F.f + F.ex)) 0 0 else F.decode x

/-- Overflow options of Table 5.12 and Table 3.5. -/
inductive Ovf where
  | dflt | toInf | sat | toNan
  deriving DecidableEq, Repr

/-- MOD[2:1] (Table 5.12). -/
def Ovf.ofMod : Nat → Ovf
  | 0 => .dflt
  | 1 => .toInf
  | 2 => .sat
  | _ => .toNan

/-- Vector-unit input of FP32, BF16 or FP16 under VCTL.FTZ (R111). -/
def FFmt.decVec (F : FFmt) (ftz : Bool) (x : Nat) : Val × Flags :=
  let sub := bitsOf x F.f F.ex == 0 && bitsOf x 0 F.f != 0
  if ftz && sub then (.fin (bitOf x (F.f + F.ex)) 0 0, fFlushed) else (F.decode x, 0)

/-- What an overflow is written as, with its flag (Table 3.5); E4M3 saturates by default, the others go to
infinity. -/
def FFmt.overflow (F : FFmt) (o : Ovf) (neg : Bool) : Nat × Flags :=
  if F.nanTop then
    match o with
    | .toNan => (F.nanEnc, fOverflow)
    | _ => (F.signed neg F.maxEnc, fSatur)
  else
    match o with
    | .sat => (F.signed neg F.maxEnc, fSatur)
    | _ => (F.signed neg F.topEnc, fOverflow)

/-- Vector-unit result in FP32, BF16, FP16 (gradual = true: R111 applies under ftz) or in E4M3, E5M2 (narrow:
never flushed). A value above the largest finite one is never rounded stochastically (R104). An infinite
input is kept, except into E4M3. -/
def FFmt.encVec (F : FFmt) (wide ftz : Bool) (o : Ovf) (r : Rnd) : Val → Nat × Flags
  | .nan => (F.nanEnc, 0)
  | .inf n => if F.nanTop then F.overflow o n else (F.signed n F.topEnc, 0)
  | .fin n m e =>
    if m = 0 then (F.signed n 0, 0)
    else if F.topEnc ≤ F.encMag .rne n m e then F.overflow o n
    else
      let r' := if F.maxEnc ≤ F.encFloor m e then .rne else r
      if wide && ftz && F.tiny r' n m e then (F.signed n 0, fFlushed)
      else
        let k := F.encMag r' n m e
        (F.signed n k, if k = 0 then fUnder else 0)

/-- Format codes of Table 3.1 that are plain binary floating point, MX element layouts included. -/
def fmtOf : Nat → Option FFmt
  | 0x0 => some fp32F
  | 0x1 => some bf16F
  | 0x2 => some fp16F
  | 0x3 => some e4m3F
  | 0x4 => some e5m2F
  | 0x5 => some e4m3F
  | 0x6 => some e5m2F
  | 0x7 => some e3m2F
  | 0x8 => some e2m3F
  | 0x9 => some e2m1F
  | 0xF => some e48F
  | _ => none

/-- Element bits of a format code (Table 3.1). -/
def elemBits : Nat → Nat
  | 0x0 => 32
  | 0x1 => 16
  | 0x2 => 16
  | 0x7 => 6
  | 0x8 => 6
  | 0x9 => 4
  | 0xB => 4
  | 0xD => 16
  | 0xE => 32
  | 0xF => 48
  | _ => 8

/-- A code whose block carries an E8M0 scale. -/
def isMX (c : Nat) : Bool := (decide (5 ≤ c) && decide (c ≤ 9)) || c == 0xC

/-- A block format of Table 3.1 (MX, G16, FX32). -/
def isBlock (c : Nat) : Bool := isMX c || c == 0xD || c == 0xE

/-- An array operand code (R58). -/
def isArrayCode (c : Nat) : Bool := decide (1 ≤ c) && decide (c ≤ 0xC)

/-- Decode an element whose block scale byte is sc (ignored for unscaled codes): R91, R93 to R95. -/
def decodeElem (c x sc : Nat) : Val :=
  if isMX c ∧ sc = 0xFF then .nan
  else
    let k : Int := if isMX c then (sc : Int) - 127 else 0
    if c = 0xA then let i := toIntW 8 x; .fin (decide (i < 0)) i.natAbs 0
    else if c = 0xB then let i := toIntW 4 x; .fin (decide (i < 0)) i.natAbs 0
    else if c = 0xC then let i := toIntW 8 x; .fin (decide (i < 0)) i.natAbs (k - 6)
    else if c = 0xD then
      (if sc = 0xFF then .nan else let i := toIntW 16 x; .fin (decide (i < 0)) i.natAbs ((sc : Int) - 142))
    else if c = 0xE then
      let i := toIntW 32 x
      .fin (decide (i < 0)) i.natAbs ((sc : Int) - 142)
    else
      match fmtOf c with
      | some F => if isMX c then (F.decode x).scale k else F.decode x
      | none => .nan

/-- Array form of an operand element (R73, Table 2.6): 16-bit subnormals flushed on input, narrow elements
decoded exactly. -/
def arrayElem (c x sc : Nat) : Val :=
  if c = 1 then bf16F.decArray x
  else if c = 2 then fp16F.decArray x
  else decodeElem c x sc

/-- Round a value to a signed integer, to nearest even. -/
def roundInt (n : Bool) (m : Nat) (e : Int) (r : Rnd) : Int := signedM n (r.shift n m (-e))

/-- Conversion to a w-bit integer (INT8, INT4: R93). Stochastic rounding applies down to -2^(w-1), the smallest value: one between it and
-(2^(w-1) - 1) is not beyond the largest magnitude (DESIGN CHOICE on R104: log entry 90). -/
def toIntElem (w : Nat) (r : Rnd) : Val → Nat × Flags
  | .nan => (0, fInvalid)
  | .inf n => (if n then 2 ^ (w - 1) else 2 ^ (w - 1) - 1, fSatur)
  | .fin n m e =>
    let lim : Int := (2 ^ (w - 1) : Nat)
    let rn := roundInt n m e .rne
    let exceeds := decide (lim - 1 < rn) || decide (rn < -lim)
    -- a value beyond the largest is not rounded stochastically (R104)
    let beyond := (Val.lt (.fin false (2 ^ (w - 1) - 1) 0) (.fin n m e)) || (Val.lt (.fin n m e) (.fin true (2 ^ (w - 1)) 0))
    let i := if beyond then rn else roundInt n m e r
    if exceeds then (ofIntW w (if n then -lim else lim - 1), fSatur) else (ofIntW w i, 0)

/-- emax by element format (Table 3.4). -/
def emaxOf : Nat → Int
  | 0x5 => 8
  | 0x6 => 15
  | 0x7 => 4
  | 0x8 => 2
  | 0x9 => 2
  | _ => 0

/-- floor(log2 |x|) of a finite non-zero value. -/
def floorLog : Val → Int
  | .fin _ m e => (ilog2 m : Int) + e
  | _ => 0

/-- The larger magnitude. -/
def maxAbs (a b : Val) : Val := if Val.lt a.abs b.abs then b.abs else a.abs

/-- One element of an MX block before scale: rounding as asked, clamped to the largest finite element (R96).
MXINT8 saturates to ±127 (R95). -/
def mxElem (c : Nat) (r : Rnd) (x : Val) : Nat :=
  match x with
  | .fin n m e =>
    if c = 0xC then
      let i := roundInt n m (e + 6) r
      ofIntW 8 (max (-127) (min 127 i))
    else
      match fmtOf c with
      | some F =>
        if m = 0 then F.signed n 0
        else
          -- above the largest finite element the conversion is to nearest even (R104), then clamped
          let r' := if F.maxEnc ≤ F.encFloor m e then .rne else r
          F.signed n (min F.maxEnc (F.encMag r' n m e))
      | none => 0
  | _ => 0

/-- Result of encoding one MX block (R96 to R98). -/
structure MXBlock where
  sc : Nat
  elems : List Nat
  flags : Flags
  flushes : Nat
  deriving DecidableEq, Repr

/-- The encoded element is a zero of either sign. -/
def mxIsZero (c x : Nat) : Bool :=
  if c = 0xC then x == 0
  else match fmtOf c with
    | some F => x % 2 ^ (F.f + F.ex) == 0
    | none => true

/-- Encode 32 values into an MX block (R96); rs gives each element's rounding. -/
def encodeMX (c : Nat) (xs : List Val) (rs : List Rnd) : MXBlock :=
  if xs.any Val.nonFinite then ⟨0xFF, xs.map fun _ => 0, fNonfin, 0⟩
  else
    let amax := xs.foldl maxAbs Val.zero
    if amax.isZero then
      ⟨0, xs.map fun x => if c = 0xC then 0 else match fmtOf c with
        | some F => F.signed x.neg 0
        | none => 0, 0, 0⟩
    else
      let X0 := floorLog amax - emaxOf c
      let X := min (max X0 (-127)) 127
      let clamped := decide (X0 < -127)
      let es := (xs.zip (rs ++ List.replicate 32 .rne)).map fun p => (p.1, mxElem c p.2 (p.1.scale (-X)))
      let lost := (es.filter fun p => !p.1.isZero && mxIsZero c p.2).length
      ⟨(X + 127).toNat, es.map (·.2), if clamped && decide (0 < lost) then fUnder else 0, if clamped then 0 else lost⟩

/-- Result of a G16 block encode or of an exit from FX32 (R100, R101). -/
structure G16Block where
  ex : Nat
  elems : List Nat
  flags : Flags
  deriving DecidableEq, Repr

/-- The mantissas of R100 at exponent E. -/
def g16Mants (E : Int) (xs : List Val) : List Int :=
  xs.map fun x => match x with
    | .fin n m e => roundInt n m (e + 142 - E) .rne
    | _ => 0

/-- Encode 32 values into G16 (R100). Rounding can carry at most once, so the loop body runs at most twice. -/
def encodeG16 (xs : List Val) : G16Block :=
  if xs.any Val.nonFinite then ⟨0xFF, xs.map fun _ => 0, fNonfin⟩
  else
    let amax := xs.foldl maxAbs Val.zero
    if amax.isZero then ⟨0, xs.map fun _ => 0, 0⟩
    else
      let E0 := max (floorLog amax + 128) 0
      let ms0 := g16Mants E0 xs
      let E := if ms0.all fun i => decide (i.natAbs ≤ 32767) then E0 else E0 + 1
      if E0 > 254 ∨ E > 254 then ⟨0xFF, xs.map fun _ => 0, fOverflow⟩
      else
        let ms := g16Mants E xs
        let under := (xs.zip ms).any fun p => !p.1.isZero && p.2 == 0
        ⟨E.toNat, ms.map (ofIntW 16), if under then fUnder else 0⟩

/-- Saturate to ±(2³¹ − 1) outside the 32-bit range; −2³¹ itself stands (R101). -/
def satFX (i : Int) : Int × Bool :=
  if i > 2147483647 then (2147483647, true)
  else if i < -2147483648 then (-2147483647, true)
  else (i, false)

/-- G16 mantissas at exponent Ei entering FX32 at E (R101, R138). -/
def g16ToFX (Ei E : Nat) (ms : List Nat) : List Nat × Flags :=
  if Ei = 0xFF then (ms.map fun _ => 0, fNonfin)
  else
    let rs := ms.map fun m =>
      let i := toIntW 16 m
      satFX (roundInt (decide (i < 0)) i.natAbs ((Ei : Int) - E) .rne)
    (rs.map fun r => ofIntW 32 r.1, if rs.any (·.2) then fSatur else 0)

/-- FX32 integers at exponent E leaving to G16 (R101, R138). With E' above 254 the exponent is 0xFF and the mantissas, which R101 leaves
open, are written as zeros (DESIGN CHOICE: log entry 90). -/
def fxToG16 (E : Nat) (ns : List Nat) : G16Block :=
  let is := ns.map (toIntW 32)
  let M := is.foldl (fun a i => max a i.natAbs) 0
  if M = 0 then ⟨0, ns.map fun _ => 0, 0⟩
  else
    let k0 := bitLen M - 15
    let cut := fun (k : Nat) => is.map fun i => roundInt (decide (i < 0)) i.natAbs (-(k : Int)) .rne
    let k := if (cut k0).all fun i => decide (i.natAbs ≤ 32767) then k0 else k0 + 1
    if E + k > 254 then ⟨0xFF, ns.map fun _ => 0, fOverflow⟩
    else ⟨E + k, (cut k).map (ofIntW 16), 0⟩

/-- FP32 values entering FX32 at exponent E (R101); flags are those of the whole list. -/
def valToFX (E : Nat) (x : Val) : Nat × Flags :=
  match x with
  | .fin n m e =>
    let r := satFX (roundInt n m (e + 142 - E) .rne)
    (ofIntW 32 r.1, (if r.2 then fSatur else 0) ||| (if m ≠ 0 ∧ r.1 = 0 then fUnder else 0))
  | _ => (0, fNonfin)

/-- A G8 block built by the bindery (R99): held MXINT8 part and residual part. -/
structure G8Block where
  sc : Nat
  held : List Nat
  rsc : Nat
  res : List Nat
  flags : Flags
  flushes : Nat
  deriving DecidableEq, Repr

/-- Encode 32 values into G8 (R99). -/
def encodeG8 (xs : List Val) : G8Block :=
  let b := encodeMX 0xC xs []
  let T := if b.sc = 0xFF then 0xFF else b.sc - 7
  let rs := (xs.zip b.elems).map fun p =>
    if b.sc = 0xFF then 0
    else
      match Val.add p.1 (decodeElem 0xC p.2 b.sc).negate with
      | .fin n m e => ofIntW 8 (max (-127) (min 127 (roundInt n m (e + 6 + 127 - T) .rne)))
      | _ => 0
  ⟨b.sc, b.elems, T, rs, b.flags, b.flushes⟩

/-- A residual element's value (R99). -/
def residual (r T : Nat) : Val :=
  if T = 0xFF then .nan
  else let i := toIntW 8 r; .fin (decide (i < 0)) i.natAbs ((T : Int) - 133)

/-- The E48 image of an FP32 word, exact (R102, R134): a subnormal is read as zero. -/
def fp32ToE48 (x : Nat) : Nat := e48F.encArray (fp32F.decArray x)

/-- A sum rounded once to E48 (R102, R132). -/
def e48Add (a b : Val) : Nat := e48F.encArray (Val.add a b)

/-- The FP32 word ACC.ROUND writes (R102, R128). -/
def e48ToFp32 (x : Nat) : Nat := fp32F.encArray (e48F.decArray x)

/-- One step of the array's column sum (R105): rounded to FP32, array class. -/
def fp32AddArray (a b : Val) : Val := fp32F.decode (fp32F.encArray (Val.add a b))

/-- Bytes of a panel lane (Table 2.5). -/
def laneBytes (c : Nat) : Nat := if c = 1 ∨ c = 2 then 2 else 1

end Sys2Proof.Machine
end

