-- ==== Sys2Proof/Machine/SMap.lean ====
section
/-! DEFINITION. A sparse map kept in one canonical form: keys strictly rising, and no entry equal to what an
unlisted key reads as. Every memory, register file and table of the model is one of these, so that equal
contents are equal data. -/

namespace Sys2Proof.Machine

/-- A sparse map from natural-number keys: a plain list of key and value pairs. -/
abbrev SMap (α : Type) := List (Nat × α)

/-- The value at key k; d says what an unlisted key reads as. -/
def SMap.get {α : Type} (d : Nat → α) : SMap α → Nat → α
  | [], k => d k
  | (k', v) :: m, k => if k = k' then v else SMap.get d m k

/-- Remove the entry of key k. -/
def SMap.del {α : Type} (m : SMap α) (k : Nat) : SMap α := m.filter fun p => p.1 != k

/-- Put an entry in key order into a list that holds none of that key. -/
def SMap.ins {α : Type} (k : Nat) (v : α) : SMap α → SMap α
  | [] => [(k, v)]
  | (k', v') :: m => if k < k' then (k, v) :: (k', v') :: m else (k', v') :: SMap.ins k v m

/-- Write key k: writing what an unlisted key reads as removes the entry. -/
def SMap.set {α : Type} [DecidableEq α] (d : Nat → α) (m : SMap α) (k : Nat) (v : α) : SMap α :=
  if v = d k then SMap.del m k else SMap.ins k v (SMap.del m k)

/-- Keep only the entries whose key satisfies p. -/
def SMap.keep {α : Type} (p : Nat → Bool) (m : SMap α) : SMap α := m.filter fun e => p e.1

/-- Write consecutive keys from k. -/
def SMap.setList {α : Type} [DecidableEq α] (d : Nat → α) : SMap α → Nat → List α → SMap α
  | m, _, [] => m
  | m, k, v :: vs => SMap.setList d (SMap.set d m k v) (k + 1) vs

/-- Of two maps, new at the keys that p picks and old at the others. -/
def SMap.mix {α : Type} [DecidableEq α] (d : Nat → α) (p : Nat → Bool) (old new : SMap α) : SMap α :=
  ((new ++ old).map (·.1)).foldl (fun m k => if p k then SMap.set d m k (SMap.get d new k) else m) old

/-- Read n consecutive keys from k. -/
def SMap.getList {α : Type} (d : Nat → α) (m : SMap α) (k n : Nat) : List α :=
  (List.range n).map fun i => SMap.get d m (k + i)

/-- Keys rise strictly from a lower bound, and no entry equals the unlisted value. -/
def SMap.okFrom {α : Type} [DecidableEq α] (d : Nat → α) : Nat → SMap α → Bool
  | _, [] => true
  | lo, (k, v) :: m => decide (lo ≤ k) && decide (v ≠ d k) && SMap.okFrom d (k + 1) m

/-- The canonical form. -/
def SMap.wf {α : Type} [DecidableEq α] (d : Nat → α) (m : SMap α) : Bool := SMap.okFrom d 0 m

end Sys2Proof.Machine
end

