-- ==== Sys2Proof/Machine/Units.lean ====
section
/-! DEFINITION. The state of each unit of the device, as plain data: halves and their arbitration, tiles, stacks and
engines, ports, the image, contexts. State.lean puts them together. -/

namespace Sys2Proof.Machine

/-! ## Halves and start-up (chapters 1 and 16) -/

/-- A half's arbitrated role (R43). -/
inductive Role where
  | arbitrating | primary | secondary | hold
  deriving DecidableEq, Repr

/-- Where a half's MGC stands in the attempt in progress (R40). -/
inductive ArbPhase where
  /-- no attempt is in progress, or this half's part of it has ended -/
  | idle
  /-- Half 0 converts the strap -/
  | converting
  /-- Half 1 waits for STRAP -/
  | waitStrap
  /-- Half 0 waits for STRAP's acknowledgement -/
  | waitAck
  /-- the claim wire is driven and CLAIM is sent -/
  | claimed
  /-- the verdict is sent -/
  | judged
  /-- the intending half waits for ACK -/
  | committing
  /-- the other half waits for COMMIT -/
  | waitCommit
  deriving DecidableEq, Repr

/-- A management-channel message of an attempt or of hold (R40, R42). -/
inductive Mgmt where
  | strap (value : Option Nat)
  | strapAck
  | claim (intends : Bool)
  | verdict (ok : Bool)
  | commit
  | ack
  | abort
  | hold
  deriving DecidableEq, Repr

/-- One half's MGC. -/
structure Half where
  role : Role
  phase : ArbPhase
  intent : Bool
  /-- the claim wire this half drives -/
  wire : Bool
  /-- the other half's CLAIM message, once received -/
  peerClaim : Option Bool
  /-- this half's verdict, once reached -/
  verdict : Option Bool
  /-- the other half's verdict, once received -/
  peerVerdict : Option Bool
  /-- the level this half sampled on the other's claim wire -/
  sampled : Option Bool
  /-- first cause this half found in the attempt; 0 none (R41) -/
  cause : Nat
  /-- COMMIT resends made (R42) -/
  resends : Nat
  deriving DecidableEq, Repr

/-- Steps of the start-up of R502. -/
inductive BootStep where
  /-- a reset source holds the device in reset -/
  | inReset
  /-- released; fuses read; MGCs still in reset -/
  | released
  /-- the MGCs have left reset; arbitration runs -/
  | arbitrating
  /-- both halves are in arbitration hold, until power is cycled (R45, R47) -/
  | hold
  /-- the primary reads the image -/
  | reading
  /-- the image (or the defaults) was accepted and waits to be applied -/
  | accepted
  /-- stacks initialise and tiles are marked -/
  | applying
  /-- the image is applied -/
  | up
  deriving DecidableEq, Repr

/-! ## The configuration image (chapter 16) -/

/-- A partition as the image defines it (Table 16.5). -/
structure PartCfg where
  scn : Nat
  depth : Nat
  quantum : Nat
  /-- the blocks, in ascending order -/
  blocks : List Nat
  /-- stack ranges: base, length -/
  stkr : List (Nat × Nat)
  /-- rank ranges: first, last -/
  rankr : List (Nat × Nat)
  deriving DecidableEq, Repr

/-- A context as the image defines it (Tables 15.3 and 16.6). -/
structure CtxCfg where
  part : Option Nat
  fw : Bool
  training : Bool
  implicit : Bool
  ftz : Bool
  spill : Nat
  saveMask : Nat
  waitTo : Nat
  saveOff : Nat
  stile : Option Nat
  sidx : Nat
  sprog : Nat
  groups : List Nat
  streams : List Nat
  deriving DecidableEq, Repr

/-- A Miltum port as the image sets it (Table 16.7). -/
structure MPortCfg where
  en : Bool
  chan : Nat
  asym : Int
  rwin : Nat
  rthr : Nat
  deriving DecidableEq, Repr

/-- A far port as the image sets it (Table 16.7). -/
structure FPortCfg where
  en : Bool
  ifc : Nat
  hop : Nat
  mtu : Nat
  udp : Nat
  dscp : Nat
  vlan : Nat
  vid : Nat
  mac : Nat
  ip : Nat
  deriving DecidableEq, Repr

/-- A register field write of the image (R488). -/
structure FieldSet where
  addr : Nat
  lo : Nat
  w : Nat
  v : Nat
  deriving DecidableEq, Repr

/-- The static configuration: what the image, or the factory defaults, set. -/
structure Image where
  ver : Nat
  seq : Nat
  parts : SMap PartCfg
  ctxs : SMap CtxCfg
  /-- program slots, keyed by stack × 64 + slot: the 64-byte record -/
  slots : SMap (List Nat)
  /-- engine owners, keyed by stack × 8 + engine: partition 0 to 63, 0xFE firmware -/
  engines : SMap Nat
  /-- channels the image maps out, by stack -/
  mapouts : SMap Nat
  /-- role (true reference), interval µs, lock count, missed count, slew ppm -/
  timeRef : Bool
  timeInterval : Nat
  lockN : Nat
  missN : Nat
  slew : Nat
  mports : SMap MPortCfg
  fports : SMap FPortCfg
  /-- key blobs by slot -/
  keys : SMap (List Nat)
  fields : List FieldSet
  /-- TABLE writes: address, bytes -/
  tables : List (Nat × List Nat)
  /-- parameters by identifier (Table 16.8) -/
  params : SMap Nat
  /-- values replaced by their defaults: record index, byte offset (R491) -/
  subst : List (Nat × Nat)
  deriving DecidableEq, Repr

/-! ## Tiles (chapters 2 to 6 and 10) -/

/-- A loop counter (Table 5.1). -/
structure LoopC where
  count : BitVec 32
  start : BitVec 13
  stop : BitVec 13
  active : Bool
  deriving DecidableEq, Repr

/-- A byte range of the tile's own window. -/
structure Rng where
  lo : Nat
  len : Nat
  deriving DecidableEq, Repr

/-- What a SYNC instruction that has not completed waits for (R178). -/
inductive Wait where
  | fenceG
  | fenceI
  | tok (k n : Nat)
  | time (T : Nat)
  | unit (mask : Nat)
  deriving DecidableEq, Repr

/-- An outstanding wait and the index of the instruction that waits. -/
structure WaitRec where
  what : Wait
  idx : Nat
  deriving DecidableEq, Repr

/-- What an instruction held at issue under the wait timeout waits for (R174, R272, R306). -/
inductive HoldWhy where
  /-- one of these registers, which a SIG, MBX, TOK.RD or DISP.CNT operation will write -/
  | regs (rs : List Nat)
  /-- a place among the 16 collectives of the device -/
  | colls
  /-- a read tag -/
  | tag
  deriving DecidableEq, Repr

/-- An instruction held at issue: its index, and what it waits for. -/
structure HoldRec where
  idx : Nat
  why : HoldWhy
  deriving DecidableEq, Repr

/-- A trap found: issuing has stopped and issued work drains before TRAPPED is entered (R184). -/
structure TrapRec where
  cause : Nat
  impr : Bool
  idx : Nat
  code : Nat
  /-- the index TSQSTAT.PC keeps -/
  pc : Nat
  deriving DecidableEq, Repr

/-- A fused prefix that waits for the next instruction (R181): 0 CIRC, 1 DISP, and the offset of its descriptor. -/
structure FusePfx where
  kind : Nat
  off : Nat
  deriving DecidableEq, Repr

/-- A block in the cells of one unit (R55, R56, R65): element bits and E8M0 byte of every cell, row k first. -/
structure Stat where
  /-- code of the product that loaded it -/
  fw : Nat
  /-- INT4 × INT8 form -/
  mixed : Bool
  cells : List (Nat × Nat)
  poisoned : Bool
  deriving DecidableEq, Repr

/-- A product in flight on a unit (R53, R162). -/
structure Product where
  idx : Nat
  fa : Nat
  fw : Nat
  pBase : Nat
  wBase : Nat
  xBase : Nat
  acc : Nat
  c : Nat
  q : Nat
  qm : Bool
  ow : Bool
  ta : Bool
  tw : Bool
  ru : Bool
  fo : Bool
  m : Nat
  v : Nat
  /-- result rows already written -/
  rows : Nat
  /-- its stationary block has been loaded into the shadow, or is reused -/
  loaded : Bool
  /-- its block has been swapped into the cells -/
  swapped : Bool
  /-- a folio it needs failed its check (R74) -/
  failed : Bool
  /-- a folio it needs read poisoned (R328) -/
  fpois : Bool
  rd : List Rng
  wr : List Rng
  /-- fused dispatch descriptor bytes, when prefixed by FUSE.DISP -/
  fuse : Option (List Nat)
  deriving DecidableEq, Repr

/-- A vector instruction as captured at issue. -/
structure VecJob where
  op : Nat
  idx : Nat
  fi : Nat
  fo : Nat
  aA : Nat
  aB : Nat
  aC : Nat
  aD : Nat
  n : Nat
  bcast : BitVec 64
  gen : BitVec 64
  md : Nat
  bsc : Bool
  skw : Bool
  skq : Bool
  skn : Bool
  ftz : Bool
  /-- TRNGSTEP and GSEED in force at issue (R425) -/
  step : Nat
  seed : BitVec 64
  rd : List Rng
  wr : List Rng
  /-- fused descriptor: kind (0 CIRC, 1 DISP) and bytes -/
  fuse : Option (Nat × List Nat)
  deriving DecidableEq, Repr

/-- Work queued on the vector datapath, in order (R126). -/
inductive VJob where
  | vec (j : VecJob)
  /-- a spill pass: (tile, half) pairs, tiles ascending (R124) -/
  | spill (what : List (Nat × Nat))
  | round (tile : Nat)
  /-- chain-add: accumulator tile, SRC, SPAN, incoming, local, output, token, instruction index, token taken -/
  | chain (tile src span inc loc out tok idx : Nat) (taken : Bool)
  deriving DecidableEq, Repr

/-- A stream-mover descriptor outstanding (R172, R173). -/
structure Xfer where
  /-- the 32 descriptor bytes -/
  desc : List Nat
  tok : Nat
  /-- the descriptor was found invalid when it was read (status DESC) -/
  bad : Bool
  /-- source pieces not yet requested from another device: address, length -/
  todo : List (Nat × Nat)
  /-- identifiers of the remote reads that fetch its source, in order -/
  reads : List Nat
  /-- WRITE packets to another device were sent; those not yet acknowledged -/
  sent : Bool
  acks : List Nat
  /-- status met so far -/
  st : Nat
  rd : List Rng
  wr : List Rng
  deriving DecidableEq, Repr

/-- A scalar load issued and not yet returned (R160, R543). -/
structure LoadOp where
  sd : Nat
  addr : Nat
  width : Nat
  signed : Bool
  idx : Nat
  /-- the remote read that serves it -/
  rid : Option Nat
  /-- bytes of the tile's own window, read at issue (R185) -/
  got : Option (List (Nat × Bool))
  deriving DecidableEq, Repr

/-- A mailbox operation in flight (R179): 0 ST, 1 LD, 2 FADD, 3 CAS. -/
structure MbxOp where
  op : Nat
  addr : Nat
  sd : Nat
  sv : BitVec 64
  cv : BitVec 64
  idx : Nat
  /-- a bad address found at issue: the imprecise address trap follows (R180) -/
  bad : Bool
  /-- the request to another device that performs it: a read, or for ST a write -/
  rid : Option Nat
  deriving DecidableEq, Repr

/-- A signal-plane operation of this tile in flight (R179, R285). -/
structure SigOp where
  gid : Nat
  bar : Bool
  opk : Nat
  w64 : Bool
  sd : Nat
  idx : Nat
  deriving DecidableEq, Repr

/-- A folio held expanded by the operand port (R332). -/
structure ExBuf where
  off : Nat
  len : Nat
  plain : List Nat
  deriving DecidableEq, Repr

/-- A stream-cache line (R205, R208): stack address and its 2,048 bytes as code words; due marks a line filled for a read that has
not come yet, which was the miss and is no hit. -/
structure CLine where
  addr : Nat
  bytes : List Code13
  due : Bool
  deriving DecidableEq, Repr

/-- A prefetch stream (R207): last missed line and stride in lines, 0 when not set. -/
structure PStream where
  last : Nat
  stride : Int
  /-- a miss has confirmed the stride -/
  conf : Bool
  deriving DecidableEq, Repr

/-- A dispatch instruction in progress (R182, R340): stream, row source, index source, rows, k, next row. -/
structure DispJob where
  op : Nat
  q : Nat
  rowBase : Nat
  idxBase : Nat
  n : Nat
  k : Nat
  next : Nat
  rd : List Rng
  deriving DecidableEq, Repr

/-- One tile: the sequencer's state of Table 5.1 (PC, state, tokens and mailboxes are in the register file), the bank
as code words, the accumulator file, and everything in flight on its units. -/
structure Tile where
  s : SMap (BitVec 64)
  a : SMap (BitVec 64)
  p : BitVec 8
  /-- loop counters 0 to 3 -/
  lc : SMap LoopC
  bank : SMap (Option Code13)
  /-- instruction words written over since the last FENCE.I, which a fetch may still return (R151): index, and the word, none when
  it was poisoned or never written -/
  olds : List (Nat × Option Nat)
  /-- accumulator words by word index: 32 data bits and the parity bit above them (R76) -/
  acc : SMap (BitVec 33)
  /-- row poison bits, by a × 32 + r -/
  accPois : SMap Bool
  marking : Bool
  wait : Option WaitRec
  /-- an instruction held under the wait timeout (R174) -/
  held : Option HoldRec
  trap : Option TrapRec
  fuse : Option FusePfx
  loads : List LoadOp
  /-- scalar stores to places of this device outside the own window, posted and not yet performed (R186): device address, bytes -/
  posted : List (Nat × List Nat)
  mbx : Option MbxOp
  sig : Option SigOp
  prods : List Product
  /-- the blocks in the cells and in the shadow register, by unit -/
  act : SMap (Option Stat)
  shadow : SMap (Option Stat)
  vq : List VJob
  xfers : List Xfer
  exb : List ExBuf
  lines : List CLine
  pf : List PStream
  disp : List DispJob
  deriving DecidableEq, Repr

/-- Sequencer state right after a tile reset (R145); the bank holds only unwritten markers (R202), the accumulators are
zero and unpoisoned (R77). -/
def Tile.reset : Tile :=
  { s := [], a := [], p := 1, lc := [], bank := [], olds := [], acc := [], accPois := [],
    marking := false, wait := none, held := none, trap := none, fuse := none, loads := [], posted := [], mbx := none, sig := none, prods := [],
    act := [], shadow := [], vq := [], xfers := [], exb := [], lines := [],
    pf := [], disp := [] }

/-! ## Error log (chapter 6) -/

/-- A unit's report to the error log (R213, R214). -/
structure Report where
  half : Nat
  typ : Nat
  sev : Nat
  src : Nat
  addr : Nat
  detail : Nat
  time : Nat
  deriving DecidableEq, Repr

/-! ## Stacks and bindery (chapter 7) -/

/-- A descriptor an engine holds. -/
structure Desc where
  bytes : List Nat
  poisoned : Bool
  /-- ring index it was fetched from -/
  idx : Nat
  deriving DecidableEq, Repr

/-- Where an engine's descriptor stands (R240, R544). -/
inductive EStage where
  | idle
  | waitSem
  | running
  /-- ended with a status and detail; the completion record is not yet written -/
  | ended (status detail : Nat)
  deriving DecidableEq, Repr

/-- One bindery engine beside its registers. -/
structure Engine where
  stage : EStage
  desc : Option Desc
  /-- chunks of the program done -/
  chunk : Nat
  /-- found so far: poison read, write to a failed channel -/
  pois : Bool
  media : Bool
  /-- ABORT covers descriptors up to this producer index (R242) -/
  abortTo : Option Nat
  /-- extra state of a program: fragment counter, counters carried between chunks -/
  aux : List Nat
  /-- TBTIME at step 1 of R240 -/
  tend : Nat
  /-- the context whose PI write covers the descriptor, and those of later writes: PI, context (R470) -/
  ctx : Nat
  whose : List (Nat × Nat)
  deriving DecidableEq, Repr

/-- An engine at rest. -/
def Engine.reset : Engine := ⟨.idle, none, 0, false, false, none, [], 0, 0, []⟩

/-- One stack beside its registers. -/
structure Stack where
  /-- an initialisation is running -/
  initing : Bool
  /-- a write of SCTL.TEST = 1 waits (R231) -/
  testReq : Bool
  /-- times of the latest uncorrectable reads, newest first, by channel (R230) -/
  ue : SMap (List Nat)
  /-- channels whose interface lost training and has not yet retrained (R230) -/
  lost : List Nat
  /-- waiting engines in the order they began to wait (R239) -/
  semq : List Nat
  /-- fused map-out record: bit c, channel c (R229, R232) -/
  mapFuse : Nat
  /-- staged and fused repairs: channel, failing address, true for a row and false for a column (R232) -/
  staged : List (Nat × Nat × Bool)
  repaired : List (Nat × Nat × Bool)
  /-- wrapper instruction register and boundary register -/
  wir : Nat
  wbr : Nat
  /-- channels named by the running array test, its failing channels and the first failing address -/
  mbrun : Option Nat
  mbres : Nat
  mbaddr : Nat
  /-- a fuse burn in progress: the channel -/
  fusing : Option Nat
  /-- the last burn failed -/
  fuseFail : Bool
  deriving DecidableEq, Repr

/-- A stack before initialisation. -/
def Stack.reset : Stack :=
  { initing := false, testReq := false, ue := [], lost := [], semq := [], mapFuse := 0, staged := [], repaired := [], wir := 0,
    wbr := 0, mbrun := none, mbres := 0, mbaddr := 0, fusing := none, fuseFail := false }

/-- The TAP: instruction register, stack-select register, boundary register (R536). -/
structure Tap where
  ir : Nat
  sel : Nat
  bsr : Nat
  deriving DecidableEq, Repr

/-- After Test-Logic-Reset IDCODE is selected. -/
def Tap.reset : Tap := ⟨1, 0, 0⟩

/-! ## Ports and packets (chapter 8) -/

/-- A remote read outstanding or answered (R272). -/
structure FarRead where
  /-- the requester's identifier -/
  rid : Nat
  tag : Nat
  gen : Nat
  dst : Nat
  addr : Nat
  len : Nat
  /-- 0 pending, 1 answered, 2 timed out, 3 refused by the destination, 4 no route -/
  st : Nat
  cst : Nat
  bytes : List (Nat × Bool)
  /-- SRC of the requester (Table 6.7) -/
  src : Nat
  deriving DecidableEq, Repr

/-- A write sent to another device and not yet acknowledged (R267, R273). -/
structure FarWrite where
  wid : Nat
  dst : Nat
  tag : Nat
  /-- tile whose store or transfer sent it; 2,048 and above: another unit -/
  tile : Nat
  /-- 0 scalar store, 1 transfer, 2 collective, 3 dispatch, 4 other -/
  kind : Nat
  addr : Nat
  gen : Nat
  src : Nat
  deriving DecidableEq, Repr

/-- A flit whose check holds and whose reserved fields are zero: the link header's fields of Table 8.5 and the body (R259). -/
structure Flit where
  fseq : Nat
  ftype : Nat
  vc : Nat
  ackseq : Nat
  ackv : Bool
  nak : Bool
  crdd : Nat
  crdc : Nat
  crds : Nat
  body : List Nat
  deriving DecidableEq, Repr

/-- One Miltum port beside its registers. -/
structure Port where
  /-- next FSEQ to send, next FSEQ expected -/
  txSeq : Nat
  rxSeq : Nat
  /-- unacknowledged flits, oldest first, with their FSEQ -/
  unacked : List (Nat × Flit)
  /-- credits left to send with: data, control, signal -/
  crd : List Nat
  /-- credits to return: data, control, signal -/
  ret : List Nat
  /-- a NAK is outstanding (R262) -/
  nakHold : Bool
  /-- an acknowledgement is owed -/
  ackDue : Bool
  accepted : Nat
  /-- times the oldest unacknowledged FSEQ was NAKed without progress -/
  naks : Nat
  /-- HELLOACK sent, received -/
  helloSent : Bool
  ackSent : Bool
  ackRecv : Bool
  peerVer : Nat
  peerRank : Option Nat
  /-- retraining from UP with replay state kept -/
  retraining : Bool
  fails : Nat
  fallback : Bool
  replays : Nat
  warned : Bool
  /-- open packet of each VC: bytes so far, bytes wanted -/
  rx : List (List Nat × Nat)
  /-- packets received whole and not yet taken -/
  inbox : List Pkt
  /-- packets not yet sent whole for want of credits or replay room, oldest first, each with its flits to come: FTYPE, body -/
  txq : List (Pkt × List (Nat × List Nat))
  /-- consecutive flits sent while data waited (R261) -/
  starve : Nat
  /-- ELEC is over and HELLO runs, in training or retraining -/
  inHello : Bool
  /-- the partner's HELLO has come -/
  heard : Bool
  /-- lanes that training found good -/
  good : Nat
  /-- a version below the own offer has been logged, and entry to the fallback speed -/
  verLogged : Bool
  fbLogged : Bool
  /-- an unanswered timing request: SEQ and T1 in 1/16 ns -/
  treq : Option (Nat × Nat)
  deriving DecidableEq, Repr

/-- A port before its first training. -/
def Port.reset : Port :=
  { txSeq := 0, rxSeq := 0, unacked := [], crd := [0, 0, 0], ret := [0, 0, 0], nakHold := false, ackDue := false, accepted := 0,
    naks := 0, helloSent := false, ackSent := false, ackRecv := false, peerVer := 0, peerRank := none, retraining := false,
    fails := 0, fallback := false, replays := 0, warned := false, rx := [([], 0), ([], 0), ([], 0)], inbox := [], txq := [],
    starve := 0, inHello := false, heard := false, good := 0, verLogged := false, fbLogged := false, treq := none }

/-! ## The signal plane and collectives (chapter 9) -/

/-- A signal-plane operation pending at this device (R287): its form, the values of local tiles, the children's values in
arrival order, and the record of the group as it was when the operation began (R312). -/
structure SigPend where
  bar : Bool
  opk : Nat
  w64 : Bool
  vals : List (Nat × Nat)
  kids : List (Nat × Nat)
  up : Bool
  /-- the determinism setting chosen at the first local issue (R447) -/
  det : Option Bool
  /-- a PERMUTE takes part as this device (R303) -/
  by_ : Option Nat
  rec_ : List Nat
  deriving DecidableEq, Repr

/-- What the signal engines keep for a group: GEN, the pending operation, records held for later generations (source rank,
record), abandoned generations (R286, R290, R291). -/
structure SigGrp where
  gen : Nat
  pend : Option SigPend
  held : List (Nat × List Nat)
  /-- generations abandoned here, and whether a late record of theirs has been logged -/
  dead : List (Nat × Bool)
  deriving DecidableEq, Repr

/-- A group no operation has used. -/
def SigGrp.reset : SigGrp := ⟨0, none, [], []⟩

/-- A chunk of a collective at this member (R294, R296, R298). -/
structure CollChunk where
  c : Nat
  /-- this member's pre-round record has been entered -/
  entered : Bool
  /-- children's pre-round records: rank, exponent bytes, overflow -/
  kids : List (Nat × List Nat × Bool)
  sentUp : Bool
  /-- the agreed exponents A -/
  agreed : Option (List Nat)
  /-- packets that arrived before A -/
  early : List Pkt
  /-- KIND 0 packets added and passed on, or kept by the owner with their sums -/
  sums : List (Nat × List (Nat × Bool))
  /-- the owner has made and written the result -/
  exited : Bool
  /-- result packets written: kind, packet -/
  got : List (Nat × Nat)
  deriving DecidableEq, Repr

/-- A collective in flight (R293 to R308). -/
structure Coll where
  cid : Nat
  ctx : Nat
  desc : List Nat
  /-- records of GID and GIDP as they were at the start -/
  grp : List Nat
  grpP : List Nat
  fused : Bool
  /-- blocks handed over by FUSE.CIRC (R305) -/
  handed : List Nat
  chunks : List CollChunk
  /-- pieces of the result received by AGATHER and BCAST: member, 4 KiB unit -/
  got : List (Nat × Nat)
  /-- PERMUTE: 0 staging done and first barrier, 1 sending, 2 second barrier, 3 done -/
  phase : Nat
  /-- WRITE and COLL packets not yet acknowledged -/
  acks : List Nat
  /-- statuses met (R308) -/
  found : List Nat
  ovf : Bool
  sat : Nat
  tstart : Nat
  deriving DecidableEq, Repr

/-! ## Dispatch (chapter 11) -/

/-- One batch of a sender slot: rows sent and not yet acknowledged (write identifier, return word), DISP.END issued, END sent,
END packets not acknowledged, complete; copies sent; returns arrived; abandoned. -/
structure DBatch where
  b : Nat
  acks : List (Nat × Nat)
  ending : Bool
  endSent : Bool
  endAcks : List Nat
  done : Bool
  sent : Nat
  arrived : Nat
  aband : Bool
  deriving DecidableEq, Repr

/-- One sender slot of a stream: rows sent since OPEN, current batch, selections of each expert in it (R340, R341). -/
structure DSlot where
  rows : Nat
  cur : Nat
  used : SMap Nat
  batches : List DBatch
  deriving DecidableEq, Repr

/-- A sender slot at OPEN. -/
def DSlot.reset : DSlot := ⟨0, 0, [], []⟩

/-- A row in a receive queue buffer: slot, sender, token, k-slot, parts performed. -/
structure DRow where
  slot : Nat
  srank : Nat
  token : Nat
  kslot : Nat
  parts : List Nat
  deriving DecidableEq, Repr

/-- A receive queue buffer (R338, R344, R345): the batch it holds, rows, sources ended (rank, sender slot). -/
structure DBuf where
  batch : Option Nat
  rows : List DRow
  ends : List (Nat × Nat)
  closed : Bool
  ready : Bool
  aband : Bool
  deriving DecidableEq, Repr

/-- A buffer that holds nothing. -/
def DBuf.reset : DBuf := ⟨none, [], [], false, false, false⟩

/-- One stream beside its registers: the record as it was at OPEN, slots 0 to 3, buffers by expert × 2 + buffer, counts since
OPEN by expert (R351). -/
structure Stream where
  rec_ : List Nat
  slots : SMap DSlot
  bufs : SMap DBuf
  demand : SMap Nat
  sent : SMap Nat
  recv : SMap Nat
  deriving DecidableEq, Repr

/-- A stream before its first OPEN. -/
def Stream.reset : Stream := ⟨[], [], [], [], [], []⟩

/-! ## Keys (chapter 16) -/

/-- A key slot: its 32 key bytes and USE, or empty (R507, R508). -/
structure KeySlot where
  key : List Nat
  use : Nat
  deriving DecidableEq, Repr

/-! ## Far exchange (chapter 13) -/

/-- A far send descriptor submitted (Table 13.5): its bytes, its address, the context, the folio reached, its offset in the
run, the sites still owed the folio, and pages answered to a repair instead of the whole run. -/
structure FarJob where
  desc : List Nat
  addr : Nat
  ctx : Nat
  folio : Nat
  off : Nat
  /-- the folio's recipients not yet served; none before the folio is opened -/
  owed : Option (List Nat)
  deriving DecidableEq, Repr

/-- A fragment filed in a receive slot (R408): port, slot, site, round, FRAGNO, folio bytes, and the round of the manifest that
lists it. -/
structure Filed where
  port : Nat
  slot : Nat
  site : Nat
  round : Nat
  frag : Nat
  len : Nat
  listed : Option Nat
  deriving DecidableEq, Repr

/-- A catch (R415): base round, number of parts, pages of each part, pages filed. -/
structure Catch where
  base : Nat
  nparts : Nat
  pages : SMap Nat
  got : List (Nat × Nat)
  deriving DecidableEq, Repr

/-- One far port's transmit side: control frames, which go before data (R405), the token bucket in 1/8,000 byte and when it was
last brought up to date. -/
structure FarPort where
  ctl : List (List Nat)
  lvl : Option Nat
  at_ : Nat
  deriving DecidableEq, Repr

/-- A port that has sent nothing: its bucket is full. -/
def FarPort.reset : FarPort := ⟨[], none, 0⟩

/-- The far unit beside its registers. -/
structure Far where
  jobs : List FarJob
  ports : SMap FarPort
  filed : List Filed
  /-- distinct fragments seen (site, round, FRAGNO), and NFRAG of each (site, round) -/
  seen : List (Nat × Nat × Nat)
  nfrag : List (Nat × Nat × Nat)
  /-- the closed round's OWNEX and deadline -/
  ownex : Bool
  deadline : Nat
  /-- a seal is due with this cause and waits for a manifest position (R411) -/
  due : Option Nat
  /-- manifests not freed: round, and the slots they list -/
  manifests : List (Nat × List (Nat × Nat))
  /-- latest CATCH descriptor of each part for each site (R415) -/
  served : List (Nat × Nat × List Nat)
  catch_ : Option Catch
  /-- the accession: 0 none, 1 in progress, 2 complete, 3 failed -/
  accession : Nat
  /-- pages asked for by repairs: site, part, page -/
  repairs : List (Nat × Nat × Nat)
  hello : Nat
  deriving DecidableEq, Repr

/-- The far unit after a reset. -/
def Far.reset : Far :=
  { jobs := [], ports := [], filed := [], seen := [], nfrag := [], ownex := false, deadline := 0, due := none, manifests := [],
    served := [], catch_ := none, accession := 0, repairs := [], hello := 0 }

/-! ## The ledger (chapter 14) -/

/-- A ledger record's place and sorting key (R433). -/
structure LedRec where
  pos : Nat
  cls : Nat
  src : Nat
  k0 : Nat
  k1 : Nat
  deriving DecidableEq, Repr

/-- A record read from the ring in replay (R436). -/
structure LedIn where
  cls : Nat
  src : Nat
  k0 : Nat
  k1 : Nat
  data : List Nat
  deriving DecidableEq, Repr

/-! ## Host interface (chapter 15) -/

/-- A host command fetched (Table 15.5) and where it stands: 0 fetched, 1 started, 2 ended. -/
structure Cmd where
  bytes : List Nat
  /-- HQSQHEAD after it was fetched -/
  head : Nat
  stage : Nat
  status : Nat
  detail : Nat
  deriving DecidableEq, Repr

/-- A saved tile of a switched-out context (R469): sequencer state, bank, accumulators and the registers saved. -/
structure SavedTile where
  t : Nat
  tile : Tile
  regs : SMap (BitVec 64)
  deriving DecidableEq, Repr

/-- One context beside its function page. -/
structure Ctx where
  cmds : List Cmd
  /-- completion and event producer indices -/
  cqTail : Nat
  evTail : Nat
  /-- an event loss has been logged since the last HQEVHEAD write (R465) -/
  evLogged : Bool
  vfEnabled : Bool
  /-- a firmware context's start program waits for the context's first run (Table 15.3) -/
  startDue : Bool
  /-- the context has run, so its state is saved or in the tiles -/
  hasRun : Bool
  saved : List SavedTile
  /-- moderation: vectors held back until the delay ends (R471) -/
  held : List Nat
  modOn : Bool
  /-- a reset waits for the switch in progress: true for an FLR (R477) -/
  resetDue : Option Bool
  deriving DecidableEq, Repr

/-- A context never used. -/
def Ctx.reset : Ctx := ⟨[], 0, 0, false, false, false, false, [], [], false, none⟩

/-- What a device read of host memory is for: a command to fetch, or the data of the command whose HQSQHEAD was head after its
fetch (R461, R462). -/
inductive DmaUse where
  | fetch
  | data
  deriving DecidableEq, Repr

/-- A device read of host memory that has no completion yet (R451). -/
structure Dma where
  id : Nat
  ctx : Nat
  addr : Nat
  len : Nat
  use : DmaUse
  head : Nat
  deriving DecidableEq, Repr

/-! ## Site time, power and halt (chapters 1 and 17) -/

/-- The site-time follower (R35 to R37): consecutive in-tolerance exchanges, consecutive missed exchanges, its own bound in
1/16 ns, the next SEQ. -/
structure Follower where
  good : Nat
  missed : Nat
  bound : Nat
  seq : Nat
  /-- bucket classes (0 halves, 1 stacks) whose leak tick has fallen and is not yet applied (R210) -/
  leak : List Nat
  deriving DecidableEq, Repr

/-- The governor and the thermal monitor (R520 to R528): energy credit in mJ, mV taken off by throttling, whether a temperature
above the threshold still lowers the voltage, when throttling was last in force, whether THERMTRIP_N is asserted, seconds of
Peak not yet burnt are in PLIFE.SECS. -/
structure Power where
  credit : Nat
  cut : Nat
  hot : Bool
  lastThrot : Option Nat
  trip : Bool
  deriving DecidableEq, Repr

/-- The governor at reset: full credit. -/
def Power.reset : Power := ⟨200000, 0, false, none, false⟩

/-- The halt inputs (R529, R530): the last raw samples (true: low), the TBTIME at which a disagreement began, the tiles that were
RUNNING when the halt took effect, TSQCTL.RUN writes that wait (tile, start), and data packets of collective units that wait (the
port, when it is chosen already). -/
structure HaltIn where
  a : Bool
  b : Bool
  since : Option Nat
  tiles : List Nat
  runs : List (Nat × Nat)
  pkts : List (Option Nat × Pkt)
  deriving DecidableEq, Repr

/-- Both pins high. -/
def HaltIn.reset : HaltIn := ⟨false, false, none, [], [], []⟩

/-- Where a partition's switch stands (R468). -/
inductive Switch where
  | none
  | draining (next : Nat)
  | saving (next : Nat)
  | restoring (next : Nat)
  deriving DecidableEq, Repr

end Sys2Proof.Machine
end

