-- ==== Sys2Proof/Machine/State.lean ====
section
/-! DEFINITION. The device's state, whole, as plain data; the reasons a step can stop; the state right after reset. -/

namespace Sys2Proof.Machine

/-- Reasons the machine stops with a fault. The manual gives every command of the block an effect (an error is a status, a
report or a trap, after which the device goes on), so no command raises one. -/
inductive Fault where
  /-- Raised by nothing: present because the three outcomes of a step are the host's. Safe. -/
  | none
  deriving DecidableEq, Repr

/-- Reasons a command is refused. -/
inductive Refusal where
  /-- A row of the opcode table without a meaning in this model, named by its mnemonic. Raised by Dispatch.exec only.
  Safe: nothing can be proved of what the command does. -/
  | notModelled (mnemonic : String)
  deriving DecidableEq, Repr

/-- What the device sends out: packets and flits on its ports, frames on its far ports, transactions on PCIe, levels on
pins. State.sent lists them, oldest first. -/
inductive Out where
  /-- a packet handed to a Miltum port -/
  | pkt (port : Nat) (p : Pkt)
  /-- a packet that found no route (R269), or was discarded -/
  | drop (cause : Nat) (p : Pkt)
  /-- a 256-byte flit -/
  | flit (port : Nat) (bytes : List Nat)
  /-- a PCIe memory write: host address, bytes, EP bit -/
  | hostWrite (addr : Nat) (bytes : List Nat) (ep : Bool)
  /-- a PCIe read completion: bytes, EP bit -/
  | hostData (bytes : List Nat) (ep : Bool)
  /-- a Completer Abort (R456) -/
  | hostAbort
  /-- a read of host memory: identifier, host address, length -/
  | hostRead (id addr len : Nat)
  /-- an MSI-X vector of a function (R471) -/
  | msix (fn vec : Nat)
  /-- a frame on a far port -/
  | far (port : Nat) (frame : List Nat)
  /-- bits shifted out of the TAP or a stack wrapper -/
  | tdo (bits : List Nat)
  deriving DecidableEq, Repr

/-- The device. -/
structure State where
  /-- commands waiting, first in first out -/
  pending : List Instr
  /-- MODEL'S OWN: counts free values used, so that each is a fresh one; no statement rests on it -/
  fresh : Nat
  /-- nanoseconds counted since power-on: what intervals are measured by -/
  clk : Nat
  /-- identifiers handed out to remote reads and writes -/
  nextId : Nat
  /-- every register of the device map, by device address -/
  regs : SMap (BitVec 64)
  tiles : SMap Tile
  h0 : Half
  h1 : Half
  /-- management-channel messages in flight: destination half, message -/
  mgmt : List (Nat × Mgmt)
  boot : BootStep
  /-- attempt number of the arbitration in progress (R39) -/
  attempt : Nat
  /-- the strap value decoded in the attempt in progress; none: unreadable (R40) -/
  strap : Option Nat
  /-- the start-up test of the bridge has ended (R24) -/
  bridgeDone : Bool
  /-- failed attempts not yet logged: attempt, cause (type 0xA6) -/
  arbFails : List (Nat × Nat)
  /-- ALERT_N is driven low -/
  alert : Bool
  img : Image
  /-- image chosen by the read in progress: slot tried first, and whether the strap was unreadable -/
  imgSlot : Option Nat
  /-- the image, or the factory defaults, accepted and not yet applied (R486, R493) -/
  imgNext : Option Image
  /-- reset sources that hold the device in reset (R499, R511) -/
  held : List Nat
  /-- flash operation in progress: OP, address; and those that wait (R495) -/
  flashOp : Option (Nat × Nat)
  flashQ : List (Nat × Nat)
  /-- when the watchdog's count was last restarted (R504) -/
  dogAt : Nat
  tsync : Follower
  pow : Power
  /-- Peak hours burnt since manufacture (R522) -/
  hoursBurnt : Nat
  halt : HaltIn
  flash : SMap (BitVec 8)
  /-- stack bytes by device address; unlisted bytes read 0 (R228) -/
  stk : SMap (BitVec 8)
  /-- marks of 32-byte half-granules, by address / 32: 1 correctable error, 2 uncorrectable, 3 poison marker (R226) -/
  stkMark : SMap Nat
  stx : SMap Stack
  tap : Tap
  engines : SMap Engine
  ports : SMap Port
  reads : List FarRead
  writes : List FarWrite
  /-- generation of each read tag (R272), and tags quarantined -/
  tagGen : SMap Nat
  quar : List Nat
  /-- route entries rewritten and waiting for acknowledgements: rank, entry (R271) -/
  routeWait : List (Nat × Nat)
  reports : List Report
  /-- a checkpoint-hint hold-off runs (R438) -/
  hintHold : Bool
  /-- the signal engines, by group -/
  groups : SMap SigGrp
  colls : List Coll
  /-- COLL packets buffered for a CID not yet submitted (R306) -/
  collHeld : List Pkt
  /-- pre-round records for a CID not yet submitted: source rank, record -/
  collRecs : List (Nat × List Nat)
  /-- CIDs abandoned here (R307) -/
  collDead : List (Nat × Bool)
  /-- submissions waiting for one of 16 places: context, descriptor address (R306) -/
  collWait : List (Nat × Nat)
  /-- dispatch streams by QID -/
  streams : SMap Stream
  /-- DISP packets of this device to itself, in the mesh (R340) -/
  mesh : List Pkt
  /-- determinism is forced since a reset of the MGCs until the first context starts (R427) -/
  detHold : Bool
  /-- ledger records waiting for a point (R433) -/
  ledPend : List LedRec
  /-- records lost since the last GAP record (R435) -/
  ledGap : Nat
  /-- replay: ring bytes taken in, and records taken in and not yet used (R436) -/
  ledRd : Nat
  ledIn : List LedIn
  /-- replay: streams posted that wait for a PLAN record: stream, step -/
  ledWant : List (Nat × Nat)
  /-- a step decision in progress: STEP, VOTE, NSQ (R367) -/
  decision : Option (Nat × Nat × Nat)
  /-- stage-word writes that wait for a RUN to end: stack, shard, lanes, value (R392) -/
  stageWait : List (Nat × Nat × Nat × Nat)
  keys : SMap (Option KeySlot)
  /-- a key load in progress: slot, blob address (R508) -/
  keyLoad : Option (Nat × Nat)
  far : Far
  ctxs : SMap Ctx
  switches : SMap Switch
  /-- the context whose state a partition's tiles hold, by partition -/
  occup : SMap (Option Nat)
  /-- device reads of host memory outstanding -/
  dmas : List Dma
  sent : List Out
  deriving DecidableEq, Repr

/-- A half as its MGC leaves reset (R43). -/
def Half.reset : Half := ⟨.arbitrating, .idle, false, false, none, none, none, none, 0, 0⟩

/-- The configuration before an image is applied: nothing assigned. -/
def Image.empty : Image :=
  { ver := 0, seq := 0, parts := [], ctxs := [], slots := [], engines := [], mapouts := [], timeRef := false,
    timeInterval := 1000, lockN := 16, missN := 4, slew := 200, mports := [], fports := [], keys := [], fields := [],
    tables := [], params := [], subst := [] }

/-- The device right after power-on reset (R13, R502): every register at its Reset column, tiles reset and marked,
stacks uninitialised, nothing in flight. -/
def State.reset : State :=
  { pending := [], fresh := 0, clk := 0, nextId := 0, regs := [], tiles := [], h0 := Half.reset, h1 := Half.reset,
    mgmt := [], boot := .inReset, attempt := 0, strap := none, bridgeDone := false, arbFails := [], alert := false, img := Image.empty,
    imgSlot := none, imgNext := none, held := [1], flashOp := none, flashQ := [], dogAt := 0, tsync := ⟨0, 0, 0, 0, []⟩,
    pow := Power.reset, hoursBurnt := 0, halt := HaltIn.reset, flash := [], stk := [], stkMark := [], stx := [], tap := Tap.reset, engines := [], ports := [], reads := [],
    writes := [], tagGen := [], quar := [], routeWait := [], reports := [], hintHold := false, groups := [], colls := [],
    collHeld := [], collRecs := [], collDead := [], collWait := [], streams := [], mesh := [], detHold := true,
    ledPend := [], ledGap := 0, ledRd := 0, ledIn := [], ledWant := [], decision := none,
    stageWait := [], keys := [], keyLoad := none, far := Far.reset, ctxs := [], switches := [], occup := [],
    dmas := [], sent := [] }

end Sys2Proof.Machine
end

