-- ==== Sys2Proof/Machine/Regs.lean ====
section
/-! DEFINITION. The register file: reading and writing registers and fields, the byte rules of R542 and the field types of
R12 and R14, and the named accessors of tiles, stacks, engines, ports and contexts. -/

namespace Sys2Proof.Machine

/-! ## Registers and fields -/

/-- The stored value of the register at an 8-byte aligned device address. -/
def State.reg (s : State) (a : Nat) : BitVec 64 := SMap.get regReset s.regs a

/-- Store a register whole. -/
def State.setReg (s : State) (a : Nat) (v : BitVec 64) : State := { s with regs := SMap.set regReset s.regs a v }

/-- The value of a field. -/
def State.fld (s : State) (f : Fld) : Nat := bitsOf (s.reg f.addr).toNat f.lo f.w

/-- Store a field; the register's other bits stay. -/
def State.setFld (s : State) (f : Fld) (v : Nat) : State :=
  s.setReg f.addr (BitVec.ofNat 64 (putBits (s.reg f.addr).toNat f.lo f.w v))

/-- A one-bit field as a Boolean. -/
def State.flag (s : State) (f : Fld) : Bool := s.fld f != 0

/-- Add to a counter field, saturating at its largest value. -/
def State.bump (s : State) (f : Fld) (n : Nat) : State := s.setFld f (satAdd (2 ^ f.w - 1) (s.fld f) n)

/-- Set bits of a field (sticky flags). -/
def State.orFld (s : State) (f : Fld) (v : Nat) : State := s.setFld f (s.fld f ||| v)

/-! ## Units -/

/-- Tile t. -/
def State.tile (s : State) (t : Nat) : Tile := SMap.get (fun _ => Tile.reset) s.tiles t
/-- Replace tile t. -/
def State.setTile (s : State) (t : Nat) (x : Tile) : State := { s with tiles := SMap.set (fun _ => Tile.reset) s.tiles t x }
/-- Change tile t. -/
def State.modTile (s : State) (t : Nat) (f : Tile → Tile) : State := s.setTile t (f (s.tile t))
/-- Stack st. -/
def State.stackU (s : State) (st : Nat) : Stack := SMap.get (fun _ => Stack.reset) s.stx st
/-- Change stack st. -/
def State.modStack (s : State) (st : Nat) (f : Stack → Stack) : State :=
  { s with stx := SMap.set (fun _ => Stack.reset) s.stx st (f (s.stackU st)) }
/-- Engine e of stack st. -/
def State.engine (s : State) (st e : Nat) : Engine := SMap.get (fun _ => Engine.reset) s.engines (st * 8 + e)
/-- Change engine e of stack st. -/
def State.modEngine (s : State) (st e : Nat) (f : Engine → Engine) : State :=
  { s with engines := SMap.set (fun _ => Engine.reset) s.engines (st * 8 + e) (f (s.engine st e)) }
/-- Miltum port p. -/
def State.port (s : State) (p : Nat) : Port := SMap.get (fun _ => Port.reset) s.ports p
/-- Change port p. -/
def State.modPort (s : State) (p : Nat) (f : Port → Port) : State :=
  { s with ports := SMap.set (fun _ => Port.reset) s.ports p (f (s.port p)) }
/-- Context c. -/
def State.ctx (s : State) (c : Nat) : Ctx := SMap.get (fun _ => Ctx.reset) s.ctxs c
/-- Dispatch stream q. -/
def State.stream (s : State) (q : Nat) : Stream := SMap.get (fun _ => Stream.reset) s.streams q
/-- Change dispatch stream q. -/
def State.modStream (s : State) (q : Nat) (f : Stream → Stream) : State :=
  { s with streams := SMap.set (fun _ => Stream.reset) s.streams q (f (s.stream q)) }
/-- Change context c. -/
def State.modCtx (s : State) (c : Nat) (f : Ctx → Ctx) : State :=
  { s with ctxs := SMap.set (fun _ => Ctx.reset) s.ctxs c (f (s.ctx c)) }
/-- The signal engines' state of group g. -/
def State.grp (s : State) (g : Nat) : SigGrp := SMap.get (fun _ => SigGrp.reset) s.groups g
/-- Change group g. -/
def State.modGrp (s : State) (g : Nat) (f : SigGrp → SigGrp) : State :=
  { s with groups := SMap.set (fun _ => SigGrp.reset) s.groups g (f (s.grp g)) }
/-- Half h. -/
def State.half (s : State) (h : Nat) : Half := if h = 0 then s.h0 else s.h1
/-- Change half h. -/
def State.modHalf (s : State) (h : Nat) (f : Half → Half) : State :=
  if h = 0 then { s with h0 := f s.h0 } else { s with h1 := f s.h1 }
/-- Append to what the device sends. -/
def State.emit (s : State) (o : Out) : State := { s with sent := s.sent ++ [o] }
/-- Append several. -/
def State.emits (s : State) (os : List Out) : State := { s with sent := s.sent ++ os }
/-- Advance the counter that makes free values fresh. -/
def State.freshen (s : State) : State := { s with fresh := s.fresh + 1 }
/-- The codes of the causes that hold. -/
def codesOf (cs : List (Bool × Nat)) : List Nat := (cs.filter (·.1)).map (·.2)
/-- The code shown of several causes that hold together where the manual gives them no order: a free one; 0 for none. -/
def State.oneOf (s : State) (cs : List Nat) : Nat := match cs with
  | [] => 0
  | [c] => c
  | _ => nth 0 cs (Config.pick s.fresh % cs.length)
/-- A new identifier. -/
def State.newId (s : State) : Nat × State := (s.nextId, { s with nextId := s.nextId + 1 })

/-- Site time (R32). -/
def State.now (s : State) : Nat := s.fld TBTIME_TIME

/-- Apply f for every element of a list, left to right. -/
def State.each {α : Type} (s : State) (l : List α) (f : State → α → State) : State := l.foldl f s

/-! ## Geometry (R16, R18 to R20) -/

/-- The half a tile lies on. -/
def halfOfTile (t : Nat) : Nat := t / 1024
/-- The block of a tile (R19). -/
def blockOfTile (t : Nat) : Nat := (t / 1024) * 64 + ((t % 1024) / 32 / 4) * 8 + (t % 32) / 4
/-- First address of tile t's window (R20). -/
def tileBase (t : Nat) : Nat := 0x010000000000 + t * 0x400000
/-- The half a stack or its engines are attached to (Table 1.1). -/
def halfOfStack (st : Nat) : Nat := st / 4
/-- The half a Miltum port is attached to. -/
def halfOfPort (p : Nat) : Nat := p / 4
/-- First device address of stack st (R221). -/
def stackBase (st : Nat) : Nat := st * 0x1000000000

/-- SRC of a report (Table 6.7). -/
def srcOf (cls n : Nat) : Nat := cls * 4096 + n

/-! ## Register access (R12, R14, R542) -/

/-- The bits of an n-byte access at byte lane b. -/
def laneMask (b n : Nat) : Nat := (2 ^ (8 * n) - 1) * 2 ^ (8 * b)

/-- An access is naturally aligned and of 1, 2, 4 or 8 bytes. -/
def accessOk (a n : Nat) : Bool := (n == 1 || n == 2 || n == 4 || n == 8) && a % n == 0

/-- Fused fields are read from the fuses, whatever the register file holds (R49, R429, R513, R522): hours burnt since manufacture
add to those fused before, and the budget is Table 0.5's. -/
def State.fusedOverlay (s : State) (a : Nat) (v : BitVec 64) : BitVec 64 :=
  if a = aGID then BitVec.ofNat 64 (putBits v.toNat 8 1 (if Config.gradeX then 1 else 0))
  else if a = aARFP then BitVec.ofNat 64 (putBits v.toNat 8 8 Config.arev.toNat)
  else if a = aKFUSE then
    BitVec.ofNat 64 (putBits (putBits (putBits v.toNat 0 1 (if Config.cmacReq then 1 else 0)) 1 1 (if Config.rootOk then 1 else 0)) 16 48 Config.serial.toNat)
  else if a = aPLIFE then BitVec.ofNat 64 (putBits (putBits v.toNat 0 16 (Config.peakHours + s.hoursBurnt)) 32 16 (if Config.gradeX then 5000 else 1000))
  else v

/-- The bits of the first n two-byte entries of a register. -/
def firstHalves (n : Nat) : BitVec 64 := BitVec.ofNat 64 (2 ^ (16 * min 4 n) - 1)

/-- A group record's VALID bit reads 0 when its fields are inconsistent (R283, R284); every other table word reads as stored. -/
def State.groupOverlay (s : State) (a : Nat) (v : BitVec 64) : BitVec 64 :=
  let o := (a - aFGROUP 0) % 512
  if a < aFGROUP 0 ∨ aFGROUP 16384 ≤ a then v
  else if 16 ≤ o ∧ o < 144 then v &&& firstHalves (bitsOf (s.reg (a - o + 8)).toNat 48 7 - (o - 16) / 2)
  else if o = 8 then
    let w0 := (s.reg (a - 8)).toNat
    let ndev := bitsOf w0 0 17
    let bad := ndev == 0 || decide (65536 < ndev) || decide (ndev ≤ bitsOf w0 32 16) || decide (64 < bitsOf v.toNat 48 7)
    if bad then v &&& ~~~ (1#64 <<< 56) else v
  else v

/-! ## Stream records (Table 11.1, R336) -/

/-- BWD. -/
def srBwd (r : List Nat) : Bool := bitOf (le r 0 1) 1
/-- FORM: skewed. -/
def srSkew (r : List Nat) : Bool := bitOf (le r 0 1) 2
/-- PAD. -/
def srPad (r : List Nat) : Nat := if bitOf (le r 0 1) 3 then 16 else 32
/-- FMT. -/
def srFmt (r : List Nat) : Nat := bitsOf (le r 1 1) 0 4
/-- k. -/
def srK (r : List Nat) : Nat := bitsOf (le r 1 1) 4 3 + 1
/-- NEXP. -/
def srNexp (r : List Nat) : Nat := bitsOf (le r 2 1) 0 7
/-- SIDX. -/
def srSidx (r : List Nat) : Nat := bitsOf (le r 3 1) 0 4
/-- Sender tiles per device. -/
def srNst (r : List Nat) : Nat := bitsOf (le r 3 1) 4 2 + 1
/-- NSRCDEV. -/
def srNsrcdev (r : List Nat) : Nat := bitsOf (le r 4 1) 0 5
/-- NSRC (R337). -/
def srNsrc (r : List Nat) : Nat := srNsrcdev r * srNst r
/-- ROWB. -/
def srRowb (r : List Nat) : Nat := le r 8 2
/-- ORB. -/
def srOrb (r : List Nat) : Nat := le r 10 2
/-- QSLOTS. -/
def srQslots (r : List Nat) : Nat := le r 12 2
/-- FWDQ. -/
def srFwdq (r : List Nat) : Nat := bitsOf (le r 14 1) 0 6
/-- PLANTO. -/
def srPlanto (r : List Nat) : Nat := le r 16 4
/-- DISPTO. -/
def srDispto (r : List Nat) : Nat := le r 20 4
/-- RETBASE. -/
def srRetbase (r : List Nat) : Nat := le r 24 8
/-- RWBASE. -/
def srRwbase (r : List Nat) : Nat := le r 32 8
/-- STILE of a sender slot. -/
def srStile (r : List Nat) (j : Nat) : Nat := le r (40 + 2 * j) 2
/-- TBASE of a sender slot. -/
def srTbase (r : List Nat) (j : Nat) : Nat := le r (48 + 2 * j) 2
/-- OWNER of an expert. -/
def srOwner (r : List Nat) (e : Nat) : Nat := le r (64 + 2 * e) 2
/-- QTILE of an expert. -/
def srQtile (r : List Nat) (e : Nat) : Nat := le r (192 + 2 * e) 2
/-- Bank offset of an expert's queue. -/
def srQoff (r : List Nat) (e : Nat) : Nat := le r (320 + 2 * e) 2 * 64

/-- Panel lanes of a skewed queue (R338: Table 2.5 for FMT and PAD). -/
def srL (r : List Nat) : Nat := if srPad r = 16 then 16 else 32
/-- Lane bytes of a skewed queue. -/
def srE (r : List Nat) : Nat := laneBytes (srFmt r)
/-- Line width of a skewed queue. -/
def srW (r : List Nat) : Nat := srL r * srE r
/-- Panels of a row. -/
def srNp (r : List Nat) : Nat := srRowb r / srW r
/-- PSZ (R338). -/
def srPsz (r : List Nat) : Nat := ceilDiv ((srQslots r + srL r - 1) * srW r) 64 * 64
/-- Offset of the tag array in a buffer. -/
def srTagOff (r : List Nat) : Nat := if srSkew r then srNp r * srPsz r else srQslots r * srRowb r
/-- QSZ (R338). -/
def srQsz (r : List Nat) : Nat := ceilDiv (srTagOff r + srQslots r * 8) 64 * 64

/-- The 512 bytes of stream record q as stored. -/
def State.srRaw (s : State) (q : Nat) : List Nat :=
  (List.range 64).flatMap fun i => leBytes 8 (s.reg (aFSTREAM (q * 64 + i))).toNat

/-- The context a stream is assigned to (R336). -/
def State.streamCtx (s : State) (q : Nat) : Option (Nat × CtxCfg) := s.img.ctxs.find? fun c => c.2.streams.contains q

/-- A record that reads VALID = 0 whatever is stored (R336): a field breaks a limit of Table 11.1, RETBASE and RWBASE being on this device
among them, or a queue does not fit. A PLANTO or DISPTO out of range is such a field: it takes no default and is not reported (DESIGN CHOICE
between R15 and R336, log entry 91). -/
def State.srBad (s : State) (q : Nat) (r : List Nat) : Bool :=
  let pad := srPad r
  let scr := fun (t : Nat) => 0x1F0000 - s.fld (TSCSTAT_SIZE t) * 0x40000
  let in64 := fun (x : Nat) => x % 64 == 0 && decide (64 ≤ x) && decide (x ≤ 16384)
  let rw := srRwbase r
  let rwt := (rw % 2 ^ 48 - 0x010000000000) / 0x400000
  let lib := match s.streamCtx q with
    | some c => !c.2.implicit
    | none => false
  decide (14 < srFmt r) || (srSkew r && !((decide (1 ≤ srFmt r) && decide (srFmt r ≤ 4)) || srFmt r == 10))
    || srNexp r == 0 || decide (64 < srNexp r) || srNsrcdev r == 0 || decide (16 < srNsrcdev r)
    || !in64 (srRowb r) || !in64 (srOrb r) || srQslots r == 0 || srQslots r % pad != 0 || decide (2048 < srQslots r)
    || (!srBwd r && srFwdq r != 0) || decide (srPlanto r < 100) || decide (1000000 < srPlanto r)
    || decide (srDispto r < 1000) || decide (10000000 < srDispto r) || srRetbase r % 64 != 0
    || srRetbase r / 2 ^ 48 != s.fld FCFG_RANK || rw / 2 ^ 48 != s.fld FCFG_RANK || ((List.range (srNst r)).any fun j => decide (2048 ≤ srStile r j))
    || decide (rw % 2 ^ 48 < 0x010000000000) || decide (2048 ≤ rwt)
    || decide (scr rwt ≤ (rw % 2 ^ 48 - 0x010000000000) % 0x400000)
    || ((List.range (srNexp r)).any fun e => srOwner r e == s.fld FCFG_RANK
        && (decide (2048 ≤ srQtile r e) || decide (scr (srQtile r e) < srQoff r e + 2 * srQsz r)))
    || lib

/-- Stream record q as it reads. -/
def State.srRec (s : State) (q : Nat) : List Nat :=
  let r := s.srRaw q
  if s.srBad q r then (r.take 1).map (fun b => b - b % 2) ++ r.drop 1 else r

/-- The first word of a stream record reads VALID = 0 when R336 says so; STILE entries from NSTM1 + 1 up are reserved (Table 11.1). -/
def State.streamOverlay (s : State) (a : Nat) (v : BitVec 64) : BitVec 64 :=
  let o := (a - aFSTREAM 0) % 512
  if a < aFSTREAM 0 ∨ aFSTREAM 4096 ≤ a then v
  else if o = 0 then
    let q := (a - aFSTREAM 0) / 512
    if s.srBad q (s.srRaw q) then v &&& ~~~ 1#64 else v
  else if o = 40 then v &&& firstHalves (bitsOf (s.reg (a - 40)).toNat 28 2 + 1)
  else v

/-- The first word of a partner entry (Table 13.2): the own site's reads STATE NONE, and VER reads 1 until a HELLO has set it (R397). -/
def State.partnerOverlay (s : State) (a : Nat) (v : BitVec 64) : BitVec 64 :=
  if a < aXPART 0 ∨ aXPART 128 ≤ a ∨ (a - aXPART 0) % 64 ≠ 0 then v
  else
    let v := putBits v.toNat 16 2 (max 1 (bitsOf v.toNat 16 2))
    BitVec.ofNat 64 (if (a - aXPART 0) / 64 = s.fld XCFG_SITE then putBits v 8 2 0 else v)

/-! ## Reading -/

/-- A register that counts beats: TMXBUSY, TMXWAIT or TBKWAIT of a tile. No beat passes in the model, so what they hold once something
has run is open; stored is 1 from the first event that may count after a reset or a clearing read, and 0 before it (R89). -/
def beatCounter (a : Nat) : Bool :=
  decide (tileBase 0 ≤ a) && decide (a < tileBase 2048) && [0x300208, 0x300210, 0x300218].contains ((a - tileBase 0) % 0x400000)

/-- What the beat counter at a counts is going on: the tile has a product in flight or, for TBKWAIT, runs or has any work on its units. -/
def State.beatsRun (s : State) (a : Nat) : Bool :=
  let t := (a - tileBase 0) / 0x400000
  let x := s.tile t
  !x.prods.isEmpty || ((a - tileBase 0) % 0x400000 == 0x300218
    && (bitsOf (s.reg (aTSQSTAT t)).toNat 0 2 == 1 || !x.vq.isEmpty || !x.xfers.isEmpty || !x.disp.isEmpty || !x.loads.isEmpty))

/-- What a read of the register at a returns before lanes are selected: write-only and reserved bits read 0 (R12, R14).
Error-log words outside RP to WP are undefined (R220) and counts of beats are not modelled: free values. -/
def State.readReg (s : State) (a : Nat) : BitVec 64 :=
  match regSpecAt a with
  | none => 0
  | some r =>
    let v := s.partnerOverlay a (s.streamOverlay a (s.groupOverlay a (s.fusedOverlay a (s.reg a))))
    let v := BitVec.ofNat 64 (v.toNat &&& r.mask fun f => f.kind != .wo)
    if aERRLOG 0 ≤ a ∧ a < aERRLOG 4096 then
      let h := (a - aERRLOG 0) / 0x4000
      let i := ((a - aERRLOG 0) % 0x4000) / 0x20
      let wp := s.fld (ERRPTR_WP h)
      let rp := s.fld (ERRPTR_RP h)
      let n := (wp + 1024 - rp) % 1024
      if (i + 512 - rp % 512) % 512 < n then v else Config.logWord a s.fresh
    else if beatCounter a then (if s.reg a = 0 ∧ !s.beatsRun a then 0 else Config.logWord a s.fresh &&& 0xFFFFFFFFFFFF)
    else v

/-- A read's effect: every RC field whose bytes the read covers whole is cleared (R542); a beat counter that is counting goes on. -/
def State.rcClear (s : State) (a b n : Nat) : State :=
  match regSpecAt a with
  | none => s
  | some r =>
    let clr := r.mask fun f => f.kind == .rc && (f.lo / 8 ≥ b && (f.lo + f.w + 7) / 8 ≤ b + n)
    if clr = 0 || (beatCounter a && s.beatsRun a) then s else s.setReg a (s.reg a &&& ~~~ BitVec.ofNat 64 clr)

/-- A register read of n bytes at device address x: the bytes named, and the RC fields covered whole are cleared. -/
def State.regRead (s : State) (x n : Nat) : Nat × State :=
  let a := x - x % 8
  let b := x % 8
  (bitsOf (s.readReg a).toNat (8 * b) (8 * n), if beatCounter a then (s.rcClear a b n).freshen else s.rcClear a b n)

/-- The value a register holds after a write of lanes m with value v (v already in place): RW bits take it, W1C bits
clear on a 1, every other bit stays (R12, R14, R542). Write-only fields act elsewhere. -/
def RSpec.written (r : RSpec) (old : BitVec 64) (m v : Nat) : BitVec 64 :=
  let rw := r.mask fun f => f.kind == .rw
  let w1c := r.mask fun f => f.kind == .w1c
  let keep := old &&& ~~~ BitVec.ofNat 64 (rw &&& m)
  let put := BitVec.ofNat 64 (v &&& rw &&& m)
  (keep ||| put) &&& ~~~ BitVec.ofNat 64 (v &&& w1c &&& m)

/-- The write-only fields' value of a write: 0 in the bytes not written (R542). -/
def RSpec.woValue (r : RSpec) (m v : Nat) : Nat := v &&& m &&& r.mask fun f => f.kind == .wo

/-- Bytes of a register table from a device address, words as stored. -/
def State.tblBytes (s : State) (a n : Nat) : List Nat :=
  (List.range (n / 8)).flatMap fun i => leBytes 8 (s.reg (a + 8 * i)).toNat

/-- Store bytes into a register table, whole words. -/
def State.tblPut (s : State) (a : Nat) (bs : List Nat) : State :=
  s.each (List.range (bs.length / 8)) fun s i => s.setReg (a + 8 * i) (BitVec.ofNat 64 (le bs (8 * i) 8))

/-! ## Tile registers used everywhere -/

/-- Sequencer states (Table 5.22). -/
def stIdle : Nat := 0
/-- Table 5.22. -/
def stRunning : Nat := 1
/-- Table 5.22. -/
def stHalted : Nat := 2
/-- Table 5.22. -/
def stTrapped : Nat := 3

/-- Program counter of a tile: index of the next instruction (R151). -/
def State.pc (s : State) (t : Nat) : Nat := s.fld (TSQSTAT_PC t)

/-- Set the program counter, modulo 8,192 (R151). -/
def State.setPc (s : State) (t n : Nat) : State := s.setFld (TSQSTAT_PC t) (n % 8192)

/-- Scalar register i of a tile. -/
def Tile.sreg (x : Tile) (i : Nat) : BitVec 64 := SMap.get (fun _ => 0) x.s i
/-- Write scalar register i. -/
def Tile.setS (x : Tile) (i : Nat) (v : BitVec 64) : Tile := { x with s := SMap.set (fun _ => 0) x.s i v }
/-- Address register i. -/
def Tile.areg (x : Tile) (i : Nat) : BitVec 64 := SMap.get (fun _ => 0) x.a i
/-- Write address register i. -/
def Tile.setA (x : Tile) (i : Nat) (v : BitVec 64) : Tile := { x with a := SMap.set (fun _ => 0) x.a i v }
/-- Predicate i; p0 reads as 1 (Table 5.1). -/
def Tile.preg (x : Tile) (i : Nat) : Bool := i == 0 || x.p.getLsbD i
/-- Write predicate i; a write to p0 is discarded (R156). -/
def Tile.setP (x : Tile) (i : Nat) (v : Bool) : Tile :=
  if i = 0 then x
  else { x with p := if v then x.p ||| (1#8 <<< i) else x.p &&& ~~~(1#8 <<< i) }
/-- Loop counter i. -/
def Tile.loop (x : Tile) (i : Nat) : LoopC := SMap.get (fun _ => ⟨0, 0, 0, false⟩) x.lc i
/-- Write loop counter i. -/
def Tile.setLoop (x : Tile) (i : Nat) (l : LoopC) : Tile := { x with lc := SMap.set (fun _ => ⟨0, 0, 0, false⟩) x.lc i l }
/-- The block in the cells of unit q. -/
def Tile.actOf (x : Tile) (q : Nat) : Option Stat := SMap.get (fun _ => none) x.act q
/-- The block in the shadow register of unit q. -/
def Tile.shadowOf (x : Tile) (q : Nat) : Option Stat := SMap.get (fun _ => none) x.shadow q
/-- Put a block into the shadow register. -/
def Tile.setShadow (x : Tile) (q : Nat) (b : Option Stat) : Tile := { x with shadow := SMap.set (fun _ => none) x.shadow q b }
/-- R54: the shadow's block goes into the cells, and the shadow is free. -/
def Tile.swapIn (x : Tile) (q : Nat) : Tile :=
  { x with act := SMap.set (fun _ => none) x.act q (x.shadowOf q), shadow := SMap.set (fun _ => none) x.shadow q none }

/-- Tokens: additions saturate at 65,535 and set TSQSTAT.TOKOVF (R177). -/
def State.tokAdd (s : State) (t k n : Nat) : State :=
  let c := s.fld (TTOK_COUNT t k) + n
  if 65535 < c then (s.setFld (TTOK_COUNT t k) 65535).orFld (TSQSTAT_TOKOVF t) 1
  else s.setFld (TTOK_COUNT t k) c

/-- Set VSTAT flags (R117: a flag is set once). -/
def State.vflags (s : State) (t : Nat) (f : Flags) : State :=
  if f = 0 then s else s.setReg (aVSTAT t) (s.reg (aVSTAT t) ||| BitVec.ofNat 64 (f % 128))

end Sys2Proof.Machine
end

