-- ==== Sys2Proof/Machine/Link.lean ====
section
/-! DEFINITION. The Miltum link layer's bytes and its transmitter: packets as bytes and flits, credits, sequence numbers and the
replay buffer (R259 to R262, R265). -/

namespace Sys2Proof.Machine

/-- A Miltum port is UP (Table 8.2). -/
def State.portUp (s : State) (p : Nat) : Bool := s.fld (FPSTAT_STATE p) == 4

/-- The first minor version that carries a packet (Table 8.4): remote reset 1.1, several records in one SIGNAL packet 1.3. -/
def pktMinor (p : Pkt) : Nat :=
  if p.opc = 8 then 1 else if p.opc = 7 ∧ 16 < p.data.length ∧ !bitOf (le p.data 1 1) 7 then 3 else 0

/-- The VC of a packet operation (Table 8.7); none for a reserved one. -/
def vcOf (opc : Nat) : Option Nat :=
  if opc = 1 ∨ opc = 3 ∨ opc = 9 ∨ opc = 10 then some 0
  else if opc = 2 ∨ opc = 4 ∨ opc = 8 then some 1
  else if opc = 5 ∨ opc = 6 ∨ opc = 7 then some 2
  else none

/-- The 32-byte packet header (Table 8.6). -/
def pktHeader (p : Pkt) : List Nat :=
  [p.opc % 256, p.cst % 16] ++ leBytes 2 p.drank ++ leBytes 2 p.srank ++ [p.hops % 64, p.tgen % 256] ++ leBytes 8 (p.addr % 2 ^ 48)
    ++ leBytes 2 (p.len % 8192) ++ leBytes 2 (p.tag % 4096) ++ [p.dtk % 32 + (if p.dtken then 32 else 0), 0, 0, 0] ++ leBytes 8 p.pmask

/-- A packet from its bytes, received on a VC; rsv says that a reserved field, or a byte after the payload, is not 0 (R266). -/
def pktParse (vc : Nat) (bs : List Nat) : Pkt :=
  let len := bitsOf (le bs 16 2) 0 13
  { vc := vc, opc := le bs 0 1, cst := bitsOf (le bs 1 1) 0 4, drank := le bs 2 2, srank := le bs 4 2, hops := bitsOf (le bs 6 1) 0 6,
    tgen := le bs 7 1, addr := bitsOf (le bs 8 8) 0 48, len := len, tag := bitsOf (le bs 18 2) 0 12, dtk := bitsOf (le bs 20 1) 0 5,
    dtken := bitOf (le bs 20 1) 5, pmask := le bs 24 8, data := (bs.drop 32).take (if le bs 0 1 = 2 then 0 else len),
    rsv := bitsOf (le bs 1 1) 4 4 != 0 || bitsOf (le bs 6 1) 6 2 != 0 || bitsOf (le bs 8 8) 48 16 != 0 || bitsOf (le bs 16 2) 13 3 != 0
      || bitsOf (le bs 18 2) 12 4 != 0 || bitsOf (le bs 20 1) 6 2 != 0 || le bs 21 3 != 0
      || (bs.drop (32 + if le bs 0 1 = 2 then 0 else len)).any (· != 0) }

/-- Cut bytes into flit bodies of 244 bytes, the last padded with zeros; k bounds them. -/
def bodies : Nat → List Nat → List (List Nat)
  | 0, _ => []
  | k + 1, bs => if bs.isEmpty then [] else (bs.take 244 ++ List.replicate (244 - min 244 bs.length) 0) :: bodies k (bs.drop 244)

/-- Flits of a packet: FTYPE (1 HEAD, 2 BODY) and body (R261, R265). -/
def pktFlits (p : Pkt) : List (Nat × List Nat) :=
  ((bodies (p.data.length / 244 + 2) (pktHeader p ++ p.data)).zipIdx).map fun b => (if b.2 = 0 then 1 else 2, b.1)

/-- The link header (Table 8.5). -/
def Flit.header (f : Flit) : Nat :=
  f.fseq + f.ftype * 2 ^ 12 + f.vc * 2 ^ 15 + f.ackseq * 2 ^ 17 + (if f.ackv then 2 ^ 29 else 0) + (if f.nak then 2 ^ 30 else 0)
    + f.crdd * 2 ^ 32 + f.crdc * 2 ^ 40 + f.crds * 2 ^ 48

/-- The 252 bytes of a flit that its check covers: link header and body (R259). -/
def Flit.covered (f : Flit) : List Nat := leBytes 8 f.header ++ f.body.take 244 ++ List.replicate (244 - f.body.length) 0

/-- A flit's 256 bytes (R259). -/
def Flit.bytes (f : Flit) : List Nat := f.covered ++ leBytes 4 (crc32c f.covered)

/-- A flit from its bytes: none when the CRC fails, FTYPE or VC is reserved, or a reserved header field is not 0 (R259, R260). -/
def flitParse (bs : List Nat) : Option Flit :=
  let h := le bs 0 8
  if bs.length ≠ 256 ∨ crc32c (bs.take 252) ≠ le bs 252 4 ∨ 3 < bitsOf h 12 3 ∨ bitsOf h 15 2 = 3 ∨ bitOf h 31 ∨ bitsOf h 56 8 ≠ 0 then none
  else some { fseq := bitsOf h 0 12, ftype := bitsOf h 12 3, vc := bitsOf h 15 2, ackseq := bitsOf h 17 12, ackv := bitOf h 29, nak := bitOf h 30,
              crdd := bitsOf h 32 8, crdc := bitsOf h 40 8, crds := bitsOf h 48 8, body := (bs.drop 8).take 244 }

/-- A flit with the port's acknowledgement and credit fields as they stand (R260, R262). While the port retrains ACKSEQ is always valid: the
partner's replay resumes from it. -/
def Port.flit (x : Port) (fseq ftype vc : Nat) (nak : Bool) (body : List Nat) : Flit :=
  { fseq := fseq, ftype := ftype, vc := vc, ackseq := (x.rxSeq + 4095) % 4096, ackv := x.ackDue || nak || x.retraining, nak := nak,
    crdd := min 255 (nth 0 x.ret 0), crdc := min 255 (nth 0 x.ret 1), crds := min 255 (nth 0 x.ret 2), body := body }

/-- Acknowledgements and up to 255 credits of each VC have gone out with a flit. -/
def Port.flitSent (x : Port) : Port := { x with ackDue := false, ret := x.ret.map fun r => r - min 255 r }

/-- Send one flit: what the port owes its partner goes with it. -/
def State.txFlit (s : State) (p fseq ftype vc : Nat) (nak : Bool) (body : List Nat) : State :=
  (s.emit (.flit p ((s.port p).flit fseq ftype vc nak body).bytes)).modPort p Port.flitSent

/-- Send an IDLE flit, which carries the next FSEQ (R260). -/
def State.txIdle (s : State) (p : Nat) (nak : Bool) : State := s.txFlit p (s.port p).txSeq 0 0 nak []

/-- Send a LINK flit, which carries the next FSEQ and is never replayed (R260). -/
def State.txLink (s : State) (p : Nat) (body : List Nat) : State := s.txFlit p (s.port p).txSeq 3 0 false body

/-- VC of a packet to send. -/
def pktVc (p : Pkt) : Nat := (vcOf p.opc).getD 0

/-- The first packet waiting on a VC sends its first flit. -/
def popTx (v : Nat) : List (Pkt × List (Nat × List Nat)) → List (Pkt × List (Nat × List Nat))
  | [] => []
  | e :: es => if pktVc e.1 ≠ v then e :: popTx v es else if e.2.length ≤ 1 then es else (e.1, e.2.drop 1) :: es

/-- Packets none of whose flits has been sent. -/
def Port.unsent (x : Port) : List Pkt := (x.txq.filter fun e => e.2.length == (pktFlits e.1).length).map (·.1)

/-- The next flit to send: signal before control before data, but data not held back for more than 16 flits (R261). -/
def Port.nextTx (x : Port) : Option (Nat × Nat × List Nat) :=
  let ready := fun (v : Nat) =>
    if 0 < nth 0 x.crd v then (x.txq.find? fun e => pktVc e.1 == v).bind fun e => e.2.head?.map fun f => (v, f.1, f.2) else none
  if 16 ≤ x.starve ∧ (ready 0).isSome then ready 0
  else match ready 2 with
    | some f => some f
    | none => match ready 1 with
      | some f => some f
      | none => ready 0

/-- Send waiting flits while credits and the 1,024-flit replay buffer allow; n bounds them. -/
def State.txPump (s : State) (p : Nat) : Nat → State
  | 0 => s
  | n + 1 =>
    let x := s.port p
    if !s.portUp p ∨ 1024 ≤ x.unacked.length then s
    else
      match x.nextTx with
      | none => s
      | some f =>
        let fl := x.flit x.txSeq f.2.1 f.1 false f.2.2
        let dataWaits := f.1 != 0 && x.txq.any fun q => pktVc q.1 == 0
        let s := (s.emit (.flit p fl.bytes)).modPort p fun _ => { x.flitSent with
          txSeq := (x.txSeq + 1) % 4096
          unacked := x.unacked ++ [(x.txSeq, fl)]
          crd := setNth x.crd f.1 (nth 0 x.crd f.1 - 1)
          txq := popTx f.1 x.txq
          starve := if dataWaits then x.starve + 1 else 0 }
        s.txPump p n

/-- Send what can be sent. -/
def State.txGo (s : State) (p : Nat) : State := s.txPump p ((s.port p).txq.map fun e => e.2.length).sum

/-- Hand a packet to a port's transmitter. -/
def State.txPacket (s : State) (port : Nat) (p : Pkt) : State :=
  let s := (s.emit (.pkt port p)).modPort port fun x => { x with txq := x.txq ++ [(p, pktFlits p)] }
  s.txGo port

end Sys2Proof.Machine
end

