-- ==== Sys2Proof/Machine/Ops.lean ====
section
/-! DEFINITION. Operations every unit shares: reports to the error log, buckets and failure warnings, events and
interrupts to the host, packets out, token and mailbox deliveries, partitions and permissions. -/

namespace Sys2Proof.Machine

/-! ## Reports (R213) -/

/-- A unit's report, waiting to be entered in its half's ring (ERROR_REPORT). -/
def State.report (s : State) (half typ sev src addr detail : Nat) : State :=
  { s with reports := s.reports ++ [⟨half, typ, sev, src, addr, detail, s.now⟩] }

/-- A report of a tile (SRC class 0). -/
def State.tileReport (s : State) (t typ sev addr detail : Nat) : State :=
  s.report (halfOfTile t) typ sev (srcOf 0 t) addr detail

/-- A report of the global units of a half (SRC class 6). -/
def State.globReport (s : State) (half typ sev addr detail : Nat) : State :=
  s.report half typ sev (srcOf 6 (half * 16)) addr detail

/-- The primary half (GSTAT.PRIM). -/
def State.primHalf (s : State) : Nat := s.fld GSTAT_PRIM

/-- A report of the primary's configuration, strap, reset or power units (SRC class 6). -/
def State.primReport (s : State) (typ sev addr detail : Nat) : State := s.globReport s.primHalf typ sev addr detail

/-! ## Partitions, contexts and permissions (R157, R457, R458) -/

/-- The partition that owns a tile's block. -/
def State.partOfTile (s : State) (t : Nat) : Option Nat :=
  (s.img.parts.find? fun p => p.2.blocks.contains (blockOfTile t)).map (·.1)

/-- A partition's settings. -/
def State.partCfg (s : State) (n : Nat) : Option PartCfg := (s.img.parts.find? fun p => p.1 == n).map (·.2)

/-- A context's settings. -/
def State.ctxCfg (s : State) (c : Nat) : Option CtxCfg := (s.img.ctxs.find? fun p => p.1 == c).map (·.2)

/-- The context holding a partition (HPSTAT). -/
def State.curCtx (s : State) (part : Nat) : Option Nat :=
  if s.flag (HPSTAT_HELD part) then some (s.fld (HPSTAT_CUR part)) else none

/-- The context running on a tile. -/
def State.ctxOfTile (s : State) (t : Nat) : Option Nat := (s.partOfTile t).bind s.curCtx

/-- The settings of the context running on a tile. -/
def State.cfgOfTile (s : State) (t : Nat) : Option CtxCfg := (s.ctxOfTile t).bind s.ctxCfg

/-- A context is firmware (R458). -/
def State.isFw (s : State) (c : Nat) : Bool := match s.ctxCfg c with
  | some k => k.fw
  | none => false

/-- The tiles of a partition, ascending; a partition left with fewer than 2 blocks holds none (R25). -/
def State.tilesOf (s : State) (part : Nat) : List Nat :=
  match s.partCfg part with
  | none => []
  | some p => if p.blocks.length < 2 then [] else (List.range 2048).filter fun t => p.blocks.contains (blockOfTile t)

/-- This device's logical rank. -/
def State.rank (s : State) : Nat := s.fld FCFG_RANK

/-- The rank of an address of R157. -/
def addrRank (a : Nat) : Nat := bitsOf a 48 16
/-- The device address of an address of R157. -/
def addrDev (a : Nat) : Nat := a % 2 ^ 48

/-- The access does not leave this device. -/
def State.isLocal (s : State) (a : Nat) : Bool := addrRank a == s.rank

/-- Where a device address lies (R20, R52, R221 and the register blocks). -/
inductive Place where
  /-- tile bank byte: tile, bank offset -/
  | bank (t off : Nat)
  /-- accumulator file byte: tile, byte offset in the file -/
  | acc (t off : Nat)
  /-- a register of a tile or of the device -/
  | reg
  /-- stack byte: stack, offset -/
  | stack (st off : Nat)
  /-- unmapped -/
  | none
  deriving DecidableEq, Repr

/-- Half 1's tiles, stacks and ports cannot be reached: no bridge link passed its test (R25). -/
def State.half1Gone (s : State) : Bool := s.bridgeDone && s.fld GBRIDGE_LINKOK == 0

/-- A device address lies in a tile window that R25 leaves unmapped. -/
def State.goneTile (s : State) (d : Nat) : Bool := s.half1Gone && decide (tileBase 1024 ≤ d) && decide (d < tileBase 2048)

/-- Stream-cache size n of a tile (R195). -/
def State.scn (s : State) (t : Nat) : Nat := s.fld (TSCSTAT_SIZE t)

/-- First bank offset of the stream-cache part (R195); the instruction region begins at 0x1F0000. -/
def State.scBase (s : State) (t : Nat) : Nat := 0x1F0000 - s.scn t * 0x40000

/-- Stack st can be accessed at this offset: below its top, initialised and not in test state (R221, R228, R231). -/
def State.stackOk (s : State) (st off : Nat) : Bool :=
  decide (off < s.fld (SSTAT_LIVE st) * 0x80000000) && s.flag (SSTAT_INITD st) && !s.flag (SSTAT_TEST st)
    && !(s.half1Gone && decide (4 ≤ st))

/-- Where a device address lies, for any requester; the stream-cache part is not addressable (R196). -/
def State.place (s : State) (d : Nat) : Place :=
  if d < 0x8000000000 then
    let st := d / 0x1000000000
    if s.stackOk st (d % 0x1000000000) then .stack st (d % 0x1000000000) else .none
  else if tileBase 0 ≤ d ∧ d < tileBase 2048 then
    let t := (d - tileBase 0) / 0x400000
    let o := (d - tileBase 0) % 0x400000
    if s.half1Gone ∧ 1024 ≤ t then .none
    else if o < 0x200000 then
      (if s.scBase t ≤ o ∧ o < 0x1F0000 then .none else .bank t o)
    else if o < 0x208000 then .acc t (o - 0x200000)
    else if o < 0x300000 then .none
    else if (regSpecAt (d - d % 8)).isSome then .reg else .none
  else if (regSpecAt (d - d % 8)).isSome then .reg
  else .none

/-- A partition's contexts and tiles may address this range of n bytes: its own tile windows, its stack ranges
(R457), and registers, which the owning chapters open or close by their own rules. -/
def State.partMay (s : State) (part d n : Nat) : Bool :=
  match s.partCfg part with
  | none => false
  | some p =>
    if d < 0x8000000000 then p.stkr.any fun r => decide (r.1 ≤ d) && decide (d + n ≤ r.1 + r.2)
    else if d < 0x020000000000 then
      let t := (d - tileBase 0) / 0x400000
      decide (tileBase 0 ≤ d) && p.blocks.contains (blockOfTile t) && decide (2 ≤ p.blocks.length)
    else true

/-- A destination rank a partition's tiles may address (R457). -/
def State.rankMay (s : State) (part r : Nat) : Bool :=
  r == s.rank || match s.partCfg part with
    | none => false
    | some p => p.rankr.any fun q => decide (q.1 ≤ r) && decide (r ≤ q.2)

/-- A tile may address n bytes at address a (R157, R160, R457). -/
def State.tileMay (s : State) (t a n : Nat) : Bool :=
  match s.partOfTile t with
  | none => false
  | some p => if s.isLocal a then s.partMay p (addrDev a) n else s.rankMay p (addrRank a)

/-! ## Events and interrupts (R465, R471) -/

/-- A completion or event vector may be held back under version 2 (R471); the others are signalled at once. -/
def State.msix (s : State) (fn vec : Nat) : State :=
  if vec ≤ 1 ∧ s.fld (HQCFG_VER fn) = 2 ∧ s.fld (HQCFG_MODUS fn) ≠ 0 then
    let c := s.ctx fn
    if c.modOn then s.modCtx fn fun c => { c with held := if c.held.contains vec then c.held else c.held ++ [vec] }
    else (s.emit (.msix fn vec)).modCtx fn fun c => { c with modOn := true }
  else s.emit (.msix fn vec)

/-- Entries of a ring whose LOG is given (R460). -/
def ringSize (log : Nat) : Nat := 2 ^ (log + 6)

/-- Write an event to a context's event ring (R465): lost when the ring is full. A FAULTED context fetches and completes nothing (R472) but has
its events; with Bus Master Enable cleared (cause 4) the device can write nothing for it (log entry 66). -/
def State.event (s : State) (c typ src aux data : Nat) : State :=
  if !s.flag (HQCFG_EN c) || (s.flag (HCTXSTAT_FAULT c) && s.fld (HCTXSTAT_FCAUSE c) == 4) then s
  else
    let n := ringSize (s.fld (HQCFG_EVLOG c))
    let x := s.ctx c
    if (x.evTail + 2 * n - s.fld (HQEVHEAD_HEAD c) % (2 * n)) % (2 * n) = n then
      let s := s.bump (HEVLOST_LOST c) 1
      if x.evLogged then s
      else (s.modCtx c fun x => { x with evLogged := true }).report 0 0x86 0 (srcOf 5 c) 0 typ
    else
      let phase := 1 - (x.evTail / n) % 2
      let bytes := [typ, phase] ++ leBytes 2 src ++ leBytes 4 aux ++ leBytes 8 s.now ++ leBytes 8 data ++ List.replicate 8 0
      let s := s.emit (.hostWrite (s.fld (HQEVBASE_BASE c) * 4096 + (x.evTail % n) * 32) bytes false)
      let s := s.modCtx c fun x => { x with evTail := (x.evTail + 1) % (2 * n) }
      s.msix c 1

/-- PF 0 and every firmware context (R465). -/
def State.fwContexts (s : State) : List Nat := 0 :: ((s.img.ctxs.filter fun c => c.2.fw && c.1 != 0).map (·.1))

/-- The device error interrupt (R211, R465). -/
def State.devError (s : State) (ring idx : Nat) : State :=
  (s.each s.fwContexts fun s c => s.event c 4 0 (ring * 65536 + idx) 0).emit (.msix 0 2)

/-! ## Packets out (R269, R270) -/

/-- The route table's entry for a rank (R269). -/
def State.routeEntry (s : State) (r : Nat) : Nat := bitsOf (s.reg (aFROUTE (r / 8))).toNat (8 * (r % 8)) 8

/-- The port a packet for a rank leaves on (R269). -/
def State.routePort (s : State) (r : Nat) : Option Nat :=
  let e := s.routeEntry r
  let p := bitsOf e 0 3
  let q := bitsOf e 4 3
  if bitOf e 3 && s.portUp p then some p
  else if bitOf e 7 && s.portUp q then some q
  else none

/-- A packet has no usable port: discarded and logged with cause 1 (R269). The entry's primary port, valid or not, is the one that reports
it (DESIGN CHOICE, log entry 92). -/
def State.noRoute (s : State) (p : Pkt) : State :=
  let q := bitsOf (s.routeEntry p.drank) 0 3
  (s.emit (.drop 1 p)).report (halfOfPort q) 0x47 1 (srcOf 3 q) 0 (1 + p.drank * 256)

/-- Send a packet on the route of its destination, or discard it (R257, R269). -/
def State.routeOut (s : State) (p : Pkt) : State :=
  match s.routePort p.drank with
  | some q =>
    if pktMinor p ≤ s.fld (FPSTAT_VER q) then s.txPacket q p
    else (s.emit (.drop 2 p)).report (halfOfPort q) 0x47 1 (srcOf 3 q) 0 (2 + p.drank * 256)
  | none => s.noRoute p

/-- Hand a packet of this device's own to its port; one for its own rank is delivered here, over the mesh (R269, R270). -/
def State.sendPkt (s : State) (p : Pkt) : State :=
  let p := { p with srank := s.rank, hops := s.fld FCFG_HOPLIM }
  if p.drank = s.rank then { s with mesh := s.mesh ++ [p] } else s.routeOut p

/-- A packet with an empty payload. -/
def mkPkt (vc opc drank addr len tag gen : Nat) : Pkt :=
  { vc := vc, opc := opc, cst := 0, drank := drank, srank := 0, hops := 0, tgen := gen, addr := addr, len := len, tag := tag,
    dtk := 0, dtken := false, pmask := 0, rsv := false, data := [] }

/-! ## Mailboxes and deliveries -/

/-- A mailbox word's address: tile and index (R180). -/
def mboxAt (d : Nat) : Option (Nat × Nat) :=
  if tileBase 0 ≤ d ∧ d < tileBase 2048 ∧ d % 8 = 0 then
    let o := (d - tileBase 0) % 0x400000
    if 0x300400 ≤ o ∧ o < 0x300480 then some ((d - tileBase 0) / 0x400000, (o - 0x300400) / 8) else none
  else none

/-- The address is a mailbox word (R180). -/
def isMbox (d : Nat) : Bool := (mboxAt (d - d % 8)).isSome

/-- A token's address: tile and index. -/
def tokenAt (d : Nat) : Option (Nat × Nat) :=
  if tileBase 0 ≤ d ∧ d < tileBase 2048 ∧ d % 8 = 0 then
    let o := (d - tileBase 0) % 0x400000
    if 0x300300 ≤ o ∧ o < 0x300400 then some ((d - tileBase 0) / 0x400000, (o - 0x300300) / 8) else none
  else none

/-- A mailbox operation on this device (R180): 0 ST, 1 LD, 2 FADD, 3 CAS; the old word. -/
def State.mboxOp (s : State) (t i op : Nat) (sv cv : BitVec 64) : BitVec 64 × State :=
  let old := s.reg (aTMBX t i)
  let new := if op = 0 then sv else if op = 2 then old + sv else if op = 3 then (if old = cv then sv else old) else old
  (old, if op = 1 then s else s.setReg (aTMBX t i) new)

/-! ## Windows that refuse writes (R202) -/

/-- A tile of the range is being marked, so its window refuses writes (R202). -/
def State.refusesWrite (s : State) (d : Nat) : Bool :=
  decide (tileBase 0 ≤ d) && decide (d < tileBase 2048) && (s.tile ((d - tileBase 0) / 0x400000)).marking

/-- The half a unit belongs to, by its SRC (R213, Table 6.7): a tile, stack, bindery engine, Miltum port or far port is its own half's; host
functions report where PCIe is, on Half 0 (Table 1.2), and a global unit names its half. -/
def srcHalf (src : Nat) : Nat :=
  let n := src % 4096
  match src / 4096 with
  | 0 => halfOfTile n
  | 1 => halfOfStack n
  | 2 => halfOfStack (n / 8)
  | 3 => halfOfPort n
  | 4 => n % 2
  | 5 => 0
  | _ => n / 16 % 2

/-- The fault met by a requester other than the tile's own sequencer is logged (R161): cls is its SRC class. -/
def State.extFault (s : State) (d cls src : Nat) : State := s.report (srcHalf src) 0x05 1 src d cls

/-- A write of tile t's window at a, by a command that does not name its writer: while the tile is marked it is discarded and logged, as
PF 0's (DESIGN CHOICE, log entry 92). -/
def State.windowPut (s : State) (t a : Nat) (f : State → State) : State :=
  if (s.tile t).marking then s.extFault a 5 (srcOf 5 0) else f s

/-- The payload of an MBX packet in this model: operation, then operand and comparand. -/
def mbxPayload (op : Nat) (sv cv : BitVec 64) : List Nat :=
  [op, 0, 0, 0, 0, 0, 0, 0] ++ leBytes 8 sv.toNat ++ leBytes 8 cv.toNat

/-- Add to a token (TTOKi) or a mailbox word (TMBXi) at an address of R157, as completions and hints do; a window that is being marked refuses
it (R202). -/
def State.deliverAdd (s : State) (a n : Nat) : State :=
  if s.isLocal a then
    if s.refusesWrite (addrDev a) then s.extFault (addrDev a) 6 (srcOf 6 (s.primHalf * 16))
    else match tokenAt (addrDev a), mboxAt (addrDev a) with
    | some (t, k), _ => s.tokAdd t k n
    | none, some (t, i) => (s.mboxOp t i 2 (BitVec.ofNat 64 n) 0).2
    | none, none => s
  else
    s.sendPkt { mkPkt 2 5 (addrRank a) (addrDev a) 24 0 0 with data := mbxPayload 2 (BitVec.ofNat 64 n) 0 }

/-! ## Failure warnings and buckets (R210, R211, R438) -/

/-- A failure-warning event (R438): bit 0 bucket, 1 link, 2 channel, 3 thermal. -/
def State.failWarn (s : State) (bit : Nat) : State :=
  let s := s.orFld ⟨aGCKHINT, 0, 4⟩ (2 ^ bit)
  if s.hintHold then s
  else
    let s := { s.bump GCKHINT_COUNT 1 with hintHold := true }
    let aux := bitsOf (s.reg aGCKHINT).toNat 0 16
    let s := (s.each s.fwContexts fun s c => s.event c 3 0 aux 0).emit (.msix 0 3)
    let tgt := s.fld GCKTGT_TGT
    if s.flag GCKCFG_AUTO && tgt != 0 then s.deliverAdd tgt 1 else s

/-- One leak tick of the buckets of class k, 0 halves, 1 stacks (R210). -/
def State.leakOne (s : State) (k : Nat) : State :=
  (if k = 0 then [0, 1] else [2, 3, 4, 5, 6, 7, 8, 9]).foldl (fun s n => s.setFld (GECCBKT_LEVEL n) (s.fld (GECCBKT_LEVEL n) - 1)) s

/-- The leak tick of class k that has fallen, if one has, is applied (R210). -/
def State.leakDue (s : State) (k : Nat) : State :=
  if s.tsync.leak.contains k then { s with tsync := { s.tsync with leak := s.tsync.leak.filter (· != k) } }.leakOne k else s

/-- TBTIME has gone forward from a to b: for each class that has crossed a multiple of its leak interval one tick falls, however many it
has crossed (R210). A tick that fell before is applied first. -/
def State.leakFall (s : State) (a b : Nat) : State :=
  [0, 1].foldl (fun s k =>
    let n := s.fld (GECCCFG_LEAK k) * 1000
    if n ≠ 0 ∧ a / n < b / n then
      let s := s.leakDue k
      { s with tsync := { s.tsync with leak := s.tsync.leak ++ [k] } }
    else s) s

/-- One correctable error counted in bucket k (R210): 0 and 1 the halves, 2 + s stack s. A tick due in the same nanosecond is applied first
(R218); INC reads 0 for the increment 16 (log entry 91). -/
def State.bucket (s : State) (k : Nat) : State :=
  let c := if k < 2 then 0 else 1
  let s := s.leakDue c
  let inc := if s.fld (GECCCFG_INC c) = 0 then 16 else s.fld (GECCCFG_INC c)
  let thr := s.fld (GECCCFG_THRESH c)
  let lvl := s.fld (GECCBKT_LEVEL k)
  if thr < lvl + inc then
    let s := ((s.setFld (GECCBKT_LEVEL k) 0).bump (GECCBKT_OVFCNT k) 1).setFld (GECCBKT_OVF k) 1
    let half := if k < 2 then k else halfOfStack (k - 2)
    (s.report half 0x04 1 (srcOf 6 (half * 16 + k)) 0 (k + s.fld (GECCBKT_OVFCNT k) * 65536)).failWarn 0
  else s.setFld (GECCBKT_LEVEL k) (lvl + inc)

/-! ## Traps (R183, R184) -/

/-- Find a trap: issuing stops; a trap found after another is not recorded. pc is what TSQSTAT.PC keeps. -/
def State.raise (s : State) (t cause : Nat) (impr : Bool) (idx code : Nat) : State :=
  s.modTile t fun x => if x.trap.isSome then x else { x with trap := some ⟨cause, impr, idx, code, if impr then s.pc t else idx⟩ }

/-- The effective determinism setting (R426). -/
def State.detm (s : State) : Bool := s.flag GCTL_DETM || s.flag GCTL_DETMF

/-! ## Quiescing predicates -/

/-- The device is halted (R530): PHALT.HALTED. -/
def State.halted (s : State) : Bool := s.flag PHALT_HALTED

/-- The device is parked (R525): PCTL.PARK. -/
def State.parked (s : State) : Bool := s.flag PCTL_PARK

/-- The TAP has taken the pins from the device's logic: EXTEST, EXTEST_PULSE, EXTEST_TRAIN, CLAMP or HIGHZ is selected (R536). -/
def State.pinsOff (s : State) : Bool := decide (4 ≤ s.tap.ir) && decide (s.tap.ir ≤ 8)

/-- No work runs: the device is halted or parked. -/
def State.frozen (s : State) : Bool := s.halted || s.parked

/-- A collective unit's data packet goes out by its port, or by its route; while the device is halted it waits (R530). -/
def State.collOut (s : State) (port : Option Nat) (p : Pkt) : State :=
  if s.halted then { s with halt := { s.halt with pkts := s.halt.pkts ++ [(port, p)] } }
  else match port with
    | some q => s.txPacket q p
    | none => s.sendPkt p

/-- A partition is being switched: nothing issues on its tiles (R468). -/
def State.switching (s : State) (part : Nat) : Bool := SMap.get (fun _ => Switch.none) s.switches part != .none

end Sys2Proof.Machine
end

