-- ==== Sys2Proof/Machine/Mem.lean ====
section
/-! DEFINITION. Memory: the bank's check code and markers (R197 to R203), the accumulator file (R76 to R79), the stacks
(R222 to R230), and reads and writes of memory by any requester (R161, R187). -/

namespace Sys2Proof.Machine

/-! ## The bank's check code -/

/-- Check bits c3 to c0 of a data byte (R197). -/
def check4 (d : Nat) : Nat :=
  let b := fun i => bitOf d i
  let n := fun (x : Bool) (k : Nat) => if x then k else 0
  n (xor (xor (xor (xor (b 0) (b 1)) (b 3)) (b 4)) (b 6)) 1 + n (xor (xor (xor (xor (b 0) (b 2)) (b 3)) (b 5)) (b 6)) 2
    + n (xor (xor (xor (b 1) (b 2)) (b 3)) (b 7)) 4 + n (xor (xor (xor (b 4) (b 5)) (b 6)) (b 7)) 8

/-- The check field of a data byte: c4 makes the overall parity even (R197). -/
def checkField (d : Nat) : Nat :=
  let c := check4 d
  c + (if xor (parity 8 d) (parity 4 c) then 16 else 0)

/-- The code word of a data byte, its check field changed by a mask: 0 for data, 0x1E the poison marker, 0x0F the
unwritten marker (R199). -/
def codeWord (d mask : Nat) : Code13 := BitVec.ofNat 13 (d % 256 + 256 * (checkField (d % 256) ^^^ mask))

/-- Classes of Table 6.1. -/
inductive ByteClass where
  | good (d : Nat)
  | corrected (d : Nat)
  | uncorrectable (syn : Nat)
  | poison
  | unwritten
  deriving DecidableEq, Repr

/-- The data bit named by a syndrome (Table 6.2), when it is a data bit. -/
def synBit : Nat → Option Nat
  | 3 => some 0
  | 5 => some 1
  | 6 => some 2
  | 7 => some 3
  | 9 => some 4
  | 10 => some 5
  | 11 => some 6
  | 12 => some 7
  | _ => none

/-- Classification of a byte on read (Table 6.1). -/
def classify (w : Code13) : ByteClass :=
  let d := bitsOf w.toNat 0 8
  let c := bitsOf w.toNat 8 5
  let syn := (c % 16) ^^^ check4 d
  let odd := parity 13 w.toNat
  if odd then
    if syn = 0 then .corrected d
    else if syn ≤ 12 then
      match synBit syn with
      | some i => .corrected (d ^^^ 2 ^ i)
      | none => .corrected d
    else .uncorrectable syn
  else
    if syn = 0 then .good d
    else if syn = 14 then .poison
    else if syn = 15 then .unwritten
    else .uncorrectable syn

/-- What a bank byte holds: a byte not listed holds the unwritten marker over undefined data (R202). -/
def Tile.code (x : Tile) (off : Nat) : Option Code13 := SMap.get (fun _ => none) x.bank off

/-- Classification of a bank byte. -/
def Tile.classOf (x : Tile) (off : Nat) : ByteClass := match x.code off with
  | none => .unwritten
  | some w => classify w

/-- The byte a reader gets, and whether it is poisoned (R203). A poisoned byte carries 0 here: it has no meaning. -/
def ByteClass.value : ByteClass → Nat × Bool
  | .good d => (d, false)
  | .corrected d => (d, false)
  | _ => (0, true)

/-- Reading units of Table 6.9. -/
def uFetch : Nat := 0
/-- Table 6.9. -/
def uScalar : Nat := 1
/-- Table 6.9. -/
def uPort : Nat := 2
/-- Table 6.9. -/
def uVector : Nat := 3
/-- Table 6.9. -/
def uMover : Nat := 4
/-- Table 6.9. -/
def uExternal : Nat := 5

/-- Counts and reports of one bank byte read (Table 6.1, R209, R211, R217). -/
def State.noteByte (s : State) (t off unit : Nat) (c : ByteClass) : State :=
  match c with
  | .good _ => s
  | .poison => s
  | .corrected _ => (s.bump (TECCCNT_CE t) 1).bucket (halfOfTile t)
  | .unwritten => (s.bump (TECCCNT_UE t) 1).tileReport t 0x01 2 (tileBase t + off) unit
  | .uncorrectable syn => (s.bump (TECCCNT_UE t) 1).tileReport t 0x02 2 (tileBase t + off) (syn + unit * 256)

/-- Read one bank byte. -/
def State.bankByte (s : State) (t off unit : Nat) : (Nat × Bool) × State :=
  let c := (s.tile t).classOf off
  (c.value, s.noteByte t off unit c)

/-- Accumulator word w of a tile and its parity bit (R76). -/
def Tile.accWord (x : Tile) (w : Nat) : BitVec 33 := SMap.get (fun _ => 0) x.acc w

/-- A word with even parity over its 33 bits. -/
def accCode (v : Nat) : BitVec 33 := BitVec.ofNat 33 (v % 2 ^ 32 + (if parity 32 v then 2 ^ 32 else 0))

/-- The parity of an accumulator word fails (R79). -/
def accBad (w : BitVec 33) : Bool := parity 33 w.toNat

/-- Row poison bit of row r, counted a × 32 + r (R78). -/
def Tile.rowPois (x : Tile) (r : Nat) : Bool := SMap.get (fun _ => false) x.accPois r

/-- Read accumulator word w: its value, whether it is poisoned; a parity failure is reported (R79). -/
def State.accRead (s : State) (t w : Nat) : (Nat × Bool) × State :=
  let x := s.tile t
  let v := x.accWord w
  let bad := accBad v
  ((bitsOf v.toNat 0 32, bad || x.rowPois (w / 32)),
    if bad then (s.bump (TECCCNT_UE t) 1).tileReport t 0x03 2 (tileBase t + 0x200000 + 4 * w) (w / 32) else s)

/-- Read one byte of the accumulator file. -/
def State.accByte (s : State) (t off : Nat) : (Nat × Bool) × State :=
  let r := s.accRead t (off / 4)
  ((bitsOf r.1.1 (8 * (off % 4)) 8, r.1.2), r.2)

/-- Read one byte at a window offset of bank or accumulator file. -/
def State.winByte (s : State) (t off unit : Nat) : (Nat × Bool) × State :=
  if off < 0x200000 then s.bankByte t off unit
  else if off < 0x208000 then s.accByte t (off - 0x200000)
  else ((0, true), s)

/-- Thread a byte reader over a list of places. -/
def readMany (f : State → Nat → (Nat × Bool) × State) (s : State) : List Nat → List (Nat × Bool) × State
  | [] => ([], s)
  | o :: os =>
    let r := f s o
    let q := readMany f r.2 os
    (r.1 :: q.1, q.2)

/-- Read n bytes of a tile's window from an offset. -/
def State.winRead (s : State) (t off n unit : Nat) : List (Nat × Bool) × State :=
  readMany (fun s o => s.winByte t o unit) s ((List.range n).map fun i => off + i)

/-- Some byte read is poisoned. -/
def anyPois (bs : List (Nat × Bool)) : Bool := bs.any (·.2)

/-- The number bytes spell, least significant first. -/
def valOf (bs : List (Nat × Bool)) : Nat := ofLE (bs.map (·.1))

/-- Bytes of a number, unpoisoned or all poisoned. -/
def asBytes (n v : Nat) (p : Bool) : List (Nat × Bool) := (leBytes n v).map fun b => (b, p)

/-! ## Writing a tile's window -/

/-- Expansion buffers whose folio an n-byte write at off touches are dropped before the write (R332). -/
def Tile.dropBufs (x : Tile) (off n : Nat) : Tile :=
  if x.exb.isEmpty then x
  else { x with exb := x.exb.filter fun b => decide (b.off + b.len ≤ off) || decide (off + n ≤ b.off) }

/-- Write one bank byte (R199, R200); the checker test corrupts the first write to the armed byte (R212). -/
def State.bankPut (s : State) (t off : Nat) (b : Nat × Bool) : State :=
  let w := codeWord b.1 (if b.2 then 0x1E else 0)
  let armed := s.flag (TFLIP_PEND t) && s.fld (TFLIP_ADDR t) == off && !(decide (s.scBase t ≤ off) && decide (off < 0x1F0000))
  let w := if armed then w ^^^ BitVec.ofNat 13 (s.fld (TFLIP_DMASK t) + 256 * s.fld (TFLIP_CMASK t)) else w
  let s := s.modTile t fun x => { x with bank := SMap.set (fun _ => none) x.bank off (some w) }
  if armed then s.setFld (TFLIP_PEND t) 0 else s

/-- The row's poison bit after a write (R78). -/
def rowPoisAfter (old anyP whole overwrite : Bool) : Bool := anyP || (old && !(whole && overwrite))

/-- Set a row's poison bit. -/
def Tile.setRowPois (x : Tile) (r : Nat) (v : Bool) : Tile := { x with accPois := SMap.set (fun _ => false) x.accPois r v }

/-- Show which accumulator tiles hold a poisoned row (TMXSTAT.ACCPOIS). -/
def State.syncPois (s : State) (t : Nat) : State :=
  let x := s.tile t
  s.setFld (TMXSTAT_ACCPOIS t) (((List.range 8).map fun a => if x.accPois.any fun e => e.2 && e.1 / 32 == a then 2 ^ a else 0).sum)

/-- Write one byte of an accumulator word, with fresh parity. -/
def Tile.accPut (x : Tile) (off b : Nat) : Tile :=
  let w := off / 4
  let v := putBits (bitsOf (x.accWord w).toNat 0 32) (8 * (off % 4)) 8 b
  { x with acc := SMap.set (fun _ => 0) x.acc w (accCode v) }

/-- Write an accumulator word whole. -/
def Tile.accSet (x : Tile) (w v : Nat) : Tile := { x with acc := SMap.set (fun _ => 0) x.acc w (accCode v) }

/-- Store or transfer bytes into the accumulator file from byte offset off: words, then each touched row's poison bit, a
row covered whole counting as an overwrite (R78). It is so too for a partial write that lands after an in-flight product has written the
row: poisoned data sets the bit (DESIGN CHOICE between R78 and the last clause of Table 2.11, R88: log entry 88). -/
def State.accWrite (s : State) (t off : Nat) (bs : List (Nat × Bool)) : State :=
  let n := bs.length
  if n = 0 then s
  else
    let x := (bs.zipIdx).foldl (fun x b => Tile.accPut x (off + b.2) b.1.1) (s.tile t)
    let r0 := off / 128
    let rows := (List.range ((off + n - 1) / 128 - r0 + 1)).map (r0 + ·)
    let x := rows.foldl (fun x r =>
      let anyP := (bs.zipIdx).any fun b => b.1.2 && (off + b.2) / 128 == r
      let whole := decide (off ≤ r * 128) && decide (r * 128 + 128 ≤ off + n)
      Tile.setRowPois x r (rowPoisAfter (Tile.rowPois x r) anyP whole true)) x
    (s.setTile t x).syncPois t

/-- Write bytes scattered over the accumulator file as one write: offset and byte of each. A row all of whose bytes are among them counts
as overwritten (R78). -/
def State.accScatter (s : State) (t : Nat) (cs : List (Nat × (Nat × Bool))) : State :=
  if cs.isEmpty then s
  else
    let x := cs.foldl (fun x c => Tile.accPut x c.1 c.2.1) (s.tile t)
    let x := (List.range 256).foldl (fun x r =>
      let mine := cs.filter fun c => c.1 / 128 == r
      if mine.isEmpty then x
      else Tile.setRowPois x r (rowPoisAfter (Tile.rowPois x r) (mine.any fun c => c.2.2)
        ((List.range 128).all fun i => mine.any fun c => c.1 == r * 128 + i) true)) x
    (s.setTile t x).syncPois t

/-- Instruction word i as a fetch reads it; none when a byte of it is poisoned or was never written. -/
def Tile.word (x : Tile) (i : Nat) : Option Nat :=
  let bs := (List.range 8).map fun k => (x.classOf (0x1F0000 + 8 * i + k)).value
  if anyPois bs then none else some (valOf bs)

/-- Note the instruction words that an n-byte write at off writes over (R151). -/
def Tile.noteWords (x : Tile) (off n : Nat) : Tile :=
  if off + n ≤ 0x1F0000 ∨ n = 0 then x
  else
    let lo := (max off 0x1F0000 - 0x1F0000) / 8
    let hi := (off + n - 1 - 0x1F0000) / 8
    { x with olds := ((List.range (hi + 1 - lo)).map fun k => (lo + k, x.word (lo + k))).foldl (fun l o => if l.contains o then l else l ++ [o]) x.olds }

/-- Write bytes at a window offset of bank or accumulator file. -/
def State.winWrite (s : State) (t off : Nat) (bs : List (Nat × Bool)) : State :=
  if off < 0x200000 then
    let s := s.modTile t fun x => (x.dropBufs off bs.length).noteWords off bs.length
    (bs.zipIdx).foldl (fun s b => State.bankPut s t (off + b.2) b.1) s
  else s.accWrite t (off - 0x200000) bs

/-- Write pieces scattered over a tile's window as one write: window offset and bytes of each (R61, R78). -/
def State.scatter (s : State) (t : Nat) (ps : List (Nat × List (Nat × Bool))) : State :=
  let cells := ps.flatMap fun p => p.2.zipIdx.map fun b => (p.1 + b.2, b.1)
  let s := s.each (cells.filter fun c => decide (c.1 < 0x200000)) fun s c => s.winWrite t c.1 [c.2]
  s.accScatter t ((cells.filter fun c => decide (0x200000 ≤ c.1)).map fun c => (c.1 - 0x200000, c.2))

/-! ## Stacks -/

/-- Channels of a stack's live list, ascending (R222). -/
def State.liveList (s : State) (st : Nat) : List Nat := (List.range 32).filter fun c => bitOf (s.fld (SCHMAP_LIVEMAP st)) c

/-- The byte offset within its channel of a stack offset: (g div L) × 4,096 + b (R222). -/
def State.chanOffset (s : State) (st off : Nat) : Nat := off / 4096 / max 1 (s.liveList st).length * 4096 + off % 4096

/-- The channel a stack offset lies in (R222). -/
def State.channelOf (s : State) (st off : Nat) : Nat :=
  let l := s.liveList st
  nth 0 l ((off / 4096) % max 1 l.length)

/-- The channel of an offset is failed (R230). -/
def State.chanFailed (s : State) (st off : Nat) : Bool := bitOf (s.fld (SFAIL_FAILMAP st)) (s.channelOf st off)

/-- A channel fails: cause 0 training, 1 error count (R230). -/
def State.failChannel (s : State) (st ch cause : Nat) : State :=
  if bitOf (s.fld (SFAIL_FAILMAP st)) ch then s
  else
    ((s.orFld (SFAIL_FAILMAP st) (2 ^ ch)).report (halfOfStack st) 0x21 2 (srcOf 1 st) 0 (ch + cause * 256)).failWarn 2

/-- A byte of stack memory; a byte never written since initialisation reads 0 (R228). -/
def State.stkByte (s : State) (d : Nat) : Nat := (SMap.get (fun _ => 0) s.stk d : BitVec 8).toNat

/-- Mark of the half-granule that holds a device address (R226). -/
def State.markOf (s : State) (d : Nat) : Nat := SMap.get (fun _ => 0) s.stkMark (d / 32)

/-- Check one half-granule of a read (R226, R230): whether its bytes are poisoned. -/
def State.checkHalf (s : State) (d : Nat) : Bool × State :=
  let st := d / 0x1000000000
  let off := d % 0x1000000000
  if s.chanFailed st off then (true, s)
  else
    match s.markOf d with
    | 0 => (false, s)
    | 1 => (false, (s.bump (SCECNT_CE st) 1).bucket (2 + st))
    | 2 =>
      let ch := s.channelOf st off
      let s := (s.bump (SCECNT_UE st) 1).report (halfOfStack st) 0x20 2 (srcOf 1 st) (d / 32 * 32) ch
      let old := SMap.get (fun _ => []) (s.stackU st).ue ch
      let times := (s.clk :: old).take 16
      let s := s.modStack st fun x => { x with ue := SMap.set (fun _ => []) x.ue ch times }
      (true, if times.length = 16 ∧ s.clk - nth 0 times 15 ≤ 1000000000 then s.failChannel st ch 1 else s)
    | _ => (true, s)

/-- Fetch one 64-byte granule: both halves are checked, whichever bytes are asked for (R224, R226). -/
def State.stkGranule (s : State) (g : Nat) : List (Nat × Bool) × State :=
  let a := s.checkHalf (g * 64)
  let b := a.2.checkHalf (g * 64 + 32)
  ((List.range 64).map fun i => (s.stkByte (g * 64 + i), if i < 32 then a.1 else b.1), b.2)

/-- Fetch granules g, g+1, … in order. -/
def State.stkGranules (s : State) (g : Nat) : Nat → List (Nat × Bool) × State
  | 0 => ([], s)
  | n + 1 =>
    let a := s.stkGranule g
    let b := a.2.stkGranules (g + 1) n
    (a.1 ++ b.1, b.2)

/-- Count the PHY-side bursts of one row of n bytes: one for each aligned 2 KiB touched, in the stack that holds it (R225, R245). -/
def State.countBurst (s : State) (d n : Nat) : State :=
  if n = 0 then s
  else
    s.each (List.range ((d + n - 1) / 0x1000000000 - d / 0x1000000000 + 1)) fun s k =>
      let st := d / 0x1000000000 + k
      let lo := max d (stackBase st)
      let hi := min (d + n) (stackBase (st + 1)) - 1
      (s.bump (SBURST_BURSTS st) (hi / 2048 - lo / 2048 + 1)).bump (SBURST_GRANS st) (hi / 64 - lo / 64 + 1)

/-- Read n bytes of stack memory at any alignment (R224). -/
def State.stkRead (s : State) (d n : Nat) : List (Nat × Bool) × State :=
  if n = 0 then ([], s)
  else
    let g := d / 64
    let r := s.stkGranules g ((d + n - 1) / 64 - g + 1)
    ((r.1.drop (d % 64)).take n, r.2)

/-- Replace the bytes of one half-granule: any poisoned byte stores the poison marker over the whole half (R227); a write
to a failed channel is discarded (R230). -/
def State.stkPutHalf (s : State) (d : Nat) (bs : List (Nat × Bool)) : State :=
  if s.chanFailed (d / 0x1000000000) (d % 0x1000000000) then s
  else if anyPois bs then { s with stkMark := SMap.set (fun _ => 0) s.stkMark (d / 32) 3 }
  else
    { s with
      stk := SMap.setList (fun _ => 0) s.stk d (bs.map fun b => BitVec.ofNat 8 b.1)
      stkMark := SMap.set (fun _ => 0) s.stkMark (d / 32) 0 }

/-- Write whole half-granules from a 32-byte aligned address; n bounds how many. -/
def State.stkPut (s : State) (d : Nat) : Nat → List (Nat × Bool) → State
  | 0, _ => s
  | n + 1, bs => (s.stkPutHalf d (bs.take 32)).stkPut (d + 32) n (bs.drop 32)

/-- Write n bytes of stack memory; the caller has checked R223 (64-byte granules). -/
def State.stkWrite (s : State) (d : Nat) (bs : List (Nat × Bool)) : State := s.stkPut d (bs.length / 32) bs

/-- Some granule of a range lies in a failed channel (R230). -/
def State.hitsFailed (s : State) (d n : Nat) : Bool :=
  n != 0 && (List.range ((d + n - 1) / 4096 - d / 4096 + 1)).any fun i =>
    s.chanFailed (d / 0x1000000000) ((d + i * 4096) % 0x1000000000)

/-! ## Memory of the device, by device address -/

/-- Every byte of a range is memory: bank, accumulator file or stack (R173); an empty range is judged by its first byte. The
conditions are those of State.place, taken over the whole range. -/
def State.isMem (s : State) (d n : Nat) : Bool :=
  let e := d + max n 1
  if d < 0x8000000000 then
    decide (e ≤ 0x8000000000) && (List.range 8).all fun st =>
      decide (e ≤ stackBase st) || decide (stackBase (st + 1) ≤ d)
        || (s.stackOk st (min (e - 1) (stackBase (st + 1) - 1) - stackBase st))
  else if tileBase 0 ≤ d ∧ d < tileBase 2048 then
    let t := (d - tileBase 0) / 0x400000
    let o := (d - tileBase 0) % 0x400000
    let q := o + max n 1
    !(s.half1Gone && decide (1024 ≤ t)) && decide (q ≤ 0x208000) && (decide (q ≤ s.scBase t) || decide (0x1F0000 ≤ o))
  else false

/-- Some byte of a range lies in a register range (R173). -/
def inRegs (d n : Nat) : Bool :=
  decide (0x020000000000 ≤ d + n - 1) || (decide (tileBase 0 ≤ d) && decide ((d - tileBase 0) % 0x400000 + n > 0x300000) && decide (d < tileBase 2048))

/-- Read memory: stacks by granules, tiles by bytes. -/
def State.memRead (s : State) (d n unit : Nat) : List (Nat × Bool) × State :=
  if d < 0x8000000000 then s.stkRead d n
  else
    readMany (fun s x => s.winByte ((x - tileBase 0) / 0x400000) ((x - tileBase 0) % 0x400000) unit) s
      ((List.range n).map fun i => d + i)

/-- Write memory. A tile range that crosses from the bank into the accumulator file is written in two parts. -/
def State.memWrite (s : State) (d : Nat) (bs : List (Nat × Bool)) : State :=
  if d < 0x8000000000 then s.stkWrite d bs
  else
    let t := (d - tileBase 0) / 0x400000
    let o := (d - tileBase 0) % 0x400000
    if o < 0x200000 ∧ 0x200000 < o + bs.length then
      (s.winWrite t o (bs.take (0x200000 - o))).winWrite t 0x200000 (bs.drop (0x200000 - o))
    else s.winWrite t o bs

/-- Window offset of an address in tile t's own window. -/
def State.ownOff (s : State) (t a : Nat) : Option Nat :=
  if s.isLocal a ∧ tileBase t ≤ addrDev a ∧ addrDev a < tileBase (t + 1) then some (addrDev a - tileBase t) else none

/-- The part of a range of this device that lies in tile t's own window, as a tracked range (R153). -/
def State.ownRng (s : State) (t a n : Nat) : List Rng :=
  let lo := max (addrDev a) (tileBase t)
  let hi := min (addrDev a + n) (tileBase (t + 1))
  if s.isLocal a ∧ lo < hi then [⟨lo - tileBase t, hi - lo⟩] else []

/-! ## Who may write (R393, R394, R458) -/

/-- PF 0 and firmware contexts. -/
def State.pfOrFw (s : State) (c : Nat) : Bool := c == 0 || s.isFw c

/-- These and training contexts. -/
def State.trainMay (s : State) (c : Nat) : Bool := s.pfOrFw c || match s.ctxCfg c with
  | some k => k.training
  | none => false

/-- A write refused with the address fault (R161). -/
def State.refuse (s : State) (a c : Nat) : State := s.extFault a 5 (srcOf 5 c)

end Sys2Proof.Machine
end

