-- ==== Sys2Proof/Machine/ErrorLog.lean ====
section
/-! DEFINITION. The error log's rings, the leaky buckets' leak, the checker test and the end of marking (R202, R210 to R216). -/

namespace Sys2Proof.Machine

/-- First word index of entry i of ring h (R220). -/
def errWord (h i : Nat) : Nat := h * 2048 + i % 512 * 4

/-- The 32 bytes of entry i of ring h. -/
def State.errEntry (s : State) (h i : Nat) : List Nat := s.tblBytes (aERRLOG (errWord h i)) 32

/-- Entry bytes (Table 6.6). -/
def errBytes (r : Report) (count lastdt : Nat) : List Nat :=
  leBytes 8 r.time ++ leBytes 8 r.addr ++ [r.typ, r.sev] ++ leBytes 2 r.src ++ leBytes 2 count ++ [0, 0] ++ leBytes 4 r.detail
    ++ leBytes 4 lastdt

/-- A report is identical to an entry and comes within 1 ms of its FIRST (R215). -/
def errSame (r : Report) (e : List Nat) : Bool :=
  le e 16 1 == r.typ && bitsOf (le e 17 1) 0 4 == r.sev && le e 18 2 == r.src && le e 8 8 == r.addr && le e 24 4 == r.detail
    && decide (le e 0 8 ≤ r.time) && decide (r.time - le e 0 8 ≤ 1000000)

/-- Entries of a ring eligible for coalescing, newest first (R215). -/
def State.errNewest (s : State) (h : Nat) : List Nat :=
  let wp := s.fld (ERRPTR_WP h)
  let n := (wp + 1024 - s.fld (ERRPTR_RP h)) % 1024
  (List.range (min n 16)).map fun k => (wp + 1023 - k) % 1024

/-- Where a report goes in its ring: the entry that takes it (R215), or the next one. -/
def State.errSlot (s : State) (r : Report) : Nat :=
  (((s.errNewest r.half).find? fun i => errSame r (s.errEntry r.half i)).getD (s.fld (ERRPTR_WP r.half))) % 512

/-- Enter a report in its ring (R213, R215, R216). -/
def State.enterReport (s : State) (r : Report) : State :=
  let h := r.half
  match (s.errNewest h).find? fun i => errSame r (s.errEntry h i) with
  | some i =>
    let e := s.errEntry h i
    s.tblPut (aERRLOG (errWord h i))
      (errBytes { r with time := le e 0 8 } (satAdd 65535 (le e 20 2) 1) (min 4294967295 ((r.time - le e 0 8) / 1000)))
  | none =>
    let wp := s.fld (ERRPTR_WP h)
    if (wp + 1024 - s.fld (ERRPTR_RP h)) % 1024 = 512 then
      let s := if h = 0 then s.bump ERRLOST_LOST0 1 else s.bump ERRLOST_LOST1 1
      if h = 0 then s.setFld GERRSTAT_OVF0 1 else s.setFld GERRSTAT_OVF1 1
    else (s.tblPut (aERRLOG (errWord h wp)) (errBytes r 1 0)).setFld (ERRPTR_WP h) ((wp + 1) % 1024)

/-- ERROR_REPORT (R213, R215): the oldest report waiting enters its ring. A bucket's overflow raises the error interrupt whether its report
takes an entry, joins one or is lost; for a lost one the event names the index of the entry it would have taken (R211; log entry 92). -/
def execErrorReport (s : State) : Host.Outcome State Fault Refusal :=
  .next (match s.reports with
    | [] => s
    | r :: rs =>
      let s := { s with reports := rs }
      if r.typ = 4 then (s.enterReport r).devError r.half (s.errSlot r) else s.enterReport r)

/-- A write of RP of ring h (R216): never beyond WP. -/
def State.errRp (s : State) (h rp : Nat) : State :=
  let wp := s.fld (ERRPTR_WP h)
  let old := s.fld (ERRPTR_RP h)
  s.setFld (ERRPTR_RP h) (if (rp + 1024 - old) % 1024 ≤ (wp + 1024 - old) % 1024 then rp % 1024 else wp)

/-- ERROR_LOG_RP_WRITE (R216). -/
def execErrorLogRpWrite (h : Nat) (rp : Nat) (s : State) : Host.Outcome State Fault Refusal :=
  .next (if h < 2 then s.errRp h (rp % 1024) else s)

/-- LEAK_TICK (R210): the tick of class k (0 halves, 1 stacks) that fell when TBTIME crossed a multiple of the interval is applied; where
none has fallen nothing happens. -/
def execLeakTick (k : Nat) (s : State) : Host.Outcome State Fault Refusal := .next (s.leakDue k)

/-- A write of TFLIP (R212). -/
def State.tflip (s : State) (t v : Nat) : State :=
  let s := ((s.setFld (TFLIP_ADDR t) (bitsOf v 0 21)).setFld (TFLIP_DMASK t) (bitsOf v 21 8)).setFld (TFLIP_CMASK t) (bitsOf v 29 5)
  if bitOf v 34 then s.setFld (TFLIP_PEND t) 1 else s

/-- TFLIP_ARM (R202, R212): v is written to tile t's TFLIP. -/
def execTflipArm (t : Nat) (v : BitVec 64) (s : State) : Host.Outcome State Fault Refusal :=
  .next (if t < 2048 then s.windowPut t (aTFLIP t) fun s => s.tflip t v.toNat else s)

/-- MARKING_DONE (R202): every byte of the bank holds the unwritten marker and the window takes writes again. In arbitration hold SRAM
is not written (R45). -/
def execMarkingDone (t : Nat) (s : State) : Host.Outcome State Fault Refusal :=
  .next (if (s.tile t).marking ∧ s.boot ≠ .hold then s.modTile t fun x => { x with marking := false, bank := [] } else s)

end Sys2Proof.Machine
end

