-- ==== Sys2Proof/Machine/Arb.lean ====
section
/-! DEFINITION. Arbitration between the halves: attempts, the claim pair, verdicts, commit, hold (R38 to R48, R496, R497). -/

namespace Sys2Proof.Machine

/-- The strap value whose window holds a median code (Table 16.10); none outside every window. -/
def strapDecode (code : Nat) : Option Nat := (List.range 16).find? fun i => if i = 15 then code == 61 || code == 62
  else decide (4 * i + 1 ≤ code) && decide (code ≤ 4 * i + 3)

/-- The primary half a strap value names. -/
def strapHalf (v : Nat) : Nat := v % 2
/-- The slot a strap value names first. -/
def strapSlot (v : Nat) : Nat := v / 2 % 2

/-- Send a management-channel message to half h. -/
def State.mgmtSend (s : State) (h : Nat) (m : Mgmt) : State := { s with mgmt := s.mgmt ++ [(h, m)] }

/-- Take the oldest message for half h that satisfies f. -/
def State.mgmtTake (s : State) (h : Nat) (f : Mgmt → Bool) : Option (Mgmt × State) :=
  match s.mgmt.find? fun m => m.1 == h && f m.2 with
  | some m => some (m.2, { s with mgmt := s.mgmt.erase m })
  | none => none

/-- Half h enters arbitration hold and says so (R42, R45). -/
def State.enterHold (s : State) (h : Nat) : State :=
  if (s.half h).role = .hold then s
  else
    let s := (s.modHalf h fun x => { x with role := .hold, phase := .idle }).mgmtSend (1 - h) .hold
    let s := ((s.setFld GSTAT_ARBHOLD 1).setFld GARB_ATTEMPT s.attempt).setFld GARB_CAUSE s.h0.cause
    { s with alert := true, boot := .hold }

/-- Half h records a cause, unless it has found one in this attempt (R41). -/
def Half.blame (x : Half) (cause : Nat) : Half := { x with cause := if x.cause = 0 then cause else x.cause }

/-- Half h fails the attempt; the failure of attempt 3 leads to hold (R45). -/
def State.arbFail (s : State) (h cause : Nat) : State :=
  let s := s.modHalf h fun x => { x.blame cause with phase := .idle }
  if s.attempt = 3 then s.enterHold h else s

/-- Attempt k starts: Half 0 converts the strap, Half 1 waits for STRAP (R39, R40). -/
def State.attemptStart (s : State) (k : Nat) : State :=
  { s with
    h0 := { Half.reset with phase := .converting }
    h1 := { Half.reset with phase := .waitStrap }
    mgmt := []
    attempt := k
    strap := none }

/-- ARBITRATION_ATTEMPT (R39): the next attempt starts, 30 ms after the one before. -/
def execArbitrationAttempt (s : State) : Host.Outcome State Fault Refusal :=
  .next (if s.boot = .arbitrating ∧ s.attempt < 3 then
    ({ s with arbFails := s.arbFails ++ [(s.attempt, s.h0.cause)] }).attemptStart (s.attempt + 1)
  else s)

/-- STRAP_CONVERSION_DONE (R40, R496): the median code is decoded and STRAP sent; adcOk is false for an ADC fault. -/
def execStrapConversionDone (code : Nat) (adcOk : Bool) (s : State) : Host.Outcome State Fault Refusal :=
  .next (if s.h0.phase ≠ .converting ∨ s.h0.role = .hold then s
  else
    let v := if adcOk then strapDecode (code % 64) else none
    let s := ({ s with strap := v }).modHalf 0 fun x => { x with phase := .waitAck }
    let s := ((s.setFld GARB_STRAPADC code).setFld GARB_STRAPVAL (v.getD 0)).setFld GARB_STRAPHALF (strapHalf (v.getD 0))
    s.mgmtSend 1 (.strap v))

/-- Half h forms its intent, drives its claim wire and sends CLAIM. -/
def State.claim (s : State) (h : Nat) (intent : Bool) : State :=
  (s.modHalf h fun x => { x with phase := .claimed, intent := intent, wire := intent }).mgmtSend (1 - h) (.claim intent)

/-- STRAP (R40): the Half 1 MGC receives the value, acknowledges it and claims. -/
def execStrap (s : State) : Host.Outcome State Fault Refusal :=
  .next (if s.h1.phase ≠ .waitStrap ∨ s.h1.role = .hold then s
  else match s.mgmtTake 1 fun m => match m with
      | .strap _ => true
      | _ => false with
    | some (.strap v, s) => (s.mgmtSend 0 .strapAck).claim 1 (v.isSome && strapHalf (v.getD 0) == 1)
    | _ => s)

/-- STRAP_ACK (R40): the Half 0 MGC receives the acknowledgement and claims. An unreadable strap names Half 0 (R44). -/
def execStrapAck (s : State) : Host.Outcome State Fault Refusal :=
  .next (if s.h0.phase ≠ .waitAck ∨ s.h0.role = .hold then s
  else match s.mgmtTake 0 fun m => m == .strapAck with
    | some (_, s) => s.claim 0 (match s.strap with
      | some v => strapHalf v == 0
      | none => true)
    | none => s)

/-- A half with both verdicts goes on to COMMIT, or fails the attempt: cause 5 when only the other's is failure. -/
def State.conclude (s : State) (h : Nat) : State :=
  match (s.half h).verdict, (s.half h).peerVerdict with
  | some true, some true =>
    if (s.half h).intent then (s.modHalf h fun x => { x with phase := .committing }).mgmtSend (1 - h) .commit
    else s.modHalf h fun x => { x with phase := .waitCommit }
  | some _, some _ => s.arbFail h 5
  | _, _ => s

/-- A verdict is reached and sent. -/
def State.judge (s : State) (h cause : Nat) : State :=
  let s := s.modHalf h fun x => { (if cause = 0 then x else x.blame cause) with phase := .judged, verdict := some (cause == 0) }
  (s.mgmtSend (1 - h) (.verdict (cause == 0))).conclude h

/-- Judge once the sampled wire and the other's CLAIM are known: the wire disagrees, both intend, or neither does. -/
def State.judgeIf (s : State) (h : Nat) : State :=
  let x := s.half h
  match x.phase, x.sampled, x.peerClaim with
  | .claimed, some w, some c => s.judge h (if w != c then 3 else if x.intent && c then 1 else if !x.intent && !c then 2 else 0)
  | _, _, _ => s

/-- CLAIM (R40): half h receives the other half's CLAIM. -/
def execClaim (h : Nat) (s : State) : Host.Outcome State Fault Refusal :=
  .next (if 2 ≤ h ∨ (s.half h).role = .hold then s
  else match s.mgmtTake h fun m => match m with
      | .claim _ => true
      | _ => false with
    | some (.claim i, s) => (s.modHalf h fun x => { x with peerClaim := some i }).judgeIf h
    | _ => s)

/-- CLAIM_SAMPLE (R40): half h samples the other's claim wire and finds the level wire. -/
def execClaimSample (h : Nat) (wire : Bool) (s : State) : Host.Outcome State Fault Refusal :=
  .next (if 2 ≤ h ∨ (s.half h).role = .hold ∨ (s.half h).phase ≠ .claimed ∨ (s.half h).sampled.isSome then s
  else (s.modHalf h fun x => { x with sampled := some wire }).judgeIf h)

/-- VERDICT (R40, R41): half h receives the other's verdict. -/
def execVerdict (h : Nat) (s : State) : Host.Outcome State Fault Refusal :=
  .next (if 2 ≤ h ∨ (s.half h).role = .hold then s
  else match s.mgmtTake h fun m => match m with
      | .verdict _ => true
      | _ => false with
    | some (.verdict v, s) =>
      let s := s.modHalf h fun x => { x with peerVerdict := some v }
      if (s.half h).phase = .judged then s.conclude h else s
    | _ => s)

/-- The half that does not intend: the one with a role to take on COMMIT. -/
def State.commitHalf (s : State) : Nat := if (s.mgmt.any fun m => m.1 == 0 && m.2 == .commit) then 0 else 1

/-- COMMIT (R40, R42): the other half takes the secondary role and answers ACK; a resent COMMIT is answered again. -/
def execCommit (s : State) : Host.Outcome State Fault Refusal :=
  let h := s.commitHalf
  .next (if (s.half h).role = .hold then s
  else match s.mgmtTake h fun m => m == .commit with
    | some (_, s) =>
      if (s.half h).phase = .waitCommit ∨ (s.half h).role = .secondary then
        (s.modHalf h fun x => { x with role := .secondary, phase := .idle }).mgmtSend (1 - h) .ack
      else s
    | none => s)

/-- Primacy is settled with half h (R40, R43, R44): the image read starts. -/
def State.settle (s : State) (h : Nat) : State :=
  let s := s.modHalf h fun x => { x with role := .primary, phase := .idle }
  let s := ((s.setFld GSTAT_PRIM h).setFld GARB_ATTEMPT s.attempt).setFld GARB_CAUSE 0
  let s := if s.strap.isNone then (s.setFld GSTAT_STRAPBAD 1).primReport 0xA5 1 0 (s.fld GARB_STRAPADC) else s
  let s := s.each s.arbFails fun s f => s.primReport 0xA6 1 0 (f.1 + 4 * f.2)
  { s with boot := .reading, arbFails := [], imgSlot := some (strapSlot (s.strap.getD 0)) }

/-- ACK (R40): the intending half takes primacy. -/
def execAck (s : State) : Host.Outcome State Fault Refusal :=
  let h := if s.h0.phase = .committing then 0 else 1
  .next (if (s.half h).phase ≠ .committing ∨ (s.half h).role = .hold then s
  else match s.mgmtTake h fun m => m == .ack with
    | some (_, s) => s.settle h
    | none => s)

/-- ABORT (R42): a half that took the secondary role in this attempt returns to arbitration. -/
def execAbort (s : State) : Host.Outcome State Fault Refusal :=
  let h := if (s.mgmt.any fun m => m.1 == 0 && m.2 == .abort) then 0 else 1
  .next (if (s.half h).role = .hold then s
  else match s.mgmtTake h fun m => m == .abort with
    | some (_, s) => s.modHalf h fun x => { x with role := if x.role = .secondary then .arbitrating else x.role, phase := .idle }
    | none => s)

/-- HOLD (R42): a half that receives HOLD enters hold at once. -/
def execHold (h : Nat) (s : State) : Host.Outcome State Fault Refusal :=
  .next (if 2 ≤ h then s
  else match s.mgmtTake h fun m => m == .hold with
    | some (_, s) => s.enterHold h
    | none => s)

/-- ARBITRATION_TIMEOUT (R40 to R42): the message half h waits for has not come in 100 us. -/
def execArbitrationTimeout (h : Nat) (s : State) : Host.Outcome State Fault Refusal :=
  .next (if 2 ≤ h ∨ (s.half h).role = .hold then s
  else match (s.half h).phase with
    | .waitAck => s.arbFail h 4
    | .claimed => s.judge h 4
    | .judged => s.arbFail h 4
    | .waitCommit => s.arbFail h 4
    | .committing =>
      if (s.half h).resends < 3 then (s.modHalf h fun x => { x with resends := x.resends + 1 }).mgmtSend (1 - h) .commit
      else (s.arbFail h 4).mgmtSend (1 - h) .abort
    | _ => s)

/-- STRAP_TIMEOUT (R42): no STRAP within 300 us of the attempt's start. -/
def execStrapTimeout (s : State) : Host.Outcome State Fault Refusal :=
  .next (if s.h1.phase = .waitStrap ∧ s.h1.role ≠ .hold then s.arbFail 1 4 else s)

/-- CONFIGURATION_TRAFFIC_TIMEOUT (R42): once primacy is settled, 200 ms pass for half h without configuration traffic (the
secondary) or without its acknowledgement (the primary). After the image is applied nothing more is sent (R493). -/
def execConfigurationTrafficTimeout (h : Nat) (s : State) : Host.Outcome State Fault Refusal :=
  .next (if 2 ≤ h ∨ !((s.half h).role == .primary || (s.half h).role == .secondary)
      || !(s.boot == .reading || s.boot == .accepted || s.boot == .applying || s.boot == .arbitrating || s.boot == .hold) then s
    else s.enterHold h)

end Sys2Proof.Machine
end

