-- ==== Sys2Proof/Machine/Remote.lean ====
section
/-! DEFINITION. Requests to other devices: read tags, READ and WRITE packets, and what their answers leave (R267, R268, R272
to R274). -/

namespace Sys2Proof.Machine

/-- Split n bytes at address a into pieces that cross no 4,096-byte boundary; k bounds the pieces (R267). -/
def split4k : Nat → Nat → Nat → List (Nat × Nat)
  | 0, _, _ => []
  | k + 1, a, n =>
    if n = 0 then []
    else
      let m := min n (4096 - a % 4096)
      (a, m) :: split4k k (a + m) (n - m)

/-- The pieces of a range. -/
def pieces (a n : Nat) : List (Nat × Nat) := split4k (n / 4096 + 2) a n

/-- PMASK of a payload (R268). -/
def pmaskOf (bs : List (Nat × Bool)) : Nat :=
  ((List.range 64).map fun g => if anyPois ((bs.drop (64 * g)).take 64) then 2 ^ g else 0).sum

/-- Payload bytes with their poison marks (R268). -/
def pktData (p : Pkt) : List (Nat × Bool) := (p.data.zipIdx).map fun b => (b.1, bitOf p.pmask (b.2 / 64))

/-- A read tag neither outstanding nor quarantined (R272). -/
def State.freeTag (s : State) : Option Nat :=
  (List.range 4096).find? fun k => !(s.reads.any fun r => r.tag == k && r.st == 0) && !s.quar.contains k

/-- Send a READ for len bytes at (dst, addr): the request's identifier; none when no tag is free (R272). A READ without a
route is answered NOROUTE (R274). -/
def State.farRead (s : State) (src dst addr len : Nat) : Option Nat × State :=
  match s.freeTag with
  | none => (none, s)
  | some tag =>
    let gen := (SMap.get (fun _ => 0) s.tagGen tag + 1) % 256
    let s := { s with tagGen := SMap.set (fun _ => 0) s.tagGen tag gen }
    let id := s.newId
    let s := id.2
    let ok := (s.routePort dst).isSome
    let r : FarRead := ⟨id.1, tag, gen, dst, addr, len, if ok then 0 else 3, if ok then 0 else 3, [], src⟩
    (some id.1, ({ s with reads := s.reads ++ [r] }).sendPkt (mkPkt 1 2 dst addr len tag gen))

/-- The record of a request. -/
def State.readOf (s : State) (rid : Nat) : Option FarRead := s.reads.find? fun r => r.rid == rid

/-- Forget requests that have been consumed. -/
def State.dropReads (s : State) (rids : List Nat) : State := { s with reads := s.reads.filter fun r => !rids.contains r.rid }

/-- Send one WRITE (R267, R268): the write's identifier, or none when it had no route and is answered NOROUTE (R274). TAG and
TGEN carry the identifier, which the WRACK returns. -/
def State.farWrite (s : State) (src tile kind dst addr : Nat) (bs : List (Nat × Bool)) (dtk : Nat) (dtken : Bool) : Option Nat × State :=
  let id := s.newId
  let s := id.2
  let tag := id.1 % 4096
  let gen := id.1 / 4096 % 256
  let p := { mkPkt 0 1 dst addr bs.length tag gen with data := bs.map (·.1), pmask := pmaskOf bs, dtk := dtk, dtken := dtken }
  let w : FarWrite := ⟨id.1, dst, tag, tile, kind, addr, gen, src⟩
  if (s.routePort dst).isSome then (some id.1, let s := { s with writes := s.writes ++ [w] }
    if kind = 2 then s.collOut none p else s.sendPkt p)
  else (none, s.sendPkt p)

/-- Send a range as WRITE packets, the last one carrying the token (R267): identifiers, and whether every one had a route. -/
def State.farWrites (s : State) (src tile kind dst : Nat) (dtk : Nat) (dtken : Bool) :
    List (Nat × Nat) → List (Nat × Bool) → (List Nat × Bool) × State
  | [], _ => (([], true), s)
  | p :: ps, bs =>
    let w := s.farWrite src tile kind dst p.1 (bs.take p.2) dtk (dtken && ps.isEmpty)
    let r := w.2.farWrites src tile kind dst dtk dtken ps (bs.drop p.2)
    ((w.1.toList ++ r.1.1, w.1.isSome && r.1.2), r.2)

/-- A completion status as a transfer status (R267). -/
def cstToStatus : Nat → Nat
  | 0 => 0
  | 1 => 1
  | 2 => 7
  | 4 => 2
  | _ => 8

/-- Transfer status of an ended remote read: timeout, or the answer's completion status. -/
def FarRead.status (r : FarRead) : Nat := if r.st = 2 then 4 else cstToStatus r.cst

end Sys2Proof.Machine
end

