-- ==== Sys2Proof/Machine/Receive.lean ====
section
/-! DEFINITION. What every packet that arrives meets before its own operation: its turn, the checks of R266, forwarding, the credits it frees
(R257, R261, R262, R266, R269, R270, R274, R289). -/

namespace Sys2Proof.Machine

/-- A report of a Miltum port. -/
def State.portReport (s : State) (p typ sev detail : Nat) : State := s.report (halfOfPort p) typ sev (srcOf 3 p) 0 detail

/-! ## Answers and forwarding -/

/-- Answer a packet with its acknowledgement (R267, R295). -/
def State.ackPkt (s : State) (p : Pkt) (cst : Nat) : State :=
  s.sendPkt { mkPkt 1 4 p.srank p.addr 0 p.tag p.tgen with cst := cst }

/-- A packet's answer when it cannot be delivered: RDCPL to a READ, WRACK to a WRITE and what is answered as one. -/
def State.answerBad (s : State) (p : Pkt) (cst : Nat) : State :=
  match p.opc with
  | 2 => s.sendPkt { mkPkt 0 3 p.srank p.addr 0 p.tag p.tgen with cst := cst }
  | 1 => s.ackPkt p cst
  | 5 => s.sendPkt { mkPkt 2 6 p.srank p.addr 0 p.tag p.tgen with cst := cst }
  | 9 => s.ackPkt p cst
  | 10 => s.ackPkt p cst
  | _ => s

/-- Forward a packet that arrived on a port and is not for this device. -/
def State.forward (s : State) (port : Nat) (p : Pkt) : State :=
  let bad := fun (s : State) (cause : Nat) => ((s.emit (.drop cause p)).portReport port 0x47 1 (cause + p.drank * 256)).answerBad p 3
  if p.hops = 0 then bad s 4
  else
    match s.routePort p.drank with
    | none => bad s 1
    | some q => if pktMinor p ≤ s.fld (FPSTAT_VER q) then s.txPacket q { p with hops := p.hops - 1 } else bad s 2

/-! ## Reserved fields (R14, R266) -/

/-- The records of a SIGNAL payload: one pre-round record with its bytes, or records of 16 bytes each (R289, R296). -/
def sigRecords (data : List Nat) : List (List Nat) :=
  if bitOf (le data 1 1) 7 then [data] else (List.range (ceilDiv data.length 16)).map fun i => (data.drop (16 * i)).take 16

/-- A signal record has the reserved PHASE 3 or a non-zero reserved field (Table 9.2). -/
def sigRecBad (r : List Nat) : Bool :=
  bitsOf (le r 1 1) 4 2 == 3 || le r 6 2 != 0 || (bitOf (le r 1 1) 7 && bitsOf (le r 8 8) 33 31 != 0)

/-- A reserved encoding or reserved field that a packet's operation gives its payload or its ADDR: records of SIGNAL, payload bytes 18 to 39
of RRESET (R276), KIND of DISP (Table 11.2). -/
def pktReserved (p : Pkt) : Bool :=
  match p.opc with
  | 7 => (sigRecords p.data).any sigRecBad
  | 8 => ((p.data.drop 18).take 22).any (· != 0)
  | 10 => if bitsOf p.addr 12 1 = 0 then decide (2 ≤ bitsOf p.addr 14 2) else bitsOf p.addr 14 2 != 0
  | _ => false

/-- A packet breaks R266. -/
def pktMalformed (p : Pkt) : Bool := p.rsv || vcOf p.opc != some p.vc || pktReserved p

/-! ## Taking what has arrived (R261, R262) -/

/-- Flits of a packet are freed: their credits go back to the sender (R262). -/
def State.freeCredits (s : State) (port : Nat) (p : Pkt) : State :=
  s.modPort port fun x => { x with ret := setNth x.ret p.vc (nth 0 x.ret p.vc + (pktFlits p).length) }

/-- The packet may be taken: packets of one VC of a link are delivered in the order sent, so of those the port holds only the first of its VC
may. A packet row whose VC the port holds nothing of stands for the arrival itself (log entry 92). -/
def State.rxTurn (s : State) (port : Nat) (p : Pkt) : Bool :=
  match (s.port port).inbox.find? fun q => q.vc == p.vc with
  | some q => q == p
  | none => true

/-- A packet leaves what the port has received, or the mesh for one of this device to itself. -/
def State.rxTake (s : State) (port : Nat) (p : Pkt) : State :=
  if s.mesh.contains p then { s with mesh := s.mesh.erase p }
  else if (s.port port).inbox.contains p then (s.modPort port fun x => { x with inbox := x.inbox.erase p }).freeCredits port p
  else s

/-- The part every packet row shares: in its turn the packet is taken; a malformed one is discarded and logged, one for another device is
forwarded, and one for this device with the operation given is handed to f once it is ready. Until then it stays where it is and holds its
credits. -/
def State.rxPacketIf (s : State) (port : Nat) (p : Pkt) (opc : Nat) (ready : Bool) (f : State → State) : State :=
  if p.opc ≠ opc then s
  else if s.mesh.contains p then (if ready then f (s.rxTake port p) else s)
  else if !s.rxTurn port p then s
  else if pktMalformed p then (s.rxTake port p).portReport port 0x47 1 (3 + p.drank * 256)
  else if p.drank ≠ s.rank then (s.rxTake port p).forward port p
  else if ready then f (s.rxTake port p)
  else s

/-- The same for an operation that never waits. -/
def State.rxPacket (s : State) (port : Nat) (p : Pkt) (opc : Nat) (f : State → State) : State := s.rxPacketIf port p opc true f

/-! ## Signal records (R289) -/

/-- A packet holds record r of the device of rank src. -/
def holdsRecord (p : Pkt) (src : Nat) (r : List Nat) : Bool := p.opc == 7 && p.srank == src && (sigRecords p.data).contains r

/-- The first signal-channel packet of an inbox gives up its first record; the packet leaves with its last one. -/
def popSignal : List Pkt → List Pkt
  | [] => []
  | p :: ps => if p.vc ≠ 2 then p :: popSignal ps else if (sigRecords p.data).length ≤ 1 then ps else { p with data := p.data.drop 16 } :: ps

/-- Record r of rank src comes to its row: none while it waits behind others of its link. A record no port holds stands for the arrival
itself (log entry 92). -/
def State.rxRecord (s : State) (src : Nat) (r : List Nat) : Option State :=
  let first := fun (k : Nat) => ((s.port k).inbox.find? fun p => p.vc == 2).filter fun p => holdsRecord p src r && (sigRecords p.data).head? == some r
  if !(List.range 8).any fun k => (s.port k).inbox.any fun p => holdsRecord p src r then some s
  else match (List.range 8).find? fun k => (first k).isSome with
    | none => none
    | some k =>
      let s' := s.modPort k fun x => { x with inbox := popSignal x.inbox }
      some (match first k with
        | some p => if (sigRecords p.data).length ≤ 1 then s'.freeCredits k p else s'
        | none => s')

/-- The part every record row shares: a record with a reserved encoding or field is discarded, logged by the port toward its sender
(log entry 92), and any other is handed to f in its turn. -/
def State.rxSignal (s : State) (src : Nat) (r : List Nat) (f : State → State) : State :=
  match s.rxRecord src r with
  | none => s
  | some s => if sigRecBad r then s.portReport ((s.routePort src).getD 0) 0x47 1 (3 + s.rank * 256) else f s

end Sys2Proof.Machine
end

