-- ==== Sys2Proof/Machine/Signal.lean ====
section
/-! DEFINITION. The signal engines: group records, barriers and reductions over the group tree, held and abandoned
operations (R282 to R292). -/

namespace Sys2Proof.Machine

/-! ## Group records (Table 9.1) -/

/-- The 512 bytes of group record g, VALID as R283 has it read. -/
def State.grpRec (s : State) (g : Nat) : List Nat :=
  (List.range 64).flatMap fun i => leBytes 8 (s.groupOverlay (aFGROUP (g * 64 + i)) (s.reg (aFGROUP (g * 64 + i)))).toNat

/-- NDEV. -/
def gNdev (r : List Nat) : Nat := bitsOf (le r 0 4) 0 17
/-- INDEX. -/
def gIndex (r : List Nat) : Nat := le r 4 2
/-- PRED. -/
def gPred (r : List Nat) : Nat := le r 8 2
/-- SUCC. -/
def gSucc (r : List Nat) : Nat := le r 10 2
/-- PARENT. -/
def gParent (r : List Nat) : Nat := le r 12 2
/-- VALID. -/
def gValid (r : List Nat) : Bool := bitOf (le r 15 1) 0
/-- ROOT. -/
def gRoot (r : List Nat) : Bool := bitOf (le r 15 1) 1
/-- ARRV. -/
def gArrv (r : List Nat) : Bool := bitOf (le r 15 1) 3
/-- The children's ranks, in child-list order. -/
def gKids (r : List Nat) : List Nat := (List.range (bitsOf (le r 14 1) 0 7)).map fun i => le r (16 + 2 * i) 2
/-- Tile t is a member tile. -/
def gMember (r : List Nat) (t : Nat) : Bool := bitOf (le r (144 + t / 8) 1) (t % 8)
/-- The member tiles, ascending. -/
def gTiles (r : List Nat) : List Nat := (List.range 2048).filter (gMember r)
/-- Neighbours told of an abandonment: parent, children, predecessor, successor, each once (R291). -/
def gNeighbours (r : List Nat) : List Nat :=
  ((if gRoot r then [] else [gParent r]) ++ gKids r ++ [gPred r, gSucc r]).dedup

/-! ## Records (Table 9.2) -/

/-- A signal record: phase 0 UP, 1 DOWN, 2 ABANDON. -/
def sigRec (g opk : Nat) (w64 : Bool) (phase : Nat) (bar pre : Bool) (gen cid value : Nat) : List Nat :=
  [g, opk + (if w64 then 8 else 0) + 16 * phase + (if bar then 64 else 0) + (if pre then 128 else 0)]
    ++ leBytes 2 gen ++ leBytes 2 cid ++ [0, 0] ++ leBytes 8 value

/-- GID. -/
def rGid (r : List Nat) : Nat := le r 0 1
/-- OPK. -/
def rOpk (r : List Nat) : Nat := bitsOf (le r 1 1) 0 3
/-- W64. -/
def rW64 (r : List Nat) : Bool := bitOf (le r 1 1) 3
/-- PHASE. -/
def rPhase (r : List Nat) : Nat := bitsOf (le r 1 1) 4 2
/-- BAR. -/
def rBar (r : List Nat) : Bool := bitOf (le r 1 1) 6
/-- PRE. -/
def rPre (r : List Nat) : Bool := bitOf (le r 1 1) 7
/-- GEN. -/
def rGen (r : List Nat) : Nat := le r 2 2
/-- CID. -/
def rCid (r : List Nat) : Nat := le r 4 2
/-- VALUE. -/
def rVal (r : List Nat) : Nat := le r 8 8

/-- Send a record to a rank, one in a SIGNAL packet (R289). -/
def State.sendSig (s : State) (dst : Nat) (r : List Nat) : State :=
  s.sendPkt { mkPkt 2 7 dst 0 r.length 0 0 with data := r }

/-- Abandoned operations by identifier, with a mark once a late item of theirs has been logged. -/
abbrev DeadList := List (Nat × Bool)

/-- One more abandoned operation. -/
def deadAdd (l : DeadList) (k : Nat) : DeadList := l.filter (fun e => e.1 != k) ++ [(k, false)]

/-- The operation is abandoned. -/
def isDead (l : DeadList) (k : Nat) : Bool := l.any fun e => e.1 == k

/-- A late item of group g's generation gen is counted; the first one of an abandoned operation is logged (R291, Table 9.16). -/
def State.lateSig (s : State) (g gen : Nat) : State :=
  let d := (s.grp g).dead
  let s := if d.contains (gen, false) then
      (s.primReport 0x52 0 0 g).modGrp g fun q => { q with dead := d.map fun e => if e.1 == gen then (gen, true) else e }
    else s
  s.bump FCOLLATE_LATE 1

/-! ## Combining (R288) -/

/-- One FP32 step of FSUM: to nearest even, gradual underflow, canonical NaN. -/
def fsumStep (a b : Nat) : Nat :=
  (fp32F.encVec true false .dflt .rne (Val.add (fp32F.decode (a % 2 ^ 32)) (fp32F.decode (b % 2 ^ 32)))).1

/-- Combine two operands (R179, R288). -/
def sigStep (opk : Nat) (w64 : Bool) (a b : Nat) : Nat :=
  let w := if w64 then 64 else 32
  let a := a % 2 ^ w
  let b := b % 2 ^ w
  match opk with
  | 0 => if toIntW w a ≤ toIntW w b then a else b
  | 1 => if toIntW w a ≤ toIntW w b then b else a
  | 2 => (a + b) % 2 ^ w
  | 3 => a ||| b
  | 4 => a &&& b
  | 5 => fsumStep a b
  | 6 => min a b
  | _ => max a b

/-- The combination of a non-empty list in order; an empty list gives the operation's identity. -/
def sigFold (opk : Nat) (w64 : Bool) : List Nat → Nat
  | [] =>
    let w := if w64 then 64 else 32
    match opk with
    | 0 => 2 ^ (w - 1) - 1
    | 1 => 2 ^ (w - 1)
    | 4 => 2 ^ w - 1
    | 6 => 2 ^ w - 1
    | 5 => 2 ^ 31
    | _ => 0
  | v :: vs => vs.foldl (sigStep opk w64) (v % 2 ^ (if w64 then 64 else 32))

/-- The result as written to sD (R179). -/
def sigResult (opk : Nat) (w64 : Bool) (v : Nat) : BitVec 64 :=
  if w64 then BitVec.ofNat 64 v
  else if opk ≤ 2 then BitVec.ofInt 64 (toIntW 32 v) else BitVec.ofNat 64 (v % 2 ^ 32)

/-- The combination of a pending operation: local tiles ascending, then children in list order, or in arrival order for FSUM
under ARRV without determinism (R288), as it stood at the first local issue (R447). -/
def SigPend.combine (p : SigPend) (detm : Bool) : Nat :=
  if p.bar then 0
  else
    let loc := ((List.range 2048).filterMap fun t => (p.vals.find? fun v => v.1 == t).map (·.2))
    let arr := p.opk == 5 && gArrv p.rec_ && !(p.det.getD detm)
    let kid := if arr then p.kids.map (·.2) else (gKids p.rec_).filterMap fun r => (p.kids.find? fun v => v.1 == r).map (·.2)
    sigFold p.opk p.w64 (loc ++ kid)

/-! ## Progress -/

/-- Every local member has issued the operation, or a PERMUTE stands for the device. -/
def SigPend.localIn (p : SigPend) : Bool := p.by_.isSome || ((gTiles p.rec_).all fun t => p.vals.any fun v => v.1 == t)

/-- Every child's UP record is in. -/
def SigPend.kidsIn (p : SigPend) : Bool := (gKids p.rec_).all fun r => p.kids.any fun v => v.1 == r

/-- Write a result to a waiting tile. -/
def State.sigDeliver (s : State) (t gen v : Nat) : State :=
  match (s.tile t).sig with
  | some o => s.modTile t fun x => ({ x with sig := none }).setS o.sd (if o.bar then BitVec.ofNat 64 gen else sigResult o.opk o.w64 v)
  | none => s

/-- The operation ends with a result: DOWN to the children, results to the local members, GEN rises (R287). What a PERMUTE
then does is the collective's (its identifier stays in the answer). -/
def State.sigEnd (s : State) (g : Nat) (p : SigPend) (v : Nat) : Option Nat × State :=
  let gen := (s.grp g).gen
  let s := s.each (gKids p.rec_) fun s r => s.sendSig r (sigRec g p.opk p.w64 1 p.bar false gen 0 v)
  let s := s.each (p.vals.map (·.1)) fun s t => s.sigDeliver t gen v
  (p.by_, s.modGrp g fun q => { q with gen := (gen + 1) % 65536, pend := none, dead := q.dead.filter fun e => e.1 != gen })

/-- When everything due is in: UP to the parent, or at the root the end (R287). -/
def State.sigAdvance (s : State) (g : Nat) : Option Nat × State :=
  match (s.grp g).pend with
  | none => (none, s)
  | some p =>
    if p.up ∨ !p.localIn ∨ !p.kidsIn then (none, s)
    else
      let v := p.combine s.detm
      if gRoot p.rec_ then s.sigEnd g p v
      else
        (none, (s.sendSig (gParent p.rec_) (sigRec g p.opk p.w64 0 p.bar false (s.grp g).gen 0 v)).modGrp g fun q =>
          { q with pend := some { p with up := true } })

/-- Abandon the pending operation (R291): records to the neighbours, traps on waiting members, log, GEN rises. -/
def State.sigAbandon (s : State) (g : Nat) : State :=
  match (s.grp g).pend with
  | none => s
  | some p =>
    let gen := (s.grp g).gen
    let s := s.each (gNeighbours p.rec_) fun s r => s.sendSig r (sigRec g p.opk p.w64 2 p.bar false gen 0 0)
    let s := s.each (p.vals.map (·.1)) fun s t =>
      match (s.tile t).sig with
      | some o => (s.modTile t fun x => { x with sig := none }).raise t 11 true o.idx 0
      | none => s
    let s := (s.primReport 0x51 1 0 (g + gen * 256)).bump FCOLLATE_ABNDN 1
    s.modGrp g fun q => { q with gen := (gen + 1) % 65536, pend := none, dead := deadAdd q.dead gen }

/-- A pending operation of a form, made when the first local operation or child record brings it. -/
def State.sigOpen (s : State) (g : Nat) (bar : Bool) (opk : Nat) (w64 : Bool) : State :=
  if (s.grp g).pend.isSome then s
  else s.modGrp g fun q => { q with pend := some ⟨bar, opk, w64, [], [], false, none, none, s.grpRec g⟩ }

/-- The form of a record or operation agrees with the pending one (R290). -/
def SigPend.agrees (p : SigPend) (bar : Bool) (opk : Nat) (w64 : Bool) : Bool := p.bar == bar && p.opk == opk && p.w64 == w64

/-- A tile issues its operation on group g (R287); a form that differs abandons (R285, R290). -/
def State.sigJoin (s : State) (g t : Nat) (bar : Bool) (opk : Nat) (w64 : Bool) (v : Nat) : Option Nat × State :=
  let s := s.sigOpen g bar opk w64
  match (s.grp g).pend with
  | none => (none, s)
  | some p =>
    let s := s.modGrp g fun q => { q with pend := some { p with vals := p.vals ++ [(t, v)], det := some (p.det.getD s.detm) } }
    if p.agrees bar opk w64 then s.sigAdvance g else (none, s.sigAbandon g)

/-- This device enters a barrier of a PERMUTE (R303). -/
def State.sigPermute (s : State) (g cid : Nat) : Option Nat × State :=
  let s := s.sigOpen g true 0 false
  match (s.grp g).pend with
  | none => (none, s)
  | some p =>
    let s := s.modGrp g fun q => { q with pend := some { p with by_ := some cid } }
    if p.agrees true 0 false then s.sigAdvance g else (none, s.sigAbandon g)

/-! ## Records received -/

/-- A record's generation against the device's own: the same, a later one, or one that is past. -/
def genAge (own r : Nat) : Nat := (r + 65536 - own) % 65536

/-- Take an UP record of the present generation (R287, R290). One that would begin an operation on an invalid group record is discarded, and
the record's use logged (R283, Table 9.16). -/
def State.sigUpNow (s : State) (src : Nat) (r : List Nat) : Option Nat × State :=
  let g := rGid r
  if (s.grp g).pend.isNone && !gValid (s.grpRec g) then (none, (s.primReport 0x54 1 0 g).lateSig g (rGen r)) else
  let s := s.sigOpen g (rBar r) (rOpk r) (rW64 r)
  match (s.grp g).pend with
  | none => (none, s)
  | some p =>
    if !p.agrees (rBar r) (rOpk r) (rW64 r) then (none, s.sigAbandon g)
    else
      let s := s.modGrp g fun q => { q with pend := some { p with kids := p.kids ++ [(src, rVal r)] } }
      s.sigAdvance g

/-- Take a DOWN record of the present generation. -/
def State.sigDownNow (s : State) (r : List Nat) : Option Nat × State :=
  let g := rGid r
  match (s.grp g).pend with
  | none => (none, s.lateSig g (rGen r))
  | some p => if p.agrees (rBar r) (rOpk r) (rW64 r) then s.sigEnd g p (rVal r) else (none, s.sigAbandon g)

/-- A record of a generation whose operation has not come to this device is held; a fifth causes abandonment (R290). -/
def State.sigHold (s : State) (src : Nat) (r : List Nat) : State :=
  let g := rGid r
  if (s.grp g).held.length < 4 then s.modGrp g fun q => { q with held := q.held ++ [(src, r)] } else s.sigAbandon g

/-- A record of group g (R290, R291): of the present generation it is taken; of a later one it is held, as is an ABANDON whose operation has
not begun here (DEDUCED, log entry 93); of an earlier one that was abandoned here it is late, and of any other earlier one it differs from the
pending operation, which is abandoned. -/
def State.sigTake (s : State) (src : Nat) (r : List Nat) : Option Nat × State :=
  let g := rGid r
  let q := s.grp g
  let age := genAge q.gen (rGen r)
  if age = 0 then
    if rPhase r = 0 then s.sigUpNow src r
    else if rPhase r = 1 then s.sigDownNow r
    else (none, if q.pend.isSome then s.sigAbandon g else s.sigHold src r)
  else if age < 32768 then (none, s.sigHold src r)
  else if isDead q.dead (rGen r) ∨ q.pend.isNone then (none, s.lateSig g (rGen r))
  else (none, s.sigAbandon g)

/-- A held record may be taken: its generation has come, for an ABANDON with the operation it ends. -/
def SigGrp.due (q : SigGrp) (r : List Nat) : Bool := rGen r == q.gen && (rPhase r != 2 || q.pend.isSome)

/-- Held records whose generation has come, taken in the order held; n bounds them. The identifiers of PERMUTEs whose
barrier ended are collected. -/
def State.sigDrain (s : State) (g : Nat) : Nat → List Nat × State
  | 0 => ([], s)
  | n + 1 =>
    let q := s.grp g
    match q.held.find? fun h => q.due h.2 with
    | none => ([], s)
    | some h =>
      let a := (s.modGrp g fun q => { q with held := q.held.erase h }).sigTake h.1 h.2
      let b := a.2.sigDrain g n
      (a.1.toList ++ b.1, b.2)

/-- Anything that may end an operation, followed by the held records. -/
def sigThen (g : Nat) (a : Option Nat × State) : List Nat × State :=
  let b := a.2.sigDrain g 5
  (a.1.toList ++ b.1, b.2)

/-- A SIG instruction names a usable group by a group record (R285). -/
def State.sigOkBy (s : State) (rec_ : List Nat) (t g : Nat) : Bool :=
  decide (g < 256) && gValid rec_ && gMember rec_ t
    && (match s.cfgOfTile t with
      | some c => c.groups.contains g
      | none => false)

/-- The record that the operation a tile issues now belongs to: an operation in flight keeps the record of its start (R312). -/
def State.grpNow (s : State) (g : Nat) : List Nat := match (s.grp g).pend with
  | some p => p.rec_
  | none => s.grpRec g

/-- A SIG instruction may join the operation in flight, or begin one (R285, R312). -/
def State.sigOk (s : State) (t g : Nat) : Bool := s.sigOkBy (s.grpNow g) t g

end Sys2Proof.Machine
end

