-- ==== Sys2Proof/Machine/Collect.lean ====
section
/-! DEFINITION. Circulation and the other collectives: descriptors and their checks, pre-rounds, the chain, completion and
abandonment, and the adoption of a rank by a reserve (R136 to R141, R293 to R312). -/

namespace Sys2Proof.Machine

/-! ## Descriptor fields (Table 9.4) -/

/-- OPC. -/
def cdOpc (d : List Nat) : Nat := le d 0 1
/-- RONLY. -/
def cdRonly (d : List Nat) : Bool := bitOf (le d 1 1) 3
/-- OVFIN. -/
def cdOvfin (d : List Nat) : Bool := bitOf (le d 1 1) 4
/-- Number of stripes. -/
def cdStripes (d : List Nat) : Nat := bitsOf (le d 2 1) 0 3 + 1
/-- PORTS. -/
def cdPorts (d : List Nat) : Nat := le d 3 1
/-- CID. -/
def cdCid (d : List Nat) : Nat := le d 4 2
/-- GID. -/
def cdGid (d : List Nat) : Nat := le d 6 1
/-- GIDP. -/
def cdGidp (d : List Nat) : Nat := le d 7 1
/-- SRC. -/
def cdSrc (d : List Nat) : Nat := le d 8 8
/-- SRCX. -/
def cdSrcx (d : List Nat) : Nat := le d 16 8
/-- DST. -/
def cdDst (d : List Nat) : Nat := le d 24 8
/-- DSTX. -/
def cdDstx (d : List Nat) : Nat := le d 32 8
/-- AGX. -/
def cdAgx (d : List Nat) : Nat := le d 40 8
/-- COUNT. -/
def cdCount (d : List Nat) : Nat := le d 48 8
/-- ROOT. -/
def cdRoot (d : List Nat) : Nat := le d 56 2
/-- CTGT. -/
def cdCtgt (d : List Nat) : Nat := le d 64 8
/-- CVAL. -/
def cdCval (d : List Nat) : Nat := le d 72 4
/-- CREC. -/
def cdCrec (d : List Nat) : Nat := le d 80 8

/-- The port of a stripe: the k-th set bit of PORTS (R294). -/
def stripePort (d : List Nat) (k : Nat) : Nat := nth 0 ((List.range 8).filter fun p => bitOf (cdPorts d) p) k

/-! ## Geometry of chunks (R294, R298) -/

/-- Blocks of a circulation. -/
def Coll.blocks (x : Coll) : Nat := cdCount x.desc / 32
/-- Chunks of a circulation. -/
def Coll.nc (x : Coll) : Nat := ceilDiv (cdCount x.desc) 65536
/-- Members. -/
def Coll.n (x : Coll) : Nat := gNdev x.grp
/-- This member's index. -/
def Coll.me (x : Coll) : Nat := gIndex x.grp
/-- Blocks of chunk c. -/
def Coll.blksOf (x : Coll) (c : Nat) : Nat := min 2048 (x.blocks - 2048 * c)
/-- The member that owns chunk c (R298). -/
def Coll.owner (x : Coll) (c : Nat) : Nat := ceilDiv ((c + 1) * x.n) x.nc - 1
/-- The member that starts the reduce pass of chunk c. -/
def Coll.starter (x : Coll) (c : Nat) : Nat := (x.owner c + 1) % x.n
/-- KIND 0 packets of a chunk of b blocks: 32 blocks of FX32 in each. -/
def k0Pkts (b : Nat) : Nat := ceilDiv b 32
/-- KIND 1 packets: 64 blocks of mantissas in each. -/
def k1Pkts (b : Nat) : Nat := ceilDiv b 64

/-- State of chunk c, made on first use. -/
def Coll.chunk (x : Coll) (c : Nat) : CollChunk :=
  (x.chunks.find? fun k => k.c == c).getD ⟨c, false, [], false, none, [], [], false, []⟩

/-- Change chunk c. -/
def Coll.setChunk (x : Coll) (k : CollChunk) : Coll := { x with chunks := (x.chunks.filter fun q => q.c != k.c) ++ [k] }

/-- The reduce pass and the result of a chunk are done at this member (R298). -/
def Coll.chunkDone (x : Coll) (c : Nat) : Bool :=
  let k := x.chunk c
  let own := x.owner c == x.me
  k.agreed.isSome && decide (k0Pkts (x.blksOf c) ≤ k.sums.length)
    && (if own then k.exited else cdRonly x.desc || decide (k1Pkts (x.blksOf c) + 1 ≤ k.got.length))

/-! ## Finding collectives -/

/-- The collective in flight with a CID. -/
def State.collOf (s : State) (cid : Nat) : Option Coll := s.colls.find? fun c => c.cid == cid

/-- Replace a collective. -/
def State.putColl (s : State) (x : Coll) : State := { s with colls := s.colls.map fun c => if c.cid == x.cid then x else c }

/-- FCOLSTAT follows the collectives in flight (Table 9.11). -/
def State.syncColl (s : State) : State :=
  (s.setFld FCOLSTAT_ACTIVE s.colls.length).setFld FCOLSTAT_UBUSY (s.colls.foldl (fun m c => m ||| cdPorts c.desc) 0)

/-- A status has been met (R308). -/
def Coll.meet (x : Coll) (st : Nat) : Coll := { x with found := if x.found.contains st then x.found else x.found ++ [st] }

/-- The first cause in the order of Table 9.6. -/
def Coll.status (x : Coll) : Nat := match [1, 2, 3, 4, 5, 6, 7, 8].find? fun k => x.found.contains k with
  | some k => k
  | none => 0

/-! ## Memory of the device, as the collective units use it -/

/-- Read n bytes at an address of this device; a stack's bursts are counted (R245), and bytes that cannot be read come poisoned. -/
def State.collRead (s : State) (a n : Nat) : List (Nat × Bool) × State :=
  let d := addrDev a
  if s.isMem d n then (if d < 0x8000000000 then s.countBurst d n else s).memRead d n uExternal else (List.replicate n (0, true), s)

/-- Write bytes at an address of this device. A window that is being marked refuses them, which is logged (R202), and a stack takes whole
granules only (R223). -/
def State.collWrite (s : State) (a : Nat) (bs : List (Nat × Bool)) : State :=
  let d := addrDev a
  if !s.isMem d bs.length then s
  else if s.refusesWrite d then s.extFault d 6 (srcOf 6 (s.primHalf * 16))
  else if d < 0x8000000000 then
    (if d % 64 = 0 ∧ bs.length % 64 = 0 then (s.countBurst d bs.length).memWrite d bs else s)
  else s.memWrite d bs

/-- A context may use an address range of this device. -/
def State.ctxMay (s : State) (c a n : Nat) : Bool :=
  s.isLocal a && ((s.isFw c) || match s.ctxCfg c with
    | some k => (match k.part with
      | some p => s.partMay p (addrDev a) n
      | none => false)
    | none => false)

/-! ## End of a collective (R299, R307, R308) -/

/-- Add n to a token of a saved tile: a sum above 65,535 saturates and sets the saved TSQSTAT.TOKOVF (R177, R470). -/
def SavedTile.addToken (v : SavedTile) (d n : Nat) : SavedTile :=
  let old := bitsOf (SMap.get regReset v.regs d).toNat 0 16
  let regs := SMap.set regReset v.regs d (BitVec.ofNat 64 (satAdd 65535 old n))
  let st := SMap.get regReset regs (aTSQSTAT v.t)
  { v with regs := if 65535 < old + n then SMap.set regReset regs (aTSQSTAT v.t) (st ||| 4#64) else regs }

/-- A token or mailbox of a context: when the context is switched out, the update goes to its saved state (R470). -/
def State.deliverCtx (s : State) (c a n : Nat) : State :=
  let d := addrDev a
  let t := (d - tileBase 0) / 0x400000
  let hit := s.isLocal a && ((s.ctx c).saved.any fun v => v.t == t)
  if hit && ((tokenAt d).isSome || (mboxAt d).isSome) then
    s.modCtx c fun x => { x with saved := x.saved.map fun v =>
      if v.t ≠ t then v
      else if (tokenAt d).isSome then v.addToken d n
      else { v with regs := SMap.set regReset v.regs d (SMap.get regReset v.regs d + BitVec.ofNat 64 n) } }
  else s.deliverAdd a n

/-- The completion target is a token for CTOK or a mailbox word for CMBX (Table 9.4). -/
def cdTarget (d : List Nat) : Bool :=
  (bitOf (le d 1 1) 0 && (tokenAt (addrDev (cdCtgt d))).isSome) || (bitOf (le d 1 1) 1 && (mboxAt (addrDev (cdCtgt d))).isSome)

/-- Write the record, update the token or mailbox, raise the interrupt, log, and forget the collective (R240, R299, R308). Neither is written
outside what the context may use; a record of 32 bytes is no whole granule, so a stack refuses it (R223). -/
def State.collEnd (s : State) (x : Coll) (st : Nat) : State :=
  let d := x.desc
  let circ := cdOpc d == 1
  let rec_ := leBytes 2 x.cid ++ [st, if circ && x.ovf then 1 else 0] ++ leBytes 4 (min x.sat 4294967295)
    ++ leBytes 8 x.tstart ++ leBytes 8 s.now ++ List.replicate 8 0
  let s := if s.ctxMay x.ctx (cdCrec d) 32 then s.collWrite (cdCrec d) (rec_.map fun b => (b, false)) else s
  let s := if cdTarget d && s.ctxMay x.ctx (cdCtgt d) 8 then s.deliverCtx x.ctx (cdCtgt d) (cdCval d) else s
  let s := if bitOf (le d 1 1) 2 then s.msix x.ctx (if x.ctx = 0 then 5 else 3) else s
  let s := if st = 0 then s else s.primReport 0x50 1 (cdCrec d) (st + 16 * x.cid)
  ({ s with colls := s.colls.filter fun c => c.cid != x.cid }).syncColl

/-- Abandon a collective (R307): ABANDON to the neighbours in GID and GIDP once, status, log, count. -/
def State.collAbandon (s : State) (x : Coll) (st : Nat) : State :=
  let near := (gNeighbours x.grp ++ (if cdOpc x.desc = 1 then gNeighbours x.grpP else [])).dedup.filter fun r => r != s.rank
  let s := s.each near fun s r => s.sendSig r (sigRec (cdGid x.desc) 0 false 2 false false 0 x.cid 0)
  let s := ({ s with collDead := deadAdd s.collDead x.cid }).bump FCOLLATE_ABNDN 1
  s.collEnd x (x.meet st).status

/-- A late packet or record of a collective is counted; the first one of an abandoned collective is logged (R307, Table 9.16). -/
def State.collLate (s : State) (cid : Nat) : State :=
  let s := if s.collDead.contains (cid, false) then
      ({ s with collDead := s.collDead.map fun (e : Nat × Bool) => if e.1 == cid then (cid, true) else e }).primReport 0x52 0 0 cid
    else s
  s.bump FCOLLATE_LATE 1

/-! ## Sending on the chain -/

/-- ADDR of a COLL packet (Table 9.5). -/
def collAddr (cid stripe kind pkt chunk : Nat) : Nat :=
  cid % 65536 + stripe % 8 * 2 ^ 16 + kind % 4 * 2 ^ 19 + pkt % 64 * 2 ^ 21 + chunk % 2 ^ 21 * 2 ^ 27

/-- Send a COLL packet to the successor from its stripe's port; an unusable port is met as LINK and abandons later. -/
def State.collSend (s : State) (x : Coll) (kind pkt chunk : Nat) (bs : List (Nat × Bool)) : Coll × State :=
  let k := chunk % cdStripes x.desc
  let p := stripePort x.desc k
  let a := collAddr x.cid k kind pkt chunk
  let id := s.newId
  let s := id.2
  let w : FarWrite := ⟨id.1, gSucc x.grp, 0, 2048, 2, a, 0, srcOf 6 (s.primHalf * 16)⟩
  let q := { mkPkt 0 9 (gSucc x.grp) a bs.length 0 0 with
    srank := s.rank, hops := s.fld FCFG_HOPLIM, data := bs.map (·.1), pmask := pmaskOf bs }
  if s.fld (FPSTAT_STATE p) = 4 ∨ s.fld (FPSTAT_STATE p) = 5 then
    ({ x with acks := x.acks ++ [id.1] }, ({ s with writes := s.writes ++ [w] }).collOut (some p) q)
  else (x.meet 4, s)

/-- Send a run of packets of n bytes each, numbered from p. -/
def State.collSends (s : State) (x : Coll) (kind chunk : Nat) : Nat → List (List (Nat × Bool)) → Coll × State
  | _, [] => (x, s)
  | p, b :: bs =>
    let r := s.collSend x kind p chunk b
    r.2.collSends r.1 kind chunk (p + 1) bs

/-- Cut bytes into packets of at most 4,096; k bounds them. -/
def packetsOf : Nat → List (Nat × Bool) → List (List (Nat × Bool))
  | 0, _ => []
  | k + 1, bs => if bs.isEmpty then [] else bs.take 4096 :: packetsOf k (bs.drop 4096)

/-! ## Circulation (R138, R296 to R298) -/

/-- The FX32 entry of blocks b0 to b0 + n − 1 of this member at exponents A (R138): 128 bytes for each block. -/
def State.entryBytes (s : State) (x : Coll) (A : List Nat) (c p : Nat) : List (Nat × Bool) × State :=
  let b0 := 2048 * c + 32 * p
  let n := min 32 (x.blksOf c - 32 * p)
  let m := s.collRead (cdSrc x.desc + 64 * b0) (64 * n)
  let e := m.2.collRead (cdSrcx x.desc + b0) n
  ((List.range n).flatMap fun i =>
      let blk := (m.1.drop (64 * i)).take 64
      let ex := nth (0, true) e.1 i
      let pois := anyPois blk || ex.2
      let ms := (List.range 32).map fun j => le (blk.map (·.1)) (2 * j) 2
      let fx := (g16ToFX ex.1 (nth 0 A (32 * p + i)) ms).1
      fx.flatMap fun v => asBytes 4 v pois, e.2)

/-- Element-by-element exact addition of FX32 bytes with the saturation check (R140): the sum and the number saturated. -/
def addFX : Nat → List (Nat × Bool) → List (Nat × Bool) → List (Nat × Bool) × Nat
  | 0, _, _ => ([], 0)
  | k + 1, a, b =>
    if a.isEmpty then ([], 0)
    else
      let x := a.take 4
      let y := b.take 4
      let r := satFX (toIntW 32 (valOf x) + toIntW 32 (valOf y))
      let q := addFX k (a.drop 4) (b.drop 4)
      (asBytes 4 (ofIntW 32 r.1) (anyPois x || anyPois y) ++ q.1, q.2 + if r.2 then 1 else 0)

/-- The G16 result of a chunk out of its whole FX32 sum: mantissa bytes, exponent bytes (R138). -/
def exitOf (A : List Nat) (n : Nat) (sum : List (Nat × Bool)) : List (Nat × Bool) × List (Nat × Bool) :=
  let bs := (List.range n).map fun i =>
    let blk := (sum.drop (128 * i)).take 128
    let r := fxToG16 (nth 0 A i) ((List.range 32).map fun j => le (blk.map (·.1)) (4 * j) 4)
    (r, anyPois blk)
  (bs.flatMap fun b => b.1.elems.flatMap fun v => asBytes 2 v b.2, bs.map fun b => (if b.2 then 0 else b.1.ex, b.2))

/-- Packets received for a chunk, in packet order. -/
def CollChunk.whole (k : CollChunk) (n : Nat) : List (Nat × Bool) :=
  (List.range n).flatMap fun p => ((k.sums.find? fun q => q.1 == p).map (·.2)).getD []

/-- The owner converts, writes and starts the gather pass once every packet's sum is in (R298). -/
def State.exitChunk (s : State) (x : Coll) (c : Nat) : Coll × State :=
  let k := x.chunk c
  let n := x.blksOf c
  if x.owner c ≠ x.me ∨ k.exited ∨ k.sums.length < k0Pkts n then (x, s)
  else
    let r := exitOf (k.agreed.getD []) n (k.whole (k0Pkts n))
    let s := (s.collWrite (cdDst x.desc + 64 * (2048 * c)) r.1).collWrite (cdDstx x.desc + 2048 * c) r.2
    let x := x.setChunk { k with exited := true, sums := k.sums.map fun q => (q.1, []) }
    let x := if anyPois r.1 then x.meet 7 else x
    if cdRonly x.desc ∨ x.n = 1 then (x, s)
    else
      let a := s.collSends x 1 c 0 (packetsOf (k1Pkts n) r.1)
      a.2.collSend a.1 2 0 c r.2

/-- Add this member's entry to a packet of running sums, and pass it on or keep it (R138, R298). -/
def State.addPacket (s : State) (x : Coll) (c p : Nat) (bs : List (Nat × Bool)) : Coll × State :=
  let k := x.chunk c
  if k.sums.any fun q => q.1 == p then (x, s)
  else
    let e := s.entryBytes x (k.agreed.getD []) c p
    let r := addFX 1024 bs e.1
    let s := e.2.each (List.range r.2) fun s _ => s.primReport 0x53 2 0 x.cid
    let s := s.bump FCOLSAT_COUNT r.2
    let x := { x with sat := x.sat + r.2 }
    let x := if r.2 = 0 then x else x.meet 8
    let x := if anyPois e.1 then x.meet 7 else x
    if x.owner c = x.me then (x.setChunk { k with sums := k.sums ++ [(p, r.1)] }, s)
    else (s.collSend (x.setChunk { k with sums := k.sums ++ [(p, [])] }) 0 p c r.1)

/-- The chunk's circulation begins at this member: the starter's packets, or the whole of it when the member is alone. -/
def State.startChunk (s : State) (x : Coll) (c : Nat) : Coll × State :=
  let A := (x.chunk c).agreed.getD []
  if x.starter c ≠ x.me then (x, s)
  else
    (List.range (k0Pkts (x.blksOf c))).foldl (fun (a : Coll × State) p =>
      let e := a.2.entryBytes a.1 A c p
      let y := if anyPois e.1 then a.1.meet 7 else a.1
      let k := y.chunk c
      if y.n = 1 then (y.setChunk { k with sums := k.sums ++ [(p, e.1)] }, e.2)
      else e.2.collSend (y.setChunk { k with sums := k.sums ++ [(p, [])] }) 0 p c e.1) (x, s)

/-- Stripe, kind, packet and chunk of a COLL address. -/
def caStripe (a : Nat) : Nat := bitsOf a 16 3
/-- KIND. -/
def caKind (a : Nat) : Nat := bitsOf a 19 2
/-- PKT. -/
def caPkt (a : Nat) : Nat := bitsOf a 21 6
/-- CHUNK. -/
def caChunk (a : Nat) : Nat := bitsOf a 27 21

/-- A result packet of the gather pass is written and forwarded (R298). -/
def State.gatherPacket (s : State) (x : Coll) (c kind p : Nat) (bs : List (Nat × Bool)) : Coll × State :=
  let k := x.chunk c
  if k.got.contains (kind, p) then (x, s)
  else
    let a := if kind = 1 then cdDst x.desc + 64 * (2048 * c + 64 * p) else cdDstx x.desc + 2048 * c
    let s := s.collWrite a bs
    let x := x.setChunk { k with got := k.got ++ [(kind, p)] }
    let x := if anyPois bs then x.meet 7 else x
    if (x.me + 1) % x.n = x.owner c then (x, s) else s.collSend x kind p c bs

/-- What a COLL packet of a circulation does; false when it mismatches the descriptor (R307). -/
def State.circPacket (s : State) (x : Coll) (p : Pkt) : Option (Coll × State) :=
  let c := caChunk p.addr
  let n := x.blksOf c
  let kind := caKind p.addr
  let i := caPkt p.addr
  let okLen := match kind with
    | 0 => decide (i < k0Pkts n) && p.len == 128 * min 32 (n - 32 * i)
    | 1 => decide (i < k1Pkts n) && p.len == 64 * min 64 (n - 64 * i)
    | 2 => i == 0 && p.len == n
    | _ => false
  if x.nc ≤ c ∨ !okLen ∨ caStripe p.addr ≠ c % cdStripes x.desc then none
  else if kind = 0 then
    if x.starter c = x.me then none
    else
      match (x.chunk c).agreed with
      | none => some (x.setChunk { x.chunk c with early := (x.chunk c).early ++ [p] }, s)
      | some _ => let r := s.addPacket x c i (pktData p); some (r.2.exitChunk r.1 c)
  else if x.owner c = x.me ∨ cdRonly x.desc then none
  else some (s.gatherPacket x c kind i (pktData p))

/-! ## Pre-rounds (R296) -/

/-- Combine exponent bytes: the largest that is not 0xFF, or 0xFF (R296). -/
def agreeByte (a b : Nat) : Nat := if a = 0xFF then b else if b = 0xFF then a else max a b

/-- Combine two records' bytes. -/
def agreeBytes (a b : List Nat) : List Nat := (a.zip b).map fun p => agreeByte p.1 p.2

/-- A pre-round record (R289, R296). -/
def preRec (x : Coll) (phase c : Nat) (ovf : Bool) (bs : List Nat) : List Nat :=
  sigRec (cdGidp x.desc) 0 false phase false true 0 x.cid (c + if ovf then 2 ^ 32 else 0) ++ bs

/-- Blocks of chunk c whose elements have all been handed over; a collective that is not fused has them all (R305). -/
def Coll.ready (x : Coll) (c : Nat) : Bool := !x.fused || (List.range (x.blksOf c)).all fun i => x.handed.contains (2048 * c + i)

/-- Chunk c may enter its pre-round: its stripe's unit is no more than four chunks behind it (R296). -/
def Coll.mayEnter (x : Coll) (c : Nat) : Bool :=
  decide (((List.range c).filter fun d => d % cdStripes x.desc == c % cdStripes x.desc && !x.chunkDone d).length ≤ 4)

/-- A and O have been delivered (R296): A is written at AGX, O kept, the children told, and the chunk circulates. -/
def State.preDeliver (s : State) (x : Coll) (c : Nat) (A : List Nat) (ovf : Bool) : Coll × State :=
  let x := { x with ovf := x.ovf || ovf }
  let x := x.setChunk { x.chunk c with agreed := some A }
  let s := s.each (gKids x.grpP) fun s r => s.sendSig r (preRec x 1 c ovf A)
  let s := s.collWrite (cdAgx x.desc + 2048 * c) (A.map fun b => (b, false))
  let a := s.startChunk x c
  let early := (a.1.chunk c).early
  let x := a.1.setChunk { a.1.chunk c with early := [] }
  let b := early.foldl (fun (q : Coll × State) p => q.2.addPacket q.1 c (caPkt p.addr) (pktData p)) (x, a.2)
  b.2.exitChunk b.1 c

/-- This member's exponent bytes of chunk c; a poisoned byte has no value, so a free one travels. -/
def State.expBytes (s : State) (x : Coll) (c : Nat) : List Nat × State :=
  let r := s.collRead (cdSrcx x.desc + 2048 * c) (x.blksOf c)
  ((r.1.zipIdx).map fun b => if b.1.2 then (Config.freeByte s.fresh b.2).toNat else b.1.1, r.2.freshen)

/-- When this member's record and every child's are in: UP to the parent, or at the root the agreement (R296). -/
def State.preAdvance (s : State) (x : Coll) (c : Nat) : Coll × State :=
  let k := x.chunk c
  let kidsIn := (gKids x.grpP).all fun r => k.kids.any fun q => q.1 == r
  if k.sentUp ∨ !k.entered ∨ !kidsIn then (x, s)
  else
    let e := s.expBytes x c
    let up := k.kids.foldl (fun a q => agreeBytes a q.2.1) e.1
    let ovf := cdOvfin x.desc || e.1.any (· == 0xFF) || k.kids.any fun q => q.2.2 || q.2.1.any (· == 0xFF)
    let x := x.setChunk { k with sentUp := true }
    if gRoot x.grpP then e.2.preDeliver x c (up.map fun b => if b = 0xFF then 0 else b) ovf
    else (x, e.2.sendSig (gParent x.grpP) (preRec x 0 c ovf up))

/-- Enter the pre-round of every chunk that may enter; n bounds the chunks looked at from c. -/
def State.enterFrom (s : State) (x : Coll) (c : Nat) : Nat → Coll × State
  | 0 => (x, s)
  | n + 1 =>
    if x.nc ≤ c then (x, s)
    else
      let k := x.chunk c
      if k.entered ∨ !x.ready c ∨ !x.mayEnter c then s.enterFrom x (c + 1) n
      else
        let a := s.preAdvance (x.setChunk { k with entered := true }) c
        a.2.enterFrom a.1 (c + 1) n

/-- Enter what may be entered, and keep the collective; one that met LINK in sending is abandoned (R307). -/
def State.collKeep (s : State) (a : Coll) : State :=
  let r := if cdOpc a.desc = 1 then s.enterFrom a 0 a.nc else (a, s)
  let s := r.2.putColl r.1
  if r.1.found.contains 4 then s.collAbandon r.1 4 else s

/-! ## All-gather and broadcast (R301, R302) -/

/-- Pieces of member m's bytes in the result: (4 KiB unit, offset in the result, length). Units count from the result's start. -/
def unitPieces (lo n : Nat) : List (Nat × Nat × Nat) :=
  if n = 0 then []
  else (List.range ((lo + n - 1) / 4096 - lo / 4096 + 1)).map fun i =>
    let u := lo / 4096 + i
    let a := max lo (4096 * u)
    (u, a, min (lo + n) (4096 * u + 4096) - a)

/-- Result range of member m: AGATHER's own block; BCAST's only block, the root's. -/
def Coll.rangeOf (x : Coll) (m : Nat) : Nat × Nat := if cdOpc x.desc = 2 then (m * cdCount x.desc, cdCount x.desc) else (0, cdCount x.desc)

/-- Members whose bytes travel. -/
def Coll.origins (x : Coll) : List Nat := if cdOpc x.desc = 2 then List.range x.n else [cdRoot x.desc]

/-- This member's own bytes are written and sent (R301, R302). -/
def State.bytesStart (s : State) (x : Coll) : Coll × State :=
  if !x.origins.contains x.me then (x, s)
  else
    let r := s.collRead (cdSrc x.desc) (cdCount x.desc)
    let lo := (x.rangeOf x.me).1
    let s := r.2.collWrite (cdDst x.desc + lo) r.1
    let x := if anyPois r.1 then x.meet 7 else x
    if x.n = 1 then (x, s)
    else (unitPieces lo (cdCount x.desc)).foldl (fun (a : Coll × State) u =>
      a.2.collSend a.1 3 (u.1 % 64) (u.1 / 64) ((r.1.drop (u.2.1 - lo)).take u.2.2)) (x, s)

/-- A packet of AGATHER or BCAST: the nearest origin upstream whose piece of that unit has not come; written and forwarded. -/
def State.bytesPacket (s : State) (x : Coll) (p : Pkt) : Option (Coll × State) :=
  let u := 64 * caChunk p.addr + caPkt p.addr
  let up := (List.range (x.n - 1)).map fun i => (x.me + x.n - 1 - i) % x.n
  let hit := (up.filter fun m => x.origins.contains m && !x.got.contains (m, u)).findSome? fun m =>
    ((unitPieces (x.rangeOf m).1 (x.rangeOf m).2).find? fun q => q.1 == u).map fun q => (m, q)
  match hit with
  | none => none
  | some h =>
    if p.len ≠ h.2.2.2 ∨ caKind p.addr ≠ 3 ∨ caStripe p.addr ≠ caChunk p.addr % cdStripes x.desc then none
    else
      let s := s.collWrite (cdDst x.desc + h.2.2.1) (pktData p)
      let x := { x with got := x.got ++ [(h.1, u)] }
      let x := if anyPois (pktData p) then x.meet 7 else x
      if (x.me + 1) % x.n = h.1 then some (x, s) else some (s.collSend x 3 (caPkt p.addr) (caChunk p.addr) (pktData p))

/-- Every piece due to this member is in. -/
def Coll.bytesDone (x : Coll) : Bool :=
  (x.origins.filter (· != x.me)).all fun m => (unitPieces (x.rangeOf m).1 (x.rangeOf m).2).all fun q => x.got.contains (m, q.1)

/-! ## Permute (R303) -/

/-- Move k of a table: source, destination, length, reserved bytes. -/
def moveOf (tbl : List Nat) (k : Nat) : Nat × Nat × Nat × Nat := (le tbl (24 * k) 8, le tbl (24 * k + 8) 8, le tbl (24 * k + 16) 4, le tbl (24 * k + 20) 4)

/-- The moves of a permute's table. -/
def State.moves (s : State) (d : List Nat) : List (Nat × Nat × Nat × Nat) × State :=
  let r := s.collRead (cdSrc d) (24 * cdCount d)
  ((List.range (cdCount d)).map (moveOf (r.1.map (·.1))), r.2)

/-- Step 1: copy every source into the staging region, in table order. -/
def State.stageMoves (s : State) (a : Nat) : List (Nat × Nat × Nat × Nat) → Bool × State
  | [] => (false, s)
  | m :: ms =>
    let r := s.collRead m.1 m.2.2.1
    let q := (r.2.collWrite a r.1).stageMoves (a + m.2.2.1) ms
    (anyPois r.1 || q.1, q.2)

/-- Step 3: from staging to the destinations. -/
def State.sendMoves (s : State) (x : Coll) (a : Nat) : List (Nat × Nat × Nat × Nat) → Coll × State
  | [] => (x, s)
  | m :: ms =>
    let r := s.collRead a m.2.2.1
    if s.isLocal m.2.1 then (r.2.collWrite m.2.1 r.1).sendMoves x (a + m.2.2.1) ms
    else
      let w := r.2.farWrites (srcOf 6 (s.primHalf * 16)) 2048 2 (addrRank m.2.1) 0 false (pieces (addrDev m.2.1) m.2.2.1) r.1
      let x := { x with acks := x.acks ++ w.1.1 }
      w.2.sendMoves (if w.1.2 then x else x.meet 4) (a + m.2.2.1) ms

/-- A PERMUTE goes on after its first barrier, or after every acknowledgement (R303). -/
def State.permuteOn (s : State) (x : Coll) : List Nat × State :=
  if x.phase = 0 then
    let m := s.moves x.desc
    let r := m.2.sendMoves { x with phase := 1 } (cdDst x.desc) m.1
    let s := r.2.putColl r.1
    if r.1.found.contains 4 then ([], s.collAbandon r.1 4)
    else if r.1.acks.isEmpty then sigThen (cdGid x.desc) ((s.putColl { r.1 with phase := 2 }).sigPermute (cdGid x.desc) x.cid)
    else ([], s)
  else if x.phase = 1 then
    if x.acks.isEmpty then sigThen (cdGid x.desc) ((s.putColl { x with phase := 2 }).sigPermute (cdGid x.desc) x.cid) else ([], s)
  else ([], s.putColl { x with phase := 3 })

/-- Act on PERMUTEs whose barrier ended; n bounds the rounds (a permute has two barriers). -/
def State.permutes (s : State) : Nat → List Nat → State
  | 0, _ => s
  | n + 1, cids => match cids with
    | [] => s
    | c :: cs =>
      match s.collOf c with
      | none => s.permutes n cs
      | some x => let r := s.permuteOn x; r.2.permutes n (cs ++ r.1)

/-- Run a signal-plane change and let the PERMUTEs it releases go on. -/
def State.sigRun (a : List Nat × State) : State := a.2.permutes 64 a.1

/-! ## Submission (R293, R297, R300, R304, R306) -/

/-- The memory ranges of the member at index me of n: address, length. The completion record is among them; PERMUTE's staging region and
moves are checked beside it. -/
def cdRanges (d : List Nat) (n me : Nat) : List (Nat × Nat) :=
  let c := cdCount d
  (match cdOpc d with
  | 1 => [(cdSrc d, 2 * c), (cdSrcx d, c / 32), (cdDst d, 2 * c), (cdDstx d, c / 32), (cdAgx d, c / 32)]
  | 2 => [(cdSrc d, c), (cdDst d, n * c)]
  | 3 => (if cdRoot d = me then [(cdSrc d, c)] else []) ++ [(cdDst d, c)]
  | _ => [(cdSrc d, 24 * c)]) ++ [(cdCrec d, 32)]

/-- Reserved fields, PORTS against NSTR, group validity and match: status DESC (R293, R297, R300, R306). -/
def State.cdBad (s : State) (d : List Nat) : Bool :=
  let o := cdOpc d
  let g := s.grpRec (cdGid d)
  let gp := s.grpRec (cdGidp d)
  o == 0 || decide (4 < o) || bitsOf (le d 1 1) 5 3 != 0 || bitsOf (le d 2 1) 3 5 != 0 || popcount 8 (cdPorts d) != cdStripes d
    || le d 58 6 != 0 || le d 76 4 != 0 || le d 88 40 != 0
    || (o != 1 && (cdGidp d != 0 || cdSrcx d != 0 || cdDstx d != 0 || cdAgx d != 0)) || (o != 3 && cdRoot d != 0)
    || !gValid g || (o == 1 && (!gValid gp || gNdev gp != gNdev g || gIndex gp != gIndex g || cdCount d % 32 != 0))
    || (o == 3 && decide (gNdev g ≤ cdRoot d)) || (s.collOf (cdCid d)).isSome

/-- A context may write to an address with rank, as its tiles may (R457). -/
def State.ctxMayFar (s : State) (c a n : Nat) : Bool :=
  s.ctxMay c a n || (!s.isLocal a && (s.isFw c || match (s.ctxCfg c).bind (·.part) with
    | some p => s.rankMay p (addrRank a)
    | none => false))

/-- The context owns the groups of a descriptor. -/
def State.ctxGroups (s : State) (c : Nat) (d : List Nat) : Bool := s.isFw c || match s.ctxCfg c with
  | some k => k.groups.contains (cdGid d) && (cdOpc d != 1 || k.groups.contains (cdGidp d))
  | none => false

/-- CTOK or CMBX asks for an update at CTGT. -/
def cdUpdates (d : List Nat) : Bool := bitOf (le d 1 1) 0 || bitOf (le d 1 1) 1

/-- A move of a PERMUTE reads this device's memory and writes memory it can address. -/
def State.moveOk (s : State) (m : Nat × Nat × Nat × Nat) : Bool :=
  s.isLocal m.1 && s.isMem (addrDev m.1) m.2.2.1 && (!s.isLocal m.2.1 || s.isMem (addrDev m.2.1) m.2.2.1)

/-- Status found at submission, 0 for none (Table 9.6, in its order). Every address of the descriptor must name this device (R293); one that
does not, or CTGT that is neither token nor mailbox word, ends ADDR; a range in a stack that is not 64-byte aligned does too, and so do the
counts R294, R301 and R223 refuse (DEDUCED, log entry 93). -/
def State.cdStatus (s : State) (c path : Nat) (d : List Nat) : Nat :=
  let g := s.grpRec (cdGid d)
  let o := cdOpc d
  let rs := cdRanges d (gNdev g) (gIndex g)
  let small := rs.all fun r => decide (r.2 ≤ 0x8000000000)
  let mv := if o = 4 ∧ cdCount d ≤ 0x8000000000 ∧ s.isMem (addrDev (cdSrc d)) (24 * cdCount d) then (s.moves d).1 else []
  let stg := if o = 4 then [(cdDst d, (mv.map fun m => m.2.2.1).sum)] else []
  let inStk := fun (a : Nat) => decide (addrDev a < 0x8000000000)
  let ragged := fun (a : Nat) => inStk a && addrDev a % 64 != 0
  let wrongPath := (path == 0 && (match s.ctxCfg c with
    | some k => k.implicit
    | none => false)) || (path == 1 && o == 1)
  let arrays := rs.dropLast
  if s.cdBad d ∨ (mv.any fun m => m.2.2.2 != 0) then 1
  else if wrongPath ∨ !s.ctxGroups c d ∨ !((rs ++ stg).all fun r => !s.isLocal r.1 || s.ctxMay c r.1 r.2)
      ∨ (cdUpdates d && s.isLocal (cdCtgt d) && !s.ctxMay c (cdCtgt d) 8)
      ∨ !(mv.all fun m => (!s.isLocal m.1 || s.ctxMay c m.1 m.2.2.1) && s.ctxMayFar c m.2.1 m.2.2.1) then 2
  else if !small ∨ !((rs ++ stg).all fun r => s.isLocal r.1 && s.isMem (addrDev r.1) r.2 && !ragged r.1)
      ∨ (cdUpdates d && !(s.isLocal (cdCtgt d) && cdTarget d)) ∨ !(mv.all s.moveOk)
      ∨ (o == 1 && (arrays.any fun r => inStk r.1) && (cdCount d % 2048 != 0 || (arrays.any fun r => addrDev r.1 % 64 != 0)))
      ∨ ((o == 2 || o == 3) && inStk (cdDst d) && cdCount d % 64 != 0)
      ∨ (mv.any fun m => (inStk (cdDst d) && m.2.2.1 % 64 != 0) || ragged m.1
          || (s.isLocal m.2.1 && inStk m.2.1 && (m.2.2.1 % 64 != 0 || ragged m.2.1)))
    then 3
  else 0

/-- A collective as it starts. -/
def State.newColl (s : State) (c : Nat) (d : List Nat) (fused : Bool) : Coll :=
  { cid := cdCid d, ctx := c, desc := d, grp := s.grpRec (cdGid d), grpP := s.grpRec (cdGidp d), fused := fused, handed := [],
    chunks := [], got := [], phase := 0, acks := [], found := [], ovf := false, sat := 0, tstart := s.now }

/-- A pre-round record of a collective in flight (R296); a chunk or length that does not fit abandons (R307). -/
def State.preTake (s : State) (x : Coll) (src : Nat) (r : List Nat) : State :=
  let c := bitsOf (rVal r) 0 32
  let ovf := bitOf (rVal r) 32
  let bs := (r.drop 16).take 2048
  let k := x.chunk c
  if cdOpc x.desc ≠ 1 ∨ x.nc ≤ c ∨ bs.length ≠ x.blksOf c ∨ rGid r ≠ cdGidp x.desc then s.collAbandon x 1
  else if rPhase r = 0 then
    if k.kids.any fun q => q.1 == src then s
    else
      let a := s.preAdvance (x.setChunk { k with kids := k.kids ++ [(src, bs, ovf)] }) c
      a.2.collKeep a.1
  else if k.agreed.isSome then s
  else let a := s.preDeliver x c bs ovf; a.2.collKeep a.1

/-- A COLL packet of a collective in flight: taken, or the descriptors disagree (R307). -/
def State.collTake (s : State) (x : Coll) (p : Pkt) : State :=
  let r := match cdOpc x.desc with
    | 1 => s.circPacket x p
    | 2 => s.bytesPacket x p
    | 3 => s.bytesPacket x p
    | _ => none
  match r with
  | none => s.collAbandon x 1
  | some a => a.2.collKeep a.1

/-- Packets and records held for a CID are taken now that it is in flight (R306). -/
def State.takeHeld (s : State) (cid : Nat) : State :=
  let ps := s.collHeld.filter fun p => bitsOf p.addr 0 16 == cid
  let rs := s.collRecs.filter fun r => rCid r.2 == cid
  let s := { s with
    collHeld := s.collHeld.filter fun p => bitsOf p.addr 0 16 != cid
    collRecs := s.collRecs.filter fun r => rCid r.2 != cid }
  let s := s.each rs fun s r => match s.collOf cid with
    | some x => s.preTake x r.1 r.2
    | none => s.collLate cid
  s.each ps fun s p => match s.collOf cid with
    | some x => (s.collTake x p).ackPkt p 0
    | none => (s.collLate cid).ackPkt p 0

/-- Start an accepted collective. -/
def State.collStart (s : State) (c : Nat) (d : List Nat) (fused : Bool) : State :=
  let x := s.newColl c d fused
  let s := ({ s with colls := s.colls ++ [x], collDead := s.collDead.filter fun e => e.1 != x.cid }).syncColl
  let s := match cdOpc d with
    | 1 => s.collKeep x
    | 4 =>
      let m := s.moves d
      let r := m.2.stageMoves (cdDst d) m.1
      State.sigRun (sigThen (cdGid d) ((r.2.putColl (if r.1 then x.meet 7 else x)).sigPermute (cdGid d) x.cid))
    | _ => let r := s.bytesStart x; r.2.collKeep r.1
  s.takeHeld x.cid

/-- Submit the descriptor at an address by path 0 host, 1 FCOLSUB, 2 FUSE.CIRC: the status (0 accepted). A refused one ends
at once with its record, and leaves a collective in flight with its CID alone (R306). -/
def State.collSubmit (s : State) (c path a : Nat) : Nat × State :=
  if !s.ctxMay c a 128 then (2, s)
  else if !s.isMem (addrDev a) 128 then (3, s)
  else
    let r := s.collRead a 128
    let d := r.1.map (·.1)
    let s := r.2
    if anyPois r.1 then (7, s)
    else
      let st := s.cdStatus c path d
      let imp := match s.ctxCfg c with
        | some k => k.implicit
        | none => false
      let s := if path == 0 && imp then s.primReport 0x56 1 a 2 else s
      let used := st == 1 && cdOpc d != 0 && decide (cdOpc d ≤ 4)
      let s := if used && !gValid (s.grpRec (cdGid d)) then s.primReport 0x54 1 0 (cdGid d) else s
      let s := if used && cdOpc d == 1 && cdGidp d != cdGid d && !gValid (s.grpRec (cdGidp d)) then s.primReport 0x54 1 0 (cdGidp d) else s
      if st = 0 then (0, s.collStart c d (path == 2))
      else
        let x := s.newColl c d false
        let live := s.colls
        let s := (s.collEnd x st)
        (st, ({ s with colls := live }).syncColl)

/-- The OPC of the descriptor at an address. -/
def State.opcAt (s : State) (a : Nat) : Nat := if s.isMem (addrDev a) 128 then cdOpc ((s.collRead a 128).1.map (·.1)) else 0

/-- A submission by the host (host) or by a tile's store to FCOLSUB; beyond 16 in flight it waits: in the host queue, or in
FCOLSUB (R304, R306). -/
def State.collRow (s : State) (c a : Nat) (host : Bool) : State :=
  if host then (if 16 ≤ s.colls.length then s else (s.collSubmit c 0 a).2)
  else
    match s.ctxCfg c with
    | some k =>
      if !k.implicit then s.primReport 0x56 1 a 1
      else if 16 ≤ s.colls.length then { s with collWait := s.collWait ++ [(c, a)] }
      else (s.collSubmit c 1 a).2
    | none => s

/-- CIRC (R298, R304): context c submits the circulation descriptor at address a; one with a reserved OPC ends with DESC. -/
def execCirc (c : Nat) (a : Nat) (host : Bool) (s : State) : Host.Outcome State Fault Refusal :=
  let o := s.opcAt a
  .next (if o = 1 ∨ o = 0 ∨ 4 < o then s.collRow c a host else s)
/-- AGATHER (R301). -/
def execAgather (c : Nat) (a : Nat) (host : Bool) (s : State) : Host.Outcome State Fault Refusal :=
  .next (if s.opcAt a = 2 then s.collRow c a host else s)
/-- BCAST (R302). -/
def execBcast (c : Nat) (a : Nat) (host : Bool) (s : State) : Host.Outcome State Fault Refusal :=
  .next (if s.opcAt a = 3 then s.collRow c a host else s)
/-- PERMUTE (R303). -/
def execPermute (c : Nat) (a : Nat) (host : Bool) (s : State) : Host.Outcome State Fault Refusal :=
  .next (if s.opcAt a = 4 then s.collRow c a host else s)

/-- Start submissions waiting in FCOLSUB while there is room; n bounds them. -/
def State.collNext (s : State) : Nat → State
  | 0 => s
  | n + 1 => match s.collWait with
    | [] => s
    | w :: ws => if 16 ≤ s.colls.length then s else ((({ s with collWait := ws }).collSubmit w.1 1 w.2).2).collNext n

/-- Run a signal-plane change, and start what waited for the room it may have made (R306). -/
def State.sigGo (a : List Nat × State) : State := (State.sigRun a).collNext 16

/-! ## Hand-over by FUSE.CIRC (R305) -/

/-- Blocks b0 to b0 + n − 1 are handed over: one handed twice ends the collective with DESC; for one no longer in flight they
are discarded (R312). -/
def State.handOver (s : State) (cid b0 n : Nat) : State :=
  match s.collOf cid with
  | none => s
  | some x =>
    let new := (List.range n).map (b0 + ·)
    (if new.any fun b => x.handed.contains b || decide (x.blocks ≤ b) then s.collAbandon x 1
    else s.collKeep { x with handed := x.handed ++ new }).collNext 16

/-! ## Events -/

/-- A COLL packet need not stay on the link: its collective is in flight or abandoned, or fewer than 16 are held for its CID (R306). -/
def State.collRoom (s : State) (cid : Nat) : Bool :=
  (s.collOf cid).isSome || isDead s.collDead cid || decide ((s.collHeld.filter fun q => bitsOf q.addr 0 16 == cid).length < 16)

/-- COLL_PACKET (R295, R306): a COLL packet that arrived on port port is taken, held for its submission, or late. A
seventeenth held for one CID stays on the link. -/
def execCollPacket (port : Nat) (p : Pkt) (s : State) : Host.Outcome State Fault Refusal :=
  let cid := bitsOf p.addr 0 16
  .next (s.rxPacketIf port p 9 (s.collRoom cid) fun s => match s.collOf cid with
    | some x => ((s.collTake x p).ackPkt p 0).collNext 16
    | none => if isDead s.collDead cid then (s.collLate cid).ackPkt p 0 else { s with collHeld := s.collHeld ++ [p] })

/-- PRE_ROUND_RECORD (R296): src is the sender's rank, r the UP or DOWN record with its exponent bytes. -/
def execPreRoundRecord (src : Nat) (r : List Nat) (s : State) : Host.Outcome State Fault Refusal :=
  .next (if !rPre r ∨ rPhase r = 2 then s
    else s.rxSignal src r fun s => match s.collOf (rCid r) with
    | some x => (s.preTake x src r).collNext 16
    | none => if isDead s.collDead (rCid r) then s.collLate (rCid r) else { s with collRecs := s.collRecs ++ [(src, r)] })

/-- Everything due at this member has happened (R299). -/
def Coll.done (x : Coll) : Bool :=
  x.acks.isEmpty && match cdOpc x.desc with
    | 1 => (List.range x.nc).all x.chunkDone
    | 4 => x.phase == 3
    | _ => x.bytesDone

/-- COLLECTIVE_COMPLETE (R299, R308): nothing happens while something is still due. -/
def execCollectiveComplete (cid : Nat) (s : State) : Host.Outcome State Fault Refusal :=
  .next (match s.collOf cid with
    | some x => if x.done then (s.collEnd x x.status).collNext 16 else s
    | none => s)

/-- COLLECTIVE_TIMEOUT (R306, R307): abandons a collective that awaits something; packets held for a CID never submitted are
discarded and counted, and the CID is abandoned. -/
def execCollectiveTimeout (cid : Nat) (s : State) : Host.Outcome State Fault Refusal :=
  .next (match s.collOf cid with
    | some x => if x.done then (s.collEnd x x.status).collNext 16 else (s.collAbandon x 5).collNext 16
    | none =>
      let ps := s.collHeld.filter fun p => bitsOf p.addr 0 16 == cid
      let rs := s.collRecs.filter fun r => rCid r.2 == cid
      if ps.isEmpty ∧ rs.isEmpty then s
      else
        let s := { s with
          collHeld := s.collHeld.filter fun p => bitsOf p.addr 0 16 != cid
          collRecs := s.collRecs.filter fun r => rCid r.2 != cid
          collDead := deadAdd s.collDead cid }
        let s := (s.each (ps.map (·.addr) ++ rs.map (·.1)) fun s _ => s.collLate cid).bump FCOLLATE_ABNDN 1
        s.each ps fun s p => s.ackPkt p 0)

/-- A port has gone DOWN: every collective with a stripe on it is abandoned (R307). -/
def State.collPortDown (s : State) (p : Nat) : State :=
  (s.each (s.colls.filter fun c => bitOf (cdPorts c.desc) p) fun s x => s.collAbandon x 4).collNext 16

/-- An acknowledgement of a packet a collective sent: its completion status may be a cause (R299, R307). -/
def State.collAck (s : State) (wid cst : Nat) : State :=
  match s.colls.find? fun c => c.acks.contains wid with
  | none => s
  | some x =>
    let x := { x with acks := x.acks.filter (· != wid) }
    if cst = 0 then
      let s := s.putColl x
      if cdOpc x.desc = 4 ∧ x.phase = 1 ∧ x.acks.isEmpty then State.sigGo (s.permuteOn x) else s
    else (s.collAbandon x (if cst = 2 then 2 else if cst = 3 then 4 else 3)).collNext 16

/-! ## The signal plane's events -/

/-- UP_RECORD (R287, R290): an UP record from the device of rank src. -/
def execUpRecord (src : Nat) (r : List Nat) (s : State) : Host.Outcome State Fault Refusal :=
  .next (if rPhase r = 0 ∧ !rPre r then s.rxSignal src r fun s => State.sigGo (sigThen (rGid r) (s.sigTake src r)) else s)

/-- DOWN_RECORD (R287). -/
def execDownRecord (src : Nat) (r : List Nat) (s : State) : Host.Outcome State Fault Refusal :=
  .next (if rPhase r = 1 ∧ !rPre r then s.rxSignal src r fun s => State.sigGo (sigThen (rGid r) (s.sigTake src r)) else s)

/-- ABANDON_RECORD (R291, R307): of a collective when it carries a CID, else of the group's operation. A record of the reserved PHASE 3 comes
here to be discarded. -/
def execAbandonRecord (src : Nat) (r : List Nat) (s : State) : Host.Outcome State Fault Refusal :=
  .next (if rPhase r < 2 then s
    else s.rxSignal src r fun s =>
      if rCid r ≠ 0 then
        match s.collOf (rCid r) with
        | some x => (s.collAbandon x 6).collNext 16
        | none => s.collLate (rCid r)
      else State.sigGo (sigThen (rGid r) (s.sigTake src r)))

/-- SIGNAL_TIMEOUT (R291): the pending operation of group g is abandoned; nothing is pending otherwise. -/
def execSignalTimeout (g : Nat) (s : State) : Host.Outcome State Fault Refusal :=
  .next (State.sigGo (sigThen g (none, s.sigAbandon g)))

/-! ## Reserve substitution (R310) -/

/-- A write to FRSVCTL of bits v by a requester who may (fw). -/
def State.adopt (s : State) (v : Nat) (fw : Bool) : State :=
  if fw ∧ bitOf v 16 ∧ s.flag FRSVCTL_RESERVE then
    let old := s.fld FCFG_RANK
    let new := bitsOf v 0 16
    ((s.setFld FCFG_RANK new).setFld FRSVCTL_RESERVE 0).primReport 0x55 1 0 (new + old * 65536)
  else s

/-- ADOPT (R310): context c writes FRSVCTL with ADOPT = 1 and NEWRANK = r. -/
def execAdopt (c : Nat) (r : Nat) (s : State) : Host.Outcome State Fault Refusal :=
  .next (s.adopt (r % 65536 + 65536) (c == 0 || s.isFw c))

end Sys2Proof.Machine
end

