-- ==== Sys2Proof/Machine/Ledger.lean ====
section
/-! DEFINITION. Determinism forced and effective (R426, R427), and the ledger: records, commitment, loss, replay and the
registers that drive it (R431 to R437). -/

namespace Sys2Proof.Machine

/-- GCTL.DETMF follows its three causes (R427). -/
def State.syncDetm (s : State) : State :=
  s.setFld GCTL_DETMF (if s.detHold || ((List.range 8).any fun st => s.flag (SSTAT_TEST st)) || s.fld GLEDCTL_MODE == 2 then 1 else 0)

/-! ## The ring (R431, R432) -/

/-- Ring bytes. -/
def State.ringBytes (s : State) : Nat := s.fld GLEDBASE_SIZE * 0x100000

/-- Device address of ring byte p. -/
def State.ringAddr (s : State) (p : Nat) : Nat :=
  stackBase (s.fld GLEDBASE_STACK) + s.fld GLEDBASE_OFFSET + p % max 1 s.ringBytes

/-- Write at a ring position where the stack can be written. -/
def State.ringPut (s : State) (p : Nat) (bs : List Nat) : State :=
  let d := s.ringAddr p
  if s.isMem d bs.length then s.memWrite d (bs.map fun b => (b, false)) else s

/-- A record's bytes: header (Table 14.4) and padded payload. -/
def ledBytes (seq time cls : Nat) (ref : Bool) (src k0 k1 : Nat) (data : List Nat) : List Nat :=
  leBytes 8 seq ++ leBytes 8 time ++ [cls, if ref then 1 else 0] ++ leBytes 2 src ++ leBytes 8 k0 ++ leBytes 8 k1
    ++ leBytes 4 data.length ++ List.replicate 24 0 ++ data ++ List.replicate (ceilDiv data.length 64 * 64 - data.length) 0

/-- Bytes a record takes in the ring. -/
def ledSize (data : List Nat) : Nat := 64 + ceilDiv data.length 64 * 64

/-- The filler before a record of n bytes at position p: what is left to the ring's end when the record would cross it. -/
def State.ledPad (s : State) (p n : Nat) : Nat :=
  let r := max 1 s.ringBytes
  if r < p % r + n then r - p % r else 0

/-- A record of n bytes fits (R435). -/
def State.ledFits (s : State) (n : Nat) : Bool :=
  let wp := s.fld GLEDWP_WP
  decide (wp + s.ledPad wp n + n ≤ s.fld GLEDRP_RP + s.ringBytes)

/-! ## Commitment (R433, R434) -/

/-- Write a record's SEQ and count it. -/
def State.ledCommit (s : State) (r : LedRec) : State :=
  let q := s.fld GLEDSEQ_NEXT
  let d := s.ringAddr r.pos
  let old := (s.memRead d 32 uExternal).1.map (·.1)
  (s.ringPut r.pos (leBytes 8 q ++ old.drop 8)).setFld GLEDSEQ_NEXT (q + 1)

/-- Order of the sort (CLASS, SRC, KEY0, KEY1). -/
def LedRec.before (a b : LedRec) : Bool :=
  decide (a.cls < b.cls) || (a.cls == b.cls && (decide (a.src < b.src) || (a.src == b.src &&
    (decide (a.k0 < b.k0) || (a.k0 == b.k0 && decide (a.k1 < b.k1))))))

/-- Insert in order, after equals. -/
def ledInsert (x : LedRec) : List LedRec → List LedRec
  | [] => [x]
  | y :: ys => if x.before y then x :: y :: ys else y :: ledInsert x ys

/-- A ledger point: the waiting records take consecutive SEQs in sorted order (R433). -/
def State.ledPoint (s : State) : State :=
  let rs := s.ledPend.foldl (fun l r => ledInsert r l) []
  let s := s.each rs fun s r => s.ledCommit r
  (({ s with ledPend := [] }).setFld GLEDSTAT_PENDING 0).setFld GLEDCP_CP (s.fld GLEDWP_WP)

/-! ## Writing records -/

/-- Place a record that fits, behind a PAD record when it would cross the ring's end. PAD takes no SEQ. -/
def State.ledPlace (s : State) (cls : Nat) (ref : Bool) (src k0 k1 : Nat) (data : List Nat) : LedRec × State :=
  let wp := s.fld GLEDWP_WP
  let pad := s.ledPad wp (ledSize data)
  let s := if pad = 0 then s else s.ringPut wp (ledBytes 0 0 10 false 0 0 0 (List.replicate (pad - 64) 0))
  let p := wp + pad
  let time := if s.detm then 0 else s.now
  let s := s.ringPut p (ledBytes 0 time cls ref src k0 k1 data)
  (⟨p, cls, src, k0, k1⟩, s.setFld GLEDWP_WP (p + ledSize data))

/-- Enter one record that fits: committed at once, at its point, or waiting (R433, R434). Where determinism has ended while records waited, they
wait on for the next point, and GLEDCP stays before the first of them. -/
def State.ledEnter (s : State) (cls : Nat) (ref : Bool) (src k0 k1 : Nat) (data : List Nat) : State :=
  let point := cls == 4 || cls == 6
  let s := if s.detm && !point && decide (4096 ≤ s.ledPend.length) then (s.ledPoint).setFld GLEDSTAT_EARLY 1 else s
  let r := s.ledPlace cls ref src k0 k1 data
  let s := r.2
  if point then
    let s := s.ledPoint
    (s.ledCommit r.1).setFld GLEDCP_CP (s.fld GLEDWP_WP)
  else if !s.detm then
    let s := s.ledCommit r.1
    s.setFld GLEDCP_CP (match s.ledPend with
      | x :: _ => x.pos
      | [] => s.fld GLEDWP_WP)
  else
    let s := { s with ledPend := s.ledPend ++ [r.1] }
    s.setFld GLEDSTAT_PENDING s.ledPend.length

/-- The GAP record due after a loss, once it fits (R435). -/
def State.ledGapTry (s : State) : State :=
  if s.ledGap = 0 ∨ s.fld GLEDCTL_MODE ≠ 1 ∨ !s.ledFits 64 then s
  else ({ s with ledGap := 0 }).ledEnter 9 false 0 s.ledGap 0 []

/-- Hand a record to the ledger (R433): nothing unless recording; lost when it does not fit (R435). -/
def State.led (s : State) (cls : Nat) (ref : Bool) (src k0 k1 : Nat) (data : List Nat) : State :=
  if s.fld GLEDCTL_MODE ≠ 1 ∨ s.ringBytes = 0 then s
  else
    let s := s.ledGapTry
    if s.ledGap = 0 ∧ s.ledFits (ledSize data) then s.ledEnter cls ref src k0 k1 data
    else ({ s with ledGap := s.ledGap + 1 }.bump GLEDLOST_LOST 1).setFld GLEDSTAT_GAP 1

/-- GAP_RECORD (R435): the GAP record is written if one is due and fits. -/
def execGapRecord (s : State) : Host.Outcome State Fault Refusal := .next s.ledGapTry

/-! ## Replay (R436) -/

/-- Take records in from ring position ledRd up to what the host has loaded, stopping at a GAP; n bounds them. -/
def State.ledLoad (s : State) : Nat → State
  | 0 => s
  | n + 1 =>
    if s.fld GLEDRP_RP < s.ledRd + 64 then s
    else
      let d := s.ringAddr s.ledRd
      let h := (s.memRead d 64 uExternal).1.map (·.1)
      let cls := le h 16 1
      let len := le h 36 4
      let size := 64 + ceilDiv len 64 * 64
      if cls = 9 ∨ s.fld GLEDRP_RP < s.ledRd + size then s
      else
        let data := (s.memRead (d + 64) len uExternal).1.map (·.1)
        let keep := cls == 2 || cls == 4 || cls == 6 || cls == 7
        let s := { s with ledRd := s.ledRd + size }
        let s := if keep then { s with ledIn := s.ledIn ++ [⟨cls, le h 18 2, le h 20 8, le h 28 8, data⟩] } else s
        s.ledLoad n

/-- Replay is on. -/
def State.replay (s : State) : Bool := s.fld GLEDCTL_MODE == 2

/-- The next record of the ring is a GAP, at which replay stops (Table 14.6). -/
def State.atGap (s : State) : Bool :=
  decide (s.ledRd + 64 ≤ s.fld GLEDRP_RP) && le ((s.memRead (s.ringAddr s.ledRd) 64 uExternal).1.map (·.1)) 16 1 == 9

/-- A record that replay needs has not come: a stream's PLAN, the DECIDE of a decision in progress, the MANIFEST of a round that waits. -/
def State.ledLacks (s : State) : Bool :=
  !s.ledWant.isEmpty
    || (match s.decision with
      | some d => !s.ledIn.any fun x => x.cls == 4 && x.k0 == d.1
      | none => false)
    || (s.flag XRSTAT_WAITING && !s.ledIn.any fun x => x.cls == 6 && x.k0 == s.fld XRSTAT_SEALED + 1)

/-- WAITREC is shown (R436): replay stands at a GAP, or lacks a record it needs. -/
def State.showWait (s : State) : State := s.setFld GLEDSTAT_WAITREC (if s.replay && (s.atGap || s.ledLacks) then 1 else 0)

/-- A recorded event the device needs, found and taken. -/
def State.ledTake (s : State) (f : LedIn → Bool) : Option LedIn × State :=
  match s.ledIn.find? f with
  | some r => (some r, { s with ledIn := s.ledIn.erase r })
  | none => (none, s)

/-- PLAN records that have come are placed for the streams that wait for them (Table 14.6): the plan goes to the pending area,
HAVE and DECIDED are set. -/
def State.ledPlans (s : State) : State :=
  let want := s.ledWant
  let s := want.foldl (fun s w =>
    let r := s.ledTake fun x => x.cls == 2 && x.src == w.1 && x.k0 == w.2
    match r.1 with
    | some x =>
      let s := r.2.tblPut (aFPLAN (w.1 * 128 + 32)) (x.data.take 256)
      { (s.setFld (FDSSTAT_HAVE w.1) 1).setFld (FDSSTAT_DECIDED w.1) 1 with ledWant := s.ledWant.erase w }
    | none => r.2) s
  s.showWait

/-! ## Registers -/

/-- A write of GLEDCTL (R431): pending records are committed first; FAR takes the written bit. Mode 3 is reserved: the mode
stays. -/
def State.ledMode (s : State) (mode : Nat) (far : Bool) : State :=
  let s := s.setFld GLEDCTL_FAR (if far then 1 else 0)
  let old := s.fld GLEDCTL_MODE
  let s := if old = 1 then s.ledPoint else s
  if mode = old ∨ 3 ≤ mode then s
  else
    let data := leBytes 8 (s.reg aGLSCALE).toNat ++ leBytes 8 (s.reg aGSTEP).toNat ++ leBytes 8 (s.reg aGSEED).toNat
      ++ leBytes 8 (s.fld XRSTAT_SEALED)
    let arfp := putBits (s.reg aARFP).toNat 16 1 (if s.detm then 1 else 0)
    let arfp := putBits arfp 8 8 Config.arev.toNat
    let s := if old = 1 then (s.led 8 false 0 mode arfp data).ledPoint else s
    let s := s.setFld GLEDCTL_MODE mode
    let s := if mode = 1 then s.led 8 false 0 mode arfp data else s
    let s := if mode = 2 then { s with ledRd := s.fld GLEDRP_RP, ledIn := [], ledWant := [] } else s.setFld GLEDSTAT_WAITREC 0
    s.syncDetm

/-- LEDGER_MODE_WRITE (R431): context c writes GLEDCTL; only PF 0 and firmware contexts may. -/
def execLedgerModeWrite (c : Nat) (mode : Nat) (far : Bool) (s : State) : Host.Outcome State Fault Refusal :=
  .next (if s.pfOrFw c then s.ledMode (mode % 4) far else s.refuse aGLEDCTL c)

/-- A write of GLEDRP (R431, R436). -/
def State.ledRp (s : State) (rp : Nat) : State :=
  let s := s.setFld GLEDRP_RP rp
  if s.replay then (s.ledLoad (s.ringBytes / 64)).ledPlans else s

end Sys2Proof.Machine
end

