-- ==== Sys2Proof/Machine/Expert.lean ====
section
/-! DEFINITION. Expert dispatch: sending rows within quota, receive queues, returns, capacity plans and the registers of a
stream (R336 to R361). -/

namespace Sys2Proof.Machine

/-! ## Streams -/

/-- The record a stream works with: as it was at the last OPEN, a record rewritten since applying from the next one (R360); before the first
OPEN the table's. -/
def State.srOf (s : State) (q : Nat) : List Nat := if (s.stream q).rec_.isEmpty then s.srRec q else (s.stream q).rec_

/-- VALID. -/
def srValid (r : List Nat) : Bool := bitOf (le r 0 1) 0

/-- Stream q is open. -/
def State.srOpen (s : State) (q : Nat) : Bool := s.fld (FDSSTAT_STATE q) == 1

/-- The sender slot of a tile. -/
def srSlotOf (r : List Nat) (t : Nat) : Option Nat := (List.range (srNst r)).find? fun j => srStile r j == t

/-- Stream q belongs to a context. -/
def State.srCtxIs (s : State) (q : Nat) (c : Option Nat) : Bool := c.isSome && (s.streamCtx q).map (·.1) == c

/-- Slot j of a stream. -/
def Stream.slot (x : Stream) (j : Nat) : DSlot := SMap.get (fun _ => DSlot.reset) x.slots j
/-- Change slot j. -/
def Stream.setSlot (x : Stream) (j : Nat) (v : DSlot) : Stream := { x with slots := SMap.set (fun _ => DSlot.reset) x.slots j v }
/-- Buffer b of expert e. -/
def Stream.buf (x : Stream) (e b : Nat) : DBuf := SMap.get (fun _ => DBuf.reset) x.bufs (e * 2 + b)
/-- Change buffer b of expert e. -/
def Stream.setBuf (x : Stream) (e b : Nat) (v : DBuf) : Stream := { x with bufs := SMap.set (fun _ => DBuf.reset) x.bufs (e * 2 + b) v }
/-- A count by expert. -/
def cntGet (m : SMap Nat) (e : Nat) : Nat := SMap.get (fun _ => 0) m e
/-- One more in a count by expert. -/
def cntInc (m : SMap Nat) (e : Nat) : SMap Nat := SMap.set (fun _ => 0) m e (cntGet m e + 1)

/-- A slot's record of batch b. -/
def DSlot.batch (x : DSlot) (b : Nat) : DBatch := (x.batches.find? fun k => k.b == b).getD ⟨b, [], false, false, [], false, 0, 0, false⟩
/-- Change a batch record; those of the same parity that are complete make room. -/
def DSlot.setBatch (x : DSlot) (k : DBatch) : DSlot :=
  { x with batches := (x.batches.filter fun q => q.b != k.b && !(q.done && q.b % 2 == k.b % 2 && decide (q.b < k.b))) ++ [k] }

/-- Capacity of expert e in the plan in force (Table 11.8). -/
def State.capOf (s : State) (q e : Nat) : Nat := le (s.tblBytes (aFPLAN (q * 128 + 64)) 256) (16 + 2 * e) 2

/-- Quota of source src for expert e (R341). -/
def quota (cap nsrc src : Nat) : Nat := cap / max 1 nsrc + if src < cap % max 1 nsrc then 1 else 0

/-- FDSSTAT.BATCH: the lowest batch number still current among the stream's sender slots. -/
def State.syncBatch (s : State) (q : Nat) : State :=
  let r := s.srOf q
  let low := fun (j : Nat) =>
    let d := (s.stream q).slot j
    d.batches.foldl (fun m k => if k.ending && !k.endSent then min m k.b else m) d.cur
  s.setFld (FDSSTAT_BATCH q) (((List.range (srNst r)).foldl (fun m j => min m (low j)) (low 0)) % 4096)

/-! ## Return words (Table 11.5) -/

/-- Address of the return word of token t, k-slot i. -/
def rwAddr (r : List Nat) (t i : Nat) : Nat := addrDev (srRwbase r) + (t * srK r + i) * 4

/-- A return word; one that cannot be read counts as 0. -/
def State.rwGet (s : State) (r : List Nat) (t i : Nat) : Nat :=
  let a := rwAddr r t i
  if s.isMem a 4 then valOf (s.memRead a 4 uMover).1 else 0

/-- Write a return word; a window that is being marked refuses it (R202). -/
def State.rwPut (s : State) (r : List Nat) (t i v : Nat) : State :=
  let a := rwAddr r t i
  if !s.isMem a 4 then s
  else if s.refusesWrite a then s.extFault a 0 (srcOf 0 ((a - tileBase 0) / 0x400000))
  else s.memWrite a (asBytes 4 v false)

/-- Own-window ranges of the return words of n tokens from token lo on, token numbers wrapping at 65,536. -/
def State.rwRngs (s : State) (t : Nat) (r : List Nat) (lo n : Nat) : List Rng :=
  let w := srK r * 4
  let m := min n (65536 - lo)
  s.ownRng t (srRwbase r + lo * w) (m * w) ++ s.ownRng t (srRwbase r) (min 65536 n * w - m * w)

/-! ## Sending (R339 to R343, R354) -/

/-- ADDR of a DISP packet for a row or END (Table 11.2). -/
def dispAddr (q e dir kind part token kslot slot : Nat) : Nat :=
  q % 64 + e % 64 * 2 ^ 6 + dir % 4 * 2 ^ 12 + kind % 4 * 2 ^ 14 + part % 4 * 2 ^ 16 + token % 65536 * 2 ^ 18 + kslot % 8 * 2 ^ 34
    + slot % 2048 * 2 ^ 37

/-- ADDR of a DISP packet for a return. -/
def retAddr (q roff dir token kslot slot : Nat) : Nat :=
  q % 64 + roff % 64 * 2 ^ 6 + dir % 4 * 2 ^ 12 + roff / 64 % 4 * 2 ^ 16 + token % 65536 * 2 ^ 18 + kslot % 8 * 2 ^ 34
    + slot % 2048 * 2 ^ 37

/-- Send one DISP packet to a rank: over the mesh when that is this device (R340); its write identifier. -/
def State.dispSend (s : State) (tile dst addr batch : Nat) (bs : List (Nat × Bool)) : Nat × State :=
  let id := s.newId
  let s := id.2
  let tag := batch % 4096
  let p := { mkPkt 0 10 dst addr bs.length tag 0 with data := bs.map (·.1), pmask := pmaskOf bs }
  let w : FarWrite := ⟨id.1, dst, tag, tile, 3, addr, 0, srcOf 0 tile⟩
  let s := { s with writes := s.writes ++ [w] }
  if dst = s.rank then (id.1, { s with mesh := s.mesh ++ [{ p with srank := s.rank }] })
  else (id.1, s.sendPkt p)

/-- Send a row in parts of at most 4,096 bytes. -/
def State.dispRow (s : State) (tile dst batch : Nat) (addr : Nat → Nat) : Nat → List (List (Nat × Bool)) → List Nat × State
  | _, [] => ([], s)
  | p, b :: bs =>
    let a := s.dispSend tile dst (addr p) batch b
    let r := a.2.dispRow tile dst batch addr (p + 1) bs
    (a.1 :: r.1, r.2)

/-- One pair (row, k-slot) of a send: its return word and, within quota, its copy (R339 to R341, R354). ix is the index byte,
none when it cannot be read; row none when the row cannot be read. -/
def State.sendPair (s : State) (q j tok i : Nat) (ix : Option Nat) (row : Option (List (Nat × Bool))) : State :=
  let r := s.srOf q
  let x := s.stream q
  let d := x.slot j
  let src := srSidx r * srNst r + j
  let put := fun (s : State) (fl : Nat) => s.rwPut r tok i (0xFFF + fl)
  match ix with
  | none => put s (2 ^ 15)
  | some e =>
    if e = 0xFF then put s 0
    else if srNexp r ≤ e then put s (2 ^ 14)
    else
      let used := cntGet d.used e
      let s := s.modStream q fun x => { x.setSlot j { d with used := cntInc d.used e } with demand := cntInc x.demand e }
      let full := !srBwd r && decide (quota (s.capOf q e) (srNsrc r) src ≤ used)
      let fw := if srBwd r then s.rwGet (s.srOf (srFwdq r)) tok i else 0
      if srBwd r && !bitOf fw 12 then put s (bitsOf fw 13 3 * 2 ^ 13)
      else if full ∨ row.isNone then put s ((if full then 2 ^ 13 else 0) + if row.isNone then 2 ^ 15 else 0)
      else
        let s := put s 0
        let dir := if srBwd r then 2 else 0
        let slot := if srBwd r then bitsOf fw 0 12 else 0
        let a := s.dispRow (srStile r j) (srOwner r e) d.cur (fun p => dispAddr q e dir 0 p tok i slot) 0
          (packetsOf 4 (row.getD []))
        a.2.modStream q fun x =>
          let d := x.slot j
          let k := d.batch d.cur
          { x.setSlot j (d.setBatch { k with sent := k.sent + 1, acks := k.acks ++ a.1.map fun w => (w, tok * 8 + i) }) with
            sent := cntInc x.sent e }

/-- Send one row to its k experts and count it (R340). -/
def State.sendRow (s : State) (q j : Nat) (row : Option (List (Nat × Bool))) (ixs : List (Option Nat)) : State :=
  let r := s.srOf q
  let d := (s.stream q).slot j
  let tok := (srTbase r j + d.rows) % 65536
  let s := (List.range (srK r)).foldl (fun s i => s.sendPair q j tok i (nth none ixs i) row) s
  s.modStream q fun x => x.setSlot j { x.slot j with rows := d.rows + 1 }

/-- Bytes at an address of this device that tile t may use; none when they cannot be read. -/
def State.dispRead (s : State) (t a n : Nat) : Option (List (Nat × Bool)) × State :=
  if s.isLocal a && s.tileMay t a n && s.isMem (addrDev a) n then
    let r := s.memRead (addrDev a) n uMover
    (some r.1, r.2)
  else (none, s)

/-- The k index bytes of row r. -/
def State.indexRow (s : State) (t a k : Nat) : List (Option Nat) × State :=
  let r := s.dispRead t a k
  match r.1 with
  | none => (List.replicate k none, r.2)
  | some bs => (bs.map fun b => if b.2 then none else some b.1, r.2)

/-- DISP.SEND's rows, in order (R340). -/
def State.sendRows (s : State) (t q j aR aI : Nat) : Nat → Nat → State
  | 0, _ => s
  | n + 1, r =>
    let x := s.srOf q
    let row := s.dispRead t (aR + r * srRowb x) (srRowb x)
    let ix := row.2.indexRow t (aI + r * srK x) (srK x)
    (ix.2.sendRow q j row.1 ix.1).sendRows t q j aR aI n (r + 1)

/-- DISP.SEND and FUSE.DISP with RET = 0 are valid on stream q for tile t (R340): the sender slot. -/
def State.sendOk (s : State) (t q : Nat) (k : Option Nat) : Option Nat :=
  let r := s.srOf q
  if srValid r && s.srCtxIs q (s.ctxOfTile t) && s.srOpen q && (k.isNone || k == some (srK r - 1)) then srSlotOf r t else none

/-! ## DISP.END (R342) -/

/-- Distinct owner ranks, in expert order. -/
def srOwners (r : List Nat) : List Nat := ((List.range (srNexp r)).map (srOwner r)).dedup

/-- A pending DISP.END goes on: END packets when every row is acknowledged; complete when every END is. -/
def State.endAdvance (s : State) (q j b : Nat) : State :=
  let r := s.srOf q
  let k := ((s.stream q).slot j).batch b
  if !k.ending ∨ k.done then s
  else if !k.endSent then
    if !k.acks.isEmpty then s
    else
      let a := (srOwners r).foldl (fun (a : List Nat × State) o =>
        let w := a.2.dispSend (srStile r j) o (dispAddr q 0 (if srBwd r then 2 else 0) 1 0 j 0 0) b []
        (a.1 ++ [w.1], w.2)) ([], s)
      (a.2.modStream q fun x => x.setSlot j ((x.slot j).setBatch { k with endSent := true, endAcks := a.1 })).syncBatch q
  else if k.endAcks.isEmpty then
    let t := srStile r j
    (s.modStream q fun x => x.setSlot j ((x.slot j).setBatch { k with done := true })).modTile t fun y =>
      { y with disp := y.disp.filter fun d => !(d.op == 1 && d.q == q && d.n == b) }
  else s

/-- DISP.END of slot j: the next send begins another batch. -/
def State.dispEnd (s : State) (t q j : Nat) : State :=
  let d := (s.stream q).slot j
  let b := d.cur
  let s := s.modStream q fun x => x.setSlot j { d.setBatch { d.batch b with ending := true } with cur := b + 1, used := [] }
  let s := s.modTile t fun y => { y with disp := y.disp ++ [⟨1, q, 0, 0, b, 0, 0, []⟩] }
  (s.endAdvance q j b).syncBatch q

/-- An acknowledgement of a DISP packet, or its loss: cst none for a write that was never acknowledged (R342, R357). -/
def State.dispAck (s : State) (wid : Nat) (cst : Option Nat) : State :=
  let hit := s.streams.findSome? fun e => e.2.slots.findSome? fun d => (d.2.batches.find? fun k =>
    (k.acks.any fun a => a.1 == wid) || k.endAcks.contains wid).map fun k => (e.1, d.1, k)
  match hit with
  | none => s
  | some h =>
    let q := h.1
    let j := h.2.1
    let k := h.2.2
    let r := s.srOf q
    if k.endAcks.contains wid then
      let k := { k with endAcks := k.endAcks.filter (· != wid) }
      let s := if cst.isNone && !k.aband then
          (s.modStream q fun x => x.setSlot j ((x.slot j).setBatch { k with aband := true })).bump (FDSCNT_ABNDN q) 1
        else s.modStream q fun x => x.setSlot j ((x.slot j).setBatch k)
      s.endAdvance q j k.b
    else
      let ti := ((k.acks.find? fun a => a.1 == wid).map (·.2)).getD 0
      let s := s.modStream q fun x => x.setSlot j ((x.slot j).setBatch { k with acks := k.acks.filter fun a => a.1 != wid })
      let s := if cst = some 0 then s
        else s.rwPut r (ti / 8) (ti % 8) (s.rwGet r (ti / 8) (ti % 8) ||| 2 ^ 15)
      s.endAdvance q j k.b

/-! ## Receive queues (R338, R344 to R346, R354) -/

/-- Window offset of buffer b of expert e. -/
def bufOff (r : List Nat) (e b : Nat) : Nat := srQoff r e + b * srQsz r

/-- Write bytes lo to lo + n − 1 of a row at a slot, plain or skewed (R338, R344). -/
def State.slotWrite (s : State) (r : List Nat) (e b slot lo : Nat) (bs : List (Nat × Bool)) : State :=
  let t := srQtile r e
  let o := bufOff r e b
  if !srSkew r then s.winWrite t (o + slot * srRowb r + lo) bs
  else
    let le_ := srE r
    (List.range (bs.length / le_)).foldl (fun s i =>
      let x := lo + i * le_
      let p := x / srW r
      let lane := x % srW r / le_
      s.winWrite t (o + p * srPsz r + (slot + lane) * srW r + lane * le_) ((bs.drop (i * le_)).take le_)) s

/-- Read a whole row at a slot. -/
def State.slotRead (s : State) (r : List Nat) (e b slot : Nat) : List (Nat × Bool) × State :=
  let t := srQtile r e
  let o := bufOff r e b
  if !srSkew r then s.winRead t (o + slot * srRowb r) (srRowb r) uMover
  else
    let le_ := srE r
    readMany (fun s x =>
      let p := x / srW r
      let lane := x % srW r / le_
      s.winByte t (o + p * srPsz r + (slot + lane) * srW r + lane * le_ + x % le_) uMover) s (List.range (srRowb r))

/-- Write a slot's tag. -/
def State.tagWrite (s : State) (r : List Nat) (e b slot : Nat) (d : DRow) : State :=
  s.winWrite (srQtile r e) (bufOff r e b + srTagOff r + slot * 8)
    (asBytes 8 (d.srank + d.token * 65536 + d.kslot * 2 ^ 32) false)

/-- Parts of a row. -/
def srParts (r : List Nat) : Nat := ceilDiv (srRowb r) 4096

/-- A row has landed (R344). -/
def DRow.landed (d : DRow) (n : Nat) : Bool := decide (n ≤ d.parts.length)

/-- Rows landed in a buffer. -/
def DBuf.total (x : DBuf) (n : Nat) : Nat := (x.rows.filter fun d => d.landed n).length

/-- Leading slots all landed; m bounds the count. -/
def DBuf.lead (x : DBuf) (n : Nat) : Nat → Nat → Nat
  | 0, k => k
  | m + 1, k => if x.rows.any fun d => d.slot == k && d.landed n then DBuf.lead x n m (k + 1) else k

/-- Where a packet for buffer b of expert e and batch n stands: it may be taken, waits on the link, or is late. -/
inductive Land where
  | take
  | wait
  | late
  deriving DecidableEq, Repr

/-- R346, R357. -/
def DBuf.place (x : DBuf) (n : Nat) : Land := match x.batch with
  | none => if x.aband then .late else .take
  | some h => if h % 4096 ≠ n % 4096 then .wait else if x.aband then .late else .take

/-- Fields of a DISP address. -/
def daQ (a : Nat) : Nat := bitsOf a 0 6
/-- EXP. -/
def daE (a : Nat) : Nat := bitsOf a 6 6
/-- DIR. -/
def daDir (a : Nat) : Nat := bitsOf a 12 2
/-- KIND. -/
def daKind (a : Nat) : Nat := bitsOf a 14 2
/-- PART. -/
def daPart (a : Nat) : Nat := bitsOf a 16 2
/-- TOKEN. -/
def daTok (a : Nat) : Nat := bitsOf a 18 16
/-- KSLOT. -/
def daK (a : Nat) : Nat := bitsOf a 34 3
/-- SLOT. -/
def daSlot (a : Nat) : Nat := bitsOf a 37 11

/-- Answer a DISP packet: a WRACK to its sender, or at once on the mesh (R343). -/
def State.dispAnswer (s : State) (p : Pkt) (cst : Nat) : State :=
  if p.srank = s.rank then
    match s.writes.find? fun w => w.kind == 3 && w.dst == s.rank && w.addr == p.addr && w.tag == p.tag with
    | some w => ({ s with writes := s.writes.erase w }).dispAck w.wid (some cst)
    | none => s
  else s.ackPkt p cst

/-- A malformed DISP packet is discarded and logged (R266, R342). -/
def State.dispMalformed (s : State) (port : Nat) (p : Pkt) : State := s.portReport port 0x47 1 (3 + p.drank * 256)

/-- What the DISP rows share: a packet from a port, or one of this device's own that waits in the mesh (R340). -/
def State.rxDisp (s : State) (port : Nat) (p : Pkt) (ready : Bool) (f : State → State) : State :=
  if p.srank = s.rank ∧ !s.mesh.contains p then s else s.rxPacketIf port p 10 ready f

/-- A buffer is CLOSED: END has come from every source, and every row that has begun to land has landed (R345). -/
def DBuf.full (x : DBuf) (nsrc parts : Nat) : Bool := decide (nsrc ≤ x.ends.length) && x.rows.all fun d => d.landed parts

/-- A buffer after a row or END: CLOSED once it is full, and READY with it unless a reorder is due (R345, R356). -/
def DBuf.settle (x : DBuf) (r : List Nat) (detm : Bool) : DBuf :=
  let c := x.closed || x.full (srNsrc r) (srParts r)
  { x with closed := c, ready := c && (!detm || srBwd r || x.ready) }

/-- Land a part of a row in a buffer at a slot, after its checks. A queue tile that is being marked refuses it (R202). -/
def State.landPart (s : State) (port q e b : Nat) (r : List Nat) (p : Pkt) (d : DRow) : State :=
  let n := srParts r
  let was := d.landed n
  let d := { d with parts := if d.parts.contains (daPart p.addr) then d.parts else d.parts ++ [daPart p.addr] }
  if s.refusesWrite (tileBase (srQtile r e)) then
    (s.extFault (tileBase (srQtile r e) + bufOff r e b) 3 (srcOf 3 port)).dispAnswer p 1
  else
    let s := (s.slotWrite r e b d.slot (4096 * daPart p.addr) (pktData p)).tagWrite r e b d.slot d
    let dt := s.detm
    let s := s.modStream q fun x =>
      let f := x.buf e b
      let g : DBuf := { f with batch := some p.tag, rows := (f.rows.filter fun y => y.slot != d.slot) ++ [d] }
      { x.setBuf e b (g.settle r dt) with recv := if d.landed n && !was then cntInc x.recv e else x.recv }
    s.dispAnswer p 0

/-- What a DIR 0 or 2 row says of this device's queue is wrong (R342): the stream is not VALID here or goes the other way, the expert is not
owned here, or part and length do not fit the row. -/
def State.rowBad (s : State) (p : Pkt) (bwd : Bool) : Bool :=
  let r := s.srOf (daQ p.addr)
  let e := daE p.addr
  !srValid r || srBwd r != bwd || decide (srNexp r ≤ e) || srOwner r e != s.rank || decide (srParts r ≤ daPart p.addr)
    || p.len != min 4096 (srRowb r - 4096 * daPart p.addr)

/-- The buffer a row names. -/
def State.rowBuf (s : State) (p : Pkt) : DBuf := (s.stream (daQ p.addr)).buf (daE p.addr) (p.tag % 2)

/-- FORWARD_ROW (R344): a DIR 0 row packet that arrived on port port, or crossed the mesh. One for a buffer that still holds the batch before
waits on the link (R346); one of a reserved KIND comes here to be discarded. -/
def execForwardRow (port : Nat) (p : Pkt) (s : State) : Host.Outcome State Fault Refusal :=
  let q := daQ p.addr
  let e := daE p.addr
  let r := s.srOf q
  let b := p.tag % 2
  let f := s.rowBuf p
  .next (
    if daDir p.addr ≠ 0 ∨ daKind p.addr = 1 then s
    else s.rxDisp port p (s.rowBad p false || f.place p.tag != .wait) fun s =>
      if s.rowBad p false then s.dispMalformed port p
      else if f.place p.tag = .late then (s.bump (FDSCNT_LATE q) 1).dispAnswer p 0
      else match f.rows.find? fun d => d.srank == p.srank && d.token == daTok p.addr && d.kslot == daK p.addr with
        | some d => s.landPart port q e b r p d
        | none =>
          let slot := f.rows.length
          if s.capOf q e ≤ slot then (if daPart p.addr = 0 then s.bump (FDSCNT_QOVF q) 1 else s).dispAnswer p 1
          else s.landPart port q e b r p ⟨slot, p.srank, daTok p.addr, daK p.addr, []⟩)

/-- BACKWARD_ROW (R354): a DIR 2 row lands at its forward slot. -/
def execBackwardRow (port : Nat) (p : Pkt) (s : State) : Host.Outcome State Fault Refusal :=
  let q := daQ p.addr
  let e := daE p.addr
  let r := s.srOf q
  let b := p.tag % 2
  let f := s.rowBuf p
  .next (
    if daDir p.addr ≠ 2 ∨ daKind p.addr = 1 then s
    else s.rxDisp port p (s.rowBad p true || f.place p.tag != .wait) fun s =>
      if s.rowBad p true then s.dispMalformed port p
      else if f.place p.tag = .late then (s.bump (FDSCNT_LATE q) 1).dispAnswer p 0
      else match f.rows.find? fun d => d.slot == daSlot p.addr with
        | some d =>
          if d.parts.contains (daPart p.addr) ∨ d.srank ≠ p.srank ∨ d.token ≠ daTok p.addr ∨ d.kslot ≠ daK p.addr then
            (s.bump (FDSCNT_QOVF q) 1).dispAnswer p 1
          else s.landPart port q e b r p d
        | none =>
          if srQslots r ≤ daSlot p.addr then (s.bump (FDSCNT_QOVF q) 1).dispAnswer p 1
          else s.landPart port q e b r p ⟨daSlot p.addr, p.srank, daTok p.addr, daK p.addr, []⟩)

/-- END_PACKET (R342, R345): a source has ended a batch at every queue of the stream here. -/
def execEndPacket (port : Nat) (p : Pkt) (s : State) : Host.Outcome State Fault Refusal :=
  let q := daQ p.addr
  let r := s.srOf q
  let b := p.tag % 2
  let x := s.stream q
  let mine := (List.range (srNexp r)).filter fun e => srOwner r e == s.rank
  let who := (p.srank, daTok p.addr % 4)
  let bad := !srValid r || srBwd r != (daDir p.addr == 2) || mine.isEmpty
  .next (
    if daDir p.addr % 2 ≠ 0 ∨ daKind p.addr ≠ 1 then s
    else s.rxDisp port p (bad || !mine.any fun e => (x.buf e b).place p.tag == .wait) fun s =>
      if bad then s.dispMalformed port p
      else
        let s := if mine.any fun e => (x.buf e b).place p.tag == .late then s.bump (FDSCNT_LATE q) 1 else s
        let dt := s.detm
        let s := s.modStream q fun x => mine.foldl (fun x e =>
          let f := x.buf e b
          if f.place p.tag ≠ .take then x
          else
            let g : DBuf := { f with batch := some p.tag, ends := if f.ends.contains who then f.ends else f.ends ++ [who] }
            x.setBuf e b (g.settle r dt)) x
        s.dispAnswer p 0)

/-- Rows in ascending (SRANK, TOKEN) order. -/
def rowInsert (d : DRow) : List DRow → List DRow
  | [] => [d]
  | y :: ys => if d.srank < y.srank ∨ (d.srank = y.srank ∧ d.token < y.token) then d :: y :: ys else y :: rowInsert d ys

/-- REORDER_DONE (R356): buffer b of expert e of stream q is sorted and READY. -/
def execReorderDone (q : Nat) (e : Nat) (b : Nat) (s : State) : Host.Outcome State Fault Refusal :=
  let r := s.srOf q
  let f := (s.stream q).buf e b
  .next (
    if !f.closed ∨ f.ready ∨ f.aband then s
    else
      let sorted := f.rows.foldl (fun l d => rowInsert d l) []
      let old := sorted.foldl (fun (a : List (List (Nat × Bool)) × State) d =>
        let x := a.2.slotRead r e b d.slot
        (a.1 ++ [x.1], x.2)) ([], s)
      let new := (sorted.zipIdx).map fun d => { d.1 with slot := d.2 }
      let s := (new.zip old.1).foldl (fun s d => (s.slotWrite r e b d.1.slot 0 d.2).tagWrite r e b d.1.slot d.1) old.2
      s.modStream q fun x => x.setBuf e b { f with rows := new, ready := true })

/-! ## Returns (R349, R350) -/

/-- The sender slot whose token range holds t. -/
def Stream.slotOfTok (x : Stream) (r : List Nat) (t : Nat) : Option Nat :=
  (List.range (srNst r)).find? fun j => decide ((t + 65536 - srTbase r j) % 65536 < (x.slot j).rows)

/-- RETURN (R350): a return slice lands at the sender and updates its return word. -/
def execReturnRow (port : Nat) (p : Pkt) (s : State) : Host.Outcome State Fault Refusal :=
  let q := daQ p.addr
  let r := s.srOf q
  let t := daTok p.addr
  let i := daK p.addr
  let roff := (bitsOf p.addr 6 6 + 64 * bitsOf p.addr 16 2) * 64
  let dst := addrDev (srRetbase r) + (t * srK r + i) * srOrb r + roff
  let j := (s.stream q).slotOfTok r t
  let k := ((s.stream q).slot (j.getD 0)).batches.find? fun k => k.b % 4096 == p.tag
  let w := s.rwGet r t i
  .next (
    if daDir p.addr % 2 ≠ 1 then s
    else s.rxDisp port p true fun s =>
      if !srValid r ∨ srBwd r ≠ (daDir p.addr == 3) ∨ srK r ≤ i ∨ j.isNone ∨ srOrb r < roff + p.len ∨ p.len % 64 ≠ 0 then
        s.dispMalformed port p
      else if (match k with
        | some k => k.aband
        | none => false) then (s.bump (FDSCNT_LATE q) 1).dispAnswer p 0
      else if bitsOf w 12 4 ≠ 0 then (s.bump (FDSCNT_QOVF q) 1).dispAnswer p 1
      else if !s.isMem dst p.len then s.dispAnswer p 1
      else if s.refusesWrite dst then (s.extFault dst 3 (srcOf 3 port)).dispAnswer p 1
      else
        let landed := bitsOf w 16 9 + p.len / 64
        let arrived := decide (srOrb r ≤ landed * 64)
        let s := (if dst < 0x8000000000 then s.countBurst dst p.len else s).memWrite dst (pktData p)
        let s := s.rwPut r t i (daSlot p.addr + (if arrived then 2 ^ 12 else 0) + landed % 512 * 65536)
        let s := match k with
          | some k => if arrived then s.modStream q fun x =>
              x.setSlot (j.getD 0) ((x.slot (j.getD 0)).setBatch { k with arrived := k.arrived + 1 }) else s
          | none => s
        s.dispAnswer p 0)

/-- A dispatch descriptor's fields (Table 11.4): reserved bytes, RET, Q, BUF, EXP, FSLOT, NROWS, ROWADDR, OSTRIDE, COFF, CLEN,
IDXADDR. -/
def fdBad (d : List Nat) : Bool :=
  bitsOf (le d 0 1) 1 7 != 0 || bitsOf (le d 1 1) 6 2 != 0 || bitsOf (le d 2 1) 1 7 != 0 || bitsOf (le d 3 1) 6 2 != 0
    || le d 22 2 != 0 || (d.drop 32).any (· != 0)
/-- RET. -/
def fdRet (d : List Nat) : Bool := bitOf (le d 0 1) 0
/-- Q. -/
def fdQ (d : List Nat) : Nat := bitsOf (le d 1 1) 0 6
/-- ROWADDR of row r. -/
def fdRow (d : List Nat) (r : Nat) : Nat := le d 8 8 + r * le d 16 2

/-- A fused dispatch may be paired on tile t (R340, R349): otherwise the invalid-operand trap. -/
def State.fuseDispOk (s : State) (t : Nat) (d : List Nat) : Bool :=
  let q := fdQ d
  let r := s.srOf q
  !fdBad d && (if fdRet d then
      srValid r && s.srCtxIs q (s.ctxOfTile t) && decide (bitsOf (le d 3 1) 0 6 < srNexp r)
        && srOwner r (bitsOf (le d 3 1) 0 6) == s.rank && le d 18 2 % 64 == 0 && le d 20 2 % 64 == 0
        && decide (le d 18 2 + le d 20 2 ≤ srOrb r)
    else (s.sendOk t q none).isSome)

/-- The tag of a slot as its bank holds it: SRANK, TOKEN, KSLOT; none where it cannot be read (R338). -/
def State.tagRead (s : State) (r : List Nat) (e b slot : Nat) : Option (Nat × Nat × Nat) × State :=
  let x := s.winRead (srQtile r e) (bufOff r e b + srTagOff r + slot * 8) 8 uMover
  let v := valOf x.1
  (if anyPois x.1 then none else some (bitsOf v 0 16, bitsOf v 16 16, bitsOf v 32 3), x.2)

/-- Return one output row: row k of the descriptor goes to the sender named by its slot's tag (R349). A tag that cannot be read names nobody,
and its row is not sent (DESIGN CHOICE, log entry 94). -/
def State.returnOne (s : State) (t : Nat) (d : List Nat) (k : Nat) : State :=
  let q := fdQ d
  let r := s.srOf q
  let e := bitsOf (le d 3 1) 0 6
  let b := bitsOf (le d 2 1) 0 1
  let f := (s.stream q).buf e b
  let slot := le d 4 2 + k
  if f.total (srParts r) ≤ slot then s
  else
    let g := s.tagRead r e b slot
    match g.1 with
    | none => g.2
    | some x =>
      let row := g.2.winRead t (fdRow d k) (le d 20 2) uMover
      let a := fun (p : Nat) => retAddr q (le d 18 2 / 64 + 64 * p) (if srBwd r then 3 else 1) x.2.1 x.2.2 slot
      (row.2.dispRow t x.1 (f.batch.getD 0) a 0 (packetsOf 5 row.1)).2

/-- Bytes of an output row of a fused dispatch. -/
def State.fdLen (s : State) (d : List Nat) : Nat := if fdRet d then le d 20 2 else srRowb (s.srOf (fdQ d))

/-- The rows of a fused dispatch whose last byte lies in a chunk just written are handed over (R181, R349). -/
def State.fuseDisp (s : State) (t : Nat) (d : List Nat) (chunk : List Rng) : State :=
  let q := fdQ d
  let r := s.srOf q
  let n := s.fdLen d
  let last := fun (k : Nat) => fdRow d k + n - 1
  (List.range (le d 6 2)).foldl (fun s k =>
    if !chunk.any fun g => decide (g.lo ≤ last k) && decide (last k < g.lo + g.len) then s
    else if fdRet d then s.returnOne t d k
    else
      match s.sendOk t q none with
      | none => s
      | some j =>
        let row := s.winRead t (fdRow d k) n uMover
        let ix := row.2.indexRow t (le d 24 8 + k * srK r) (srK r)
        ix.2.sendRow q j (some row.1) ix.1) s

/-- Rows that fused dispatches of tile t in flight may still send on stream q. -/
def State.fusePend (s : State) (t q : Nat) : Nat :=
  let ds := ((s.tile t).prods.filterMap fun p => p.fuse) ++ ((s.tile t).vq.filterMap fun v => match v with
    | .vec j => (j.fuse.filter fun f => f.1 == 1).map (·.2)
    | _ => none)
  ((ds.filter fun d => fdQ d == q && !fdRet d).map fun d => le d 6 2).sum

/-- What a fused dispatch adds to its instruction's entry of the range tracker (R153): the index array it reads and the return words it
writes, those of every token it may come to send counted in. -/
def State.fuseRngs (s : State) (t : Nat) (d : List Nat) : List Rng × List Rng :=
  let q := fdQ d
  let r := s.srOf q
  if fdRet d then ([], [])
  else match s.sendOk t q none with
    | none => ([], [])
    | some j =>
      let rows := ((s.stream q).slot j).rows
      (s.ownRng t (le d 24 8) (le d 6 2 * srK r), s.rwRngs t r ((srTbase r j + rows) % 65536) (s.fusePend t q + le d 6 2))

/-! ## DISP.CNT (R347) -/

/-- The result of DISP.CNT with operand v on tile t; none raises the invalid-operand trap. -/
def State.dispCnt (s : State) (t v : Nat) : Option (BitVec 64) :=
  let q := bitsOf v 0 6
  let e := bitsOf v 6 6
  let b := bitsOf v 12 1
  let r := s.srOf q
  let fl := fun (x : Bool) (i : Nat) => if x then 2 ^ i else 0
  if !srValid r ∨ !s.srCtxIs q (s.ctxOfTile t) then none
  else if bitOf v 13 then
    match srSlotOf r t with
    | none => none
    | some j =>
      let d := (s.stream q).slot j
      let k := (d.batches.filter fun k => k.b % 2 == b).foldl (fun m k => if m.b ≤ k.b then k else m) ⟨b, [], false, false, [], false, 0, 0, false⟩
      some (BitVec.ofNat 64 (min 65535 k.arrived + min 65535 k.sent * 65536 + fl k.done 32 + fl k.aband 34 + k.b % 4096 * 2 ^ 36))
  else if srNexp r ≤ e ∨ srOwner r e ≠ s.rank then none
  else
    let f := (s.stream q).buf e b
    let n := srParts r
    let hide := s.detm && !f.ready
    let N := if hide then 0 else f.lead n 2048 0
    let T := if hide then 0 else f.total n
    some (BitVec.ofNat 64 (N + T * 65536 + fl f.closed 32 + fl f.ready 33 + fl f.aband 34 + f.batch.getD 0 % 4096 * 2 ^ 36))

/-! ## Timeouts (R357) -/

/-- DISPATCH_TIMEOUT (R357): a buffer that has received something of a batch and is not CLOSED is abandoned. -/
def execDispatchTimeout (q : Nat) (e : Nat) (b : Nat) (s : State) : Host.Outcome State Fault Refusal :=
  let f := (s.stream q).buf e b
  .next (if f.batch.isNone ∨ f.closed ∨ f.aband then s
    else (s.modStream q fun x => x.setBuf e b { f with aband := true }).bump (FDSCNT_ABNDN q) 1)

/-! ## Registers of a stream (R351 to R353, R358, R359) -/

/-- The histogram record (Table 11.7). -/
def histBytes (x : Stream) (step now : Nat) : List Nat :=
  leBytes 4 step ++ leBytes 4 0 ++ leBytes 8 now ++ ((List.range 64).flatMap fun e => leBytes 4 (cntGet x.demand e))
    ++ ((List.range 64).flatMap fun e => leBytes 4 (cntGet x.sent e)) ++ ((List.range 64).flatMap fun e => leBytes 4 (cntGet x.recv e))
    ++ List.replicate 240 0

/-- POST with STEP = st (R351); on a backward stream it only closes sending (R353). -/
def State.fdsPost (s : State) (q st : Nat) : State :=
  let r := s.srOf q
  let bwd := srBwd r
  let s := s.setFld (FDSSTAT_STATE q) 0
  if bwd then s
  else
    let s := s.tblPut (aFHIST (q * 128)) (histBytes (s.stream q) st s.now)
    let s := s.modStream q fun x => { x with demand := [], sent := [], recv := [] }
    let s := ((s.setFld (FDSDL_DEADLINE q) (s.now + srPlanto r * 1000)).setFld (FDSSTAT_DECIDED q) 0).setFld (FDSSTAT_HAVE q) 0
    let s := match s.streamCtx q with
      | some c => s.event c.1 2 q ((st + 1) % 2 ^ 32) (aFHIST (q * 128))
      | none => s
    if s.replay then ({ s with ledWant := s.ledWant ++ [(q, st + 1)] }).ledPlans else s

/-- OPEN (R353). -/
def State.fdsOpen (s : State) (q : Nat) (useNew : Bool) : State :=
  let r := s.srRec q
  let bwd := srBwd r
  if s.srOpen q ∨ !s.flag (FDSSTAT_DECIDED q) ∨ (!bwd && useNew && !s.flag (FDSSTAT_HAVE q)) then s.setFld (FDSSTAT_OPENERR q) 1
  else
    let s := if bwd then s
      else if useNew then
        let plan := s.tblBytes (aFPLAN (q * 128 + 32)) 256
        (s.tblPut (aFPLAN (q * 128 + 64)) plan).setFld (FDSSTAT_PLANSTEP q) (le plan 0 4)
      else s.bump (FDSCNT_REUSE q) 1
    let s := (s.setFld (FDSSTAT_STATE q) 1).setFld (FDSSTAT_BATCH q) 0
    let s := s.modStream q fun x => { x with rec_ := r, slots := [], demand := [], sent := [], recv := [] }
    s.led 3 false q (s.fld (FDSSTAT_PLANSTEP q)) (if useNew then 1 else 0) []

/-- REL of buffer b of expert e (R359). -/
def State.fdsRel (s : State) (q e b : Nat) : State := s.modStream q fun x => x.setBuf e b DBuf.reset

/-- ABORT (R358): both buffers of every queue here and the slots' returns are abandoned, no END is sent; the stream is IDLE. -/
def State.fdsAbort (s : State) (q : Nat) : State :=
  let r := s.srOf q
  let mine := (List.range (srNexp r)).filter fun e => srOwner r e == s.rank
  let s := s.modStream q fun x =>
    let x := mine.foldl (fun x e => [0, 1].foldl (fun x b => Stream.setBuf x e b { Stream.buf x e b with aband := true }) x) x
    (List.range (srNst r)).foldl (fun x j =>
      let d := Stream.slot x j
      let d : DSlot := { d with batches := d.batches.map fun k => { k with aband := true, ending := k.ending && k.endSent } }
      Stream.setSlot x j (d.setBatch { d.batch d.cur with aband := true })) x
  let s := s.each (s.tiles.map (·.1)) fun s t => s.modTile t fun y => { y with disp := y.disp.filter fun d => d.q != q }
  s.setFld (FDSSTAT_STATE q) 0

/-- A sender tile is reset: no END of its batches is sent any more (R360). -/
def State.dispReset (s : State) (t : Nat) : State :=
  { s with streams := s.streams.map fun e =>
      match srSlotOf (s.srOf e.1) t with
      | none => e
      | some j =>
        let d := e.2.slot j
        (e.1, e.2.setSlot j { d with batches := d.batches.map fun k => { k with ending := k.ending && k.endSent } }) }

/-- FDSPDB (R352): a plan for step st is offered. -/
def State.fdsDoorbell (s : State) (q st : Nat) : State :=
  let r := s.srOf q
  let plan := s.tblBytes (aFPLAN (q * 128)) 256
  let want := (le (s.tblBytes (aFHIST (q * 128)) 8) 0 4 + 1) % 2 ^ 32
  let caps := (List.range (srNexp r)).all fun e => le plan (16 + 2 * e) 2 % srPad r == 0 && decide (le plan (16 + 2 * e) 2 ≤ srQslots r)
  let ok := decide (s.now < s.fld (FDSDL_DEADLINE q)) && st == want && le plan 0 4 == want
    && bitsOf (le plan 4 1) 0 7 == srNexp r && caps && !s.replay
  if ok then
    let s := s.tblPut (aFPLAN (q * 128 + 32)) plan
    ((s.setFld (FDSSTAT_HAVE q) 1).setFld (FDSSTAT_DECIDED q) 1).led 2 false q want 0 plan
  else s.bump (FDSCNT_LATE q) 1

/-- A requester may use stream q's registers (R361): PF 0 or the stream's context. -/
def State.fdsMay (s : State) (q c : Nat) : Bool := c == 0 || s.srCtxIs q (some c)

/-- POST (R351): context c writes FDSCTL of stream q with POST and STEP = st. -/
def execPost (c : Nat) (q : Nat) (st : Nat) (s : State) : Host.Outcome State Fault Refusal :=
  .next (if q < 64 then (if s.fdsMay q c then s.fdsPost q (st % 2 ^ 32) else s.refuse (aFDSCTL q) c) else s)
/-- OPEN (R353). -/
def execOpenBuf (c : Nat) (q : Nat) (useNew : Bool) (s : State) : Host.Outcome State Fault Refusal :=
  .next (if q < 64 then (if s.fdsMay q c then s.fdsOpen q useNew else s.refuse (aFDSCTL q) c) else s)
/-- REL (R359). -/
def execRel (c : Nat) (q : Nat) (e : Nat) (b : Nat) (s : State) : Host.Outcome State Fault Refusal :=
  .next (if q < 64 then (if s.fdsMay q c then s.fdsRel q (e % 64) (b % 2) else s.refuse (aFDSCTL q) c) else s)
/-- FDSCTL_ABORT (R358). -/
def execFdsctlAbort (c : Nat) (q : Nat) (s : State) : Host.Outcome State Fault Refusal :=
  .next (if q < 64 then (if s.fdsMay q c then s.fdsAbort q else s.refuse (aFDSCTL q) c) else s)
/-- PLAN_DOORBELL (R352). -/
def execPlanDoorbell (c : Nat) (q : Nat) (st : Nat) (s : State) : Host.Outcome State Fault Refusal :=
  .next (if q < 64 then (if s.fdsMay q c then s.fdsDoorbell q (st % 2 ^ 32) else s.refuse (aFDSPDB q) c) else s)

/-- PLAN_DEADLINE (R352): TBTIME has reached FDSDL; in replay the deadline plays no part (R436). -/
def execPlanDeadline (q : Nat) (s : State) : Host.Outcome State Fault Refusal :=
  .next (if q < 64 ∧ s.fld (FDSDL_DEADLINE q) ≤ s.now ∧ !s.replay then s.setFld (FDSSTAT_DECIDED q) 1 else s)

end Sys2Proof.Machine
end

