-- ==== Sys2Proof/Machine/Operands.lean ====
section
/-! DEFINITION. Instruction fields and the issue of an instruction by a tile's sequencer: fetch, encoding check, predicate,
register and range hazards, precise traps, loops and the program counter (R147 to R155, R158, R183, R184). -/

namespace Sys2Proof.Machine

/-- What a step answers: every command leaves a next state. -/
abbrev Res := Host.Outcome State Fault Refusal

/-! ## Fields of the instruction word (bits 53 to 0) -/

/-- Field of w bits at lo. -/
def fb (b : BitVec 54) (lo w : Nat) : Nat := bitsOf b.toNat lo w
/-- One-bit field. -/
def fb1 (b : BitVec 54) (i : Nat) : Bool := bitOf b.toNat i
/-- Signed field. -/
def fbs (b : BitVec 54) (lo w : Nat) : Int := toIntW w (fb b lo w)
/-- Mask of bits lo to hi. -/
def span (hi lo : Nat) : Nat := 2 ^ (hi + 1) - 2 ^ lo

/-- Bits 49 to 0 outside the named fields (R150). -/
def rsvOut (fields : List (Nat × Nat)) : Nat := (2 ^ 50 - 1) - ((fields.map fun f => span f.1 f.2).sum)

/-! ## Loops and the program counter (R155) -/

/-- An index lies in a loop's body. -/
def LoopC.inBody (l : LoopC) (i : Nat) : Bool :=
  decide ((i + 8192 - l.start.toNat) % 8192 ≤ (l.stop.toNat + 8192 - l.start.toNat) % 8192)

/-- The active loop tested after the instruction at index i: the highest-numbered one that ends there. -/
def Tile.loopAt (x : Tile) (i : Nat) : Option Nat :=
  [3, 2, 1, 0].find? fun c => (x.loop c).active && (x.loop c).stop.toNat == i

/-- Move past the instruction at the program counter, testing a loop that ends there (R155). -/
def State.advance (s : State) (t : Nat) : State :=
  let i := s.pc t
  let x := s.tile t
  match x.loopAt i with
  | none => s.setPc t (i + 1)
  | some c =>
    let l := x.loop c
    if 1 < l.count.toNat then
      (s.setTile t (x.setLoop c { l with count := l.count - 1 })).setPc t l.start.toNat
    else (s.setTile t (x.setLoop c { l with active := false })).setPc t (i + 1)

/-- A taken branch to g makes loop c inactive when g lies outside its body (R155). -/
def Tile.endLoop (x : Tile) (c g : Nat) : Tile :=
  let l := x.loop c
  if l.active && !l.inBody g then x.setLoop c { l with active := false } else x

/-- A taken branch: loops whose body does not hold the target become inactive (R155). -/
def State.jumpTo (s : State) (t target : Nat) : State :=
  let g := target % 8192
  (s.modTile t fun x => [0, 1, 2, 3].foldl (fun x c => Tile.endLoop x c g) x).setPc t g

/-! ## What is in flight -/

/-- Range of an accumulator tile in the window (R76). -/
def accTileRng (a : Nat) : Rng := ⟨0x200000 + a * 0x1000, 0x1000⟩

/-- Two ranges share a 64-byte line (R153). -/
def Rng.meets (a b : Rng) : Bool :=
  a.len != 0 && b.len != 0 && decide (a.lo / 64 ≤ (b.lo + b.len - 1) / 64) && decide (b.lo / 64 ≤ (a.lo + a.len - 1) / 64)

/-- Bytes of one in-flight vector-datapath job read and written. -/
def VJob.ranges (base : Nat → Nat) : VJob → List Rng × List Rng
  | .vec j => (j.rd, j.wr)
  | .spill w => (w.map fun p => ⟨base p.1, 6144⟩, (w.map fun p => ⟨base p.1, 6144⟩) ++ w.map fun p => accTileRng p.1)
  | .round a => ([⟨base a, 6144⟩], [accTileRng a])
  | .chain tile src spn inc loc out _ _ _ =>
    let n := if spn = 0 then 6144 else 3072
    let lr := if src = 0 then ⟨loc, 6144⟩ else accTileRng tile
    ([⟨inc, n⟩, lr], [⟨out, if out = loc ∧ src = 0 then 6144 else n⟩])

/-- Buffer offset bound to accumulator tile a of tile t (TSPBNDa.BASE × 64). -/
def State.bufBase (s : State) (t a : Nat) : Nat := s.fld (TSPBND_BASE t a) * 64

/-- All in-flight ranges of a tile: read, written. -/
def State.inFlight (s : State) (t : Nat) : List (List Rng × List Rng) :=
  let x := s.tile t
  (x.prods.map fun p => (p.rd, p.wr)) ++ (x.vq.map (VJob.ranges (s.bufBase t))) ++ (x.xfers.map fun f => (f.rd, f.wr))
    ++ (x.disp.map fun d => (d.rd, []))

/-- The range tracker holds an access back (R152, R153). -/
def State.rangeHold (s : State) (t : Nat) (rd wr : List Rng) : Bool :=
  let fl := s.inFlight t
  fl.any fun f =>
    (f.2.any fun w => (rd ++ wr).any fun a => a.meets w) || (f.1.any fun r => wr.any fun a => a.meets r)

/-- The tracker's 16 entries are taken (R153). -/
def State.trackerFull (s : State) (t : Nat) : Bool := decide (16 ≤ (s.inFlight t).length)

/-- Registers an unfinished SIG, MBX, TOK.RD or DISP.CNT operation will write (R174). -/
def Tile.opRegs (x : Tile) : List Nat :=
  (match x.mbx with
    | some m => if m.op = 0 then [] else [m.sd]
    | none => []) ++ (match x.sig with
    | some g => [g.sd]
    | none => [])

/-- Registers an unfinished asynchronous operation will write (R152). -/
def Tile.pendRegs (x : Tile) : List Nat :=
  x.loads.map (·.sd) ++ x.opRegs

/-! ## Issue -/

/-- What an instruction that is due does. -/
inductive Act where
  /-- a hazard holds it at issue -/
  | hold
  /-- it is held at issue under the wait timeout (R174, R272, R306) -/
  | held (why : HoldWhy)
  /-- it raises a precise trap -/
  | trap (cause code : Nat)
  /-- it raises a precise trap after reads of its own, whose counts and reports stand (R203) -/
  | trapAt (s : State) (cause code : Nat)
  /-- it issues and the sequencer moves on -/
  | fall (s : State)
  /-- it issues and branches -/
  | jump (s : State) (target : Nat)
  /-- it issues and skips forward, no branch taken -/
  | skip (s : State) (target : Nat)
  /-- it issues and the sequencer stops, the program counter moving on as after any instruction -/
  | stop (s : State)
  /-- it issues as a fused prefix of the next instruction -/
  | fused (s : State) (p : FusePfx)

/-- A tile's sequencer can issue: RUNNING, no trap found, no wait outstanding, the device not halted and its partition
holding a context that is not being switched (R457, R467, R468). -/
def State.canIssue (s : State) (t : Nat) : Bool :=
  decide (t < 2048) && s.fld (TSQSTAT_STATE t) == stRunning && (s.tile t).trap.isNone && (s.tile t).wait.isNone && !s.frozen
    && (match s.partOfTile t with
      | some p => !s.switching p && s.flag (HPSTAT_HELD p)
      | none => false)

/-- The instruction executes: p[PRED] XOR PNEG (R149). -/
def Tile.executes (x : Tile) (b : BitVec 54) : Bool := xor (x.preg (fb b 51 3)) (fb1 b 50)

/-- The sequencer's fetch of the word at PC (R151). -/
def State.fetch (s : State) (t : Nat) : List (Nat × Bool) × State := s.winRead t (0x1F0000 + s.pc t * 8) 8 uFetch

/-- An instruction has issued: no prefix is pending before the next one, and none is held. -/
def Tile.issued (x : Tile) : Tile := { x with fuse := none, held := none }

/-- The class and operation of an instruction word (its bits [63:54]) are ones this manual defines (R148, R150). -/
def knownOp (top : Nat) : Bool :=
  let op := top % 64
  match top / 64 with
  | 0 => decide (op ≤ 7)
  | 1 => decide (op ≤ 0x0C) || (decide (0x10 ≤ op) && decide (op ≤ 0x18)) || (decide (0x20 ≤ op) && decide (op ≤ 0x25))
      || (decide (0x28 ≤ op) && decide (op ≤ 0x2B)) || (decide (0x30 ≤ op) && decide (op ≤ 0x32))
  | 2 => decide (op ≤ 6) || (decide (8 ≤ op) && decide (op ≤ 0x0B)) || (decide (0x10 ≤ op) && decide (op ≤ 0x13))
  | 3 => op == 0
  | 4 => decide (op ≤ 4)
  | 5 => decide (op ≤ 0x10)
  | 6 => op == 0
  | 7 => decide (op ≤ 6)
  | 8 => decide (op ≤ 5)
  | 9 => decide (op ≤ 1)
  | 10 => decide (op ≤ 2)
  | _ => false

/-- The word of a row: its class and operation in bits [63:54] (R148), the operand's bits below. -/
def rowWord (cls op : Nat) (b : BitVec 54) : Nat := (cls * 64 + op) * 2 ^ 54 + b.toNat

/-- What a fetch of word i may still return beside the bank's word: words written over since the last FENCE.I (R151); none for
one that was poisoned or never written. -/
def Tile.oldWords (x : Tile) (i : Nat) : List (Option Nat) := (x.olds.filter fun o => o.1 == i).map (·.2)

/-- What an instruction that is due and free to issue does (R154, R155, R181 to R184): s is the state before its fetch and f the state
after it. -/
def State.perform (s : State) (t : Nat) (f : State) : Act → State
  | .hold => s
  | .held why => s.modTile t fun x => { x with held := some ⟨s.pc t, why⟩ }
  | .trap c code => f.raise t c false (s.pc t) code
  | .trapAt s' c code => s'.raise t c false (s.pc t) code
  | .fall s' => (s'.modTile t Tile.issued).advance t
  | .jump s' g => (s'.modTile t Tile.issued).jumpTo t g
  | .skip s' g => (s'.modTile t Tile.issued).setPc t g
  | .fused s' p => (s'.modTile t fun x => { x with fuse := some p, held := none }).advance t
  | .stop s' => (s'.modTile t Tile.issued).advance t

/-- Issue one instruction of tile t, the row of class cls and operation op with operand bits b: rsv holds the word's reserved bits,
regs the scalar registers it reads or writes, fuseOk which prefix kinds may stand before it (R149 to R152, R181). A tile that
cannot issue, is held, or fetches another word is unchanged; but where the fetch finds a poisoned word or one of no defined
operation, the trap is found whichever row asks; where the word and one written over before it differ in this, either trap (R151). -/
def State.issue (s : State) (t cls op : Nat) (b : BitVec 54) (rsv : Nat) (regs : List Nat) (fuseOk : Nat → Bool) (body : State → Act) : State :=
  if !s.canIssue t then s
  else
    let f := s.fetch t
    let i := s.pc t
    let olds := (s.tile t).oldWords i
    if !((!anyPois f.1 && valOf f.1 == rowWord cls op b) || olds.contains (some (rowWord cls op b))) then
      let gone := anyPois f.1 || olds.contains none
      let odd := (!anyPois f.1 && !knownOp (valOf f.1 / 2 ^ 54)) || olds.any (fun w => !knownOp (w.getD 0 / 2 ^ 54))
      if gone && odd then f.2.freshen.raise t (if Config.coin f.2.fresh then 5 else 1) false i 0
      else if gone then f.2.raise t 5 false i 0
      else if odd then f.2.raise t 1 false i 0
      else s
    else if b.toNat &&& rsv ≠ 0 then f.2.raise t 1 false i 0
    else
      let bad := match (s.tile t).fuse with
        | some p => !fuseOk p.kind
        | none => false
      if bad then f.2.raise t 1 false i 0
      else if !(s.tile t).executes b then (f.2.modTile t Tile.issued).advance t
      else if regs.any fun r => (s.tile t).pendRegs.contains r then
        if regs.any fun r => (s.tile t).opRegs.contains r then s.modTile t fun x => { x with held := some ⟨i, .regs regs⟩ } else s
      else
        s.perform t f.2 (body f.2)

/-- No fused prefix may stand before the instruction. -/
def noFuse (_ : Nat) : Bool := false

/-! ## Window offsets of MTX, VEC and ACC operands (R158) -/

/-- The n bytes at offset v lie wholly in the bank data region (scratch: below the stream cache) or wholly in the
accumulator file. -/
def State.opRange (s : State) (t v n : Nat) : Bool :=
  decide (v < 2 ^ 22) && ((decide (v < s.scBase t) && decide (v + n ≤ s.scBase t)) || (decide (0x200000 ≤ v) && decide (v < 0x208000) && decide (v + n ≤ 0x208000)))

/-- The n bytes at offset v lie wholly in scratch (R121, R133). -/
def State.inScratch (s : State) (t v n : Nat) : Bool := decide (v < s.scBase t) && decide (v + n ≤ s.scBase t)

end Sys2Proof.Machine
end

