-- ==== Sys2Proof/Machine/Flags.lean ====
section
/-! DEFINITION. Flag computations: VSTAT and BLKUF (R98, R118), and the array status register TMXSTAT (R89). -/

namespace Sys2Proof.Machine

/-- Count one MX encode with lost elements (R98). -/
def State.countFlush (s : State) (count maxn : Fld) (lost : Nat) : State :=
  if lost = 0 then s
  else
    let s := s.bump count 1
    if s.fld maxn < lost then s.setFld maxn lost else s

/-- Count a tile's block flushes (BLKUF). -/
def State.tileFlush (s : State) (t lost : Nat) : State := s.countFlush (BLKUF_COUNT t) (BLKUF_MAXN t) lost

/-- A product has issued, so beats of streaming and of waiting may be counted from here on (R89): see State.readReg. -/
def State.beatsOpen (s : State) (t : Nat) : State := (s.setReg (aTMXBUSY t) 1).setReg (aTMXWAIT t) 1

/-- TMXSTAT.BUSY and STAVAL follow the products in flight and the blocks in the cells (R89). -/
def State.syncMx (s : State) (t : Nat) : State :=
  let x := s.tile t
  let qm := s.flag (TMXSTAT_QMODE t)
  let bit := fun (f : Nat → Bool) => ((List.range 4).map fun q => if f q then 2 ^ q else 0).sum
  let busy := if x.prods.any fun p => !p.qm then 15 else bit fun q => x.prods.any fun p => p.q == q
  let sta := if qm then bit fun q => (x.actOf q).isSome else if (x.actOf 0).isSome then 15 else 0
  (s.setFld (TMXSTAT_BUSY t) busy).setFld (TMXSTAT_STAVAL t) sta

end Sys2Proof.Machine
end

