-- ==== Sys2Proof/Machine/Folio.lean ====
section
/-! DEFINITION. Folios (chapter 10): the compressor (R322 to R325) and the checker and expander (R315 to R321,
R327), over byte lists. -/

namespace Sys2Proof.Machine

/-- Bytes of plain data in one folio (R315). -/
def folioPlain : Nat := 4096

/-- Element width by format code (Table 10.2). -/
def planeW (fmt : Nat) : Nat :=
  if fmt = 0 ∨ fmt = 0xE then 4 else if fmt = 1 ∨ fmt = 2 ∨ fmt = 0xD then 2 else 1

/-- Plane p of the plain data (R317). -/
def planeOf (W p : Nat) (plain : List Nat) : List Nat :=
  (plain.zipIdx.filter fun q => q.2 % W == p).map (·.1)

/-- A node of the Huffman forest: weight, the order used for ties (leaves by value first, then internal nodes by
creation: R323), and the leaves below it with their depth. -/
structure HNode where
  weight : Nat
  order : Nat
  leaves : List (Nat × Nat)
  deriving DecidableEq, Repr

/-- a comes before b in the merge order (R323). -/
def HNode.before (a b : HNode) : Bool :=
  decide (a.weight < b.weight) || (a.weight == b.weight && decide (a.order < b.order))

/-- Insert into a list kept in merge order. -/
def hInsert (x : HNode) : List HNode → List HNode
  | [] => [x]
  | y :: ys => if x.before y then x :: y :: ys else y :: hInsert x ys

/-- Merge the two least nodes, at most n times; internal nodes count from 256. -/
def hMerge : Nat → Nat → List HNode → List HNode
  | n + 1, k, a :: b :: rest =>
    hMerge n (k + 1) (hInsert ⟨a.weight + b.weight, 256 + k, (a.leaves ++ b.leaves).map fun l => (l.1, l.2 + 1)⟩ rest)
  | _, _, ns => ns

/-- BITS[L]: how many values have length L. -/
def bitsTable (lens : List Nat) : List Nat := (List.range 33).map fun L => (lens.filter fun l => l == L).length

/-- The greatest j ≤ n with a non-zero entry. -/
def lastNonzero (b : List Nat) : Nat → Nat
  | 0 => 0
  | n + 1 => if nth 0 b (n + 1) ≠ 0 then n + 1 else lastNonzero b n

/-- The inner limiting loop of R323 at length i. -/
def limitAt (i : Nat) : Nat → List Nat → List Nat
  | 0, b => b
  | n + 1, b =>
    if nth 0 b i = 0 then b
    else
      let j := lastNonzero b (i - 2)
      let b := setNth b i (nth 0 b i - 2)
      let b := setNth b (i - 1) (nth 0 b (i - 1) + 1)
      let b := setNth b (j + 1) (nth 0 b (j + 1) + 2)
      let b := setNth b j (nth 0 b j - 1)
      limitAt i n b

/-- Limit every length to 15 (R323). -/
def limit15 (b : List Nat) : List Nat :=
  (List.range 17).foldl (fun b k => limitAt (32 - k) 256 b) b

/-- Insert a (value, count) pair by count descending, then value ascending. -/
def countInsert (x : Nat × Nat) : List (Nat × Nat) → List (Nat × Nat)
  | [] => [x]
  | y :: ys => if y.2 < x.2 ∨ (y.2 = x.2 ∧ x.1 < y.1) then x :: y :: ys else y :: countInsert x ys

/-- How many of the plane's bytes hold each present value (R322). -/
def planeCounts (plane : List Nat) : List (Nat × Nat) :=
  ((List.range 256).map fun v => (v, (plane.filter fun b => b == v).length)).filter fun p => p.2 != 0

/-- Code length of every value 0 to 255 (R323); 0 where absent. -/
def codeLengths (plane : List Nat) : List Nat :=
  let cs := planeCounts plane
  let forest := cs.foldl (fun ns c => hInsert ⟨c.2, c.1, [(c.1, 0)]⟩ ns) []
  let tree := hMerge 256 0 forest
  let lens := (tree.flatMap (·.leaves)).map (·.2)
  let bits := limit15 (bitsTable lens)
  let sorted := cs.foldl (fun l c => countInsert c l) []
  let seq := (List.range 16).flatMap fun L => if L = 0 then [] else List.replicate (nth 0 bits L) L
  let asg := (sorted.map (·.1)).zip seq
  (List.range 256).map fun v => ((asg.find? fun p => p.1 == v).map (·.2)).getD 0

/-- Canonical codes (R320) for a table of lengths: symbols by (length, symbol). -/
def canonOrder (lens : List Nat) : List (Nat × Nat) :=
  (List.range 16).flatMap fun L => if L = 0 then [] else ((lens.zipIdx.filter fun p => p.1 == L).map fun p => (p.2, L))

/-- The codes in canonical order: (symbol, length, code). -/
def canonCodes (lens : List Nat) : List (Nat × Nat × Nat) :=
  ((canonOrder lens).foldl
    (fun (acc : List (Nat × Nat × Nat) × Nat × Nat) sl =>
      -- acc: codes so far (newest first), next code at length acc.2.2
      let code := acc.2.1 <<< (sl.2 - acc.2.2)
      ((sl.1, sl.2, code) :: acc.1, code + 1, sl.2)) ([], 0, 0)).1.reverse

/-- Catalogue items (R319, R323): runs of absent symbols cut at 16. -/
def catItems : List Nat → Nat → List Nat
  | [], 0 => []
  | [], n + 1 => [0, n]
  | 0 :: ls, n => if n = 15 then [0, 15] ++ catItems ls 0 else catItems ls (n + 1)
  | l :: ls, 0 => l :: catItems ls 0
  | l :: ls, n + 1 => [0, n] ++ l :: catItems ls 0

/-- Nibbles to bytes, lower nibble first, padded with 0. -/
def packNibbles : List Nat → List Nat
  | [] => []
  | [a] => [a]
  | a :: b :: r => (a + 16 * b) :: packNibbles r

/-- Bits (true = 1) to bytes from bit 7 down, padded with 0; n bounds the bytes. -/
def packBits : Nat → List Bool → List Nat
  | 0, _ => []
  | _, [] => []
  | n + 1, bs =>
    ((List.range 8).foldl (fun a i => 2 * a + (if nth false bs i then 1 else 0)) 0) :: packBits n (bs.drop 8)

/-- The bits of a code, most significant first. -/
def codeBits (len code : Nat) : List Bool := ((List.range len).map fun i => bitOf code (len - 1 - i))

/-- The body of a plane (R321). -/
def planeBody (lens plane : List Nat) : List Nat :=
  let codes := canonCodes lens
  let bits := plane.flatMap fun b => match codes.find? fun c => c.1 == b with
    | some c => codeBits c.2.1 c.2.2
    | none => []
  packBits plane.length bits

/-- One plane's mode and section (R324). -/
def encodePlane (plane : List Nat) : Nat × List Nat :=
  match planeCounts plane with
  | [c] => (2, [c.1])
  | _ =>
    let lens := codeLengths plane
    let sec := packNibbles (catItems lens 0) ++ planeBody lens plane
    if sec.length < plane.length then (1, sec) else (0, plane)

/-- LEN for a given header-and-sections length (R315). -/
def folioLen (n : Nat) : Nat := ceilDiv (n + 4) 64 * 64

/-- Close a folio: header, sections, padding and CRC. -/
def folioClose (fmt kind pmode : Nat) (plens : List Nat) (secs : List Nat) : List Nat :=
  let len := folioLen (16 + secs.length)
  let hdr := [0xA7, fmt + 16 * kind, len / 64, pmode] ++ ((List.range 4).flatMap fun p => leBytes 2 (nth 0 plens p)) ++ [0, 0, 0, 0]
  let body := hdr ++ secs
  let body := body ++ List.replicate (len - 4 - body.length) 0
  body ++ leBytes 4 (crc32c body)

/-- The folio of 4,096 plain bytes under a format code (R315 to R325). -/
def folioEncode (fmt : Nat) (plain : List Nat) : List Nat :=
  let W := planeW fmt
  let ps := (List.range W).map fun p => encodePlane (planeOf W p plain)
  let secs := ps.flatMap (·.2)
  if folioLen (16 + secs.length) ≤ 4096 then
    folioClose fmt 0 ((ps.zipIdx.map fun p => p.1.1 * 4 ^ p.2).sum) (ps.map (·.2.length)) secs
  else folioClose fmt 1 0 [4096] plain

/-- A raw folio (R318). -/
def folioIsRaw (f : List Nat) : Bool := bitsOf (nth 0 f 1) 4 2 == 1

/-- Read a catalogue (R319) from a section: code lengths found so far (newest first), the nibbles left over. None
when it describes more than 256 symbols or the section ends early. fuel bounds the items. R319's closing sentence bounds a catalogue at 128
bytes, but its items can take up to 192 and neither R324 nor R327 bounds them: a longer one is written and accepted (DESIGN CHOICE, log entry
96). -/
def readCat : Nat → List Nat → List Nat → Nat → Option (List Nat × Nat)
  | 0, _, _, _ => none
  | n + 1, nibs, acc, used =>
    if acc.length = 256 then some (acc.reverse, used)
    else if 256 < acc.length then none
    else match nibs with
      | [] => none
      | [_] => (match nibs with
          | [L] => if L = 0 then none else readCat n [] (L :: acc) (used + 1)
          | _ => none)
      | L :: r :: rest =>
        if L = 0 then readCat n rest (List.replicate (r + 1) 0 ++ acc) (used + 2)
        else readCat n (r :: rest) (L :: acc) (used + 1)

/-- The nibbles of a byte list, lower first. -/
def nibbles (bs : List Nat) : List Nat := bs.flatMap fun b => [b % 16, b / 16]

/-- The bits of a byte list, bit 7 first. -/
def bitsMsb (bs : List Nat) : List Bool := bs.flatMap fun b => (List.range 8).map fun i => bitOf b (7 - i)

/-- Decode one symbol: extend the code bit by bit until it is a code of that length. -/
def decodeSym (codes : List (Nat × Nat × Nat)) : Nat → Nat → Nat → List Bool → Option (Nat × List Bool)
  | 0, _, _, _ => none
  | _, _, _, [] => none
  | n + 1, len, code, b :: bs =>
    let code := 2 * code + (if b then 1 else 0)
    match codes.find? fun c => c.2.1 == len + 1 && c.2.2 == code with
    | some c => some (c.1, bs)
    | none => decodeSym codes n (len + 1) code bs

/-- Decode n symbols; the bits left over. -/
def decodeBody (codes : List (Nat × Nat × Nat)) : Nat → List Bool → Option (List Nat × List Bool)
  | 0, bs => some ([], bs)
  | n + 1, bs =>
    match decodeSym codes 15 0 0 bs with
    | none => none
    | some (s, bs) => (decodeBody codes n bs).map fun r => (s :: r.1, r.2)

/-- Decode one coded section of n symbols (conditions 6 and 7 of R327). -/
def decodeSection (n : Nat) (sec : List Nat) : Option (List Nat) :=
  match readCat 257 (nibbles sec) [] 0 with
  | none => none
  | some (lens, used) =>
    let cbytes := ceilDiv used 2
    let fillOk := used % 2 == 0 || nth 0 sec (cbytes - 1) / 16 == 0
    let kraft := (lens.map fun l => if l = 0 then 0 else 2 ^ (15 - l)).sum
    let nsym := (lens.filter fun l => l != 0).length
    if !fillOk || nsym < 2 || kraft ≠ 32768 then none
    else
      match decodeBody (canonCodes lens) n (bitsMsb (sec.drop cbytes)) with
      | none => none
      | some (syms, left) => if left.length < 8 ∧ left.all (fun b => !b) then some syms else none

/-- One plane of a coded folio (conditions 4, 6 and 7 of R327). -/
def decodePlane (n mode : Nat) (sec : List Nat) : Option (List Nat) :=
  if mode = 0 then (if sec.length = n then some sec else none)
  else if mode = 2 then (if sec.length = 1 then some (List.replicate n (nth 0 sec 0)) else none)
  else if mode = 1 then (if 2 ≤ sec.length then decodeSection n sec else none)
  else none

/-- Interleave the planes again (R317). -/
def joinPlanes (W : Nat) (ps : List (List Nat)) : List Nat :=
  (List.range (4096 / W)).flatMap fun i => (List.range W).map fun p => nth 0 (nth [] ps p) i

/-- The length a folio's header names. -/
def folioHdrLen (f : List Nat) : Nat := bitsOf (nth 0 f 2) 0 7 * 64

/-- Condition 1 of R327, given the bytes from the folio's start to the end of the expander's range. -/
def folioHeadOk (f : List Nat) : Bool :=
  nth 0 f 0 == 0xA7 && bitsOf (nth 0 f 1) 6 2 == 0 && bitsOf (nth 0 f 2) 7 1 == 0
    && decide (1 ≤ bitsOf (nth 0 f 2) 0 7) && decide (bitsOf (nth 0 f 2) 0 7 ≤ 65) && decide (folioHdrLen f ≤ f.length)

/-- Check and expand one folio (R327): the plain bytes when every condition holds. f runs from the folio's first
byte to the end of the range the expander was given. -/
def folioDecode (f : List Nat) : Option (List Nat) :=
  if !folioHeadOk f then none
  else
    let len := folioHdrLen f
    let g := f.take len
    if crc32c (g.take (len - 4)) ≠ ofLE (g.drop (len - 4)) then none
    else
      let fmt := bitsOf (nth 0 g 1) 0 4
      let kind := bitsOf (nth 0 g 1) 4 2
      let W := planeW fmt
      let modes := (List.range 4).map fun p => bitsOf (nth 0 g 3) (2 * p) 2
      let pw := (List.range 4).map fun p => nth 0 g (4 + 2 * p) + 256 * nth 0 g (5 + 2 * p)
      if 1 < kind ∨ (g.drop 12).take 4 ≠ [0, 0, 0, 0] ∨ pw.any (fun w => decide (8192 ≤ w)) ∨ modes.any (fun m => m == 3)
          ∨ (kind = 0 ∧ (List.range 4).any fun p => decide (W ≤ p) && (nth 0 modes p != 0 || nth 0 pw p != 0)) then none
      else if kind = 1 then
        if len ≠ 4160 ∨ nth 0 g 3 ≠ 0 ∨ pw ≠ [4096, 0, 0, 0] ∨ !((g.drop (16 + 4096)).take (len - 4 - 4112)).all (· == 0) then none
        else some ((g.drop 16).take 4096)
      else
        let tot := pw.sum
        if len ≠ folioLen (16 + tot) ∨ !((g.drop (16 + tot)).take (len - 4 - 16 - tot)).all (· == 0) then none
        else
          let starts := (List.range 4).map fun p => 16 + (pw.take p).sum
          let ps := (List.range W).map fun p => decodePlane (4096 / W) (nth 0 modes p) ((g.drop (nth 0 starts p)).take (nth 0 pw p))
          if ps.any Option.isNone then none else some (joinPlanes W (ps.map (·.getD [])))

end Sys2Proof.Machine
end

