-- ==== Sys2Proof/Machine/Matrix.lean ====
section
/-! DEFINITION. Products: MX.MUL and the events of the array, its stationary loaders and its operand port
(R53 to R75, R87, R88, R105 to R107, R162, R163, R331 to R333). -/

namespace Sys2Proof.Machine

/-! ## Shapes (R54, R58 to R62) -/

/-- The product is INT4 by INT8, in either order. -/
def mixedCodes (fa fw : Nat) : Bool := (fa == 0xA && fw == 0xB) || (fa == 0xB && fw == 0xA)
/-- Codes an array product takes (R58). -/
def codesOk (fa fw : Nat) : Bool := (fa == fw && isArrayCode fa) || mixedCodes fa fw
/-- Each cell holds two stationary elements (R54). -/
def denseCodes (fa fw : Nat) : Bool := fa == fw && (fa == 9 || fa == 0xB)
/-- Integer product (R58). -/
def intCode (c : Nat) : Bool := c == 0xA || c == 0xB
/-- Lanes of the unit (R54). -/
def lanesOf (qm : Bool) : Nat := if qm then 16 else 32
/-- Reduction depth (R54). -/
def kpOf (qm : Bool) (fa fw : Nat) : Nat := lanesOf qm * (if denseCodes fa fw then 2 else 1)
/-- Bytes of a stationary row (Table 2.4, R60). -/
def rowBytes (qm : Bool) (c : Nat) : Nat := lanesOf qm * elemBits c / 8
/-- Bytes of a stationary block's scale row (Table 2.4, R60). -/
def scaleRow (qm : Bool) (c : Nat) : Nat := if isMX c then (if c = 9 ∧ !qm then 64 else lanesOf qm) else 0
/-- Bytes of a stationary block. -/
def blockBytes (qm : Bool) (fa fw : Nat) : Nat := kpOf qm fa fw * rowBytes qm fw + scaleRow qm fw
/-- Bytes of a product's scale column that are read (R62, R66, R71). -/
def scaleCol (qm ta : Bool) (c v : Nat) : Nat :=
  if isMX c then (if ta then lanesOf qm else if c = 9 ∧ !qm then 2 * v else v) else 0

/-- Bytes of the panel lines a product reads (R71). -/
def panelBytes (qm : Bool) (c v : Nat) : Nat := (v + lanesOf qm - 1) * lanesOf qm * laneBytes c

/-- Tiles and column halves a product targets (R69, R123): pairs (tile, half). -/
def Product.targets (p : Product) : List (Nat × Nat) :=
  if p.qm then (List.range (ceilDiv p.m 32)).map fun i => (p.acc + i, p.c)
  else (List.range (p.m / 32)).flatMap fun i => [(p.acc + i, 0), (p.acc + i, 1)]

/-- Accumulator quarters a quadrant product targets (R69), tile × 4 + quarter. -/
def Product.quarters (p : Product) : List Nat :=
  (List.range (p.m / 16)).map fun g => (p.acc + g / 2) * 4 + (if g % 2 = 0 then p.c else 2 + p.c)

/-! ## Issue -/

/-- The instruction's product, before its ranges are known. -/
def mxFields (s : State) (t : Nat) (b : BitVec 54) : Product :=
  let x := s.tile t
  { idx := s.pc t, fa := fb b 46 4, fw := fb b 42 4, pBase := (x.areg (fb b 38 4)).toNat, wBase := (x.areg (fb b 34 4)).toNat,
    xBase := (x.areg (fb b 30 4)).toNat, acc := fb b 27 3, c := fb b 26 1, q := fb b 24 2, qm := fb1 b 23, ow := fb1 b 22,
    ta := fb1 b 21, tw := fb1 b 20, ru := fb1 b 19, fo := fb1 b 18, m := (fb b 14 4 + 1) * 16, v := fb b 6 8 + 1, rows := 0,
    loaded := fb1 b 19, swapped := false, failed := false, fpois := false, rd := [], wr := [], fuse := none }

/-- Address of the folio a product's block begins in, and the block's offset in its plain data (R331). -/
def Product.folio (p : Product) : Nat := p.wBase / 64 * 64
/-- Plain offset of the block (R331). -/
def Product.plainOff (p : Product) : Nat := p.wBase % 64 * 64
/-- The block runs into a second folio (R331). -/
def Product.spans (p : Product) : Bool := decide (4096 < p.plainOff + blockBytes p.qm p.fa p.fw)

/-- The length byte of a folio in the bank or the accumulator file, without reading it through the checker. -/
def Tile.peekLen (x : Tile) (off : Nat) : Nat :=
  let o := off + 2
  let b := if o < 0x200000 then (x.classOf o).value.1 else bitsOf (x.accWord ((o - 0x200000) / 4)).toNat (8 * (o % 4)) 8
  bitsOf b 0 7 * 64

/-- Ranges of the own window a product reads (R153, R331): a reused block is not tracked. -/
def productReads (x : Tile) (p : Product) : List Rng :=
  [⟨p.pBase, panelBytes p.qm p.fa p.v⟩, ⟨p.xBase, scaleCol p.qm p.ta p.fa p.v⟩] ++
    (if p.ru then []
     else if p.fo then
      let n := max 64 (x.peekLen p.folio)
      ⟨p.folio, n⟩ :: (if p.spans then [⟨p.folio + n, max 64 (x.peekLen (p.folio + n))⟩] else [])
     else [⟨p.wBase, blockBytes p.qm p.fa p.fw⟩])

/-- The product the unit ran or will run last before a new one: its FW and INT4 × INT8 form (R56). -/
def Tile.lastForm (x : Tile) (q : Nat) : Option (Nat × Bool) :=
  match (x.prods.filter fun p => p.q == q).reverse with
  | p :: _ => some (p.fw, mixedCodes p.fa p.fw)
  | [] => (x.actOf q).map fun a => (a.fw, a.mixed)

/-- The block of the unit, loaded for code f.1 and in form f.2, is one this product can reuse: FW is equal, and for code 0xB both are
INT4 × INT4 or both INT4 × INT8 (R56). -/
def Product.reuses (p : Product) : Option (Nat × Bool) → Bool
  | some f => f.1 == p.fw && (p.fw != 0xB || f.2 == mixedCodes p.fa p.fw)
  | none => false

/-- The invalid-operand cases of R163. -/
def mxInvalid (s : State) (t : Nat) (p : Product) : Bool :=
  let x := s.tile t
  let mode := s.flag (TMXSTAT_QMODE t)
  !codesOk p.fa p.fw
  || (p.ru && (mode != p.qm || !p.reuses (x.lastForm p.q)))
  || ((p.ta || (p.tw && !p.ru)) && denseCodes p.fa p.fw)
  || decide (8 < p.acc + ceilDiv p.m 32) || decide (p.m < p.v)
  || (!p.qm && (p.q != 0 || p.c != 0 || p.m % 32 != 0))
  || (p.ta && p.m != lanesOf p.qm)
  || (!p.ru && p.fo && p.tw)
  || !s.opRange t p.pBase (panelBytes p.qm p.fa p.v)
  || (isMX p.fa && !s.opRange t p.xBase (scaleCol p.qm p.ta p.fa p.v))
  || (!p.ru && (if p.fo then !s.opRange t p.folio 64 else !s.opRange t p.wBase (blockBytes p.qm p.fa p.fw)))
  || (p.targets.any fun h => s.flag (TSPBND_BOUND t h.1) && (p.ow || intCode p.fa))

/-- Column halves a job of the vector datapath is spilling or rounding. -/
def VJob.halves : VJob → List (Nat × Nat)
  | .spill w => w
  | .round a => [(a, 0), (a, 1)]
  | _ => []

/-- Work other than products and spills whose ranges meet a list: held by the range tracker (R152, R153). -/
def State.accBusy (s : State) (t : Nat) (wr : List Rng) : Bool :=
  let x := s.tile t
  let others := ((x.vq.filter fun v => v.halves.isEmpty).map (VJob.ranges (s.bufBase t))) ++ (x.xfers.map fun f => (f.rd, f.wr))
    ++ (x.disp.map fun d => (d.rd, [])) ++ (x.prods.map fun p => (p.rd, []))
  others.any fun f => (f.1 ++ f.2).any fun r => wr.any fun a => a.meets r

/-- An earlier product in flight will bring a column half that this one targets to S: the spill points follow the sequence
of products alone (R124, R131). -/
def spillDue (s : State) (t : Nat) (p : Product) : Bool :=
  p.targets.any fun h => s.flag (TSPBND_BOUND t h.1) &&
    (let fl := (s.tile t).prods.filter fun r => r.targets.contains h && !r.ow && !intCode r.fa
     !fl.isEmpty && decide (s.fld (TSPILL_INTERVAL t) ≤
       s.fld (if h.2 = 0 then TSPBND_COUNT0 t h.1 else TSPBND_COUNT1 t h.1) * 16 + (fl.map fun r => kpOf r.qm r.fa r.fw).sum))

/-- The 64 bytes of a fused dispatch descriptor that the instruction reads as it issues (R152, R181). -/
def Tile.fuseRng (x : Tile) (n : Nat) : List Rng := match x.fuse with
  | some f => [⟨f.off, n⟩]
  | none => []

/-- Products held at issue (R72, R88, R124, R152, R153). -/
def mxHeld (s : State) (t : Nat) (p : Product) : Bool :=
  let x := s.tile t
  let wr := p.targets.map fun h => accTileRng h.1
  let inf := s.inFlight t
  (!x.prods.isEmpty && s.flag (TMXSTAT_QMODE t) != p.qm)
  || decide (5 ≤ (x.prods.filter fun r => r.q == p.q).length)
  || s.trackerFull t
  || (productReads x p ++ x.fuseRng 64).any (fun a => inf.any fun f => f.2.any fun w => a.meets w)
  || s.accBusy t wr || spillDue s t p
  || (x.vq.any fun v => v.halves.any fun h => p.targets.contains h)
  || (p.qm && x.prods.any fun r => r.q != p.q && r.quarters.any fun u => p.quarters.contains u)

/-- The descriptor of the FUSE prefix that stands before an instruction, its n bytes read as the instruction issues (R181). -/
def State.fuseRead (s : State) (t n : Nat) : List (Nat × Bool) × State := match (s.tile t).fuse with
  | some f => s.winRead t f.off n uScalar
  | none => ([], s)

/-- Issue a product (R53, R72): the unit changes mode here, its blocks becoming unusable (R56). The index array and return words of a fused
dispatch are part of its range-tracker entry (R153). -/
def mxIssue (t : Nat) (b : BitVec 54) (s : State) : Act :=
  let p := mxFields s t b
  let x := s.tile t
  let fr := s.fuseRead t 64
  let d := fr.1.map (·.1)
  let fx := if x.fuse.isSome then s.fuseRngs t d else ([], [])
  if mxHeld s t p || (x.fuse.isSome && s.rangeHold t fx.1 fx.2) then .hold
  else if mxInvalid s t p then .trap 2 0
  else
    let bad : Bool := match x.fuse with
      | some f => !s.opRange t f.off 64 || anyPois fr.1 || !s.fuseDispOk t d
      | none => false
    let s := fr.2
    if bad then .trapAt s 2 0 else
    let p : Product := { p with
      rd := productReads x p ++ fx.1, wr := (p.targets.map fun h => accTileRng h.1) ++ fx.2, fuse := x.fuse.map fun _ => d }
    let swap := s.flag (TMXSTAT_QMODE t) != p.qm
    let x := if swap then { x with act := [], shadow := [] } else x
    let s := s.setTile t { x with prods := x.prods ++ [p] }
    .fall (((s.setFld (TMXSTAT_QMODE t) (if p.qm then 1 else 0)).syncMx t).beatsOpen t)

/-- MX.MUL (R162, R163); FUSE.DISP may stand before it (R181). -/
def execMxMul (t : Nat) (b : BitVec 54) (s : State) : Res :=
  .next (s.issue t 3 0x00 b (span 5 0) [] (fun k => k == 1) (mxIssue t b))

/-! ## The stationary loaders and the operand port -/

/-- The product of unit q for which the predicate first holds, in issue order, with its position. -/
def Tile.prodAt (x : Tile) (q : Nat) (f : Product → Bool) : Option (Nat × Product) :=
  (x.prods.zipIdx.find? fun p => p.1.q == q && f p.1).map fun p => (p.2, p.1)

/-- Replace the product at a position. -/
def Tile.setProd (x : Tile) (i : Nat) (p : Product) : Tile := { x with prods := setNth x.prods i p }

/-- Stored element (k, n) of a block given its bytes: element bits and scale byte (R59, R60). -/
def blockElem (qm : Bool) (fa fw : Nat) (bs : List Nat) (k n : Nat) : Nat × Nat :=
  let w := elemBits fw
  let row := (bs.drop (k * rowBytes qm fw)).take (rowBytes qm fw)
  let sb := kpOf qm fa fw * rowBytes qm fw
  (bitsOf (ofLE row) (n * w) w,
    if isMX fw then nth 0 bs (sb + (if fw = 9 ∧ !qm ∧ 32 ≤ k then 32 + n else n)) else 0)

/-- The cells of a loaded block, row k first: a transposed load places stored (n, k) in cell (k, n) (R65). -/
def blockCells (p : Product) (bs : List Nat) : List (Nat × Nat) :=
  (List.range (kpOf p.qm p.fa p.fw)).flatMap fun k => (List.range (lanesOf p.qm)).map fun n =>
    if p.tw then blockElem p.qm p.fa p.fw bs n k else blockElem p.qm p.fa p.fw bs k n

/-- The expansion buffer that holds the folio at an offset (R332). -/
def Tile.bufAt (x : Tile) (off : Nat) : Option ExBuf := x.exb.find? fun b => b.off == off

/-- A use makes a buffer the most recently used, last in the list (R332). -/
def Tile.touchBuf (x : Tile) (off : Nat) : Tile :=
  { x with exb := (x.exb.filter fun b => b.off != off) ++ x.exb.filter fun b => b.off == off }

/-- The block's bytes out of the expansion buffers, when its folios are held (R331, R333). -/
def Tile.foldedBlock (x : Tile) (p : Product) : Option (List Nat) :=
  match x.bufAt p.folio with
  | none => none
  | some a =>
    if p.spans then (x.bufAt (p.folio + a.len)).map fun c => (a.plain ++ c.plain).drop p.plainOff
    else some (a.plain.drop p.plainOff)

/-- STATIONARY_LOAD_DONE (R55, R65, R333): the oldest product of the unit with a block to load fills the shadow, once
the shadow is free and, for a folio, once the folio is expanded. -/
def execStationaryLoadDone (t : Nat) (q : Nat) (s : State) : Res :=
  let x := s.tile t
  match x.prodAt q fun p => !p.loaded && !p.failed with
  | none => .next s
  | some (i, p) =>
    if (x.shadowOf q).isSome then .next s
    else
      let n := blockBytes p.qm p.fa p.fw
      let got : Option ((List Nat × Bool) × State) :=
        if p.fo then
          if p.fpois then some ((List.replicate n 0, true), s)
          else (x.foldedBlock p).map fun bs =>
            ((bs.take n, false), s.modTile t fun x =>
              let x := x.touchBuf p.folio
              match x.bufAt p.folio with
              | some a => if p.spans then x.touchBuf (p.folio + a.len) else x
              | none => x)
        else
          let r := s.winRead t p.wBase n uPort
          some ((r.1.map (·.1), anyPois r.1), r.2)
      match got with
      | none => .next s
      | some (d, s) =>
        let st : Stat := ⟨p.fw, mixedCodes p.fa p.fw, blockCells p d.1, d.2⟩
        .next ((s.modTile t fun x => (x.setProd i { p with loaded := true }).setShadow q (some st)).syncMx t)

/-- Hold an expanded folio, the least recently used buffer making room (R332). -/
def Tile.holdBuf (x : Tile) (b : ExBuf) : Tile :=
  { x with exb := (if 4 ≤ x.exb.length then x.exb.drop 1 else x.exb) ++ [b] }

/-- End of the region an operand range starts in. -/
def State.regionEnd (s : State) (t off : Nat) : Nat := if off < 0x200000 then s.scBase t else 0x208000

/-- PORT_EXPANSION_DONE (R74, R327, R328, R331 to R333): the next folio that the oldest waiting product needs is checked and
held, its first folio counting as used just now (R332); a failed check raises the folio-check trap. -/
def execPortExpansionDone (t : Nat) (q : Nat) (s : State) : Res :=
  let x := s.tile t
  match x.prodAt q fun p => p.fo && !p.loaded && !p.failed && !p.fpois with
  | none => .next s
  | some (i, p) =>
    let need : Option Nat := match x.bufAt p.folio with
      | none => some p.folio
      | some a => if p.spans && (x.bufAt (p.folio + a.len)).isNone then some (p.folio + a.len) else none
    match need with
    | none => .next s
    | some off =>
      let room := s.regionEnd t off - off
      let len := min room (max 16 (x.peekLen off))
      let r := s.winRead t off len uPort
      let s := r.2
      if anyPois r.1 then .next (s.modTile t fun x => x.setProd i { p with fpois := true })
      else
        match folioDecode (r.1.map (·.1)) with
        | some plain => .next (s.modTile t fun x => (x.touchBuf p.folio).holdBuf ⟨off, len, plain⟩)
        | none => .next (((s.modTile t fun x => x.setProd i { p with failed := true }).bump (TFOLERR_CHKFAIL t) 1).raise t 6 true p.idx 0)

/-! ## Result rows -/

/-- Window offsets of the bytes that carry element k of streamed row r, and of its scale (R61, R62, R66). -/
def elemOff (p : Product) (r k : Nat) : Nat :=
  let L := lanesOf p.qm
  let e := laneBytes p.fa
  let lane := if denseCodes p.fa p.fw then k / 2 else k
  if p.ta then p.pBase + (r + lane) * (L * e) + r * e else p.pBase + (r + lane) * (L * e) + lane * e
/-- Offset of the scale of element k of streamed row r. -/
def scaleOff (p : Product) (r k : Nat) : Nat :=
  if p.ta then p.xBase + k
  else if p.fa = 9 ∧ !p.qm then p.xBase + 2 * r + k / 32
  else p.xBase + r

/-- Element bits out of a lane (Table 2.5). -/
def laneElem (p : Product) (k lane : Nat) : Nat :=
  if denseCodes p.fa p.fw then bitsOf lane (4 * (k % 2)) 4 else bitsOf lane 0 (if laneBytes p.fa = 2 then 16 else elemBits p.fa)

/-- The float column sum in cell-row order (R105). -/
def colSum : List Val → Val
  | [] => Val.zero
  | p :: ps => ps.foldl fp32AddArray (fp32F.decode (fp32F.encArray p))

/-- The number an integer element stands for. -/
def intElem (c x : Nat) : Int := if c = 0xB then toIntW 4 x else toIntW 8 x

/-- The word written for one column: overwrite the sum, or accumulate (R105, R107, R119). -/
def resultWord (p : Product) (old : Nat) (a : List (Nat × Nat)) (w : List (Nat × Nat)) : Nat :=
  if intCode p.fa then
    let sum := ((a.zip w).map fun e => intElem p.fa e.1.1 * intElem p.fw e.2.1).foldl (· + ·) 0
    ofIntW 32 (if p.ow then sum else toIntW 32 old + sum)
  else
    let c := colSum ((a.zip w).map fun e => Val.mul (arrayElem p.fa e.1.1 e.1.2) (arrayElem p.fw e.2.1 e.2.2))
    fp32F.encArray (if p.ow then c else Val.add (fp32F.decArray old) c)

/-- Column n of a block's cells. -/
def Stat.column (st : Stat) (n N Kp : Nat) : List (Nat × Nat) := (List.range Kp).map fun k => nth (0, 0) st.cells (k * N + n)

/-- First accumulator word of row r of a product's target (R69). -/
def Product.rowWord (p : Product) (r : Nat) : Nat :=
  if p.qm then
    let g := r / 16
    (p.acc + g / 2) * 1024 + ((g % 2) * 16 + r % 16) * 32 + p.c * 16
  else (p.acc + r / 32) * 1024 + (r % 32) * 32

/-- The lane of a panel line that carries element k (R61). -/
def Product.laneAt (p : Product) (k : Nat) : Nat := if denseCodes p.fa p.fw then k / 2 else k

/-- Scale bytes one streamed row reads, each once (R62, R66, R203). -/
def Product.rowScales (p : Product) (r : Nat) : List Nat :=
  if !isMX p.fa then []
  else if p.ta then (List.range (lanesOf p.qm)).map fun k => p.xBase + k
  else if p.fa = 9 ∧ !p.qm then [p.xBase + 2 * r, p.xBase + 2 * r + 1]
  else [p.xBase + r]

/-- Which of them scales element k. -/
def Product.scaleAt (p : Product) (k : Nat) : Nat :=
  if p.ta then k else if p.fa = 9 ∧ !p.qm then k / 32 else 0

/-- Write result row r of a product against the active block (R75, R78, R105): each lane and each scale byte is read once (R203). -/
def State.writeRow (s : State) (t : Nat) (p : Product) (st : Stat) (r : Nat) : State :=
  let N := lanesOf p.qm
  let Kp := kpOf p.qm p.fa p.fw
  let e := laneBytes p.fa
  let lanes := if denseCodes p.fa p.fw then (List.range N).map fun j => 2 * j else List.range N
  let rd := readMany (fun s k => let b := s.winRead t (elemOff p r k) e uPort; ((valOf b.1, anyPois b.1), b.2)) s lanes
  let sc := readMany (fun s o => s.winByte t o uPort) rd.2 (p.rowScales r)
  let a := (List.range Kp).map fun k => (laneElem p k (nth (0, false) rd.1 (p.laneAt k)).1, (nth (0, false) sc.1 (p.scaleAt k)).1)
  let w0 := p.rowWord r
  let old := readMany (fun s n => s.accRead t (w0 + n)) sc.2 (if p.ow then [] else List.range N)
  let pois := anyPois rd.1 || anyPois sc.1 || st.poisoned || anyPois old.1
  let words := (List.range N).map fun n => resultWord p (nth (0, false) old.1 n).1 a (st.column n N Kp)
  let x := (words.zipIdx).foldl (fun x e => Tile.accSet x (w0 + e.2) e.1) (old.2.tile t)
  let x := x.setRowPois (w0 / 32) (rowPoisAfter (x.rowPois (w0 / 32)) pois (!p.qm) p.ow)
  (old.2.setTile t x).syncPois t

/-- Bytes that row r of a product's result takes in the window (R69). -/
def Product.rowRng (p : Product) (r : Nat) : Rng := ⟨0x200000 + 4 * p.rowWord r, 4 * lanesOf p.qm⟩

/-- The rows of the group that row r ends: 32 rows, 16 in quadrant mode, or what the last group holds; none before its last row (R181). -/
def Product.groupEnd (p : Product) (r : Nat) : List Nat :=
  let g := lanesOf p.qm
  if (r + 1) % g = 0 ∨ r + 1 = p.v then (List.range (r % g + 1)).map fun k => r / g * g + k else []

/-- RESULT_ROW_WRITE (R78, R87): the next valid row of the unit's oldest product that has rows left passes the write
stage; its first row finds the shadow swapped into the cells (R54). Rows of a fused dispatch are handed over as each group of them
is written (R181, R349). A reuse product behind a load whose folio failed its check runs on
the older block of the cells; with none there it writes no row either, and ends (DESIGN CHOICE: R74 does not say; log entry 88). -/
def execResultRowWrite (t : Nat) (q : Nat) (s : State) : Res :=
  let x := s.tile t
  match x.prodAt q fun p => decide (p.rows < p.v) && !p.failed with
  | none => .next s
  | some (i, p) =>
    if !p.loaded then .next s
    else
      let x := if p.swapped ∨ p.ru then x else x.swapIn q
      match x.actOf q with
      | none => .next (s.modTile t fun x => x.setProd i { p with failed := true })
      | some st =>
        let s := s.setTile t (x.setProd i { p with rows := p.rows + 1, swapped := true })
        let s := (s.writeRow t p st p.rows).syncMx t
        .next (match p.fuse with
          | some d => s.fuseDisp t d ((p.groupEnd p.rows).map p.rowRng)
          | none => s)

/-! ## Completion and automatic spills -/

/-- Field COUNT of column half c of a bound tile. -/
def bndCount (t a c : Nat) : Fld := if c = 0 then TSPBND_COUNT0 t a else TSPBND_COUNT1 t a
/-- Field EMPTY of column half c. -/
def bndEmpty (t a c : Nat) : Fld := if c = 0 then TSPBND_EMPTY0 t a else TSPBND_EMPTY1 t a

/-- Queue a spill pass, its halves in ascending tile order (R124). -/
def Tile.queueSpill (x : Tile) (hs : List (Nat × Nat)) : Tile := if hs.isEmpty then x else { x with vq := x.vq ++ [.spill hs] }

/-- PRODUCT_COMPLETE (R87, R123, R124): the unit's oldest product, all its rows written or its folio check failed, ends; a
float product in accumulate mode counts toward the spills of bound tiles, and a due half spills when no other product in
flight targets it (R142). A product that ended with the folio-check trap, which wrote no row, does not count (DESIGN CHOICE: R123 does
not say; log entry 88). -/
def execProductComplete (t : Nat) (q : Nat) (s : State) : Res :=
  let x := s.tile t
  match x.prodAt q fun _ => true with
  | none => .next s
  | some (i, p) =>
    if p.rows < p.v ∧ !p.failed then .next s
    else
      let s := s.setTile t { x with prods := x.prods.eraseIdx i }
      let bound := p.targets.filter fun h => s.flag (TSPBND_BOUND t h.1)
      let s := if p.ow ∨ intCode p.fa ∨ p.failed then s
        else s.each bound fun s h => s.bump (bndCount t h.1 h.2) (kpOf p.qm p.fa p.fw / 16)
      let due := bound.filter fun h =>
        decide (s.fld (TSPILL_INTERVAL t) ≤ s.fld (bndCount t h.1 h.2) * 16)
          && !(s.tile t).prods.any fun r => r.targets.contains h
      .next ((s.modTile t fun x => x.queueSpill due).syncMx t)

end Sys2Proof.Machine
end

