-- ==== Sys2Proof/Machine/Accum.lean ====
section
/-! DEFINITION. Accumulator control and the passes of the vector datapath that are no vector instruction: binding, spills,
rounding and chain-adds (R120 to R134, R164, R165). -/

namespace Sys2Proof.Machine

/-- The vector datapath's input queue is full (R152, Table 5.4): one job runs and four wait. -/
def Tile.vqFull (x : Tile) : Bool := decide (5 ≤ x.vq.length)

/-- The head of the vector datapath's queue has ended. -/
def Tile.popV (x : Tile) : Tile := { x with vq := x.vq.drop 1 }

/-! ## Issue (R164, R165) -/

/-- ACC.BIND (R121, R130). -/
def execAccBind (t : Nat) (b : BitVec 54) (s : State) : Res :=
  .next (s.issue t 4 0x00 b (rsvOut [(49, 47), (46, 43)]) [] noFuse fun s =>
    let a := fb b 47 3
    let base := ((s.tile t).areg (fb b 43 4)).toNat
    if s.rangeHold t [] [accTileRng a] then .hold
    else if s.flag (TSPBND_BOUND t a) || base % 64 != 0 || !s.inScratch t base 6144 then .trap 2 0
    else
      let x := (List.range 1024).foldl (fun x w => Tile.accSet x (a * 1024 + w) 0) (s.tile t)
      let x := (List.range 32).foldl (fun x r => Tile.setRowPois x (a * 32 + r) false) x
      let s := s.setReg (aTSPBND t a) (BitVec.ofNat 64 (base / 64 + 2 ^ 15 + 2 ^ 16 + 2 ^ 17))
      .fall ((s.setTile t x).syncPois t))

/-- A spill pass that covers a half of tile a. -/
def VJob.spills (a : Nat) : VJob → Bool
  | .spill w => w.any fun h => h.1 == a
  | _ => false

/-- Put column halves into the queued passes that already spill tile a: the first of them takes those that none covers. -/
def Tile.joinSpill (x : Tile) (a : Nat) (hs : List (Nat × Nat)) : Tile :=
  let more := hs.filter fun h => !x.vq.any fun v => v.halves.contains h
  match x.vq.findIdx? (VJob.spills a) with
  | some i => { x with vq := x.vq.zipIdx.map fun v => match v.1 with
      | .spill w => if v.2 = i then .spill (w ++ more) else .spill w
      | j => j }
  | none => x

/-- ACC.SPILL (R127, R130): the halves with a count. While an automatic pass of the tile still stands in the queue the two run as one spill
(DEDUCED: log entry 89 says what falls due together). -/
def execAccSpill (t : Nat) (b : BitVec 54) (s : State) : Res :=
  .next (s.issue t 4 0x01 b (rsvOut [(49, 47)]) [] noFuse fun s =>
    let a := fb b 47 3
    let buf : Rng := ⟨s.bufBase t a, 6144⟩
    let joins := (s.tile t).vq.any (VJob.spills a)
    let rest := s.modTile t fun x => { x with vq := x.vq.filter fun v => !v.spills a }
    let due := (([0, 1] : List Nat).filter fun c => s.fld (bndCount t a c) != 0).map fun c => (a, c)
    if rest.rangeHold t [buf] [buf, accTileRng a] || (!joins && ((s.tile t).vqFull || s.trackerFull t)) then .hold
    else if !s.flag (TSPBND_BOUND t a) then .trap 2 0
    else .fall (s.modTile t fun x => if joins then x.joinSpill a due else x.queueSpill due))

/-- ACC.ROUND (R128, R130). -/
def execAccRound (t : Nat) (b : BitVec 54) (s : State) : Res :=
  .next (s.issue t 4 0x02 b (rsvOut [(49, 47)]) [] noFuse fun s =>
    let a := fb b 47 3
    if s.rangeHold t [⟨s.bufBase t a, 6144⟩] [accTileRng a] || (s.tile t).vqFull || s.trackerFull t then .hold
    else if !s.flag (TSPBND_BOUND t a) then .trap 2 0
    else .fall (s.modTile t fun x => { x with vq := x.vq ++ [.round a] }))

/-- ACC.DROP (R129, R130). -/
def execAccDrop (t : Nat) (b : BitVec 54) (s : State) : Res :=
  .next (s.issue t 4 0x03 b (rsvOut [(49, 47)]) [] noFuse fun s =>
    let a := fb b 47 3
    if s.rangeHold t [] [accTileRng a] then .hold
    else if !s.flag (TSPBND_BOUND t a) then .trap 2 0
    else .fall (s.setFld (TSPBND_BOUND t a) 0))

/-- ACC.CHAIN (R133, R165). -/
def execAccChain (t : Nat) (b : BitVec 54) (s : State) : Res :=
  .next (s.issue t 4 0x04 b (rsvOut [(49, 47), (46, 46), (45, 44), (43, 40), (39, 36), (35, 32), (31, 27)]) [] noFuse fun s =>
    let x := s.tile t
    let spn := fb b 44 2
    let src := fb b 46 1
    let inc := (x.areg (fb b 40 4)).toNat
    let loc := (x.areg (fb b 36 4)).toNat
    let out := (x.areg (fb b 32 4)).toNat
    let job : VJob := .chain (fb b 47 3) src spn inc loc out (fb b 27 5) (s.pc t) false
    let r := job.ranges (s.bufBase t)
    let n := if spn = 0 then 6144 else 3072
    let on := if src = 0 ∧ out = loc then 6144 else n
    if s.rangeHold t r.1 r.2 || x.vqFull || s.trackerFull t then .hold
    else if spn == 3 || !s.inScratch t inc n || (src == 0 && !s.inScratch t loc 6144) || !s.inScratch t out on then .trap 2 0
    else .fall (s.setTile t { x with vq := x.vq ++ [job] }))

/-! ## Spill passes (R125) -/

/-- Bytes of an E48 value, all poisoned or none. -/
def e48Bytes (p : Bool) (x : Nat) : List (Nat × Bool) := asBytes 6 x p

/-- Read row r of one column half for a spill (R122, R125): the 16 E48 values, each with the poison met in the half. -/
def State.spillRead (s : State) (t a r c : Nat) : (List Nat × Bool) × State :=
  let w0 := a * 1024 + r * 32 + 16 * c
  let acc := readMany (fun s n => s.accRead t (w0 + n)) s (List.range 16)
  let first := s.flag (bndEmpty t a c)
  let buf := if first then ([], acc.2) else acc.2.winRead t (s.bufBase t a + r * 192 + c * 96) 96 uVector
  (((List.range 16).map fun n =>
      let x := (nth (0, false) acc.1 n).1
      if first then fp32ToE48 x else e48Add (e48F.decArray (valOf ((buf.1.drop (6 * n)).take 6))) (fp32F.decArray x),
    anyPois acc.1 || anyPois buf.1), buf.2)

/-- Write row r of one column half: its buffer bytes, poisoned or not, and zeros in the accumulator (R125). -/
def State.spillPut (s : State) (t a r c : Nat) (vs : List Nat) (pois : Bool) : State :=
  let s := s.winWrite t (s.bufBase t a + r * 192 + c * 96) (vs.flatMap (e48Bytes pois))
  s.modTile t fun x => (List.range 16).foldl (fun x n => Tile.accSet x (a * 1024 + r * 32 + 16 * c + n) 0) x

/-- Spill row r of one column half of a tile (R122, R125). -/
def State.spillRow (s : State) (t a c r : Nat) : State :=
  let d := s.spillRead t a r c
  d.2.spillPut t a r c d.1.1 d.1.2

/-- Spill one row of both column halves: both are read first, so that poison in either makes the whole buffer row poisoned (R125). -/
def State.spillRow2 (s : State) (t a r : Nat) : State :=
  let x := s.spillRead t a r 0
  let y := x.2.spillRead t a r 1
  let p := x.1.2 || y.1.2
  (y.2.spillPut t a r 0 x.1.1 p).spillPut t a r 1 y.1.1 p

/-- Spill one row of a tile: its halves, then the row's poison bit, cleared when both are spilled (R125). -/
def State.spillTileRow (s : State) (t a : Nat) (hs : List Nat) (r : Nat) : State :=
  let s := if hs.length = 2 then s.spillRow2 t a r else s.each hs fun s c => s.spillRow t a c r
  if hs.length = 2 then s.modTile t fun x => x.setRowPois (a * 32 + r) false else s

/-- The column halves of tile a in a pass. -/
def halvesOf (w : List (Nat × Nat)) (a : Nat) : List Nat := (w.filter fun h => h.1 == a).map (·.2)

/-- A whole spill pass (R124, R125): tiles ascending, rows in order; EMPTY and COUNT of each half clear, SPILLS rises once
a tile. -/
def State.spillPass (s : State) (t : Nat) (w : List (Nat × Nat)) : State :=
  let s := s.each ((List.range 8).filter fun a => w.any fun h => h.1 == a) fun s a =>
    let hs := halvesOf w a
    let s := s.each (List.range 32) fun s r => s.spillTileRow t a hs r
    let s := s.each hs fun s c => (s.setFld (bndEmpty t a c) 0).setFld (bndCount t a c) 0
    s.bump (TSPBND_SPILLS t a) 1
  s.syncPois t

/-- SPILL_PASS_COMPLETE (R126): the pass at the head of the vector datapath ends. -/
def execSpillPassComplete (t : Nat) (s : State) : Res :=
  match (s.tile t).vq with
  | .spill w :: _ => .next ((s.modTile t Tile.popV).spillPass t w)
  | _ => .next s

/-! ## Rounding (R128) -/

/-- Round one column half of row r, unless it was never spilled: whether it wrote, and whether it read poison. -/
def State.roundHalf (s : State) (t a r c : Nat) : (Bool × Bool) × State :=
  if s.flag (bndEmpty t a c) then ((false, false), s)
  else
    let w0 := a * 1024 + r * 32 + 16 * c
    let buf := s.winRead t (s.bufBase t a + r * 192 + c * 96) 96 uVector
    let add := s.fld (bndCount t a c) != 0
    let acc := if add then readMany (fun s n => s.accRead t (w0 + n)) buf.2 (List.range 16) else ([], buf.2)
    let x := (List.range 16).foldl (fun x n =>
      let b := e48F.decArray (valOf ((buf.1.drop (6 * n)).take 6))
      let v := if add then e48Add b (fp32F.decArray (nth (0, false) acc.1 n).1) else e48F.encArray b
      Tile.accSet x (w0 + n) (e48ToFp32 v)) (acc.2.tile t)
    ((true, anyPois buf.1 || anyPois acc.1), acc.2.setTile t x)

/-- Round one row of a tile and set its poison bit by R78. -/
def State.roundRow (s : State) (t a r : Nat) : State :=
  let h0 := s.roundHalf t a r 0
  let h1 := h0.2.roundHalf t a r 1
  let row := a * 32 + r
  h1.2.modTile t fun x => x.setRowPois row (rowPoisAfter (x.rowPois row) (h0.1.2 || h1.1.2) (h0.1.1 && h1.1.1) true)

/-- ACC_ROUND_COMPLETE (R128): the tile is rounded and released. -/
def execAccRoundComplete (t : Nat) (s : State) : Res :=
  match (s.tile t).vq with
  | .round a :: _ =>
    let s := s.modTile t Tile.popV
    let s := s.each (List.range 32) fun s r => s.roundRow t a r
    .next ((s.setFld (TSPBND_BOUND t a) 0).syncPois t)
  | _ => .next s

/-! ## Chain-adds (R132, R133) -/

/-- CHAIN_TOKEN_ACQUIRE (R165): the chain-add at the head of the datapath takes its token. -/
def execChainTokenAcquire (t : Nat) (s : State) : Res :=
  let x := s.tile t
  match x.vq with
  | .chain a src spn inc loc out tok idx false :: rest =>
    let n := s.fld (TTOK_COUNT t tok)
    if n = 0 then .next s
    else .next ((s.setTile t { x with vq := .chain a src spn inc loc out tok idx true :: rest }).setFld (TTOK_COUNT t tok) (n - 1))
  | _ => .next s

/-- Add one row of a chain block (R133): its columns are n0 to n0 + nc − 1. -/
def State.chainRow (s : State) (t a src inc loc out n0 nc r : Nat) : State :=
  let inOff := inc + r * (6 * nc)
  let locOff := loc + r * 192 + n0 * 6
  let i := s.winRead t inOff (6 * nc) uVector
  let l := if src = 0 then i.2.winRead t locOff (6 * nc) uVector else ([], i.2)
  let q := if src = 0 then ([], l.2) else readMany (fun s n => s.accRead t (a * 1024 + r * 32 + n0 + n)) l.2 (List.range nc)
  let pois := anyPois i.1 || anyPois l.1 || anyPois q.1
  let outs := (List.range nc).flatMap fun n =>
    let x := e48F.decArray (valOf ((i.1.drop (6 * n)).take 6))
    let y := if src = 0 then e48F.decArray (valOf ((l.1.drop (6 * n)).take 6)) else fp32F.decArray (nth (0, false) q.1 n).1
    e48Bytes pois (e48Add x y)
  q.2.winWrite t (if src = 0 ∧ out = loc then locOff else out + r * (6 * nc)) outs

/-- CHAIN_ADD_COMPLETE (R133): the chain-add that holds its token writes its output rows. -/
def execChainAddComplete (t : Nat) (s : State) : Res :=
  match (s.tile t).vq with
  | .chain a src spn inc loc out _ _ true :: _ =>
    let s := s.modTile t Tile.popV
    let n0 := if spn = 2 then 16 else 0
    let nc := if spn = 0 then 32 else 16
    .next (s.each (List.range 32) fun s r => s.chainRow t a src inc loc out n0 nc r)
  | _ => .next s

end Sys2Proof.Machine
end

