-- ==== Sys2Proof/Machine/Philox.lean ====
section
/-! DEFINITION. The generator of every random bit: Philox-4×32-10 and its counter layout (R422 to R424). -/

namespace Sys2Proof.Machine

/-- One round on the counter words (R422). -/
def philoxRound (k0 k1 : Nat) : Nat × Nat × Nat × Nat → Nat × Nat × Nat × Nat
  | (c0, c1, c2, c3) =>
    let p := 0xD2511F53 * c0
    let q := 0xCD9E8D57 * c2
    ((q / 2 ^ 32) ^^^ c1 ^^^ k0, q % 2 ^ 32, (p / 2 ^ 32) ^^^ c3 ^^^ k1, p % 2 ^ 32)

/-- n rounds, the key advancing by its increments between rounds (R422). -/
def philoxRounds : Nat → Nat → Nat → Nat × Nat × Nat × Nat → Nat × Nat × Nat × Nat
  | 0, _, _, c => c
  | n + 1, k0, k1, c => philoxRounds n ((k0 + 0x9E3779B9) % 2 ^ 32) ((k1 + 0xBB67AE85) % 2 ^ 32) (philoxRound k0 k1 c)

/-- The block of four output words of a counter. -/
def philoxBlock (seed c0 c1 c2 c3 : Nat) : List Nat :=
  match philoxRounds 10 (bitsOf seed 0 32) (bitsOf seed 32 32) (c0, c1, c2, c3) with
  | (x0, x1, x2, x3) => [x0, x1, x2, x3]

/-- Word w of a stream in a step (R423). -/
def streamWord (seed step stream w : Nat) : Nat :=
  nth 0 (philoxBlock seed (bitsOf (w / 4) 0 32) (bitsOf (w / 4) 32 32) (bitsOf stream 0 20) (bitsOf step 0 32)) (w % 4)

/-- PHX's output word i, given the scalar sG holds (R424). -/
def phxWord (seed step sg i : Nat) : Nat := streamWord seed step (bitsOf sg 0 20) (bitsOf sg 20 44 + i)

/-- The 16-bit value u of output element i, given the scalar sG holds (R103, R424). -/
def srValue (seed step sg i : Nat) : Nat :=
  let e := bitsOf sg 20 44 + i
  bitsOf (streamWord seed step (bitsOf sg 0 20) (e / 2)) (16 * (e % 2)) 16

end Sys2Proof.Machine
end

