-- ==== Sys2Proof/Machine/VecFn.lean ====
section
/-! DEFINITION. The four vector functions: exp2, log2, reciprocal and reciprocal square root (R80, R113, R116). Where the
manual gives an accuracy and no value, the result is a free one of the FP32 values within that accuracy. -/

namespace Sys2Proof.Machine

/-- Bits of the working precision. -/
def fnP : Nat := 192

/-- The integer square root by bits: the largest r with r² ≤ n, r below 2^k. -/
def isqrtBits (n : Nat) : Nat → Nat → Nat
  | 0, r => r
  | k + 1, r => if (r + 2 ^ k) * (r + 2 ^ k) ≤ n then isqrtBits n k (r + 2 ^ k) else isqrtBits n k r

/-- The integer square root. -/
def isqrt (n : Nat) : Nat := isqrtBits n (bitLen n / 2 + 1) 0

/-- The magnitude encoding c is within n units in the last place of m × 2^e (m > 0): a unit is the step of the FP32 grid where the exact
value lies, the subnormal step below the smallest normal (R80, R113). -/
def withinUlps (n c m : Nat) (e : Int) : Bool :=
  match fp32F.decode c with
  | .fin _ v f =>
    let q := max ((ilog2 m : Int) + e - 23) (fp32F.emin - 23)
    let g := min q (min e f)
    decide ((alignTo v f g - alignTo m e g).natAbs ≤ n * (2 ^ (q - g).toNat : Nat))
  | _ => false

/-- The finite magnitude encodings within n units of m × 2^e, around the one next below it. -/
def near (n m : Nat) (e : Int) : List Nat :=
  let k := fp32F.encFloor m e
  ((List.range 9).map fun i => k + i - 4).eraseDups.filter fun c => decide (c ≤ fp32F.maxEnc) && withinUlps n c m e

/-- An FP32 result given its magnitude encoding, under VCTL.FTZ (R111); exact says that the encoding is the exact value. -/
def fnResult (ftz neg : Bool) (k : Nat) : Nat × Flags :=
  if fp32F.topEnc ≤ k then (fp32F.signed neg fp32F.topEnc, fOverflow)
  else if ftz && decide (k < 2 ^ 23) then (fp32F.signed neg 0, fFlushed)
  else (fp32F.signed neg k, if k = 0 then fUnder else 0)

/-- A result that is not exact: a free one of the encodings within n units of the exact value m × 2^e, which op and the operand's word x
fix. -/
def fnNear (ftz neg : Bool) (op x n m : Nat) (e : Int) : Nat × Flags :=
  let k := fp32F.encFloor m e
  let l := near n m e
  fnResult ftz neg (if fp32F.topEnc ≤ k then k else nth k l (Config.vecSlack op (BitVec.ofNat 32 x) % max 1 l.length))

/-- 2^(f / 2^n) × 2^fnP for the n-bit fraction f, most significant bit first: r is the current root of 2. -/
def exp2Bits (f : Nat) : Nat → Nat → Nat → Nat
  | 0, _, acc => acc
  | n + 1, r, acc =>
    let r := isqrt (r * 2 ^ fnP)
    exp2Bits f n r (if bitOf f n then acc * r / 2 ^ fnP else acc)

/-- exp2 (R113): x is the operand's word. -/
def vexp2 (ftz : Bool) (x : Nat) : Nat × Flags :=
  let d := fp32F.decVec ftz x
  match d.1 with
  | .nan => (fp32F.nanEnc, d.2)
  | .inf true => (0, d.2)
  | .inf false => (fp32F.topEnc, d.2)
  | .fin n m e =>
    if m = 0 then (fp32F.encArray (.fin false 1 0), d.2)
    else
      -- the operand as integer part and n-bit fraction
      let k := (-e).toNat
      let v : Int := signedM n m * (2 ^ e.toNat : Nat)
      -- far below the subnormal grid every operand gives the same result
      let ip := max (Int.fdiv v (2 ^ k : Nat)) (-1000)
      let fr := (Int.fmod v (2 ^ k : Nat)).toNat
      if 128 ≤ ip then (fp32F.topEnc, d.2 ||| fOverflow)
      else if fr = 0 then
        let r := fp32F.encVec true ftz .dflt .rne (.fin false 1 ip)
        (r.1, d.2 ||| r.2)
      else
        let r := fnNear ftz false 8 x 2 (exp2Bits fr k (2 * 2 ^ fnP) (2 ^ fnP)) (ip - fnP)
        (r.1, d.2 ||| r.2)

/-- n bits of log2 y, y in [1, 2) scaled by 2^fnP. -/
def log2Bits : Nat → Nat → Nat → Nat
  | 0, _, acc => acc
  | n + 1, y, acc =>
    let y := y * y / 2 ^ fnP
    if 2 * 2 ^ fnP ≤ y then log2Bits n (y / 2) (2 * acc + 1) else log2Bits n y (2 * acc)

/-- Fraction bits of a base-2 logarithm. -/
def logBits : Nat := 96

/-- log2 (R113, R116). -/
def vlog2 (ftz : Bool) (x : Nat) : Nat × Flags :=
  let d := fp32F.decVec ftz x
  match d.1 with
  | .nan => (fp32F.nanEnc, d.2)
  | .inf true => (fp32F.nanEnc, d.2 ||| fInvalid)
  | .inf false => (fp32F.topEnc, d.2)
  | .fin n m e =>
    if m = 0 then (fp32F.signed true fp32F.topEnc, d.2 ||| fDivz)
    else if n then (fp32F.nanEnc, d.2 ||| fInvalid)
    else
      let p := ilog2 m
      if m = 2 ^ p then
        let k := e + p
        (fp32F.encArray (.fin (decide (k < 0)) k.natAbs 0), d.2)
      else if x = fp32F.maxEnc then (fp32F.encArray (.fin false 128 0), d.2)
      else
        let L : Int := (e + p) * (2 ^ logBits : Nat) + log2Bits logBits (m * 2 ^ (fnP - p)) 0
        let r := fnNear ftz (decide (L < 0)) 9 x 2 L.natAbs (-logBits)
        (r.1, d.2 ||| r.2)

/-- reciprocal (R113, R116). -/
def vrcp (ftz : Bool) (x : Nat) : Nat × Flags :=
  let d := fp32F.decVec ftz x
  match d.1 with
  | .nan => (fp32F.nanEnc, d.2)
  | .inf n => (fp32F.signed n 0, d.2)
  | .fin n m e =>
    if m = 0 then (fp32F.signed n fp32F.topEnc, d.2 ||| fDivz)
    else if m = 2 ^ ilog2 m then
      let r := fp32F.encVec true ftz .dflt .rne (.fin n 1 (-e - ilog2 m))
      (r.1, d.2 ||| r.2)
    else
      let r := if x % 2 ^ 31 = fp32F.maxEnc then fnResult ftz n (fp32F.encFloor (2 ^ fnP / m) (-e - fnP))
        else fnNear ftz n 10 x 1 (2 ^ fnP / m) (-e - fnP)
      (r.1, d.2 ||| r.2)

/-- reciprocal square root (R113, R116). -/
def vrsq (ftz : Bool) (x : Nat) : Nat × Flags :=
  let d := fp32F.decVec ftz x
  match d.1 with
  | .nan => (fp32F.nanEnc, d.2)
  | .inf true => (fp32F.nanEnc, d.2 ||| fInvalid)
  | .inf false => (0, d.2)
  | .fin n m e =>
    if m = 0 then (fp32F.signed n fp32F.topEnc, d.2 ||| fDivz)
    else if n then (fp32F.nanEnc, d.2 ||| fInvalid)
    else
      let m' := if e % 2 = 0 then m else 2 * m
      let e' := if e % 2 = 0 then e else e - 1
      let p := ilog2 m'
      if m' = 2 ^ p ∧ p % 2 = 0 then
        (fp32F.encArray (.fin false 1 (-(e' / 2) - (p / 2 : Nat))), d.2)
      else
        let r := if x = fp32F.maxEnc then fnResult ftz false (fp32F.encFloor (isqrt (2 ^ (2 * fnP) / m')) (-(e' / 2) - fnP))
          else fnNear ftz false 11 x 1 (isqrt (2 ^ (2 * fnP) / m')) (-(e' / 2) - fnP)
        (r.1, d.2 ||| r.2)

end Sys2Proof.Machine
end

