-- ==== Sys2Proof/Machine/Vector.lean ====
section
/-! DEFINITION. The vector unit: issue checks and results of every VEC instruction (R80, R81, R92 to R104, R111 to R113,
R166 to R171). -/

namespace Sys2Proof.Machine

/-! ## Packed elements (R59, R90) -/

/-- Bytes and elements of one packing group of a w-bit element. -/
def groupOf (w : Nat) : Nat × Nat := if w = 4 then (1, 2) else if w = 6 then (3, 4) else (w / 8, 1)

/-- Split bytes into w-bit elements, group by group; n bounds the groups. -/
def splitGroups (w : Nat) : Nat → List (Nat × Bool) → List (Nat × Bool)
  | 0, _ => []
  | n + 1, bs =>
    let g := groupOf w
    let v := valOf (bs.take g.1)
    ((List.range g.2).map fun i =>
      (bitsOf v (i * w) w, (List.range g.1).any fun j => (nth (0, false) bs j).2 && decide (j * 8 < i * w + w) && decide (i * w < j * 8 + 8)))
      ++ splitGroups w n (bs.drop g.1)

/-- The n elements of w bits that bytes hold. -/
def splitElems (w n : Nat) (bs : List (Nat × Bool)) : List (Nat × Bool) := (splitGroups w (ceilDiv n (groupOf w).2) bs).take n

/-- Pack w-bit elements into bytes: a byte is poisoned when an element that lies in it is. -/
def packGroups (w : Nat) : Nat → List (Nat × Bool) → List (Nat × Bool)
  | 0, _ => []
  | n + 1, es =>
    let g := groupOf w
    let cur := es.take g.2
    let v := ((cur.zipIdx).map fun e => (e.1.1 % 2 ^ w) * 2 ^ (e.2 * w)).sum
    ((List.range g.1).map fun j =>
      (bitsOf v (8 * j) 8, (cur.zipIdx).any fun e => e.1.2 && decide (j * 8 < e.2 * w + w) && decide (e.2 * w < j * 8 + 8)))
      ++ packGroups w n (es.drop g.2)

/-- The bytes of a list of w-bit elements. -/
def packElems (w : Nat) (es : List (Nat × Bool)) : List (Nat × Bool) := packGroups w (ceilDiv es.length (groupOf w).2) es

/-- Bytes that n elements of w bits take. -/
def elemBytes (w n : Nat) : Nat := ceilDiv (n * w) 8

/-! ## Operations (Table 5.11) -/

/-- FP32 or BF16. -/
def isFloat (c : Nat) : Bool := c == 0 || c == 1
/-- Operations that take a broadcast (R170). -/
def takesBsc (op : Nat) : Bool := decide (op ≤ 4) || op == 6
/-- ADD to MIN and the four functions: float in, float out. -/
def isArith (op : Nat) : Bool := decide (op ≤ 4) || (decide (8 ≤ op) && decide (op ≤ 0xB))

/-- The pairs CVT accepts (R168). -/
def cvtPair (fi fo : Nat) : Bool :=
  fi == 0 || fo == 0 || (fi == 0xF && decide (fo ≤ 0xC)) || (fi == 0xD && fo == 0xE) || (fi == 0xE && fo == 0xD)

/-- The overflow option is one Table 3.5 gives for the destination; destinations outside the table take any. -/
def ovfOk (fo opt : Nat) : Bool :=
  if opt = 1 then fo != 3
  else if opt = 3 then !(fo == 0 || fo == 1 || fo == 2 || fo == 4 || fo == 0xF || fo == 0xA || fo == 0xB)
  else true

/-- MOD is valid for the operation (R169). -/
def modOk (op fo md : Nat) : Bool :=
  if op = 0xC then (md % 2 = 0 || (decide (1 ≤ fo) && decide (fo ≤ 0xC))) && ovfOk fo (md / 2)
  else if isArith op then (if fo = 1 then ovfOk fo (md / 2) else md == 0)
  else if op = 5 then decide (md ≤ 4)
  else if op = 7 then decide (md ≤ 2)
  else if op = 0xF then true
  else if op = 0xD then decide (md ≤ 1)
  else md == 0

/-- Formats are in the operation's row of Table 5.11. -/
def fmtsOk (op fi fo : Nat) : Bool :=
  if isArith op then isFloat fi && isFloat fo
  else if op = 5 then isFloat fi && fo == 0
  else if op = 7 then isFloat fi && fo == 0
  else if op = 6 ∨ op = 0x10 then fi == fo
  else if op = 0xC then cvtPair fi fo
  else if op = 0xD then fo == 0
  else if op = 0xF then fi == 0
  else true

/-- Counts the formats allow (R167, R170). SEL and MOV move elements of block formats without their scales, so that the multiple of 32 is
not asked of them (DESIGN CHOICE between R167 and R170: log entry 90). -/
def countOk (op fi fo n : Nat) : Bool :=
  decide (n ≤ 2 ^ 20)
  && (if op = 6 ∨ op = 0x10 then (if elemBits fi = 4 then n % 2 == 0 else if elemBits fi = 6 then n % 4 == 0 else true)
      else if op = 0xC then (!(isBlock fi || isBlock fo) || n % 32 == 0) && (!(fi == 0xB || fo == 0xB) || n % 2 == 0)
      else if op = 7 then n % 32 == 0
      else true)

/-- Panel lanes of a skewed store (R171). -/
def VecJob.skL (j : VecJob) : Nat := if j.skq then 16 else 32
/-- Two elements a lane (R61, R171). -/
def VecJob.skPair (j : VecJob) : Bool := j.fo == 9 || (j.fo == 0xB && !j.skn)
/-- Elements of one panel row (R171). -/
def VecJob.skR (j : VecJob) : Nat := j.skL * (if j.skPair then 2 else 1)
/-- Bytes from aD to the end of the skewed panel. -/
def VecJob.skBytes (j : VecJob) : Nat := (j.n / j.skR + j.skL - 1) * (j.skL * laneBytes j.fo)
/-- Scale bytes a skewed MX store writes (R62, R171). -/
def VecJob.skScales (j : VecJob) : Nat := j.n / j.skR * (if j.fo = 9 ∧ !j.skq then 2 else 1)

/-- Bits of the element a source array holds, by operation. -/
def VecJob.srcBits (j : VecJob) : Nat :=
  if j.op = 0xD then (if j.md % 2 = 1 then 16 else 32) else if j.op = 0xF then 32 * 64 else elemBits j.fi

/-- The operation reads A. -/
def VecJob.readsA (j : VecJob) : Bool := j.op != 0xE
/-- The operation reads an element array B. -/
def VecJob.readsB (j : VecJob) : Bool := !j.bsc && (decide (j.op ≤ 6))
/-- Bytes of the FX32 exponent array read at B (R168). -/
def VecJob.expB (j : VecJob) : Nat := if j.op = 0xC ∧ (j.fi = 0xE ∨ j.fo = 0xE) then j.n / 32 else 0
/-- Bytes read at C: a third operand, a mask, or the scales or exponents of a block source (R168). -/
def VecJob.rdC (j : VecJob) : Nat :=
  if j.op = 2 then elemBytes (elemBits j.fi) j.n
  else if j.op = 6 then 4 * j.n
  else if j.op = 0xC ∧ (isMX j.fi ∨ j.fi = 0xD) then j.n / 32
  else 0
/-- Bytes written at C: top-k scores, or the scales or exponents of a block result. -/
def VecJob.wrC (j : VecJob) : Nat :=
  if j.op = 0xF then j.n * (j.md + 1) * 4
  else if j.op = 0xC ∧ j.fo = 0xD then j.n / 32
  else if j.op = 0xC ∧ isMX j.fo then (if j.skw then j.skScales else j.n / 32)
  else 0
/-- Bytes written at D. -/
def VecJob.wrD (j : VecJob) : Nat :=
  if j.skw then j.skBytes
  else if j.op = 7 then j.n / 32 * 4
  else if j.op = 0xE then 4 * j.n
  else if j.op = 0xF then j.n * (j.md + 1)
  else elemBytes (elemBits j.fo) j.n

/-- Ranges read (R153, R158). -/
def VecJob.reads (j : VecJob) : List Rng :=
  [⟨j.aA, if j.readsA then elemBytes j.srcBits j.n else 0⟩, ⟨j.aB, if j.readsB then elemBytes (elemBits j.fi) j.n else j.expB⟩,
    ⟨j.aC, j.rdC⟩].filter fun r => r.len != 0
/-- Ranges written. -/
def VecJob.writes (j : VecJob) : List Rng := [⟨j.aD, j.wrD⟩, ⟨j.aC, j.wrC⟩].filter fun r => r.len != 0

/-- The invalid-operand cases of R167 to R171. -/
def VecJob.invalid (j : VecJob) (s : State) (t : Nat) : Bool :=
  !fmtsOk j.op j.fi j.fo || !modOk j.op j.fo j.md || !countOk j.op j.fi j.fo j.n || (j.bsc && !takesBsc j.op)
  || (j.skw && (j.op == 0xE || j.op == 0xF || !isArrayCode j.fo || j.n % j.skR != 0))
  || (j.n != 0 && !((j.reads ++ j.writes).all fun r => s.opRange t r.lo r.len))

/-- FI of an operation; ICVT and PHX do not use the field (Table 5.11). -/
def vecFi (op : Nat) (b : BitVec 54) : Nat := if op = 0xD ∨ op = 0xE then 0 else fb b 46 4
/-- FO of an operation; PHX and TOPK do not use the field (Table 5.11). -/
def vecFo (op : Nat) (b : BitVec 54) : Nat := if op = 0xE ∨ op = 0xF then 0 else fb b 42 4

/-- The instruction's fields (R166) and what is captured at issue (R425). -/
def vecFields (op : Nat) (t : Nat) (b : BitVec 54) (s : State) : VecJob :=
  let x := s.tile t
  let j : VecJob :=
    { op := op, idx := s.pc t, fi := vecFi op b, fo := vecFo op b, aA := (x.areg (fb b 38 4)).toNat, aB := (x.areg (fb b 34 4)).toNat,
      aC := (x.areg (fb b 30 4)).toNat, aD := (x.areg (fb b 26 4)).toNat, n := bitsOf (x.sreg (fb b 21 5)).toNat 0 32,
      bcast := x.sreg (fb b 16 5), gen := x.sreg (fb b 5 5), md := fb b 13 3, bsc := fb1 b 12, skw := fb1 b 11, skq := fb1 b 10,
      skn := fb1 b 4, ftz := s.flag (VCTL_FTZ t), step := s.fld (TRNGSTEP_STEP t), seed := s.reg aGSEED, rd := [], wr := [], fuse := none }
  { j with rd := j.reads, wr := j.writes }

/-- Scalar registers a vector instruction reads (R152, R166). -/
def vecRegs (op : Nat) (b : BitVec 54) : List Nat :=
  [fb b 21 5] ++ (if takesBsc op && fb1 b 12 then [fb b 16 5] else [])
    ++ (if op = 0xE ∨ ((op = 0xC ∨ isArith op) ∧ fb1 b 13) then [fb b 5 5] else [])

/-- Fused prefixes a vector instruction admits (R181): 0 CIRC on CVT from FP32 to G16, 1 DISP on CVT or MOV. -/
def vecFuse (op : Nat) (b : BitVec 54) (kind : Nat) : Bool :=
  (kind == 0 && op == 0xC && fb b 46 4 == 0 && fb b 42 4 == 0xD) || (kind == 1 && (op == 0xC || op == 0x10))

/-- The first block a CVT paired with FUSE.CIRC hands over: aD and aC are the descriptor's SRC and SRCX at the offsets of the
blocks it writes (R305). -/
def VecJob.circBlock (j : VecJob) (s : State) (t : Nat) (d : List Nat) : Option Nat :=
  let base := s.rank * 2 ^ 48 + tileBase t
  let b0 := (base + j.aD - cdSrc d) / 64
  if cdSrc d ≤ base + j.aD ∧ (base + j.aD - cdSrc d) % 64 = 0 ∧ base + j.aC = cdSrcx d + b0 ∧ !j.skw then some b0 else none

/-- Issue a vector instruction: a spill pass, a full queue or a range in flight holds it (R126, R152). The index array and return words of a
fused dispatch are part of its range-tracker entry (R153). -/
def vecIssue (op : Nat) (t : Nat) (b : BitVec 54) (s : State) : Act :=
  let j := vecFields op t b s
  let x := s.tile t
  let n := if x.fuse.any fun f => f.kind == 0 then 128 else 64
  let fx := if x.fuse.any fun f => f.kind == 1 then s.fuseRngs t ((s.fuseRead t n).1.map (·.1)) else ([], [])
  let j := { j with rd := j.rd ++ fx.1, wr := j.wr ++ fx.2 }
  if s.rangeHold t (j.rd ++ x.fuseRng n) j.wr || x.vqFull || s.trackerFull t || (x.vq.any fun v => match v with
    | .spill _ => true
    | _ => false) then .hold
  else if j.invalid s t then .trap 2 0
  else if j.n = 0 then .fall s
  else
    match x.fuse with
    | none => .fall (s.setTile t { x with vq := x.vq ++ [.vec j] })
    | some f =>
      let r := s.fuseRead t n
      let d := r.1.map (·.1)
      let s := r.2
      let put := fun (s : State) => s.modTile t fun x => { x with vq := x.vq ++ [.vec { j with fuse := some (f.kind, d) }] }
      if !s.opRange t f.off n || anyPois r.1 then .trapAt s 2 0
      else if f.kind = 1 then (if s.fuseDispOk t d then .fall (put s) else .trapAt s 2 0)
      else if (j.circBlock s t d).isNone then .trapAt s 2 0
      else if (s.collOf (cdCid d)).isSome then .fall (put s)
      else if 16 ≤ s.colls.length then .held .colls
      else .fall (put (s.collSubmit ((s.ctxOfTile t).getD 0) 2 (s.rank * 2 ^ 48 + tileBase t + f.off)).2)

/-- A VEC instruction (R166): bits [3:0] are reserved. -/
def vecInstr (op : Nat) (t : Nat) (b : BitVec 54) (s : State) : State :=
  s.issue t 5 op b (span 3 0) (vecRegs op b) (vecFuse op b) (vecIssue op t b)

/-! ## Element results -/

/-- Rounding of output element i (R103, R169, R424). -/
def VecJob.rnd (j : VecJob) (i : Nat) : Rnd :=
  if j.md % 2 = 1 then .sr (srValue j.seed.toNat j.step j.gen.toNat i) else .rne

/-- A value with its flags. -/
abbrev VF := Val × Flags

/-- A float source element (R111). -/
def VecJob.src (j : VecJob) (x : Nat) : VF := if j.fi = 1 then bf16F.decVec j.ftz x else fp32F.decVec j.ftz x

/-- Write a float result (R111, R169): the exact result is rounded once, to FO. For FO = BF16 no binary32 result comes between (DESIGN
CHOICE: R112 and R168 do not say; log entry 90). -/
def VecJob.put (j : VecJob) (i : Nat) (v : Val) : Nat × Flags :=
  if j.fo = 1 then bf16F.encVec true j.ftz (Ovf.ofMod (j.md / 2)) (j.rnd i) v else fp32F.encVec true j.ftz .dflt .rne v

/-- Maximum or minimum (R112). -/
def vmaxmin (isMax : Bool) (a b : Val) : Val :=
  if a.isNan || b.isNan then .nan
  else if a.isZero && b.isZero then .fin (if isMax then a.neg && b.neg else a.neg || b.neg) 0 0
  else if Val.lt a b then (if isMax then b else a) else (if isMax then a else b)

/-- A NaN made from operands that are none (R112). -/
def madeNan (ops : List Val) (r : Val) : Flags := if r.isNan && !ops.any Val.isNan then fInvalid else 0

/-- FMA's INVALID: a product 0 × ∞ whatever the addend, or opposite infinities (R112). -/
def fmaFlags (a b c : Val) : Flags :=
  let p := Val.mul a b
  if p.isNan && !a.isNan && !b.isNan then fInvalid else madeNan [p, c] (Val.add p c)

/-- ADD, MUL, FMA, MAX and MIN on one element. -/
def VecJob.arith (j : VecJob) (a b c : Val) : VF :=
  match j.op with
  | 0 => let r := Val.add a b; (r, madeNan [a, b] r)
  | 1 => let r := Val.mul a b; (r, madeNan [a, b] r)
  | 2 => (Val.add (Val.mul a b) c, fmaFlags a b c)
  | 3 => (vmaxmin true a b, 0)
  | _ => (vmaxmin false a b, 0)

/-- Compare (R112, R169). -/
def cmpHolds (cc : Nat) (a b : Val) : Bool :=
  match cc with
  | 0 => Val.eqv a b
  | 1 => !Val.eqv a b
  | 2 => Val.lt a b
  | 3 => Val.lt a b || Val.eqv a b
  | _ => a.isNan || b.isNan

/-- A function of one operand, computed as FP32 and converted to FO. A result that overflows FP32 is an infinity there, with OVERFLOW, and
stays one in BF16 whatever the overflow option asks (DESIGN CHOICE: R104 does not say; log entry 90). -/
def VecJob.fn (j : VecJob) (i x : Nat) : Nat × Flags :=
  -- the operand as an FP32 word: a BF16 operand widens exactly, after its own flush
  let d := j.src x
  let w := fp32F.encVec true false .dflt .rne d.1
  let f := match j.op with
    | 8 => vexp2 j.ftz w.1
    | 9 => vlog2 j.ftz w.1
    | 0xA => vrcp j.ftz w.1
    | _ => vrsq j.ftz w.1
  if j.fo = 1 then
    let r := j.put i (fp32F.decode f.1)
    (r.1, d.2 ||| f.2 ||| r.2)
  else (f.1, d.2 ||| f.2)

/-- An element result: bits, poison, flags. A poisoned element raises no flag. -/
structure VE where
  v : Nat
  p : Bool
  fl : Flags
  deriving DecidableEq, Repr

/-- Element operations ADD to CMP, SEL and the functions: element i from its operands. -/
def VecJob.elem (j : VecJob) (i : Nat) (a b c : Nat × Bool) : VE :=
  let bv : VF := if j.bsc then fp32F.decVec j.ftz (bitsOf j.bcast.toNat 0 32) else j.src b.1
  let p := a.2 || (j.readsB && b.2) || ((j.op == 2 || j.op == 6) && c.2)
  if j.op ≤ 4 then
    let x := j.src a.1
    let z : VF := if j.op = 2 then j.src c.1 else (Val.zero, 0)
    let r := j.arith x.1 bv.1 z.1
    let o := j.put i r.1
    ⟨o.1, p, if p then 0 else x.2 ||| bv.2 ||| z.2 ||| r.2 ||| o.2⟩
  else if j.op = 5 then
    let x := j.src a.1
    ⟨if cmpHolds j.md x.1 bv.1 then 2 ^ 32 - 1 else 0, p, if p then 0 else x.2 ||| bv.2⟩
  else if j.op = 6 then
    ⟨if c.1 ≠ 0 then a.1 else if j.bsc then bitsOf j.bcast.toNat 0 (elemBits j.fi) else b.1, p, 0⟩
  else if j.op = 0xD then
    let w := if j.md % 2 = 1 then 16 else 32
    let k := toIntW w a.1
    ⟨(fp32F.encVec true false .dflt .rne (.fin (decide (k < 0)) k.natAbs 0)).1, p, 0⟩
  else if j.op = 0x10 then ⟨a.1, p, 0⟩
  else
    let o := j.fn i a.1
    ⟨o.1, p, if p then 0 else o.2⟩

/-! ## Conversions (R168) -/

/-- Decode source elements of one block or run: sc is the scale or exponent byte. -/
def VecJob.cvtIn (j : VecJob) (x sc : Nat) : VF :=
  if j.fi = 0 then fp32F.decVec j.ftz x
  else if j.fi = 1 then bf16F.decVec j.ftz x
  else if j.fi = 2 then fp16F.decVec j.ftz x
  else if j.fi = 0xF then (e48F.decArray x, 0)
  else (decodeElem j.fi x sc, 0)

/-- Encode one element to a format without a block. -/
def VecJob.cvtOut (j : VecJob) (i : Nat) (v : Val) : Nat × Flags :=
  let o := Ovf.ofMod (j.md / 2)
  if j.fo = 0xA then toIntElem 8 (j.rnd i) v
  else if j.fo = 0xB then toIntElem 4 (j.rnd i) v
  else if j.fo = 0xF then (e48F.encArray v, 0)
  else match fmtOf j.fo with
    | some F => F.encVec (decide (j.fo ≤ 2)) j.ftz o (j.rnd i) v
    | none => (0, 0)

/-- The result of converting one 32-element block, or one element of a format without blocks: elements, the scale or
exponent byte to write, and lost elements (R98). -/
structure CvtOut where
  es : List VE
  sc : Nat × Bool
  lost : Nat
  deriving DecidableEq, Repr

/-- All elements carry one poison mark. -/
def markAll (p : Bool) (fl : Flags) (vs : List Nat) : List VE := (vs.zipIdx).map fun v => ⟨v.1, p, if v.2 = 0 ∧ !p then fl else 0⟩

/-- The random bits that elements i0 to i0 + 31 take; none without stochastic rounding. -/
def VecJob.bitsUsed (j : VecJob) (i0 : Nat) : List Nat :=
  ((List.range 32).map fun i => j.rnd (i0 + i)).filterMap fun r => match r with
    | .sr u => some u
    | .rne => none

/-- A free result where the FX32 exponent byte is 0xFF: the manual states none (R101), but it is a fixed function of the operands, the mode
bits and the random bits (R80, R390). Position 32 is the exponent byte. -/
def VecJob.fxFree (j : VecJob) (i0 : Nat) (xs : List (Nat × Bool)) (sc : Nat) (i : Nat) : Nat :=
  Config.fxFree ([j.fi, j.fo, j.md, if j.ftz then 1 else 0, sc] ++ j.bitsUsed i0) (xs.map (·.1)) i

/-- Convert one block of source elements at element index i0; sc is C's byte, ex is B's FX32 exponent byte. Poison passes by R203 whatever
the values. -/
def VecJob.cvtBlock (j : VecJob) (i0 : Nat) (xs : List (Nat × Bool)) (sc ex : Nat × Bool) : CvtOut :=
  let fxUse := j.fi == 0xE || j.fo == 0xE
  if fxUse ∧ ex.1 = 0xFF ∧ !ex.2 then
    let whole := j.fo == 0xD && anyPois xs
    ⟨((xs.zipIdx).map fun x => ⟨j.fxFree i0 xs sc.1 x.2 % 2 ^ elemBits j.fo, whole || x.1.2 || (j.fi == 0xD && sc.2), 0⟩),
      (j.fxFree i0 xs sc.1 32 % 256, whole), 0⟩
  else if j.fi = 0xD ∧ j.fo = 0xE then
    let r := g16ToFX sc.1 ex.1 (xs.map (·.1))
    ⟨(xs.zip r.1).map fun x => ⟨x.2, x.1.2 || sc.2 || ex.2, if x.1.2 || sc.2 || ex.2 then 0 else r.2⟩, (0, false), 0⟩
  else if j.fi = 0xE ∧ j.fo = 0xD then
    let r := fxToG16 ex.1 (xs.map (·.1))
    let p := anyPois xs || ex.2
    ⟨markAll p r.flags r.elems, (r.ex, p), 0⟩
  else
    let scIn : Nat × Bool := if j.fi = 0xE then ex else if isMX j.fi ∨ j.fi = 0xD then sc else (0, false)
    let vs := xs.map fun x => j.cvtIn x.1 scIn.1
    let fin := (vs.zip xs).foldl (fun f v => if v.2.2 then f else f ||| v.1.2) 0
    let vals := vs.map (·.1)
    if isMX j.fo then
      let r := encodeMX j.fo vals ((List.range 32).map fun i => j.rnd (i0 + i))
      let p := anyPois xs || scIn.2
      ⟨markAll p (fin ||| r.flags) r.elems, (r.sc, p), if p then 0 else r.flushes⟩
    else if j.fo = 0xD then
      let r := encodeG16 vals
      let p := anyPois xs || scIn.2
      ⟨markAll p (fin ||| r.flags) r.elems, (r.ex, p), 0⟩
    else
      let out := (vs.zip xs).zipIdx.map fun v =>
        let p := v.1.2.2 || scIn.2 || (j.fo == 0xE && ex.2)
        let o := if j.fo = 0xE then valToFX ex.1 v.1.1.1
          else if j.fo = 0xF then (fp32ToE48 v.1.2.1, 0)
          else j.cvtOut (i0 + v.2) v.1.1.1
        let fi := if j.fo = 0xF then 0 else v.1.1.2
        (⟨o.1, p, if p then 0 else fi ||| o.2⟩ : VE)
      ⟨out, (0, false), 0⟩

/-- Convert elements in runs of 32; n bounds the runs. -/
def VecJob.cvtAll (j : VecJob) : Nat → Nat → List (Nat × Bool) → List (Nat × Bool) → List (Nat × Bool) → List CvtOut
  | 0, _, _, _, _ => []
  | n + 1, i0, xs, cs, es =>
    j.cvtBlock i0 (xs.take 32) (nth (0, false) cs 0) (nth (0, false) es 0)
      :: j.cvtAll n (i0 + 32) (xs.drop 32) (cs.drop 1) (es.drop 1)

/-! ## Reductions and top-k -/

/-- One level of the pairwise tree in lane order (R80). -/
def sumPairs (ftz : Bool) : List VF → List VF
  | a :: b :: rest =>
    let r := Val.add a.1 b.1
    let o := fp32F.encVec true ftz .dflt .rne r
    (fp32F.decode o.1, a.2 ||| b.2 ||| madeNan [a.1, b.1] r ||| o.2) :: sumPairs ftz rest
  | l => l

/-- A 32-element reduction: 0 sum, 1 max, 2 min (R80, R169). -/
def VecJob.reduce (j : VecJob) (xs : List Nat) : Nat × Flags :=
  let vs := xs.map j.src
  if j.md = 0 then
    let r := sumPairs j.ftz (sumPairs j.ftz (sumPairs j.ftz (sumPairs j.ftz (sumPairs j.ftz vs))))
    match r with
    | v :: _ => ((fp32F.encVec true false .dflt .rne v.1).1, v.2)
    | [] => (0, 0)
  else
    match vs with
    | [] => (0, 0)
    | v :: rest =>
      let r := rest.foldl (fun a b => (vmaxmin (j.md == 1) a.1 b.1, a.2 ||| b.2)) v
      ((fp32F.encVec true false .dflt .rne r.1).1, r.2)

/-- Score a ranks before score b (R81): larger first, NaN below −∞, equal scores by lower index. -/
def ranksBefore (a b : Nat × Val) : Bool :=
  if Val.lt b.2 a.2 then true
  else if Val.lt a.2 b.2 then false
  else if a.2.isNan != b.2.isNan then b.2.isNan
  else decide (a.1 < b.1)

/-- Insert a score into a ranked list. -/
def rankInsert (x : Nat × Val) : List (Nat × Val) → List (Nat × Val)
  | [] => [x]
  | y :: ys => if ranksBefore x y then x :: y :: ys else y :: rankInsert x ys

/-- The indices of the k best of a row of scores, best first (R81). -/
def topK (k : Nat) (scores : List Val) : List Nat :=
  ((((scores.zipIdx).map fun v => (v.2, v.1)).foldl (fun acc x => rankInsert x acc) []).take k).map (·.1)

/-! ## Writing results -/

/-- Elements as bytes. -/
def veBytes (w : Nat) (es : List VE) : List (Nat × Bool) := packElems w (es.map fun e => (e.v, e.p))

/-- All flags of a list of results. -/
def veFlags (es : List VE) : Flags := es.foldl (fun f e => f ||| e.fl) 0

/-- The bytes of one panel row: lane j's bytes hold one or two elements (R61). -/
def VecJob.laneOf (j : VecJob) (row : List VE) (lane : Nat) : List (Nat × Bool) :=
  let z : VE := ⟨0, false, 0⟩
  if j.skPair then
    let a := nth z row (2 * lane)
    let c := nth z row (2 * lane + 1)
    [(a.v + 16 * c.v, a.p || c.p)]
  else
    let a := nth z row lane
    asBytes (laneBytes j.fo) a.v a.p

/-- Where the lanes of a skewed result go, from panel row r: only lane positions inside the panel are written (R63, R171). -/
def VecJob.skewCells (j : VecJob) : Nat → Nat → List VE → List (Nat × List (Nat × Bool))
  | 0, _, _ => []
  | n + 1, r, es =>
    let L := j.skL
    let e := laneBytes j.fo
    let row := es.take j.skR
    ((List.range L).map fun lane => (j.aD + (r + lane) * (L * e) + lane * e, j.laneOf row lane)) ++ j.skewCells n (r + 1) (es.drop j.skR)

/-- Write element results, plain or skewed. -/
def VecJob.store (j : VecJob) (s : State) (t : Nat) (es : List VE) : State :=
  if j.skw then s.scatter t (j.skewCells (j.n / j.skR) 0 es) else s.winWrite t j.aD (veBytes (elemBits j.fo) es)

/-- The scale bytes a block result writes at C: one a block, or as the panel's rows need them (R62, R171). -/
def VecJob.scalesOut (j : VecJob) (scs : List (Nat × Bool)) : List (Nat × Bool) :=
  if !j.skw then scs
  else if j.skR = 16 then scs.flatMap fun x => [x, x]
  else scs

/-- Flags of results into VSTAT (R117). -/
def State.noteFlags (s : State) (t : Nat) (es : List VE) : State := s.vflags t (veFlags es)

/-- Perform a vector instruction: every source is read before any result is written. TOPK returns a score as its bits were, a NaN too
(DESIGN CHOICE: R81 and R92 do not say whether a NaN is made canonical; log entry 90), but for an input that VCTL.FTZ flushed. -/
def State.vecRun (s : State) (t : Nat) (j : VecJob) : State :=
  let a := s.winRead t j.aA (if j.readsA then elemBytes j.srcBits j.n else 0) uVector
  let bb := a.2.winRead t j.aB (if j.readsB then elemBytes (elemBits j.fi) j.n else j.expB) uVector
  let cc := bb.2.winRead t j.aC j.rdC uVector
  let s := cc.2
  if j.op = 0xE then
    j.store s t ((List.range j.n).map fun i => ⟨phxWord j.seed.toNat j.step j.gen.toNat i, false, 0⟩)
  else if j.op = 0xF then
    let k := j.md + 1
    let rows := (List.range j.n).map fun r => splitElems 32 64 ((a.1.drop (256 * r)).take 256)
    let outs := rows.map fun row =>
      let vs := row.map fun x => fp32F.decVec j.ftz x.1
      let ix := topK k (vs.map (·.1))
      let p := anyPois row
      (ix.map fun i => (⟨i, p, if p then 0 else vs.foldl (fun f v => f ||| v.2) 0⟩ : VE),
        ix.map fun i =>
          let v : VF := nth (Val.zero, 0) vs i
          (⟨if v.2 = 0 then (nth (0, false) row i).1 else (fp32F.encVec true false .dflt .rne v.1).1, p, 0⟩ : VE))
    let s := s.winWrite t j.aD (veBytes 8 (outs.flatMap (·.1)))
    (s.winWrite t j.aC (veBytes 32 (outs.flatMap (·.2)))).noteFlags t (outs.flatMap (·.1))
  else if j.op = 7 then
    let xs := splitElems (elemBits j.fi) j.n a.1
    let es := (List.range (j.n / 32)).map fun r =>
      let row := (xs.drop (32 * r)).take 32
      let p := anyPois row
      let o := j.reduce (row.map (·.1))
      (⟨o.1, p, if p then 0 else o.2⟩ : VE)
    (j.store s t es).noteFlags t es
  else if j.op = 0xC then
    let xs := splitElems (elemBits j.fi) j.n a.1
    let outs := j.cvtAll (ceilDiv j.n 32) 0 xs cc.1 bb.1
    let es := outs.flatMap (·.es)
    let s := (j.store s t es).noteFlags t es
    let s := if isMX j.fo || j.fo == 0xD then s.winWrite t j.aC (j.scalesOut (outs.map (·.sc))) else s
    s.each outs fun s o => s.tileFlush t o.lost
  else
    let w := elemBits j.fi
    let as := splitElems j.srcBits j.n a.1
    let bs := if j.readsB then splitElems w j.n bb.1 else []
    let cs := if j.op = 6 then splitElems 32 j.n cc.1 else if j.op = 2 then splitElems w j.n cc.1 else []
    let z : Nat × Bool := (0, false)
    let es := (List.range j.n).map fun i => j.elem i (nth z as i) (nth z bs i) (nth z cs i)
    (j.store s t es).noteFlags t es

/-! ## Instructions -/

/-- VECTOR_COMPLETE (R80): the vector instruction at the head of the datapath writes its results and flags, and
hands them over to a fused collective or dispatch (R181, R305, R349). -/
def execVectorComplete (t : Nat) (s : State) : Res :=
  match (s.tile t).vq with
  | .vec j :: _ =>
    let s := (s.modTile t Tile.popV).vecRun t j
    .next (match j.fuse with
      | none => s
      | some (0, d) => s.handOver (cdCid d) ((j.circBlock s t d).getD 0) (j.n / 32)
      | some (_, d) => s.fuseDisp t d j.writes)
  | _ => .next s

/-- ADD (R167). -/
def execVecAdd (t : Nat) (b : BitVec 54) (s : State) : Res := .next (vecInstr 0 t b s)

/-- MUL (R167). -/
def execVecMul (t : Nat) (b : BitVec 54) (s : State) : Res := .next (vecInstr 1 t b s)

/-- FMA (R167). -/
def execVecFma (t : Nat) (b : BitVec 54) (s : State) : Res := .next (vecInstr 2 t b s)

/-- MAX (R167). -/
def execVecMax (t : Nat) (b : BitVec 54) (s : State) : Res := .next (vecInstr 3 t b s)

/-- MIN (R167). -/
def execVecMin (t : Nat) (b : BitVec 54) (s : State) : Res := .next (vecInstr 4 t b s)

/-- CMP (R167). -/
def execVecCmp (t : Nat) (b : BitVec 54) (s : State) : Res := .next (vecInstr 5 t b s)

/-- SEL (R167). -/
def execVecSel (t : Nat) (b : BitVec 54) (s : State) : Res := .next (vecInstr 6 t b s)

/-- RED (R167). -/
def execVecRed (t : Nat) (b : BitVec 54) (s : State) : Res := .next (vecInstr 7 t b s)

/-- EXP2 (R167). -/
def execVecExp2 (t : Nat) (b : BitVec 54) (s : State) : Res := .next (vecInstr 8 t b s)

/-- LOG2 (R167). -/
def execVecLog2 (t : Nat) (b : BitVec 54) (s : State) : Res := .next (vecInstr 9 t b s)

/-- RCP (R167). -/
def execVecRcp (t : Nat) (b : BitVec 54) (s : State) : Res := .next (vecInstr 10 t b s)

/-- RSQ (R167). -/
def execVecRsq (t : Nat) (b : BitVec 54) (s : State) : Res := .next (vecInstr 11 t b s)

/-- CVT (R167). -/
def execVecCvt (t : Nat) (b : BitVec 54) (s : State) : Res := .next (vecInstr 12 t b s)

/-- ICVT (R167). -/
def execVecIcvt (t : Nat) (b : BitVec 54) (s : State) : Res := .next (vecInstr 13 t b s)

/-- PHX (R167). -/
def execVecPhx (t : Nat) (b : BitVec 54) (s : State) : Res := .next (vecInstr 14 t b s)

/-- TOPK (R167). -/
def execVecTopk (t : Nat) (b : BitVec 54) (s : State) : Res := .next (vecInstr 15 t b s)

/-- MOV (R167). -/
def execVecMov (t : Nat) (b : BitVec 54) (s : State) : Res := .next (vecInstr 16 t b s)

end Sys2Proof.Machine
end

