-- ==== Sys2Proof/Machine/Mover.lean ====
section
/-! DEFINITION. The stream mover: descriptors, the stream cache and its prefetcher, and transfers of every kind (R61, R134,
R172 to R176, R205 to R207, R268, R328 to R330). -/

namespace Sys2Proof.Machine

/-! ## Descriptor fields (Table 5.13) -/

/-- SRC. -/
def Xfer.src (x : Xfer) : Nat := le x.desc 0 8
/-- DST. -/
def Xfer.dst (x : Xfer) : Nat := le x.desc 8 8
/-- RLEN. -/
def Xfer.rlen (x : Xfer) : Nat := le x.desc 16 4
/-- FMT. -/
def Xfer.fmt (x : Xfer) : Nat := bitsOf (le x.desc 20 1) 0 4
/-- KIND. -/
def Xfer.kind (x : Xfer) : Nat := bitsOf (le x.desc 20 1) 4 3
/-- SKQ. -/
def Xfer.skq (x : Xfer) : Bool := bitOf (le x.desc 20 1) 7
/-- DTK. -/
def Xfer.dtk (x : Xfer) : Nat := bitsOf (le x.desc 21 1) 0 5
/-- DTKEN. -/
def Xfer.dtken (x : Xfer) : Bool := bitOf (le x.desc 21 1) 5
/-- ROWS. -/
def Xfer.rows (x : Xfer) : Nat := le x.desc 24 2
/-- SSTRIDE. -/
def Xfer.sstride (x : Xfer) : Nat := le x.desc 28 4
/-- Source rows: address, length. -/
def Xfer.srcRows (x : Xfer) : List (Nat × Nat) := (List.range x.rows).map fun r => ((x.src + r * x.sstride) % 2 ^ 64, x.rlen)
/-- Panel lanes of kind 1. -/
def Xfer.skL (x : Xfer) : Nat := if x.skq then 16 else 32

/-- Bytes of the destination range; for kind 2 the most the folios can take, for kind 3 unknown until checked. -/
def Xfer.dstMax (x : Xfer) : Nat :=
  match x.kind with
  | 1 => (x.rows + x.skL - 1) * (x.skL * laneBytes x.fmt)
  | 2 => x.rows * x.rlen / 4096 * 4160
  | 3 => 0
  | 4 => x.rows * (x.rlen / 4 * 6)
  | _ => x.rows * x.rlen

/-- Bytes the destination range has whatever the data: the least the folios of kind 2 can take is 64 each (R326, R329). -/
def Xfer.dstMin (x : Xfer) : Nat := if x.kind = 2 then x.rows * x.rlen / 4096 * 64 else x.dstMax

/-- The destination lies in a tile window, of this device or of another (R175). -/
def inTileWindow (a : Nat) : Bool := decide (tileBase 0 ≤ addrDev a) && decide (addrDev a < tileBase 2048)

/-- The descriptor breaks Table 5.14, a reserved field, R175 or R176 (status DESC); kind 2 is judged again once its length is known. -/
def Xfer.descBad (x : Xfer) (s : State) (t : Nat) : Bool :=
  let own := s.ownOff t x.dst
  x.bad || bitsOf (le x.desc 21 1) 6 2 != 0 || le x.desc 22 2 != 0 || le x.desc 26 2 != 0 || decide (5 ≤ x.kind)
    || x.rlen == 0 || decide (2 ^ 24 < x.rlen) || x.rows == 0
    || (x.dtken && !inTileWindow x.dst)
    || (x.kind == 1 && (own.isNone || !isArrayCode x.fmt || x.rlen != x.skL * laneBytes x.fmt))
    || (x.kind == 2 && (x.rows * x.rlen) % 4096 != 0)
    || (x.kind == 3 && (decide (0x8000000000 ≤ addrDev x.dst) || x.rows != 1))
    || (x.kind == 4 && x.rlen % 4 != 0)
    || (x.kind != 0 && (match own with
        | some o => decide (o < 0x200000) && decide (0x1F0000 < o + x.dstMin)
        | none => false))

/-- An address range is inside the context's partition or rank table (status PERM when not). -/
def permOk (s : State) (t : Nat) (ps : List (Nat × Nat)) : Bool := ps.all fun p => s.tileMay t p.1 p.2

/-- A local range is memory that exists, and one of another device touches no register range (R173; status ADDR when not). -/
def memOk (s : State) (ps : List (Nat × Nat)) : Bool :=
  ps.all fun p => if s.isLocal p.1 then s.isMem (addrDev p.1) p.2 else !inRegs (addrDev p.1) (max 1 p.2)

/-! ## The stream cache (R205 to R207) -/

/-- The line that holds a stack address. -/
def lineOf (d : Nat) : Nat := d / 2048 * 2048

/-- Whether a line is cached. -/
def Tile.lineAt (x : Tile) (a : Nat) : Option CLine := x.lines.find? fun l => l.addr == a

/-- Install a line, the least recently used of its set making room; the list runs from least to most recent (R205). -/
def Tile.installLine (x : Tile) (scn : Nat) (l : CLine) : Tile :=
  let sets := scn * 32
  let same := fun (c : CLine) => (c.addr / 2048) % sets == (l.addr / 2048) % sets
  let full := decide (4 ≤ (x.lines.filter same).length)
  let victim := (x.lines.find? same).map (·.addr)
  let kept := x.lines.filter fun c => c.addr != l.addr && !(full && some c.addr == victim)
  { x with lines := kept ++ [l] }

/-- Use of a line makes it the most recent. -/
def Tile.touchLine (x : Tile) (a : Nat) : Tile :=
  { x with lines := (x.lines.filter fun l => l.addr != a) ++ (x.lines.filter fun l => l.addr == a).map fun l => { l with due := false } }

/-- A demand miss tracked by the prefetcher (R207): within ±64 lines of a stream it sets or confirms the stride, otherwise
it replaces the least recently used of 8 streams. -/
def Tile.trackMiss (x : Tile) (a : Nat) : Tile :=
  let ln := a / 2048
  match x.pf.find? fun p => decide (ln ≤ p.last + 64) && decide (p.last ≤ ln + 64) with
  | some p =>
    let d : Int := (ln : Int) - p.last
    { x with pf := (x.pf.filter fun q => q != p) ++ [⟨ln, d, decide (p.stride = d) && decide (d ≠ 0)⟩] }
  | none => { x with pf := (if 8 ≤ x.pf.length then x.pf.drop 1 else x.pf) ++ [⟨ln, 0, false⟩] }

/-- Fetch a line from its stack as one burst; its bytes carry the code of R197, poison as the poison marker (R199, R208). -/
def State.fetchLine (s : State) (t a : Nat) (due : Bool) : CLine × State :=
  let r := (s.countBurst a 2048).stkRead a 2048
  let l : CLine := ⟨a, r.1.map fun b => codeWord b.1 (if b.2 then 0x1E else 0), due⟩
  (l, r.2.modTile t fun x => x.installLine (s.scn t) l)

/-- Fetch a line ahead of its use: a prefetch makes no report of an uncorrectable read (R207). -/
def State.prefetchLine (s : State) (t a : Nat) : State :=
  let u := (s.fetchLine t a false).2
  { u with reports := s.reports ++ (u.reports.drop s.reports.length).filter fun r => r.typ != 0x20 }

/-- A miss: counted and tracked by the prefetcher, and the line fetched on demand (R205, R207, R219). -/
def State.missLine (s : State) (t a : Nat) (due : Bool) : CLine × State :=
  ((s.bump (TSCCNT_MISSES t) 1).modTile t fun x => x.trackMiss a).fetchLine t a due

/-- Classes of the n bytes of a line from byte lo (Table 6.1). -/
def CLine.classes (l : CLine) (lo n : Nat) : List ByteClass := ((l.bytes.drop lo).take n).map classify

/-- The bytes a reader gets from a line. -/
def CLine.read (l : CLine) (lo n : Nat) : List (Nat × Bool) := (l.classes lo n).map ByteClass.value

/-- Count one correctable error of a tile's half, as for scratch (R208, R209). -/
def State.noteCe (s : State) (t : Nat) : State := (s.bump (TECCCNT_CE t) 1).bucket (halfOfTile t)

/-- Read bytes of one line through the cache (R205); a line that is present is a hit, but where it was filled for this very read. A
correctable byte is counted; with an uncorrectable one or a marker among them the line is discarded and fetched again, which counts as one
correctable error, and the new copy serves the read (R208). -/
def State.cacheRead (s : State) (t a lo n : Nat) : List (Nat × Bool) × State :=
  match (s.tile t).lineAt a with
  | some l =>
    let s := if l.due then s else s.bump (TSCCNT_HITS t) 1
    if anyPois (l.read lo n) then
      if l.due then (l.read lo n, s.modTile t fun x => x.touchLine a)
      else
        let r := ((s.noteCe t).modTile t fun x => { x with lines := x.lines.filter fun l => l.addr != a }).fetchLine t a false
        (r.1.read lo n, r.2)
    else
      let ce := (l.classes lo n).filter fun c => match c with
        | .corrected _ => true
        | _ => false
      (l.read lo n, (s.each ce fun s _ => s.noteCe t).modTile t fun x => x.touchLine a)
  | none =>
    let r := s.missLine t a false
    (r.1.read lo n, r.2)

/-- Read n bytes of a stack line by line; k bounds the lines. -/
def State.cacheReads (s : State) (t : Nat) : Nat → Nat → Nat → List (Nat × Bool) × State
  | 0, _, _ => ([], s)
  | k + 1, d, n =>
    if n = 0 then ([], s)
    else
      let m := min n (2048 - d % 2048)
      let a := s.cacheRead t (lineOf d) (d % 2048) m
      let b := a.2.cacheReads t k (d + m) (n - m)
      (a.1 ++ b.1, b.2)

/-- A stream-mover read of device memory: stacks through the cache when the tile has one. -/
def State.moverRead (s : State) (t d n : Nat) : List (Nat × Bool) × State :=
  if d < 0x8000000000 then (if s.scn t = 0 then (s.countBurst d n).stkRead d n else s.cacheReads t (n / 2048 + 2) d n)
  else s.memRead d n uMover

/-- A stream-mover write to a stack invalidates cached lines it overlaps (R206). -/
def Tile.dropLines (x : Tile) (d n : Nat) : Tile :=
  { x with lines := x.lines.filter fun l => decide (l.addr + 2048 ≤ d) || decide (d + n ≤ l.addr) }

/-- STREAM_CACHE_INVALIDATE (R206). -/
def execStreamCacheInvalidate (t : Nat) (s : State) : Res := .next (s.modTile t fun x => { x with lines := [] })

/-- A read of an outstanding transfer wants a line (R205). -/
def State.lineDemand (s : State) (t a : Nat) : Bool :=
  (s.tile t).xfers.any fun f => s.isLocal f.src && f.srcRows.any fun r => decide (addrDev r.1 < a + 2048) && decide (a < addrDev r.1 + r.2)

/-- The prefetcher wants a line: up to D lines ahead on a confirmed stride, and not across the end of the stream's stack (R207). -/
def State.lineAhead (s : State) (t a : Nat) : Bool :=
  let depth := match (s.partOfTile t).bind s.partCfg with
    | some p => p.depth
    | none => 0
  (s.tile t).pf.any fun p => p.conf && p.last * 2048 / 0x1000000000 == a / 0x1000000000 && (List.range depth).any fun k => decide ((a / 2048 : Nat) = (p.last : Int) + p.stride * (k + 1))

/-- A line that is wanted, not present, and inside its stack's current range (R205, R207). -/
def State.lineWanted (s : State) (t a : Nat) : Bool :=
  (s.lineDemand t a || s.lineAhead t a) && ((s.tile t).lineAt a).isNone && s.stackOk (a / 0x1000000000) (a % 0x1000000000 + 2047)

/-- LINE_FILL (R205, R207): a wanted 2 KiB line at device address a is installed, on demand or ahead of it. -/
def execLineFill (t : Nat) (a : Nat) (s : State) : Res :=
  if a % 2048 = 0 ∧ a < 0x8000000000 ∧ s.scn t ≠ 0 ∧ s.lineWanted t a then
    .next (if s.lineDemand t a then (s.missLine t a true).2 else s.prefetchLine t a)
  else .next s

/-! ## Submission (R172) -/

/-- Start remote reads of source pieces while tags last (R272). -/
def State.startReads (s : State) (src : Nat) : List (Nat × Nat) → (List Nat × List (Nat × Nat)) × State
  | [] => (([], []), s)
  | p :: ps =>
    let r := s.farRead src (addrRank p.1) (addrDev p.1) p.2
    match r.1 with
    | none => (([], p :: ps), s)
    | some id =>
      let q := r.2.startReads src ps
      ((id :: q.1.1, q.1.2), q.2)

/-- SM.SUB for a row that submits descriptors of the kinds f accepts: 16 outstanding or a range in flight holds it. -/
def smSub (f : Nat → Bool) (t : Nat) (b : BitVec 54) (s : State) : State :=
  s.issue t 6 0 b (rsvOut [(49, 46), (45, 41)]) [] noFuse fun s =>
    let off := ((s.tile t).areg (fb b 46 4)).toNat
    if !s.opRange t off 32 then .trap 2 0
    else
      let r := s.winRead t off 32 uMover
      let x : Xfer :=
        { desc := r.1.map (·.1), tok := fb b 41 5, bad := anyPois r.1, todo := [], reads := [], sent := false, acks := [], st := 0, rd := [], wr := [] }
      let hull := if x.rows = 0 then 0 else (x.rows - 1) * x.sstride + x.rlen
      let rd := s.ownRng t x.src hull
      let wr := s.ownRng t x.dst x.dstMax
      if decide (16 ≤ (s.tile t).xfers.length) || s.trackerFull t || s.rangeHold t (⟨off, 32⟩ :: rd) wr then .hold
      else if !x.bad && !f x.kind then .hold
      else
        let x := { x with rd := rd, wr := wr }
        let remote := !x.descBad r.2 t && !r.2.isLocal x.src && permOk r.2 t x.srcRows && memOk r.2 x.srcRows
        let ps := if remote then x.srcRows.flatMap fun p => pieces p.1 p.2 else []
        -- started in order of submission: behind one that still waits for read tags nothing is read
        let q := if (s.tile t).xfers.all fun f => f.todo.isEmpty then r.2.startReads (srcOf 0 t) ps else (([], ps), r.2)
        let x := { x with reads := q.1.1, todo := q.1.2 }
        .fall (q.2.modTile t fun y => { y with xfers := y.xfers ++ [x] })

/-- PLAIN_COPY: descriptors of kind 0, and of the reserved kinds, which end with status DESC (R172 to R175). -/
def execPlainCopy (t : Nat) (b : BitVec 54) (s : State) : Res := .next (smSub (fun k => k == 0 || decide (5 ≤ k)) t b s)
/-- SKEWED_WRITE: descriptors of kind 1 (R61, R173). -/
def execSkewedWrite (t : Nat) (b : BitVec 54) (s : State) : Res := .next (smSub (fun k => k == 1) t b s)
/-- FOLIO_COMPRESSION: descriptors of kind 2 (R329). -/
def execFolioCompression (t : Nat) (b : BitVec 54) (s : State) : Res := .next (smSub (fun k => k == 2) t b s)
/-- FOLIO_EXPANSION: descriptors of kind 3 (R330). -/
def execFolioExpansion (t : Nat) (b : BitVec 54) (s : State) : Res := .next (smSub (fun k => k == 3) t b s)
/-- FP32_TO_E48: descriptors of kind 4 (R134). -/
def execFp32ToE48 (t : Nat) (b : BitVec 54) (s : State) : Res := .next (smSub (fun k => k == 4) t b s)

/-! ## What a transfer writes -/

/-- Cut a list into runs of n bytes; k bounds the runs. -/
def runs (n : Nat) : Nat → List (Nat × Bool) → List (List (Nat × Bool))
  | 0, _ => []
  | k + 1, bs => if bs.isEmpty then [] else bs.take n :: runs n k (bs.drop n)

/-- FP32 words to E48, exact, poison word by word (R134, R203). -/
def e48Row (bs : List (Nat × Bool)) : List (Nat × Bool) :=
  (splitElems 32 (bs.length / 4) bs).flatMap fun w => asBytes 6 (fp32ToE48 w.1) w.2

/-- One compressed block: a poisoned block gives a folio of free length with every byte poisoned (R329). -/
def folioOf (fmt k i : Nat) (blk : List (Nat × Bool)) : List (Nat × Bool) :=
  if anyPois blk then List.replicate ((1 + (Config.freeByte k i).toNat % 65) * 64) (0, true)
  else (folioEncode fmt (blk.map (·.1))).map fun b => (b, false)

/-- Result of expanding a run of folios (R328, R330): plain bytes, whether a folio was poisoned, whether a check failed. -/
structure Expansion where
  plain : List (Nat × Bool)
  pois : Bool
  failed : Bool
  deriving DecidableEq, Repr

/-- Expand a run of folios. Poison comes before every check (R328): a folio with a poisoned byte is written poisoned whole, and the run goes on
behind it by its LEN64 where that byte is sound; where it is poisoned too, or no length, nothing says where the next folio begins and the run
ends there (DESIGN CHOICE, log entry 96). k bounds the folios. -/
def expandRun : Nat → List (Nat × Bool) → Expansion
  | 0, _ => ⟨[], false, false⟩
  | k + 1, bs =>
    if bs.isEmpty then ⟨[], false, false⟩
    else
      let vs := bs.map (·.1)
      let len := folioHdrLen vs
      if anyPois (bs.take (max 16 len)) then
        if anyPois ((bs.drop 2).take 1) ∨ len = 0 ∨ 4160 < len then ⟨List.replicate 4096 (0, true), true, false⟩
        else
          let r := expandRun k (bs.drop len)
          ⟨List.replicate 4096 (0, true) ++ r.plain, true, r.failed⟩
      else if !folioHeadOk vs then ⟨[], false, true⟩
      else
        match folioDecode vs with
        | none => ⟨[], false, true⟩
        | some p =>
          let r := expandRun k (bs.drop len)
          ⟨(p.map fun b => (b, false)) ++ r.plain, r.pois, r.failed⟩

/-- What a transfer writes contiguously from DST, given its source rows; kind 1 is written by rows instead. -/
def Xfer.output (x : Xfer) (k : Nat) (rows : List (List (Nat × Bool))) : List (Nat × Bool) × Bool × Bool :=
  let all := rows.flatten
  match x.kind with
  | 2 =>
    let bl := runs 4096 (all.length / 4096 + 1) all
    ((bl.zipIdx).flatMap fun b => folioOf x.fmt k b.2 b.1, anyPois all, false)
  | 3 => let e := expandRun (all.length / 64 + 1) all; (e.plain, e.pois, e.failed)
  | 4 => (rows.flatMap e48Row, anyPois all, false)
  | _ => (all, anyPois all, false)

/-- Folio counters of a kind 2 transfer (Tables 10.7 and 10.8). -/
def State.countFolios (s : State) (t : Nat) (x : Xfer) (rows : List (List (Nat × Bool))) (out : List (Nat × Bool)) : State :=
  if x.kind ≠ 2 then s
  else
    let bl := runs 4096 (rows.flatten.length / 4096 + 1) rows.flatten
    let raw := (bl.filter fun b => !anyPois b && folioIsRaw (folioEncode x.fmt (b.map (·.1)))).length
    ((s.bump (TFOLCNT_BLOCKS t) bl.length).bump (TFOLCNT_OUT64 t) (out.length / 64)).bump (TFOLERR_RAW t) raw

/-- Where the lanes of skewed rows go in the own window: only lane positions inside the panel (R61, R63). -/
def Xfer.skewCells (x : Xfer) (off : Nat) (rows : List (List (Nat × Bool))) : List (Nat × List (Nat × Bool)) :=
  let L := x.skL
  let e := laneBytes x.fmt
  rows.zipIdx.flatMap fun row => (List.range L).map fun j => (off + (row.2 + j) * (L * e) + j * e, (row.1.drop (j * e)).take e)

/-- Write a subset of a range where it is memory: what a transfer that fails may leave (Table 5.15, any subset written);
whole 64-byte granules in a stack, single bytes elsewhere. -/
def State.subsetWrite (s : State) (d : Nat) (bs : List (Nat × Bool)) : State :=
  let k := s.fresh
  let s := s.freshen
  if d < 0x8000000000 then
    (runs 64 (bs.length / 64 + 1) bs).zipIdx.foldl (fun s g =>
      if Config.subset k g.2 && s.isMem (d + 64 * g.2) 64 && g.1.length == 64 && d % 64 == 0 then s.memWrite (d + 64 * g.2) g.1 else s) s
  else
    (bs.zipIdx).foldl (fun s b => if Config.subset k b.2 && s.isMem (d + b.2) 1 then s.memWrite (d + b.2) [b.1] else s) s

/-! ## Completion (R175) -/

/-- End a transfer: token to the destination, status, log entry, local token (R175, Table 6.9). -/
def State.endXfer (s : State) (t i : Nat) (x : Xfer) (st : Nat) : State :=
  let s := (s.dropReads x.reads).modTile t fun y => { y with xfers := y.xfers.eraseIdx i }
  let s := if st = 0 ∧ x.dtken ∧ s.isLocal x.dst then s.tokAdd ((addrDev x.dst - tileBase 0) / 0x400000) x.dtk 1 else s
  let s := if st = 0 then s
    else
      let s := (s.orFld (TSMERR_ERR t) (2 ^ x.tok)).setFld (TSMSTAT_CODE t) st
      (s.setFld (TSMSTAT_TOKEN t) x.tok).tileReport t 0x06 1 x.dst (st + 16 * x.tok)
  s.tokAdd t x.tok 1

/-- The source rows out of remote answers. -/
def State.remoteRows (s : State) (x : Xfer) : List (List (Nat × Bool)) :=
  runs x.rlen x.rows ((x.reads.filterMap s.readOf).flatMap (·.bytes))

/-- Read a local source row by row (R173). -/
def State.localRows (s : State) (t : Nat) : List (Nat × Nat) → List (List (Nat × Bool)) × State
  | [] => ([], s)
  | p :: ps =>
    let a := s.moverRead t (addrDev p.1) p.2
    let b := a.2.localRows t ps
    (a.1 :: b.1, b.2)

/-- A local range lies in a stack or a tile that this device does not have, because no bridge link works (R25). -/
def State.absent (s : State) (a : Nat) : Bool :=
  let d := addrDev a
  s.half1Gone && s.isLocal a
    && ((decide (d < 0x8000000000) && decide (4 ≤ d / 0x1000000000)) || (inTileWindow a && decide (tileBase 1024 ≤ d)))

/-- The refusals of Table 5.15 that hold before any byte moves. A descriptor refused with DESC names no ranges to judge, and what R25 takes
away is refused with ADDR. -/
def Xfer.causes (x : Xfer) (s : State) (t : Nat) : List Nat :=
  if x.descBad s t then [6]
  else if (x.srcRows.any fun r => s.absent r.1) || s.absent x.dst then [1]
  else
    let ps := x.srcRows ++ [(x.dst, x.dstMin)]
    codesOf
      [(!permOk s t ps, 7), (!memOk s ps || (s.isLocal x.dst && s.refusesWrite (addrDev x.dst)), 1),
        (addrDev x.dst < 0x8000000000 && (x.dst % 64 != 0 || x.dstMin % 64 != 0), 2)]

/-- Faults on the windows of other tiles of this device that the transfer meets, each of which is logged beside its status (R161). -/
def Xfer.windowFaults (x : Xfer) (s : State) (t : Nat) : List Nat :=
  ((x.srcRows.filter fun r => !s.isMem (addrDev r.1) r.2).map (·.1)
    ++ if !s.isMem (addrDev x.dst) x.dstMin || s.refusesWrite (addrDev x.dst) then [x.dst] else []).filter fun a =>
      s.isLocal a && inTileWindow a && (s.ownOff t a).isNone

/-- The status of a transfer that is refused before any byte moves, a free one of its causes; 0 for none. -/
def Xfer.early (x : Xfer) (s : State) (t : Nat) : Nat := s.oneOf (x.causes s t)

/-- Rows of the destination, for its bursts (R225): those of the source where they stay apart, else the whole. -/
def Xfer.outRows (x : Xfer) (n : Nat) : List Nat :=
  if x.kind = 2 ∨ x.kind = 3 then [n] else List.replicate x.rows (n / max 1 x.rows)

/-- Count the bursts of rows written one after the other from d (R225). -/
def State.countRows (s : State) (d : Nat) : List Nat → State
  | [] => s
  | n :: ns => (s.countBurst d n).countRows (d + n) ns

/-- Perform a transfer whose source is at hand: written here, or sent to the other device (R175, R267). -/
def State.performXfer (s : State) (t i : Nat) (x : Xfer) (rows : List (List (Nat × Bool))) : State :=
  let k := s.fresh
  let s := s.freshen
  let out := x.output k rows
  let bytes := out.1
  let st := if out.2.2 then 5 else if out.2.1 then 3 else 0
  let d := addrDev x.dst
  let s := (s.countFolios t x rows bytes).bump (TFOLERR_CHKFAIL t) (if out.2.2 then 1 else 0)
  -- kinds 2 and 3 know their length only now
  let late := x.kind == 2 || x.kind == 3
  let own := match s.ownOff t x.dst with
    | some o => decide (o < 0x200000) && decide (0x1F0000 < o + bytes.length)
    | none => false
  if late && own then s.endXfer t i x 6
  else if late && !s.tileMay t x.dst bytes.length then
    s.endXfer t i x (if s.isLocal x.dst && !s.isMem d bytes.length && Config.coin k then 1 else 7)
  else if late && (if s.isLocal x.dst then !s.isMem d bytes.length else inRegs d bytes.length) then
    ((if s.isLocal x.dst then s.subsetWrite d bytes else s).endXfer t i x 1)
  else if s.isLocal x.dst then
    -- granules of a failed channel are discarded (R230)
    let st := if st = 0 ∧ d < 0x8000000000 ∧ s.hitsFailed d bytes.length then 3 else st
    let s := match x.kind with
      | 1 => s.scatter t (x.skewCells (d - tileBase t) rows)
      | _ => s.memWrite d bytes
    let s := if d < 0x8000000000 then (s.modTile t fun y => y.dropLines d bytes.length).countRows d (x.outRows bytes.length) else s
    s.endXfer t i x st
  else
    let r := s.farWrites (srcOf 0 t) t 1 (addrRank x.dst) x.dtk (x.dtken && st == 0) (pieces d bytes.length) bytes
    let x := { x with sent := true, acks := r.1.1, st := if r.1.2 then st else 8 }
    r.2.modTile t fun y => { y with xfers := setNth y.xfers i x }

/-- Transfer k waits its turn: an earlier one still waits for read tags (R172: started in order), or both compress folios, which are
compressed one transfer at a time in order of submission (R333). -/
def Tile.xferWaits (y : Tile) (k : Nat) (x : Xfer) : Bool :=
  (y.xfers.take k).any fun f => !f.todo.isEmpty || (x.kind == 2 && f.kind == 2 && !f.sent)

/-- TRANSFER_COMPLETE (R175): transfer k of the tile completes. One that still waits for its turn, read tags, answers or
acknowledgements moves on instead as far as it can, or stays as it is. -/
def execTransferComplete (t : Nat) (k : Nat) (s : State) : Res :=
  let y := s.tile t
  match y.xfers[k]? with
  | none => .next s
  | some x =>
    if y.xferWaits k x then .next s
    else if x.sent then .next (if x.acks.isEmpty then s.endXfer t k x x.st else s)
    else
      let st := x.early s t
      if st = 1 then
        -- any subset written: what the source would give where it can be read
        let rows := if x.causes s t = [1] ∧ s.isLocal x.src ∧ memOk s x.srcRows ∧ x.kind = 0 then (s.localRows t x.srcRows).1 else []
        let s := s.freshen
        let fs := x.windowFaults s t
        let s := if s.isLocal x.dst && !s.refusesWrite (addrDev x.dst) then s.subsetWrite (addrDev x.dst) rows.flatten else s
        .next ((s.each fs fun s a => s.extFault (addrDev a) 0 (srcOf 0 t)).endXfer t k x 1)
      else if st ≠ 0 then .next (s.freshen.endXfer t k x st)
      else if s.isLocal x.src then
        let r := s.localRows t x.srcRows
        .next (r.2.performXfer t k x r.1)
      else
        match x.todo with
        | _ :: _ =>
          let q := s.startReads (srcOf 0 t) x.todo
          let x := { x with reads := x.reads ++ q.1.1, todo := q.1.2 }
          .next (q.2.modTile t fun y => { y with xfers := setNth y.xfers k x })
        | [] =>
          let rs := x.reads.filterMap s.readOf
          if rs.any fun r => r.st == 0 then .next s
          else
            match rs.find? fun r => r.st != 1 || r.cst != 0 with
            | some r =>
              let got := (rs.takeWhile fun r => r.st == 1 && r.cst == 0).flatMap (·.bytes)
              let s := if x.kind = 0 ∧ s.isLocal x.dst then s.subsetWrite (addrDev x.dst) got else s
              .next (s.endXfer t k x r.status)
            | none => .next (s.performXfer t k x (s.remoteRows x))

end Sys2Proof.Machine
end

