-- ==== Sys2Proof/Machine/Stack.lean ====
section
/-! DEFINITION. Stacks: initialisation and map-out, channel failure, and the test state (R228 to R231). -/

namespace Sys2Proof.Machine

/-- An initialisation of stack st begins: the stack refuses every access until it ends (R228). -/
def State.stackInit (s : State) (st : Nat) : State :=
  (s.setFld (SSTAT_INITD st) 0).modStack st fun x => { x with initing := true, ue := [], lost := [], semq := [], mbrun := none }

/-- Entries of the log for the channels mapped out, DETAIL marking every cause (R229). -/
def State.mapOutReports (s : State) (st tst img fus : Nat) : State :=
  s.each (List.range 32) fun s c =>
    if bitOf (tst ||| img ||| fus) c then
      s.report (halfOfStack st) 0x22 1 (srcOf 1 st) 0
        (c + (if bitOf tst c then 256 else 0) + (if bitOf img c then 512 else 0) + (if bitOf fus c then 1024 else 0))
    else s

/-- STACK_INIT_DONE (R228, R229): initialisation of stack st ends; failed marks the channels that failed the test. Every byte
holds zero with a valid code, stage words read 0 (R394), and the channel map holds the channels that no cause maps out. In
arbitration hold stacks are not initialised (R45). -/
def execStackInitDone (st : Nat) (failed : BitVec 32) (s : State) : Res :=
  .next (if st < 8 ∧ (s.stackU st).initing ∧ s.boot ≠ .hold then
    let img := SMap.get (fun _ => 0) s.img.mapouts st
    let fus := (s.stackU st).mapFuse
    let s := s.mapOutReports st failed.toNat img fus
    let gone := (failed.toNat ||| img ||| fus) % 2 ^ 32
    let live := 32 - popcount 32 gone
    let lo := stackBase st
    let out := fun (d : Nat) => decide (d < lo) || decide (stackBase (st + 1) ≤ d)
    let s := { s with
      stk := SMap.keep out s.stk
      stkMark := SMap.keep (fun k => out (k * 32)) s.stkMark
      regs := SMap.keep (fun a => decide (a < aSSTAGE st 0) || decide (aSSTAGE st 4096 ≤ a)) s.regs }
    let s := (s.setFld (SCHMAP_LIVEMAP st) (2 ^ 32 - 1 - gone)).setFld (SFAIL_FAILMAP st) 0
    let s := ((s.setFld (SSTAT_LIVE st) live).setFld (SSTAT_TOPGB st) (2 * live)).setFld (SSTAT_INITD st) 1
    let s := s.modStack st fun x => { x with initing := false }
    if live = 0 then s.report (halfOfStack st) 0x23 3 (srcOf 1 st) 0 st else s
  else s)

/-- CHANNEL_TRAINING_LOST (R230): the interface of a live channel loses training; it must retrain within 1 ms. -/
def execChannelTrainingLost (st ch : Nat) (s : State) : Res :=
  .next (if st < 8 ∧ s.flag (SSTAT_INITD st) ∧ bitOf (s.fld (SCHMAP_LIVEMAP st)) ch ∧ ch < 32 then
    s.modStack st fun x => { x with lost := if x.lost.contains ch then x.lost else x.lost ++ [ch] }
  else s)

/-- CHANNEL_RETRAIN_TIMEOUT (R230): 1 ms has passed without the channel retraining: it is marked failed. -/
def execChannelRetrainTimeout (st ch : Nat) (s : State) : Res :=
  .next (if st < 8 ∧ (s.stackU st).lost.contains ch then
    (s.modStack st fun x => { x with lost := x.lost.erase ch }).failChannel st ch 0
  else s)

/-! ## Test state (R231) -/

/-- A device address lies in stack st. -/
def inStack (st d : Nat) : Bool := decide (stackBase st ≤ d) && decide (d < stackBase (st + 1))

/-- A range of addresses takes in bytes of stack st of this device. -/
def State.touches (s : State) (st : Nat) (r : Nat × Nat) : Bool :=
  s.isLocal r.1 && decide (addrDev r.1 < stackBase (st + 1)) && decide (stackBase st < addrDev r.1 + r.2)

/-- Ranges a collective in flight reads or writes on this device: those of its descriptor and, for a PERMUTE, the staging region and what its
table moves. -/
def State.collSpans (s : State) (x : Coll) : List (Nat × Nat) :=
  let d := x.desc
  let mv := if cdOpc d = 4 ∧ s.isMem (addrDev (cdSrc d)) (24 * cdCount d) then (s.moves d).1 else []
  cdRanges d (gNdev x.grp) (gIndex x.grp) ++ (if cdOpc d = 4 then [(cdDst d, (mv.map fun m => m.2.2.1).sum)] else [])
    ++ mv.flatMap fun m => [(m.1, m.2.2.1), (m.2.1, m.2.2.1)]

/-- An access to stack st by a tile's loads or transfers, or by a collective, is outstanding. -/
def State.stackBusy (s : State) (st : Nat) : Bool :=
  (s.tiles.any fun x => (x.2.loads.any fun l => s.touches st (l.addr, l.width))
    || x.2.xfers.any fun f => (f.srcRows ++ [(f.dst, f.dstMax)]).any (s.touches st))
    || s.colls.any fun x => (s.collSpans x).any (s.touches st)

/-- The engines of stack st are idle. -/
def State.enginesIdle (s : State) (st : Nat) : Bool := (List.range 8).all fun e => (s.engine st e).stage == .idle

/-- A write of 1 to SCTL.TEST: it waits for the stack to be at rest. -/
def State.testRequest (s : State) (st : Nat) : State :=
  if s.flag (SSTAT_TEST st) then s else s.modStack st fun x => { x with testReq := true }

/-- A write of 0 to SCTL.TEST: leaves test state with an initialisation of that stack alone; a request that still waits is
withdrawn. -/
def State.testExit (s : State) (st : Nat) : State :=
  if s.flag (SSTAT_TEST st) then (((s.setFld (SCTL_TEST st) 0).setFld (SSTAT_TEST st) 0).stackInit st).syncDetm
  else s.modStack st fun x => { x with testReq := false }

/-- SCTL_TEST_REQUEST (R231). -/
def execSctlTestRequest (st : Nat) (s : State) : Res := .next (if st < 8 then s.testRequest st else s)

/-- TEST_STATE_ENTRY (R231): a waiting write of 1 takes effect once no access and no descriptor of the stack is outstanding
and no initialisation runs. -/
def execTestStateEntry (st : Nat) (s : State) : Res :=
  .next (if st < 8 ∧ (s.stackU st).testReq ∧ s.flag (SSTAT_INITD st) ∧ s.enginesIdle st ∧ !s.stackBusy st then
    let s := (s.setFld (SCTL_TEST st) 1).setFld (SSTAT_TEST st) 1
    let s := s.modStack st fun x => { x with testReq := false }
    (s.report (halfOfStack st) 0x27 0 (srcOf 1 st) 0 st).syncDetm
  else s)

/-- SCTL_TEST_EXIT (R231). -/
def execSctlTestExit (st : Nat) (s : State) : Res := .next (if st < 8 then s.testExit st else s)

end Sys2Proof.Machine
end

