-- ==== Sys2Proof/Machine/Bindery.lean ====
section
/-! DEFINITION. Bindery engines: rings, descriptors, static checks, semaphores, the operations inside a stack, and completion
(R235 to R242, R544). -/

namespace Sys2Proof.Machine

/-! ## Descriptor fields (Table 7.3) -/

/-- OPC. -/
def bdOpc (d : List Nat) : Nat := le d 0 1
/-- PROG. -/
def bdProg (d : List Nat) : Nat := bitsOf (le d 2 1) 0 6
/-- FMT. -/
def bdFmt (d : List Nat) : Nat := bitsOf (le d 3 1) 0 4
/-- ID. -/
def bdId (d : List Nat) : Nat := le d 4 4
/-- A0. -/
def bdA0 (d : List Nat) : Nat := le d 8 8
/-- A1. -/
def bdA1 (d : List Nat) : Nat := le d 16 8
/-- A2. -/
def bdA2 (d : List Nat) : Nat := le d 24 8
/-- LEN. -/
def bdLen (d : List Nat) : Nat := le d 32 8
/-- CTGT. -/
def bdCtgt (d : List Nat) : Nat := le d 40 8
/-- CVAL. -/
def bdCval (d : List Nat) : Nat := le d 48 4
/-- SEMW. -/
def bdSemw (d : List Nat) : Nat := bitsOf (le d 52 1) 0 6
/-- SEMP. -/
def bdSemp (d : List Nat) : Nat := bitsOf (le d 53 1) 0 6
/-- WCNT. -/
def bdWcnt (d : List Nat) : Nat := le d 54 2
/-- SPOST. -/
def bdSpost (d : List Nat) : Nat := le d 56 2
/-- DEP. -/
def bdDep (d : List Nat) : Bool := bitOf (le d 1 1) 3

/-- Status codes of Table 7.6. -/
def bsAddr : Nat := 1
/-- Table 7.6. -/
def bsAlign : Nat := 2
/-- Table 7.6. -/
def bsPoison : Nat := 3
/-- Table 7.6. -/
def bsDesc : Nat := 4
/-- Table 7.6. -/
def bsProg : Nat := 5
/-- Table 7.6. -/
def bsTimeout : Nat := 6
/-- Table 7.6. -/
def bsAbort : Nat := 7
/-- Table 7.6. -/
def bsMedia : Nat := 8

/-! ## Program slots (R373, R401, R443) -/

/-- The record of a program slot; a slot never loaded is empty. -/
def State.slotRec (s : State) (st slot : Nat) : List Nat := SMap.get (fun _ => []) s.img.slots (st * 64 + slot)

/-- KIND of a slot; a reserved kind reads as empty. -/
def State.slotKind (s : State) (st slot : Nat) : Nat :=
  let k := le (s.slotRec st slot) 0 1
  if k = 1 ∨ k = 2 ∨ k = 3 ∨ k = 0x10 ∨ k = 0x11 ∨ k = 0x20 then k else 0

/-! ## Engines -/

/-- Show an engine's stage in BESTAT. -/
def State.engShow (s : State) (st e : Nat) : State :=
  let x := s.engine st e
  let s := s.setFld (BESTAT_BUSY st e) (if x.stage == .idle then 0 else 1)
  s.setFld (BESTAT_WAITSEM st e) (if x.stage == .waitSem then 1 else 0)

/-- A descriptor ends with a status: step 1 of R240. -/
def State.engEnd (s : State) (st e status detail : Nat) : State :=
  let s := s.modStack st fun x => { x with semq := x.semq.filter fun k => k != e }
  (s.modEngine st e fun x => { x with stage := .ended status detail, tend := s.now }).engShow st e

/-- Who an engine is assigned to may use its queue registers (R236): contexts of its partition, or PF 0 and firmware contexts
when it is a firmware engine. -/
def State.engineMay (s : State) (c st e : Nat) : Bool :=
  match SMap.get (fun _ => 255) s.img.engines (st * 8 + e) with
  | 255 => false
  | 0xFE => c == 0 || s.isFw c
  | p => match s.ctxCfg c with
    | some k => k.part == some p
    | none => false

/-- A write of PI by context c (R236): discarded when the ring would hold more than 256. -/
def State.piWrite (s : State) (c st e p : Nat) : State :=
  let ci := s.fld (BQPTR_CI st e)
  if 256 < (p % 512 + 512 - ci) % 512 then
    (s.setFld (BESTAT_QERR st e) 1).report (halfOfStack st) 0x25 1 (srcOf 2 (st * 8 + e)) 0 e
  else (s.setFld (BQPTR_PI st e) p).modEngine st e fun x => { x with whose := x.whose ++ [(p % 512, c)] }

/-- PI_WRITE (R236): context c writes BQPTR.PI of engine e; a writer outside the engine's partition meets the address fault. -/
def execPiWrite (c st e p : Nat) (s : State) : Res :=
  .next (if 8 ≤ st ∨ 8 ≤ e then s
  else if s.engineMay c st e then s.piWrite c st e p
  else s.extFault (aBQPTR st e) 5 (srcOf 5 c))

/-! ## Static checks (R238, R544) -/

/-- A range of the stack lies below its top. -/
def State.inTop (s : State) (st off len : Nat) : Bool := len == 0 || decide (off + len ≤ s.fld (SSTAT_LIVE st) * 0x80000000)

/-- DESC of the descriptor's own fields. -/
def bdDescBad (d : List Nat) : Bool :=
  let o := bdOpc d
  decide (7 ≤ o) || bitsOf (le d 1 1) 4 4 != 0 || bitsOf (le d 2 1) 6 2 != 0 || (o != 1 && bdProg d != 0)
    || bitsOf (le d 3 1) 4 4 != 0 || bitsOf (le d 52 1) 6 2 != 0 || bitsOf (le d 53 1) 6 2 != 0 || le d 58 6 != 0

/-- ALIGN of the fields an operation uses (R238). -/
def bdAlignBad (d : List Nat) : Bool :=
  let ms := match bdOpc d with
    | 1 => [bdA2 d]
    | 2 => [bdA0 d, bdA1 d, bdLen d]
    | 3 => [bdA0 d, bdA1 d, bdLen d]
    | 4 => [bdA0 d, bdA2 d, bdLen d]
    | 5 => [bdA0 d, bdA1 d, bdA2 d, bdLen d]
    | _ => []
  ms.any fun x => x % 64 != 0

/-- Bytes of a RUN's argument block. -/
def argSize : Nat := 128

/-- Destination tiles of a PUBLISH layout block, and whether it names 32-lane blocks (R387): tile of each block. -/
def pubTiles (L : List Nat) (blocks : Nat) : List Nat :=
  let bpt := max 1 (le L 20 4)
  (List.range (ceilDiv blocks bpt)).map fun i => le L 16 2 + i * le L 18 2

/-- Kp of the published blocks: 64 for INT4 and MXFP4 in the 64 × 32 form, 32 otherwise (Table 2.4). -/
def pubKp (fmt : Nat) (L : List Nat) : Nat :=
  if fmt = 9 then 64 else if fmt = 0xB ∧ !bitOf (le L 1 1) 0 then 64 else 32

/-- Blocks of a publication. -/
def pubBlocks (fmt : Nat) (L : List Nat) : Nat := le L 4 4 / pubKp fmt L * (le L 8 4 / 32)

/-- An engine may write tile t: it is mapped, and in the engine's partition; firmware engines may write every tile. -/
def State.engTile (s : State) (st e t : Nat) : Bool :=
  decide (t < 2048) && !(s.half1Gone && decide (1024 ≤ t)) &&
    match SMap.get (fun _ => 255) s.img.engines (st * 8 + e) with
    | 255 => false
    | 0xFE => true
    | p => s.partOfTile t == some p

/-- A PUBLISH target is this device and every destination tile can be written by the engine (Table 7.6, R387). -/
def State.pubTargetOk (s : State) (st e : Nat) (d L : List Nat) : Bool :=
  s.isLocal (bdA1 d) && (pubTiles L (pubBlocks (bdFmt d) L)).all fun t => s.engTile st e t

/-- ADDR: ranges against the stack's top, a PUBLISH target against the partition. -/
def State.bdAddrBad (s : State) (st e : Nat) (d : List Nat) : Bool :=
  match bdOpc d with
  | 1 => !s.inTop st (bdA2 d) argSize
  | 2 => !s.inTop st (bdA0 d) (bdLen d) || !s.inTop st (bdA1 d) (bdLen d)
  | 3 => !s.inTop st (bdA0 d) 64 || !s.inTop st (bdA1 d) (bdLen d)
  | 4 =>
    !s.inTop st (bdA0 d) (bdLen d) || !s.inTop st (bdA2 d) 64 || !s.isLocal (bdA1 d) ||
      let L := (s.stkRead (stackBase st + bdA2 d) 64).1
      !anyPois L && !s.pubTargetOk st e d (L.map (·.1))
  | 5 => !s.inTop st (bdA0 d) (bdLen d) || !s.inTop st (bdA1 d) (192 + (if bdFmt d = 0xC then bdLen d / 2 else bdLen d)) || !s.inTop st (bdA2 d) 192
  | _ => false

/-- The first static check that fails, in the order of R544: status and DETAIL. -/
def State.bdStatic (s : State) (st e : Nat) (d : List Nat) : Option (Nat × Nat) :=
  if bdDescBad d then some (bsDesc, 0)
  else if bdAlignBad d then some (bsAlign, 0)
  else if s.bdAddrBad st e d then some (bsAddr, 0)
  else if bdOpc d = 1 ∧ s.slotKind st (bdProg d) = 0 then some (bsProg, 7)
  else none

/-- An engine can fetch: idle, its stack usable, no halt in force, and the ring not empty (R228, R231, R237, R530). -/
def State.canFetch (s : State) (st e : Nat) : Bool :=
  (s.engine st e).stage == .idle && s.flag (SSTAT_INITD st) && !s.flag (SSTAT_TEST st) && !s.frozen
    && !(s.half1Gone && decide (4 ≤ st)) && s.fld (BQPTR_CI st e) != s.fld (BQPTR_PI st e)

/-- Fetch the next descriptor, advance CI, and judge it: covered by an abort, poisoned, statically wrong, waiting, or running. A
ring outside the stack cannot be read: the descriptor ends with ADDR and none of its fields is used. -/
def State.fetchDesc (s : State) (st e : Nat) : State :=
  let ci := s.fld (BQPTR_CI st e)
  let off := s.fld (BQBASE_BASE st e) * 4096 + ci % 256 * 64
  let ok := s.inTop st off 64
  let r := if ok then s.stkRead (stackBase st + off) 64 else ([], s)
  let bad := !ok || anyPois r.1
  let d := if bad then List.replicate 64 0 else r.1.map (·.1)
  let x := s.engine st e
  let c := match x.whose with
    | w :: _ => w.2
    | [] => 0
  let ci' := (ci + 1) % 512
  let whose := match x.whose with
    | w :: ws => if w.1 = ci' then ws else w :: ws
    | [] => []
  let s := r.2.setFld (BQPTR_CI st e) ci'
  let aborted := x.abortTo.isSome
  let s := s.modEngine st e fun x =>
    { x with
      desc := some ⟨d, bad, ci⟩
      ctx := c
      whose := whose
      aux := []
      chunk := 0
      pois := false
      media := false
      abortTo := if x.abortTo = some ci' then none else x.abortTo }
  if aborted then s.engEnd st e bsAbort 0
  else if bad then s.engEnd st e (if ok then bsDesc else bsAddr) 0
  else
    match s.bdStatic st e d with
    | some f => s.engEnd st e f.1 f.2
    | none =>
      if bdDep d then
        let s := s.modStack st fun x => { x with semq := x.semq ++ [e] }
        (s.modEngine st e fun x => { x with stage := .waitSem }).engShow st e
      else (s.modEngine st e fun x => { x with stage := .running }).engShow st e

/-- DESCRIPTOR_FETCH (R237, R238, R544). -/
def execDescriptorFetch (st e : Nat) (s : State) : Res :=
  .next (if st < 8 ∧ e < 8 ∧ s.canFetch st e then s.fetchDesc st e else s)

/-! ## Semaphores (R239, R247) -/

/-- The semaphore an engine's descriptor waits on. -/
def State.engSem (s : State) (st e : Nat) : Nat := match (s.engine st e).desc with
  | some d => bdSemw d.bytes
  | none => 0

/-- No engine waits on the same semaphore for longer. -/
def State.firstWaiter (s : State) (st e : Nat) : Bool :=
  ((s.stackU st).semq.find? fun k => s.engSem st k == s.engSem st e) == some e

/-- SEMAPHORE_ACQUIRE (R239): the first waiter of its semaphore takes WCNT once the count covers it, and starts. -/
def execSemaphoreAcquire (st e : Nat) (s : State) : Res :=
  let x := s.engine st e
  match x.stage, x.desc with
  | .waitSem, some d =>
    let n := bdSemw d.bytes
    let c := s.fld (BSEM_COUNT st n)
    if s.firstWaiter st e ∧ bdWcnt d.bytes ≤ c then
      let s := s.setFld (BSEM_COUNT st n) (c - bdWcnt d.bytes)
      let s := s.modStack st fun x => { x with semq := x.semq.filter fun k => k != e }
      .next ((s.modEngine st e fun x => { x with stage := .running }).engShow st e)
    else .next s
  | _, _ => .next s

/-- SEMAPHORE_TIMEOUT (R239): no count is taken. -/
def execSemaphoreTimeout (st e : Nat) (s : State) : Res :=
  .next (if (s.engine st e).stage = .waitSem then s.engEnd st e bsTimeout 0 else s)

/-- Add to a semaphore: saturates, and shows it in every engine of the stack. -/
def State.semAdd (s : State) (st n v : Nat) : State :=
  let c := s.fld (BSEM_COUNT st n) + v % 65536
  if 65535 < c then (s.setFld (BSEM_COUNT st n) 65535).each (List.range 8) fun s e => s.setFld (BESTAT_SEMOVF st e) 1
  else s.setFld (BSEM_COUNT st n) c

/-- BSEM_ADD (R239, R247). -/
def execBsemAdd (st n v : Nat) (s : State) : Res := .next (if st < 8 ∧ n < 64 then s.semAdd st n v else s)

/-! ## Operations inside the stack (Table 7.4) -/

/-- The descriptor an engine runs and has not begun to execute, when its operation is opc. -/
def State.engRun (s : State) (st e opc : Nat) : Option (List Nat) :=
  let x := s.engine st e
  match x.desc with
  | some d => if x.stage = .running ∧ bdOpc d.bytes = opc ∧ x.aux = [] ∧ st < 8 ∧ e < 8 then some d.bytes else none
  | none => none

/-- The status of a descriptor that ran to its end: MEDIA before POISON (R544). -/
def runStatus (media pois : Bool) : Nat := if media then bsMedia else if pois then bsPoison else 0

/-- BINDERY_NOP. -/
def execBinderyNop (st e : Nat) (s : State) : Res := match s.engRun st e 0 with
  | some _ => .next (s.engEnd st e 0 0)
  | none => .next s

/-- BINDERY_FENCE: every write of an earlier descriptor of the engine is already performed when this runs (R240). -/
def execBinderyFence (st e : Nat) (s : State) : Res := match s.engRun st e 6 with
  | some _ => .next (s.engEnd st e 0 0)
  | none => .next s

/-- Run COPY (R238): as if through a temporary. -/
def State.copyRun (s : State) (st e : Nat) (d : List Nat) : State :=
  let b := stackBase st
  let r := s.stkRead (b + bdA0 d) (bdLen d)
  let s := r.2.stkWrite (b + bdA1 d) r.1
  s.engEnd st e (runStatus (s.hitsFailed (b + bdA1 d) (bdLen d)) (anyPois r.1)) 0

/-- COPY (R238). -/
def execCopy (st e : Nat) (s : State) : Res := match s.engRun st e 2 with
  | some d => .next (s.copyRun st e d)
  | none => .next s

/-- Run FILL (R238). -/
def State.fillRun (s : State) (st e : Nat) (d : List Nat) : State :=
  let b := stackBase st
  let r := s.stkRead (b + bdA0 d) 64
  let s := r.2.stkWrite (b + bdA1 d) ((List.range (bdLen d / 64)).flatMap fun _ => r.1)
  s.engEnd st e (runStatus (s.hitsFailed (b + bdA1 d) (bdLen d)) (anyPois r.1)) 0

/-- FILL (R238). -/
def execFill (st e : Nat) (s : State) : Res := match s.engRun st e 3 with
  | some d => .next (s.fillRun st e d)
  | none => .next s

/-! ## Completion (R240, R241) -/

/-- The completion record (Table 7.5). -/
def bdRecord (id status detail tend : Nat) : List Nat := leBytes 4 id ++ [status, detail, 0, 0] ++ leBytes 8 tend

/-- Write a record into its granule, keeping the other records: a half whose other bytes read poisoned is poisoned (R227);
nothing where the ring lies outside the stack or in a failed channel. -/
def State.putRecord (s : State) (st off : Nat) (bs : List Nat) : State :=
  let d := stackBase st + off
  if !s.inTop st off 16 || s.chanFailed st off then s
  else
    { s with
      stk := SMap.setList (fun _ => 0) s.stk d (bs.map fun b => BitVec.ofNat 8 b)
      stkMark := SMap.set (fun _ => 0) s.stkMark (d / 32) (if 2 ≤ s.markOf d then 3 else 0) }

/-- The interrupt of a completion: PF 0's vector 4 for firmware engines and PF 0's partition, else the context's vector 2
(Table 15.12). -/
def State.binderyIrq (s : State) (st e c : Nat) : State :=
  let own := SMap.get (fun _ => 255) s.img.engines (st * 8 + e)
  let pf := match s.ctxCfg 0 with
    | some k => k.part
    | none => none
  if own = 0xFE ∨ pf = some own then s.msix 0 4 else s.msix c 2

/-- Steps 2 to 5 of R240. -/
def State.engComplete (s : State) (st e : Nat) (x : Engine) (d : Desc) (status detail : Nat) : State :=
  let head := s.fld (BCQPTR_HEAD st e)
  let off := s.fld (BCQBASE_BASE st e) * 4096 + head % 256 * 16
  let id := if d.poisoned then 0 else bdId d.bytes
  let s := s.putRecord st off (bdRecord id status (if status = bsProg then detail else 0) x.tend)
  let s := s.setFld (BCQPTR_HEAD st e) (head + 1)
  let s := if status = 0 ∧ bdSpost d.bytes ≠ 0 then s.semAdd st (bdSemp d.bytes) (bdSpost d.bytes) else s
  let f := le d.bytes 1 1
  let s := if bitOf f 0 || bitOf f 1 then s.deliverCtx x.ctx (bdCtgt d.bytes) (bdCval d.bytes) else s
  let s := if bitOf f 2 then s.binderyIrq st e x.ctx else s
  let s := if status = 0 then s
    else s.report (halfOfStack st) 0x24 1 (srcOf 2 (st * 8 + e)) (bdA0 d.bytes) (status + 16 * e + 256 * detail)
  let s := s.setFld (BESTAT_CQFULL st e) 0
  (s.modEngine st e fun y => { Engine.reset with whose := y.whose, abortTo := y.abortTo }).engShow st e

/-- DESCRIPTOR_COMPLETE (R240): waits, shown by CQFULL, while the completion ring is full. -/
def execDescriptorComplete (st e : Nat) (s : State) : Res :=
  let x := s.engine st e
  match x.stage, x.desc with
  | .ended status detail, some d =>
    if (s.fld (BCQPTR_HEAD st e) + 512 - s.fld (BCQPTR_TAIL st e)) % 512 = 256 then .next (s.setFld (BESTAT_CQFULL st e) 1)
    else .next (s.engComplete st e x d status detail)
  | _, _ => .next s

/-- A write of BCQPTR.TAIL (R240): one that would move it beyond HEAD sets it to HEAD. -/
def State.cqTail (s : State) (st e v : Nat) : State :=
  let head := s.fld (BCQPTR_HEAD st e)
  let old := s.fld (BCQPTR_TAIL st e)
  s.setFld (BCQPTR_TAIL st e) (if (v % 512 + 512 - old) % 512 ≤ (head + 512 - old) % 512 then v else head)

/-- BCQPTR_TAIL_WRITE (R240). -/
def execBcqptrTailWrite (st e v : Nat) (s : State) : Res := .next (if st < 8 ∧ e < 8 then s.cqTail st e v else s)

/-! ## Stage words while a RUN runs (R392) -/

/-- Shard index. -/
def runShard (a : List Nat) : Nat := nth 0 a 1

/-- An update RUN on shard n of stack st is in progress. -/
def State.shardBusy (s : State) (st n : Nat) : Bool :=
  (List.range 8).any fun e =>
    let x := s.engine st e
    x.stage == .running && decide (195 ≤ x.aux.length) && runShard x.aux == n

/-- Store a stage word through its RW bits. -/
def State.stagePut (s : State) (st n m v : Nat) : State :=
  match regSpecAt (aSSTAGE st n) with
  | some r => s.setReg (aSSTAGE st n) (r.written (s.reg (aSSTAGE st n)) m v)
  | none => s

/-- Stage writes whose RUN has ended take effect, in order. -/
def State.stageSettle (s : State) : State :=
  let w := s.stageWait
  let s := { s with stageWait := w.filter fun x => s.shardBusy x.1 x.2.1 }
  s.each (w.filter fun x => !s.shardBusy x.1 x.2.1) fun s x => s.stagePut x.1 x.2.1 x.2.2.1 x.2.2.2

end Sys2Proof.Machine
end

