-- ==== Sys2Proof/Machine/Fp.lean ====
section
/-! DEFINITION. IEEE 754 binary32 arithmetic as the decision unit and the bindery programs use it: one rounding to nearest even
an operation, gradual underflow, canonical NaN, no flag (R368, R378, R379, R399, R412). -/

namespace Sys2Proof.Machine

/-- One rounding to binary32. -/
def fl (v : Val) : Nat := (fp32F.encVec false false .dflt .rne v).1
/-- One rounding to BF16, overflowing to infinity. -/
def toBf16 (v : Val) : Nat := (bf16F.encVec false false .dflt .rne v).1
/-- The value of a binary32 word. -/
def fv (x : Nat) : Val := fp32F.decode x
/-- The value of a BF16 word. -/
def bv (x : Nat) : Val := bf16F.decode x

/-- Sum. -/
def fAdd (a b : Nat) : Nat := fl ((fv a).add (fv b))
/-- Difference. -/
def fSub (a b : Nat) : Nat := fl ((fv a).add (fv b).negate)
/-- Product. -/
def fMul (a b : Nat) : Nat := fl ((fv a).mul (fv b))

/-- An exact quotient to far more bits than a rounding looks at, the last bit sticky. -/
def quotVal (n : Bool) (m1 : Nat) (e1 : Int) (m2 : Nat) (e2 : Int) : Val :=
  let k := 96 + bitLen m2
  let q := m1 * 2 ^ k / m2
  .fin n (2 * q + (if m1 * 2 ^ k % m2 = 0 then 0 else 1)) (e1 - e2 - (k : Int) - 1)

/-- Quotient of values. -/
def Val.div : Val → Val → Val
  | .nan, _ => .nan
  | _, .nan => .nan
  | .inf _, .inf _ => .nan
  | .inf n, .fin n' _ _ => .inf (n != n')
  | .fin n _ _, .inf n' => .fin (n != n') 0 0
  | .fin n m e, .fin n' m' e' =>
    if m' = 0 then (if m = 0 then .nan else .inf (n != n'))
    else if m = 0 then .fin (n != n') 0 0
    else quotVal (n != n') m e m' e'

/-- Quotient, correctly rounded. -/
def fDiv (a b : Nat) : Nat := fl ((fv a).div (fv b))

/-- Square root of a value, to far more bits than a rounding looks at, the last bit sticky. -/
def Val.sqrt : Val → Val
  | .nan => .nan
  | .inf n => if n then .nan else .inf false
  | .fin n m e =>
    if m = 0 then .fin n 0 0
    else if n then .nan
    else
      let odd := (e % 2).toNat
      let x := m * 2 ^ (128 + odd)
      let r := isqrt x
      .fin false (2 * r + (if r * r = x then 0 else 1)) ((e - odd - 128) / 2 - 1)

/-- Square root, correctly rounded. -/
def fSqrt (a : Nat) : Nat := fl (fv a).sqrt

/-- A binary32 word is infinite or NaN. -/
def fNonFin (a : Nat) : Bool := bitsOf a 23 8 == 255
/-- A BF16 word is infinite or NaN. -/
def bNonFin (a : Nat) : Bool := bitsOf a 7 8 == 255

end Sys2Proof.Machine
end

