-- ==== Sys2Proof/Machine/Update.lean ====
section
/-! DEFINITION. The step decision and loss scale, the non-finite log, phase timers, stage words, and the update programs
AdamW, Adam with L2 decay and SCAN (R364 to R384, R391, R392). -/

namespace Sys2Proof.Machine

/-! ## The decision (R367 to R369) -/

/-- What a decision comes to: skipped, CAUSE, clipped, c, N2, NORM. -/
structure Decision where
  skip : Bool
  cause : Nat
  clipped : Bool
  c : Nat
  n2 : Nat
  norm : Nat
  deriving DecidableEq, Repr

/-- 1.0 in FP32. -/
def fOne : Nat := 0x3F800000
/-- +∞ in FP32. -/
def fInf : Nat := 0x7F800000

/-- The computation of R368 with loss-scale exponent ls and thresholds clipn and maxn. -/
def decideStep (vote nsq : Nat) (ls : Int) (clipn maxn : Nat) : Decision :=
  if 256 ≤ vote then ⟨true, 1, false, fOne, 0, 0⟩
  else if (fv clipn).isZero && (fv maxn).isZero then ⟨false, 0, false, fOne, 0, 0⟩
  else if toIntW 64 nsq < 0 then ⟨true, 2, false, fOne, 0, 0⟩
  else
    let k : Int := 2 * ((vote % 256 : Int) - 142) + 11 - 2 * ls
    let n2 := fl (.fin false nsq k)
    if n2 = fInf then ⟨true, 2, false, fOne, n2, 0⟩
    else
      let norm := fSqrt n2
      if !(fv maxn).isZero && Val.lt (fv maxn) (fv norm) then ⟨true, 3, false, fOne, n2, norm⟩
      else if !(fv clipn).isZero && Val.lt (fv clipn) (fv norm) then ⟨false, 0, true, fDiv clipn norm, n2, norm⟩
      else ⟨false, 0, false, fOne, n2, norm⟩

/-- GLSCALE after a decision (Table 12.3). -/
def State.scaleAfter (s : State) (d : Decision) : State :=
  let ex := toIntW 8 (s.fld GLSCALE_EXP)
  if d.skip then
    if d.cause = 3 then s
    else
      let s := s.setFld GLSCALE_CLEAN 0
      if ex ≤ -32 then s.setFld GLSCALE_ATMIN 1 else s.setFld GLSCALE_EXP (ofIntW 8 (ex - 1))
  else if s.fld GLSCALE_CLEAN + 1 < s.fld GLSCFG_INTERVAL then s.setFld GLSCALE_CLEAN (s.fld GLSCALE_CLEAN + 1)
  else
    let s := s.setFld GLSCALE_CLEAN 0
    if 48 ≤ ex then s.setFld GLSCALE_ATMAX 1 else s.setFld GLSCALE_EXP (ofIntW 8 (ex + 1))

/-- A write of GSTEPIN with GO = 1 (R367): accepted for the step after LAST while no decision runs. -/
def State.stepGo (s : State) (step vote : Nat) : State :=
  if s.decision.isNone ∧ step % 2 ^ 32 = (s.fld GSTEP_LAST + 1) % 2 ^ 32 then
    { s with decision := some (step % 2 ^ 32, vote % 512, (s.reg aGSTEPNSQ).toNat) }
  else s.setFld GDECIDE_ERR 1

/-- GSTEPIN_GO (R367, R393). -/
def execGstepinGo (c step vote : Nat) (s : State) : Res :=
  .next (if s.trainMay c then s.stepGo step vote else s.refuse aGSTEPIN c)

/-- GDECIDE, GCLIP, GNORM, GSKIPCNT and GSTEP as a decision leaves them (R367, R368). -/
def State.decideWrite (s : State) (step : Nat) (ls : Nat) (d : Decision) : State :=
  let s := (s.setFld GDECIDE_STEP step).setFld GDECIDE_SKIP (if d.skip then 1 else 0)
  let s := (s.setFld GDECIDE_CAUSE d.cause).setFld GDECIDE_CLIPPED (if d.clipped then 1 else 0)
  let s := ((s.setFld GDECIDE_LSEXP ls).setFld GCLIP_C d.c).setFld GNORM_N2 d.n2
  let s := (s.setFld GNORM_NORM d.norm).setFld GSTEP_LAST step
  let s := match d.cause with
    | 1 => s.bump GSKIPCNT_OVF 1
    | 2 => s.bump GSKIPCNT_NONFIN 1
    | 3 => s.bump GSKIPCNT_ABSURD 1
    | _ => s
  if d.clipped then s.bump GSKIPCNT_CLIP 1 else s

/-- The DECIDE record's payload (Table 14.5). -/
def State.decidePayload (s : State) (step vote : Nat) : List Nat :=
  leBytes 8 (step + vote * 2 ^ 32 + 2 ^ 63) ++ leBytes 8 (s.reg aGDECIDE).toNat ++ leBytes 8 (s.reg aGCLIP).toNat
    ++ leBytes 8 (s.reg aGNORM).toNat

/-- GDECIDE but for the sticky ERR, as compared in replay. -/
def decideOf (w : Nat) : Nat := putBits w 37 1 0

/-- Finish a decision: registers, loss scale, ledger record; in replay the recorded one is compared (Table 14.6). -/
def State.decideDone (s : State) (step vote nsq : Nat) (rec_ : Option LedIn) : State :=
  let ls := s.fld GLSCALE_EXP
  let d := decideStep vote nsq (toIntW 8 ls) (s.fld GNRMCFG_CLIPN) (s.fld GNRMCFG_MAXN)
  let s := { s.decideWrite step ls d with decision := none }
  let s := s.scaleAfter d
  match rec_ with
  | some r =>
    if decideOf (le r.data 8 8) = decideOf (s.reg aGDECIDE).toNat ∧ le r.data 16 8 = (s.reg aGCLIP).toNat then s
    else s.setFld GLEDSTAT_DIVERGE 1
  | none => s.led 4 false 0 step nsq (s.decidePayload step vote)

/-- DECISION_COMPLETE (R367 to R369, R433, R436): in replay it waits for the step's DECIDE record. -/
def execDecisionComplete (s : State) : Res :=
  match s.decision with
  | none => .next s
  | some (step, vote, nsq) =>
    if s.replay then
      let r := s.ledTake fun x => x.cls == 4 && x.k0 == step
      match r.1 with
      | some x => .next (r.2.decideDone step vote nsq (some x)).showWait
      | none => .next r.2.showWait
    else .next (s.decideDone step vote nsq none)

/-! ## The non-finite log (R371) and the phase timers (R391) -/

/-- A write of GNFLOG. -/
def State.nfLog (s : State) (v : Nat) : State :=
  let wp := s.fld GNFPTR_WP
  if (wp + 16 - s.fld GNFPTR_RP) % 16 = 8 then s.bump GNFPTR_LOST 1
  else
    let s := (s.setReg (aGNFREC (wp % 8)) (BitVec.ofNat 64 v)).setReg (aGNFTIM (wp % 8)) (BitVec.ofNat 64 s.now)
    s.setFld GNFPTR_WP ((wp + 1) % 16)

/-- NONFINITE_LOG (R371, R393). -/
def execNonfiniteLog (c : Nat) (v : BitVec 64) (s : State) : Res :=
  .next (if s.trainMay c then s.nfLog v.toNat else s.refuse aGNFLOG c)

/-- A phase is open. -/
def State.phaseOpen (s : State) (p : Nat) : Bool := bitOf (s.fld GPHOPEN_OPEN) p

/-- A write of GPHMARK: kinds 0 start, 1 end, 2 clear; phases 6 and 7 and kind 3 are ignored. -/
def State.phaseMark (s : State) (p kind : Nat) : State :=
  if 6 ≤ p then s
  else match kind with
    | 0 => if s.phaseOpen p then s else (s.setReg (aGPHS p) (BitVec.ofNat 64 s.now)).orFld GPHOPEN_OPEN (2 ^ p)
    | 1 => if s.phaseOpen p then s.setReg (aGPHE p) (BitVec.ofNat 64 s.now) else s
    | 2 => if s.phaseOpen p then s.setFld GPHOPEN_OPEN (s.fld GPHOPEN_OPEN - 2 ^ p) else s
    | _ => s

/-- PHASE_START (R391): any tile or the host may mark, whatever its context (DESIGN CHOICE between R391 and the paragraph before R393, log entry 97). -/
def execPhaseStart (_c p : Nat) (s : State) : Res := .next (s.phaseMark p 0)
/-- PHASE_END (R391). -/
def execPhaseEnd (_c p : Nat) (s : State) : Res := .next (s.phaseMark p 1)
/-- PHASE_CLEAR (R391). -/
def execPhaseClear (_c p : Nat) (s : State) : Res := .next (s.phaseMark p 2)

/-! ## Stage words (R376, R392, R394) -/

/-- IDLE, MOMENTS, COMMITTED. -/
def sgIdle : Nat := 0
/-- Table 12.25. -/
def sgMoments : Nat := 1
/-- Table 12.25. -/
def sgCommitted : Nat := 2

/-- The passes of an update RUN: M, W, skip asked for, skip for a late overflow, skip as idle. -/
def paM : Nat := 1
/-- Pass W. -/
def paW : Nat := 2
/-- Skip pass of a skipped step. -/
def paSkip : Nat := 3
/-- Skip pass for a 0xFF result block. -/
def paLate : Nat := 4
/-- Skip pass of an idle shard. -/
def paIdle : Nat := 5

/-- An update RUN in progress: pass, shard, KIND, elements, then the 128 argument bytes and the 64 step-record bytes, as
Engine.aux holds them. -/
def runPass (a : List Nat) : Nat := nth 0 a 0
/-- KIND and slot record place. -/
def runSlot (a : List Nat) : Nat := nth 0 a 2
/-- Argument bytes. -/
def runArg (a : List Nat) : List Nat := (a.drop 3).take 128
/-- Step record bytes. -/
def runStep (a : List Nat) : List Nat := (a.drop 131).take 64

/-- A write of SSTAGEn with lanes m: waits while a RUN on the shard runs. -/
def State.stageWrite (s : State) (st n m v : Nat) : State :=
  if s.shardBusy st n then { s with stageWait := s.stageWait ++ [(st, n, m, v)] } else s.stagePut st n m v

/-- SSTAGE_WRITE (R392, R394): context c writes the whole word, which is read-only to all but PF 0 and firmware contexts. -/
def execSstageWrite (c st n : Nat) (v : BitVec 64) (s : State) : Res :=
  .next (if 8 ≤ st ∨ 4096 ≤ n then s
  else if s.pfOrFw c then s.stageWrite st n (2 ^ 64 - 1) v.toNat
  else s)

/-- End a RUN, then let the writes that waited for it take effect. -/
def State.runEnd (s : State) (st e status detail : Nat) : State := (s.engEnd st e status detail).stageSettle

/-! ## Arrays -/

/-- A shard's arrays: offset in the record, bytes for each 4,096 elements (Table 12.6). -/
def shardArrays : List (Nat × Nat) :=
  [(24, 8192), (32, 128), (40, 4096), (48, 128), (56, 4096), (64, 128), (72, 16384), (80, 8192), (88, 8192)]

/-- Read chunk c of the array at record offset o. -/
def State.chunkRead (s : State) (st : Nat) (arg : List Nat) (o per c : Nat) : List (Nat × Bool) × State :=
  s.stkRead (stackBase st + le arg o 8 + c * per) per

/-- Write chunk c of an array, every byte poisoned when the chunk is (R382); whether a failed channel was met. -/
def State.chunkWrite (s : State) (st : Nat) (arg : List Nat) (o per c : Nat) (pois : Bool) (bs : List Nat) : Bool × State :=
  let d := stackBase st + le arg o 8 + c * per
  (s.hitsFailed d per, s.stkWrite d (bs.map fun b => (b, pois)))

/-- Words of n bytes. -/
def wordsOf (n k : Nat) (bs : List (Nat × Bool)) : List Nat := (List.range k).map fun i => ofLE (((bs.drop (n * i)).take n).map (·.1))

/-- Bytes of words of n bytes. -/
def wordBytes (n : Nat) (ws : List Nat) : List Nat := ws.flatMap (leBytes n)

/-- Count an encoded block in BBLKUF (R98, R243). -/
def State.bblk (s : State) (st n : Nat) : State :=
  if n = 0 then s
  else (s.bump (BBLKUF_COUNT st) 1).setFld (BBLKUF_MAXN st) (max (s.fld (BBLKUF_MAXN st)) n)

/-! ## The arithmetic of the passes (R378, R379) -/

/-- Constants of a slot record (Table 12.5) and a step record (Table 12.4). -/
structure OptK where
  kind : Nat
  b1 : Nat
  ob1 : Nat
  b2 : Nat
  ob2 : Nat
  eps : Nat
  l2 : Nat
  ls : Int
  c : Nat
  lre : Nat
  rbc2 : Nat
  wd : Nat
  deriving DecidableEq, Repr

/-- Constants out of the records. -/
def optK (slot st : List Nat) : OptK :=
  ⟨le slot 0 1, le slot 4 4, le slot 8 4, le slot 12 4, le slot 16 4, le slot 20 4, le slot 24 4, toIntW 8 (le st 5 1),
    le st 8 4, le st 12 4, le st 16 4, le st 20 4⟩

/-- The gradient an element's moments take, from its held value (R378). -/
def OptK.grad (k : OptK) (h : Val) (w : Nat) : Nat :=
  let g := fMul (fl h) k.c
  if k.kind = 2 then fAdd g (fMul k.l2 w) else g

/-- New first moment. -/
def OptK.mom (k : OptK) (m g : Nat) : Nat := toBf16 (fv (fAdd (fMul k.b1 (fl (bv m))) (fMul k.ob1 g)))
/-- New second moment. -/
def OptK.vel (k : OptK) (v g : Nat) : Nat := toBf16 (fv (fAdd (fMul k.b2 (fl (bv v))) (fMul k.ob2 (fMul g g))))

/-- New weight (R379). -/
def OptK.weight (k : OptK) (w m v : Nat) : Nat :=
  let d := fAdd (fSqrt (fMul (fl (bv v)) k.rbc2)) k.eps
  let u := fDiv (fl (bv m)) d
  let w1 := if k.kind = 2 then w else fSub w (fMul k.wd w)
  fSub w1 (fMul k.lre u)

/-- One 32-element block of pass M: G8 block and the new moments. -/
def OptK.blockM (k : OptK) (ex : Nat) (ms : List Nat) (rsc : Nat) (rs : List Nat) (m v w : List Nat) :
    G8Block × List Nat × List Nat :=
  let xs := (ms.zip rs).map fun p => ((decodeElem 0xD p.1 ex).scale (-k.ls)).add (residual p.2 rsc)
  let b := encodeG8 xs
  let gs := (b.held.zipIdx).map fun h => k.grad (decodeElem 0xC h.1 b.sc) (nth 0 w h.2)
  (b, (gs.zipIdx).map fun g => k.mom (nth 0 m g.2) g.1, (gs.zipIdx).map fun g => k.vel (nth 0 v g.2) g.1)

/-- Pass M on chunk c (R378): failed channel met, poisoned, non-finite moment written. -/
def State.passM (s : State) (st : Nat) (k : OptK) (arg : List Nat) (c : Nat) : (Bool × Bool × Bool) × State :=
  let gm := s.chunkRead st arg 24 8192 c
  let gx := gm.2.chunkRead st arg 32 128 c
  let re := gx.2.chunkRead st arg 56 4096 c
  let rs := re.2.chunkRead st arg 64 128 c
  let m := rs.2.chunkRead st arg 80 8192 c
  let v := m.2.chunkRead st arg 88 8192 c
  let w := if k.kind = 2 then v.2.chunkRead st arg 72 16384 c else ([], v.2)
  let pois := anyPois (gm.1 ++ gx.1 ++ re.1 ++ rs.1 ++ m.1 ++ v.1 ++ w.1)
  let gms := wordsOf 2 4096 gm.1
  let mw := wordsOf 2 4096 m.1
  let vw := wordsOf 2 4096 v.1
  let ww := if k.kind = 2 then wordsOf 4 4096 w.1 else []
  let part := fun (l : List Nat) (b : Nat) => (l.drop (32 * b)).take 32
  let bl := (List.range 128).map fun b =>
    k.blockM (nth (0, false) gx.1 b).1 (part gms b) (nth (0, false) rs.1 b).1 (part (re.1.map (·.1)) b) (part mw b) (part vw b) (part ww b)
  let m' := bl.flatMap (·.2.1)
  let v' := bl.flatMap (·.2.2)
  let s := w.2
  let s := if pois then s else s.each bl fun s b => s.bblk st b.1.flushes
  let o1 := s.chunkWrite st arg 40 4096 c pois (bl.flatMap fun b => b.1.held)
  let o2 := o1.2.chunkWrite st arg 48 128 c pois (bl.map fun b => b.1.sc)
  let o3 := o2.2.chunkWrite st arg 56 4096 c pois (bl.flatMap fun b => b.1.res)
  let o4 := o3.2.chunkWrite st arg 64 128 c pois (bl.map fun b => b.1.rsc)
  let o5 := o4.2.chunkWrite st arg 80 8192 c pois (wordBytes 2 m')
  let o6 := o5.2.chunkWrite st arg 88 8192 c pois (wordBytes 2 v')
  ((o1.1 || o2.1 || o3.1 || o4.1 || o5.1 || o6.1, pois, !pois && (m'.any bNonFin || v'.any bNonFin)), o6.2)

/-- Pass W on chunk c (R379). -/
def State.passW (s : State) (st : Nat) (k : OptK) (arg : List Nat) (c : Nat) : (Bool × Bool × Bool) × State :=
  let w := s.chunkRead st arg 72 16384 c
  let m := w.2.chunkRead st arg 80 8192 c
  let v := m.2.chunkRead st arg 88 8192 c
  let pois := anyPois (w.1 ++ m.1 ++ v.1)
  let ms := wordsOf 2 4096 m.1
  let vs := wordsOf 2 4096 v.1
  let ws := ((wordsOf 4 4096 w.1).zip (ms.zip vs)).map fun p => k.weight p.1 p.2.1 p.2.2
  let o1 := v.2.chunkWrite st arg 72 16384 c pois (wordBytes 4 ws)
  let o2 := o1.2.chunkWrite st arg 24 8192 c pois (wordBytes 2 (ws.map fun x => toBf16 (fv x)))
  ((o1.1 || o2.1, pois, !pois && ws.any fNonFin), o2.2)

/-- The skip pass on chunk c (R380). -/
def State.passSkip (s : State) (st : Nat) (arg : List Nat) (c : Nat) : (Bool × Bool × Bool) × State :=
  let w := s.chunkRead st arg 72 16384 c
  let pois := anyPois w.1
  let o := w.2.chunkWrite st arg 24 8192 c pois (wordBytes 2 ((wordsOf 4 4096 w.1).map fun x => toBf16 (fv x)))
  ((o.1, pois, false), o.2)

/-! ## Starting a RUN (R374, R376, R377, R383, R384, R544) -/

/-- Bytes off to off + n - 1 are not all zero. -/
def nz (bs : List Nat) (off n : Nat) : Bool := (((bs.drop off).take n).any fun b => b != 0)

/-- The PROG codes of an update RUN that hold (Table 12.8). Code 0x05 is not among them: no field of a shard record or step record names a
KIND that could differ from the slot's (DEDUCED, log entry 97). -/
def State.updateFault (s : State) (st : Nat) (arg sr : List Nat) : List Nat :=
  let n := le arg 8 8
  let step := le sr 0 4
  let skip := bitOf (le sr 4 1) 0
  let cause := bitsOf (le sr 4 1) 1 3
  let ls := toIntW 8 (le sr 5 1)
  let sh := le arg 0 2 % 4096
  let stage := s.fld (SSTAGE_STAGE st sh)
  let sstep := s.fld (SSTAGE_STEP st sh)
  let fits := (stage == sgCommitted && (sstep == step || (sstep + 1) % 2 ^ 32 == step))
    || (stage == sgIdle && (sstep == step || (sstep == 0 && s.fld (SSTAGE_CURSOR st sh) == 0)))
    || (stage == sgMoments && sstep == step)
  codesOf
    [(n == 0 || decide (2 ^ 32 < n) || n % 4096 != 0, 1),
      (decide (4096 ≤ le arg 0 2) || decide (2 ≤ le arg 2 1) || nz arg 3 5 || nz arg 96 32 || bitsOf (le sr 4 1) 4 4 != 0 || nz sr 6 2
        || nz sr 24 40, 2),
      (decide (le arg 0 2 < 4096) && !fits, 3),
      (decide (ls < -32) || decide (48 < ls) || (skip && (cause == 0 || decide (3 < cause))) || (!skip && cause != 0), 4),
      (s.fld GDECIDE_STEP == step && (s.flag GDECIDE_SKIP != skip || s.fld GDECIDE_CAUSE != cause || s.fld GDECIDE_LSEXP != le sr 5 1
        || s.fld GCLIP_C != le sr 8 4), 6)]

/-- The prescan (R377): the pass to perform. A poisoned byte has no meaning, so where one was read and no other byte decides,
a free value does. -/
def State.prescan (s : State) (st : Nat) (arg : List Nat) : Nat × State :=
  let n := le arg 8 8
  let gx := s.stkRead (stackBase st + le arg 32 8) (n / 32)
  let idle := bitOf (le arg 2 1) 0
  let gm := if idle then gx.2.stkRead (stackBase st + le arg 24 8) (2 * n) else ([], gx.2)
  let k := gm.2.fresh
  let late := (gx.1.any fun b => !b.2 && b.1 == 255) || (anyPois gx.1 && Config.coin k)
  let zero := (gx.1 ++ gm.1).all fun b => b.2 || b.1 == 0
  let quiet := idle && zero && (!anyPois (gx.1 ++ gm.1) || Config.coin (k + 1))
  (if late then paLate else if quiet then paIdle else paM, gm.2.freshen.freshen)

/-- Begin step s on a shard: STEP, IDLE, CURSOR 0, and the flags of the last step cleared (R376, R381). -/
def State.beginShard (s : State) (st n step : Nat) : State := s.setReg (aSSTAGE st n) (BitVec.ofNat 64 (step % 2 ^ 32))

/-- An update RUN passes its checks: the action of Table 12.7. -/
def State.updateBegin (s : State) (st e slot : Nat) (arg sr : List Nat) : State :=
  let sh := le arg 0 2 % 4096
  let step := le sr 0 4
  let skip := bitOf (le sr 4 1) 0
  let stage := s.fld (SSTAGE_STAGE st sh)
  let same := s.fld (SSTAGE_STEP st sh) == step
  let go := fun (s : State) (pass chunk : Nat) =>
    s.modEngine st e fun x => { x with aux := [pass, sh, slot] ++ arg ++ sr, chunk := chunk }
  if stage = sgCommitted ∧ same then s.runEnd st e 0 0
  else if stage = sgMoments then go s paW (s.fld (SSTAGE_CURSOR st sh))
  else
    let resume := stage = sgIdle ∧ same ∧ !(step == 0 && s.fld (SSTAGE_CURSOR st sh) == 0)
    let s := if resume then s else s.beginShard st sh step
    let cur := s.fld (SSTAGE_CURSOR st sh)
    if skip then go s paSkip cur
    else
      let p := s.prescan st arg
      if p.1 = paM then go p.2 paM cur else go (p.2.setFld (SSTAGE_CURSOR st sh) 0) p.1 0

/-- Start an update RUN of a KIND (R544 stage 3). -/
def State.updateStart (s : State) (st e : Nat) (d : List Nat) : State :=
  let b := stackBase st
  let a := s.stkRead (b + bdA2 d) 128
  let arg := a.1.map (·.1)
  if anyPois a.1 then a.2.runEnd st e bsProg 8
  else if !a.2.inTop st (le arg 16 8) 64 then a.2.runEnd st e bsAddr 0
  else
    let r := a.2.stkRead (b + le arg 16 8) 64
    let sr := r.1.map (·.1)
    let s := r.2
    if anyPois r.1 then s.runEnd st e bsProg 8
    else if le arg 16 8 % 64 ≠ 0 ∨ (shardArrays.any fun o => le arg o.1 8 % 64 != 0) then s.runEnd st e bsAlign 0
    else
      let f := s.updateFault st arg sr
      if f ≠ [] then s.freshen.runEnd st e bsProg (s.oneOf f)
      else if shardArrays.any fun o => !s.inTop st (le arg o.1 8) (le arg 8 8 / 4096 * o.2) then s.runEnd st e bsAddr 0
      else s.updateBegin st e (bdProg d) arg sr

/-- The RUN an engine has not begun to execute, when its slot is of KIND k. -/
def State.engRunKind (s : State) (st e k : Nat) : Option (List Nat) := match s.engRun st e 1 with
  | some d => if s.slotKind st (bdProg d) = k then some d else none
  | none => none

/-- ADAMW (R374, R376, R377, R383, R384): the RUN begins. -/
def execAdamw (st e : Nat) (s : State) : Res := match s.engRunKind st e 1 with
  | some d => .next (s.updateStart st e d)
  | none => .next s

/-- ADAM_L2 (R374, R376, R377, R383, R384): the RUN begins. -/
def execAdamL2 (st e : Nat) (s : State) : Res := match s.engRunKind st e 2 with
  | some d => .next (s.updateStart st e d)
  | none => .next s

/-! ## Chunks (R375) -/

/-- After the last chunk of a pass: pass W follows pass M, the others commit the shard (Table 12.7). -/
def State.passDone (s : State) (st e : Nat) : State :=
  let x := s.engine st e
  let sh := runShard x.aux
  let p := runPass x.aux
  if p = paM then
    let s := (s.setFld (SSTAGE_STAGE st sh) sgMoments).setFld (SSTAGE_CURSOR st sh) 0
    s.modEngine st e fun x => { x with aux := paW :: x.aux.drop 1, chunk := 0 }
  else
    let s := s.setFld (SSTAGE_STAGE st sh) sgCommitted
    let s := if p = paW then s else s.setFld (SSTAGE_SKIPPED st sh) 1
    let s := if p = paLate then s.setFld (SSTAGE_LATEOVF st sh) 1 else s
    let s := if p = paIdle then s.setFld (SSTAGE_IDLESK st sh) 1 else s
    s.runEnd st e (runStatus x.media x.pois) 0

/-- One chunk of the pass in progress: every output, then the cursor (R375). -/
def State.chunkStep (s : State) (st e : Nat) : State :=
  let x := s.engine st e
  let a := x.aux
  let sh := runShard a
  let arg := runArg a
  let k := optK (s.slotRec st (runSlot a)) (runStep a)
  let n := le arg 8 8 / 4096
  if n ≤ x.chunk then s.passDone st e
  else
    let r := if runPass a = paM then s.passM st k arg x.chunk else if runPass a = paW then s.passW st k arg x.chunk
      else s.passSkip st arg x.chunk
    let s := if r.1.2.2 then r.2.setFld (SSTAGE_NFOUT st sh) 1 else r.2
    let s := s.setFld (SSTAGE_CURSOR st sh) (x.chunk + 1)
    let s := s.modEngine st e fun y => { y with chunk := x.chunk + 1, media := y.media || r.1.1, pois := y.pois || r.1.2.1 }
    if n ≤ x.chunk + 1 then s.passDone st e else s

/-- CHUNK_COMPLETE (R375, R378 to R382). -/
def execChunkComplete (st e : Nat) (s : State) : Res :=
  let x := s.engine st e
  .next (if st < 8 ∧ e < 8 ∧ x.stage = .running ∧ x.aux.length = 195 then s.chunkStep st e else s)

/-! ## SCAN (R365, R366) -/

/-- One block's entry in the sum of squares: rounded once (R366). -/
def scanBlock (amax ex : Nat) (ms : List Nat) : Nat :=
  if ex = 255 then 0
  else
    let q := (ms.map fun m => (toIntW 16 m).natAbs ^ 2).sum
    rneShift q (11 - 2 * ((ex : Int) - amax))

/-- The result word of a scan over exponents and mantissas. -/
def scanResult (mode amax : Nat) (gx gm : List Nat) : Nat :=
  if mode = 0 then
    (gx.filter fun x => x != 255).foldl max 0 + (if gx.contains 255 then 256 else 0)
  else
    ((gx.zipIdx).map fun b => scanBlock amax b.1 ((List.range 32).map fun i => le gm (64 * b.2 + 2 * i) 2)).sum % 2 ^ 64

/-- The PROG codes of SCAN that hold (Table 12.8). -/
def scanFault (arg : List Nat) : List Nat :=
  let n := le arg 8 8
  codesOf
    [(n == 0 || decide (2 ^ 32 < n) || n % 4096 != 0, 1),
      (decide (2 ≤ le arg 0 1) || (le arg 0 1 == 0 && le arg 1 1 != 0) || nz arg 2 6 || nz arg 32 32, 2)]

/-- Run SCAN whole. -/
def State.scanRun (s : State) (st e : Nat) (d : List Nat) : State :=
  let b := stackBase st
  let a := s.stkRead (b + bdA2 d) 128
  let arg := a.1.map (·.1)
  let s := a.2
  let gmO := le arg 16 8
  let gxO := le arg 24 8
  let n := le arg 8 8
  let m1 := le arg 0 1 == 1
  if anyPois a.1 then s.runEnd st e bsProg 8
  else if gmO % 64 ≠ 0 ∨ gxO % 64 ≠ 0 then s.runEnd st e bsAlign 0
  else if scanFault arg ≠ [] then s.freshen.runEnd st e bsProg (s.oneOf (scanFault arg))
  else if !s.inTop st gxO (n / 32) || (m1 && !s.inTop st gmO (2 * n)) then s.runEnd st e bsAddr 0
  else
    let gx := s.stkRead (b + gxO) (n / 32)
    let gm := if m1 then gx.2.stkRead (b + gmO) (2 * n) else ([], gx.2)
    let pois := anyPois (gx.1 ++ gm.1)
    let v := scanResult (le arg 0 1) (le arg 1 1) (gx.1.map (·.1)) (gm.1.map (·.1))
    let o := b + bdA2 d + 64
    let s := gm.2.stkWrite o ((leBytes 8 v ++ List.replicate 56 0).map fun x => (x, pois))
    s.runEnd st e (runStatus (s.hitsFailed o 64) pois) 0

/-- SCAN (R365, R366). -/
def execScan (st e : Nat) (s : State) : Res := match s.engRunKind st e 3 with
  | some d => .next (s.scanRun st e d)
  | none => .next s

end Sys2Proof.Machine
end

