-- ==== Sys2Proof/Machine/Checkpoint.lean ====
section
/-! DEFINITION. Checkpoint items: PACK and UNPACK (R439 to R445). -/

namespace Sys2Proof.Machine

/-! ## The item header (Table 14.7) -/

/-- ITEM. -/
def ciItem (h : List Nat) : Nat := le h 3 1
/-- FMT. -/
def ciFmt (h : List Nat) : Nat := bitsOf (le h 4 1) 0 4
/-- NDIM. -/
def ciNdim (h : List Nat) : Nat := le h 5 1
/-- NELEM. -/
def ciNelem (h : List Nat) : Nat := le h 16 8
/-- BYTES. -/
def ciBytes (h : List Nat) : Nat := le h 24 8
/-- A four-dimensional field: SHAPE at 32, START at 64, COUNT at 96. -/
def ciVec (h : List Nat) (o : Nat) : List Nat := (List.range 4).map fun i => le h (o + 8 * i) 8
/-- SHARD. -/
def ciShard (h : List Nat) : Nat := le h 144 2

/-- Elements of a box. -/
def boxSize (n : Nat) (cnt : List Nat) : Nat := (cnt.take n).foldl (· * ·) 1

/-- Bytes of an element array, and of the scale array, of a format. -/
def elemArray (fmt n : Nat) : Nat := n * elemBits fmt / 8
/-- Scale bytes. -/
def scaleArray (fmt n : Nat) : Nat := if isMX fmt then n / 32 else 0

/-- BYTES of an item: the element array, and for MX formats the scale array from the next 64-byte boundary; a multiple of 64. -/
def itemBytes (fmt n : Nat) : Nat := ceilDiv (elemArray fmt n) 64 * 64 + ceilDiv (scaleArray fmt n) 64 * 64

/-- A box lies in a shape; with MX, its last dimension starts and extends by multiples of 32. -/
def boxOk (n : Nat) (shape start cnt : List Nat) (mx : Bool) : Bool :=
  ((List.range n).all fun i => decide (nth 0 start i + nth 0 cnt i ≤ nth 0 shape i))
    && !(mx && (nth 0 start (n - 1) % 32 != 0 || nth 0 cnt (n - 1) % 32 != 0))

/-- NDIM, or a reserved field of a header, or a dimension beyond NDIM that is not 0. -/
def ciFieldsBad (h : List Nat) (template : Bool) : Bool :=
  ciNdim h == 0 || decide (4 < ciNdim h) || bitsOf (le h 4 1) 4 4 != 0 || nz h 6 2 || decide (2 ^ 20 ≤ le h 8 4) || nz h 146 46
    || ((ciVec h 32).any fun x => decide (2 ^ 44 ≤ x))
    || ((List.range 4).any fun i => decide (ciNdim h ≤ i) && (nth 0 (ciVec h 32) i != 0 || nth 0 (ciVec h 64) i != 0 || nth 0 (ciVec h 96) i != 0))
    || (!template && nz h 136 10)

/-- Source format of an item (Table 14.8), when it has one. -/
def itemSrc (item fmt : Nat) : Option Nat :=
  if item = 1 ∨ item = 6 then some 0
  else if item = 2 ∨ item = 3 ∨ item = 7 then some 1
  else if item = 4 ∨ item = 5 then some 0xC
  else if item = 8 then (if fmt = 1 then some 1 else some 0xC)
  else none

/-- A stored format an item may have (Table 14.8). -/
def itemFmtOk (item fmt : Nat) : Bool := match itemSrc item fmt with
  | some src => fmt == src || (fmt == 0xC && (item == 2 || item == 3 || item == 8))
  | none => false

/-! ## PACK (R440) -/

/-- The source format of a PACK: for the outer momentum, BF16 when LEN is that of BF16. -/
def packSrc (h : List Nat) (len : Nat) : Option Nat :=
  let n := boxSize (ciNdim h) (ciVec h 96)
  if ciItem h = 8 then (if len = 2 * n then some 1 else some 0xC) else itemSrc (ciItem h) 0

/-- PACK narrows. -/
def packNarrow (src fmt : Nat) : Bool := src == 1 && fmt == 0xC

/-- MAGIC or VER of a header is wrong. -/
def ciHeadBad (h : List Nat) : Bool := le h 0 2 != 0x4B43 || le h 2 1 != 1

/-- NDIM is 1 to 4, so that the header names a box. -/
def ciDims (h : List Nat) : Bool := decide (1 ≤ ciNdim h) && decide (ciNdim h ≤ 4)

/-- The PROG codes of a PACK that hold (Table 14.11). -/
def packFault (h : List Nat) (fmt len : Nat) (narrow : Bool) : List Nat :=
  let n := boxSize (ciNdim h) (ciVec h 96)
  match packSrc h len with
  | none => codesOf [(ciItem h != 9 || ciHeadBad h, 0x21), (ciItem h == 9, 0x22)]
  | some src =>
    let nar := packNarrow src fmt
    codesOf
      [(ciHeadBad h || ciFieldsBad h true || decide (4096 ≤ ciShard h) || len != elemArray src n, 0x21), (src != fmt && !nar, 0x23),
        (ciDims h && !boxOk (ciNdim h) (ciVec h 32) (ciVec h 64) (ciVec h 96) (isMX fmt || isMX src), 0x24),
        (nar && (!narrow || (ciItem h != 2 && ciItem h != 3 && ciItem h != 8)), 0x26)]

/-- The header PACK writes: NELEM, BYTES, STEP and the stage word filled in; SCALES and SHARD belong to the template only. -/
def packHeader (h : List Nat) (fmt n step stage : Nat) : List Nat :=
  (h.take 4) ++ [fmt] ++ ((h.drop 5).take 7) ++ leBytes 4 step ++ leBytes 8 n ++ leBytes 8 (itemBytes fmt n)
    ++ ((h.drop 32).take 96) ++ leBytes 8 stage ++ List.replicate 56 0

/-- BF16 bytes narrowed to MXINT8 (R96): element bytes, scale bytes, flushes. A poisoned element poisons its block. -/
def narrowBlocks (bs : List (Nat × Bool)) : List ((List (Nat × Bool) × (Nat × Bool)) × Nat) :=
  (runs 64 (bs.length / 64 + 1) bs).map fun blk =>
    if anyPois blk then (((List.range 32).map fun _ => (0, true), (0, true)), 0)
    else
      let b := encodeMX 0xC ((wordsOf 2 32 blk).map bv) []
      ((b.elems.map fun x => (x, false), (b.sc, false)), b.flushes)

/-- Pad bytes with zeros to a multiple of 64. -/
def pad64 (bs : List (Nat × Bool)) : List (Nat × Bool) := bs ++ List.replicate (ceilDiv bs.length 64 * 64 - bs.length) (0, false)

/-- Run PACK. -/
def State.packRun (s : State) (st e : Nat) (d : List Nat) : State :=
  let b := stackBase st
  let t := s.stkRead (b + bdA2 d) 192
  let h := t.1.map (·.1)
  let s := t.2
  let fmt := bdFmt d
  if anyPois t.1 then s.engEnd st e bsProg 8
  else
    let f := packFault h fmt (bdLen d) (s.flag GCKCFG_NARROW)
    if f ≠ [] then s.freshen.engEnd st e bsProg (s.oneOf f)
    else
      let n := boxSize (ciNdim h) (ciVec h 96)
      let src := (packSrc h (bdLen d)).getD 0
      let nar := packNarrow src fmt
      let sc := le h 136 8
      let own := isMX src
      if own && sc % 64 != 0 then s.engEnd st e bsAlign 0
      else if (own && !s.inTop st sc (n / 32)) || !s.inTop st (bdA1 d) (192 + itemBytes fmt n) then s.engEnd st e bsAddr 0
      else
        let r := s.stkRead (b + bdA0 d) (bdLen d)
        let q := if own then r.2.stkRead (b + sc) (n / 32) else ([], r.2)
        let blocks := if nar then narrowBlocks r.1 else []
        let elems := if nar then blocks.flatMap fun x => x.1.1 else r.1
        let scales := if nar then blocks.map fun x => x.1.2 else q.1
        let s := q.2.each blocks fun s x => s.bblk st x.2
        let stage := (s.reg (aSSTAGE st (ciShard h))).toNat
        let hdr := packHeader h fmt n (stage % 2 ^ 32) stage
        let out := (hdr.map fun x => (x, false)) ++ pad64 elems ++ pad64 scales
        let s := s.stkWrite (b + bdA1 d) out
        s.engEnd st e (runStatus (s.hitsFailed (b + bdA1 d) out.length) (anyPois (r.1 ++ q.1))) 0

/-- PACK (R440, R444). -/
def execPack (st e : Nat) (s : State) : Res := match s.engRun st e 5 with
  | some d => .next (s.packRun st e d)
  | none => .next s

/-! ## UNPACK (R443) -/

/-- The PROG codes of an UNPACK that hold (Table 14.11). h is the item's header, a the argument block. -/
def unpackFault (h a : List Nat) : List Nat :=
  let n := ciNdim h
  let df := bitsOf (le a 24 1) 0 4
  let fl := le a 25 1
  let sf := ciFmt h
  let ts := ciVec a 32
  let tc := ciVec a 64
  let rsv := ciHeadBad h || bitsOf (le a 24 1) 4 4 != 0 || decide (4 ≤ fl) || nz a 28 4 || nz a 104 24 || decide (4096 ≤ le a 26 2)
  if ciItem h = 9 then codesOf [(rsv, 0x21), (true, 0x22)]
  else
    codesOf
      [(rsv || ciFieldsBad h false || (itemSrc (ciItem h) sf).isNone || boxSize n (ciVec h 96) != ciNelem h
          || ciBytes h != itemBytes sf (ciNelem h), 0x21),
        (ciDims h && ((List.range 4).any fun i => decide (n ≤ i) && (nth 0 ts i != 0 || nth 0 tc i != 0)), 0x22),
        (!itemFmtOk (ciItem h) sf || (sf != df && !(sf == 0xC && df == 1)) || (bitOf fl 1 && ciItem h != 1), 0x23),
        (ciDims h && (!boxOk n (ciVec h 32) (ciVec h 64) (ciVec h 96) (isMX sf || isMX df) || !boxOk n (ciVec h 32) ts tc (isMX sf || isMX df)), 0x24),
        (ciDims h && bitOf fl 0 && ((ciVec h 64).take n != ts.take n || (ciVec h 96).take n != tc.take n), 0x25)]

/-- Coordinates of element i of a box of n dimensions, dimension 0 outermost. -/
def boxCoord (n : Nat) (start cnt : List Nat) (i : Nat) : List Nat :=
  (List.range n).map fun k => nth 0 start k + i / boxSize (n - 1 - k) (cnt.drop (k + 1)) % max 1 (nth 0 cnt k)

/-- Row-major index of coordinates in a box, when they lie in it. -/
def boxIndex (n : Nat) (start cnt xs : List Nat) : Option Nat :=
  if (List.range n).all fun k => decide (nth 0 start k ≤ nth 0 xs k) && decide (nth 0 xs k < nth 0 start k + nth 0 cnt k) then
    some ((List.range n).foldl (fun acc k => acc * nth 0 cnt k + (nth 0 xs k - nth 0 start k)) 0)
  else none

/-- The elements moved: index in the item, index in the target. -/
def unpackPairs (h a : List Nat) : List (Nat × Nat) :=
  let n := ciNdim h
  (List.range (ciNelem h)).filterMap fun i =>
    (boxIndex n (ciVec a 32) (ciVec a 64) (boxCoord n (ciVec h 64) (ciVec h 96) i)).map fun j => (i, j)

/-- Replace element j of w bytes in a byte list. -/
def putElem (bs : List (Nat × Bool)) (w j : Nat) (v : List (Nat × Bool)) : List (Nat × Bool) :=
  bs.take (w * j) ++ v ++ bs.drop (w * j + w)

/-- Element i of w bytes. -/
def getElem (bs : List (Nat × Bool)) (w i : Nat) : List (Nat × Bool) := (bs.drop (w * i)).take w

/-- The target's new bytes: moved elements replaced, the others kept. -/
def putElems (old : List (Nat × Bool)) (w : Nat) (ps : List (Nat × List (Nat × Bool))) : List (Nat × Bool) :=
  ps.foldl (fun bs p => putElem bs w p.1 p.2) old

/-- A target array in the stack: read, changed, written back where it changed; granule by granule so that others keep their
bytes. -/
def State.targetWrite (s : State) (d n w : Nat) (ps : List (Nat × List (Nat × Bool))) : State :=
  if ps.isEmpty then s
  else
    let len := ceilDiv (n * w) 64 * 64
    let r := s.stkRead d len
    let new := putElems r.1 w ps
    let touched := fun (g : Nat) => ps.any fun p => decide (p.1 * w < 64 * (g + 1)) && decide (64 * g < p.1 * w + w)
    r.2.each ((List.range (len / 64)).filter touched) fun s g => s.stkWrite (d + 64 * g) ((new.drop (64 * g)).take 64)

/-- Run UNPACK. -/
def State.unpackRun (s : State) (st e : Nat) (d : List Nat) : State :=
  let b := stackBase st
  let t := s.stkRead (b + bdA2 d) 128
  let a := t.1.map (·.1)
  let s := t.2
  let io := le a 0 8
  if anyPois t.1 then s.engEnd st e bsProg 8
  else if !s.inTop st io 192 then s.engEnd st e bsAddr 0
  else
    let t := s.stkRead (b + io) 192
    let h := t.1.map (·.1)
    let s := t.2
    let fl := le a 25 1
    let df := bitsOf (le a 24 1) 0 4
    let sf := ciFmt h
    if anyPois t.1 then s.engEnd st e bsProg 8
    else if io % 64 ≠ 0 ∨ le a 8 8 % 64 ≠ 0 ∨ le a 16 8 % 64 ≠ 0 ∨ (bitOf fl 1 ∧ le a 96 8 % 64 ≠ 0) then s.engEnd st e bsAlign 0
    else if unpackFault h a ≠ [] then s.freshen.engEnd st e bsProg (s.oneOf (unpackFault h a))
    else
      let n := ciNelem h
      let tn := boxSize (ciNdim h) (ciVec a 64)
      if !s.inTop st io (192 + ciBytes h) || !s.inTop st (le a 8 8) (ceilDiv (elemArray df tn) 64 * 64)
          || (isMX df && !s.inTop st (le a 16 8) (ceilDiv (tn / 32) 64 * 64)) || (bitOf fl 1 && !s.inTop st (le a 96 8) (ceilDiv (2 * tn) 64 * 64)) then
        s.engEnd st e bsAddr 0
      else
        let el := s.stkRead (b + io + 192) (elemArray sf n)
        let sc := el.2.stkRead (b + io + 192 + ceilDiv (elemArray sf n) 64 * 64) (scaleArray sf n)
        let ps := unpackPairs h a
        let sw := elemBits sf / 8
        let dw := elemBits df / 8
        let conv := fun (i : Nat) =>
          let v := getElem el.1 sw i
          let x := getElem sc.1 1 (i / 32)
          if sf = df then v else asBytes 2 (toBf16 (decodeElem 0xC (valOf v) (valOf x))) (anyPois (v ++ x))
        let s := sc.2.targetWrite (b + le a 8 8) tn dw (ps.map fun p => (p.2, conv p.1))
        let s := if isMX df then
            s.targetWrite (b + le a 16 8) (tn / 32) 1 ((ps.filter fun p => p.2 % 32 == 0).map fun p => (p.2 / 32, getElem sc.1 1 (p.1 / 32)))
          else s
        let s := if bitOf fl 1 then
            s.targetWrite (b + le a 96 8) tn 2 (ps.map fun p =>
              let v := getElem el.1 4 p.1
              (p.2, asBytes 2 (toBf16 (fv (valOf v))) (anyPois v)))
          else s
        let s := if bitOf fl 0 then s.stagePut st (le a 26 2 % 4096) (2 ^ 64 - 1) (le h 128 8) else s
        let media := s.hitsFailed (b + le a 8 8) (elemArray df tn) || (isMX df && s.hitsFailed (b + le a 16 8) (tn / 32))
          || (bitOf fl 1 && s.hitsFailed (b + le a 96 8) (2 * tn))
        s.engEnd st e (runStatus media (anyPois (el.1 ++ sc.1))) 0

/-- UNPACK (R443, R444). -/
def execUnpack (st e : Nat) (s : State) : Res := match s.engRunKind st e 0x20 with
  | some d => .next (s.unpackRun st e d)
  | none => .next s

end Sys2Proof.Machine
end

