-- ==== Sys2Proof/Machine/Publish.lean ====
section
/-! DEFINITION. Publication: quantising a source matrix into stationary blocks in tile banks (R386 to R389). -/

namespace Sys2Proof.Machine

/-- KDIM. -/
def pbKdim (L : List Nat) : Nat := le L 4 4
/-- NDIM. -/
def pbNdim (L : List Nat) : Nat := le L 8 4
/-- SSTRIDE. -/
def pbStride (L : List Nat) : Nat := le L 12 4
/-- Bytes of a source element. -/
def pbEsz (L : List Nat) : Nat := if bitsOf (le L 0 1) 0 4 = 0 then 4 else 2
/-- SCALE. -/
def pbScale (L : List Nat) : Nat := le L 32 8

/-- Row bytes of a published block (Table 2.4). -/
def pbRow (fmt : Nat) : Nat := if fmt = 0xA then 32 else 16
/-- Bytes of a block with its scale row. -/
def pbSize (fmt : Nat) (L : List Nat) : Nat := pubKp fmt L * pbRow fmt + (if fmt = 9 then 64 else 0)

/-- A reserved field of the layout block is set. -/
def pbReserved (L : List Nat) : Bool := bitsOf (le L 0 1) 4 4 != 0 || decide (2 ≤ le L 1 1) || nz L 2 2 || nz L 40 24

/-- The layout breaks R386. -/
def pbBroken (fmt len : Nat) (L : List Nat) : Bool :=
  !(fmt == 9 || fmt == 0xA || fmt == 0xB) || decide (2 ≤ bitsOf (le L 0 1) 0 4) || len != pbKdim L * pbStride L
    || pbKdim L % pubKp fmt L != 0 || pbNdim L % 32 != 0 || decide (pbStride L < pbNdim L * pbEsz L) || pbStride L % 64 != 0
    || le L 24 4 % 64 != 0 || le L 28 4 % 64 != 0 || decide (le L 28 4 < pbSize fmt L) || (le L 20 4 == 0)
    || (fmt == 9 && pbScale L != 0)

/-- Tile and bank offset of block j (R387). -/
def pbPlace (L : List Nat) (j : Nat) : Nat × Nat :=
  let bpt := max 1 (le L 20 4)
  (le L 16 2 + j / bpt * le L 18 2, le L 24 4 + j % bpt * le L 28 4)

/-- Every block's bytes are bank bytes a write reaches, in a tile of the engine's partition. -/
def State.pbPlacesOk (s : State) (st e fmt : Nat) (L : List Nat) : Bool :=
  (List.range (pubBlocks fmt L)).all fun j =>
    let p := pbPlace L j
    s.engTile st e p.1 && decide (p.2 + pbSize fmt L ≤ 0x200000) && s.isMem (tileBase p.1 + p.2) (pbSize fmt L)
      && !s.refusesWrite (tileBase p.1)

/-- The scales' destination: own device; a tile of the partition, or the engine's own stack. -/
def State.pbScaleOk (s : State) (st e : Nat) (L : List Nat) : Bool :=
  let d := addrDev (pbScale L)
  let n := 4 * pbNdim L
  s.isLocal (pbScale L) && s.isMem d n && !s.refusesWrite d &&
    (if d < 0x8000000000 then inStack st d else s.engTile st e ((d - tileBase 0) / 0x400000))

/-- The source: rows of element words with their poison. -/
def State.pbSource (s : State) (st a0 : Nat) (L : List Nat) : Nat → List (List (Nat × Bool)) × State
  | 0 => ([], s)
  | k + 1 =>
    let q := s.pbSource st a0 L k
    let r := q.2.stkRead (stackBase st + a0 + k * pbStride L) (pbNdim L * pbEsz L)
    (q.1 ++ [splitElems (8 * pbEsz L) (pbNdim L) r.1], r.2)

/-- Value of a source element. -/
def pbVal (L : List Nat) (x : Nat) : Val := if pbEsz L = 4 then fv x else bv x

/-- Scale of a column and its codes (R388): a poisoned column is poisoned whole. k numbers the free values within ±Q that stand
where the scale itself rounds to zero. -/
def pbColumn (L : List Nat) (fmt k : Nat) (col : List (Nat × Bool)) : (Nat × Bool) × List (Nat × Bool) :=
  let q := if fmt = 0xA then 127 else 7
  let w := if fmt = 0xA then 8 else 4
  if anyPois col then ((0, true), col.map fun _ => (0, true))
  else
    let a := col.foldl (fun a x => maxAbs a (pbVal L x.1)) Val.zero
    if a.isZero then ((0, false), col.map fun _ => (0, false))
    else
      let sc := fl (a.div (.fin false q 0))
      let code := fun (x : (Nat × Bool) × Nat) =>
        match (pbVal L x.1.1).div (fv sc) with
        | .fin n m e => (ofIntW w (max (-(q : Int)) (min q (roundInt n m e .rne))), false)
        | _ => (ofIntW w (((Config.freeByte k x.2).toNat % (2 * q + 1) : Nat) - (q : Int)), false)
      ((sc, false), (col.zipIdx).map code)

/-- One 32-row group of a column as MXFP4 (R389): scale and codes, and its block flushes. -/
def pbGroup (L : List Nat) (xs : List (Nat × Bool)) : ((Nat × Bool) × List (Nat × Bool)) × Nat :=
  if anyPois xs then (((0, true), xs.map fun _ => (0, true)), 0)
  else
    let b := encodeMX 9 (xs.map fun x => pbVal L x.1) []
    (((b.sc, false), b.elems.map fun x => (x, false)), b.flushes)

/-- What is published: codes by column and row, FP32 column scales or E8M0 scales by column and 32-row group, flushes. -/
structure Published where
  codes : List (List (Nat × Bool))
  scales : List (List (Nat × Bool))
  flushes : List Nat
  deriving DecidableEq, Repr

/-- Quantise every column. -/
def publish (fmt k : Nat) (L : List Nat) (rows : List (List (Nat × Bool))) : Published :=
  let cols := (List.range (pbNdim L)).map fun n => rows.map fun r => nth (0, false) r n
  if fmt = 9 then
    let gs := cols.map fun c => (runs 32 (c.length / 32 + 1) c).map (pbGroup L)
    ⟨gs.map fun c => c.flatMap fun g => g.1.2, gs.map fun c => c.map fun g => g.1.1, gs.flatMap fun c => c.map (·.2)⟩
  else
    let cs := (cols.zipIdx).map fun c => pbColumn L fmt (k + c.2) c.1
    ⟨cs.map (·.2), cs.map fun c => [c.1], []⟩

/-- Bytes of block (kb, nb) in the form of Table 2.4. -/
def Published.block (p : Published) (fmt : Nat) (L : List Nat) (kb nb : Nat) : List (Nat × Bool) :=
  let kp := pubKp fmt L
  let at_ := fun (k n : Nat) => nth (0, false) (nth [] p.codes (32 * nb + n)) (kb * kp + k)
  let row := fun (k : Nat) => packElems (if fmt = 0xA then 8 else 4) ((List.range 32).map fun n => at_ k n)
  let body := (List.range kp).flatMap row
  if fmt = 9 then
    body ++ ((List.range 2).flatMap fun g => (List.range 32).map fun n => nth (0, false) (nth [] p.scales (32 * nb + n)) (2 * kb + g))
  else body

/-- Write every block, then the scales. -/
def State.pbWrite (s : State) (st fmt : Nat) (L : List Nat) (p : Published) : State :=
  let kB := pbKdim L / pubKp fmt L
  let s := s.each (List.range (pubBlocks fmt L)) fun s j =>
    let q := pbPlace L j
    s.memWrite (tileBase q.1 + q.2) (p.block fmt L (j % max 1 kB) (j / max 1 kB))
  let s := s.each p.flushes fun s n => s.bblk st n
  if fmt = 9 then s
  else s.memWrite (addrDev (pbScale L)) (p.scales.flatMap fun c => c.flatMap fun x => asBytes 4 x.1 x.2)

/-- Run PUBLISH. -/
def State.publishRun (s : State) (st e : Nat) (d : List Nat) : State :=
  let fmt := bdFmt d
  let l := s.stkRead (stackBase st + bdA2 d) 64
  let L := l.1.map (·.1)
  let s := l.2
  if anyPois l.1 then s.engEnd st e bsProg 8
  else if pbReserved L || pbBroken fmt (bdLen d) L then
    s.freshen.engEnd st e bsProg (s.oneOf (codesOf [(pbReserved L, 2), (pbBroken fmt (bdLen d) L, 0x11)]))
  else if fmt ≠ 9 ∧ addrDev (pbScale L) < 0x8000000000 ∧ pbScale L % 64 ≠ 0 then s.engEnd st e bsAlign 0
  else if !s.pubTargetOk st e d L || !s.pbPlacesOk st e fmt L || (fmt != 9 && !s.pbScaleOk st e L) then s.engEnd st e bsAddr 0
  else
    let r := s.pbSource st (bdA0 d) L (pbKdim L)
    let s := r.2
    if r.1.any fun row => row.any fun x => !x.2 && (pbVal L x.1).nonFinite then s.engEnd st e bsProg 0x12
    else
      let p := publish fmt s.fresh L r.1
      let s := { s with fresh := s.fresh + pbNdim L }.pbWrite st fmt L p
      let media := fmt != 9 && decide (addrDev (pbScale L) < 0x8000000000) && s.hitsFailed (addrDev (pbScale L)) (4 * pbNdim L)
      s.engEnd st e (runStatus media (r.1.any anyPois)) 0

/-- PUBLISH (R386 to R389). -/
def execPublish (st e : Nat) (s : State) : Res := match s.engRun st e 4 with
  | some d => .next (s.publishRun st e d)
  | none => .next s

end Sys2Proof.Machine
end

