-- ==== Sys2Proof/Machine/EngineStop.lean ====
section
/-! DEFINITION. Stopping a bindery engine: BECTL.ABORT, and a reset during a descriptor (R242, R375, R447, Table 7.6). -/

namespace Sys2Proof.Machine

/-- Of the memory writes that lead from s to u, a free subset, by half-granules of 32 bytes (Table 7.6, ABORT: any subset made). -/
def State.someOf (s u : State) : State :=
  let made := fun (a : Nat) => Config.subset s.fresh (a / 32)
  let s' := { s with
    fresh := s.fresh + 1
    stk := SMap.mix (fun _ => 0) made s.stk u.stk
    stkMark := SMap.mix (fun _ => 0) (fun k => made (32 * k)) s.stkMark u.stkMark }
  s'.each (u.tiles.filter fun x => x.2 != s.tile x.1) fun s' x =>
    s'.modTile x.1 fun y => { x.2 with bank := SMap.mix (fun _ => none) (fun o => made (tileBase x.1 + o)) y.bank x.2.bank }

/-- Where the running descriptor of an engine, of an operation that runs in one piece, would have led. -/
def State.engWhole (s : State) (st e : Nat) : Option State :=
  match s.engRun st e 2, s.engRun st e 3, s.engRun st e 4, s.engRun st e 5, s.engRunKind st e 0x20 with
  | some d, _, _, _, _ => some (s.copyRun st e d)
  | _, some d, _, _, _ => some (s.fillRun st e d)
  | _, _, some d, _, _ => some (s.publishRun st e d)
  | _, _, _, some d, _ => some (s.packRun st e d)
  | _, _, _, _, some d => some (s.unpackRun st e d)
  | _, _, _, _, _ => none

/-- The descriptor in progress ends with ABORT. COPY, FILL, PUBLISH, PACK and UNPACK may have made any subset of their writes; a RUN that works
in chunks or fragments stops between two (R375, R401). -/
def State.engStop (s : State) (st e : Nat) : State := match (s.engine st e).stage with
  | .waitSem => s.engEnd st e bsAbort 0
  | .running => (match s.engWhole st e with
    | some u => s.someOf u
    | none => s).engEnd st e bsAbort 0
  | _ => s

/-- A write of BECTL.ABORT (R242): the descriptor in progress ends with ABORT, every later one up to PI will; stage writes that waited for it
take effect. -/
def State.engAbort (s : State) (st e : Nat) : State :=
  let s := s.engStop st e
  let pi := s.fld (BQPTR_PI st e)
  (s.modEngine st e fun x => { x with abortTo := if s.fld (BQPTR_CI st e) = pi then none else some pi }).stageSettle

/-- BINDERY_ABORT (R242, R375). -/
def execBinderyAbort (st e : Nat) (s : State) : Res :=
  .next (if st < 8 ∧ e < 8 then s.engAbort st e else s)

end Sys2Proof.Machine
end

