-- ==== Sys2Proof/Machine/Keys.lean ====
section
/-! DEFINITION. The keyed-check engine: key blobs, key slots and tags (R507 to R510). -/

namespace Sys2Proof.Machine

/-- Key uses (Table 16.14): image check, remote reset, far exchange. -/
def useImage : Nat := 0
/-- Table 16.14. -/
def useReset : Nat := 1
/-- Table 16.14. -/
def useFar : Nat := 2

/-- The root key's bytes. -/
def rootBytes : List Nat := leBytes 32 Config.rootKey.toNat

/-- Unwrap a blob and check it (R508): the slot's contents, or the code of the first check that fails. -/
def openBlob (blob : List Nat) : Except Nat KeySlot :=
  match kwUnwrap rootBytes blob with
  | none => .error 1
  | some pt =>
    if le pt 33 1 ≠ 1 ∨ bitsOf (le pt 32 1) 3 5 ≠ 0 ∨ nz pt 34 6 then .error 2
    else if le pt 40 8 ≠ 0 ∧ le pt 40 8 ≠ Config.serial.toNat then .error 3
    else .ok ⟨pt.take 32, bitsOf (le pt 32 1) 0 3⟩

/-- A slot's contents. -/
def State.keySlot (s : State) (n : Nat) : Option KeySlot := SMap.get (fun _ => none) s.keys n

/-- Replace a slot, and show it in KSLOTn; src 0 from the image, 1 through KLDCTL. -/
def State.setKey (s : State) (n : Nat) (k : Option KeySlot) (src : Nat) : State :=
  let s := { s with keys := SMap.set (fun _ => none) s.keys n k }
  match k with
  | some k => ((s.setFld (KSLOT_LOADED n) 1).setFld (KSLOT_USE n) k.use).setFld (KSLOT_SRC n) src
  | none => ((s.setFld (KSLOT_LOADED n) 0).setFld (KSLOT_USE n) 0).setFld (KSLOT_SRC n) 0

/-- Load a blob from the image into a slot (R493): one that fails leaves its slot empty and is logged; KSTAT.RES shows the last load, as one
through KLDCTL does (R508). -/
def State.imageKey (s : State) (n : Nat) (blob : List Nat) : State :=
  match openBlob blob with
  | .ok k => (s.setFld KSTAT_RES 0).setKey n (some k) 0
  | .error c => (s.setFld KSTAT_RES c).primReport 0xA4 1 0 (n + 32 * c)

/-- The key of a slot that carries a use (R509). -/
def State.keyFor (s : State) (n use : Nat) : Option (List Nat) := match s.keySlot n with
  | some k => if bitOf k.use use then some k.key else none
  | none => none

/-- A write of KLDCTL with GO = 1: refused while a load is in progress. -/
def State.keyGo (s : State) (n : Nat) : State :=
  let s := s.setFld KLDCTL_SLOT n
  if s.keyLoad.isSome then s.setFld KSTAT_RES 5
  else { s.setFld KSTAT_BUSY 1 with keyLoad := some (n, s.fld KLDADDR_ADDR) }

/-- A write of KLDCTL with CLR = 1. -/
def State.keyClr (s : State) (n : Nat) : State := (s.setFld KLDCTL_SLOT n).setKey n none 0

/-- KEY_LOAD (R508): context c asks for slot n to be loaded. -/
def execKeyLoad (c n : Nat) (s : State) : Res := .next (if s.pfOrFw c then s.keyGo (n % 32) else s.refuse aKLDCTL c)

/-- KEY_CLEAR (R508). -/
def execKeyClear (c n : Nat) (s : State) : Res := .next (if s.pfOrFw c then s.keyClr (n % 32) else s.refuse aKLDCTL c)

/-- A load ends with a code; only a load that passes every check replaces the slot. -/
def State.keyEnd (s : State) (n : Nat) (r : Except Nat KeySlot) : State :=
  let s := { s.setFld KSTAT_BUSY 0 with keyLoad := none }
  match r with
  | .ok k => ((s.setFld KSTAT_RES 0).setKey n (some k) 1).primReport 0xA7 0 0 n
  | .error c => (s.setFld KSTAT_RES c).primReport 0xA4 1 0 (n + 32 * c)

/-- KEY_LOAD_DONE (R508): the blob is read and judged; a read that faults or meets poison gives code 4. -/
def execKeyLoadDone (s : State) : Res :=
  match s.keyLoad with
  | none => .next s
  | some (n, a) =>
    let d := addrDev a
    if !s.isLocal a || !s.isMem d 56 then .next (s.keyEnd n (.error 4))
    else
      let r := s.memRead d 56 uExternal
      .next (r.2.keyEnd n (if anyPois r.1 then .error 4 else openBlob (r.1.map (·.1))))

end Sys2Proof.Machine
end

