-- ==== Sys2Proof/Machine/Image.lean ====
section
/-! DEFINITION. The configuration image: its layout, its checks, and the settings it gives (R481 to R494, R34, R538). -/

namespace Sys2Proof.Machine

/-- A byte of the flash; one never programmed is erased and reads 0xFF (PRESUMED: NOR flash). -/
def State.flashByte (s : State) (a : Nat) : Nat := (SMap.get (fun _ => 0xFF) s.flash a : BitVec 8).toNat

/-- First flash byte of slot k (R481). -/
def slotBase (k : Nat) : Nat := k * 0x04000000

/-- n bytes of slot k from an offset. -/
def State.slotBytes (s : State) (k o n : Nat) : List Nat := (List.range n).map fun i => s.flashByte (slotBase k + o + i)

/-! ## Records (R487, Table 16.4) -/

/-- A record: its type, its payload, its index in the body. -/
structure Rec where
  typ : Nat
  pay : List Nat
  idx : Nat
  deriving DecidableEq, Repr

/-- LEN of a type of fixed length, and the first version that allows it. -/
def recLen : Nat → Option (Nat × Nat)
  | 0x0001 => some (24, 1)
  | 0x0002 => some (16, 1)
  | 0x0003 => some (184, 1)
  | 0x0004 => some (80, 1)
  | 0x0006 => some (72, 1)
  | 0x0007 => some (8, 1)
  | 0x0008 => some (8, 1)
  | 0x0009 => some (16, 1)
  | 0x000A => some (16, 1)
  | 0x000B => some (40, 2)
  | 0x000C => some (64, 2)
  | _ => none

/-- Parameter identifiers of Tables 16.8 and 17.9: range and default. -/
def paramRange : Nat → Option (Nat × Nat × Nat)
  | 0x0001 => some (1000, 60000000, 1000000)
  | 0x0002 => some (0, 31, 0xFF)
  | 0x0100 => some (0, 1, 0)
  | 0x0101 => some (1500, 2600, 2600)
  | 0x0102 => some (2600, 3400, 3400)
  | 0x0103 => some (20, 200, 200)
  | 0x0104 => some (90, 105, 105)
  | 0x0105 => some (1000, 50000, 5000)
  | _ => none

/-- KINDs of program slots that some chapter defines (Tables 12.5 and 13.6, R443). -/
def slotKinds : List Nat := [1, 2, 3, 0x10, 0x11, 0x20]

/-- A record breaks the structure of its type (check 9): reserved bytes set, an identifier that names nothing, a reserved parameter,
a program slot KIND not allowed at this version. -/
def Rec.bad (ver : Nat) (r : Rec) : Bool :=
  let p := r.pay
  let b := fun (o : Nat) => le p o 1
  match r.typ with
  | 0x0001 => nz p 10 6
  | 0x0002 => nz p 2 6 || (paramRange (le p 0 2)).isNone
  | 0x0003 => decide (64 ≤ b 0) || b 3 != 0
  | 0x0004 => decide (512 ≤ le p 0 2) || b 3 / 16 != 0 || b 7 != 0 || nz p 72 8
  | 0x0006 => decide (8 ≤ b 0) || decide (64 ≤ b 1) || nz p 2 6 || (slotKinds.contains (b 8) && decide (3 < b 8) && ver == 1)
  | 0x0007 => decide (8 ≤ b 0) || decide (8 ≤ b 1) || nz p 3 5
  | 0x0008 => decide (8 ≤ b 0) || nz p 1 3
  | 0x0009 => nz p 1 3 || nz p 12 4
  | 0x000A => decide (8 ≤ b 0) || b 3 != 0 || nz p 14 2
  | 0x000B => decide (2 ≤ b 0) || b 9 / 16 != 0 || nz p 18 6
  | 0x000C => decide (32 ≤ b 0) || nz p 1 7
  | _ => false

/-- Read the records of a body up to END, which ends it; n bounds their count. None: the structure is broken. -/
def readRecs (ver : Nat) : Nat → Nat → List Nat → Option (List Rec)
  | 0, _, _ => none
  | n + 1, i, body =>
    let typ := le body 0 2
    let len := le body 4 4
    let pad := ceilDiv len 8 * 8
    if body.length < 8 + pad ∨ nz body 2 2 then none
    else if typ = 0xFFFF then (if len = 0 ∧ body.length = 8 then some [] else none)
    else
      let r : Rec := ⟨typ, (body.drop 8).take len, i⟩
      let okLen := match recLen typ with
        | some (l, v) => len == l && decide (v ≤ ver)
        | none => typ == 5 && decide (8 ≤ len)
      if !okLen || r.bad ver || nz (body.drop 8) len (pad - len) then none
      else (readRecs ver n (i + 1) (body.drop (8 + pad))).map (r :: ·)

/-! ## FIELD and TABLE records (R488, R489) -/

/-- lo to hi. -/
def rng (lo hi : Nat) : Nat → Bool := fun v => decide (lo ≤ v) && decide (v ≤ hi)
/-- −32 to 48, in the field's 8 bits or sign-extended to VALUE's 64. -/
def rngExp : Nat → Bool := fun v => decide (v ≤ 48) || (decide (224 ≤ v) && decide (v < 256)) || (decide (2 ^ 64 - 32 ≤ v) && decide (v < 2 ^ 64))
/-- Zero or a positive finite FP32 number. -/
def rngFp : Nat → Bool := rng 0 0x7F7FFFFF

/-- The fields a FIELD record may name, their ranges and their defaults. Table 6.4 permits GECCCFG.INC up to 16, for which Table 6.16's four
bits have no code: 16 is accepted and the field reads 0 for it (DESIGN CHOICE, log entry 91). -/
def fieldRules : List (Fld × (Nat → Bool) × Nat) :=
  [(FCFG_RANK, rng 0 65535, 0), (FCFG_MAXVER, rng 0 3, 3), (FCFG_HOPLIM, rng 1 63, 16), (FRDTO_LIMIT, rng 100 100000, 2000),
   (FCOLCFG_SIGTO, rng 100 1000000, 10000), (FCOLCFG_COLTO, rng 1000 10000000, 50000),
   (GLSCFG_INTERVAL, rng 100 100000, 2000), (GLSCFG_INIT, rngExp, 16), (GLSCALE_EXP, rngExp, 16),
   (GNRMCFG_CLIPN, rngFp, 0x3F800000), (GNRMCFG_MAXN, rngFp, 0x49800000),
   (GCKCFG_AUTO, rng 0 1, 0), (GCKCFG_NARROW, rng 0 1, 0), (GCKCFG_THERM, rng 85 104, 100), (GCKCFG_HOLDOFF, rng 1 3600, 60),
   (GCKTGT_TGT, rng 0 (2 ^ 64 - 1), 0), (GLEDCFG_LEDMAX, rng 0 1048576, 4096), (GLEDCTL_FAR, rng 0 1, 0),
   (GLEDBASE_OFFSET, fun v => decide (v < 2 ^ 36) && v % 65536 == 0, 0), (GLEDBASE_STACK, rng 0 7, 0), (GLEDBASE_SIZE, rng 0 (2 ^ 24 - 1), 0),
   (XCFG_SITE, rng 0 15, 0), (XCFG_STALE, rng 0 7, 2), (XCFG_MAXVER, rng 1 2, 2), (XCFG_KEYSLOT0, rng 0 31, 0),
   (XCFG_KEYSLOT1, rng 0 31, 0), (XCFG_QUORUM, rng 0 15, 15), (XCFG_FILL, rng 500 1000, 999), (XJOB_JOB, rng 0 (2 ^ 32 - 1), 0),
   (XTMO_DEADLINE, rng 1 3600000, 5000), (XTMO_HELLO, rng 100 60000, 1000), (XTMO_CATCHTO, rng 60 65535, 3600),
   (GCTL_DETM, rng 0 1, 0), (GSEED_SEED, rng 0 (2 ^ 64 - 1), 0), (FRSVCTL_RESERVE, rng 0 1, 0), (PCTL_EFF, rng 0 1, 0),
   (CWDOG_LIMIT, fun v => v == 0 || rng 100 600000 v, 0), (ARFP_FTZ0, rng 0 1, 0), (ARFP_SPILL, rng 0 31, 7)]
  ++ [0, 1].flatMap (fun i => [(GECCCFG_INC i, rng 1 16, 1), (GECCCFG_LEAK i, rng 1000 10000000, 100000), (GECCCFG_THRESH i, rng 4 65535, 64),
    (XPRATE_RATE i, rng 100 200000, 10000), (XPRATE_BURST i, rng 64 65536, 1024)])
  ++ (List.range 7).flatMap (fun n => [(XAREA_OFFSET n, fun v => decide (v < 2 ^ 36) && v % 4096 == 0, 0), (XAREA_STACK n, rng 0 7, 0),
    (XAREA_COUNT n, rng 0 (2 ^ 24 - 1), 0)])
  ++ (List.range 512).flatMap (fun c => [(HCTXSTAT_PART c, rng 0 63, 0), (HCTXSTAT_FW c, rng 0 1, 0), (HCTXSTAT_TRAIN c, rng 0 1, 0),
    (HCTXSTAT_IMPL c, rng 0 1, 0)])

/-- The rule of the field a FIELD payload names. -/
def fieldRule (p : List Nat) : Option (Fld × (Nat → Bool) × Nat) :=
  let f : Fld := ⟨le p 0 8, le p 8 1, le p 9 1⟩
  fieldRules.find? fun r => r.1 == f

/-- The windows a TABLE record may write (R489): first address and end. -/
def tableWindows : List (Nat × Nat) :=
  [(aFROUTE 0, aFROUTE 0 + 0x10000), (aFGROUP 0, aFGROUP 0 + 0x20000), (aFSTREAM 0, aFSTREAM 0 + 0x8000), (aXPART 0, aXPART 0 + 0x400)]

/-- A TABLE payload lies within one window. -/
def tableOk (p : List Nat) : Bool := tableWindows.any fun w => decide (w.1 ≤ le p 0 8) && decide (le p 0 8 + (p.length - 8) ≤ w.2)

/-! ## What records set (R491, Tables 16.5 to 16.8) -/

/-- A value, or its default. -/
def pick (ok : Bool) (v d : Nat) : Nat := if ok then v else d

/-- Offsets of the values that were out of range. -/
def outs (l : List (Nat × Bool)) : List Nat := (l.filter fun e => !e.2).map (·.1)

/-- Bits set in n bytes at an offset. -/
def bitList (p : List Nat) (o n : Nat) : List Nat := (List.range (8 * n)).filter fun i => bitOf (le p (o + i / 8) 1) (i % 8)

/-- A PARTITION payload (Table 16.5), and the offsets of values replaced. -/
def partOf (p : List Nat) : PartCfg × List Nat :=
  let scn := le p 1 1
  let dep := le p 2 1
  let q := le p 4 4
  let str := (List.range 8).map fun i => (24 + 16 * i, le p (24 + 16 * i) 8, le p (32 + 16 * i) 8)
  let okS := fun (e : Nat × Nat × Nat) => e.2.1 % 65536 == 0 && e.2.2 % 65536 == 0
  let used := str.filter fun e => e.2.2 != 0
  ({ scn := pick (rng 0 7 scn) scn 0, depth := pick (rng 0 16 dep) dep 4, quantum := pick (rng 50 100000 q) q 10000,
     blocks := bitList p 8 16,
     stkr := (used.filter okS).map (·.2),
     rankr := ((List.range 8).map fun i => (le p (152 + 4 * i) 2, le p (154 + 4 * i) 2)).filter fun e => decide (e.1 ≤ e.2) },
   outs ([(1, rng 0 7 scn), (2, rng 0 16 dep), (4, rng 50 100000 q)] ++ used.map fun e => (e.1, okS e)))

/-- A CONTEXT payload (Table 16.6). A start program is a firmware context's only. -/
def ctxOf (p : List Nat) : CtxCfg × List Nat :=
  let fl := le p 3 1
  let sp := le p 4 2
  let wt := le p 8 4
  let so := le p 12 8
  let st := le p 20 2
  let si := le p 22 2
  let okSp := rng 256 8192 sp && sp % 256 == 0
  let okSt := decide (st < 2048) || st == 0xFFFF
  let okSo := so % 65536 == 0
  ({ part := if le p 2 1 = 0xFF then none else some (le p 2 1), fw := bitOf fl 0, training := bitOf fl 1, implicit := bitOf fl 2,
     ftz := bitOf fl 3, spill := pick okSp sp 2048, saveMask := le p 6 1, waitTo := pick (rng 1000 10000000 wt) wt 100000,
     saveOff := pick okSo so 0, stile := if st < 2048 ∧ bitOf fl 0 then some st else none, sidx := pick (rng 0 8191 si) si 0,
     sprog := le p 24 8, groups := bitList p 32 32, streams := bitList p 64 8 },
   outs [(4, okSp), (8, rng 1000 10000000 wt), (12, okSo), (20, okSt), (22, rng 0 8191 si)])

/-- An MPORT payload (Table 16.7). -/
def mportOf (p : List Nat) : MPortCfg × List Nat :=
  let a := toIntW 32 (le p 4 4)
  let okA := decide (-16000 ≤ a) && decide (a ≤ 16000)
  ({ en := le p 1 1 == 1, chan := pick (rng 0 2 (le p 2 1)) (le p 2 1) 2, asym := if okA then a else 0,
     rwin := pick (rng 10 10000 (le p 8 4)) (le p 8 4) 1000, rthr := pick (rng 1 65535 (le p 12 2)) (le p 12 2) 100 },
   outs [(1, rng 0 1 (le p 1 1)), (2, rng 0 2 (le p 2 1)), (4, okA), (8, rng 10 10000 (le p 8 4)), (12, rng 1 65535 (le p 12 2))])

/-- An FPORT payload (Table 16.7). A multicast IPv6 address is out of range and becomes the unspecified one. -/
def fportOf (p : List Nat) : FPortCfg × List Nat :=
  let vl := le p 9 1
  let vid := le p 10 2
  let okV := !bitOf vl 0 || rng 1 4094 vid
  let ip := le p 24 16
  let okI := le p 24 1 != 0xFF
  ({ en := le p 1 1 == 1, ifc := pick (rng 0 1 (le p 2 1)) (le p 2 1) 0, hop := pick (rng 1 255 (le p 3 1)) (le p 3 1) 64,
     mtu := pick (rng 4352 9000 (le p 4 2)) (le p 4 2) 9000, udp := pick (rng 1024 65535 (le p 6 2)) (le p 6 2) 49700,
     dscp := pick (rng 0 63 (le p 8 1)) (le p 8 1) 0, vlan := vl, vid := pick okV vid 0, mac := le p 12 6, ip := pick okI ip 0 },
   outs [(1, rng 0 1 (le p 1 1)), (2, rng 0 1 (le p 2 1)), (3, rng 1 255 (le p 3 1)), (4, rng 4352 9000 (le p 4 2)),
     (6, rng 1024 65535 (le p 6 2)), (8, rng 0 63 (le p 8 1)), (10, okV), (24, okI)])

/-- Offsets replaced in a TIME payload. -/
def timeOuts (p : List Nat) : List Nat :=
  outs [(0, rng 0 1 (le p 0 1)), (4, rng 125 10000 (le p 4 4)), (8, rng 4 64 (le p 8 1)), (9, rng 2 16 (le p 9 1)), (10, rng 50 500 (le p 10 2))]

/-- Put a key and value into a map at key k, replacing. -/
def putKey {α : Type} (k : Nat) (v : α) (m : SMap α) : SMap α := SMap.ins k v (SMap.del m k)

/-- The image with a record's settings added. -/
def Image.addRec (im : Image) (r : Rec) : Image :=
  let p := r.pay
  let sub := fun (im : Image) (l : List Nat) => { im with subst := im.subst ++ l.map fun o => (r.idx, o) }
  match r.typ with
  | 0x0001 => match fieldRule p with
    | some (f, ok, d) =>
      let v := le p 16 8
      let e : FieldSet := ⟨f.addr, f.lo, f.w, pick (ok v) v d % 2 ^ f.w⟩
      let old := im.fields.filter fun x => !(x.addr == e.addr && x.lo == e.lo)
      sub { im with fields := old ++ [e] } (outs [(16, ok v)])
    | none => im
  | 0x0002 => match paramRange (le p 0 2) with
    | some (lo, hi, d) =>
      let v := le p 8 8
      let ok := rng lo hi v || (le p 0 2 == 2 && v == 0xFF)
      sub { im with params := putKey (le p 0 2) (pick ok v d) im.params } (outs [(8, ok)])
    | none => im
  | 0x0003 => sub { im with parts := putKey (le p 0 1) (partOf p).1 im.parts } (partOf p).2
  | 0x0004 => sub { im with ctxs := putKey (le p 0 2) (ctxOf p).1 im.ctxs } (ctxOf p).2
  | 0x0005 => { im with tables := im.tables ++ [(le p 0 8, p.drop 8)] }
  | 0x0006 => { im with slots := putKey (le p 0 1 * 64 + le p 1 1) (if slotKinds.contains (le p 8 1) then p.drop 8 else List.replicate 64 0) im.slots }
  | 0x0007 =>
    let o := le p 2 1
    let ok := decide (o < 64) || o == 0xFE || o == 0xFF
    sub (if decide (o < 64) || o == 0xFE then { im with engines := putKey (le p 0 1 * 8 + le p 1 1) o im.engines } else im) (outs [(2, ok)])
  | 0x0008 =>
    let k := le p 0 1
    { im with mapouts := putKey k (SMap.get (fun _ => 0) im.mapouts k ||| le p 4 4) im.mapouts }
  | 0x0009 =>
    sub { im with timeRef := le p 0 1 == 1, timeInterval := pick (rng 125 10000 (le p 4 4)) (le p 4 4) 1000,
                  lockN := pick (rng 4 64 (le p 8 1)) (le p 8 1) 16, missN := pick (rng 2 16 (le p 9 1)) (le p 9 1) 4,
                  slew := pick (rng 50 500 (le p 10 2)) (le p 10 2) 200 } (timeOuts p)
  | 0x000A => sub { im with mports := putKey (le p 0 1) (mportOf p).1 im.mports } (mportOf p).2
  | 0x000B => sub { im with fports := putKey (le p 0 1) (fportOf p).1 im.fports } (fportOf p).2
  | 0x000C => { im with keys := putKey (le p 0 1) (p.drop 8) im.keys }
  | _ => im

/-! ## Conflicts (R492) -/

/-- What a record names, for the types of which only one record may name a thing. -/
def Rec.name (r : Rec) : Option (Nat × Nat) :=
  let p := r.pay
  match r.typ with
  | 0x0003 => some (3, le p 0 1)
  | 0x0004 => some (4, le p 0 2)
  | 0x0006 => some (6, le p 0 2)
  | 0x0007 => some (7, le p 0 2)
  | 0x0009 => some (9, 0)
  | 0x000A => some (10, le p 0 1)
  | 0x000B => some (11, le p 0 1)
  | 0x000C => some (12, le p 0 1)
  | _ => none

/-- Bytes of one tile's save image (R469). -/
def saveTileBytes : Nat := 3448832

/-- Length of a context's save range in each of its n save stacks: the image in 4 KiB granules, interleaved (R469). -/
def saveLen (tiles n : Nat) : Nat := ceilDiv (ceilDiv (tiles * saveTileBytes) 4096) (max 1 n) * 4096

/-- Save ranges of a context: first device address and length. -/
def Image.saveRanges (im : Image) (c : CtxCfg) : List (Nat × Nat) :=
  match c.part.bind fun n => (im.parts.find? fun p => p.1 == n).map (·.2) with
  | none => []
  | some p =>
    let sts := (List.range 8).filter fun st => bitOf c.saveMask st
    sts.map fun st => (stackBase st + c.saveOff, saveLen (16 * p.blocks.length) sts.length)

/-- Two ranges meet. -/
def meets (a b : Nat × Nat) : Bool := decide (a.1 < b.1 + b.2) && decide (b.1 < a.1 + a.2)

/-- The conflicts of check 10. -/
def imgConflict (rs : List Rec) (im : Image) : Bool :=
  let ctxs : List CtxCfg := im.ctxs.map (·.2)
  let parts : List PartCfg := im.parts.map (·.2)
  !decide (rs.filterMap Rec.name).Nodup || !decide (parts.flatMap (·.blocks)).Nodup
    || parts.any (fun p => decide (p.blocks.length < 2))
    || ctxs.any (fun c => match c.part with
      | some n => !im.parts.any fun p => p.1 == n
      | none => false)
    || ctxs.any (fun c => c.part.isSome && c.saveMask == 0 && decide (1 < (ctxs.filter fun d => d.part == c.part).length))
    || ctxs.any (fun c => (im.saveRanges c).any fun a => parts.any fun p => p.stkr.any fun b => meets a b)
    || rs.any (fun r => r.typ == 5 && !tableOk r.pay) || rs.any (fun r => r.typ == 1 && (fieldRule r.pay).isNone)

/-! ## The checks (Table 16.3) -/

/-- Settings before any record: every default of Table 16.9 but partitions and contexts. -/
def Image.start (ver seq : Nat) : Image := { Image.empty with ver := ver, seq := seq }

/-- The factory defaults (Table 16.9). -/
def Image.factory : Image :=
  { Image.empty with
    parts := [(0, { scn := 0, depth := 4, quantum := 10000, blocks := List.range 128, stkr := [], rankr := [] })]
    ctxs := [(0, { part := some 0, fw := true, training := false, implicit := false, ftz := false, spill := 2048, saveMask := 0,
                   waitTo := 100000, saveOff := 0, stile := none, sidx := 0, sprog := 0, groups := [], streams := [] })] }

/-- Stepping code of this device (ARFP.STEPC). -/
def State.stepc (s : State) : Nat := s.fld ARFP_STEPC

/-- The trailer's tag and blob pass (checks 7 and 8): the code of the first that fails, or 0. -/
def trailerCheck (msg tr : List Nat) : Nat :=
  match openBlob (tr.take 56) with
  | .error _ => 7
  | .ok k => if !bitOf k.use useImage then 7 else if cmac k.key msg != (tr.drop 56).take 16 then 8 else 0

/-- Check slot k (R485): the image's settings, or the code of the first check that fails. -/
def State.imageCheck (s : State) (k : Nat) : Except Nat Image :=
  let h := s.slotBytes k 0 64
  let ver := le h 4 1
  let cm := bitOf (le h 5 1) 0
  let len := le h 8 4
  if le h 0 4 ≠ 0x4746434B then .error 1
  else if ver < 1 ∨ 3 < ver then .error 2
  else if le h 28 2 ≠ 0x2048 ∨ s.stepc < le h 30 1 then .error 3
  else if len % 8 ≠ 0 ∨ 0x04000000 - 84 < len ∨ len < 64 ∨ le h 5 1 / 2 ≠ 0 ∨ nz h 6 2 ∨ nz h 31 33 then .error 4
  else
    let body := s.slotBytes k 0 len
    let crc := s.slotBytes k len 4
    if le crc 0 4 ≠ crc32c body then .error 5
    else if (Config.cmacReq && !cm) || (cm && decide (ver < 3)) then .error 6
    else
      let tc := if cm then trailerCheck (body ++ crc) (s.slotBytes k (len + 4) 80) else 0
      if tc ≠ 0 then .error tc
      else match readRecs ver (len / 8) 0 (body.drop 64) with
        | none => .error 9
        | some rs =>
          if rs.length + 1 ≠ le h 12 4 then .error 9
          else
            let im := rs.foldl Image.addRec (Image.start ver (le h 24 4))
            if imgConflict rs im then .error 10 else .ok im

/-- A slot is rejected: CSTAT.REJk and type 0xA0. -/
def State.rejectSlot (s : State) (k code : Nat) : State :=
  (if k = 0 then s.setFld CSTAT_REJ0 code else s.setFld CSTAT_REJ1 code).primReport 0xA0 2 (slotBase k) (k + 16 * code)

/-- IMAGE_READ_DONE (R485, R486, R494): the read of a slot ends; readErr marks a flash read error or timeout. The slot is accepted, or
the other is read next, or the factory defaults are taken. -/
def execImageReadDone (readErr : Bool) (s : State) : Res :=
  .next (if s.boot ≠ .reading then s
  else match s.imgSlot with
    | none => s
    | some k =>
      let first := s.fld CSTAT_TRIED == 0
      let s := s.orFld CSTAT_TRIED (2 ^ k)
      match (if readErr then .error 11 else s.imageCheck k) with
      | .ok im => { (s.setFld CSTAT_SLOT k).setFld CSTAT_SRC 0 with boot := .accepted, imgNext := some im, imgSlot := none }
      | .error code =>
        let s := s.rejectSlot k code
        if first then { s with imgSlot := some (1 - k) }
        else
          let s := ((s.setFld GSTAT_CFGDEF 1).setFld CSTAT_SRC 1).primReport 0xA1 3 0 0
          { s with boot := .accepted, imgNext := some Image.factory, imgSlot := none })

end Sys2Proof.Machine
end

