-- ==== Sys2Proof/Machine/Sched.lean ====
section
/-! DEFINITION. Contexts and their partitions: readiness, taking and giving up a partition, the start of a switch (R459, R467,
R468). -/

namespace Sys2Proof.Machine

/-- A context's partition, where it has one with tiles (R25, R458). -/
def State.ctxPart (s : State) (c : Nat) : Option Nat :=
  match (s.ctxCfg c).bind (·.part) with
  | some p => if (s.tilesOf p).isEmpty then none else some p
  | none => none

/-- A context is not DISABLED: it has a partition, and its function is enabled or it is firmware (Table 15.4). -/
def State.ctxOn (s : State) (c : Nat) : Bool := s.boot == .up && (s.ctxPart c).isSome && (c == 0 || s.isFw c || (s.ctx c).vfEnabled)

/-- The command queue holds an unfetched command that the device may fetch (R467, R472). -/
def State.unfetched (s : State) (c : Nat) : Bool :=
  s.flag (HQCFG_EN c) && !s.flag (HCTXSTAT_FAULT c) && s.fld (HQSQHEAD_HEAD c) != s.fld (HQSQTAIL_TAIL c)

/-- The context whose state a partition's tiles hold. -/
def State.occupant (s : State) (part : Nat) : Option Nat := SMap.get (fun _ => none) s.occup part

/-- A tile runs or waits for the context that occupies it; a tile the halt stopped still counts as RUNNING. -/
def State.tileWork (s : State) (t : Nat) : Bool :=
  s.fld (TSQSTAT_STATE t) == 1 || s.halt.tiles.contains t || (s.tile t).wait.isSome || (s.tile t).trap.isSome

/-- The same of a saved tile. -/
def SavedTile.work (x : SavedTile) : Bool :=
  bitsOf (SMap.get regReset x.regs (aTSQSTAT x.t)).toNat 0 2 == 1 || x.tile.wait.isSome

/-- The contexts of a partition, ascending. -/
def State.ctxsOf (s : State) (part : Nat) : List Nat := (s.img.ctxs.filter fun c => c.2.part == some part).map (·.1)

/-- The context that owns a partition's tiles while none occupies them: the first one that is enabled. -/
def State.firstOn (s : State) (part : Nat) : Option Nat := (s.ctxsOf part).find? s.ctxOn

/-- A context is ready (R467), or its start program waits. -/
def State.ctxReady (s : State) (c : Nat) : Bool :=
  s.ctxOn c && (s.unfetched c || (s.ctx c).startDue || (s.ctx c).saved.any SavedTile.work || match s.ctxPart c with
    | some p => (s.occupant p == some c || ((s.occupant p).isNone && s.firstOn p == some c)) && (s.tilesOf p).any s.tileWork
    | none => false)

/-- Where a partition's switch stands. -/
def State.switchAt (s : State) (part : Nat) : Switch := SMap.get (fun _ => Switch.none) s.switches part
/-- Set it. -/
def State.setSwitch (s : State) (part : Nat) (w : Switch) : State := { s with switches := SMap.set (fun _ => Switch.none) s.switches part w }

/-- A context is being saved or restored. -/
def State.inSwitch (s : State) (part c : Nat) : Bool := match s.switchAt part with
  | .none => false
  | .draining _ => s.occupant part == some c
  | .saving _ => s.occupant part == some c
  | .restoring n => n == c

/-- HCTXSTAT.STATE (Table 15.4). -/
def State.ctxShow (s : State) (c : Nat) : State :=
  s.setFld (HCTXSTAT_STATE c) (match s.ctxPart c with
    | none => 0
    | some p =>
      if !s.ctxOn c then 0
      else if s.inSwitch p c then 4
      else if s.curCtx p == some c then 3
      else if s.ctxReady c then 2
      else 1)

/-- The next ready context after the current one in ascending order, wrapping (R467). -/
def State.nextReady (s : State) (part : Nat) : Option Nat :=
  let cur := s.fld (HPSTAT_CUR part)
  let cs := s.ctxsOf part
  ((cs.filter fun c => decide (cur < c)) ++ cs.filter fun c => decide (c ≤ cur)).find? s.ctxReady

/-- The tiles are as their reset left them for context n, and as the host has loaded them since: no context occupies them, n owns them, and
n has neither run nor a program to load at its start (R459, R468). -/
def State.tilesReady (s : State) (part n : Nat) : Bool :=
  s.firstOn part == some n && !(s.ctx n).hasRun && !(s.ctx n).startDue

/-- A context takes its partition: at once where the tiles hold its state already, else through a switch (R468). The first context to start
ends the device's forced determinism (R427). -/
def State.ctxTake (s : State) (part n : Nat) : State :=
  match s.occupant part with
  | none =>
    if s.tilesReady part n then
      let s := { s with occup := SMap.set (fun _ => none) s.occup part (some n), detHold := false }
      (((s.setFld (HPSTAT_HELD part) 1).setFld (HPSTAT_CUR part) n).syncDetm).ctxShow n
    else (s.setSwitch part (.restoring n)).ctxShow n
  | some o =>
    if o = n then ((s.setFld (HPSTAT_HELD part) 1).setFld (HPSTAT_CUR part) n).ctxShow n
    else ((s.setSwitch part (.draining n)).ctxShow o).ctxShow n

/-- Bring a partition's holder up to date: a context that has become unready gives the partition up at once, and a ready one takes a
free partition (R467). -/
def State.sched (s : State) (part : Nat) : State :=
  if s.switchAt part != .none || s.parked then s
  else
    let s := match s.curCtx part with
      | some c => if s.ctxReady c then s else (s.setFld (HPSTAT_HELD part) 0).ctxShow c
      | none => s
    if s.flag (HPSTAT_HELD part) then s
    else match s.nextReady part with
      | some n => s.ctxTake part n
      | none => s

/-- After something changed for a context. -/
def State.schedCtx (s : State) (c : Nat) : State := match s.ctxPart c with
  | some p => (s.ctxShow c).sched p
  | none => s.ctxShow c

/-- After a tile's sequencer stopped or started. -/
def State.schedTile (s : State) (t : Nat) : State := match s.partOfTile t with
  | some p => s.sched p
  | none => s

/-- QUANTUM_END (R467, R477): the partition switches to the next ready context, if another is ready; no second switch is started. -/
def execQuantumEnd (part : Nat) (s : State) : Host.Outcome State Fault Refusal :=
  .next (if s.switchAt part != .none then s
    else match s.curCtx part, s.nextReady part with
      | some c, some n => if n = c then s else ((s.setSwitch part (.draining n)).ctxShow c).ctxShow n
      | _, _ => s)

end Sys2Proof.Machine
end

