-- ==== Sys2Proof/Machine/Scalar.lean ====
section
/-! DEFINITION. CTRL and SCAL instructions, address-register moves, and starting, stopping and trapping a tile
(R146, R154 to R156, R159, R184, R193). -/

namespace Sys2Proof.Machine

/-! ## CTRL (Table 5.5) -/

/-- The index PC + OFF, OFF being a signed 14-bit field. -/
def branchTarget (s : State) (t : Nat) (b : BitVec 54) : Nat := ofIntW 13 ((s.pc t : Int) + fbs b 0 14)

/-- NOP (R154). -/
def execNop (t : Nat) (b : BitVec 54) (s : State) : Res := .next (s.issue t 0 0x00 b (rsvOut []) [] noFuse fun s => .fall s)

/-- BR (R154). -/
def execBr (t : Nat) (b : BitVec 54) (s : State) : Res :=
  .next (s.issue t 0 0x01 b (rsvOut [(13, 0)]) [] noFuse fun s => .jump s (branchTarget s t b))

/-- BRL (R154): s31 takes the return index. -/
def execBrl (t : Nat) (b : BitVec 54) (s : State) : Res :=
  .next (s.issue t 0 0x02 b (rsvOut [(13, 0)]) [31] noFuse fun s =>
    .jump (s.modTile t fun x => x.setS 31 (BitVec.ofNat 64 ((s.pc t + 1) % 8192))) (branchTarget s t b))

/-- BRI (R154). -/
def execBri (t : Nat) (b : BitVec 54) (s : State) : Res :=
  .next (s.issue t 0 0x03 b (rsvOut [(49, 45)]) [fb b 45 5] noFuse fun s => .jump s (bitsOf ((s.tile t).sreg (fb b 45 5)).toNat 0 13))

/-- Start a loop of n passes (R155). -/
def startLoop (t lc stop n : Nat) (s : State) : Act :=
  let i := s.pc t
  if stop = 0 then .trap 1 0
  else if ((s.tile t).loop lc).active then .trap 1 0
  else if n = 0 then .skip s (i + stop + 1)
  else .fall (s.modTile t fun x =>
    x.setLoop lc ⟨BitVec.ofNat 32 n, BitVec.ofNat 13 (i + 1), BitVec.ofNat 13 (i + stop), true⟩)

/-- LOOP.S (R155). -/
def execLoopS (t : Nat) (b : BitVec 54) (s : State) : Res :=
  .next (s.issue t 0 0x04 b (rsvOut [(49, 48), (47, 35), (34, 30)]) [fb b 30 5] noFuse fun s =>
    startLoop t (fb b 48 2) (fb b 35 13) (bitsOf ((s.tile t).sreg (fb b 30 5)).toNat 0 32) s)

/-- LOOP.I (R155). -/
def execLoopI (t : Nat) (b : BitVec 54) (s : State) : Res :=
  .next (s.issue t 0 0x05 b (rsvOut [(49, 48), (47, 35), (15, 0)]) [] noFuse fun s =>
    startLoop t (fb b 48 2) (fb b 35 13) (fb b 0 16) s)

/-- HALT (R154). -/
def execHaltI (t : Nat) (b : BitVec 54) (s : State) : Res :=
  .next (s.issue t 0 0x06 b (rsvOut [(15, 0)]) [] noFuse fun s =>
    .stop (((s.setFld (TSQSTAT_STATE t) stHalted).setFld (TSQSTAT_HCODE t) (fb b 0 16)).schedTile t))

/-- TRAP (R154): a software trap. -/
def execTrapI (t : Nat) (b : BitVec 54) (s : State) : Res :=
  .next (s.issue t 0 0x07 b (rsvOut [(15, 0)]) [] noFuse fun _ => .trap 8 (fb b 0 16))

/-! ## SCAL (Table 5.6) -/

/-- An R-form operation: sD from sA and sB. -/
def scalR (o : Nat) (op : BitVec 64 → BitVec 64 → BitVec 64) (t : Nat) (b : BitVec 54) (s : State) : State :=
  s.issue t 1 o b (rsvOut [(49, 45), (44, 40), (39, 35)]) [fb b 45 5, fb b 40 5, fb b 35 5] noFuse fun s =>
    .fall (s.modTile t fun x => x.setS (fb b 45 5) (op (x.sreg (fb b 40 5)) (x.sreg (fb b 35 5))))

/-- An I-form operation: sD from sA and the 32-bit immediate. -/
def scalI (o : Nat) (op : BitVec 64 → BitVec 32 → BitVec 64) (t : Nat) (b : BitVec 54) (s : State) : State :=
  s.issue t 1 o b (rsvOut [(49, 45), (44, 40), (31, 0)]) [fb b 45 5, fb b 40 5] noFuse fun s =>
    .fall (s.modTile t fun x => x.setS (fb b 45 5) (op (x.sreg (fb b 40 5)) (BitVec.ofNat 32 (fb b 0 32))))

/-- LI and LIH: sA must be 0; the operation sees sD's old value. -/
def scalLi (o : Nat) (op : BitVec 64 → BitVec 32 → BitVec 64) (t : Nat) (b : BitVec 54) (s : State) : State :=
  s.issue t 1 o b (rsvOut [(49, 45), (31, 0)]) [fb b 45 5] noFuse fun s =>
    .fall (s.modTile t fun x => x.setS (fb b 45 5) (op (x.sreg (fb b 45 5)) (BitVec.ofNat 32 (fb b 0 32))))

/-- A compare: pD from sA and sB. -/
def scalCmp (o : Nat) (op : BitVec 64 → BitVec 64 → Bool) (t : Nat) (b : BitVec 54) (s : State) : State :=
  s.issue t 1 o b (rsvOut [(49, 47), (44, 40), (39, 35)]) [fb b 40 5, fb b 35 5] noFuse fun s =>
    .fall (s.modTile t fun x => x.setP (fb b 47 3) (op (x.sreg (fb b 40 5)) (x.sreg (fb b 35 5))))

/-- A P-form operation: pD from pA and pB. -/
def scalP (o : Nat) (op : Bool → Bool → Bool) (t : Nat) (b : BitVec 54) (s : State) : State :=
  s.issue t 1 o b (rsvOut [(49, 47), (46, 44), (43, 41)]) [] noFuse fun s =>
    .fall (s.modTile t fun x => x.setP (fb b 47 3) (op (x.preg (fb b 44 3)) (x.preg (fb b 41 3))))

/-- An identity or time read: sA and sB must be 0. -/
def scalRead (o : Nat) (val : State → Nat) (t : Nat) (b : BitVec 54) (s : State) : State :=
  s.issue t 1 o b (rsvOut [(49, 45)]) [fb b 45 5] noFuse fun s =>
    .fall (s.modTile t fun x => x.setS (fb b 45 5) (BitVec.ofNat 64 (val s)))

/-- A shift amount: the low 6 bits (R156). -/
def sh6 {w : Nat} (x : BitVec w) : Nat := x.toNat % 64

/-- ADD (R156). -/
def execAdd (t : Nat) (b : BitVec 54) (s : State) : Res := .next (scalR 0x00 (fun x y => x + y) t b s)

/-- SUB (R156). -/
def execSub (t : Nat) (b : BitVec 54) (s : State) : Res := .next (scalR 0x01 (fun x y => x - y) t b s)

/-- MUL (R156). -/
def execMul (t : Nat) (b : BitVec 54) (s : State) : Res := .next (scalR 0x02 (fun x y => x * y) t b s)

/-- AND (R156). -/
def execAndR (t : Nat) (b : BitVec 54) (s : State) : Res := .next (scalR 0x03 (fun x y => x &&& y) t b s)

/-- OR (R156). -/
def execOrR (t : Nat) (b : BitVec 54) (s : State) : Res := .next (scalR 0x04 (fun x y => x ||| y) t b s)

/-- XOR (R156). -/
def execXorR (t : Nat) (b : BitVec 54) (s : State) : Res := .next (scalR 0x05 (fun x y => x ^^^ y) t b s)

/-- SHL (R156). -/
def execShl (t : Nat) (b : BitVec 54) (s : State) : Res := .next (scalR 0x06 (fun x y => x <<< sh6 y) t b s)

/-- SHR (R156). -/
def execShr (t : Nat) (b : BitVec 54) (s : State) : Res := .next (scalR 0x07 (fun x y => x >>> sh6 y) t b s)

/-- SRA (R156). -/
def execSra (t : Nat) (b : BitVec 54) (s : State) : Res := .next (scalR 0x08 (fun x y => x.sshiftRight (sh6 y)) t b s)

/-- MINS (R156). -/
def execMins (t : Nat) (b : BitVec 54) (s : State) : Res := .next (scalR 0x09 (fun x y => if x.slt y then x else y) t b s)

/-- MAXS (R156). -/
def execMaxs (t : Nat) (b : BitVec 54) (s : State) : Res := .next (scalR 0x0A (fun x y => if x.slt y then y else x) t b s)

/-- MINU (R156). -/
def execMinu (t : Nat) (b : BitVec 54) (s : State) : Res := .next (scalR 0x0B (fun x y => if x.ult y then x else y) t b s)

/-- MAXU (R156). -/
def execMaxu (t : Nat) (b : BitVec 54) (s : State) : Res := .next (scalR 0x0C (fun x y => if x.ult y then y else x) t b s)

/-- ADDI (R156). -/
def execAddi (t : Nat) (b : BitVec 54) (s : State) : Res := .next (scalI 0x10 (fun x i => x + i.signExtend 64) t b s)

/-- ANDI (R156). -/
def execAndi (t : Nat) (b : BitVec 54) (s : State) : Res := .next (scalI 0x11 (fun x i => x &&& i.zeroExtend 64) t b s)

/-- ORI (R156). -/
def execOri (t : Nat) (b : BitVec 54) (s : State) : Res := .next (scalI 0x12 (fun x i => x ||| i.zeroExtend 64) t b s)

/-- XORI (R156). -/
def execXori (t : Nat) (b : BitVec 54) (s : State) : Res := .next (scalI 0x13 (fun x i => x ^^^ i.zeroExtend 64) t b s)

/-- SHLI (R156). -/
def execShli (t : Nat) (b : BitVec 54) (s : State) : Res := .next (scalI 0x14 (fun x i => x <<< sh6 i) t b s)

/-- SHRI (R156). -/
def execShri (t : Nat) (b : BitVec 54) (s : State) : Res := .next (scalI 0x15 (fun x i => x >>> sh6 i) t b s)

/-- SRAI (R156). -/
def execSrai (t : Nat) (b : BitVec 54) (s : State) : Res := .next (scalI 0x16 (fun x i => x.sshiftRight (sh6 i)) t b s)

/-- LI (R156). -/
def execLi (t : Nat) (b : BitVec 54) (s : State) : Res := .next (scalLi 0x17 (fun _ i => i.signExtend 64) t b s)

/-- LIH (R156): bits [31:0] are kept. -/
def execLih (t : Nat) (b : BitVec 54) (s : State) : Res :=
  .next (scalLi 0x18 (fun x i => (i ++ (x.extractLsb' 0 32) : BitVec 64)) t b s)

/-- CMPEQ (R156). -/
def execCmpeq (t : Nat) (b : BitVec 54) (s : State) : Res := .next (scalCmp 0x20 (fun x y => x == y) t b s)

/-- CMPNE (R156). -/
def execCmpne (t : Nat) (b : BitVec 54) (s : State) : Res := .next (scalCmp 0x21 (fun x y => x != y) t b s)

/-- CMPLT (R156). -/
def execCmplt (t : Nat) (b : BitVec 54) (s : State) : Res := .next (scalCmp 0x22 (fun x y => x.slt y) t b s)

/-- CMPLE (R156). -/
def execCmple (t : Nat) (b : BitVec 54) (s : State) : Res := .next (scalCmp 0x23 (fun x y => x.sle y) t b s)

/-- CMPLTU (R156). -/
def execCmpltu (t : Nat) (b : BitVec 54) (s : State) : Res := .next (scalCmp 0x24 (fun x y => x.ult y) t b s)

/-- CMPLEU (R156). -/
def execCmpleu (t : Nat) (b : BitVec 54) (s : State) : Res := .next (scalCmp 0x25 (fun x y => x.ule y) t b s)

/-- PAND (R156). -/
def execPand (t : Nat) (b : BitVec 54) (s : State) : Res := .next (scalP 0x28 (fun x y => x && y) t b s)

/-- POR (R156). -/
def execPor (t : Nat) (b : BitVec 54) (s : State) : Res := .next (scalP 0x29 (fun x y => x || y) t b s)

/-- PXOR (R156). -/
def execPxor (t : Nat) (b : BitVec 54) (s : State) : Res := .next (scalP 0x2A (fun x y => xor x y) t b s)

/-- PNOT (R156). -/
def execPnot (t : Nat) (b : BitVec 54) (s : State) : Res := .next (scalP 0x2B (fun x _ => !x) t b s)

/-- TIMERD (R156). -/
def execTimerd (t : Nat) (b : BitVec 54) (s : State) : Res := .next (scalRead 0x30 State.now t b s)

/-- RANKRD (R156). -/
def execRankrd (t : Nat) (b : BitVec 54) (s : State) : Res := .next (scalRead 0x31 State.rank t b s)

/-- TILERD (R156). -/
def execTilerd (t : Nat) (b : BitVec 54) (s : State) : Res := .next (scalRead 0x32 (fun _ => t) t b s)

/-! ## Address-register moves (R159) -/

/-- Bits [36:20] lie in no field of a MEM instruction. -/
def rsvMem : Nat := rsvOut [(49, 45), (44, 41), (40, 37), (19, 0)]

/-- MOVA (R159). -/
def execMova (t : Nat) (b : BitVec 54) (s : State) : Res :=
  .next (s.issue t 2 0x10 b rsvMem [fb b 45 5] noFuse fun s => .fall (s.modTile t fun x => x.setA (fb b 41 4) (x.sreg (fb b 45 5))))

/-- MOVS (R159). -/
def execMovs (t : Nat) (b : BitVec 54) (s : State) : Res :=
  .next (s.issue t 2 0x11 b rsvMem [fb b 45 5] noFuse fun s => .fall (s.modTile t fun x => x.setS (fb b 45 5) (x.areg (fb b 41 4))))

/-- ADDA (R159). -/
def execAdda (t : Nat) (b : BitVec 54) (s : State) : Res :=
  .next (s.issue t 2 0x12 b rsvMem [fb b 45 5] noFuse fun s =>
    .fall (s.modTile t fun x => x.setA (fb b 41 4) (x.areg (fb b 37 4) + x.sreg (fb b 45 5))))

/-- ADDAI (R159); field [49:45] is ignored. -/
def execAddai (t : Nat) (b : BitVec 54) (s : State) : Res :=
  .next (s.issue t 2 0x13 b rsvMem [] noFuse fun s =>
    .fall (s.modTile t fun x => x.setA (fb b 41 4) (x.areg (fb b 37 4) + BitVec.ofInt 64 (fbs b 0 20))))

/-! ## Start, stop and trap -/

/-- The effect of TSQCTL.RUN (R146): from IDLE or HALTED the tile runs at START, registers kept; from here on requesters of its bank may
meet, which TBKWAIT counts (R89). Blocks in no partition never run
(R457), nor does a tile that is being marked (R202). -/
def State.tileGo (s : State) (t start : Nat) : State :=
  let st := s.fld (TSQSTAT_STATE t)
  if (st = stIdle ∨ st = stHalted) ∧ (s.partOfTile t).isSome ∧ !(s.tile t).marking then
    (((s.setFld (TSQSTAT_STATE t) stRunning).setPc t start).setReg (aTBKWAIT t) 1).schedTile t
  else s

/-- TSQCTL written with START and RUN = 1 (R146); while the device is halted the write waits (R530). -/
def State.tileRun (s : State) (t start : Nat) : State :=
  let s := s.setFld (TSQCTL_START t) start
  if s.frozen then { s with halt := { s.halt with runs := s.halt.runs ++ [(t, start)] } } else s.tileGo t start

/-- TSQCTL_RUN (R146, R202). -/
def execTsqctlRun (t : Nat) (start : Nat) (s : State) : Res := .next (s.windowPut t (aTSQCTL t) fun s => s.tileRun t start)

/-- STOP (Table 5.21, R193): issuing stops, a wait is abandoned, issued instructions complete. TRAPPED is left by resets
only (R184), and a tile that is being marked stays IDLE (R202). -/
def State.tileStop (s : State) (t : Nat) : State :=
  if s.fld (TSQSTAT_STATE t) = stTrapped ∨ (s.tile t).trap.isSome ∨ (s.tile t).marking then s
  else
    let s := s.modTile t fun x => { x with wait := none, held := none, fuse := none }
    let s := { s with halt := { s.halt with tiles := s.halt.tiles.filter (· != t) } }
    ((s.setFld (TSQSTAT_STATE t) stHalted).setFld (TSQSTAT_HCODE t) 0xFFFF).schedTile t

/-- TSQCTL_STOP (R193, R202). -/
def execTsqctlStop (t : Nat) (s : State) : Res := .next (s.windowPut t (aTSQCTL t) fun s => s.tileStop t)

/-- Everything the tile issued has completed: loads, products, vector work, transfers, dispatches, and every posted write to
another device is acknowledged (R184, R188). Stores posted inside this device are performed by the event that asks (State.landAll). -/
def State.drained (s : State) (t : Nat) : Bool :=
  let x := s.tile t
  x.loads.isEmpty && x.mbx.isNone && x.sig.isNone && x.prods.isEmpty && x.vq.isEmpty && x.xfers.isEmpty && x.disp.isEmpty
    && !s.writes.any fun w => w.tile == t

/-- A mailbox operation of the tile is unfinished: a MBX instruction, a plain load or store of a mailbox word, or a store to one of another
device that is not acknowledged (R180). The next one waits, so that their total order agrees with program order (R190). -/
def State.mboxPend (s : State) (t : Nat) : Bool :=
  (s.tile t).mbx.isSome || (s.tile t).loads.any (fun l => isMbox (addrDev l.addr)) || s.writes.any fun w => w.tile == t && isMbox w.addr

/-- Two addresses lie in one 64-byte line. -/
def sameLine (a b : Nat) : Bool := a / 64 == b / 64

/-- A scalar store at address a outside the own window waits for an earlier load of its line that has not been performed, and a load waits
for the acknowledgement of an earlier store of its line to another device (R186: a load is free only against stores to other locations, and
returns the tile's own latest earlier store to its line). -/
def State.lineHold (s : State) (t a : Nat) (store : Bool) : Bool :=
  if store then (s.tile t).loads.any fun l => l.got.isNone && sameLine l.addr a
  else !s.isLocal a && s.writes.any fun w => w.tile == t && w.kind == 0 && w.dst == addrRank a && sameLine w.addr (addrDev a)

end Sys2Proof.Machine
end

