-- ==== Sys2Proof/Machine/Context.lean ====
section
/-! DEFINITION. Switching a partition, saving and restoring contexts, completions, context, function and partition resets (R463,
R468 to R475, R477). -/

namespace Sys2Proof.Machine

/-! ## Tiles -/

/-- A tile's registers as its partition and the context running on it set them: stream-cache size, prefetch depth, wait timeout,
spill interval, initial VCTL.FTZ (R120, R174, R195, R207, R458). -/
def State.tileImage (s : State) (t : Nat) (c : Option CtxCfg) : State :=
  let s := match (s.partOfTile t).bind s.partCfg with
    | some p => (s.setFld (TSCSTAT_SIZE t) p.scn).setFld (TSCSTAT_DEPTH t) p.depth
    | none => s
  match c with
  | some k => ((s.setFld (TSQWTO_LIMIT t) k.waitTo).setFld (TSPILL_INTERVAL t) k.spill).setFld (VCTL_FTZ t) (if k.ftz then 1 else 0)
  | none => s

/-- The settings a tile takes at its reset: those of the context that holds, occupies or owns it. -/
def State.ownerCfg (s : State) (t : Nat) : Option CtxCfg := match s.partOfTile t with
  | none => none
  | some p => (((s.curCtx p).orElse fun _ => s.occupant p).orElse fun _ => s.firstOn p).bind s.ctxCfg

/-- A reset falls within the tile's folio transfers: any prefix of what each writes may have been written (R334), a free one. What goes to
the tile's own window is lost with the bank. -/
def State.foliosCut (s : State) (t : Nat) : State :=
  s.each ((s.tile t).xfers.filter fun x => (x.kind == 2 || x.kind == 3) && !x.sent && s.isLocal x.src && x.causes s t == []) fun s x =>
    let k := s.fresh
    let out := (x.output k (s.localRows t x.srcRows).1).1
    let d := addrDev x.dst
    let n := Config.pick k % (out.length + 1)
    let n := if d < 0x8000000000 then n / 64 * 64 else n
    let s := s.freshen
    if (s.ownOff t x.dst).isSome ∨ !s.tileMay t x.dst n then s
    else if !s.isLocal x.dst then (s.farWrites (srcOf 0 t) 4095 4 (addrRank x.dst) 0 false (pieces d n) (out.take n)).2
    else if s.isMem d n ∧ !s.refusesWrite d then s.memWrite d (out.take n)
    else s

/-- The packet carries write w. -/
def FarWrite.carried (w : FarWrite) (p : Pkt) : Bool :=
  (p.opc == 1 || p.opc == 5) && p.drank == w.dst && p.tag == w.tag && p.tgen == w.gen && p.addr == w.addr

/-- A reset of tile t discards the posted writes and mailbox operations that have not begun to leave the device; of those that have, nobody
waits for the answer any more (R193). -/
def State.dropPosted (s : State) (t : Nat) : State :=
  let mine := fun (w : FarWrite) => w.tile == t && (w.kind == 0 || w.kind == 1 || w.kind == 5)
  let ws := s.writes.filter mine
  let here := ws.filter fun w => (List.range 8).any fun k => (s.port k).unsent.any w.carried
  let s := s.each (List.range 8) fun s k =>
    let un := (s.port k).unsent.filter fun p => here.any fun w => w.carried p
    if un.isEmpty then s else s.modPort k fun x => { x with txq := x.txq.filter fun e => !un.contains e.1 }
  { s with writes := (s.writes.filter fun w => !here.contains w).map fun w => if w.tile == t then { w with tile := 4095 } else w }

/-- Reset a tile (R77, R145): sequencer, accumulators and registers take their reset values, everything in flight is discarded
(R193, R334, R360), and marking of the bank begins (R202). -/
def State.tileReset (s : State) (t : Nat) : State :=
  let lo := tileBase t + 0x300000
  let s := ((s.foliosCut t).dropPosted t).dispReset t
  let s := { s with
    regs := SMap.keep (fun a => decide (a < lo) || decide (tileBase (t + 1) ≤ a)) s.regs
    reads := s.reads.filter fun r => r.src != srcOf 0 t
    halt := { s.halt with tiles := s.halt.tiles.filter (· != t), runs := s.halt.runs.filter fun r => r.1 != t } }
  (s.setTile t { Tile.reset with marking := true }).tileImage t (s.ownerCfg t)

/-- The tiles of a partition that no context occupies take the settings of the context that owns them (R458). -/
def State.ownTiles (s : State) (part : Nat) : State :=
  if (s.occupant part).isSome then s
  else match (s.firstOn part).bind s.ctxCfg with
    | some k => s.each ((s.tilesOf part).filter fun t => decide (t < 2048)) fun s t => s.tileImage t (some k)
    | none => s

/-! ## Switches (R468, R469) -/

/-- Everything the tile issued has completed, but for a chain-add that waits for its token and what stands behind it on the datapath: that
wait is suspended with the context and resumed on its return (R193). -/
def State.drainedOut (s : State) (t : Nat) : Bool :=
  (match (s.tile t).vq with
  | .chain _ _ _ _ _ _ _ _ false :: _ => s.modTile t fun x => { x with vq := [] }
  | _ => s).drained t

/-- Every instruction the partition's tiles issued has completed, and so has every command in progress (R468). -/
def State.partDrained (s : State) (part c : Nat) : Bool :=
  (s.tilesOf part).all (fun t => s.drainedOut t) && (s.ctx c).cmds.all fun k => k.stage == 2

/-- Registers a save image holds of a tile (R469). -/
def savedRegs (t : Nat) : List Nat :=
  [aTSQSTAT t, aTSQTRAP t, aVCTL t, aVSTAT t, aBLKUF t, aTRNGSTEP t] ++ (List.range 8).map (fun i => aTSPBND t i)
    ++ (List.range 32).map (fun i => aTTOK t i) ++ (List.range 16).map fun i => aTMBX t i

/-- A tile's part of the save image. -/
def State.saveTile (s : State) (t : Nat) : SavedTile :=
  ⟨t, s.tile t, (savedRegs t).foldl (fun m a => SMap.set regReset m a (s.reg a)) []⟩

/-- The save image of context c is written to its save ranges (R468, R469). The manual lists what the image holds and not where in it,
so each byte written is free; the restore takes the state itself. -/
def State.saveImage (s : State) (c : Nat) : State := match s.ctxCfg c with
  | none => s
  | some k => (s.each (s.img.saveRanges k) fun s r =>
      if s.isMem r.1 r.2 then s.stkWrite r.1 ((List.range r.2).map fun i => ((Config.freeByte s.fresh (r.1 + i)).toNat, false)) else s).freshen

/-- SAVE_DONE (R468): the outgoing context's image is written; the incoming one's restore begins. -/
def execSaveDone (part : Nat) (s : State) : Res :=
  .next (match s.switchAt part, s.occupant part with
    | .saving n, some c =>
      let s := (s.modCtx c fun x => { x with saved := (s.tilesOf part).map s.saveTile, hasRun := true }).saveImage c
      let s := { s with occup := SMap.set (fun _ => none) s.occup part none }
      let s := (s.setSwitch part (.restoring n)).setFld (HPSTAT_HELD part) 0
      (s.ctxShow c).ctxShow n
    | _, _ => s)

/-- Load a firmware context's start program and start it (Table 15.3): 64 KiB from a stack into the tile's instruction region. -/
def State.startProgram (s : State) (k : CtxCfg) : State :=
  match k.stile with
  | none => s
  | some t =>
    let s := if s.isMem k.sprog 65536 then
        let r := s.memRead k.sprog 65536 uExternal
        r.2.winWrite t 0x1F0000 r.1
      else s
    if (k.part.map s.tilesOf).any (fun l => l.contains t) then s.tileRun t k.sidx else s

/-- A context's tiles on its first run: reset and marked whole (R468, step 5). -/
def State.firstRun (s : State) (part c : Nat) : State :=
  s.each (s.tilesOf part) fun s t => ((s.tileReset t).tileImage t (s.ctxCfg c)).modTile t fun x => { x with marking := false }

/-- The tiles of a context that was saved (R469). -/
def State.restoreTiles (s : State) (c : Nat) : State :=
  let s := s.each (s.ctx c).saved fun s v =>
    (s.each v.regs fun s r => s.setReg r.1 r.2).setTile v.t v.tile |>.tileImage v.t none
  let s := s.each (s.ctx c).saved fun s v => (savedRegs v.t).foldl (fun s a => s.setReg a (SMap.get regReset v.regs a)) s
  match s.ctxCfg c with
  | some k => s.each (s.ctx c).saved fun s v => (s.setFld (TSQWTO_LIMIT v.t) k.waitTo).setFld (TSPILL_INTERVAL v.t) k.spill
  | none => s

/-- While the device is halted, a tile that would run shows HALTED, and resumes with the rest (R530, R539). -/
def State.haltTile (s : State) (t : Nat) : State :=
  if s.fld (TSQSTAT_STATE t) = stRunning then
    ({ s with halt := { s.halt with tiles := s.halt.tiles ++ [t] } }.setFld (TSQSTAT_STATE t) stHalted).setFld (TSQSTAT_HCODE t) 0xFFFE
  else s

/-! ## Completions (R463) -/

/-- The completion ring has room. -/
def State.cqRoom (s : State) (c : Nat) : Bool :=
  let n := ringSize (s.fld (HQCFG_CQLOG c))
  ((s.ctx c).cqTail + 2 * n - s.fld (HQCQHEAD_HEAD c) % (2 * n)) % (2 * n) != n

/-- Write a command's completion entry (Table 15.7). -/
def State.cqPut (s : State) (c : Nat) (k : Cmd) : State :=
  let n := ringSize (s.fld (HQCFG_CQLOG c))
  let i := (s.ctx c).cqTail
  let phase := 1 - i / n % 2
  let bytes := leBytes 4 (le k.bytes 4 4) ++ [k.status, phase + 2 * bitsOf k.head 16 1] ++ leBytes 2 (k.head % 65536)
    ++ leBytes 4 k.detail ++ [0, 0, 0, 0]
  let s := s.emit (.hostWrite (s.fld (HQCQBASE_BASE c) * 4096 + i % n * 16) bytes false)
  let s := s.modCtx c fun x => { x with cqTail := (x.cqTail + 1) % (2 * n) }
  if bitOf (le k.bytes 1 1) 0 then s.msix c 0 else s

/-- A context becomes FAULTED (R472); the first fault stands. -/
def State.ctxFault (s : State) (c cause : Nat) : State :=
  if s.flag (HCTXSTAT_FAULT c) then s
  else ((s.setFld (HCTXSTAT_FAULT c) 1).setFld (HCTXSTAT_FCAUSE c) cause).report 0 0x82 1 (srcOf 5 c) 0 cause |>.schedCtx c

/-! ## Context, function and partition resets (R473 to R475) -/

/-- Steps 1 and 3 of R473: commands end with ABORT, collectives and signal-plane operations are abandoned. -/
def State.ctxStop (s : State) (c : Nat) : State :=
  let live := s.flag (HQCFG_EN c) && !s.flag (HCTXSTAT_FAULT c)
  let s := s.each (s.ctx c).cmds fun s k =>
    if live && s.cqRoom c then s.cqPut c (if k.stage = 2 then k else { k with status := 7, detail := 0 }) else s
  let s := { s with
    dmas := s.dmas.filter fun d => d.ctx != c
    collWait := s.collWait.filter fun w => w.1 != c }
  let s := s.each (s.colls.filter fun x => x.ctx == c) fun s x => s.collAbandon x 6
  match s.ctxCfg c with
  | some k => s.each k.groups fun s g => s.sigAbandon g
  | none => s

/-- Its dispatch streams are aborted (R358). -/
def State.ctxStreams (s : State) (c : Nat) : State := match s.ctxCfg c with
  | some k => s.each k.streams fun s q => if s.srOpen q then s.fdsAbort q else s
  | none => s

/-- Step 4 of R473. -/
def State.ctxClear (s : State) (c : Nat) : State :=
  let s := s.event c 5 0 0 0
  let s := ((((s.setFld (HQCFG_EN c) 0).setReg (aHQSQTAIL c) 0).setReg (aHQSQHEAD c) 0).setReg (aHQCQHEAD c) 0).setReg (aHQEVHEAD c) 0
  let s := (s.setFld (HCTXSTAT_FAULT c) 0).setFld (HCTXSTAT_FCAUSE c) 0
  s.modCtx c fun x => { Ctx.reset with vfEnabled := x.vfEnabled }

/-- A context reset (R473); tiles says whether the partition's tiles hold its state and are reset with it. -/
def State.ctxReset (s : State) (c : Nat) : State :=
  let part := s.ctxPart c
  let s := s.ctxStop c
  let s := match part with
    | some p =>
      if s.occupant p = some c then
        let s := (s.each (s.tilesOf p) fun s t => s.tileReset t).ctxStreams c
        { s with occup := SMap.set (fun _ => none) s.occup p none }.setFld (HPSTAT_HELD p) 0
      else s.ctxStreams c
    | none => s.ctxStreams c
  let s := (s.ctxClear c).report 0 0x83 1 (srcOf 5 c) 0 c
  s.schedCtx c

/-- A reset of context c is asked for: while the context is being switched it waits for the switch (R477). -/
def State.ctxResetAsk (s : State) (c : Nat) (flr : Bool) : State :=
  if (match s.ctxPart c with
    | some p => s.inSwitch p c
    | none => false) then s.modCtx c fun x => { x with resetDue := some (flr || x.resetDue == some true) }
  else
    let s := s.ctxReset c
    if flr then s.report 0 0x84 1 (srcOf 5 c) 0 c else s

/-- Resets that waited for a switch. -/
def State.resetsDue (s : State) (part : Nat) : State :=
  s.each (s.ctxsOf part) fun s c => match (s.ctx c).resetDue with
    | some flr => if s.inSwitch part c then s else s.ctxResetAsk c flr
    | none => s

/-- CONTEXT_RESET (R473): context by writes HCTXCTL.RESET (its own), or HCTXRST (PF 0 and firmware contexts). -/
def execContextReset (by_ c : Nat) (s : State) : Res :=
  .next (if c < 512 then (if by_ = c ∨ s.pfOrFw by_ then s.ctxResetAsk c false else s.refuse aHCTXRST by_) else s)

/-- FLR (R474). -/
def execFlr (fn : Nat) (s : State) : Res := .next (if fn < 512 then s.ctxResetAsk fn true else s)

/-- A partition reset (R475). -/
def State.partReset (s : State) (part : Nat) : State :=
  let s := (s.setSwitch part .none).setFld (HPSTAT_HELD part) 0
  let s := s.each (s.ctxsOf part) fun s c => (((s.ctxStop c).ctxStreams c).ctxClear c).report 0 0x83 1 (srcOf 5 c) 0 c
  let s := s.each (s.tilesOf part) fun s t => s.tileReset t
  let s := { s with occup := SMap.set (fun _ => none) s.occup part none }
  let s := s.each ((s.img.engines.filter fun e => e.2 == part).map (·.1)) fun s k => s.engAbort (k / 8) (k % 8)
  let s := s.report 0 0x85 1 (srcOf 5 0) 0 part
  (s.each (s.ctxsOf part) fun s c => s.ctxShow c).sched part

/-- PARTITION_RESET (R475): context c writes HPRST. -/
def execPartitionReset (c part : Nat) (s : State) : Res :=
  .next (if part < 64 then (if s.pfOrFw c then s.partReset part else s.refuse aHPRST c) else s)

/-! ## The end of a switch -/

/-- RESTORE_DONE (R468, R427, R539): the incoming context's state stands in the tiles, and it runs; the device's forced determinism
ends when the first context starts. -/
def execRestoreDone (part : Nat) (s : State) : Res :=
  .next (match s.switchAt part with
    | .restoring n =>
      let first := !(s.ctx n).hasRun
      let s := if first then s.firstRun part n else s.restoreTiles n
      let s := { s with occup := SMap.set (fun _ => none) s.occup part (some n), detHold := false }
      let s := ((s.setSwitch part .none).setFld (HPSTAT_HELD part) 1).setFld (HPSTAT_CUR part) n
      let s := (s.bump (HPSTAT_SWITCHES part) 1).syncDetm
      let due := (s.ctx n).startDue
      let s := s.modCtx n fun x => { x with hasRun := true, saved := [], startDue := false }
      let s := match due, s.ctxCfg n with
        | true, some k => s.startProgram k
        | _, _ => s
      let s := if s.halted then s.each (s.tilesOf part) fun s t => s.haltTile t else s
      ((s.ctxShow n).resetsDue part).sched part
    | _ => s)

end Sys2Proof.Machine
end

