-- ==== Sys2Proof/Machine/FarNet.lean ====
section
/-! DEFINITION. The far ports' frames: Ethernet, IPv6, UDP, the far header and tag, built and checked (R395, R396, R402, R407,
R509). -/

namespace Sys2Proof.Machine

/-- The n bytes of x, most significant first (network order). -/
def beBytes (n x : Nat) : List Nat := (leBytes n x).reverse
/-- A number in network order. -/
def be (bs : List Nat) (o n : Nat) : Nat := ofLE ((bs.drop o).take n).reverse

/-- One bit of the Ethernet frame check sequence. -/
def fcsBit (c : Nat) : Nat := if c % 2 = 1 then (c / 2) ^^^ 0xEDB88320 else c / 2
/-- One byte of it. -/
def fcsByte (c b : Nat) : Nat := (List.range 8).foldl (fun c _ => fcsBit c) (c ^^^ (b % 256))
/-- The frame check sequence (IEEE 802.3), sent least significant byte first. -/
def fcs (bs : List Nat) : Nat := (bs.foldl fcsByte 0xFFFFFFFF) ^^^ 0xFFFFFFFF

/-- Sum of 16-bit words in network order. -/
def sum16 : List Nat → Nat
  | [] => 0
  | [a] => 256 * a
  | a :: b :: r => 256 * a + b + sum16 r

/-- Fold a sum to 16 bits, end-around. -/
def fold16 (x : Nat) : Nat :=
  let y := x % 65536 + x / 65536
  let z := y % 65536 + y / 65536
  z % 65536 + z / 65536

/-- Internet checksum of an upper-layer packet under IPv6 (RFC 8200): pseudo-header and body, complemented. -/
def ip6Sum (src dst : List Nat) (next : Nat) (body : List Nat) : Nat :=
  65535 - fold16 (sum16 (src ++ dst ++ beBytes 4 body.length ++ [0, 0, 0, next] ++ body))

/-- The settings of far port p; a port without a record has EN = 0. -/
def State.fport (s : State) (p : Nat) : FPortCfg :=
  SMap.get (fun _ => ⟨false, 0, 64, 9000, 49700, 0, 0, 0, 0, 0⟩) s.img.fports p

/-- Own address, next hop and VLAN tag bytes of a port. -/
def FPortCfg.addr (c : FPortCfg) : List Nat := leBytes 16 c.ip
/-- Next-hop MAC address. -/
def FPortCfg.hopMac (c : FPortCfg) : List Nat := leBytes 6 c.mac
/-- VLAN tag, when the image sets one. -/
def FPortCfg.tag (c : FPortCfg) : List Nat :=
  if bitOf c.vlan 0 then [0x81, 0] ++ beBytes 2 (bitsOf c.vlan 1 3 * 8192 + c.vid % 4096) else []

/-- An Ethernet frame carrying an IPv6 packet. -/
def ethFrame (c : FPortCfg) (p : Nat) (label next hop : Nat) (dst body : List Nat) : List Nat :=
  let ip := beBytes 4 (6 * 2 ^ 28 + c.dscp % 64 * 2 ^ 22 + label % 2 ^ 20) ++ beBytes 2 body.length ++ [next, hop] ++ c.addr ++ dst ++ body
  let f := c.hopMac ++ leBytes 6 (Config.farMac p).toNat ++ c.tag ++ [0x86, 0xDD] ++ ip
  f ++ leBytes 4 (fcs f)

/-- A UDP datagram with its checksum; a sum of zero is sent as all ones. -/
def udpBody (c : FPortCfg) (dst payload : List Nat) : List Nat :=
  let h := fun (sum : Nat) => beBytes 2 c.udp ++ beBytes 2 c.udp ++ beBytes 2 (8 + payload.length) ++ beBytes 2 sum ++ payload
  let k := ip6Sum c.addr dst 17 (h 0)
  h (if k = 0 then 65535 else k)

/-! ## The partner table (Table 13.2) -/

/-- Word k of site n's entry. -/
def State.pw (s : State) (n k : Nat) : Nat := (s.reg (aXPART (n * 8 + k))).toNat
/-- Store word k of site n's entry. -/
def State.setPw (s : State) (n k v : Nat) : State := s.setReg (aXPART (n * 8 + k)) (BitVec.ofNat 64 v)
/-- STATE: 0 NONE, 1 ACTIVE, 2 DORMANT, 3 CATCHING; the own site's entry reads NONE (R397). -/
def State.pState (s : State) (n : Nat) : Nat := if n = s.fld XCFG_SITE then 0 else bitsOf (s.pw n 0) 8 2
/-- Set STATE. -/
def State.setPState (s : State) (n v : Nat) : State := s.setPw n 0 (putBits (s.pw n 0) 8 2 v)
/-- SPONSOR. -/
def State.pSponsor (s : State) (n : Nat) : Bool := bitOf (s.pw n 0) 10
/-- VER: 1 until a HELLO arrives. -/
def State.pVer (s : State) (n : Nat) : Nat := max 1 (bitsOf (s.pw n 0) 16 2)
/-- ACTRND. -/
def State.pActrnd (s : State) (n : Nat) : Nat := bitsOf (s.pw n 0) 32 32
/-- The partner's address reached through port p. -/
def State.pAddr (s : State) (n p : Nat) : List Nat := leBytes 8 (s.pw n (1 + 2 * p)) ++ leBytes 8 (s.pw n (2 + 2 * p))
/-- A partner counts in a round (R397). -/
def State.pCounts (s : State) (n r : Nat) : Bool := s.pState n == 1 && decide (s.pActrnd n ≤ r)
/-- Partners counting in a round. -/
def State.counting (s : State) (r : Nat) : List Nat := (List.range 16).filter fun n => s.pCounts n r

/-! ## Far packets -/

/-- Packet types. -/
def ftFrag : Nat := 1
/-- HELLO. -/
def ftHello : Nat := 2
/-- JOIN. -/
def ftJoin : Nat := 3
/-- CATCH. -/
def ftCatch : Nat := 4
/-- ENTER. -/
def ftEnter : Nat := 5

/-- What a far packet says beside its fixed fields. -/
structure FarMsg where
  typ : Nat
  round : Nat
  frag : Nat
  nfrag : Nat
  flag : Nat
  aux : Nat
  payload : List Nat
  deriving DecidableEq, Repr

/-- The 48-byte far header (Table 13.4). -/
def State.farHeader (s : State) (n ver keyid : Nat) (m : FarMsg) : List Nat :=
  [0xA1, 0x58, ver, m.typ, keyid, s.fld XCFG_SITE + 16 * n] ++ leBytes 2 s.rank ++ leBytes 4 (s.fld XJOB_JOB) ++ leBytes 4 m.round
    ++ leBytes 4 m.frag ++ leBytes 4 m.nfrag ++ leBytes 2 m.payload.length ++ [m.flag, 0] ++ leBytes 8 s.now ++ leBytes 4 m.aux
    ++ List.replicate 8 0

/-- The key slot of a KEYID. -/
def State.farSlot (s : State) (keyid : Nat) : Nat := if keyid = 0 then s.fld XCFG_KEYSLOT0 else s.fld XCFG_KEYSLOT1

/-- Build the frame of a message to partner n through port p (R402); none when the key is missing (R509). -/
def State.farFrame (s : State) (n p : Nat) (m : FarMsg) : Option (List Nat) :=
  let c := s.fport p
  let link := s.pVer n
  let keyid := if link = 1 then 0 else s.fld XKEY_USE
  let ver := if m.typ = ftHello then s.fld XCFG_MAXVER else link
  match s.keyFor (s.farSlot keyid) useFar with
  | none => none
  | some key =>
    let u := s.farHeader n ver keyid m ++ m.payload
    let label := m.frag % 16 * 4096 + s.fld XCFG_SITE
    some (ethFrame c p label 17 c.hop (s.pAddr n p) (udpBody c (s.pAddr n p) (u ++ cmac key u)))

/-! ## Receiving -/

/-- Offset of the IPv6 header behind the MAC addresses and the tag the image asks for; none where the frame is not IPv6, carries
another VID, or fails its check sequence; IEEE 802.3 frames have 64 bytes or more. -/
def ip6At (c : FPortCfg) (f : List Nat) : Option Nat :=
  if f.length < 64 ∨ 9216 < f.length ∨ le f (f.length - 4) 4 ≠ fcs (f.take (f.length - 4)) then none
  else
    let tagged := be f 12 2 == 0x8100
    let o := if tagged then 18 else 14
    let vid := be f 14 2 % 4096
    if tagged != bitOf c.vlan 0 || (tagged && vid != c.vid % 4096) then none
    else if be f (o - 2) 2 ≠ 0x86DD ∨ be f o 1 / 16 ≠ 6 then none
    else some o

/-- The UDP payload of a frame that passes step 1 of R407: its checksum covers what the UDP length names (RFC 768, RFC 8200). -/
def udpPayload (c : FPortCfg) (f : List Nat) : Option (List Nat) :=
  match ip6At c f with
  | none => none
  | some o =>
    let src := (f.drop (o + 8)).take 16
    let dst := (f.drop (o + 24)).take 16
    let n := be f (o + 4) 2
    let u := be f (o + 44) 2
    let body := (f.drop (o + 40)).take u
    let ok := dst == c.addr && be f (o + 6) 1 == 17 && body.length == u && decide (8 ≤ u) && decide (u ≤ n) && decide (o + 40 + n + 4 ≤ f.length)
      && be body 2 2 == c.udp && be body 6 2 != 0
      && fold16 (sum16 (src ++ dst ++ beBytes 4 u ++ [0, 0, 0, 17] ++ body)) == 65535
    if ok then some (body.drop 8) else none

/-- What the checks of R407, steps 1 to 4, come to. -/
inductive RxFar where
  /-- discarded at step 1 -/
  | drop
  /-- malformed -/
  | malform
  /-- tag failure: SSITE, KEYID -/
  | tag (site keyid : Nat)
  /-- passed: SSITE, VER field, message -/
  | ok (site ver : Nat) (m : FarMsg)
  deriving DecidableEq, Repr

/-- Steps 1 to 4 of R407. In HELLO the VER field is an offer, which R417 judges. -/
def State.farCheck (s : State) (p : Nat) (f : List Nat) : RxFar :=
  match udpPayload (s.fport p) f with
  | none => .drop
  | some u =>
    let plen := le u 24 2
    if u.length < 64 ∨ le u 0 2 ≠ 0x58A1 ∨ u.length ≠ 64 + plen ∨ 4160 < plen then .malform
    else
      let site := bitsOf (le u 5 1) 0 4
      let keyid := bitsOf (le u 4 1) 0 1
      let body := u.take (48 + plen)
      let good := !(keyid == 1 && s.pVer site == 1) && (match s.keyFor (s.farSlot keyid) useFar with
        | some key => cmac key body == u.drop (48 + plen)
        | none => false)
      let typ := le u 3 1
      let ver := bitsOf (le u 2 1) 0 2
      if !good then .tag site keyid
      else if le u 8 4 ≠ s.fld XJOB_JOB ∨ bitsOf (le u 5 1) 4 4 ≠ s.fld XCFG_SITE ∨ le u 6 2 ≠ s.rank
          ∨ (typ ≠ ftHello ∧ s.fld XCFG_MAXVER < ver) ∨ typ = 0 ∨ 5 < typ ∨ s.pState site = 0
          ∨ bitsOf (le u 2 1) 2 6 ≠ 0 ∨ bitsOf (le u 4 1) 1 7 ≠ 0 ∨ le u 27 1 ≠ 0 ∨ nz u 40 8 then .malform
      else .ok site ver ⟨typ, le u 12 4, le u 16 4, le u 20 4, le u 26 1, le u 36 4, body.drop 48⟩

end Sys2Proof.Machine
end

