-- ==== Sys2Proof/Machine/FarProg.lean ====
section
/-! DEFINITION. The far exchange's bindery programs: selection XSEL and the outer step XOUT (R399 to R401, R412). -/

namespace Sys2Proof.Machine

/-! ## The argument block (Table 13.3) -/

/-- ROUND. -/
def xaRound (a : List Nat) : Nat := le a 0 4
/-- KQ. -/
def xaKq (a : List Nat) : Nat := bitsOf (le a 4 1) 0 3
/-- OWNEX. -/
def xaOwnex (a : List Nat) : Bool := bitOf (le a 4 1) 0
/-- MXMO. -/
def xaMxmo (a : List Nat) : Bool := bitOf (le a 4 1) 1
/-- NELEM. -/
def xaNelem (a : List Nat) : Nat := le a 8 8
/-- Fragments of the range. -/
def xaFrags (a : List Nat) : Nat := xaNelem a / 65536
/-- NENT. -/
def xaNent (a : List Nat) : Nat := le a 80 4
/-- FBASE. -/
def xaFbase (a : List Nat) : Nat := le a 84 4

/-- Header bytes before the entries of a manifest, and of its slice in a stack (R410). -/
def manHead : Nat := 128

/-- Arrays of a RUN: offset field and bytes of the range. -/
def xArrays (out : Bool) (a : List Nat) : List (Nat × Nat) :=
  let n := xaNelem a
  if out then
    [(16, 4 * n), (24, 4 * n), (32, 2 * n)] ++ (if xaOwnex a then [] else [(40, n / 16)])
      ++ (if xaMxmo a then [(48, n), (56, n / 32)] else [(48, 2 * n)])
      ++ [(64, manHead + 8 * xaNent a), (72, 4096 * xaNent a)]
  else [(16, 4 * n), (24, 4 * n), (32, 2 * n), (40, n / 16)]

/-- The PROG codes of a far RUN that hold; cur is the STATE word found. -/
def xFault (out : Bool) (a : List Nat) (cur : Nat) : List Nat :=
  let rsv := if out then decide (4 ≤ le a 4 1) else decide (8 ≤ le a 4 1) || xaKq a == 0 || decide (4 < xaKq a)
  codesOf
    [(rsv || nz a 5 3 || nz a 88 24, 2), (xaNelem a % 65536 != 0 || decide (2 ^ 36 < xaNelem a), 0x13),
      (bitsOf cur 0 32 != xaRound a && !bitOf cur 52 && bitsOf cur 32 20 != 0, 0x15)]

/-- Write the STATE granule: round, cursor, DONE and NFIN, the granule's other bytes kept. -/
def State.xState (s : State) (st aoff round cursor : Nat) (done : Bool) (nfin : Nat) : State :=
  let d := stackBase st + aoff + 64
  let r := s.stkRead d 64
  let w := round % 2 ^ 32 + cursor % 2 ^ 20 * 2 ^ 32 + (if done then 2 ^ 52 else 0)
  r.2.stkWrite d (r.1.take 48 ++ (leBytes 8 w ++ leBytes 8 nfin).map fun b => (b, false))

/-- What Engine.aux holds of a far RUN: 6 XSEL or 7 XOUT, the slot, the block's offset, NFIN, then the 128 argument bytes. -/
def xMark (out : Bool) : Nat := if out then 7 else 6

/-- Start a far RUN (R401, R544). -/
def State.xStart (s : State) (st e : Nat) (d : List Nat) (out : Bool) : State :=
  let r := s.stkRead (stackBase st + bdA2 d) 128
  let a := r.1.map (·.1)
  let s := r.2
  let cur := le a 112 8
  let f := xFault out a cur
  if anyPois r.1 then s.engEnd st e bsProg 8
  else if (xArrays out a).any fun x => le a x.1 8 % 64 != 0 then s.engEnd st e bsAlign 0
  else if f ≠ [] then s.freshen.engEnd st e bsProg (s.oneOf f)
  else if (xArrays out a).any fun x => !s.inTop st (le a x.1 8) x.2 then s.engEnd st e bsAddr 0
  else
    let same := bitsOf cur 0 32 == xaRound a
    if same && bitOf cur 52 then s.engEnd st e 0 0
    else
      let nfin := if same then le a 120 8 else 0
      let c := if same then bitsOf cur 32 20 else 0
      let s := if same then s else s.xState st (bdA2 d) (xaRound a) 0 false 0
      s.modEngine st e fun x => { x with aux := [xMark out, bdProg d, bdA2 d, nfin] ++ a, chunk := c }

/-- XSEL (R399, R401): the RUN begins. -/
def execXsel (st e : Nat) (s : State) : Res := match s.engRunKind st e 0x10 with
  | some d => .next (s.xStart st e d false)
  | none => .next s

/-- XOUT (R401, R412): the RUN begins. -/
def execXout (st e : Nat) (s : State) : Res := match s.engRunKind st e 0x11 with
  | some d => .next (s.xStart st e d true)
  | none => .next s

/-! ## One fragment of XSEL -/

/-- A block's selection (R399): entries by ascending element (element, BF16 value), the new residuals, non-finite elements met. -/
structure XBlock where
  sel : List (Nat × Nat)
  res : List Nat
  nfin : Nat
  deriving DecidableEq, Repr

/-- Select K of a block's elements. -/
def xBlock (k : Nat) (as_ ws es : List Nat) : XBlock :=
  let us := (es.zip (as_.zip ws)).map fun p => fl ((bv p.1).add (fv (fSub p.2.1 p.2.2)))
  let best := ((us.zipIdx).filter fun u => !fNonFin u.1).foldl (fun acc u => rankInsert (u.2, (fv u.1).abs) acc) []
  let chosen := (best.take k).map (·.1)
  let vs := us.map fun u => toBf16 (fv u)
  let sel := (List.range us.length).filter fun i => chosen.contains i
  let res := (us.zipIdx).map fun u =>
    if chosen.contains u.2 then toBf16 (fv (fl ((fv u.1).add (bv (nth 0 vs u.2)).negate)))
    else if fNonFin u.1 then 0
    else nth 0 vs u.2
  ⟨sel.map fun i => (i, nth 0 vs i), res, (us.filter fNonFin).length⟩

/-- The sparse page (R400): entries whose value is not zero in ascending index, then padding. -/
def xPage (ents : List (Nat × Nat)) : List Nat :=
  let es := (ents.filter fun e => e.2 % 32768 != 0).take 1024
  let pad := 1024 - es.length
  (es.flatMap fun e => leBytes 2 e.1) ++ (List.range pad).flatMap (fun _ => [255, 255])
    ++ (es.flatMap fun e => leBytes 2 e.2) ++ List.replicate (2 * pad) 0

/-- Fragment f of XSEL: its page and residuals written (R400); failed channel met, poisoned, non-finite elements. A block read
poisoned poisons its residuals and the page. -/
def State.xselFrag (s : State) (st : Nat) (a : List Nat) (f : Nat) : (Bool × Bool × Nat) × State :=
  let b := stackBase st
  let ra := s.stkRead (b + le a 16 8 + f * 262144) 262144
  let rw := ra.2.stkRead (b + le a 24 8 + f * 262144) 262144
  let re := rw.2.stkRead (b + le a 32 8 + f * 131072) 131072
  let part := fun (l : List (Nat × Bool)) (w k : Nat) => (l.drop (4096 * w * k)).take (4096 * w)
  let bl := (List.range 16).map fun k =>
    let pa := part ra.1 4 k
    let pw := part rw.1 4 k
    let pe := part re.1 2 k
    (anyPois (pa ++ pw ++ pe), xBlock (16 * xaKq a) (wordsOf 4 4096 pa) (wordsOf 4 4096 pw) (wordsOf 2 4096 pe))
  let pois := bl.any (·.1)
  let ents := (bl.zipIdx).flatMap fun x => x.1.2.sel.map fun e => (4096 * x.2 + e.1, e.2)
  let dp := b + le a 40 8 + f * 4096
  let de := b + le a 32 8 + f * 131072
  let s := re.2.stkWrite dp ((xPage ents).map fun x => (x, pois))
  let s := s.stkWrite de (bl.flatMap fun x => (wordBytes 2 x.2.res).map fun y => (y, x.1))
  ((s.hitsFailed dp 4096 || s.hitsFailed de 131072, pois, (bl.map fun x => if x.1 then 0 else x.2.nfin).sum), s)

/-! ## One fragment of XOUT (R412) -/

/-- A page's entries: index, value. -/
def pageEntries (bs : List (Nat × Bool)) : List (Nat × Nat) :=
  (List.range 1024).map fun j => (valOf ((bs.drop (2 * j)).take 2), valOf ((bs.drop (2048 + 2 * j)).take 2))

/-- Padding. -/
def isPad (e : Nat × Nat) : Bool := e.1 == 0xFFFF && e.2 == 0

/-- Non-padding indices strictly ascend and no padding stands before one. -/
def pageOk : List (Nat × Nat) → Bool
  | [] => true
  | e :: es =>
    (match es with
      | [] => true
      | f :: _ => if isPad e then isPad f else isPad f || decide (e.1 < f.1)) && pageOk es

/-- Entries that take part: not padding, and neither zero, infinite nor NaN. -/
def liveEntry (e : Nat × Nat) : Bool := !isPad e && e.2 % 32768 != 0 && !bNonFin e.2

/-- Entries skipped for their value, counted in NFIN. -/
def skipEntry (e : Nat × Nat) : Bool := !isPad e && !(e.2 % 32768 != 0 && !bNonFin e.2)

/-- Add a page to the sums, each entry weighted; w = 1.0 adds the value itself. -/
def addPage (weight : Option Nat) (S : List Nat) (es : List (Nat × Nat)) : List Nat :=
  (es.filter liveEntry).foldl (fun S e =>
    let v := match weight with
      | none => fl (bv e.2)
      | some w => fMul w (fl (bv e.2))
    setNth S e.1 (fAdd (nth 0 S e.1) v)) S

/-- A slice entry (R410). -/
structure SliceEnt where
  d : Nat
  frag : Nat
  j : Nat
  deriving DecidableEq, Repr

/-- The slice's entries of one fragment, in slice order. -/
def sliceFor (bs : List (Nat × Bool)) (n frag : Nat) : List SliceEnt :=
  ((List.range n).map fun j =>
    let w := valOf ((bs.drop (manHead + 8 * j)).take 8)
    (⟨bitsOf w 25 3, bitsOf w 32 32, j⟩ : SliceEnt)).filter fun x => x.frag == frag

/-- The pages a fragment takes in: weight and bytes, own page first. -/
def State.xoutPages (s : State) (st : Nat) (a slot : List Nat) (f : Nat) (ents : List SliceEnt) :
    List (Option Nat × List (Nat × Bool)) × State :=
  let b := stackBase st
  let own := if xaOwnex a then ([], s)
    else
      let r := s.stkRead (b + le a 40 8 + f * 4096) 4096
      ([((none : Option Nat), r.1)], r.2)
  ents.foldl (fun acc x =>
    let r := acc.2.stkRead (b + le a 72 8 + x.j * 4096) 4096
    (acc.1 ++ [(some (if x.d = 0 then fOne else le slot (8 + 4 * x.d) 4), r.1)], r.2)) own

/-- The element update of the outer step: new weight, new momentum before it is stored (R412). -/
def xStep (rn mu lro S mo av : Nat) : Nat × Nat :=
  let g := fMul S rn
  let m := fAdd (fMul mu mo) g
  let q := fAdd (fMul mu m) g
  (fSub av (fMul lro q), m)

/-- Fragment f of XOUT: none when a page is out of order (DETAIL 0x14); else failed channel met, poisoned, skipped values. -/
def State.xoutFrag (s : State) (st : Nat) (a slot : List Nat) (f : Nat) : Option (Bool × Bool × Nat) × State :=
  let b := stackBase st
  let sl := s.stkRead (b + le a 64 8) (manHead + 8 * xaNent a)
  let ps := sl.2.xoutPages st a slot f (sliceFor sl.1 (xaNent a) (xaFbase a + f))
  let pages := ps.1.map fun p => (p.1, anyPois p.2, pageEntries p.2)
  let s := ps.2
  if pages.any fun p => !p.2.1 && !pageOk p.2.2 then (none, s)
  else
    let allP := anyPois sl.1 || pages.any fun p => p.2.1
    let S := pages.foldl (fun S p => addPage p.1 S p.2.2) (List.replicate 65536 0)
    let rn := valOf ((sl.1.drop 8).take 4)
    let mx := xaMxmo a
    let ra := s.stkRead (b + le a 16 8 + f * 262144) 262144
    let rm := ra.2.stkRead (b + le a 48 8 + f * (if mx then 65536 else 131072)) (if mx then 65536 else 131072)
    let rs := if mx then rm.2.stkRead (b + le a 56 8 + f * 2048) 2048 else ([], rm.2)
    let s := rs.2
    let mos := (List.range 65536).map fun i =>
      if mx then
        let sc := nth (0, false) rs.1 (i / 32)
        let x := nth (0, false) rm.1 i
        (fl (decodeElem 0xC x.1 sc.1), x.2 || sc.2)
      else
        let x := (rm.1.drop (2 * i)).take 2
        (fl (bv (valOf x)), anyPois x)
    let els := (List.range 65536).map fun i =>
      let av := (ra.1.drop (4 * i)).take 4
      let mo := nth (0, false) mos i
      (xStep rn (le slot 8 4) (le slot 4 4) (nth 0 S i) mo.1 (valOf av), allP || anyPois av || mo.2)
    let wbytes := els.flatMap fun x => asBytes 4 x.1.1 x.2
    let gbytes := els.flatMap fun x => asBytes 2 (toBf16 (fv x.1.1)) x.2
    let blocks := if mx then (List.range 2048).map fun k =>
        let g := (els.drop (32 * k)).take 32
        (encodeMX 0xC (g.map fun x => fv x.1.2) [], g.any (·.2)) else []
    let mbytes := if mx then blocks.flatMap fun x => x.1.elems.map fun y => (y, x.2)
      else els.flatMap fun x => asBytes 2 (toBf16 (fv x.1.2)) x.2
    let s := s.each blocks fun s x => if x.2 then s else s.bblk st x.1.flushes
    let put := fun (s : State) (o per : Nat) (bs : List (Nat × Bool)) => s.stkWrite (b + le a o 8 + f * per) bs
    let s := put (put (put s 16 262144 wbytes) 24 262144 wbytes) 32 131072 gbytes
    let s := put s 48 (if mx then 65536 else 131072) mbytes
    let s := if mx then put s 56 2048 (blocks.map fun x => (x.1.sc, x.2)) else s
    let failed := s.hitsFailed (b + le a 16 8 + f * 262144) 262144 || s.hitsFailed (b + le a 24 8 + f * 262144) 262144
      || s.hitsFailed (b + le a 32 8 + f * 131072) 131072
      || s.hitsFailed (b + le a 48 8 + f * (if mx then 65536 else 131072)) (if mx then 65536 else 131072)
      || (mx && s.hitsFailed (b + le a 56 8 + f * 2048) 2048)
    let skipped := (pages.map fun p => if p.2.1 then 0 else (p.2.2.filter skipEntry).length).sum
    (some (failed, els.any (·.2), skipped), s)

/-! ## Fragments complete -/

/-- One fragment of the far RUN in progress: outputs, then the STATE granule (R401). -/
def State.fragStep (s : State) (st e : Nat) : State :=
  let x := s.engine st e
  let out := nth 0 x.aux 0 == 7
  let slot := s.slotRec st (nth 0 x.aux 1)
  let aoff := nth 0 x.aux 2
  let nfin := nth 0 x.aux 3
  let a := x.aux.drop 4
  let n := xaFrags a
  if n ≤ x.chunk then (s.xState st aoff (xaRound a) n true nfin).engEnd st e (runStatus x.media x.pois) 0
  else
    let r := if out then s.xoutFrag st a slot x.chunk
      else
        let q := s.xselFrag st a x.chunk
        (some q.1, q.2)
    match r.1 with
    | none => r.2.engEnd st e bsProg 0x14
    | some q =>
      let c := x.chunk + 1
      let nfin := nfin + q.2.2
      let s := r.2.xState st aoff (xaRound a) c (decide (n ≤ c)) nfin
      let s := s.modEngine st e fun y =>
        { y with chunk := c, media := y.media || q.1, pois := y.pois || q.2.1, aux := y.aux.take 3 ++ [nfin] ++ a }
      if n ≤ c then s.engEnd st e (runStatus (x.media || q.1) (x.pois || q.2.1)) 0 else s

/-- FRAGMENT_COMPLETE (R400, R401, R412). -/
def execFragmentComplete (st e : Nat) (s : State) : Res :=
  let x := s.engine st e
  .next (if st < 8 ∧ e < 8 ∧ x.stage = .running ∧ x.aux.length = 132 then s.fragStep st e else s)

end Sys2Proof.Machine
end

