-- ==== Sys2Proof/Machine/Far.lean ====
section
/-! DEFINITION. The far unit: sending, receiving, rounds and manifests, accession, HELLO, replayed rounds (R397, R403 to R411,
R414 to R418, R436, R446). -/

namespace Sys2Proof.Machine

/-! ## Small operations -/

/-- Set an XEVT bit; a bit newly set adds 1 to XNTGT's target. -/
def State.xevt (s : State) (f : Fld) : State :=
  if s.flag f then s
  else
    let s := s.setFld f 1
    if s.fld XNTGT_TGT = 0 then s else s.deliverAdd (s.fld XNTGT_TGT) 1

/-- A report of a far port (SRC class 4). -/
def State.farReport (s : State) (p typ sev addr detail : Nat) : State := s.report p typ sev (srcOf 4 p) addr detail

/-- The far link of port p is up. -/
def State.farUp (s : State) (p : Nat) : Bool := decide (p < 2) && s.flag (XPSTAT_UP p)

/-- The lowest far port that is up. -/
def State.anyFar (s : State) : Option Nat := (List.range 2).find? fun p => s.farUp p

/-- Queue a control frame on a port (R405). -/
def State.farCtl (s : State) (p : Nat) (f : List Nat) : State :=
  let x := SMap.get (fun _ => FarPort.reset) s.far.ports p
  { s with far := { s.far with ports := SMap.set (fun _ => FarPort.reset) s.far.ports p { x with ctl := x.ctl ++ [f] } } }

/-- Queue a control message to partner n, on the port given when it is up, else on the other; dropped when neither is. -/
def State.farSay (s : State) (n want : Nat) (m : FarMsg) : State :=
  let port := if s.farUp want then some want else s.anyFar
  match port with
  | none => s.bump (XPDROP_TXDROP want) 1
  | some p => match s.farFrame n p m with
    | some f => s.farCtl p f
    | none => s.bump (XPDROP_TXDROP p) 1

/-- Partners whose STATE is not NONE. -/
def State.partners (s : State) : List Nat := (List.range 16).filter fun n => s.pState n != 0

/-- The partner whose SPONSOR bit is set. -/
def State.sponsor (s : State) : Option Nat := s.partners.find? fun n => s.pSponsor n

/-- Device address of byte o of area n (Table 13.24). -/
def State.xarea (s : State) (n o : Nat) : Nat := stackBase (s.fld (XAREA_STACK n)) + s.fld (XAREA_OFFSET n) + o

/-- Write bytes that end inside a granule: the granule's other bytes stay. -/
def State.areaWrite (s : State) (d : Nat) (bs : List Nat) : State :=
  let n := ceilDiv bs.length 64 * 64
  if !s.isMem d n then s
  else
    let r := s.memRead d n uExternal
    r.2.memWrite d (bs.map (fun b => (b, false)) ++ r.1.drop bs.length)

/-- Write four bytes of a table in memory, the rest of a stack granule kept. -/
def State.wordWrite (s : State) (a v : Nat) : State :=
  let d := addrDev a
  let g := d - d % 64
  if !s.isLocal a || !s.isMem g 64 then s
  else
    let r := s.memRead g 64 uExternal
    r.2.memWrite g (r.1.take (d - g) ++ (leBytes 4 v).map (fun b => (b, false)) ++ r.1.drop (d - g + 4))

/-! ## Descriptors (Table 13.5) -/

/-- TYPE. -/
def fdType (d : List Nat) : Nat := le d 0 1
/-- PORTS. -/
def fdPorts (d : List Nat) : Nat := bitsOf (le d 1 1) 0 2
/-- CPART. -/
def fdPart (d : List Nat) : Nat := bitsOf (le d 1 1) 2 2
/-- NPARTS. -/
def fdParts (d : List Nat) : Nat := bitsOf (le d 1 1) 4 2
/-- PMASK. -/
def fdMask (d : List Nat) : Nat := le d 2 2
/-- ROUND. -/
def fdRound (d : List Nat) : Nat := le d 4 4
/-- RUN. -/
def fdRun (d : List Nat) : Nat := le d 8 8
/-- RLEN. -/
def fdRlen (d : List Nat) : Nat := le d 16 8
/-- NFRAG. -/
def fdNfrag (d : List Nat) : Nat := le d 24 4
/-- FBASE. -/
def fdFbase (d : List Nat) : Nat := le d 28 4
/-- OFFTAB. -/
def fdOfftab (d : List Nat) : Nat := le d 32 8
/-- CTGT. -/
def fdCtgt (d : List Nat) : Nat := le d 40 8
/-- CVAL. -/
def fdCval (d : List Nat) : Nat := le d 48 4
/-- KQ. -/
def fdKq (d : List Nat) : Nat := le d 52 1

/-- The descriptor at the head ends: its target is updated (R404). -/
def State.farDone (s : State) : State := match s.far.jobs with
  | [] => s
  | j :: js => ({ s with far := { s.far with jobs := js } }).deliverCtx j.ctx (fdCtgt j.desc) (fdCval j.desc)

/-- Descriptors at the head with no folio left end; n bounds them. -/
def State.farSettle (s : State) : Nat → State
  | 0 => s
  | n + 1 => match s.far.jobs with
    | j :: _ => if fdNfrag j.desc ≤ j.folio then s.farDone.farSettle n else s
    | [] => s

/-- A descriptor breaks Table 13.5: TYPE, the alignment of RUN, a reserved field, or a CATCH's CPART or NPARTS. -/
def fdWrong (d : List Nat) : Bool :=
  (fdType d != 1 && fdType d != 4) || fdRun d % 64 != 0 || bitsOf (le d 1 1) 6 2 != 0 || (d.drop 53).any (· != 0)
    || (fdType d == 4 && (fdPart d == 3 || decide (fdParts d < 2) || decide (3 < fdParts d)))

/-- A store of a descriptor address to XSUB (R403): want is the TYPE the row is for, none where any is taken. -/
def State.farSubmit (s : State) (c a : Nat) (want : Option Nat) : State :=
  if 8 ≤ s.far.jobs.length then s.xevt XEVT_CMDERR
  else if !s.ctxMay c a 64 || a % 64 != 0 || !s.isMem (addrDev a) 64 then s.xevt XEVT_CMDERR
  else
    let r := s.memRead (addrDev a) 64 uExternal
    let d := r.1.map (·.1)
    let s := r.2
    if anyPois r.1 ∨ fdWrong d then s.xevt XEVT_CMDERR
    else if want.isSome ∧ want ≠ some (fdType d) then s
    else
      let sites := (List.range 16).filter fun n => bitOf (fdMask d) n
      let part := fdPart d
      let served := if fdType d = 4 then
          (s.far.served.filter fun v => !(sites.contains v.1 && v.2.1 == part)) ++ sites.map fun n => (n, part, d)
        else s.far.served
      let j : FarJob := ⟨d, a, c, 0, 0, none⟩
      ({ s with far := { s.far with jobs := s.far.jobs ++ [j], served := served } }).farSettle 8

/-- FAR_SEND_FRAG (R403, R404): context c stores the address of a FRAG descriptor to XSUB. -/
def execFarSendFrag (c a : Nat) (s : State) : Res :=
  .next (if s.trainMay c then s.farSubmit c a (some 1) else s.refuse aXSUB c)

/-- FAR_SEND_CATCH (R403, R414, R415). -/
def execFarSendCatch (c a : Nat) (s : State) : Res :=
  .next (if s.trainMay c then s.farSubmit c a (some 4) else s.refuse aXSUB c)

/-! ## Transmission (R404, R405) -/

/-- The folio at an offset of a run: its bytes, when its header is sound and it lies in the run. -/
def State.folioAt (s : State) (d : List Nat) (off : Nat) : Option (List Nat) × State :=
  let a := addrDev (fdRun d) + off
  if !s.isLocal (fdRun d) || fdRlen d < off + 64 || !s.isMem a 64 then (none, s)
  else
    let h := s.memRead a 64 uExternal
    let len := folioHdrLen (h.1.map (·.1))
    if anyPois h.1 ∨ valOf (h.1.take 1) ≠ 0xA7 ∨ len = 0 ∨ 4160 < len ∨ fdRlen d < off + len ∨ !s.isMem a len then (none, h.2)
    else
      let r := h.2.memRead a len uExternal
      (if anyPois r.1 then none else some (r.1.map (·.1)), r.2)

/-- The message that carries a folio of a descriptor. -/
def farData (d : List Nat) (frag : Nat) (folio : List Nat) : FarMsg :=
  if fdType d = 1 then ⟨1, fdRound d, frag, fdNfrag d, fdKq d % 8, 0, folio⟩
  else ⟨4, fdRound d, frag, fdNfrag d, fdPart d + 4 * fdParts d, 0, folio⟩

/-- The port a packet is due on, and the one that carries it. -/
def State.farRoute (s : State) (d : List Nat) (frag : Nat) : Nat × Option Nat :=
  let named := (List.range 2).filter fun p => bitOf (fdPorts d) p
  let due := if named.length = 1 then nth 0 named 0 else frag % 2
  let up := named.filter fun p => s.farUp p
  (due, if up.length = 2 then some (frag % 2) else up.head?)

/-- The token bucket's level at this moment, in 1/8,000 byte: full at first, at most BURST. -/
def State.farLevel (s : State) (p : Nat) : Nat :=
  let x := SMap.get (fun _ => FarPort.reset) s.far.ports p
  let cap := s.fld (XPRATE_BURST p) * 1024 * 8000
  match x.lvl with
  | none => cap
  | some l => min cap (l + (s.clk - x.at_) * s.fld (XPRATE_RATE p))

/-- What a frame takes from the bucket. -/
def farCost (f : List Nat) : Nat := (20 + f.length) * 8000

/-- Send a frame that the bucket holds. -/
def State.farEmit (s : State) (p : Nat) (f : List Nat) (pkt : Bool) : State :=
  let x := SMap.get (fun _ => FarPort.reset) s.far.ports p
  let x := { x with lvl := some (s.farLevel p - farCost f), at_ := s.clk }
  let s := { s with far := { s.far with ports := SMap.set (fun _ => FarPort.reset) s.far.ports p x } }
  let s := s.emit (.far p f)
  if pkt then s.bump (XPCNT_TXPKT p) 1 else s

/-- A frame is a far packet: its Next Header is UDP, not ICMPv6. -/
def FPortCfg.isFar (c : FPortCfg) (f : List Nat) : Bool := be f (20 + c.tag.length) 1 == 17

/-- A packet to partner n on its way to port p: dropped without a port or a key, else sent when the bucket holds it. Answers none
while it must wait or belongs to the other port. -/
def State.farPush (s : State) (p n : Nat) (d : List Nat) (m : FarMsg) : Option State :=
  match s.farRoute d m.frag with
  | (due, none) => if due = p then some (s.bump (XPDROP_TXDROP due) 1) else none
  | (_, some q) =>
    if q ≠ p then none
    else match s.farFrame n q m with
      | none => some (s.bump (XPDROP_TXDROP q) 1)
      | some f => if s.farLevel q < farCost f then none else some (s.farEmit q f true)

/-- Replace the descriptor at the head. -/
def State.setJob (s : State) (j : FarJob) : State := { s with far := { s.far with jobs := j :: s.far.jobs.drop 1 } }

/-- One packet, or one folio without recipients, of the descriptor at the head. -/
def State.farNext (s : State) (p : Nat) (j : FarJob) : State :=
  let d := j.desc
  let r := s.folioAt d j.off
  match r.1 with
  | none => ((r.2.xevt XEVT_SENDERR).farReport 0 0x63 1 j.addr j.folio).farDone
  | some folio =>
    let s := r.2
    let s := if j.owed.isNone ∧ fdType d = 4 then s.wordWrite (fdOfftab d + 4 * j.folio) j.off else s
    let all := (List.range 16).filter fun n => bitOf (fdMask d) n
    let live := fun (n : Nat) => s.pState n == 1 || s.pState n == 3
    let owed := (j.owed.getD all).filter live
    match owed with
    | [] => (s.setJob { j with folio := j.folio + 1, off := j.off + folio.length, owed := none }).farSettle 8
    | n :: rest =>
      match s.farPush p n d (farData d (fdFbase d + j.folio) folio) with
      | none => s.setJob { j with owed := some owed }
      | some s =>
        if rest.isEmpty then (s.setJob { j with folio := j.folio + 1, off := j.off + folio.length, owed := none }).farSettle 8
        else s.setJob { j with owed := some rest }

/-- One page of a repair (R415): read through the OFFTAB of the descriptor that served it; a page it cannot give is passed over. -/
def State.farRepair (s : State) (p : Nat) (q : Nat × Nat × Nat) : State :=
  let gone := { s with far := { s.far with repairs := s.far.repairs.drop 1 } }
  match s.far.served.find? fun v => v.1 == q.1 && v.2.1 == q.2.1 with
  | none => gone
  | some v =>
    let d := v.2.2
    let k := q.2.2 - fdFbase d
    let a := addrDev (fdOfftab d) + 4 * k
    if q.2.2 < fdFbase d ∨ fdNfrag d ≤ k ∨ !s.isLocal (fdOfftab d) ∨ !s.isMem a 4 then gone
    else
      let r := s.memRead (a - a % 64) 64 uExternal
      let w := (r.1.drop (a % 64)).take 4
      let f := r.2.folioAt d (valOf w)
      match f.1 with
      | none => gone
      | some folio =>
        match f.2.farPush p q.1 d (farData d q.2.2 folio) with
        | none => s
        | some s => { s with far := { s.far with repairs := s.far.repairs.drop 1 } }

/-- FAR_PACKET_TRANSMIT (R404, R405): the next packet of port p: control frames first, then repairs, then the descriptor at the
head. Nothing is sent in replay (Table 14.6), and no data while the device is halted (R530). -/
def execFarPacketTransmit (p : Nat) (s : State) : Res :=
  .next (if 2 ≤ p || s.replay then s
    else
      let x := SMap.get (fun _ => FarPort.reset) s.far.ports p
      match x.ctl with
      | f :: fs =>
        if !s.farUp p ∨ s.farLevel p < farCost f then s
        else
          let x := { x with ctl := fs }
          ({ s with far := { s.far with ports := SMap.set (fun _ => FarPort.reset) s.far.ports p x } }).farEmit p f ((s.fport p).isFar f)
      | [] =>
        if s.frozen then s
        else match s.far.repairs, s.far.jobs with
          | q :: _, _ => s.farRepair p q
          | [], j :: _ => s.farNext p j
          | [], [] => s)

/-! ## Sealing (R409 to R411) -/

/-- Distinct fragments of round r from site n. -/
def State.distinct (s : State) (n r : Nat) : Nat := (s.far.seen.filter fun x => x.1 == n && x.2.1 == r).length
/-- NFRAG of (site, round), once a packet has come. -/
def State.nfragOf (s : State) (n r : Nat) : Option Nat := (s.far.nfrag.find? fun x => x.1 == n && x.2.1 == r).map (·.2.2)

/-- Partner n meets the fill in round r. -/
def State.meets (s : State) (n r : Nat) : Bool := match s.nfragOf n r with
  | some k => s.pCounts n r && decide (ceilDiv (s.fld XCFG_FILL * k) 1000 ≤ s.distinct n r)
  | none => false

/-- Order of entries: FRAGNO, staleness, site. -/
def Filed.before (r : Nat) (a b : Filed) : Bool :=
  decide (a.frag < b.frag) || (a.frag == b.frag && (decide (r - a.round < r - b.round) || (a.round == b.round && decide (a.site < b.site))))

/-- Insert in that order. -/
def filedInsert (r : Nat) (x : Filed) : List Filed → List Filed
  | [] => [x]
  | y :: ys => if x.before r y then x :: y :: ys else y :: filedInsert r x ys

/-- A manifest entry. -/
def manEntry (r : Nat) (x : Filed) : Nat := x.slot % 2 ^ 24 + x.port * 2 ^ 24 + (r - x.round) * 2 ^ 25 + x.site * 2 ^ 28 + x.frag * 2 ^ 32

/-- The manifest's bytes: header, then entries. -/
def State.manBytes (s : State) (r cause nsite : Nat) (es : List Filed) : List Nat :=
  leBytes 4 r ++ leBytes 2 nsite ++ [0, 0] ++ leBytes 4 (fDiv fOne (fl (Val.fin false nsite 0))) ++ leBytes 4 es.length
    ++ [cause, 0, 0, 0, 0, 0, 0, 0] ++ leBytes 8 s.now ++ List.replicate 32 0
    ++ ((List.range 16).flatMap fun n => leBytes 4 (s.distinct n r)) ++ es.flatMap fun x => leBytes 8 (manEntry r x)

/-- Bytes from one manifest position to the next. -/
def State.manStride (s : State) : Nat := ceilDiv (manHead + 8192 * s.fld (XAREA_COUNT 2)) 4096 * 4096

/-- Device address of manifest position r mod 4. -/
def State.manAddr (s : State) (r : Nat) : Nat := s.xarea 2 (r % 4 * s.manStride)

/-- Address of slot n of an area. -/
def State.slotAddr (s : State) (area n : Nat) : Nat := s.xarea area (n * 4224)

/-- Seal the waiting round r. The fragments seen of r itself are kept for the receipt report of HELLO (R417), those before it while their round
lies in the window (R408). -/
def State.sealNow (s : State) (r cause : Nat) : State :=
  let old := s.far.filed.filter fun x => x.listed.isNone && decide (x.round ≤ r) && decide (s.fld XCFG_STALE < r - x.round)
  let s := ({ s with far := { s.far with filed := s.far.filed.filter fun x => !old.contains x } }).bump XCNT1_STALE old.length
  let due : List Filed := (s.far.filed.filter fun x => x.listed.isNone && decide (x.round ≤ r)).foldl (fun l x => filedInsert r x l) []
  let cap := s.fld (XAREA_COUNT 2) * 1024
  let es := due.take cap
  let s := if cap < due.length then s.farReport 0 0x66 1 0 1 else s
  let cs := s.counting r
  let bytes := s.manBytes r cause (cs.length + if s.far.ownex then 0 else 1) es
  let s := s.areaWrite (s.manAddr r) bytes
  let s := s.each cs fun s n =>
    let k := s.distinct n r
    if k = 0 then s.bump XCNT0_ABSENT 1 else s.bump XCNT0_MISSING ((s.nfragOf n r).getD 0 - k)
  let s := s.bump XCNT3_LATE (es.filter fun x => x.round != r).length
  let s := { s with far := { s.far with
    filed := s.far.filed.map fun (x : Filed) => if es.contains x then { x with listed := some r } else x
    manifests := s.far.manifests ++ [(r, es.map fun (x : Filed) => (x.port, x.slot))]
    due := none
    seen := s.far.seen.filter fun x => decide (r + 1 ≤ x.2.1 + max 1 (s.fld XCFG_STALE))
    nfrag := s.far.nfrag.filter fun x => decide (r + 1 ≤ x.2.1 + max 1 (s.fld XCFG_STALE)) } }
  let s := (((s.setFld XRSTAT_SEALED r).setFld XRSTAT_WAITING 0).setFld XRSTAT_QCOUNT 0).xevt XEVT_SEALED
  let s := if cause = 1 then (s.bump XCNT0_DEADLN 1).farReport 0 0x65 0 0 r else s
  let s := if s.flag GLEDCTL_FAR then
      s.each es fun s x =>
        let f := s.memRead (s.slotAddr x.port x.slot + 64) x.len uExternal
        f.2.led 7 false x.site x.round x.frag (f.1.map (·.1))
    else s
  s.led 6 false 0 r es.length bytes

/-- A seal of the waiting round is due with a cause: it waits while its position holds an unfreed manifest (R411). -/
def State.sealDue (s : State) (cause : Nat) : State :=
  let r := s.fld XRSTAT_SEALED + 1
  if s.far.manifests.any fun (m : Nat × List (Nat × Nat)) => m.1 % 4 == r % 4 then { s with far := { s.far with due := some (s.far.due.getD cause) } }
  else s.sealNow r (s.far.due.getD cause)

/-- File a folio in a slot (R408). -/
def State.filePut (s : State) (area : Nat) (x : Filed) (folio : List Nat) : State :=
  let rec_ := [x.site, x.port, 0, 0] ++ leBytes 4 x.round ++ leBytes 4 x.frag ++ leBytes 4 folio.length ++ leBytes 8 s.now
    ++ List.replicate 40 0
  s.areaWrite (s.slotAddr area x.slot) (rec_ ++ folio)

/-- Replay: the waiting round is sealed from its recorded manifest and folios, once they have come (Table 14.6). -/
def State.replaySeal (s : State) : State :=
  let r := s.fld XRSTAT_SEALED + 1
  if s.far.manifests.any fun (m : Nat × List (Nat × Nat)) => m.1 % 4 == r % 4 then s
  else
    let t := s.ledTake fun x => x.cls == 6 && x.k0 == r
    match t.1 with
    | none => t.2.showWait
    | some m =>
      let n := le m.data 12 4
      let ents := (List.range n).map fun j =>
        let w := le m.data (manHead + 8 * j) 8
        (⟨bitsOf w 24 1, bitsOf w 0 24, bitsOf w 28 4, r - bitsOf w 25 3, bitsOf w 32 32, 0, some r⟩ : Filed)
      let s := t.2.each ents fun s x =>
        match s.ledIn.find? fun y => y.cls == 7 && y.src == x.site && y.k0 == x.round && y.k1 == x.frag with
        | none => { s with far := { s.far with filed := s.far.filed ++ [x] } }
        | some y => ({ s with
            ledIn := s.ledIn.erase y
            far := { s.far with filed := s.far.filed ++ [{ x with len := y.data.length }] } }).filePut x.port x y.data
      let s := s.areaWrite (s.manAddr r) m.data
      let s := s.bump XCNT3_LATE (ents.filter fun x => x.round != r).length
      let s := { s with far := { s.far with manifests := s.far.manifests ++ [(r, ents.map fun (x : Filed) => (x.port, x.slot))], due := none } }
      ((((s.setFld XRSTAT_SEALED r).setFld XRSTAT_WAITING 0).setFld XRSTAT_QCOUNT 0).xevt XEVT_SEALED).showWait

/-- Look at a waiting round: QCOUNT is brought up to date, and the round is sealed when a reason stands (R409, R411, R436). -/
def State.sealTry (s : State) : State :=
  if !s.flag XRSTAT_WAITING then s
  else if s.replay then s.replaySeal
  else
    let r := s.fld XRSTAT_SEALED + 1
    let q := ((List.range 16).filter fun n => s.meets n r).length
    let s := s.setFld XRSTAT_QCOUNT q
    if min (s.fld XCFG_QUORUM) (s.counting r).length ≤ q then s.sealDue 0
    else match s.far.due with
      | some c => s.sealDue c
      | none => s

/-- CLOSE of XRCTL (R406). -/
def State.farClose (s : State) (r : Nat) (ownex : Bool) : State :=
  if r ≠ s.fld XRSTAT_SEALED + 1 ∨ s.flag XRSTAT_WAITING then s.xevt XEVT_CMDERR
  else
    let s := { s with far := { s.far with ownex := ownex, deadline := s.now + s.fld XTMO_DEADLINE * 1000000, due := none } }
    ((s.setFld XRSTAT_WAITING 1).led 5 false 0 r (s.fld GSTEP_LAST) []).sealTry

/-- FREE of XRCTL (R411): the manifest and every slot it lists are released, and a seal that waits proceeds. -/
def State.farFree (s : State) (r : Nat) : State :=
  if !(s.far.manifests.any fun m => m.1 == r) then s
  else
    ({ s with far := { s.far with
      manifests := s.far.manifests.filter fun m => m.1 != r
      filed := s.far.filed.filter fun x => x.listed != some r } }).sealTry

/-- SEAL of XRCTL (R409). -/
def State.farSeal (s : State) : State := if s.flag XRSTAT_WAITING ∧ !s.replay then s.sealDue 2 else s

/-- CLOSE (R406): context c closes round r. -/
def execCloseRound (c r : Nat) (ownex : Bool) (s : State) : Res :=
  .next (if s.trainMay c then s.farClose (r % 2 ^ 32) ownex else s.refuse aXRCTL c)

/-- SEAL (R409). -/
def execSealRound (c : Nat) (s : State) : Res := .next (if s.trainMay c then s.farSeal else s.refuse aXRCTL c)

/-- FREE (R411). -/
def execFreeRound (c r : Nat) (s : State) : Res := .next (if s.trainMay c then s.farFree r else s.refuse aXRCTL c)

/-- ROUND_DEADLINE (R409): TBTIME has reached the waiting round's deadline. Replay knows no deadline (R436). -/
def execRoundDeadline (s : State) : Res :=
  .next (if s.flag XRSTAT_WAITING ∧ !s.replay ∧ s.far.deadline ≤ s.now then s.sealDue 1 else s)

/-! ## Receiving (R407, R408) -/

/-- Every received frame: the checks of R407 to step 4, then f for a packet of the type the row is for; f answers whether the
packet was filed or handled. In replay a frame is only counted. -/
def State.farRx (s : State) (p typ : Nat) (frame : List Nat) (f : State → Nat → Nat → FarMsg → Bool × State) : State :=
  if !s.farUp p then s
  else if s.replay then s.bump (XPDROP_RXDROP p) 1
  else match s.farCheck p frame with
    | .drop => s.bump (XPDROP_RXDROP p) 1
    | .malform => s.bump XCNT2_MALFORM 1
    | .tag site keyid => (s.bump XCNT2_TAGFAIL 1).farReport p 0x62 1 0 (site + 16 * keyid)
    | .ok site ver m =>
      if m.typ ≠ typ then s
      else
        let r := f s site ver m
        if r.1 then r.2.bump (XPCNT_RXPKT p) 1 else r.2

/-- The lowest free receive slot of port p. -/
def State.freeSlot (s : State) (p : Nat) : Option Nat :=
  (List.range (s.fld (XAREA_COUNT p))).find? fun n => !(s.far.filed.any fun x => x.port == p && x.slot == n)

/-- Steps 5 to 7 of R407, and filing (R408). -/
def State.fragIn (p : Nat) (s : State) (site _ver : Nat) (m : FarMsg) : Bool × State :=
  let sealed := s.fld XRSTAT_SEALED
  if !s.pCounts site m.round then (false, s.bump XCNT1_STALE 1)
  else if m.round + s.fld XCFG_STALE < sealed + 1 then (false, s.bump XCNT1_STALE 1)
  else if sealed + 3 < m.round then (false, s.bump XCNT1_FUTURE 1)
  else if m.nfrag ≤ m.frag ∨ 2 ^ 20 < m.nfrag then (false, s.bump XCNT2_MALFORM 1)
  else if (s.nfragOf site m.round).getD m.nfrag ≠ m.nfrag then (false, s.bump XCNT2_MALFORM 1)
  else if s.far.seen.contains (site, m.round, m.frag) then (false, s.bump XCNT1_DUP 1)
  else match s.freeSlot p with
    | none => (false, (s.bump XCNT1_NOSLOT 1).farReport p 0x66 1 0 0)
    | some n =>
      let x : Filed := ⟨p, n, site, m.round, m.frag, m.payload.length, none⟩
      let s := s.filePut p x m.payload
      let s := { s with far := { s.far with
        filed := s.far.filed ++ [x]
        seen := s.far.seen ++ [(site, m.round, m.frag)]
        nfrag := if (s.nfragOf site m.round).isSome then s.far.nfrag else s.far.nfrag ++ [(site, m.round, m.nfrag)] } }
      (true, if m.round = sealed + 1 then s.sealTry else s)

/-- FRAG_PACKET (R407, R408): a frame arrives on far port p. -/
def execFragPacket (p : Nat) (frame : List Nat) (s : State) : Res := .next (s.farRx p ftFrag frame (State.fragIn p))

/-- A partner's STATE is set, and the change logged (R414). -/
def State.joined (s : State) (p site : Nat) : State :=
  if s.pState site = 3 then s else (s.setPState site 3).farReport p 0x67 0 0 (site + 16 * 3)

/-- JOIN received (R414, R415). The sender no longer counts, so a waiting round looks again (R409). -/
def State.joinIn (p : Nat) (s : State) (site _ver : Nat) (m : FarMsg) : Bool × State :=
  let s := (s.joined p site).sealTry
  let s := if bitOf m.flag 0 then (s.setFld XEVT_JSITE site).xevt XEVT_JOINREQ else s
  if !bitOf m.flag 1 then (true, s)
  else
    let ws := (List.range (min (m.payload.length / 4) 1000)).map fun i => le m.payload (4 * i) 4
    let asks := (ws.map fun w => (site, bitsOf w 30 2, bitsOf w 0 30)).filter fun q =>
      s.far.served.any fun v => v.1 == q.1 && v.2.1 == q.2.1 && fdRound v.2.2 == m.round
    (true, { s with far := { s.far with repairs := s.far.repairs ++ asks } })

/-- JOIN_PACKET (R414). -/
def execJoinPacket (p : Nat) (frame : List Nat) (s : State) : Res := .next (s.farRx p ftJoin frame (State.joinIn p))

/-- Every page of every part has come. -/
def Catch.whole (x : Catch) : Bool :=
  (List.range x.nparts).all fun c =>
    let k := SMap.get (fun _ => 0) x.pages c
    k != 0 && (x.got.filter fun g => g.1 == c).length == k

/-- CATCH received (R415). -/
def State.catchIn (p : Nat) (s : State) (site _ver : Nat) (m : FarMsg) : Bool × State :=
  let part := bitsOf m.flag 0 2
  let n := bitsOf m.flag 2 2
  if s.far.accession ≠ 1 then (false, s)
  else if n < 2 ∨ n ≤ part ∨ m.nfrag ≤ m.frag then (false, s.bump XCNT2_MALFORM 1)
  else
    let x := s.far.catch_.getD ⟨m.round, n, [], []⟩
    if m.round < x.base then (false, s)
    else
      let x : Catch := if x.base < m.round then ⟨m.round, n, [], []⟩ else x
      if x.got.contains (part, m.frag) then (false, s.bump XCNT1_DUP 1)
      else if s.fld (XAREA_COUNT (4 + part)) ≤ m.frag then (false, (s.bump XCNT1_NOSLOT 1).farReport p 0x66 1 0 0)
      else
        let s := s.filePut (4 + part) ⟨p, m.frag, site, m.round, m.frag, m.payload.length, none⟩ m.payload
        let x := { x with pages := SMap.set (fun _ => 0) x.pages part m.nfrag, got := x.got ++ [(part, m.frag)] }
        let s := { s with far := { s.far with catch_ := some x } }
        if !x.whole then (true, s)
        else
          (true, (({ s with far := { s.far with accession := 2 } }).setFld XRSTAT_SEALED (x.base + 2 ^ 32 - 1)).xevt XEVT_CATCHDONE)

/-- CATCH_PACKET (R415). -/
def execCatchPacket (p : Nat) (frame : List Nat) (s : State) : Res := .next (s.farRx p ftCatch frame (State.catchIn p))

/-- ENTER received (R416); a waiting round looks again (R409). -/
def State.enterIn (p : Nat) (s : State) (site _ver : Nat) (m : FarMsg) : Bool × State :=
  if s.pState site ≠ 3 then (true, s)
  else
    let sealed := s.fld XRSTAT_SEALED
    let s := { s with far := { s.far with served := s.far.served.filter fun v => v.1 != site } }
    let s := s.setPState site 1
    if sealed < m.aux then (true, (s.setPw site 0 (putBits (s.pw site 0) 32 32 m.aux)).sealTry)
    else (true, ((s.setPw site 0 (putBits (s.pw site 0) 32 32 (sealed + 1))).farReport p 0x67 0 0 (site + 16)).sealTry)

/-- ENTER_PACKET (R416). -/
def execEnterPacket (p : Nat) (frame : List Nat) (s : State) : Res := .next (s.farRx p ftEnter frame (State.enterIn p))

/-- HELLO received (R417). -/
def State.helloIn (p : Nat) (s : State) (site ver : Nat) (m : FarMsg) : Bool × State :=
  let good := ver == 1 || ver == 2
  let agreed := if good then min ver (s.fld XCFG_MAXVER) else 1
  let s := s.setPw site 0 (putBits (s.pw site 0) 16 2 agreed)
  let s := if good then s else s.farReport p 0x68 0 0 site
  let s := s.setPw site 5 (putBits (s.pw site 5) 0 32 m.aux)
  let s := if agreed = 2 ∧ m.payload.length = 8 then
      (s.setPw site 5 (putBits (s.pw site 5) 32 32 (le m.payload 0 4))).setPw site 6 (putBits (s.pw site 6) 0 32 (le m.payload 4 4))
    else s
  let sealed := s.fld XRSTAT_SEALED
  if m.aux ≤ sealed + s.fld XCFG_STALE then (true, s)
  else (true, ((s.setFld XRSTAT_BEHIND 1).xevt XEVT_BEHIND).farReport p 0x6A 1 0 (site + 16 * min (m.aux - sealed) (2 ^ 28 - 1)))

/-- FAR_HELLO (R417). -/
def execFarHello (p : Nat) (frame : List Nat) (s : State) : Res := .next (s.farRx p ftHello frame (State.helloIn p))

/-! ## Neighbor Discovery (Table 13.1) -/

/-- The solicited-node multicast address of an address. -/
def solicited (a : List Nat) : List Nat := [0xFF, 2, 0, 0, 0, 0, 0, 0, 0, 0, 0, 1, 0xFF] ++ a.drop 13

/-- The options of a Neighbor Discovery message are whole and none has length 0 (RFC 4861, 7.1.1): their types; n bounds them. -/
def ndOptions : Nat → List Nat → Option (List Nat)
  | _, [] => some []
  | 0, _ => none
  | k + 1, t :: r =>
    let n := 8 * nth 0 r 0
    if n = 0 ∨ r.length + 1 < n then none else (ndOptions k (r.drop (n - 1))).map (t :: ·)

/-- A Neighbor Solicitation for the port's own address that passes the checks of RFC 4861, 7.1.1: the sender's address. One from the
unspecified address goes to the solicited-node address and carries no source link-layer address. -/
def nsSource (c : FPortCfg) (f : List Nat) : Option (List Nat) :=
  match ip6At c f with
  | none => none
  | some o =>
    let src := (f.drop (o + 8)).take 16
    let dst := (f.drop (o + 24)).take 16
    let n := be f (o + 4) 2
    let body := (f.drop (o + 40)).take n
    let ok := (dst == c.addr || dst == solicited c.addr) && be f (o + 6) 1 == 58 && be f (o + 7) 1 == 255 && body.length == n
      && decide (24 ≤ n) && decide (o + 40 + n + 4 ≤ f.length) && be body 0 2 == 0x8700 && (body.drop 8).take 16 == c.addr
      && fold16 (sum16 (src ++ dst ++ beBytes 4 n ++ [0, 0, 0, 58] ++ body)) == 65535
      && (match ndOptions n (body.drop 24) with
        | none => false
        | some ts => !src.all (· == 0) || (dst == solicited c.addr && !ts.contains 1))
    if ok then some src else none

/-- The Neighbor Advertisement that answers it; with no FRAGNO its flow label is the site (Table 13.1). -/
def naFrame (c : FPortCfg) (p site : Nat) (src : List Nat) : List Nat :=
  let anon := src.all (· == 0)
  let dst := if anon then [0xFF, 2, 0, 0, 0, 0, 0, 0, 0, 0, 0, 0, 0, 0, 0, 1] else src
  let rest := [if anon then 0x20 else 0x60, 0, 0, 0] ++ c.addr ++ [2, 1] ++ leBytes 6 (Config.farMac p).toNat
  let k := ip6Sum c.addr dst 58 ([136, 0, 0, 0] ++ rest)
  ethFrame c p site 58 255 dst ([136, 0] ++ beBytes 2 k ++ rest)

/-- NEIGHBOR_SOLICITATION (R395): answered when it is one for the port's own address, else discarded and counted. -/
def execNeighborSolicitation (p : Nat) (frame : List Nat) (s : State) : Res :=
  .next (if !s.farUp p then s
    else if s.replay then s.bump (XPDROP_RXDROP p) 1
    else match nsSource (s.fport p) frame with
      | none => s.bump (XPDROP_RXDROP p) 1
      | some src => s.farCtl p (naFrame (s.fport p) p (s.fld XCFG_SITE) src))

/-! ## Accession (R414 to R416), HELLO (R417) and links -/

/-- JOIN of XRCTL (R414). -/
def State.farJoin (s : State) : State :=
  let s := ({ s with far := { s.far with accession := 1, catch_ := none } }).setFld XRSTAT_CATCHING 1
  s.each s.partners fun s n =>
    s.farSay n 0 ⟨ftJoin, 0, 0, 0, if s.sponsor == some n then 1 else 0, 0, []⟩

/-- JOIN (R414). -/
def execJoinRound (c : Nat) (s : State) : Res := .next (if s.trainMay c then s.farJoin else s.refuse aXRCTL c)

/-- ENTER of XRCTL (R416). -/
def State.farEnter (s : State) : State :=
  if !s.flag XRSTAT_CATCHING || s.flag XRSTAT_WAITING then s.xevt XEVT_CMDERR
  else
    let s := s.each s.partners fun s n => s.farSay n 0 ⟨ftEnter, 0, 0, 0, 0, s.fld XRSTAT_SEALED + 1, []⟩
    (({ s with far := { s.far with accession := 0, catch_ := none } }).setFld XRSTAT_CATCHING 0).xevt XEVT_ENTERED

/-- ENTER (R416). -/
def execEnterRound (c : Nat) (s : State) : Res := .next (if s.trainMay c then s.farEnter else s.refuse aXRCTL c)

/-- Missing pages a repair lists: of each part met, the pages not filed; of a part not met, its first page. -/
def Catch.missing (x : Catch) : List (Nat × Nat) :=
  ((List.range x.nparts).flatMap fun c =>
    ((List.range (max 1 (SMap.get (fun _ => 0) x.pages c))).filter fun n => !x.got.contains (c, n)).map fun n => (c, n)).take 1000

/-- CATCH_REPAIR_TIMER (R415): 100 ms without a CATCH arrival while a part is incomplete; before the first arrival the first page of two parts
is asked for, under base round 0 (log entry 98). The repair names the base round in ROUND: Table 13.4
gives ROUND 0 to a JOIN, but then no field could name the round by which R415 has the sponsor tell its descriptors apart (DESIGN CHOICE, log
entry 97). -/
def execCatchRepairTimer (s : State) : Res :=
  .next (match s.sponsor with
    | some n =>
      let x := s.far.catch_.getD ⟨0, 2, [], []⟩
      if s.far.accession ≠ 1 ∨ x.whole ∨ s.replay then s
      else s.farSay n 0 ⟨ftJoin, x.base, 0, 0, 2, 0, x.missing.flatMap fun q => leBytes 4 (q.2 % 2 ^ 30 + q.1 * 2 ^ 30)⟩
    | none => s)

/-- CATCH_TIMEOUT (R415). -/
def execCatchTimeout (s : State) : Res :=
  .next (if s.far.accession ≠ 1 then s
    else (({ s with far := { s.far with accession := 3 } }).xevt XEVT_CATCHFAIL).farReport 0 0x69 2 0 (s.sponsor.getD 0))

/-- FAR_HELLO_INTERVAL (R417): one HELLO to every partner; the ports alternate. -/
def execFarHelloInterval (s : State) : Res :=
  .next (if s.replay then s
    else
      let want := s.far.hello % 2
      let sealed := s.fld XRSTAT_SEALED
      let s := s.each s.partners fun s n =>
        let pay := if s.pVer n = 2 then leBytes 4 sealed ++ leBytes 4 (s.distinct n sealed) else []
        s.farSay n want ⟨ftHello, 0, 0, 0, s.fld XRSTAT_CATCHING, sealed, pay⟩
      { s with far := { s.far with hello := s.far.hello + 1 } })

/-- The far link of port p comes up or is lost. -/
def State.farLink (s : State) (p : Nat) (up : Bool) : State :=
  if s.farUp p = up then s
  else
    let s := s.setFld (XPSTAT_UP p) (if up then 1 else 0)
    if up then s.farReport p 0x61 0 0 0 else s.farReport p 0x60 1 0 0

/-- FAR_LINK_CHANGE (R395, R418): only a port that the image enables comes up, once the image is applied: until then, and in
arbitration hold, the far ports stay dark (R43, R45, R502), and so they do while the device is parked (R525). -/
def execFarLinkChange (p : Nat) (up : Bool) (s : State) : Res :=
  .next (if 2 ≤ p ∨ (up ∧ (s.boot ≠ .up ∨ !(s.fport p).en ∨ s.pinsOff ∨ s.parked)) then s else s.farLink p up)

/-! ## Registers of other chapters -/

/-- A write of GRSTRND (R446). -/
def State.rstRnd (s : State) (c v : Nat) : State :=
  if s.pfOrFw c && s.fld XRSTAT_SEALED == 0 && !s.flag XRSTAT_WAITING && !s.flag XRSTAT_CATCHING then s.setFld XRSTAT_SEALED v
  else s.xevt XEVT_CMDERR

/-- GRSTRND_WRITE (R446): context c writes ROUND = v. -/
def execGrstrndWrite (c v : Nat) (s : State) : Res := .next (s.rstRnd c (v % 2 ^ 32))

/-- A write of GLEDRP (R431, R436): in replay, what waits for records looks again. -/
def State.rpWrite (s : State) (rp : Nat) : State :=
  let s := s.ledRp rp
  if s.replay then s.sealTry else s

/-- LEDGER_RP_WRITE (R436). -/
def execLedgerRpWrite (rp : Nat) (s : State) : Res := .next (s.rpWrite rp)

end Sys2Proof.Machine
end

