-- ==== Sys2Proof/Machine/Ports.lean ====
section
/-! DEFINITION. Miltum ports: training, versions, flits received, acknowledgement, replay, retraining and failure; routing and
forwarding; read tags, acknowledgements and their timeouts (R249 to R274, R278 to R280). -/

namespace Sys2Proof.Machine

/-- What an event of this file answers. -/
abbrev Ans := Host.Outcome State Fault Refusal

/-! ## Port states (R253) -/

/-- Unacknowledged work of a port that fails is discarded, its credits restored (R262). -/
def Port.clear (x : Port) : Port :=
  { Port.reset with
    fails := x.fails, fallback := x.fallback, warned := x.warned, replays := x.replays, verLogged := x.verLogged, fbLogged := x.fbLogged }

/-- A port leaves service for a state of Table 8.2: what it sent and nobody acknowledged is lost, and packets it has not begun to send take
the alternate port or are discarded (R262, R269, R278). -/
def State.portStop (s : State) (p st : Nat) : State :=
  let un := (s.port p).unsent
  (((s.setFld (FPSTAT_STATE p) st).modPort p Port.clear).each un State.routeOut).collPortDown p

/-- The strap selects the fallback speed (R251, Table 16.10). -/
def State.strapFallback (s : State) : Bool := decide (8 ≤ s.fld GARB_STRAPVAL)

/-- A training has failed: three in a row at 200 Gb/s per lane bring the fallback speed of the strap, when there is one (R251). A failed
retraining counts too (DEDUCED, log entry 95). -/
def State.trainFailed (s : State) (p : Nat) : State :=
  if s.fld (FPSTAT_SPEED p) ≠ 0 then s
  else
    let n := (s.port p).fails + 1
    s.modPort p fun x => { x with fails := n, fallback := x.fallback || (decide (3 ≤ n) && s.strapFallback) }

/-- A port goes to DOWN with a cause (Table 8.19); from UP or RETRAIN it logs type 0x40, and a training failure type 0x41. -/
def State.portDown (s : State) (p cause : Nat) : State :=
  let was := s.fld (FPSTAT_STATE p) == 4 || s.fld (FPSTAT_STATE p) == 5
  let lost := (s.port p).unacked.length
  let s := if was then s.portReport p 0x40 2 (min 65535 lost) else s
  let s := if cause = 0 ∨ (was && cause != 4) then s else s.portReport p 0x41 1 cause
  let s := if cause = 0 then s else s.trainFailed p
  (s.setFld (FPSTAT_DCAUSE p) cause).portStop p 6

/-- Begin electrical training (R253), at the fallback speed once that is selected (R251); with its pins taken by the TAP, a link is DOWN
(R536). -/
def State.portElec (s : State) (p : Nat) : State :=
  let s := if (s.port p).fallback then s.setFld (FPSTAT_SPEED p) 1 else s
  (s.setFld (FPSTAT_STATE p) (if s.pinsOff then 6 else 2)).modPort p Port.clear

/-- Enter RETRAIN from UP (R262): sequence numbers, credits and the replay buffer are kept. -/
def State.portRetrain (s : State) (p fseq : Nat) (log : Bool) : State :=
  if s.fld (FPSTAT_STATE p) ≠ 4 then s
  else
    let s := if log then s.portReport p 0x43 1 fseq else s
    (s.setFld (FPSTAT_STATE p) 5).modPort p fun x => { x with
      retraining := true, inHello := false, heard := false, helloSent := false, ackSent := false, ackRecv := false, naks := 0, nakHold := false }

/-- The HELLO or HELLOACK body (Table 8.3). -/
def State.helloBody (s : State) (p ltype : Nat) : List Nat :=
  [ltype, 0x10 + s.fld FCFG_MAXVER % 16] ++ leBytes 2 s.rank ++ [p, 0] ++ leBytes 2 512 ++ leBytes 2 64 ++ leBytes 2 32 ++ [(s.port p).good]

/-- Lanes a port can form from its good lanes and the partner's (R258): all, else 0 to 3, else 4 to 7, else none. -/
def lanesOfMask (m : Nat) : Nat := if m % 256 = 255 then 255 else if bitsOf m 0 4 = 15 then 15 else if bitsOf m 4 4 = 15 then 240 else 0

/-- PMD_TRAINING_DONE (R251, R253, R258): training of port p ends; good has a bit for each lane that trained. -/
def execPmdTrainingDone (p : Nat) (good : Nat) (s : State) : Ans :=
  let st := s.fld (FPSTAT_STATE p)
  if 8 ≤ p ∨ !(st == 2 || st == 5) ∨ (s.port p).inHello then .next s
  else
    let lanes := lanesOfMask good
    if lanes = 0 ∨ (lanes ≠ 255 ∧ s.fld FCFG_MAXVER < 2) then .next (s.portDown p 1)
    else
      let s := s.modPort p fun x => { x with inHello := true, good := good % 256, helloSent := true }
      let s := s.setFld (FPSTAT_LANES p) lanes
      let s := if st = 2 then s.setFld (FPSTAT_STATE p) 3 else s
      .next (s.txLink p (s.helloBody p 1))

/-- HELLO_RESEND (R254): every 10 µs until the partner's HELLO comes. -/
def execHelloResend (p : Nat) (s : State) : Ans :=
  let x := s.port p
  .next (if x.inHello ∧ !x.heard then s.txLink p (s.helloBody p 1) else s)

/-- Resend every unacknowledged flit, in order, what the port owes going out once (R262, R278). -/
def State.replayFlits (s : State) (p : Nat) : State :=
  s.each (s.port p).unacked fun s f => s.txFlit p f.1 f.2.ftype f.2.vc false f.2.body

/-- A side that has sent HELLOACK and received one is UP (R254), which ends a row of failed trainings; after a retrain the replay resumes. -/
def State.portMaybeUp (s : State) (p : Nat) : State :=
  let x := s.port p
  if !x.ackSent ∨ !x.ackRecv then s
  else
    let re := x.retraining
    let s := (s.setFld (FPSTAT_STATE p) 4).modPort p fun x => { x with inHello := false, retraining := false, fails := 0 }
    (if re then s.replayFlits p else s).txGo p

/-- HELLO (R254 to R256, R258): the partner's HELLO on port p. Entry to the fallback speed is logged with the lanes agreed here (R251). -/
def execHello (p : Nat) (ver : Nat) (rank : Nat) (pport : Nat) (kind : Nat) (crdd : Nat) (crdc : Nat) (crds : Nat) (lanes : Nat) (s : State) :
    Ans :=
  let x := s.port p
  if 8 ≤ p ∨ !x.inHello then .next s
  else if ver / 16 ≠ 1 then .next (s.portDown p 3)
  else if x.retraining ∧ s.fld (FPSTAT_PRANK p) ≠ rank then .next (s.portDown p 4)
  else
    let own := s.fld FCFG_MAXVER % 16
    let m := min own (ver % 16)
    let use := lanesOfMask (x.good &&& lanes)
    if use = 0 ∨ (use ≠ 255 ∧ m < 2) then .next (s.portDown p 1)
    else
      let s := if m < own ∧ !x.verLogged then (s.portReport p 0x44 0 (0x10 + m)).modPort p fun x => { x with verLogged := true } else s
      let s := if use ≠ 255 ∧ !x.heard then s.portReport p 0x4A 1 use else s
      let s := if s.fld (FPSTAT_SPEED p) = 1 ∧ !x.fbLogged then (s.portReport p 0x46 0 use).modPort p fun x => { x with fbLogged := true } else s
      let s := (((((s.setFld (FPSTAT_VER p) m).setFld (FPSTAT_LANES p) use).setFld (FPSTAT_PRANK p) rank).setFld (FPSTAT_PPORT p)
        pport).setFld (FPSTAT_PSW p) kind)
      let s := s.modPort p fun x => { x with
        heard := true, peerVer := ver, peerRank := some rank, ackSent := true
        crd := if x.retraining then x.crd else [crdd, crdc, crds] }
      .next ((s.txLink p (s.helloBody p 2)).portMaybeUp p)

/-- Remove what an acknowledgement covers from the replay buffer. -/
def Port.acked (x : Port) (ackseq : Nat) : Port :=
  let rest := x.unacked.filter fun f => !decide ((ackseq + 4096 - f.1) % 4096 < 2048)
  { x with unacked := rest, naks := if rest.length = x.unacked.length then x.naks else 0 }

/-- HELLOACK (R254, R262): the partner's HELLOACK; ackseq is its header's ACKSEQ, from which replay resumes after a retrain. -/
def execHelloack (p : Nat) (ackseq : Nat) (s : State) : Ans :=
  let x := s.port p
  .next (if 8 ≤ p ∨ !x.inHello then s
    else (s.modPort p fun x => { (if x.retraining then x.acked ackseq else x) with ackRecv := true }).portMaybeUp p)

/-- HELLO_TIMEOUT (R254, R262): no HELLOACK has come within 10 ms of entering HELLO. -/
def execHelloTimeout (p : Nat) (s : State) : Ans := .next (if (s.port p).inHello ∧ !(s.port p).ackRecv then s.portDown p 2 else s)

/-- DOWN_WAIT_END (R253): 100 ms after DOWN. -/
def execDownWaitEnd (p : Nat) (s : State) : Ans := .next (if s.fld (FPSTAT_STATE p) = 6 ∧ !s.pinsOff then s.portElec p else s)

/-! ## Flits received (R259 to R262) -/

/-- A flit is discarded and NAKed, unless a NAK is outstanding. -/
def State.nakFlit (s : State) (p : Nat) : State :=
  if (s.port p).nakHold then s else (s.txIdle p true).modPort p fun x => { x with nakHold := true }

/-- A whole packet has been received: discarded, forwarded, or kept for its row. -/
def State.rxWhole (s : State) (port : Nat) (p : Pkt) : State :=
  if pktMalformed p then (s.freeCredits port p).portReport port 0x47 1 (3 + p.drank * 256)
  else if p.drank ≠ s.rank then (s.freeCredits port p).forward port p
  else s.modPort port fun x => { x with inbox := x.inbox ++ [p] }

/-- Assemble: HEAD opens a packet on its VC, BODY continues it (R261). -/
def State.rxBody (s : State) (port : Nat) (f : Flit) : State :=
  let x := s.port port
  let cur := nth ([], 0) x.rx f.vc
  if f.ftype = 2 ∧ cur.2 = 0 then
    (s.modPort port fun x => { x with ret := setNth x.ret f.vc (nth 0 x.ret f.vc + 1) }).portReport port 0x47 1 3
  else
    let bytes := if f.ftype = 1 then f.body else cur.1 ++ f.body
    let want := if f.ftype = 1 then 32 + (if le f.body 0 1 = 2 then 0 else bitsOf (le f.body 16 2) 0 13) else cur.2
    if bytes.length < want then s.modPort port fun x => { x with rx := setNth x.rx f.vc (bytes, want) }
    else (s.modPort port fun x => { x with rx := setNth x.rx f.vc ([], 0) }).rxWhole port (pktParse f.vc bytes)

/-- Acknowledgements, credits and NAK of a good flit (R262). -/
def State.rxHeader (s : State) (p : Nat) (f : Flit) : State :=
  let s := s.modPort p fun x =>
    let x := if f.ackv || f.nak then x.acked f.ackseq else x
    { x with crd := [nth 0 x.crd 0 + f.crdd, nth 0 x.crd 1 + f.crdc, nth 0 x.crd 2 + f.crds] }
  if !f.nak then s
  else
    let s := (s.modPort p fun x => { x with naks := x.naks + 1, replays := x.replays + 1 }).bump (FPCNT_RETRY p) 1
    if 8 ≤ (s.port p).naks then s.portRetrain p ((f.ackseq + 1) % 4096) true else s.replayFlits p

/-- FLIT (R259 to R262): 256 bytes arrive on port p. The message of a LINK flit comes by its own row; here its header is taken, in HELLO
as well. -/
def execFlit (p : Nat) (bytes : List Nat) (s : State) : Ans :=
  if 8 ≤ p ∨ !(s.portUp p || (s.port p).inHello) then .next s
  else match flitParse bytes with
  | none => .next (if s.portUp p then (s.bump (FPCNT_CRCERR p) 1).nakFlit p else s)
  | some f =>
    if !s.portUp p then .next (if f.ftype = 3 then s.rxHeader p { f with nak := false } else s)
    else
    let s := s.rxHeader p f
    if f.ftype = 0 ∨ f.ftype = 3 ∨ !s.portUp p then .next (s.txGo p)
    else if f.fseq ≠ (s.port p).rxSeq then .next ((s.nakFlit p).txGo p)
    else
      let s := s.modPort p fun x => { x with
        rxSeq := (x.rxSeq + 1) % 4096, ackDue := true, nakHold := false, accepted := x.accepted + 1 }
      let s := s.rxBody p f
      let s := if 256 ≤ (s.port p).accepted ∧ (s.port p).ackDue then (s.txIdle p false).modPort p fun x => { x with accepted := 0 } else s
      .next (s.txGo p)

/-- ACK_TIMER (R262): every 1 µs an acknowledging flit, when something is to be acknowledged or returned. -/
def execAckTimer (p : Nat) (s : State) : Ans :=
  .next (if s.portUp p ∧ ((s.port p).ackDue ∨ (s.port p).ret.any (· != 0)) then (s.txIdle p false).modPort p fun x => { x with accepted := 0 } else s)

/-- NAK_HOLD_END (R262): 2 µs after a NAK. -/
def execNakHoldEnd (p : Nat) (s : State) : Ans := .next (s.modPort p fun x => { x with nakHold := false })

/-- ACK_TIMEOUT (R262): unacknowledged flits have had no acknowledgement for 100 µs. -/
def execAckTimeout (p : Nat) (s : State) : Ans :=
  .next (match (s.port p).unacked with
    | [] => s
    | f :: _ => s.portRetrain p f.1 true)

/-- A write of FPCTL.RETRAIN or DISABLE (R253, R278, R279). -/
def State.fpctl (s : State) (p : Nat) (retrain : Bool) (disable : Option Bool) : State :=
  let s := match disable with
    | none => s
    | some d =>
      let was := s.flag (FPCTL_DISABLE p)
      let s := s.setFld (FPCTL_DISABLE p) (if d then 1 else 0)
      let st := s.fld (FPSTAT_STATE p)
      let en := ((s.img.mports.find? fun q => q.1 == p).map (·.2.en)).getD false
      if d then
        if st = 0 ∨ st = 1 then s
        else s.portStop p 0
      else if was && st == 0 && en && !s.parked then s.portElec p
      else s
  if retrain && s.fld (FPSTAT_STATE p) == 4 then s.portRetrain p (s.port p).txSeq true else s

/-- FPCTL_RETRAIN (R279): ignored unless the port is UP (R278). -/
def execFpctlRetrain (p : Nat) (s : State) : Ans := .next (if p < 8 then s.fpctl p true none else s)
/-- FPCTL_DISABLE (R253): DISABLE takes the value d. -/
def execFpctlDisable (p : Nat) (d : Bool) (s : State) : Ans := .next (if p < 8 then s.fpctl p false (some d) else s)

/-- REPLAY_WINDOW_END (R264): the window's replays against the image's threshold. -/
def execReplayWindowEnd (p : Nat) (s : State) : Ans :=
  let x := s.port p
  let thr := ((s.img.mports.find? fun q => q.1 == p).map (·.2.rthr)).getD 100
  let over_ := decide (thr < x.replays)
  let s := (s.setFld (FPRATE_LAST p) (min 65535 x.replays)).modPort p fun x => { x with replays := 0, warned := over_ }
  .next (if over_ && !x.warned then ((s.setFld (FPRATE_WARN p) 1).portReport p 0x42 1 (min 65535 x.replays)).failWarn 1 else s)

/-- HINT_HOLDOFF_END (R438): the next failure-warning cause raises a hint again. -/
def execHintHoldoffEnd (s : State) : Ans := .next { s with hintHold := false }

/-! ## Replies (R263, R267, R272, R273, R292) -/

/-- A reply that matches nothing is late. -/
def State.lateReply (s : State) : State := s.bump LATECPL_COUNT 1

/-- The outstanding read a reply matches: TAG and TGEN alone, for a device on the way may be the one that answers (R272, R274). -/
def State.readFor (s : State) (p : Pkt) : Option FarRead :=
  s.reads.find? fun r => r.tag == p.tag && r.gen == p.tgen && r.st == 0

/-- An acknowledgement may come from the write's destination, or from a device on the way that could not deliver it (R274). -/
def FarWrite.from (w : FarWrite) (p : Pkt) : Bool := w.dst == p.srank || p.cst == 3

/-- Record a reply. -/
def State.answerRead (s : State) (r : FarRead) (p : Pkt) : State :=
  { s with reads := s.reads.map fun (x : FarRead) => if x.rid == r.rid then { x with st := 1, cst := p.cst, bytes := pktData p } else x }

/-- RDCPL (R272): a read completion is matched to its tag, or late. -/
def execRdcpl (port : Nat) (p : Pkt) (s : State) : Ans :=
  .next (s.rxPacket port p 3 fun s => match s.readFor p with
    | some r => s.answerRead r p
    | none => s.lateReply)

/-- Route entries whose destination has no unacknowledged write take their new value (R271). -/
def State.routeSettle (s : State) : State :=
  let put := fun (s : State) (w : Nat × Nat) => s.setReg (aFROUTE (w.1 / 8)) (BitVec.ofNat 64 (putBits (s.reg (aFROUTE (w.1 / 8))).toNat (8 * (w.1 % 8)) 8 w.2))
  let free := s.routeWait.filter fun (w : Nat × Nat) => !s.writes.any fun x => x.dst == w.1
  let s := { s with routeWait := s.routeWait.filter fun (w : Nat × Nat) => s.writes.any fun x => x.dst == w.1 }
  s.each free put

/-- A write has ended: with a completion status, or none when it was never acknowledged. -/
def State.writeEnded (s : State) (w : FarWrite) (cst : Option Nat) : State :=
  let s := { s with writes := s.writes.erase w }
  let s := match w.kind with
    | 1 =>
      let st := match cst with
        | some c => cstToStatus c
        | none => 8
      if w.tile < 2048 then
        s.modTile w.tile fun y =>
          { y with xfers := y.xfers.map fun (x : Xfer) =>
              if x.acks.contains w.wid then { x with acks := x.acks.filter (· != w.wid), st := (if x.st = 0 then st else x.st) } else x }
      else s
    | 2 => s.collAck w.wid (cst.getD 3)
    | 3 => s.dispAck w.wid cst
    | _ => s
  s.routeSettle

/-- A mailbox store to another device was refused there or found no way: the tile that sent it takes the imprecise address trap with the
operation's end (R183). -/
def State.mbxRefused (s : State) (t wid : Nat) : State :=
  if 2048 ≤ t then s
  else s.modTile t fun x => { x with mbx := x.mbx.map fun m => if m.rid == some wid then { m with bad := true } else m }

/-- MBXRSP (R292): the answer to a mailbox operation of this device; a store's counts as its acknowledgement. -/
def execMbxrsp (port : Nat) (p : Pkt) (s : State) : Ans :=
  .next (s.rxPacket port p 6 fun s => match s.readFor p with
    | some r => s.answerRead r p
    | none => match s.writes.find? fun w => w.kind == 5 && w.from p && w.tag == p.tag && w.gen == p.tgen with
      | some w => (if p.cst = 0 then s else s.mbxRefused w.tile w.wid).writeEnded w (some p.cst)
      | none => s.lateReply)

/-- WRACK (R267, R274, R295, R343): matched by sender, tag, generation and address; one that matches nothing is late. -/
def execWrack (port : Nat) (p : Pkt) (s : State) : Ans :=
  .next (s.rxPacket port p 4 fun s =>
    match s.writes.find? fun w => w.from p && w.tag == p.tag && w.gen == p.tgen && w.addr == p.addr && w.kind != 5 with
    | some w => s.writeEnded w (some p.cst)
    | none => s.lateReply)

/-- READ_TIMEOUT (R272): the outstanding read with identifier rid has had no reply; its tag is quarantined and type 0x45 logged. -/
def execReadTimeout (rid : Nat) (s : State) : Ans :=
  .next (match s.reads.find? fun r => r.rid == rid && r.st == 0 with
    | none => s
    | some r =>
      let s := { s with
        reads := s.reads.map fun (x : FarRead) => if x.rid == rid then { x with st := 2 } else x
        quar := s.quar ++ [r.tag] }
      (s.setFld LATECPL_QUAR s.quar.length).report (if r.src < 4096 then halfOfTile r.src else 0) 0x45 2 r.src
        (r.dst * 2 ^ 48 + r.addr) (r.tag * 65536))

/-- TAG_QUARANTINE_END (R272). -/
def execTagQuarantineEnd (tag : Nat) (s : State) : Ans :=
  let s := { s with quar := s.quar.filter (· != tag) }
  .next (s.setFld LATECPL_QUAR s.quar.length)

/-- WRITE_ACK_TIMEOUT (R273, R292, R357): the write with identifier wid counts as failed; a scalar or mailbox store is logged. -/
def execWriteAckTimeout (wid : Nat) (s : State) : Ans :=
  .next (match s.writes.find? fun w => w.wid == wid with
    | none => s
    | some w =>
      let s := if w.kind = 0 ∨ w.kind = 5 then
          s.report (if w.src < 4096 then halfOfTile w.src else 0) 0x45 2 w.src (w.dst * 2 ^ 48 + w.addr) (1 + w.tag * 65536)
        else s
      s.writeEnded w none)

/-- A write of the route window's entry for rank r (R271): held back while writes toward r are unacknowledged. -/
def State.routeWrite (s : State) (r v : Nat) : State :=
  ({ s with routeWait := (s.routeWait.filter fun (w : Nat × Nat) => w.1 != r) ++ [(r, v % 256)] }).routeSettle

/-- ROUTE_ENTRY_WRITE (R271): context c writes entry r; only PF 0 and firmware contexts may. -/
def execRouteEntryWrite (c : Nat) (r : Nat) (v : Nat) (s : State) : Ans :=
  .next (if (c = 0 ∨ s.isFw c) ∧ r < 65536 then s.routeWrite r v else s)

/-- MBX_PACKET (R180, R190, R202, R292): a mailbox operation from another device is performed on its word and answered. -/
def execMbxPacket (port : Nat) (p : Pkt) (s : State) : Ans :=
  .next (s.rxPacket port p 5 fun s =>
    let op := le p.data 0 1
    match mboxAt p.addr with
    | some w =>
      if op ≠ 1 ∧ (s.tile w.1).marking then (s.extFault p.addr 3 (srcOf 3 port)).answerBad p 1 else
      let r := s.mboxOp w.1 w.2 op (BitVec.ofNat 64 (le p.data 8 8)) (BitVec.ofNat 64 (le p.data 16 8))
      r.2.sendPkt { mkPkt 2 6 p.srank p.addr 8 p.tag p.tgen with data := leBytes 8 (if op = 0 then 0 else r.1.toNat) }
    | none => match tokenAt p.addr with
      | some k => (s.tokAdd k.1 k.2 (if op = 2 then bitsOf (le p.data 8 8) 0 32 else 0)).sendPkt (mkPkt 2 6 p.srank p.addr 0 p.tag p.tgen)
      | none => s.answerBad p 1)

end Sys2Proof.Machine
end

