-- ==== Sys2Proof/Machine/Boot.lean ====
section
/-! DEFINITION. Device resets and what each restores, the release order, applying the image, flash operations and the watchdog (R24,
R25, R493, R495, R498 to R504, R511, R516). -/

namespace Sys2Proof.Machine

/-! ## The reset matrix (R503) -/

/-- Registers of the error log that a reset by a source other than PORST_N keeps: buckets, pointers, loss counts, rings. -/
def keptError (a : Nat) : Bool :=
  (decide (aGECCBKT 0 ≤ a) && decide (a < aGECCBKT 10)) || a == aERRPTR 0 || a == aERRPTR 1 || a == aERRLOST || a == aGERRSTAT
    || (decide (aERRLOG 0 ≤ a) && decide (a < aERRLOG 4096))

/-- Stack registers kept: state, channel map, failed channels, stage words. -/
def keptStack (a : Nat) : Bool :=
  (List.range 8).any fun st => a == aSSTAT st || a == aSCHMAP st || a == aSFAIL st || (decide (aSSTAGE st 0 ≤ a) && decide (a < aSSTAGE st 4096))

/-- Bindery registers kept: queues and what they show, semaphores, BBLKUF (R244, Table 16.13). -/
def keptBindery (a : Nat) : Bool := decide (aBBLKUF 0 ≤ a) && decide (a < aBBLKUF 8)

/-- Registers a device reset other than power-on keeps (Table 16.13). -/
def keptWarm (a : Nat) : Bool :=
  a == aTBTIME || a == aTBSTAT || a == aTBOFS || a == aCRSTCAUSE || a == aFRRCTR || a == aPLIFE || keptError a || keptStack a
    || keptBindery a

/-- Stack units after a reset: fused records stay, and staged repairs and a burn in progress outlast it while power is on (R232). -/
def Stack.warm (x : Stack) : Stack :=
  { Stack.reset with mapFuse := x.mapFuse, repaired := x.repaired, staged := x.staged, fusing := x.fusing, fuseFail := x.fuseFail }

/-- Stack units after power has been off: only fused records stay. -/
def Stack.cold (x : Stack) : Stack := { Stack.reset with mapFuse := x.mapFuse, repaired := x.repaired }

/-- The flash after an interrupted program or erase: every byte of the page or sector is free (R511). -/
def State.flashBreak (s : State) : State :=
  match s.flashOp with
  | some (2, a) => { s with flash := SMap.setList (fun _ => 0xFF) s.flash a ((List.range 256).map fun i => Config.freeByte s.fresh i), fresh := s.fresh + 1 }
  | some (3, a) => { s with flash := SMap.setList (fun _ => 0xFF) s.flash a ((List.range 65536).map fun i => Config.freeByte s.fresh i), fresh := s.fresh + 1 }
  | _ => s

/-- What every device reset restores beside registers and stacks: State.reset's value of everything not listed here. -/
def State.resetCore (s : State) : State :=
  { State.reset with
    pending := s.pending, fresh := s.fresh, clk := s.clk, nextId := s.nextId, regs := s.regs, held := s.held,
    pow := { Power.reset with trip := s.pow.trip }, hoursBurnt := s.hoursBurnt, flash := s.flash, stk := s.stk, stkMark := s.stkMark,
    stx := s.stx, engines := s.engines, reports := s.reports, tsync := { s.tsync with good := 0, missed := 0 }, sent := s.sent }

/-- GSTAT.TBLOCK copies TBSTAT.LOCK (Table 1.9). -/
def State.showLock (s : State) : State := s.setFld GSTAT_TBLOCK (s.fld TBSTAT_LOCK)

/-- A power-on reset's state (PORST_N column). -/
def State.resetPower (s : State) : State :=
  let s := s.flashBreak
  let s := { s with
    regs := SMap.keep (fun a => a == aPLIFE) s.regs
    stx := s.stx.map fun (e : Nat × Stack) => (e.1, e.2.warm)
    engines := [], reports := [], tsync := ⟨0, 0, 0, 0, []⟩ }
  s.resetCore

/-- A device reset by another source: descriptors in progress end ABORT and stage writes that waited for them take effect (R392), stacks in
test state lose INITD and are initialised with the image. -/
def State.resetWarm (s : State) : State :=
  let s := s.flashBreak
  let s := s.each s.engines fun s e => s.engStop (e.1 / 8) (e.1 % 8)
  let s := s.stageSettle
  let s := { s with stx := s.stx.map fun (e : Nat × Stack) => (e.1, e.2.warm), regs := SMap.keep keptWarm s.regs }
  let s := s.each (List.range 8) fun s st => if s.flag (SSTAT_TEST st) then (s.setFld (SSTAT_TEST st) 0).setFld (SSTAT_INITD st) 0 else s
  s.resetCore.showLock

/-- A device reset is in progress. -/
def State.inResetNow (s : State) : Bool := s.boot != .up

/-- A device-reset source is taken (R498, R511). In arbitration hold every source is ignored. -/
def State.deviceReset (s : State) (src : Nat) : State :=
  if s.boot = .hold then s
  else
    let merge := s.inResetNow
    let held := if s.held.contains src then s.held else s.held ++ [src]
    let last := s.fld CRSTCAUSE_LAST
    if src = 1 then
      let s := { s.resetPower with held := held }
      (s.setFld CRSTCAUSE_LAST 1).primReport 0xA3 0 0 1
    else
      let s := { s.resetWarm with held := held }
      if merge then s.setFld CRSTCAUSE_LAST last
      else ((s.setFld CRSTCAUSE_LAST src).bump CRSTCAUSE_DEVRST 1).primReport 0xA3 0 0 src

/-- The pin filter (R499): an assertion of us microseconds. Nothing reaches the device while its pins have left its logic (R536). -/
def State.pinReset (s : State) (us src : Nat) : State :=
  if s.boot = .hold ∨ us < 10 ∨ s.pinsOff then s
  else if 100 ≤ us then s.deviceReset src
  else
    let take := Config.coin s.fresh
    let s := s.freshen
    if take then s.deviceReset src else s.bump CRSTCAUSE_IGNORED 1

/-- PORST_N_ASSERT (R498, R499). -/
def execPorstNAssert (us : Nat) (s : State) : Res := .next (s.pinReset us 1)
/-- PERST_ASSERT. -/
def execPerstAssert (us : Nat) (s : State) : Res := .next (s.pinReset us 2)
/-- WARMRST_N_ASSERT. -/
def execWarmrstNAssert (us : Nat) (s : State) : Res := .next (s.pinReset us 3)

/-- VIN48_BROWNOUT (R516): as an assertion of PORST_N, while PORST_N is released. -/
def execVin48Brownout (s : State) : Res := .next (if s.held.contains 1 then s else s.deviceReset 1)

/-- POWER_CYCLE (R47, R476): only fused records, and the flash outside the device, outlast it. -/
def execPowerCycle (s : State) : Res :=
  .next { State.reset with pending := s.pending, fresh := s.fresh, clk := s.clk, nextId := s.nextId, hoursBurnt := s.hoursBurnt,
                           flash := s.flashBreak.flash, stx := s.stx.map fun (e : Nat × Stack) => (e.1, e.2.cold), sent := s.sent }

/-- Source src no longer holds the device; the last one out releases it (R502). TBTIME counts from 0 from the release of PORST_N
(R32). -/
def State.resetOut (s : State) (src : Nat) : State :=
  if s.held.contains src then
    let s := { s with held := s.held.erase src }
    let s := if src = 1 then s.setFld TBTIME_TIME 0 else s
    if s.held.isEmpty && s.boot == .inReset then { s with boot := .released } else s
  else s

/-- RESET_RELEASE (R499, R502). The thermal trip's reset is held while THERMTRIP_N is asserted (R528). -/
def execResetRelease (src : Nat) (s : State) : Res :=
  .next (if src = 5 ∧ s.pow.trip then s else s.resetOut src)

/-- MGC_LEAVE_RESET (R502, R39, R427): 1,000 us after release; attempt 0 starts, and determinism is forced. -/
def execMgcLeaveReset (s : State) : Res :=
  .next (if s.boot = .released then { ({ s with boot := .arbitrating, detHold := true }.attemptStart 0) with arbFails := [] }.syncDetm else s)

/-! ## The bridge (R24, R25) -/

/-- BRIDGE_TEST_DONE (R24, R25): ok holds a bit for each link that passed. With none, the device runs on Half 0 alone. -/
def execBridgeTestDone (ok : BitVec 32) (s : State) : Res :=
  .next (if s.bridgeDone || !(s.boot == .reading || s.boot == .accepted) then s
  else
    let s := { s.setFld GBRIDGE_LINKOK ok.toNat with bridgeDone := true }
    let s := s.setFld GSTAT_BRDEG (if ok = BitVec.allOnes 32 then 0 else 1)
    if ok = 0 then (s.primReport (Config.freeByte s.fresh 0).toNat 2 0 0).freshen else s)

/-- Half 0's share of an image, when no bridge link works (R25). -/
def Image.half0 (im : Image) : Image :=
  { im with
    parts := im.parts.map fun e => (e.1, { e.2 with blocks := e.2.blocks.filter fun b => decide (b < 64) })
    slots := SMap.keep (fun k => decide (k < 256)) im.slots
    engines := SMap.keep (fun k => decide (k < 32)) im.engines
    mapouts := SMap.keep (fun k => decide (k < 4)) im.mapouts
    mports := SMap.keep (fun k => decide (k < 4)) im.mports
    fports := SMap.keep (fun k => decide (k < 1)) im.fports }

/-! ## Applying the image (R493, R502) -/

/-- FIELD records; the loss scale takes its initial exponent unless a record sets it (R370). -/
def State.applyFields (s : State) (im : Image) : State :=
  let s := s.each im.fields fun s (f : FieldSet) => s.setFld ⟨f.addr, f.lo, f.w⟩ f.v
  if im.fields.any fun f => f.addr == aGLSCALE then s else s.setFld GLSCALE_EXP (s.fld GLSCFG_INIT)

/-- TABLE records, byte by byte; what they hold in reserved fields is ignored (R14), and no HELLO has set a partner's VER yet (R397). -/
def State.applyTables (s : State) (im : Image) : State :=
  let s := s.each im.tables fun s t => s.each (t.2.zipIdx) fun s b =>
    let a := t.1 + b.2
    let m := match regSpecAt (a - a % 8) with
      | some r => bitsOf (r.mask fun _ => true) (8 * (a % 8)) 8
      | none => 0
    s.setFld ⟨a - a % 8, 8 * (a % 8), 8⟩ (b.1 &&& m)
  s.each (List.range 16) fun s n => if bitsOf (s.pw n 0) 16 2 = 0 then s else s.setPw n 0 (putBits (s.pw n 0) 16 2 0)

/-- Once the stream table is loaded the plan in force of every stream has STEP 0 and a capacity of QSLOTS for every expert (R353). -/
def State.applyPlans (s : State) : State :=
  s.each (List.range 64) fun s q =>
    let r := s.srRaw q
    if srQslots r = 0 then s
    else s.tblPut (aFPLAN (q * 128 + 64)) (leBytes 4 0 ++ [srNexp r] ++ List.replicate 11 0 ++ (List.replicate 64 (leBytes 2 (srQslots r))).flatten)

/-- A parameter's value. -/
def Image.param (im : Image) (id d : Nat) : Nat := SMap.get (fun _ => d) im.params id

/-- PARAM records of Table 17.9. -/
def State.applyParams (s : State) (im : Image) : State :=
  let s := if im.params.any fun e => e.1 == 0x0100 then s.setFld PCTL_EFF (im.param 0x0100 0) else s
  let s := (s.setFld PCFG_PSUST (im.param 0x0101 2600)).setFld PCFG_PPEAK (im.param 0x0102 3400)
  ((s.setFld PCFG_CREDMIN (im.param 0x0103 200)).setFld PCFG_THROTT (im.param 0x0104 105)).setFld PCFG_TD (im.param 0x0105 5000)

/-- CONTEXT records shown in HCTXSTAT; start programs wait for the first run. -/
def State.applyCtxs (s : State) (im : Image) : State :=
  s.each im.ctxs fun s e =>
    let k : CtxCfg := e.2
    let b := fun (x : Bool) => if x then 1 else 0
    let s := (s.setFld (HCTXSTAT_PART e.1) (k.part.getD 0)).setFld (HCTXSTAT_FW e.1) (b k.fw)
    let s := (s.setFld (HCTXSTAT_TRAIN e.1) (b k.training)).setFld (HCTXSTAT_IMPL e.1) (b k.implicit)
    s.modCtx e.1 fun x => { x with startDue := k.stile.isSome }

/-- CSTAT and the log of replaced values (R491). -/
def State.applyStat (s : State) (im : Image) : State :=
  let s := ((s.setFld CSTAT_VER im.ver).setFld CSTAT_SEQ im.seq).setFld CSTAT_SUBST (min 65535 im.subst.length)
  s.each im.subst fun s e => s.primReport 0xA2 1 0 (e.1 % 65536 + 65536 * (e.2 % 65536))

/-- IMAGE_APPLY (R493, R502 steps 5 and 6): the accepted image takes effect, keys load, stacks not initialised begin to be, and every
tile is reset and marked. It waits for the bridge's test. -/
def execImageApply (s : State) : Res :=
  .next (match s.boot, s.bridgeDone, s.imgNext with
  | .accepted, true, some im0 =>
    let im := if s.half1Gone then im0.half0 else im0
    let s := { s with img := im, imgNext := none, boot := .applying }
    let s := (((((s.applyFields im).applyTables im).applyPlans).applyParams im).applyCtxs im).applyStat im
    let s := s.each im.keys fun s e => s.imageKey e.1 e.2
    let s := s.each (List.range (if s.half1Gone then 4 else 8)) fun s st => if s.flag (SSTAT_INITD st) then s else s.stackInit st
    s.each (List.range (if s.half1Gone then 1024 else 2048)) fun s t => s.tileReset t
  | _, _, _ => s)

/-- A stack still initialises, or a tile is still marked. -/
def State.applyBusy (s : State) : Bool := s.stx.any (fun e => e.2.initing) || s.tiles.any fun e => e.2.marking

/-- Every port trains as the image directs; one the image does not enable, or that FPCTL disables, is DISABLED (R253, R525). -/
def State.portsTrain (s : State) : State :=
  s.each (List.range 8) fun s p =>
    let en := ((s.img.mports.find? fun e => e.1 == p).map fun e => (e.2 : MPortCfg).en).getD false
    if en && !s.flag (FPCTL_DISABLE p) then s.portElec p else s.setFld (FPSTAT_STATE p) 0

/-- The mode in force (R519): 0 Sustained, 1 Peak, 2 Efficient, 3 Paced, 4 Parked, 5 Boot. -/
def State.modeNow (s : State) : Nat :=
  if s.boot ≠ .up then 5
  else if s.flag PCTL_PARK then 4
  else if s.flag GCTL_PACED then 3
  else if s.flag GCTL_PEAKEN then 1
  else if s.flag PCTL_EFF then 2
  else 0

/-- A follower takes time from one port, the one on its route toward the reference. The manual does not say how the device learns the
reference's rank, so which port that is is a free value (R33, R50). A device that stays the reference has none (R37). -/
def State.sourcePort (s : State) : State :=
  if s.flag TBSTAT_REF then s else (s.setFld TBSTAT_SRCPORT (Config.pick s.fresh % 8)).freshen

/-- IMAGE_APPLIED (R502 step 7, R37, R504, R521): ports train, a reference takes its lock, the watchdog counts from here, the governor
leaves Boot with full credit, and contexts may start. -/
def execImageApplied (s : State) : Res :=
  .next (if s.boot ≠ .applying ∨ s.applyBusy then s
  else
    let s := { s with boot := .up, dogAt := s.clk }
    let s := s.portsTrain
    let s := if s.img.timeRef then (s.setFld TBSTAT_REF 1).setFld TBSTAT_LOCK 1 else s.sourcePort
    let s := s.showLock
    let s := { s with pow := { s.pow with credit := 200000 } }.setFld PCREDIT_CREDIT 2000
    let s := s.setFld PSTAT_MODE s.modeNow
    let s := if s.fld PHALT_INA != s.fld PHALT_INB then { s with halt := { s.halt with since := some s.now } } else s
    let s := s.each s.img.parts fun s e => s.ownTiles e.1
    let s := s.each s.img.ctxs fun s e => s.ctxShow e.1
    s.each s.img.parts fun s e => s.sched e.1)

/-! ## Flash operations (R495) -/

/-- Start the next flash operation that waits, once the flash is free. -/
def State.flashNext (s : State) : State :=
  match s.flashQ with
  | q :: qs => if s.flashOp.isSome ∨ s.boot = .reading then s else { s.setFld CFLSTAT_BUSY 1 with flashOp := some q, flashQ := qs }
  | [] => s

/-- GO written to CFLCMD. -/
def State.flashGo (s : State) (op a : Nat) : State :=
  let size := if op = 3 then 65536 else 256
  if op = 0 ∨ 3 < op then s
  else if a % size ≠ 0 then s.setFld CFLSTAT_ERR 1
  else { s with flashQ := s.flashQ ++ [(op, a)] }.flashNext

/-- A write of CFLCMD with GO = 1 by context c. -/
def State.flashCmd (s : State) (c op a : Nat) : State :=
  if s.pfOrFw c then ((s.setFld CFLCMD_OP op).setFld CFLCMD_ADDR (a % 2 ^ 27)).flashGo op (a % 2 ^ 27) else s.refuse aCFLCMD c

/-- FLASH_READ. -/
def execFlashRead (c a : Nat) (s : State) : Res := .next (s.flashCmd c 1 a)
/-- FLASH_PROGRAM. -/
def execFlashProgram (c a : Nat) (s : State) : Res := .next (s.flashCmd c 2 a)
/-- FLASH_ERASE. -/
def execFlashErase (c a : Nat) (s : State) : Res := .next (s.flashCmd c 3 a)

/-- What an operation that succeeds does: read into CFLBUF; program clears bits (PRESUMED: NOR flash); erase sets every byte to 0xFF. -/
def State.flashDo (s : State) (op a : Nat) : State :=
  if op = 1 then s.each (List.range 32) fun s i => s.setReg (aCFLBUF i) (BitVec.ofNat 64 (ofLE ((List.range 8).map fun j => s.flashByte (a + 8 * i + j))))
  else if op = 2 then
    let bs := (List.range 256).map fun i => BitVec.ofNat 8 (s.flashByte (a + i) &&& bitsOf (s.reg (aCFLBUF (i / 8))).toNat (8 * (i % 8)) 8)
    { s with flash := SMap.setList (fun _ => 0xFF) s.flash a bs }
  else { s with flash := SMap.keep (fun k => decide (k < a) || decide (a + 65536 ≤ k)) s.flash }

/-- FLASH_OP_DONE (R495): the operation ends; ok is false when the flash failed it, which leaves the bytes it writes free. -/
def execFlashOpDone (ok : Bool) (s : State) : Res :=
  .next (match s.flashOp with
  | none => s
  | some (op, a) =>
    let s := if ok then s.flashDo op a else s.flashBreak.setFld CFLSTAT_ERR 1
    ({ s with flashOp := none }.setFld CFLSTAT_BUSY 0).flashNext)

/-! ## The watchdog (R504) -/

/-- CWDOG.KICK = 1. -/
def State.dogKick (s : State) : State := { s with dogAt := s.clk }

/-- WATCHDOG_KICK. -/
def execWatchdogKick (c : Nat) (s : State) : Res := .next (if s.pfOrFw c then s.dogKick else s.refuse aCWDOG c)

/-- WATCHDOG_EXPIRY: LIMIT ms have passed without a kick; a kick in that nanosecond stands (R511). -/
def execWatchdogExpiry (s : State) : Res :=
  .next (if s.boot = .up ∧ s.fld CWDOG_LIMIT ≠ 0 ∧ s.dogAt + s.fld CWDOG_LIMIT * 1000000 ≤ s.clk then s.deviceReset 4 else s)

end Sys2Proof.Machine
end

