-- ==== Sys2Proof/Machine/RemoteReset.lean ====
section
/-! DEFINITION. Remote reset packets (R276, R277, R498, R509). -/

namespace Sys2Proof.Machine

/-- What a remote reset's tag covers: the header with HOPS and PMASK 0, and payload bytes 0 to 39 (R276). -/
def rrMessage (p : Pkt) : List Nat := pktHeader { p with hops := 0, pmask := 0 } ++ p.data.take 40

/-- The key of the slot the image assigns to remote reset, if it holds one for that use (R509). -/
def State.rrKey (s : State) : Option (List Nat) :=
  let k := s.img.param 2 0xFF
  if k < 32 then s.keyFor k useReset else none

/-- The tag verifies. -/
def State.rrTagOk (s : State) (p : Pkt) : Bool := match s.rrKey with
  | some key => p.data.length == 56 && cmac key (rrMessage p) == (p.data.drop 40).take 16
  | none => false

/-- KIND and PART are valid: a device reset with PART 0, or a partition reset of a partition there is. -/
def State.rrKindOk (s : State) (p : Pkt) : Bool :=
  (le p.data 16 1 == 1 && le p.data 17 1 == 0) || (le p.data 16 1 == 2 && (s.partCfg (le p.data 17 1)).isSome)

/-- ISSUE lies within 10 ms of TBTIME, which is asked only under lock. -/
def State.rrTimeOk (s : State) (p : Pkt) : Bool :=
  !s.flag TBSTAT_LOCK || (decide (s.now ≤ le p.data 8 8 + 10000000) && decide (le p.data 8 8 ≤ s.now + 10000000))

/-- The first condition of R277 that fails: 1 tag, 2 counter, 3 KIND or PART, 4 time; 0 none. -/
def State.rrFail (s : State) (p : Pkt) : Nat :=
  if !s.rrTagOk p then 1
  else if le p.data 0 8 ≤ s.fld FRRCTR_CTR then 2
  else if !s.rrKindOk p then 3
  else if !s.rrTimeOk p then 4
  else 0

/-- A remote reset for this device is judged and performed. -/
def State.rrTake (s : State) (port : Nat) (p : Pkt) : State :=
  let f := s.rrFail p
  if f ≠ 0 then s.portReport port 0x49 1 (f + p.srank * 65536)
  else
    let kind := le p.data 16 1
    let s := (s.setFld FRRCTR_CTR (le p.data 0 8)).portReport port 0x48 1 (kind + le p.data 17 1 * 256 + p.srank * 65536)
    if kind = 1 then s.deviceReset 6 else s.partReset (le p.data 17 1)

/-- RRESET_PACKET (R277). -/
def execRresetPacket (port : Nat) (p : Pkt) (s : State) : Res := .next (s.rxPacket port p 8 fun s => s.rrTake port p)

/-- The packet a remote reset command sends, tagged (R276). -/
def State.rrBuild (s : State) (key : List Nat) (dst kind part ctr : Nat) : Pkt :=
  let body := leBytes 8 ctr ++ leBytes 8 s.now ++ [kind, part] ++ List.replicate 22 0
  let p := { mkPkt 1 8 dst 0 56 0 0 with srank := s.rank, data := body }
  { p with data := body ++ cmac key (rrMessage p) }

end Sys2Proof.Machine
end

