-- ==== Sys2Proof/Machine/Host.lean ====
section
/-! DEFINITION. The host's queues: doorbells, command fetch, commands and their completions, host memory reads, the PCIe link and
virtual functions (R450 to R453, R460 to R466, R471, R472). -/

namespace Sys2Proof.Machine

/-! ## Commands (Table 15.5) -/

/-- OPC. -/
def Cmd.opc (k : Cmd) : Nat := le k.bytes 0 1
/-- FENCE. -/
def Cmd.fence (k : Cmd) : Bool := bitOf (le k.bytes 1 1) 1
/-- ARGi. -/
def Cmd.arg (k : Cmd) (i : Nat) : Nat := le k.bytes (8 + 8 * i) 8

/-- A reserved field is set, FENCE among them in version 1. -/
def Cmd.reserved (k : Cmd) (ver : Nat) : Bool :=
  decide (4 ≤ le k.bytes 1 1) || (ver == 1 && k.fence) || nz k.bytes 2 2 || nz k.bytes 40 24

/-- Statuses of Table 15.8. -/
def hsOk : Nat := 0
/-- Table 15.8. -/
def hsDesc : Nat := 1
/-- Table 15.8. -/
def hsPerm : Nat := 2
/-- Table 15.8. -/
def hsAddr : Nat := 3
/-- Table 15.8. -/
def hsPoison : Nat := 4
/-- Table 15.8. -/
def hsHostErr : Nat := 5
/-- Table 15.8. -/
def hsTimeout : Nat := 6

/-- Change command k of context c. -/
def State.modCmd (s : State) (c k : Nat) (f : Cmd → Cmd) : State :=
  s.modCtx c fun x => { x with cmds := x.cmds.modify k f }

/-- A command has ended, and waits for its completion entry. -/
def State.cmdEnd (s : State) (c k st detail : Nat) : State :=
  s.modCmd c k fun x => { x with stage := 2, status := st, detail := detail }

/-- The queues of a context work: enabled, not FAULTED, not reset while it waits for a switch. -/
def State.queueLive (s : State) (c : Nat) : Bool :=
  s.ctxOn c && s.flag (HQCFG_EN c) && !s.flag (HCTXSTAT_FAULT c) && (s.ctx c).resetDue.isNone

/-- Command k of context c may start (R461, R463): in ring order; in version 1, and with FENCE, only when every earlier command has
completed; and only while the completion ring has room. Its context's state stands in its partition's tiles. -/
def State.cmdMayStart (s : State) (c k : Nat) (x : Cmd) : Bool :=
  s.queueLive c && x.stage == 0 && s.cqRoom c && ((s.ctxPart c).bind s.occupant) == some c
    && (((s.ctx c).cmds.take k).all fun e => e.stage != 0) && (k == 0 || (s.fld (HQCFG_VER c) == 2 && !x.fence))

/-- Start command k when it may start and has operation opc: one with a reserved field ends DESC, another is handed to f. -/
def State.cmdStart (s : State) (c k opc : Nat) (f : State → Cmd → State) : State :=
  match (s.ctx c).cmds[k]? with
  | none => s
  | some x =>
    if x.opc ≠ opc ∨ !s.cmdMayStart c k x then s
    else if x.reserved (s.fld (HQCFG_VER c)) then s.cmdEnd c k hsDesc 0
    else f s x

/-! ## Host memory -/

/-- Read host memory: the request goes out, and its completion will name it. -/
def State.hostAsk (s : State) (c addr len : Nat) (use : DmaUse) (head : Nat) : State :=
  let id := s.newId
  { id.2.emit (.hostRead id.1 addr len) with dmas := id.2.dmas ++ [⟨id.1, c, addr, len, use, head⟩] }

/-- Write bytes to host memory in payloads of at most 512 bytes, EP set on those that hold a poisoned byte (R451); n bounds them. -/
def State.hostPut (s : State) : Nat → Nat → List (Nat × Bool) → State
  | 0, _, _ => s
  | n + 1, a, bs =>
    if bs.isEmpty then s
    else
      let k := 512 - a % 512
      let h := bs.take k
      (s.emit (.hostWrite a (h.map (·.1)) (anyPois h))).hostPut n (a + h.length) (bs.drop k)

/-- Context c may address device addresses [d, d + n) from the host (R456). -/
def State.hostMay (s : State) (c d n : Nat) : Bool := c == 0 || match s.ctxPart c with
  | some p => s.partMay p d n
  | none => false

/-- The range is memory that takes a write. -/
def State.hostMem (s : State) (d n : Nat) : Bool := s.isMem d n && !s.refusesWrite d

/-- Write those 64-byte units of a range that a free choice picks and that are memory (R464: any subset written); n bounds them. -/
def State.writeSome (s : State) (tag : Nat) : Nat → Nat → List (Nat × Bool) → State
  | 0, _, _ => s
  | n + 1, d, bs =>
    if bs.isEmpty then s
    else
      let k := 64 - d % 64
      let h := bs.take k
      let s := if Config.subset tag (d / 64) && s.hostMem d h.length then s.memWrite d h else s
      s.writeSome tag n (d + k) (bs.drop k)

/-! ## Doorbells and queue registers (R460, R463, R465, R466) -/

/-- A write of HQSQTAIL: more than the ring size between head and tail faults the context. While a reset of the context waits it is
discarded (R477). -/
def State.hqTail (s : State) (c v : Nat) : State :=
  if (s.ctx c).resetDue.isSome then s
  else
    let n := ringSize (s.fld (HQCFG_SQLOG c))
    let v := v % 2 ^ 17
    let s := s.setFld (HQSQTAIL_TAIL c) v
    let gap := (v + 2 * n - s.fld (HQSQHEAD_HEAD c) % (2 * n)) % (2 * n)
    if n < gap ∨ 2 * n ≤ v then s.ctxFault c 2 else s.schedCtx c

/-- SQ_DOORBELL (R460). -/
def execSqDoorbell (c v : Nat) (s : State) : Res := .next (if s.boot = .up ∧ c < 512 then s.hqTail c v else s)

/-- COMPLETION_HEAD_WRITE (R463). -/
def execCompletionHeadWrite (c v : Nat) (s : State) : Res :=
  .next (if s.boot = .up ∧ c < 512 then s.setFld (HQCQHEAD_HEAD c) (v % 2 ^ 17) else s)

/-- A write of HQEVHEAD: the next loss is logged again. -/
def State.hqEvHead (s : State) (c v : Nat) : State := (s.setFld (HQEVHEAD_HEAD c) (v % 2 ^ 17)).modCtx c fun x => { x with evLogged := false }

/-- EVENT_HEAD_WRITE (R465). -/
def execEventHeadWrite (c v : Nat) (s : State) : Res := .next (if s.boot = .up ∧ c < 512 then s.hqEvHead c v else s)

/-- A write of HQCFG with the value the register will hold: EN = 1 with version 0 or 3, or a ring size above 10, faults the context. -/
def State.hqCfg (s : State) (c : Nat) (v : BitVec 64) : State :=
  let s := s.setReg (aHQCFG c) v
  let ver := s.fld (HQCFG_VER c)
  let big := decide (10 < s.fld (HQCFG_SQLOG c)) || decide (10 < s.fld (HQCFG_CQLOG c)) || decide (10 < s.fld (HQCFG_EVLOG c))
  if s.flag (HQCFG_EN c) && (ver == 0 || ver == 3 || big) then s.ctxFault c 3 else s.schedCtx c

/-- QUEUE_ENABLE (R466): v is written to HQCFG; reserved bits are dropped. -/
def execQueueEnable (c : Nat) (v : BitVec 64) (s : State) : Res :=
  .next (if s.boot = .up ∧ c < 512 then s.hqCfg c (v &&& 0x3FF000FFF07) else s)

/-! ## Fetch (R461) -/

/-- COMMAND_FETCH: the next command the doorbell covers is read from host memory. It waits for the context's partition, the link, a
halt and Parked; in version 1 for every earlier command. -/
def execCommandFetch (c : Nat) (s : State) : Res :=
  let n := ringSize (s.fld (HQCFG_SQLOG c))
  let head := s.fld (HQSQHEAD_HEAD c)
  let next := (head + 1) % (2 * n)
  .next (if s.queueLive c && s.unfetched c && s.flag HLINK_UP && !s.frozen && s.cqRoom c
      && (match s.ctxPart c with
        | some p => s.curCtx p == some c && s.switchAt p == .none
        | none => false)
      && !(s.dmas.any fun d => d.ctx == c && d.use == .fetch) && ((s.ctx c).cmds.isEmpty || s.fld (HQCFG_VER c) == 2) then
    (s.setFld (HQSQHEAD_HEAD c) next).hostAsk c (s.fld (HQSQBASE_BASE c) * 4096 + head % n * 64) 64 .fetch next
  else s)

/-! ## The commands (Table 15.6) -/

/-- NOP_COMMAND. -/
def execNopCommand (c k : Nat) (s : State) : Res := .next (s.cmdStart c k 0 fun s _ => s.cmdEnd c k hsOk 0)

/-- The status a WRITE or READ over a range of the device meets before it moves anything: length or alignment first; a free one of partition
and address where both are broken, which Table 15.8 does not order; 0 for none. -/
def State.copyStatus (s : State) (c d n : Nat) (write : Bool) : Nat :=
  if n = 0 ∨ 2 ^ 32 < n ∨ (write ∧ d < 0x8000000000 ∧ (n % 64 ≠ 0 ∨ d % 64 ≠ 0)) then hsDesc
  else s.oneOf (codesOf [(!s.hostMay c d n, hsPerm), (!s.isMem d n || (write && s.refusesWrite d), hsAddr)])

/-- DETAIL of a WRITE or READ that ends other than OK: the transfer status of Table 5.15 of the same name, where there is one (log entry 65). -/
def copyDetail (st : Nat) : Nat :=
  if st = hsDesc then 6 else if st = hsPerm then 7 else if st = hsAddr then 1 else if st = hsPoison then 3 else 0

/-- WRITE_COMMAND: the host's bytes are asked for; the copy follows their completion. -/
def execWriteCommand (c k : Nat) (s : State) : Res :=
  .next (s.cmdStart c k 1 fun s x =>
    let st := s.copyStatus c (x.arg 1) (x.arg 2) true
    if st = hsDesc ∨ (st ≠ hsOk ∧ !s.hostMay c (x.arg 1) (x.arg 2)) then s.freshen.cmdEnd c k st (copyDetail st)
    else (s.modCmd c k fun x => { x with stage := 1, status := st }).hostAsk c (x.arg 0) (x.arg 2) .data x.head)

/-- READ_COMMAND: device memory is copied to the host; poisoned bytes go with EP. An unmapped range sends any subset. -/
def execReadCommand (c k : Nat) (s : State) : Res :=
  .next (s.cmdStart c k 2 fun s x =>
    let st := s.copyStatus c (x.arg 1) (x.arg 2) false
    if st = hsDesc ∨ (st ≠ hsOk ∧ !s.hostMay c (x.arg 1) (x.arg 2)) then s.freshen.cmdEnd c k st (copyDetail st)
    else if st = hsAddr then
      let tag := s.fresh
      let s := s.each (List.range (ceilDiv (x.arg 2) 64)) fun s i =>
        let n := min 64 (x.arg 2 - 64 * i)
        if Config.subset tag i && s.isMem (x.arg 1 + 64 * i) n then
          let r := s.memRead (x.arg 1 + 64 * i) n uExternal
          r.2.hostPut 2 (x.arg 0 + 64 * i) r.1
        else s
      (s.freshen).cmdEnd c k hsAddr (copyDetail hsAddr)
    else
      let r := s.memRead (x.arg 1) (x.arg 2) uExternal
      let st := if anyPois r.1 then hsPoison else hsOk
      (r.2.hostPut (x.arg 2) (x.arg 0) r.1).cmdEnd c k st (copyDetail st))

/-- A tile of the context's partition. -/
def State.cmdTile (s : State) (c t : Nat) : Bool := match s.ctxPart c with
  | some p => (s.tilesOf p).contains t
  | none => false

/-- START_COMMAND: as TSQCTL with START and RUN; while the device is halted it waits (R530). -/
def execStartCommand (c k : Nat) (s : State) : Res :=
  .next (if s.frozen then s
  else s.cmdStart c k 3 fun s x =>
    if s.cmdTile c (x.arg 0) then (s.tileRun (x.arg 0) (x.arg 1 % 8192)).cmdEnd c k hsOk 0 else s.cmdEnd c k hsDesc 0)

/-- STOP_COMMAND: as TSQCTL.STOP. -/
def execStopCommand (c k : Nat) (s : State) : Res :=
  .next (s.cmdStart c k 4 fun s x =>
    if s.cmdTile c (x.arg 0) then (s.tileStop (x.arg 0)).cmdEnd c k hsOk 0 else s.cmdEnd c k hsDesc 0)

/-- A device address in the form of R157, for this device. -/
def State.ownAddr (s : State) (d : Nat) : Nat := s.rank * 2 ^ 48 + d % 2 ^ 48

/-- COLL_COMMAND (R304, R306): it waits while 16 collectives are in flight. A refusal other than DESC and PERM is the collective's own
status, in DETAIL. -/
def execCollCommand (c k : Nat) (s : State) : Res :=
  .next (if 16 ≤ s.colls.length then s
  else s.cmdStart c k 5 fun s x =>
    let r := s.collSubmit c 0 (s.ownAddr (x.arg 0))
    r.2.cmdEnd c k (if r.1 = 1 then hsDesc else if r.1 = 2 then hsPerm else if r.1 = 3 then hsAddr else if r.1 = 7 then hsPoison else hsOk) r.1)

/-- PLAN_COMMAND: the record is asked for. -/
def execPlanCommand (c k : Nat) (s : State) : Res :=
  .next (s.cmdStart c k 6 fun s x =>
    if x.arg 1 < 64 && s.srCtxIs (x.arg 1) (some c) then
      (s.modCmd c k fun x => { x with stage := 1 }).hostAsk c (x.arg 0) 256 .data x.head
    else s.cmdEnd c k hsDesc 0)

/-- The token an argument names, when it is one of the context's: tile and token, or a status. -/
def State.cmdToken (s : State) (c a : Nat) : Except Nat (Nat × Nat) :=
  match tokenAt a with
  | none => .error hsDesc
  | some t => if s.hostMay c a 8 then .ok t else .error hsPerm

/-- TOKWAIT: it starts; from then on it ends once the token reaches the count, or when the wait timeout has passed (expired). -/
def execTokwait (c k : Nat) (expired : Bool) (s : State) : Res :=
  let s := s.cmdStart c k 7 fun s x =>
    match s.cmdToken c (x.arg 0) with
    | .error st => s.cmdEnd c k st 0
    | .ok _ => s.modCmd c k fun x => { x with stage := 1 }
  .next (match (s.ctx c).cmds[k]? with
    | some x =>
      if x.opc = 7 ∧ x.stage = 1 then
        match tokenAt (x.arg 0) with
        | some t =>
          let n := s.fld (TTOK_COUNT t.1 t.2)
          let want := x.arg 1 % 65536
          if want ≤ n then (s.setFld (TTOK_COUNT t.1 t.2) (n - want)).cmdEnd c k hsOk 0
          else if expired then s.cmdEnd c k hsTimeout 0
          else s
        | none => s
      else s
    | none => s)

/-- TOKADD. -/
def execTokadd (c k : Nat) (s : State) : Res :=
  .next (s.cmdStart c k 8 fun s x =>
    match s.cmdToken c (x.arg 0) with
    | .error st => s.cmdEnd c k st 0
    | .ok t => (s.tokAdd t.1 t.2 (x.arg 1 % 65536)).cmdEnd c k hsOk 0)

/-- RRESET_COMMAND (R276, R509): accepted only from PF 0 and firmware contexts. -/
def execRresetCommand (c k : Nat) (s : State) : Res :=
  .next (s.cmdStart c k 9 fun s x =>
    let kind := bitsOf (x.arg 0) 16 8
    match s.rrKey with
    | none => s.cmdEnd c k hsDesc 0
    | some key =>
      if s.pfOrFw c && (kind == 1 || kind == 2) then
        (s.sendPkt (s.rrBuild key (x.arg 0 % 65536) kind (bitsOf (x.arg 0) 24 8) (x.arg 1))).cmdEnd c k hsOk 0
      else s.cmdEnd c k hsDesc 0)

/-- COMMAND_COMPLETE (R463): a command that has ended writes its completion entry when the ring has room, and leaves the queue. -/
def execCommandComplete (c k : Nat) (s : State) : Res :=
  .next (match (s.ctx c).cmds[k]? with
    | some x =>
      if x.stage = 2 ∧ s.queueLive c ∧ s.cqRoom c then
        ((s.cqPut c x).modCtx c fun y => { y with cmds := y.cmds.eraseIdx k }).schedCtx c
      else s
    | none => s)

/-! ## Completions of host memory reads (R451) -/

/-- A host DMA error is logged: 1 UR, 2 CA, 3 poisoned, 4 timeout. -/
def State.dmaError (s : State) (d : Dma) (kind : Nat) : State := s.report 0 0x81 2 (srcOf 5 d.ctx) d.addr kind

/-- Bytes with the poison of their 64-byte units. -/
def poisonUnits (bs pois : List Nat) : List (Nat × Bool) := (bs.zipIdx).map fun b => (b.1, pois.contains (b.2 / 64))

/-- A command's own index in its queue. -/
def State.cmdIndex (s : State) (c : Nat) (x : Cmd) : Nat :=
  let n := 2 * ringSize (s.fld (HQCFG_SQLOG c))
  (x.head + n - 1) % n

/-- The data of a WRITE has come: it is written, and the ledger takes a HOSTDATA record (R432, R462). A window that is being marked by then
refuses it (R202). -/
def State.writeData (s : State) (c k : Nat) (x : Cmd) (bs : List (Nat × Bool)) (err : Bool) : State :=
  if err ∨ x.status = hsAddr ∨ s.refusesWrite (x.arg 1) then
    (s.writeSome s.fresh (bs.length / 64 + 2) (x.arg 1) bs).freshen.cmdEnd c k (if err then hsHostErr else hsAddr) (copyDetail (if err then hsHostErr else hsAddr))
  else
    let s := s.memWrite (x.arg 1) bs
    let ref := decide (s.fld GLEDCFG_LEDMAX < x.arg 2)
    let s := s.led 1 ref c (s.cmdIndex c x) (x.arg 1) (if ref then leBytes 8 (x.arg 3) else bs.map (·.1))
    let st := if anyPois bs then hsPoison else hsOk
    s.cmdEnd c k st (copyDetail st)

/-- The record of a PLAN has come: it is copied to the incoming plan area and its doorbell is rung. -/
def State.planData (s : State) (c k : Nat) (x : Cmd) (bs : List (Nat × Bool)) (err : Bool) : State :=
  let a := aFPLAN (x.arg 1 * 128)
  if err then
    let old := s.tblBytes a 256
    let put := (old.zipIdx).map fun b => if Config.subset s.fresh b.2 && decide (b.2 < bs.length) then (nth (0, false) bs b.2).1 else b.1
    (s.tblPut a put).freshen.cmdEnd c k hsHostErr 0
  else if anyPois bs then
    ((s.tblPut a ((bs.zipIdx).map fun b => if b.1.2 then (Config.freeByte s.fresh b.2).toNat else b.1.1)).freshen).cmdEnd c k hsPoison 0
  else
    let s := s.tblPut a (bs.map (·.1))
    (s.fdsDoorbell (x.arg 1) (le (bs.map (·.1)) 0 4)).cmdEnd c k hsOk 0

/-- A read of host memory has ended: err is 0, or its error's kind; bytes are what came, and pois the poisoned 64-byte units. -/
def State.dmaEnd (s : State) (d : Dma) (err : Nat) (bytes pois : List Nat) : State :=
  let s := { s with dmas := s.dmas.filter fun e => e.id != d.id }
  let kind := if err ≠ 0 then err else if pois.isEmpty then 0 else 3
  let s := if kind = 0 then s else s.dmaError d kind
  match d.use with
  | .fetch =>
    if kind ≠ 0 then s.ctxFault d.ctx 1
    else
      let x : Cmd := ⟨bytes, d.head, 0, 0, 0⟩
      let x := if 9 < x.opc then { x with stage := 2, status := hsDesc } else x
      (s.modCtx d.ctx fun y => { y with cmds := y.cmds ++ [x] }).schedCtx d.ctx
  | .data =>
    match (s.ctx d.ctx).cmds.findIdx? fun x => x.head == d.head && x.stage == 1 with
    | none => s
    | some k => match (s.ctx d.ctx).cmds[k]? with
      | none => s
      | some x =>
        if x.opc = 6 then s.planData d.ctx k x (poisonUnits bytes pois) (err != 0)
        else s.writeData d.ctx k x (poisonUnits bytes pois) (err != 0)

/-- HOST_DMA_COMPLETION (R451): status 0 successful, 1 Unsupported Request, 2 Completer Abort; a completion that names no read
outstanding, or does not bring the length asked for, is not one of the device's. -/
def execHostDmaCompletion (id status : Nat) (bytes pois : List Nat) (s : State) : Res :=
  .next (match s.dmas.find? fun d => d.id == id with
    | some d => if 2 < status ∨ (status = 0 ∧ bytes.length ≠ d.len) then s else s.dmaEnd d status bytes pois
    | none => s)

/-- COMPLETION_TIMEOUT (R451). -/
def execCompletionTimeout (id : Nat) (s : State) : Res :=
  .next (match s.dmas.find? fun d => d.id == id with
    | some d => s.dmaEnd d 4 [] []
    | none => s)

/-! ## The link and the functions (R452, R453, R472, R471) -/

/-- The PCIe link leaves L0. -/
def State.pcieDown (s : State) : State :=
  if s.flag HLINK_UP then ((s.setFld HLINK_UP 0).bump HLINK_DOWNS 1).report 0 0x80 1 (srcOf 5 0) 0 (s.fld HLINK_RATE) else s

/-- PCIE_LINK_LOSS (R452). -/
def execPcieLinkLoss (s : State) : Res := .next s.pcieDown

/-- PCIE_LINK_RETRAINED (R452): the link is in L0 at a rate (1 to 6) and a width. Training begins when the MGCs leave reset (R502). -/
def execPcieLinkRetrained (rate width : Nat) (s : State) : Res :=
  .next (if s.boot = .inReset ∨ s.boot = .released ∨ s.flag HLINK_UP ∨ s.pinsOff then s
    else ((s.setFld HLINK_UP 1).setFld HLINK_RATE rate).setFld HLINK_WIDTH width)

/-- BUS_MASTER_DISABLE (R472). -/
def execBusMasterDisable (c : Nat) (s : State) : Res := .next (if s.flag (HQCFG_EN c) then s.ctxFault c 4 else s)

/-- VF_ENABLE (R453, R459): the first n virtual functions are enabled, the others not; firmware contexts do not depend on it. -/
def execVfEnable (n : Nat) (s : State) : Res :=
  .next (if s.boot = .up then
    let own := s.img.parts.map fun e => (e.1, s.firstOn e.1)
    let s := s.each (List.range 511) fun s i => s.modCtx (i + 1) fun x => { x with vfEnabled := decide (i < n) }
    let s := s.each own fun s e => if s.firstOn e.1 = e.2 then s else s.ownTiles e.1
    s.each (List.range 511) fun s i => s.schedCtx (i + 1)
  else s)

/-- MODERATION_DELAY_END (R471): vectors that occurred within the delay are signalled once. -/
def execModerationDelayEnd (fn : Nat) (s : State) : Res :=
  let vs := (s.ctx fn).held
  .next ((s.modCtx fn fun x => { x with held := [], modOn := false }).each vs fun s v => s.emit (.msix fn v))

end Sys2Proof.Machine
end

