-- ==== Sys2Proof/Machine/Power.lean ====
section
/-! DEFINITION. Operating modes, the energy credit, Peak windows, thermal limits and the halt inputs (R519 to R531). -/

namespace Sys2Proof.Machine

/-! ## Modes (R519) -/

/-- PSTAT.MODE follows the selections; a window closes when the mode leaves Peak (R521). -/
def State.modeSync (s : State) : State :=
  let m := s.modeNow
  let s := s.setFld PSTAT_MODE m
  if m = 1 then s else s.setFld PSTAT_WINDOW 0

/-- Peak hours charged (PLIFE.HOURS). -/
def State.peakHours (s : State) : Nat := Config.peakHours + s.hoursBurnt
/-- The Peak life budget (Table 0.5). -/
def peakBudget : Nat := if Config.gradeX then 5000 else 1000

/-- A write of GCTL.PEAKEN (R523). -/
def State.peakWrite (s : State) (v : Bool) : State :=
  if v && decide (peakBudget ≤ s.peakHours) then
    ((s.setFld GCTL_PEAKEN 0).setFld PSTAT_PEAKREF 1).primReport 0xC2 1 0 (s.peakHours % 65536) |>.modeSync
  else (s.setFld GCTL_PEAKEN (if v then 1 else 0)).modeSync

/-- A write of GCTL.PACED. -/
def State.pacedWrite (s : State) (v : Bool) : State := (s.setFld GCTL_PACED (if v then 1 else 0)).modeSync
/-- A write of PCTL.EFF. -/
def State.effWrite (s : State) (v : Bool) : State := (s.setFld PCTL_EFF (if v then 1 else 0)).modeSync

/-- PEAK_REQUEST (R523): context c writes GCTL.PEAKEN. -/
def execPeakRequest (c : Nat) (v : Bool) (s : State) : Res := .next (if s.pfOrFw c then s.peakWrite v else s.refuse aGCTL c)
/-- PACED_SELECT (R519). -/
def execPacedSelect (c : Nat) (v : Bool) (s : State) : Res := .next (if s.pfOrFw c then s.pacedWrite v else s.refuse aGCTL c)
/-- EFFICIENT_SELECT (R519). -/
def execEfficientSelect (c : Nat) (v : Bool) (s : State) : Res := .next (if s.pfOrFw c then s.effWrite v else s.refuse aPCTL c)

/-! ## Parked (R525) -/

/-- The first condition that refuses a park: 1 a context is READY, RUNNING or SWITCHING, 2 a collective is in flight, 3 a far round
waits, 4 a bindery engine is busy; 0 none. -/
def State.parkBar (s : State) : Nat :=
  if s.img.ctxs.any fun e => s.fld (HCTXSTAT_STATE e.1) == 2 || s.fld (HCTXSTAT_STATE e.1) == 3 || s.fld (HCTXSTAT_STATE e.1) == 4 then 1
  else if s.flag FCOLSTAT_ACTIVE then 2
  else if s.flag XRSTAT_WAITING then 3
  else if (List.range 64).any fun k => s.flag (BESTAT_BUSY (k / 8) (k % 8)) then 4
  else 0

/-- A Miltum port's transmitters and receivers are turned off. -/
def State.portOff (s : State) (p : Nat) : State := s.portStop p 0

/-- A write of PCTL.PARK = 1. -/
def State.park (s : State) : State :=
  if s.parked ∨ s.boot ≠ .up then s
  else if s.parkBar ≠ 0 then (s.setFld PSTAT_PARKREF 1).primReport 0xC9 1 0 s.parkBar
  else
    let s := (s.setFld PCTL_PARK 1).modeSync
    let s := (s.setFld PSTAT_VCORE 550).setFld PSTAT_BEAT 0
    let s := s.each (List.range 8) fun s p => if s.fld (FPSTAT_STATE p) = 0 then s else s.portOff p
    (s.farLink 0 false).farLink 1 false

/-- TSQCTL.RUN writes that waited (R530). -/
def State.runsGo (s : State) : State :=
  if s.frozen then s
  else ({ s with halt := { s.halt with runs := [] } }).each s.halt.runs fun s r => s.tileGo r.1 r.2

/-- A write of PCTL.PARK = 0. -/
def State.unpark (s : State) : State :=
  if !s.parked then s
  else
    let s := (s.setFld PCTL_PARK 0).modeSync
    let s := s.portsTrain.runsGo
    s.each s.img.parts fun s e => s.sched e.1

/-- PARK. -/
def execPark (c : Nat) (s : State) : Res := .next (if s.pfOrFw c then s.park else s.refuse aPCTL c)
/-- UNPARK. -/
def execUnpark (c : Nat) (s : State) : Res := .next (if s.pfOrFw c then s.unpark else s.refuse aPCTL c)

/-! ## The governor (R520 to R524) -/

/-- Highest core voltage of the mode in force, in mV (Table 17.4). -/
def State.modeMv (s : State) : Nat :=
  match s.modeNow with
  | 1 => if s.flag PSTAT_WINDOW then 850 else 750
  | 2 => 650
  | 4 => 550
  | 5 => 700
  | _ => 750

/-- The credit after a millisecond of average power avg, in mJ (R521). -/
def creditAfter (credit avg psust : Nat) : Nat := if psust < avg then credit - (avg - psust) else min 200000 (credit + 150)

/-- The limit in force, in W. -/
def State.powerLimit (s : State) : Nat := if s.flag PSTAT_WINDOW then s.fld PCFG_PPEAK else s.fld PCFG_PSUST

/-- GOVERNOR_TICK (R520, R521): a millisecond ends with average power avg; the governor chooses the core voltage mv and the core runs
at beat, which the manual leaves to it within the mode's voltage and the throttling cut. -/
def execGovernorTick (avg mv beat : Nat) (s : State) : Res :=
  .next (
    let s := (s.setFld PPOWER_NOW (min 65535 avg)).setFld PPOWER_MAX (max (s.fld PPOWER_MAX) (min 65535 avg))
    let s := (s.setFld PSTAT_VCORE (min mv (s.modeMv - s.pow.cut))).setFld PSTAT_BEAT (if s.parked then 0 else beat)
    if s.boot ≠ .up then s
    else
      let cr := creditAfter s.pow.credit avg (s.fld PCFG_PSUST)
      let s := { s with pow := { s.pow with credit := cr } }.setFld PCREDIT_CREDIT (cr / 100)
      let s := if cr = 0 then s.setFld PSTAT_WINDOW 0 else s
      if s.modeNow = 1 ∧ !s.flag PSTAT_WINDOW ∧ s.fld PCFG_CREDMIN * 1000 ≤ cr then (s.setFld PSTAT_WINDOW 1).bump PCREDIT_WINCNT 1 else s)

/-- PEAK_WINDOW_END (R521): 250 ms after the window opened. -/
def execPeakWindowEnd (s : State) : Res := .next (s.setFld PSTAT_WINDOW 0)

/-- PEAK_SECOND (R522, R523): a second of window time; each 3,600 burn a fuse bit, and a budget reached closes the window. -/
def execPeakSecond (s : State) : Res :=
  .next (if !s.flag PSTAT_WINDOW then s
  else if s.fld PLIFE_SECS + 1 < 3600 then s.setFld PLIFE_SECS (s.fld PLIFE_SECS + 1)
  else
    let s := { s.setFld PLIFE_SECS 0 with hoursBurnt := s.hoursBurnt + 1 }
    if peakBudget ≤ s.peakHours then
      ((s.setFld PSTAT_WINDOW 0).setFld GCTL_PEAKEN 0).primReport 0xC3 1 0 (s.peakHours % 65536) |>.modeSync
    else s)

/-- PACED_ALLOWANCE (R524): 125 ns of TBTIME end; met is false when the core could not keep 264 beats. -/
def execPacedAllowance (met : Bool) (s : State) : Res :=
  .next (if s.modeNow = 3 ∧ !met ∧ !s.flag PSTAT_PACELOST then
    (s.setFld PSTAT_PACELOST 1).primReport 0xC7 1 0 (s.fld PSTAT_BEAT)
  else s)

/-! ## Thermal limits (R526 to R528) -/

/-- The junction temperature in 1/16 °C: the hottest of the three readings. -/
def State.tj (s : State) : Int := max (toIntW 16 (s.fld PTEMP_TJ0)) (max (toIntW 16 (s.fld PTEMP_TJ1)) (toIntW 16 (s.fld PTEMP_TJSTK)))

/-- SENSOR_READ (R526, R527, R438): the hottest readings of each half and of the stacks, 16-bit two's complement in 1/16 °C. -/
def execSensorRead (t0 t1 ts : BitVec 16) (s : State) : Res :=
  .next (
    let s := ((s.setFld PTEMP_TJ0 t0.toNat).setFld PTEMP_TJ1 t1.toNat).setFld PTEMP_TJSTK ts.toNat
    let tj := s.tj
    let hot := decide ((s.fld PCFG_THROTT * 16 : Nat) < tj)
    let entry := hot && !s.flag PSTAT_THROT
    let old := match s.pow.lastThrot with
      | some t => decide (t + 1000000000 ≤ s.clk)
      | none => true
    let s := if entry && old then s.primReport 0xC0 1 0 (ofIntW 16 tj) else s
    let s := { s with pow := { s.pow with hot := hot } }
    let s := if hot then { s.setFld PSTAT_THROT 1 with pow := { s.pow with lastThrot := some s.clk } } else s
    if ((s.fld GCKCFG_THERM * 16 : Nat) : Int) ≤ tj then s.failWarn 3 else s)

/-- THROTTLE_STEP (R527): a millisecond of throttling. Down 5 mV while above the threshold; up 5 mV once 3 °C below it. -/
def execThrottleStep (s : State) : Res :=
  .next (if !s.flag PSTAT_THROT then s
  else
    let s := { s with pow := { s.pow with lastThrot := some s.clk } }
    if s.pow.hot then { s.setFld PSTAT_VCORE (s.fld PSTAT_VCORE - 5) with pow := { s.pow with cut := s.pow.cut + 5 } }
    else if s.tj ≤ (s.fld PCFG_THROTT * 16 : Nat) - 48 then
      let s := if s.pow.cut = 0 then s else s.setFld PSTAT_VCORE (s.fld PSTAT_VCORE + 5)
      let s := { s with pow := { s.pow with cut := s.pow.cut - 5 } }
      if s.pow.cut = 0 then s.setFld PSTAT_THROT 0 else s
    else s)

/-- THERMAL_TRIP (R528): a sensor reaches 115 °C; THERMTRIP_N is asserted and a device reset with source 5 starts and is held. In
arbitration hold the regulators turn off and the hold is kept. -/
def execThermalTrip (sensor : Nat) (s : State) : Res :=
  .next (if s.pow.trip then s
  else
    let hold := s.boot == .hold
    let s := { s with pow := { s.pow with trip := true } }.deviceReset 5
    if hold then s else s.primReport 0xC1 3 0 (sensor % 256))

/-- THERMTRIP_RELEASE (R528): every sensor reads 100 °C or less. -/
def execThermtripRelease (s : State) : Res :=
  .next (if s.pow.trip then { s with pow := { s.pow with trip := false } }.resetOut 5 else s)

/-! ## The halt inputs (R529 to R531) -/

/-- A halt takes effect (R530). Tiles of a partition being switched halt when the switch has completed (R539). -/
def State.haltTake (s : State) (byFault : Bool) : State :=
  if s.halted then s
  else
    let s := (s.setFld PHALT_HALTED 1).primReport 0xC4 1 0 (if byFault then 1 else 0)
    s.each (List.range 2048) fun s t => match s.partOfTile t with
      | some p => if s.switching p then s else s.haltTile t
      | none => s

/-- A pin's filtered state after a sample: it changes only when two consecutive samples agree. -/
def haltFilter (old prev new : Bool) : Bool := if prev == new then new else old

/-- A disagreement latches PHALT.FAULT, and that is a halt (R529). -/
def State.haltFault (s : State) : State :=
  let s := { s.setFld PHALT_FAULT 1 with halt := { s.halt with since := none } }
  (s.primReport 0xC6 2 0 (s.fld PHALT_INA + 2 * s.fld PHALT_INB)).haltTake true

/-- A disagreement is longer than TD + 20 us: it is always latched, whatever a later sample brings (R529). -/
def State.haltOverdue (s : State) : Bool :=
  match s.halt.since with
  | some t => s.boot == .up && decide (s.fld PCFG_TD * 1000 + 20000 < s.now - t)
  | none => false

/-- HALT_SAMPLE (R529): samples of HALT_A_N and HALT_B_N; true is low. -/
def execHaltSample (a b : Bool) (s : State) : Res :=
  .next (if s.pinsOff then s else
    let s := if s.haltOverdue then s.haltFault else s
    let oa := s.flag PHALT_INA
    let ob := s.flag PHALT_INB
    let fa := haltFilter oa s.halt.a a
    let fb := haltFilter ob s.halt.b b
    let s := { s with halt := { s.halt with a := a, b := b } }
    let s := (s.setFld PHALT_INA (if fa then 1 else 0)).setFld PHALT_INB (if fb then 1 else 0)
    if s.boot ≠ .up then s
    else if fa && fb then { s with halt := { s.halt with since := none } }.haltTake false
    else if fa != fb then
      if oa == ob then { s with halt := { s.halt with since := some s.now } } else s
    else match s.halt.since with
      | some t => { (s.bump PHALT_DISCNT 1).primReport 0xC5 0 0 (min 4294967295 ((s.now - t) / 1000)) with halt := { s.halt with since := none } }
      | none => s)

/-- DISCREPANCY_TIMEOUT (R529): the disagreement has lasted longer than TD; one shorter than TD − 20 us is never latched. -/
def execDiscrepancyTimeout (s : State) : Res :=
  .next (match s.halt.since with
    | some t =>
      if s.fld PCFG_TD * 1000 ≤ s.now - t + 20000 ∧ s.boot = .up then s.haltFault else s
    | none => s)

/-- Both filtered pins are high. -/
def State.pinsHigh (s : State) : Bool := !s.flag PHALT_INA && !s.flag PHALT_INB

/-- A write of PHALT.RESUME = 1 (R531): tiles that were RUNNING run on from their PC, waiting starts and packets go. -/
def State.resume (s : State) : State :=
  if s.halted && s.pinsHigh && !s.flag PHALT_FAULT then
    let ts := s.halt.tiles
    let ps := s.halt.pkts
    let s := { s.setFld PHALT_HALTED 0 with halt := { s.halt with tiles := [], pkts := [] } }
    let s := s.each ts fun s t => s.setFld (TSQSTAT_STATE t) stRunning
    (s.each ps fun s p => s.collOut p.1 p.2).runsGo
  else s

/-- RESUME. -/
def execResume (c : Nat) (s : State) : Res := .next (if s.pfOrFw c then s.resume else s.refuse aPHALT c)

/-- A write of 1 to PHALT.FAULT (R531). -/
def State.faultClear (s : State) : State := if s.pinsHigh then s.setFld PHALT_FAULT 0 else s

/-- FAULT_CLEAR. -/
def execFaultClear (c : Nat) (s : State) : Res := .next (if s.pfOrFw c then s.faultClear else s.refuse aPHALT c)

end Sys2Proof.Machine
end

