-- ==== Sys2Proof/Machine/Tap.lean ====
section
/-! DEFINITION. The debug port: TAP instructions and the stack wrappers behind it (R231, R232, R536). -/

namespace Sys2Proof.Machine

/-- Bits of a data register as they leave TDO, least significant first. -/
def tdoBits (n v : Nat) : List Nat := (List.range n).map fun i => bitsOf v i 1

/-- Shift a data register out of TDO. -/
def State.tdo (s : State) (n v : Nat) : State := s.emit (.tdo (tdoBits n v))

/-- Select a TAP instruction. With one that takes the pins from the device's logic, every link goes DOWN (R536). -/
def State.tapIr (s : State) (ir : Nat) : State :=
  let s := { s with tap := { s.tap with ir := ir } }
  if s.pinsOff then
    let s := s.each (List.range 8) fun s p =>
      if s.fld (FPSTAT_STATE p) = 0 ∨ s.fld (FPSTAT_STATE p) = 6 then s else s.portDown p 0
    ((s.farLink 0 false).farLink 1 false).pcieDown
  else s

/-- TEST_LOGIC_RESET: IDCODE is selected. -/
def execTestLogicReset (s : State) : Res := .next { s with tap := Tap.reset }

/-- The identification code (R536). -/
def idcode : Nat := 0x12048567

/-- IDCODE. -/
def execIdcode (s : State) : Res := .next ((s.tapIr 1).tdo 32 idcode)

/-- SAMPLE: v is what the boundary cells capture. -/
def execSample (v : BitVec 918) (s : State) : Res := .next ((s.tapIr 2).tdo 918 v.toNat)

/-- PRELOAD: w is shifted into the boundary register. -/
def execPreload (w : BitVec 918) (s : State) : Res :=
  .next (let s := s.tapIr 3; { s with tap := { s.tap with bsr := w.toNat } })

/-- A boundary test: v is what the cells capture, w what is shifted in and drives the pins. -/
def State.boundary (s : State) (ir : Nat) (v w : BitVec 918) : State :=
  let s := (s.tapIr ir).tdo 918 v.toNat
  { s with tap := { s.tap with bsr := w.toNat } }

/-- EXTEST. -/
def execExtest (v w : BitVec 918) (s : State) : Res := .next (s.boundary 4 v w)
/-- EXTEST_PULSE (IEEE 1149.6). -/
def execExtestPulse (v w : BitVec 918) (s : State) : Res := .next (s.boundary 5 v w)
/-- EXTEST_TRAIN (IEEE 1149.6). -/
def execExtestTrain (v w : BitVec 918) (s : State) : Res := .next (s.boundary 6 v w)
/-- CLAMP: the pins hold what the boundary register holds; the data path is the bypass bit, which captures 0. -/
def execClamp (s : State) : Res := .next ((s.tapIr 7).tdo 1 0)
/-- HIGHZ: the outputs are in high impedance; the data path is the bypass bit. -/
def execHighz (s : State) : Res := .next ((s.tapIr 8).tdo 1 0)
/-- BYPASS. -/
def execBypass (s : State) : Res := .next ((s.tapIr 0xFF).tdo 1 0)

/-- STKWRAP (R231): the data path runs through the stack-select register, then the chosen stack's wrapper. -/
def execStkwrap (sel : BitVec 3) (s : State) : Res :=
  .next (let s := s.tapIr 0x10; { s with tap := { s.tap with sel := sel.toNat } })

/-! ## Stack wrappers -/

/-- The instruction a WIR code selects (Table 7.2): a code not listed acts as WS_BYPASS. -/
def wirCode (code : Nat) : Nat := if [0x01, 0x10, 0x11, 0x12, 0x13, 0x20, 0x21].contains code then code else 0

/-- A wrapper instruction reaches the chosen stack's WIR. Outside test state it acts as WS_BYPASS (R231): the bypass bit captures 0. -/
def State.wrap (s : State) (wir : Nat) (f : State → Nat → State) : State :=
  if s.tap.ir ≠ 0x10 then s
  else
    let st := s.tap.sel
    let s := s.modStack st fun x => { x with wir := wirCode wir }
    if s.flag (SSTAT_TEST st) then f s st else s.tdo 1 0

/-- WS_BYPASS: WIR code 0x00, and every code that Table 7.2 does not list (wirCode). -/
def execWsBypass (s : State) : Res := .next (s.wrap 0 fun s _ => s.tdo 1 0)

/-- WS_EXTEST: the cells of the stack interface's boundary capture the PHY pins' levels, which are shifted out while what drives the
pins is shifted in. -/
def execWsExtest (v : WScan) (s : State) : Res :=
  .next (s.wrap 1 fun s st => (s.emit (.tdo v.pins)).modStack st fun x => { x with wbr := v.drive })

/-- Spare rows, or column groups, of a channel that no repair uses yet (R232). -/
def Stack.spares (x : Stack) (ch : Nat) (row : Bool) : Nat :=
  (if row then 64 else 8) - ((x.staged ++ x.repaired).filter fun (r : Nat × Nat × Bool) => r.1 == ch && r.2.2 == row).length

/-- RP_READ: how many spare rows and column groups of a channel remain. -/
def execRpRead (ch : BitVec 5) (set : BitVec 7) (s : State) : Res :=
  .next (s.wrap 0x10 fun s st =>
    let x := s.stackU st
    s.tdo 64 (Config.repairWord (ch.toNat * 128 + set.toNat) (x.spares ch.toNat true) (x.spares ch.toNat false)).toNat)

/-- RP_STAGE: a spare row, or column group, takes the place of a failing address. -/
def execRpStage (ch : BitVec 5) (addr : Nat) (row : Bool) (s : State) : Res :=
  .next (s.wrap 0x11 fun s st =>
    if (s.stackU st).spares ch.toNat row = 0 then s
    else s.modStack st fun x => { x with staged := x.staged ++ [(ch.toNat, addr, row)] })

/-- RP_FUSE: the staged repairs of one channel begin to be burnt; the data register shows the last burn's fail bit. -/
def execRpFuse (ch : BitVec 5) (s : State) : Res :=
  .next (s.wrap 0x12 fun s st =>
    let s := s.tdo 64 (Config.burnWord (s.stackU st).fuseFail).toNat
    if (s.stackU st).fusing.isSome then s
    else s.modStack st fun x => { x with fusing := some ch.toNat, fuseFail := false })

/-- RP_FUSE_DONE: a burn of stack st ends. A failed one leaves the earlier fused repairs in force and sets the fail bit. -/
def execRpFuseDone (st : Nat) (ok : Bool) (s : State) : Res :=
  .next (match (s.stackU st).fusing with
    | none => s
    | some ch =>
      if ok then s.modStack st fun x => { x with
        fusing := none
        repaired := x.repaired ++ x.staged.filter fun (r : Nat × Nat × Bool) => r.1 == ch
        staged := x.staged.filter fun (r : Nat × Nat × Bool) => r.1 != ch }
      else s.modStack st fun x => { x with fusing := none, fuseFail := true })

/-- RP_MAPOUT: a channel joins the fused map-out record, which later initialisations apply (R229). -/
def execRpMapout (ch : BitVec 5) (s : State) : Res :=
  .next (s.wrap 0x13 fun s st => s.modStack st fun x => { x with mapFuse := x.mapFuse ||| 2 ^ ch.toNat })

/-- MB_RUN: the array test starts on the channels whose bits are set. -/
def execMbRun (mask : BitVec 32) (s : State) : Res :=
  .next (s.wrap 0x20 fun s st => s.modStack st fun x => { x with mbrun := some mask.toNat })

/-- MB_RUN_DONE: the array test of stack st ends: channels that failed, and the first failing address. -/
def execMbRunDone (st : Nat) (fails : BitVec 32) (addr : Nat) (s : State) : Res :=
  .next (match (s.stackU st).mbrun with
    | none => s
    | some m => s.modStack st fun x => { x with mbrun := none, mbres := m &&& fails.toNat, mbaddr := addr })

/-- MB_RESULT. -/
def execMbResult (s : State) : Res :=
  .next (s.wrap 0x21 fun s st => s.tdo 128 (Config.arrayWord (s.stackU st).mbres (s.stackU st).mbaddr).toNat)

end Sys2Proof.Machine
end

