-- ==== Sys2Proof/Machine/Time.lean ====
section
/-! DEFINITION. Site time and its exchanges (R32 to R37, R275). -/

namespace Sys2Proof.Machine

/-- Site time in 1/16 ns, frac its fraction. -/
def State.fine (s : State) (frac : Nat) : Nat := s.now * 16 + frac % 16

/-- A port's timestamp of a flit that passes at time x in 1/16 ns: less the port's fused fixed delay of its direction, plus the asymmetry
the image gives (R275). -/
def State.stamp (s : State) (p : Nat) (sent : Bool) (x : Nat) : Int :=
  (x : Int) - Config.portDelay p sent + ((s.img.mports.find? fun e => e.1 == p).map fun e => e.2.asym).getD 0

/-- A timestamp's nine bytes: nanoseconds and fraction. -/
def stampBytes (t : Int) : List Nat := leBytes 8 (ofIntW 68 t / 16) ++ [ofIntW 68 t % 16]

/-- The body of a TSYNC_REQ (Table 8.8). -/
def tsyncReqBody (seq : Nat) (t1 : Int) : List Nat := [0x10, 0] ++ leBytes 2 seq ++ stampBytes t1

/-- The body of a TSYNC_RSP (Table 8.8). -/
def tsyncRspBody (locked : Bool) (seq : Nat) (t2 t3 : Int) (errb : Nat) : List Nat :=
  [0x11, if locked then 1 else 0] ++ leBytes 2 seq ++ stampBytes t2 ++ stampBytes t3 ++ leBytes 2 errb

/-- The device takes time from a partner: the image is applied and does not make it the reference, nor has one made it the reference
since TBTIME last restarted (R37: REF and LOCK stay until then, and its TBTIME is never stepped). -/
def State.follows (s : State) : Bool := s.boot == .up && !s.img.timeRef && !s.flag TBSTAT_REF

/-- TIMING_EXCHANGE (R275): a follower sends TSYNC_REQ on TBSTAT.SRCPORT, the port toward the reference; frac is the fraction of its departure. On a port that is
not UP nothing is sent, and the exchange will be missed. -/
def execTimingExchange (frac : Nat) (s : State) : Res :=
  .next (if s.follows then
    let p := s.fld TBSTAT_SRCPORT
    let t1 := s.stamp p true (s.fine frac)
    let seq := s.tsync.seq
    let s := s.modPort p fun x => { x with treq := some (seq, ofIntW 68 t1) }
    let s := { s with tsync := { s.tsync with seq := (seq + 1) % 65536 } }
    if s.fld (FPSTAT_STATE p) = 4 then s.txLink p (tsyncReqBody seq t1) else s
  else s)

/-- TSYNC_REQ (R275, R37): a request arrives on port p, frac its fraction, and is answered turn/16 ns later. Before its image is
applied a device answers none. -/
def execTsyncReq (p seq frac turn : Nat) (s : State) : Res :=
  .next (if s.boot = .up ∧ p < 8 ∧ s.fld (FPSTAT_STATE p) = 4 then
    let t2 := s.stamp p false (s.fine frac)
    let t3 := s.stamp p true (s.fine frac + turn)
    let errb := if s.flag TBSTAT_REF || decide (s.fld (FPSTAT_VER p) < 2) then 0 else min 65535 s.tsync.bound
    s.txLink p (tsyncRspBody (s.flag TBSTAT_LOCK || s.flag TBSTAT_REF) (seq % 65536) t2 t3 errb)
  else s)

/-- Offset of the follower's clock (R275). -/
def tsyncOffset (t1 t2 t3 t4 : Int) : Int := ((t1 - t2) + (t4 - t3)) / 2

/-- Lock is lost (R37). -/
def State.lockLost (s : State) : State :=
  if s.flag TBSTAT_LOCK then ((s.setFld TBSTAT_LOCK 0).bump TBSTAT_LOSSCNT 1).showLock else s

/-- Lock is taken; the first one steps TBTIME to the reference's time (R35, R36), which may make a leak tick fall (R210). -/
def State.lockTaken (s : State) (t4 off : Int) : State :=
  let s := (s.setFld TBSTAT_LOCK 1).showLock
  if s.flag TBSTAT_STEPPED then s
  else
    let now := ofIntW 68 (t4 - off) / 16
    ((s.leakFall s.now now).setFld TBSTAT_STEPPED 1).setFld TBTIME_TIME now

/-- TSYNC_RSP (R35 to R37, R275): t2 and t3 in 1/16 ns, errb the responder's bound, frac the fraction of the arrival. -/
def execTsyncRsp (seq : Nat) (locked : Bool) (t2 t3 errb frac : Nat) (s : State) : Res :=
  let p := s.fld TBSTAT_SRCPORT
  match (s.port p).treq with
  | none => .next s
  | some (q, t1) =>
    if !s.follows ∨ q ≠ seq ∨ s.fld (FPSTAT_STATE p) ≠ 4 then .next s
    else
      let t4 := s.stamp p false (s.fine frac)
      let off := tsyncOffset t1 t2 t3 t4
      let bound := (if s.fld (FPSTAT_VER p) < 2 then 32 else errb) + 4
      let tol := locked && decide (off.natAbs + bound ≤ 64)
      let s := (s.modPort p fun x => { x with treq := none }).setFld TBOFS_OFFSET (ofIntW 32 off)
      let good := if tol then s.tsync.good + 1 else 0
      let s := { s with tsync := { s.tsync with good := good, missed := 0, bound := bound } }
      let s := if 320 < off.natAbs then s.lockLost else s
      .next (if tol && !s.flag TBSTAT_LOCK && decide (s.img.lockN ≤ good) then s.lockTaken t4 off else s)

/-- TIMING_RESPONSE_TIMEOUT (R37, R275): 100 us have passed without a response: the exchange is missed. -/
def execTimingResponseTimeout (s : State) : Res :=
  let p := s.fld TBSTAT_SRCPORT
  .next (if (s.port p).treq.isSome ∧ s.follows then
    let s := s.modPort p fun x => { x with treq := none }
    let s := { s with tsync := { s.tsync with good := 0, missed := s.tsync.missed + 1 } }
    if s.img.missN ≤ s.tsync.missed then s.lockLost else s
  else s)

end Sys2Proof.Machine
end

