-- ==== Sys2Proof/Machine/RegWrite.lean ====
section
/-! DEFINITION. What reading and writing each register does, by whom it may be read and written, and the byte rules of R542 (R12,
R14, R361, R393, R394, R419, R431, R456, R478, R479, R512, R513). A requester is a context, for a tile the context it runs, or none for
another device. -/

namespace Sys2Proof.Machine

/-! ## Permissions -/

/-- PF 0 or a firmware context. -/
def State.top (s : State) (c : Option Nat) : Bool := match c with
  | some c => s.pfOrFw c
  | none => false

/-- One that may use stream q's registers (R361). -/
def State.mayStream (s : State) (c : Option Nat) (q : Nat) : Bool := match c with
  | some c => s.fdsMay q c
  | none => false

/-- A training context, PF 0 or firmware (R393, R419). -/
def State.mayTrain (s : State) (c : Option Nat) : Bool := match c with
  | some c => s.trainMay c
  | none => false

/-- The 64 KiB block of a device address from 0x0200_0000_0000 up. -/
def blockOf (a : Nat) : Nat := (a - 0x020000000000) / 0x10000

/-- The function whose page a register lies in. -/
def pageFn (a : Nat) : Nat := (a - aHQVER 0) / 0x100

/-- A requester may read the register at a. -/
def State.regReads (s : State) (c : Option Nat) (a : Nat) : Bool :=
  if a < 0x020000000000 then true
  else
    let k := blockOf a
    if k = 8 then s.mayStream c ((a - aFDSCTL 0) / 0x40)
    else if k = 0x30 ∨ k = 0x31 then c == some (pageFn a) || s.top c
    else if k = 0x40 then a == aCSTAT || a == aCRSTCAUSE || s.top c
    else if k = 0x41 then a == aKSTAT || decide (aKSLOT 0 ≤ a) || s.top c
    else true

/-- What a write by a requester comes to: it acts; it is ignored, the register being read-only to the requester (R12); or it is
refused with the address fault (R161). -/
inductive Right where
  | acts | readOnly | refused
  deriving DecidableEq, Repr

/-- A write that acts or is refused. -/
def Right.only (b : Bool) : Right := if b then .acts else .refused
/-- A write that acts or is ignored. -/
def Right.orRead (b : Bool) : Right := if b then .acts else .readOnly

/-- What a write of the register at a comes to. -/
def State.regWrites (s : State) (c : Option Nat) (a : Nat) : Right :=
  if a < 0x020000000000 then .acts
  else
    let k := blockOf a
    if k = 0 then (if a = aGCTL ∨ a = aGSEED then .only (s.top c) else .acts)
    else if k = 4 ∨ k = 6 ∨ k = 7 then .orRead (s.top c)
    else if k = 5 then .only (a != aFCOLSUB || c.isSome)
    else if k = 8 then .only (s.mayStream c ((a - aFDSCTL 0) / 0x40))
    else if k = 9 then .orRead (s.top c)
    else if k = 0xA then .orRead (s.mayStream c ((a - aFPLAN 0) / 0x400) && decide ((a - aFPLAN 0) % 0x400 < 0x100))
    else if k = 0xC then
      .only (if a = aGPHMARK then c.isSome else if a = aGSTEPNSQ ∨ a = aGSTEPIN ∨ a = aGNFLOG then s.mayTrain c else s.top c)
    else if k = 0xD then
      (if a = aXRCTL ∨ a = aXSUB then .only (s.mayTrain c)
       else if a = aXNTGT ∨ a = aXKEY then .only (s.top c)
       else if aXPART 0 ≤ a then .orRead (s.top c)
       else .acts)
    else if k = 0xE then (if a = aGLEDCTL then .only (s.top c) else .acts)
    else if k = 0xF then .only (s.top c)
    else if 0x10 ≤ k ∧ k < 0x18 then (if aSSTAGE (k - 0x10) 0 ≤ a then .orRead (s.top c) else .acts)
    else if 0x20 ≤ k ∧ k < 0x28 then
      let o := a % 0x10000
      if 0x100 ≤ o ∧ o < 0x300 then
        .only (match c with
          | some c => s.engineMay c (k - 0x20) ((o - 0x100) / 0x40)
          | none => false)
      else .acts
    else if k = 0x30 ∨ k = 0x31 then .only (c == some (pageFn a) || s.top c)
    else if 0x40 ≤ k ∧ k ≤ 0x42 then .only (s.top c)
    else .acts

/-! ## Reads -/

/-- ARFP shows the context that reads it (R429, Table 14.10): determinism in force, its FTZ default and its spill interval. -/
def State.arfpFor (s : State) (c : Option Nat) (v : Nat) : Nat :=
  let v := putBits v 16 1 (if s.detm then 1 else 0)
  match c.bind s.ctxCfg with
  | some k => putBits (putBits v 17 1 (if k.ftz then 1 else 0)) 18 5 (k.spill / 256 - 1)
  | none => v

/-- A register read of n bytes at device address x by a requester: the value, and the state after, RC fields covered whole being
cleared; none where it meets the address fault (R542, R25). A mailbox word is read whole. -/
def State.regGet (s : State) (c : Option Nat) (x n : Nat) : Option (Nat × State) :=
  let a := x - x % 8
  if !accessOk x n || (regSpecAt a).isNone || !s.regReads c a || ((mboxAt a).isSome && n != 8) || s.goneTile a then none
  else
    let r := s.regRead x n
    some (if a = aARFP then (bitsOf (s.arfpFor c (s.readReg a).toNat) (8 * (x % 8)) (8 * n), s) else r)

/-! ## Writes -/

/-- A write with its byte lanes: the register's layout, the bits of the bytes written, and the value in place. -/
structure RegW where
  a : Nat
  r : RSpec
  m : Nat
  v : Nat

/-- The register after the write of its RW and W1C bits. -/
def RegW.plain (w : RegW) (s : State) : BitVec 64 := w.r.written (s.reg w.a) w.m w.v
/-- Write those bits. -/
def RegW.put (w : RegW) (s : State) : State := s.setReg w.a (w.plain s)
/-- A field's value after the write. -/
def RegW.fld (w : RegW) (s : State) (f : Fld) : Nat := bitsOf (w.plain s).toNat f.lo f.w
/-- Some byte of a field is written. -/
def RegW.hits (w : RegW) (f : Fld) : Bool := w.m &&& ((2 ^ f.w - 1) * 2 ^ f.lo) != 0
/-- What a write-only field takes: 0 in the bytes not written. -/
def RegW.wo (w : RegW) (f : Fld) : Nat := bitsOf (w.r.woValue w.m w.v) f.lo f.w
/-- A write-only bit acts. -/
def RegW.on (w : RegW) (f : Fld) : Bool := w.wo f != 0

/-- Do f when a condition holds. -/
def State.when (s : State) (b : Bool) (f : State → State) : State := if b then f s else s

/-- Tile registers: start and stop (R146, R193), the checker test, the stream cache; the others plainly. -/
def State.tileRegPut (s : State) (w : RegW) : State :=
  let t := (w.a - tileBase 0) / 0x400000
  if w.a = aTSQCTL t then
    let s := w.put s
    if w.on (TSQCTL_STOP t) then s.tileStop t
    else s.when (w.on (TSQCTL_RUN t)) fun s => s.tileRun t (s.fld (TSQCTL_START t))
  else if w.a = aTFLIP t then (w.put s).when (w.on (TFLIP_ARM t)) fun s => s.setFld (TFLIP_PEND t) 1
  else if w.a = aTSCCTL t then s.when (w.on (TSCCTL_INV t)) fun s => s.modTile t fun x => { x with lines := [] }
  else w.put s

/-- The global block: Peak and Paced (R519, R523), the restored round (R446). -/
def State.globalPut (s : State) (c : Option Nat) (w : RegW) : State :=
  if w.a = aGCTL then
    let s := s.when (w.hits GCTL_PEAKEN) fun s => s.peakWrite (w.fld s GCTL_PEAKEN != 0)
    s.when (w.hits GCTL_PACED) fun s => s.pacedWrite (w.fld s GCTL_PACED != 0)
  else if w.a = aGRSTRND then s.when (w.hits GRSTRND_ROUND) fun s => s.rstRnd (c.getD 512) (w.wo GRSTRND_ROUND)
  else w.put s

/-- The error block: the read pointers (R216). -/
def State.errPut (s : State) (w : RegW) : State :=
  if w.a = aERRPTR 0 then s.when (w.hits (ERRPTR_RP 0)) fun s => s.errRp 0 (w.fld s (ERRPTR_RP 0))
  else if w.a = aERRPTR 1 then s.when (w.hits (ERRPTR_RP 1)) fun s => s.errRp 1 (w.fld s (ERRPTR_RP 1))
  else w.put s

/-- The fabric block: FPCTL (R253, R278). -/
def State.fabPut (s : State) (w : RegW) : State :=
  match (List.range 8).find? fun p => w.a == aFPCTL p with
  | some p => s.fpctl p (w.on (FPCTL_RETRAIN p)) (if w.hits (FPCTL_DISABLE p) then some (w.fld s (FPCTL_DISABLE p) != 0) else none)
  | none => w.put s

/-- The route window: each byte written is an entry (R271). -/
def State.routePut (s : State) (w : RegW) : State :=
  s.each (List.range 8) fun s j =>
    s.when (bitOf w.m (8 * j)) fun s => s.routeWrite (w.a - aFROUTE 0 + j) (bitsOf w.v (8 * j) 8)

/-- FCOLSUB takes a tile's store as a submission; by the host it is the wrong path in an implicit context (R304). FRSVCTL (R310). -/
def State.collPut (s : State) (c : Option Nat) (host : Bool) (w : RegW) : State :=
  if w.a = aFCOLSUB then
    match c with
    | some c =>
      let imp := match s.ctxCfg c with
        | some k => k.implicit
        | none => false
      s.collRow c (w.wo FCOLSUB_DESC) (host && imp)
    | none => s
  else if w.a = aFRSVCTL then s.adopt (w.r.woValue w.m w.v) (s.top c)
  else w.put s

/-- A stream's registers (R351 to R353, R358, R359); with more than one bit set the acts follow one another in bit order. -/
def State.dispPut (s : State) (w : RegW) : State :=
  let q := (w.a - aFDSCTL 0) / 0x40
  if w.a = aFDSCTL q then
    let s := s.when (w.on (FDSCTL_POST q)) fun s => s.fdsPost q (w.wo (FDSCTL_STEP q))
    let s := s.when (w.on (FDSCTL_OPEN q)) fun s => s.fdsOpen q (w.on (FDSCTL_USENEW q))
    let s := s.when (w.on (FDSCTL_REL q)) fun s => s.fdsRel q (w.wo (FDSCTL_RELEXP q)) (w.wo (FDSCTL_RELBUF q))
    s.when (w.on (FDSCTL_ABORT q)) fun s => s.fdsAbort q
  else if w.a = aFDSPDB q then s.when (w.hits (FDSPDB_STEP q)) fun s => s.fdsDoorbell q (w.wo (FDSPDB_STEP q))
  else w.put s

/-- The training block (R367, R371, R391). -/
def State.trainPut (s : State) (w : RegW) : State :=
  if w.a = aGSTEPIN then s.when (w.on GSTEPIN_GO) fun s => s.stepGo (w.wo GSTEPIN_STEP) (w.wo GSTEPIN_VOTE)
  else if w.a = aGNFLOG then s.nfLog (w.r.woValue w.m w.v)
  else if w.a = aGPHMARK then s.when (w.hits GPHMARK_PHASE) fun s => s.phaseMark (w.wo GPHMARK_PHASE) (w.wo GPHMARK_KIND)
  else w.put s

/-- A write of the partner table (R397): a waiting round looks again. -/
def State.partnerPut (s : State) (w : RegW) : State := (w.put s).sealTry

/-- The far block: XRCTL (R406, R409, R411, R414, R416), XSUB (R403), the partner table. With more than one bit of XRCTL set the
acts follow one another in bit order. -/
def State.farPut (s : State) (c : Option Nat) (w : RegW) : State :=
  if w.a = aXRCTL then
    let r := w.wo XRCTL_ROUND
    let s := s.when (w.on XRCTL_CLOSE) fun s => s.farClose r (w.on XRCTL_OWNEX)
    let s := s.when (w.on XRCTL_SEAL) State.farSeal
    let s := s.when (w.on XRCTL_FREE) fun s => s.farFree r
    let s := s.when (w.on XRCTL_JOIN) State.farJoin
    s.when (w.on XRCTL_ENTER) State.farEnter
  else if w.a = aXSUB then s.farSubmit (c.getD 512) (w.wo XSUB_DESC) none
  else if aXPART 0 ≤ w.a then s.partnerPut w
  else w.put s

/-- The ledger block (R431, R436). -/
def State.ledPut (s : State) (w : RegW) : State :=
  if w.a = aGLEDCTL then s.when (w.hits GLEDCTL_MODE) fun s => s.ledMode (w.fld s GLEDCTL_MODE) (w.fld s GLEDCTL_FAR != 0)
  else if w.a = aGLEDRP then s.rpWrite (w.fld s GLEDRP_RP)
  else w.put s

/-- The host block: context and partition resets (R473, R475). -/
def State.hostPutReg (s : State) (w : RegW) : State :=
  if w.a = aHCTXRST then s.when (w.on HCTXRST_GO) fun s => s.ctxResetAsk (w.wo HCTXRST_CTX) false
  else if w.a = aHPRST then s.when (w.on HPRST_GO) fun s => s.partReset (w.wo HPRST_PART)
  else w.put s

/-- A stack block: test state (R231), stage words (R394). -/
def State.stackPut (s : State) (w : RegW) : State :=
  let st := blockOf w.a - 0x10
  if w.a = aSCTL st then
    s.when (w.hits (SCTL_TEST st)) fun s => if w.fld s (SCTL_TEST st) != 0 then s.testRequest st else s.testExit st
  else if aSSTAGE st 0 ≤ w.a then s.stageWrite st ((w.a - aSSTAGE st 0) / 8) w.m w.v
  else w.put s

/-- A bindery block: producer index, completion tail, abort (R236, R240, R242), semaphores (R247). -/
def State.bindPut (s : State) (c : Option Nat) (w : RegW) : State :=
  let st := blockOf w.a - 0x20
  let o := w.a % 0x10000
  if 0x400 ≤ o then s.semAdd st ((o - 0x400) / 8) (bitsOf (w.v &&& w.m) 0 16)
  else
    let e := (o - 0x100) / 0x40
    if w.a = aBQPTR st e then s.when (w.hits (BQPTR_PI st e)) fun s => s.piWrite (c.getD 0) st e (w.fld s (BQPTR_PI st e))
    else if w.a = aBCQPTR st e then s.when (w.hits (BCQPTR_TAIL st e)) fun s => s.cqTail st e (w.fld s (BCQPTR_TAIL st e))
    else if w.a = aBECTL st e then s.when (w.on (BECTL_ABORT st e)) fun s => s.engAbort st e
    else w.put s

/-- A function page (R460, R463, R465, R466, R473); PF 0's HAPERk ignore writes (R478). -/
def State.pagePut (s : State) (w : RegW) : State :=
  let f := pageFn w.a
  if w.a = aHQCFG f then s.hqCfg f (w.plain s)
  else if w.a = aHQSQTAIL f then s.when (w.hits (HQSQTAIL_TAIL f)) fun s => s.hqTail f (w.fld s (HQSQTAIL_TAIL f))
  else if w.a = aHQEVHEAD f then s.when (w.hits (HQEVHEAD_HEAD f)) fun s => s.hqEvHead f (w.fld s (HQEVHEAD_HEAD f))
  else if f = 0 ∧ aHAPER 0 0 ≤ w.a then s
  else if w.a = aHCTXCTL f then s.when (w.on (HCTXCTL_RESET f)) fun s => s.ctxResetAsk f false
  else w.put s

/-- The configuration and keyed-check blocks (R495, R504, R508); CLR acts before GO. -/
def State.cfgPut (s : State) (w : RegW) : State :=
  if w.a = aCWDOG then s.when (w.on CWDOG_KICK) State.dogKick
  else if w.a = aCFLCMD then (w.put s).when (w.on CFLCMD_GO) fun s => s.flashGo (s.fld CFLCMD_OP) (s.fld CFLCMD_ADDR)
  else if w.a = aKLDCTL then
    let s := w.put s
    let s := s.when (w.on KLDCTL_CLR) fun s => s.keyClr (s.fld KLDCTL_SLOT)
    s.when (w.on KLDCTL_GO) fun s => s.keyGo (s.fld KLDCTL_SLOT)
  else w.put s

/-- The power block (R519, R525, R531). -/
def State.powerPut (s : State) (w : RegW) : State :=
  if w.a = aPCTL then
    let s := s.when (w.hits PCTL_EFF) fun s => s.effWrite (w.fld s PCTL_EFF != 0)
    s.when (w.hits PCTL_PARK) fun s => if w.fld s PCTL_PARK != 0 then s.park else s.unpark
  else if w.a = aPHALT then
    let s := s.when (w.hits PHALT_FAULT && bitOf w.v 3) State.faultClear
    s.when (w.on PHALT_RESUME) State.resume
  else w.put s

/-- A write that acts, by block. -/
def State.regAct (s : State) (c : Option Nat) (host : Bool) (w : RegW) : State :=
  if w.a < 0x020000000000 then s.tileRegPut w
  else
    let k := blockOf w.a
    if k = 0 then s.globalPut c w
    else if k = 2 then s.errPut w
    else if k = 3 then s.fabPut w
    else if k = 4 then s.routePut w
    else if k = 5 then s.collPut c host w
    else if k = 8 then s.dispPut w
    else if k = 0xC then s.trainPut w
    else if k = 0xD then s.farPut c w
    else if k = 0xE then s.ledPut w
    else if k = 0xF then s.hostPutReg w
    else if 0x10 ≤ k ∧ k < 0x18 then s.stackPut w
    else if 0x20 ≤ k ∧ k < 0x28 then s.bindPut c w
    else if k = 0x30 ∨ k = 0x31 then s.pagePut w
    else if k = 0x40 ∨ k = 0x41 then s.cfgPut w
    else if k = 0x42 then s.powerPut w
    else w.put s

/-- A register write of the bytes bs at device address x by a requester (R542): the state after, or none where it meets the
address fault. -/
def State.regSet (s : State) (c : Option Nat) (host : Bool) (x : Nat) (bs : List Nat) : Option State :=
  let n := bs.length
  let a := x - x % 8
  if !accessOk x n || ((mboxAt a).isSome && n != 8) || s.refusesWrite x || s.goneTile x then none
  else match regSpecAt a with
    | none => none
    | some r =>
      match s.regWrites c a with
      | .refused => none
      | .readOnly => some s
      | .acts => some (s.regAct c host ⟨a, r, laneMask (x % 8) n, ofLE bs * 2 ^ (8 * (x % 8))⟩)

/-- A register access by context c through the device map: a faulting one is logged with requester class 5 (R456). -/
def State.hostFault (s : State) (c d : Nat) : State := s.extFault d 5 (srcOf 5 c)

/-- A host access to a BAR of function c: in arbitration hold it completes, reads returning all ones and writes discarded (R46); it
does not arrive while the link is down, the function is not enabled, or no image is applied; else f. -/
def State.barAccess (s : State) (c : Nat) (ones : Option Nat) (f : State → State) : State :=
  if s.boot = .hold then
    (match ones with
      | some n => s.emit (.hostData (List.replicate n 255) false)
      | none => s)
  else if s.boot = .up ∧ s.flag HLINK_UP ∧ c < 512 ∧ (c = 0 ∨ (s.ctx c).vfEnabled) then f s
  else s

/-- A host read of a register: data, or Completer Abort. -/
def State.hostRegRead (s : State) (c x n : Nat) : State :=
  match if s.hostMay c x n then s.regGet (some c) x n else none with
  | some r => r.2.emit (.hostData (leBytes n r.1) false)
  | none => (s.hostFault c x).emit .hostAbort

/-- A host write of a register; a faulting one is discarded. -/
def State.hostRegWrite (s : State) (c x : Nat) (bs : List Nat) : State :=
  ((if s.hostMay c x bs.length then s.regSet (some c) true x bs else none)).getD (s.hostFault c x)

/-- READ_CLEAR (R542, R456): context c reads n bytes of the register at device address x; RC fields read whole are cleared. -/
def execReadClear (c x n : Nat) (s : State) : Res := .next (s.barAccess c (some n) fun s => s.hostRegRead c x n)

/-- REGISTER_WRITE (R542, R456): context c writes bytes to the register at device address x. -/
def execRegisterWrite (c x : Nat) (bs : List Nat) (s : State) : Res := .next (s.barAccess c none fun s => s.hostRegWrite c x bs)

end Sys2Proof.Machine
end

