-- ==== Sys2Proof/Machine/Access.lean ====
section
/-! DEFINITION. Accesses to device addresses: scalar loads and stores, READ and WRITE packets from other devices, and the host's
accesses through its BARs (R157 to R161, R180, R185 to R187, R267, R268, R274, R451, R454 to R456, R543). -/

namespace Sys2Proof.Machine

/-! ## Scalar accesses -/

/-- The address of a MEM access: aB + OFF (R159). -/
def memAddr (b : BitVec 54) (x : Tile) : Nat := (x.areg (fb b 41 4) + BitVec.ofInt 64 (fbs b 0 20)).toNat

/-- A device address lies in the device map, whatever device it is on (R161). -/
def inMap (d : Nat) : Bool :=
  decide (d < 0x8000000000)
    || (decide (tileBase 0 ≤ d) && decide (d < tileBase 2048) && decide ((d - tileBase 0) % 0x400000 < 0x208000))
    || (regSpecAt (d - d % 8)).isSome

/-- A scalar access of n bytes at an address of this device finds it mapped and below its stack's top; one that is aligned takes a mailbox
word whole (R542: a misaligned access raises the misaligned trap, another narrow access of a mailbox word the address trap). -/
def State.mapped (s : State) (d n : Nat) : Bool :=
  s.place d != .none && ((mboxAt (d - d % 8)).isNone || n == 8 || d % n != 0)

/-- The tile's own checks of an address (R160, R161): partition or rank table, device map, stack top. -/
def State.addrOk (s : State) (t a n : Nat) : Bool :=
  s.tileMay t a n && (if s.isLocal a then s.mapped (addrDev a) n else inMap (addrDev a))

/-- Read n bytes at an address of this device, for a tile: bytes and state, or none at an address fault. -/
def State.localGet (s : State) (t d n unit : Nat) : Option (List (Nat × Bool) × State) :=
  if s.isMem d n then
    let s := if d < 0x8000000000 then s.countBurst d n else s
    some (s.memRead d n unit)
  else (s.regGet (s.ctxOfTile t) d n).map fun r => (asBytes n r.1 false, r.2)

/-- Issue a scalar load of n bytes (R160, R185, R543). Bytes of the own window are taken as it issues; a remote load needs a read
tag, for which it is held under the wait timeout (R272); an address that fails the checks traps when the load returns. -/
def loadIssue (t n : Nat) (signed : Bool) (b : BitVec 54) (s : State) : Act :=
  let a := memAddr b (s.tile t)
  let l : LoadOp := ⟨fb b 45 5, a, n, signed, s.pc t, none, none⟩
  let put := fun (s : State) (l : LoadOp) => s.modTile t fun x => { x with loads := x.loads ++ [l] }
  if !s.addrOk t a n then .fall (put s l)
  else if a % n ≠ 0 then .trap 4 0
  else if (isMbox (addrDev a) && s.mboxPend t) || s.lineHold t a false then .hold
  else if !s.isLocal a then
    let r := s.farRead (srcOf 0 t) (addrRank a) (addrDev a) n
    match r.1 with
    | none => .held .tag
    | some id => .fall (put r.2 { l with rid := some id })
  else
    match s.ownOff t a with
    | none => .fall (put s l)
    | some o =>
      if s.rangeHold t [⟨o, n⟩] [] then .hold
      else if isMbox (addrDev a) then .fall (put s l)
      else match s.localGet t (addrDev a) n uScalar with
        | some r => .fall (put r.2 { l with got := some r.1 })
        | none => .fall (put s l)

/-- A scalar load row: bits [36:20] are reserved, aC is ignored. -/
def loadRow (op t n : Nat) (signed : Bool) (b : BitVec 54) (s : State) : State :=
  s.issue t 2 op b rsvMem [fb b 45 5] noFuse (loadIssue t n signed b)

/-- LD1 (R159). -/
def execLd1 (t : Nat) (b : BitVec 54) (s : State) : Res := .next (loadRow 0 t 1 false b s)
/-- LD2. -/
def execLd2 (t : Nat) (b : BitVec 54) (s : State) : Res := .next (loadRow 1 t 2 false b s)
/-- LD4. -/
def execLd4 (t : Nat) (b : BitVec 54) (s : State) : Res := .next (loadRow 2 t 4 false b s)
/-- LD8. -/
def execLd8 (t : Nat) (b : BitVec 54) (s : State) : Res := .next (loadRow 3 t 8 false b s)
/-- LDS1. -/
def execLds1 (t : Nat) (b : BitVec 54) (s : State) : Res := .next (loadRow 4 t 1 true b s)
/-- LDS2. -/
def execLds2 (t : Nat) (b : BitVec 54) (s : State) : Res := .next (loadRow 5 t 2 true b s)
/-- LDS4. -/
def execLds4 (t : Nat) (b : BitVec 54) (s : State) : Res := .next (loadRow 6 t 4 true b s)

/-- The value a load of n bytes writes: zero- or sign-extended. -/
def loadValue (n v : Nat) (signed : Bool) : BitVec 64 :=
  if signed then BitVec.ofInt 64 (toIntW (8 * n) v) else BitVec.ofNat 64 v

/-- A load ends with its bytes: the register, or the imprecise poison trap (R160). -/
def State.loadEnd (s : State) (t : Nat) (l : LoadOp) (bs : List (Nat × Bool)) : State :=
  if anyPois bs then s.raise t 5 true l.idx 0
  else s.modTile t fun x => x.setS l.sd (loadValue l.width (valOf bs) l.signed)

/-- A store of bytes to memory of this device: refused by a window being marked (R202). -/
def State.localPut (s : State) (d : Nat) (bs : List (Nat × Bool)) : Option State :=
  if s.refusesWrite d then none else some (s.memWrite d bs)

/-- A store performed on this device; one refused at its home is discarded and logged (R161). -/
def State.storeLocal (s : State) (t d : Nat) (bs : List Nat) : State :=
  let r := if s.isMem d bs.length then s.localPut d (bs.map fun b => (b, false)) else s.regSet (s.ctxOfTile t) false d bs
  r.getD (s.extFault d 0 (srcOf 0 t))

/-- Perform the posted stores that f picks by place, oldest first; one stays behind an earlier one of its line that stays (R186, R187). What
is left goes back, unless a store has reset the tile, which discards it (R193). -/
def State.landEach (s : State) (t : Nat) (f : (Nat × List Nat) → Nat → Bool) : List (Nat × List Nat) → Nat → List (Nat × List Nat) → State
  | [], _, kept => if (s.tile t).marking then s else s.modTile t fun x => { x with posted := kept }
  | p :: ps, i, kept =>
    if f p i && !(s.tile t).marking && !kept.any (fun q => sameLine q.1 p.1) then (s.storeLocal t p.1 p.2).landEach t f ps (i + 1) kept
    else s.landEach t f ps (i + 1) (kept ++ [p])

/-- Perform those of tile t's posted stores that f picks. -/
def State.land (s : State) (t : Nat) (f : (Nat × List Nat) → Nat → Bool) : State :=
  if (s.tile t).posted.isEmpty then s
  else (s.modTile t fun x => { x with posted := [] }).landEach t f (s.tile t).posted 0 []

/-- Perform every posted store of tile t, in order. -/
def State.landAll (s : State) (t : Nat) : State := s.land t fun _ _ => true

/-- Time passes: any posted stores may be performed (R186): a free subset of them. -/
def State.landSome (s : State) : State :=
  let ts := (s.tiles.filter fun e => !e.2.posted.isEmpty).map (·.1)
  if ts.isEmpty then s else s.freshen.each ts fun s' t => s'.land t fun _ i => Config.subset s.fresh (t * 65536 + i)

/-- A load on this device outside the own window, or of a mailbox word, is performed and ends; at a bad address it traps. The tile's own
posted stores to its line are performed first (R186). A fault that the tile's own checks did not find is met at the destination and logged
(R161). -/
def State.loadLocal (s : State) (t : Nat) (l : LoadOp) : State :=
  let d := addrDev l.addr
  let s := s.land t fun p _ => sameLine p.1 d
  let bad := fun (s : State) => s.raise t 3 true l.idx 0
  if !s.addrOk t l.addr l.width ∨ d % l.width ≠ 0 then bad s
  else match mboxAt d with
    | some w => let r := s.mboxOp w.1 w.2 1 0 0; r.2.loadEnd t l (asBytes 8 r.1.toNat false)
    | none => match s.localGet t d l.width uExternal with
      | some r => r.2.loadEnd t l r.1
      | none => bad (s.extFault d 0 (srcOf 0 t))

/-- LOAD_RETURN (R543, R160): load k of the tile, in issue order, returns; a remote one needs its answer. -/
def execLoadReturn (t k : Nat) (s : State) : Res :=
  .next (match (s.tile t).loads[k]? with
  | none => s
  | some l =>
    let fin := fun (s : State) => s.modTile t fun x => { x with loads := x.loads.eraseIdx k }
    match l.got, l.rid with
    | some bs, _ => (fin s).loadEnd t l bs
    | none, some id =>
      match s.readOf id with
      | none => fin s
      | some r =>
        if r.st = 0 then s
        else
          let s := (fin s).dropReads [id]
          if r.st = 1 ∧ r.cst = 0 then s.loadEnd t l r.bytes else s.raise t (if r.st = 2 then 10 else 3) true l.idx 0
    | none, none => if s.isLocal l.addr then (fin s).loadLocal t l else (fin s).raise t 3 true l.idx 0)

/-- Issue a scalar store of the low n bytes of sS (R160, R161, R185, R186): one to the own window or to a mailbox word is performed as it
issues, one to another device is sent, any other is posted. -/
def storeIssue (t n : Nat) (b : BitVec 54) (s : State) : Act :=
  let x := s.tile t
  let a := memAddr b x
  let bs := leBytes n (x.sreg (fb b 45 5)).toNat
  if !s.addrOk t a n then (if s.isLocal a then .trap 3 0 else .fall (s.raise t 3 true (s.pc t) 0))
  else if a % n ≠ 0 then .trap 4 0
  else if addrDev a < 0x8000000000 then .trap 9 0
  else if (isMbox (addrDev a) && s.mboxPend t) || s.lineHold t a true then .hold
  else if !s.isLocal a then
    .fall (s.farWrite (srcOf 0 t) t 0 (addrRank a) (addrDev a) (bs.map fun b => (b, false)) 0 false).2
  else match s.ownOff t a with
    | some o => if s.rangeHold t [] [⟨o, n⟩] then .hold else .fall (s.storeLocal t (addrDev a) bs)
    | none =>
      if isMbox (addrDev a) then .fall (s.storeLocal t (addrDev a) bs)
      else .fall (s.modTile t fun x => { x with posted := x.posted ++ [(addrDev a, bs)] })

/-- A scalar store row. -/
def storeRow (op t n : Nat) (b : BitVec 54) (s : State) : State :=
  s.issue t 2 op b rsvMem [fb b 45 5] noFuse (storeIssue t n b)

/-- ST1 (R159). -/
def execSt1 (t : Nat) (b : BitVec 54) (s : State) : Res := .next (storeRow 8 t 1 b s)
/-- ST2. -/
def execSt2 (t : Nat) (b : BitVec 54) (s : State) : Res := .next (storeRow 9 t 2 b s)
/-- ST4. -/
def execSt4 (t : Nat) (b : BitVec 54) (s : State) : Res := .next (storeRow 0x0A t 4 b s)
/-- ST8. -/
def execSt8 (t : Nat) (b : BitVec 54) (s : State) : Res := .next (storeRow 0x0B t 8 b s)

/-! ## Packets from other devices -/

/-- The CST that answers a refused access (R274): PERM at a register that is there and closed to the requester, else ADDR (DEDUCED, log
entry 95). -/
def State.faultCst (s : State) (c : Option Nat) (x n : Nat) (write : Bool) : Nat :=
  let a := x - x % 8
  if accessOk x n && (regSpecAt a).isSome && !s.goneTile a && (if write then s.regWrites c a == .refused else !s.regReads c a) then 2 else 1

/-- Perform a write that came from outside its tile: bytes, or the status of its acknowledgement (R223, R267, R274). c is none for
another device. -/
def State.outWrite (s : State) (c : Option Nat) (host : Bool) (d : Nat) (bs : List (Nat × Bool)) : Except Nat State :=
  let n := bs.length
  if s.isMem d n then
    if s.refusesWrite d then .error 1
    else if d < 0x8000000000 then
      (if d % 64 ≠ 0 ∨ n % 64 ≠ 0 then .error 4 else .ok ((s.countBurst d n).memWrite d bs))
    else .ok (s.memWrite d bs)
  else match s.regSet c host d (bs.map (·.1)) with
    | some s => .ok s
    | none => .error (s.faultCst c d n true)

/-- WRITE_PACKET (R267, R268, R161): performed at its home, then answered by WRACK; DTK is delivered at the destination tile. A
faulting write is discarded and logged. -/
def execWritePacket (port : Nat) (p : Pkt) (s : State) : Res :=
  .next (s.rxPacket port p 1 fun s =>
    match s.outWrite none false p.addr (pktData p) with
    | .ok s =>
      let s := if p.dtken ∧ tileBase 0 ≤ p.addr ∧ p.addr < tileBase 2048 then s.tokAdd ((p.addr - tileBase 0) / 0x400000) p.dtk 1 else s
      s.ackPkt p 0
    | .error st => (s.extFault p.addr 3 (srcOf 3 port)).ackPkt p st)

/-- READ_PACKET (R274, R268): served with RDCPL, or answered with an error status. -/
def execReadPacket (port : Nat) (p : Pkt) (s : State) : Res :=
  .next (s.rxPacket port p 2 fun s =>
    let r := if s.isMem p.addr p.len then
        some ((if p.addr < 0x8000000000 then s.countBurst p.addr p.len else s).memRead p.addr p.len uExternal)
      else (s.regGet none p.addr p.len).map fun r => (asBytes p.len r.1 false, r.2)
    match r with
    | some r => r.2.sendPkt { mkPkt 0 3 p.srank p.addr p.len p.tag p.tgen with data := r.1.map (·.1), pmask := pmaskOf r.1 }
    | none => (s.extFault p.addr 3 (srcOf 3 port)).answerBad p (s.faultCst none p.addr p.len false))

/-! ## The host's BARs (Table 15.2) -/

/-- The device address of an offset in a BAR of function c, or none outside its contents: BAR 0 the function page, with the host
block at 0x8000 of PF 0; BAR 2 the device map for PF 0, four apertures for a VF. -/
def State.barAddr (s : State) (c bar x : Nat) : Option Nat :=
  if bar = 0 then
    if x < 0x100 then some (aHQVER c + x)
    else if c = 0 ∧ 0x8000 ≤ x ∧ x < 0x10000 then some (0x0200000F0000 + (x - 0x8000))
    else none
  else if bar = 2 then
    if c = 0 then (if x < 2 ^ 42 then some x else none)
    else if x < 2 ^ 34 then some (s.fld (HAPER_BASE c (x / 2 ^ 32)) * 2 ^ 32 + x % 2 ^ 32)
    else none
  else none

/-- Bytes of a write received with EP set: every 64-byte granule it covers, poisoned (R451). -/
def epRange (d n : Nat) : Nat × List (Nat × Bool) :=
  let lo := d / 64 * 64
  let hi := (d + n + 63) / 64 * 64
  (lo, List.replicate (hi - lo) (0, true))

/-- A host read of memory: data, with EP where a byte is poisoned. -/
def State.hostMemRead (s : State) (d n : Nat) : State :=
  let r := (if d < 0x8000000000 then s.countBurst d n else s).memRead d n uExternal
  r.2.emit (.hostData (r.1.map (·.1)) (anyPois r.1))

/-- The BAR number that stands for PF 0's configuration space in HOST_READ. -/
def barConfig : Nat := 6

/-- The Nualsin vendor-specific extended capability of PF 0: read-only copies of GSTAT and GARB (R46). Offset 0 is the first of the
two; where the capability lies in configuration space is not stated. -/
def State.vendorCap (s : State) : List Nat := leBytes 8 (s.readReg aGSTAT).toNat ++ leBytes 8 (s.readReg aGARB).toNat

/-- Half 0 brings PCIe up as far as configuration space: in arbitration hold, and once the image is applied; before that configuration
requests get Request Retry Status (R46, R502). -/
def State.configUp (s : State) : Bool := s.boot == .hold || (s.boot == .up && s.flag HLINK_UP)

/-- HOST_READ (R454, R456): function c reads n bytes at offset x of a BAR, or of PF 0's vendor-specific capability (R46). -/
def execHostRead (c bar x n : Nat) (s : State) : Res :=
  .next (if bar = barConfig then
    (if c = 0 ∧ s.configUp then s.emit (.hostData ((s.vendorCap.drop x).take n) false) else s)
  else s.barAccess c (some n) fun s =>
    match s.barAddr c bar x with
    | none => (s.hostFault c x).emit .hostAbort
    | some d => if s.isMem d n && s.hostMay c d n then s.hostMemRead d n else s.hostRegRead c d n)

/-- HOST_WRITE (R451, R454, R456): function c writes bytes at offset x of a BAR; ep is the TLP's EP bit. A poisoned write to a
register is discarded. -/
def execHostWrite (c bar x : Nat) (bs : List Nat) (ep : Bool) (s : State) : Res :=
  .next (s.barAccess c none fun s =>
    match s.barAddr c bar x with
    | none => s.hostFault c x
    | some d =>
      if s.isMem d bs.length && s.hostMay c d bs.length then
        if d < 0x8000000000 ∧ (d % 64 ≠ 0 ∨ bs.length % 64 ≠ 0) then s.hostFault c d
        else
          let w := if ep then epRange d bs.length else (d, bs.map fun b => (b, false))
          match s.outWrite (some c) true w.1 w.2 with
          | .ok s => s
          | .error _ => s.hostFault c d
      else if ep then s.hostFault c d
      else s.hostRegWrite c d bs)

end Sys2Proof.Machine
end

