-- ==== Sys2Proof/Machine/Sync.lean ====
section
/-! DEFINITION. Synchronisation, the signal plane, mailboxes, fused prefixes and dispatch as tile instructions, and the events
that end their waits (R174, R177 to R182, R188 to R190, R285, R292, R340, R342, R347). -/

namespace Sys2Proof.Machine

/-! ## SYNC (R178) -/

/-- Start a wait at the instruction being issued. -/
def State.waitFor (s : State) (t : Nat) (w : Wait) : State := s.modTile t fun x => { x with wait := some ⟨w, s.pc t⟩ }

/-- FENCE.G (R178, R188). -/
def execFenceG (t : Nat) (b : BitVec 54) (s : State) : Res :=
  .next (s.issue t 7 0x00 b (rsvOut []) [] noFuse fun s => .fall (s.waitFor t .fenceG))

/-- FENCE.I (R151, R178). -/
def execFenceI (t : Nat) (b : BitVec 54) (s : State) : Res :=
  .next (s.issue t 7 0x01 b (rsvOut []) [] noFuse fun s => .fall (s.waitFor t .fenceI))

/-- TOK.WAIT (R178). -/
def execTokWait (t : Nat) (b : BitVec 54) (s : State) : Res :=
  .next (s.issue t 7 0x02 b (rsvOut [(49, 45), (15, 0)]) [] noFuse fun s => .fall (s.waitFor t (.tok (fb b 45 5) (fb b 0 16))))

/-- TOK.ADD (R177, R178). -/
def execTokAdd (t : Nat) (b : BitVec 54) (s : State) : Res :=
  .next (s.issue t 7 0x03 b (rsvOut [(49, 45), (15, 0)]) [] noFuse fun s => .fall (s.tokAdd t (fb b 45 5) (fb b 0 16)))

/-- TOK.RD (R178). -/
def execTokRd (t : Nat) (b : BitVec 54) (s : State) : Res :=
  .next (s.issue t 7 0x04 b (rsvOut [(49, 45), (44, 40)]) [fb b 40 5] noFuse fun s =>
    .fall (s.modTile t fun x => x.setS (fb b 40 5) (BitVec.ofNat 64 (s.fld (TTOK_COUNT t (fb b 45 5))))))

/-- WAIT.TIME (R33, R178). -/
def execWaitTime (t : Nat) (b : BitVec 54) (s : State) : Res :=
  .next (s.issue t 7 0x05 b (rsvOut [(49, 45)]) [fb b 45 5] noFuse fun s => .fall (s.waitFor t (.time ((s.tile t).sreg (fb b 45 5)).toNat)))

/-- WAIT.UNIT (R178). -/
def execWaitUnit (t : Nat) (b : BitVec 54) (s : State) : Res :=
  .next (s.issue t 7 0x06 b (rsvOut [(49, 42)]) [] noFuse fun s => .fall (s.waitFor t (.unit (fb b 42 8))))

/-! ## SIG (R179, R285) -/

/-- Issue a signal-plane operation on group g: an unknown group, or one this tile is not in, is the imprecise signal fault. A tile that only a
record rewritten meanwhile makes a member belongs to the next operation, which begins when the one in flight ends (R312). -/
def sigIssue (t g sd : Nat) (bar : Bool) (opk : Nat) (w64 : Bool) (v : Nat) (s : State) : Act :=
  let x := s.tile t
  if x.sig.isSome || x.mbx.isSome then .hold
  else if opk == 5 && w64 && !bar then .trap 2 0
  else if !s.sigOk t g then
    if s.sigOkBy (s.grpRec g) t g then .hold else
    let s := if g < 256 ∧ !gValid (s.grpRec g) then s.primReport 0x54 1 0 g else s
    .fall (s.raise t 11 true (s.pc t) 0)
  else
    let s := s.modTile t fun x => { x with sig := some ⟨g, bar, opk, w64, sd, s.pc t⟩ }
    .fall (State.sigGo (sigThen g (s.sigJoin g t bar opk w64 v)))

/-- SIG.BAR (R179, R287). -/
def execSigBar (t : Nat) (b : BitVec 54) (s : State) : Res :=
  .next (s.issue t 8 0x00 b (rsvOut [(49, 45), (44, 40)]) [fb b 45 5, fb b 40 5] noFuse fun s =>
    sigIssue t ((s.tile t).sreg (fb b 45 5)).toNat (fb b 40 5) true 0 false 0 s)

/-- SIG.RED (R179, R287). -/
def execSigRed (t : Nat) (b : BitVec 54) (s : State) : Res :=
  .next (s.issue t 8 0x01 b (rsvOut [(49, 45), (44, 40), (39, 35), (34, 32), (31, 31)]) [fb b 45 5, fb b 40 5, fb b 35 5] noFuse fun s =>
    sigIssue t ((s.tile t).sreg (fb b 45 5)).toNat (fb b 40 5) false (fb b 32 3) (fb1 b 31) ((s.tile t).sreg (fb b 35 5)).toNat s)

/-! ## Mailboxes (R179, R180, R190, R292) -/

/-- Send a mailbox operation to another device; none when no read tag is free. -/
def State.farMbx (s : State) (t dst addr op : Nat) (sv cv : BitVec 64) : Option Nat × State :=
  let data := mbxPayload op sv cv
  if op = 0 then
    let id := s.newId
    let s := id.2
    let tag := id.1 % 4096
    let gen := id.1 / 4096 % 256
    let p := { mkPkt 2 5 dst addr data.length tag gen with data := data }
    let w : FarWrite := ⟨id.1, dst, tag, t, 5, addr, gen, srcOf 0 t⟩
    (some id.1, if (s.routePort dst).isSome then ({ s with writes := s.writes ++ [w] }).sendPkt p else s.sendPkt p)
  else
    match s.freeTag with
    | none => (none, s)
    | some tag =>
      let gen := (SMap.get (fun _ => 0) s.tagGen tag + 1) % 256
      let s := { s with tagGen := SMap.set (fun _ => 0) s.tagGen tag gen }
      let id := s.newId
      let s := id.2
      let ok := (s.routePort dst).isSome
      let r : FarRead := ⟨id.1, tag, gen, dst, addr, 8, if ok then 0 else 3, if ok then 0 else 3, [], srcOf 0 t⟩
      let p := { mkPkt 2 5 dst addr data.length tag gen with data := data }
      (some id.1, ({ s with reads := s.reads ++ [r] }).sendPkt p)

/-- Issue a mailbox operation at address a: 0 ST, 1 LD, 2 FADD, 3 CAS. -/
def mbxIssue (t op a sd : Nat) (sv cv : BitVec 64) (s : State) : Act :=
  let x := s.tile t
  let here := s.isLocal a
  let bad := !s.tileMay t a 8 || (mboxAt (addrDev a)).isNone
  if x.sig.isSome || s.mboxPend t then .hold
  else if bad && here && op == 0 then .trap 3 0
  else
    let m : MbxOp := ⟨op, a, sd, sv, cv, s.pc t, bad, none⟩
    if bad || here then .fall (s.modTile t fun x => { x with mbx := some m })
    else
      let r := s.farMbx t (addrRank a) (addrDev a) op sv cv
      let lost := op == 0 && (s.routePort (addrRank a)).isNone
      match r.1 with
      | none => .held .tag
      | some id => .fall (r.2.modTile t fun x => { x with mbx := some { m with rid := some id, bad := lost } })

/-- Bits of a MBX instruction that lie in no field. -/
def rsvMbx (fields : List (Nat × Nat)) : Nat := rsvOut ((49, 46) :: fields)

/-- MBX.ST (R179, R180). -/
def execMbxSt (t : Nat) (b : BitVec 54) (s : State) : Res :=
  .next (s.issue t 8 0x02 b (rsvMbx [(44, 40)]) [fb b 40 5] noFuse fun s =>
    mbxIssue t 0 ((s.tile t).areg (fb b 46 4)).toNat 0 ((s.tile t).sreg (fb b 40 5)) 0 s)
/-- MBX.LD (R179, R180). -/
def execMbxLd (t : Nat) (b : BitVec 54) (s : State) : Res :=
  .next (s.issue t 8 0x03 b (rsvMbx [(44, 40)]) [fb b 40 5] noFuse fun s =>
    mbxIssue t 1 ((s.tile t).areg (fb b 46 4)).toNat (fb b 40 5) 0 0 s)
/-- MBX.FADD (R179, R180). -/
def execMbxFadd (t : Nat) (b : BitVec 54) (s : State) : Res :=
  .next (s.issue t 8 0x04 b (rsvMbx [(44, 40), (39, 35)]) [fb b 40 5, fb b 35 5] noFuse fun s =>
    mbxIssue t 2 ((s.tile t).areg (fb b 46 4)).toNat (fb b 40 5) ((s.tile t).sreg (fb b 35 5)) 0 s)
/-- MBX.CAS (R179, R180). -/
def execMbxCas (t : Nat) (b : BitVec 54) (s : State) : Res :=
  .next (s.issue t 8 0x05 b (rsvMbx [(44, 40), (39, 35), (34, 30)]) [fb b 40 5, fb b 35 5, fb b 30 5] noFuse fun s =>
    mbxIssue t 3 ((s.tile t).areg (fb b 46 4)).toNat (fb b 40 5) ((s.tile t).sreg (fb b 35 5)) ((s.tile t).sreg (fb b 30 5)) s)

/-- MAILBOX_RESULT (R180, R190, R292): the tile's mailbox operation is performed at its home and writes its register; a remote
one needs its answer. A window that is being marked refuses all but a load: it is logged (R202), and one that would write a register takes the
imprecise address trap. -/
def execMailboxResult (t : Nat) (s : State) : Res :=
  match (s.tile t).mbx with
  | none => .next s
  | some m =>
    let fin := fun (s : State) => s.modTile t fun x => { x with mbx := none }
    if m.bad then .next ((fin s).raise t 3 true m.idx 0)
    else
      match m.rid with
      | none =>
        .next (match mboxAt (addrDev m.addr) with
          | some w =>
            if m.op ≠ 1 ∧ (s.tile w.1).marking then
              let s := (fin s).extFault (addrDev m.addr) 0 (srcOf 0 t)
              if m.op = 0 then s else s.raise t 3 true m.idx 0
            else
              let r := s.mboxOp w.1 w.2 m.op m.sv m.cv
              if m.op = 0 then fin r.2 else (fin r.2).modTile t fun x => x.setS m.sd r.1
          | none => fin s)
      | some id =>
        if m.op = 0 then .next (if s.writes.any fun w => w.wid == id then s else fin s)
        else
          match s.readOf id with
          | none => .next (fin s)
          | some r =>
            if r.st = 0 then .next s
            else
              let s := (fin s).dropReads [id]
              .next (if r.st = 1 ∧ r.cst = 0 then s.modTile t fun x => x.setS m.sd (BitVec.ofNat 64 (valOf r.bytes))
                else s.raise t (if r.st = 2 then 10 else 3) true m.idx 0)

/-- MAILBOX_ACCESS (R180): a plain load (w false) or store of v, by a tile, the host or another device, at word i of tile t is
performed as a mailbox operation: the store replaces the word, the load leaves it. -/
def execMailboxAccess (t : Nat) (i : Nat) (w : Bool) (v : BitVec 64) (s : State) : Res :=
  .next (if t < 2048 ∧ i < 16 then (if w then s.windowPut t (aTMBX t i) fun s => (s.mboxOp t i 0 v 0).2 else (s.mboxOp t i 1 v 0).2) else s)

/-! ## FUSE (R181) -/

/-- Issue a fused prefix: PRED and PNEG must be 0 and every bit but aS is reserved. A prefix that is the region's last word, or in
a library-launched context, makes the next instruction invalid (kind 2). -/
def fuseIssue (kind t : Nat) (b : BitVec 54) (s : State) : State :=
  s.issue t 9 kind b (2 ^ 54 - 1 - span 49 46) [] noFuse fun s =>
    let lib : Bool := match s.cfgOfTile t with
      | some c => !c.implicit
      | none => true
    let k := if s.pc t == 8191 || lib then 2 else kind
    .fused s ⟨k, ((s.tile t).areg (fb b 46 4)).toNat⟩

/-- FUSE.CIRC (R181, R305). -/
def execFuseCirc (t : Nat) (b : BitVec 54) (s : State) : Res := .next (fuseIssue 0 t b s)
/-- FUSE.DISP (R181, R349). -/
def execFuseDisp (t : Nat) (b : BitVec 54) (s : State) : Res := .next (fuseIssue 1 t b s)

/-! ## DISP (R182) -/

/-- DISP.SEND (R182, R340): the rows are read and sent, and the return words written, as it issues. -/
def execDispSend (t : Nat) (b : BitVec 54) (s : State) : Res :=
  .next (s.issue t 10 0x00 b (span 28 0) [fb b 37 5, fb b 32 5] noFuse fun s =>
    let x := s.tile t
    let q := bitsOf (x.sreg (fb b 32 5)).toNat 0 6
    let n := bitsOf (x.sreg (fb b 37 5)).toNat 0 16
    let aR := (x.areg (fb b 46 4)).toNat
    let aI := (x.areg (fb b 42 4)).toNat
    match s.sendOk t q (some (fb b 29 3)) with
    | none => .trap 2 0
    | some j =>
      let r := s.srOf q
      let rd := s.ownRng t aR (n * srRowb r) ++ s.ownRng t aI (n * srK r)
      let wr := s.rwRngs t r ((srTbase r j + ((s.stream q).slot j).rows) % 65536) n
      if decide (5 ≤ (s.tile t).disp.length) || s.trackerFull t || s.rangeHold t rd wr then .hold else .fall (s.sendRows t q j aR aI n 0))

/-- DISP.END (R182, R342): on a stream of the tile's context of which it is a sender. -/
def execDispEnd (t : Nat) (b : BitVec 54) (s : State) : Res :=
  .next (s.issue t 10 0x01 b (rsvOut [(36, 32)]) [fb b 32 5] noFuse fun s =>
    let q := bitsOf ((s.tile t).sreg (fb b 32 5)).toNat 0 6
    let r := s.srOf q
    if 5 ≤ (s.tile t).disp.length then .hold
    else
      match if srValid r && s.srCtxIs q (s.ctxOfTile t) then srSlotOf r t else none with
      | none => .trap 2 0
      | some j => .fall (s.dispEnd t q j))

/-- DISP.CNT (R182, R347). -/
def execDispCnt (t : Nat) (b : BitVec 54) (s : State) : Res :=
  .next (s.issue t 10 0x02 b (rsvOut [(49, 45), (36, 32)]) [fb b 45 5, fb b 32 5] noFuse fun s =>
    match s.dispCnt t ((s.tile t).sreg (fb b 32 5)).toNat with
    | none => .trap 2 0
    | some v => .fall (s.modTile t fun x => x.setS (fb b 45 5) v))

end Sys2Proof.Machine
end

