-- ==== Sys2Proof/Machine/Order.lean ====
section
/-! DEFINITION. The events before which posted stores are performed, or in which they may be: the ends of waits, TRAPPED, the drain of a
switch, a tick of site time (R32, R33, R151, R165, R174, R178, R184, R186 to R189, R193, R468). -/

namespace Sys2Proof.Machine

/-! ## What ends a wait -/

/-- No outstanding transfer of the tile writes its instruction region; every other store to it is complete at issue. -/
def State.instrStored (s : State) (t : Nat) : Bool :=
  !(s.tile t).xfers.any fun f => f.wr.any fun r => decide (0x1F0000 < r.lo + r.len) && decide (r.lo < 0x200000)

/-- A unit named by WAIT.UNIT is idle (R178): bits 0 to 3 quadrants, 4 vector unit, 5 loaders, 6 stream mover, 7 signal port. -/
def Tile.unitIdle (x : Tile) : Nat → Bool
  | 4 => x.vq.isEmpty
  | 5 => x.prods.all fun p => p.loaded
  | 6 => x.xfers.isEmpty
  | 7 => x.sig.isNone && x.mbx.isNone
  | q => !x.prods.any fun p => !p.qm || p.q == q

/-- The condition of a wait holds. -/
def State.waitOver (s : State) (t : Nat) : Wait → Bool
  | .fenceG => s.drained t
  | .fenceI => s.instrStored t
  | .tok k n => decide (n ≤ s.fld (TTOK_COUNT t k))
  | .time T => decide (T ≤ s.now)
  | .unit m => (List.range 8).all fun i => !bitOf m i || (s.tile t).unitIdle i

/-- End a wait; TOK.WAIT subtracts its count in the same beat, FENCE.I discards prefetched instructions (R151, R178), and before FENCE.G ends
every posted store of the tile is performed (R188). -/
def State.waitEnd (s : State) (t : Nat) (w : Wait) : State :=
  let s := match w with
    | .fenceG => s.landAll t
    | .tok k n => s.setFld (TTOK_COUNT t k) (s.fld (TTOK_COUNT t k) - n)
    | .fenceI => s.modTile t fun x => { x with olds := [] }
    | _ => s
  s.modTile t fun x => { x with wait := none }

/-- The tile's context is running on it: a switched-out wait is suspended (R193). -/
def State.tileLive (s : State) (t : Nat) : Bool := s.fld (TSQSTAT_STATE t) == stRunning && match s.partOfTile t with
  | some p => !s.switching p && s.flag (HPSTAT_HELD p)
  | none => false

/-- Release the tile's wait when it is of the kind f accepts and its condition holds. -/
def State.release (s : State) (t : Nat) (f : Wait → Bool) : State :=
  match (s.tile t).wait with
  | none => s
  | some w => if f w.what && s.tileLive t && !s.frozen && s.waitOver t w.what then s.waitEnd t w.what else s

/-- FENCE_G_COMPLETE (R188). -/
def execFenceGComplete (t : Nat) (s : State) : Res := .next (s.release t fun w => w == .fenceG)
/-- FENCE_I_COMPLETE (R151, R178). -/
def execFenceIComplete (t : Nat) (s : State) : Res := .next (s.release t fun w => w == .fenceI)
/-- TOKEN_WAIT_RELEASE (R178, R189). -/
def execTokenWaitRelease (t : Nat) (s : State) : Res := .next (s.release t fun w => match w with
  | .tok _ _ => true
  | _ => false)
/-- WAIT_TIME_RELEASE (R33, R178). -/
def execWaitTimeRelease (t : Nat) (s : State) : Res := .next (s.release t fun w => match w with
  | .time _ => true
  | _ => false)
/-- WAIT_UNIT_RELEASE (R178). -/
def execWaitUnitRelease (t : Nat) (s : State) : Res := .next (s.release t fun w => match w with
  | .unit _ => true
  | _ => false)

/-- What an instruction is held for has not come. -/
def State.holdStands (s : State) (t : Nat) : HoldWhy → Bool
  | .regs rs => rs.any fun r => (s.tile t).opRegs.contains r
  | .colls => decide (16 ≤ s.colls.length)
  | .tag => s.freeTag.isNone

/-- WAIT_TIMEOUT (R165, R174): the wait timeout of tile t expires, for a waiting ACC.CHAIN (chain) or for the sequencer's wait or
held instruction. A wait satisfied by now completes instead (R193); one without a timeout goes on. Behind a trap already found the wait
still ends, and its own trap is not recorded (R184). -/
def execWaitTimeout (t : Nat) (chain : Bool) (s : State) : Res :=
  let x := s.tile t
  if !s.tileLive t then .next s
  else if chain then
    .next (match x.vq with
      | .chain _ _ _ _ _ _ tok idx false :: rest =>
        if 1 ≤ s.fld (TTOK_COUNT t tok) then s else (s.setTile t { x with vq := rest }).raise t 7 true idx 0
      | _ => s)
  else
    match x.wait with
    | some w =>
      .next (match w.what with
        | .fenceG => if s.waitOver t w.what then s.waitEnd t w.what else (s.setTile t { x with wait := none }).raise t 7 false w.idx 0
        | .tok _ _ => if s.waitOver t w.what then s.waitEnd t w.what else (s.setTile t { x with wait := none }).raise t 7 false w.idx 0
        | _ => s)
    | none =>
      .next (match x.held with
        | some h => if s.holdStands t h.why then s.raise t 7 false h.idx 0 else s
        | none => s)

/-! ## Traps, switches and time -/

/-- TRAPPED (R184): issued work has drained, a wait that had issued is over, and posted stores are performed; the trap is recorded, logged as type 0x07 (Table 6.9) and reported to the tile's context (R465). -/
def execTrapped (t : Nat) (s : State) : Res :=
  let x := s.tile t
  match x.trap with
  | none => .next s
  | some r =>
    if !s.drained t || x.wait.isSome then .next s
    else
      let s := (s.landAll t).modTile t fun x => { x with trap := none, held := none, fuse := none }
      let s := (((s.setFld (TSQTRAP_CAUSE t) r.cause).setFld (TSQTRAP_IMPR t) (if r.impr then 1 else 0)).setFld (TSQTRAP_PC t) r.idx).setFld
        (TSQTRAP_CODE t) r.code
      let s := (s.setFld (TSQSTAT_STATE t) stTrapped).setPc t (if r.impr then s.pc t else r.pc)
      let s := s.tileReport t 0x07 2 0 (r.cause + 32 * r.idx)
      let v := (s.reg (aTSQTRAP t)).toNat
      let s := match s.ctxOfTile t with
        | some c => s.event c 1 t (v % 2 ^ 32) (v / 2 ^ 32)
        | none => s
      .next (({ s with halt := { s.halt with tiles := s.halt.tiles.filter (· != t) } }).schedTile t)

/-- DRAIN_DONE (R468, R206, R332): stream caches are invalidated and expansion buffers dropped; the save begins. -/
def execDrainDone (part : Nat) (s : State) : Res :=
  .next (match s.switchAt part, s.occupant part with
    | .draining n, some c =>
      if s.partDrained part c then
        let s := s.each (s.tilesOf part) fun s t => (s.landAll t).modTile t fun x => { x with lines := [], exb := [], pf := [] }
        s.setSwitch part (.saving n)
      else s
    | _, _ => s)

/-- SITE_TIME_TICK (R32): one nanosecond, in which stores that were posted may be performed (R186). TBTIME rests while PORST_N holds the device. The pace of these commands is the rate a
follower's slewing sets (R35). -/
def execSiteTimeTick (s : State) : Res :=
  .next (let s := { s.landSome with clk := s.clk + 1 }
    if s.held.contains 1 then s else (s.leakFall s.now (s.now + 1)).setReg aTBTIME (s.reg aTBTIME + 1))

end Sys2Proof.Machine
end

