-- ==== Sys2Proof/Machine/Dispatch.lean ====
section
/-! DEFINITION. The one dispatch of commands to their meanings: one arm per row of the opcode table. -/

namespace Sys2Proof.Machine

def exec (i : Instr) (s : State) : Host.Outcome State Fault Refusal :=
  match i with
  | .porstNAssert us => Sys2Proof.Machine.execPorstNAssert us s
  | .warmrstNAssert us => Sys2Proof.Machine.execWarmrstNAssert us s
  | .perstAssert us => Sys2Proof.Machine.execPerstAssert us s
  | .vin48Brownout => Sys2Proof.Machine.execVin48Brownout s
  | .powerCycle => Sys2Proof.Machine.execPowerCycle s
  | .resetRelease src => Sys2Proof.Machine.execResetRelease src s
  | .mgcLeaveReset => Sys2Proof.Machine.execMgcLeaveReset s
  | .arbitrationAttempt => Sys2Proof.Machine.execArbitrationAttempt s
  | .strapConversionDone code adcOk => Sys2Proof.Machine.execStrapConversionDone code adcOk s
  | .strap => Sys2Proof.Machine.execStrap s
  | .strapAck => Sys2Proof.Machine.execStrapAck s
  | .claim h => Sys2Proof.Machine.execClaim h s
  | .claimSample h wire => Sys2Proof.Machine.execClaimSample h wire s
  | .verdict h => Sys2Proof.Machine.execVerdict h s
  | .commit => Sys2Proof.Machine.execCommit s
  | .ack => Sys2Proof.Machine.execAck s
  | .abort => Sys2Proof.Machine.execAbort s
  | .hold h => Sys2Proof.Machine.execHold h s
  | .arbitrationTimeout h => Sys2Proof.Machine.execArbitrationTimeout h s
  | .strapTimeout => Sys2Proof.Machine.execStrapTimeout s
  | .configurationTrafficTimeout h => Sys2Proof.Machine.execConfigurationTrafficTimeout h s
  | .bridgeTestDone ok => Sys2Proof.Machine.execBridgeTestDone ok s
  | .imageReadDone readErr => Sys2Proof.Machine.execImageReadDone readErr s
  | .imageApply => Sys2Proof.Machine.execImageApply s
  | .markingDone t => Sys2Proof.Machine.execMarkingDone t s
  | .stackInitDone st failed => Sys2Proof.Machine.execStackInitDone st failed s
  | .imageApplied => Sys2Proof.Machine.execImageApplied s
  | .siteTimeTick => Sys2Proof.Machine.execSiteTimeTick s
  | .timingExchange frac => Sys2Proof.Machine.execTimingExchange frac s
  | .tsyncReq p seq frac turn => Sys2Proof.Machine.execTsyncReq p seq frac turn s
  | .tsyncRsp seq locked t2 t3 errb frac => Sys2Proof.Machine.execTsyncRsp seq locked t2 t3 errb frac s
  | .timingResponseTimeout => Sys2Proof.Machine.execTimingResponseTimeout s
  | .nop t b => Sys2Proof.Machine.execNop t b s
  | .br t b => Sys2Proof.Machine.execBr t b s
  | .brl t b => Sys2Proof.Machine.execBrl t b s
  | .bri t b => Sys2Proof.Machine.execBri t b s
  | .loopS t b => Sys2Proof.Machine.execLoopS t b s
  | .loopI t b => Sys2Proof.Machine.execLoopI t b s
  | .haltI t b => Sys2Proof.Machine.execHaltI t b s
  | .trapI t b => Sys2Proof.Machine.execTrapI t b s
  | .add t b => Sys2Proof.Machine.execAdd t b s
  | .sub t b => Sys2Proof.Machine.execSub t b s
  | .mul t b => Sys2Proof.Machine.execMul t b s
  | .andR t b => Sys2Proof.Machine.execAndR t b s
  | .orR t b => Sys2Proof.Machine.execOrR t b s
  | .xorR t b => Sys2Proof.Machine.execXorR t b s
  | .shl t b => Sys2Proof.Machine.execShl t b s
  | .shr t b => Sys2Proof.Machine.execShr t b s
  | .sra t b => Sys2Proof.Machine.execSra t b s
  | .mins t b => Sys2Proof.Machine.execMins t b s
  | .maxs t b => Sys2Proof.Machine.execMaxs t b s
  | .minu t b => Sys2Proof.Machine.execMinu t b s
  | .maxu t b => Sys2Proof.Machine.execMaxu t b s
  | .addi t b => Sys2Proof.Machine.execAddi t b s
  | .andi t b => Sys2Proof.Machine.execAndi t b s
  | .ori t b => Sys2Proof.Machine.execOri t b s
  | .xori t b => Sys2Proof.Machine.execXori t b s
  | .shli t b => Sys2Proof.Machine.execShli t b s
  | .shri t b => Sys2Proof.Machine.execShri t b s
  | .srai t b => Sys2Proof.Machine.execSrai t b s
  | .li t b => Sys2Proof.Machine.execLi t b s
  | .lih t b => Sys2Proof.Machine.execLih t b s
  | .cmpeq t b => Sys2Proof.Machine.execCmpeq t b s
  | .cmpne t b => Sys2Proof.Machine.execCmpne t b s
  | .cmplt t b => Sys2Proof.Machine.execCmplt t b s
  | .cmple t b => Sys2Proof.Machine.execCmple t b s
  | .cmpltu t b => Sys2Proof.Machine.execCmpltu t b s
  | .cmpleu t b => Sys2Proof.Machine.execCmpleu t b s
  | .pand t b => Sys2Proof.Machine.execPand t b s
  | .por t b => Sys2Proof.Machine.execPor t b s
  | .pxor t b => Sys2Proof.Machine.execPxor t b s
  | .pnot t b => Sys2Proof.Machine.execPnot t b s
  | .timerd t b => Sys2Proof.Machine.execTimerd t b s
  | .rankrd t b => Sys2Proof.Machine.execRankrd t b s
  | .tilerd t b => Sys2Proof.Machine.execTilerd t b s
  | .ld1 t b => Sys2Proof.Machine.execLd1 t b s
  | .ld2 t b => Sys2Proof.Machine.execLd2 t b s
  | .ld4 t b => Sys2Proof.Machine.execLd4 t b s
  | .ld8 t b => Sys2Proof.Machine.execLd8 t b s
  | .lds1 t b => Sys2Proof.Machine.execLds1 t b s
  | .lds2 t b => Sys2Proof.Machine.execLds2 t b s
  | .lds4 t b => Sys2Proof.Machine.execLds4 t b s
  | .st1 t b => Sys2Proof.Machine.execSt1 t b s
  | .st2 t b => Sys2Proof.Machine.execSt2 t b s
  | .st4 t b => Sys2Proof.Machine.execSt4 t b s
  | .st8 t b => Sys2Proof.Machine.execSt8 t b s
  | .mova t b => Sys2Proof.Machine.execMova t b s
  | .movs t b => Sys2Proof.Machine.execMovs t b s
  | .adda t b => Sys2Proof.Machine.execAdda t b s
  | .addai t b => Sys2Proof.Machine.execAddai t b s
  | .loadReturn t k => Sys2Proof.Machine.execLoadReturn t k s
  | .mxMul t b => Sys2Proof.Machine.execMxMul t b s
  | .stationaryLoadDone t q => Sys2Proof.Machine.execStationaryLoadDone t q s
  | .portExpansionDone t q => Sys2Proof.Machine.execPortExpansionDone t q s
  | .resultRowWrite t q => Sys2Proof.Machine.execResultRowWrite t q s
  | .productComplete t q => Sys2Proof.Machine.execProductComplete t q s
  | .accBind t b => Sys2Proof.Machine.execAccBind t b s
  | .accSpill t b => Sys2Proof.Machine.execAccSpill t b s
  | .accRound t b => Sys2Proof.Machine.execAccRound t b s
  | .accDrop t b => Sys2Proof.Machine.execAccDrop t b s
  | .accChain t b => Sys2Proof.Machine.execAccChain t b s
  | .spillPassComplete t => Sys2Proof.Machine.execSpillPassComplete t s
  | .accRoundComplete t => Sys2Proof.Machine.execAccRoundComplete t s
  | .chainTokenAcquire t => Sys2Proof.Machine.execChainTokenAcquire t s
  | .chainAddComplete t => Sys2Proof.Machine.execChainAddComplete t s
  | .vecAdd t b => Sys2Proof.Machine.execVecAdd t b s
  | .vecMul t b => Sys2Proof.Machine.execVecMul t b s
  | .vecFma t b => Sys2Proof.Machine.execVecFma t b s
  | .vecMax t b => Sys2Proof.Machine.execVecMax t b s
  | .vecMin t b => Sys2Proof.Machine.execVecMin t b s
  | .vecCmp t b => Sys2Proof.Machine.execVecCmp t b s
  | .vecSel t b => Sys2Proof.Machine.execVecSel t b s
  | .vecRed t b => Sys2Proof.Machine.execVecRed t b s
  | .vecExp2 t b => Sys2Proof.Machine.execVecExp2 t b s
  | .vecLog2 t b => Sys2Proof.Machine.execVecLog2 t b s
  | .vecRcp t b => Sys2Proof.Machine.execVecRcp t b s
  | .vecRsq t b => Sys2Proof.Machine.execVecRsq t b s
  | .vecCvt t b => Sys2Proof.Machine.execVecCvt t b s
  | .vecIcvt t b => Sys2Proof.Machine.execVecIcvt t b s
  | .vecPhx t b => Sys2Proof.Machine.execVecPhx t b s
  | .vecTopk t b => Sys2Proof.Machine.execVecTopk t b s
  | .vecMov t b => Sys2Proof.Machine.execVecMov t b s
  | .vectorComplete t => Sys2Proof.Machine.execVectorComplete t s
  | .plainCopy t b => Sys2Proof.Machine.execPlainCopy t b s
  | .skewedWrite t b => Sys2Proof.Machine.execSkewedWrite t b s
  | .folioCompression t b => Sys2Proof.Machine.execFolioCompression t b s
  | .folioExpansion t b => Sys2Proof.Machine.execFolioExpansion t b s
  | .fp32ToE48 t b => Sys2Proof.Machine.execFp32ToE48 t b s
  | .transferComplete t k => Sys2Proof.Machine.execTransferComplete t k s
  | .fenceG t b => Sys2Proof.Machine.execFenceG t b s
  | .fenceGComplete t => Sys2Proof.Machine.execFenceGComplete t s
  | .fenceI t b => Sys2Proof.Machine.execFenceI t b s
  | .fenceIComplete t => Sys2Proof.Machine.execFenceIComplete t s
  | .tokWait t b => Sys2Proof.Machine.execTokWait t b s
  | .tokenWaitRelease t => Sys2Proof.Machine.execTokenWaitRelease t s
  | .tokAdd t b => Sys2Proof.Machine.execTokAdd t b s
  | .tokRd t b => Sys2Proof.Machine.execTokRd t b s
  | .waitTime t b => Sys2Proof.Machine.execWaitTime t b s
  | .waitTimeRelease t => Sys2Proof.Machine.execWaitTimeRelease t s
  | .waitUnit t b => Sys2Proof.Machine.execWaitUnit t b s
  | .waitUnitRelease t => Sys2Proof.Machine.execWaitUnitRelease t s
  | .waitTimeout t chain => Sys2Proof.Machine.execWaitTimeout t chain s
  | .sigBar t b => Sys2Proof.Machine.execSigBar t b s
  | .sigRed t b => Sys2Proof.Machine.execSigRed t b s
  | .mbxSt t b => Sys2Proof.Machine.execMbxSt t b s
  | .mbxLd t b => Sys2Proof.Machine.execMbxLd t b s
  | .mbxFadd t b => Sys2Proof.Machine.execMbxFadd t b s
  | .mbxCas t b => Sys2Proof.Machine.execMbxCas t b s
  | .mailboxResult t => Sys2Proof.Machine.execMailboxResult t s
  | .mailboxAccess t n w v => Sys2Proof.Machine.execMailboxAccess t n w v s
  | .fuseCirc t b => Sys2Proof.Machine.execFuseCirc t b s
  | .fuseDisp t b => Sys2Proof.Machine.execFuseDisp t b s
  | .dispSend t b => Sys2Proof.Machine.execDispSend t b s
  | .dispEnd t b => Sys2Proof.Machine.execDispEnd t b s
  | .dispCnt t b => Sys2Proof.Machine.execDispCnt t b s
  | .trapped t => Sys2Proof.Machine.execTrapped t s
  | .tsqctlRun t start => Sys2Proof.Machine.execTsqctlRun t start s
  | .tsqctlStop t => Sys2Proof.Machine.execTsqctlStop t s
  | .tflipArm t v => Sys2Proof.Machine.execTflipArm t v s
  | .streamCacheInvalidate t => Sys2Proof.Machine.execStreamCacheInvalidate t s
  | .lineFill t a => Sys2Proof.Machine.execLineFill t a s
  | .leakTick k => Sys2Proof.Machine.execLeakTick k s
  | .errorReport => Sys2Proof.Machine.execErrorReport s
  | .errorLogRpWrite h rp => Sys2Proof.Machine.execErrorLogRpWrite h rp s
  | .channelRetrainTimeout st ch => Sys2Proof.Machine.execChannelRetrainTimeout st ch s
  | .sctlTestRequest st => Sys2Proof.Machine.execSctlTestRequest st s
  | .testStateEntry st => Sys2Proof.Machine.execTestStateEntry st s
  | .sctlTestExit st => Sys2Proof.Machine.execSctlTestExit st s
  | .wsBypass => Sys2Proof.Machine.execWsBypass s
  | .wsExtest v => Sys2Proof.Machine.execWsExtest v s
  | .rpRead ch set => Sys2Proof.Machine.execRpRead ch set s
  | .rpStage ch addr row => Sys2Proof.Machine.execRpStage ch addr row s
  | .rpFuse ch => Sys2Proof.Machine.execRpFuse ch s
  | .rpFuseDone st ok => Sys2Proof.Machine.execRpFuseDone st ok s
  | .rpMapout ch => Sys2Proof.Machine.execRpMapout ch s
  | .mbRun mask => Sys2Proof.Machine.execMbRun mask s
  | .mbRunDone st fails addr => Sys2Proof.Machine.execMbRunDone st fails addr s
  | .mbResult => Sys2Proof.Machine.execMbResult s
  | .testLogicReset => Sys2Proof.Machine.execTestLogicReset s
  | .idcode => Sys2Proof.Machine.execIdcode s
  | .sample v => Sys2Proof.Machine.execSample v s
  | .preload w => Sys2Proof.Machine.execPreload w s
  | .extest v w => Sys2Proof.Machine.execExtest v w s
  | .extestPulse v w => Sys2Proof.Machine.execExtestPulse v w s
  | .extestTrain v w => Sys2Proof.Machine.execExtestTrain v w s
  | .clamp => Sys2Proof.Machine.execClamp s
  | .highz => Sys2Proof.Machine.execHighz s
  | .stkwrap sel => Sys2Proof.Machine.execStkwrap sel s
  | .bypass => Sys2Proof.Machine.execBypass s
  | .piWrite c st e p => Sys2Proof.Machine.execPiWrite c st e p s
  | .descriptorFetch st e => Sys2Proof.Machine.execDescriptorFetch st e s
  | .binderyNop st e => Sys2Proof.Machine.execBinderyNop st e s
  | .copy st e => Sys2Proof.Machine.execCopy st e s
  | .fill st e => Sys2Proof.Machine.execFill st e s
  | .publish st e => Sys2Proof.Machine.execPublish st e s
  | .pack st e => Sys2Proof.Machine.execPack st e s
  | .binderyFence st e => Sys2Proof.Machine.execBinderyFence st e s
  | .adamw st e => Sys2Proof.Machine.execAdamw st e s
  | .adamL2 st e => Sys2Proof.Machine.execAdamL2 st e s
  | .scan st e => Sys2Proof.Machine.execScan st e s
  | .xsel st e => Sys2Proof.Machine.execXsel st e s
  | .xout st e => Sys2Proof.Machine.execXout st e s
  | .unpack st e => Sys2Proof.Machine.execUnpack st e s
  | .chunkComplete st e => Sys2Proof.Machine.execChunkComplete st e s
  | .fragmentComplete st e => Sys2Proof.Machine.execFragmentComplete st e s
  | .semaphoreAcquire st e => Sys2Proof.Machine.execSemaphoreAcquire st e s
  | .semaphoreTimeout st e => Sys2Proof.Machine.execSemaphoreTimeout st e s
  | .bsemAdd st n v => Sys2Proof.Machine.execBsemAdd st n v s
  | .descriptorComplete st e => Sys2Proof.Machine.execDescriptorComplete st e s
  | .bcqptrTailWrite st e v => Sys2Proof.Machine.execBcqptrTailWrite st e v s
  | .binderyAbort st e => Sys2Proof.Machine.execBinderyAbort st e s
  | .pmdTrainingDone p good => Sys2Proof.Machine.execPmdTrainingDone p good s
  | .helloResend p => Sys2Proof.Machine.execHelloResend p s
  | .hello p ver rank pport kind crdd crdc crds lanes => Sys2Proof.Machine.execHello p ver rank pport kind crdd crdc crds lanes s
  | .helloack p ackseq => Sys2Proof.Machine.execHelloack p ackseq s
  | .helloTimeout p => Sys2Proof.Machine.execHelloTimeout p s
  | .downWaitEnd p => Sys2Proof.Machine.execDownWaitEnd p s
  | .flit p f => Sys2Proof.Machine.execFlit p f s
  | .ackTimer p => Sys2Proof.Machine.execAckTimer p s
  | .nakHoldEnd p => Sys2Proof.Machine.execNakHoldEnd p s
  | .ackTimeout p => Sys2Proof.Machine.execAckTimeout p s
  | .fpctlRetrain p => Sys2Proof.Machine.execFpctlRetrain p s
  | .fpctlDisable p d => Sys2Proof.Machine.execFpctlDisable p d s
  | .replayWindowEnd p => Sys2Proof.Machine.execReplayWindowEnd p s
  | .hintHoldoffEnd => Sys2Proof.Machine.execHintHoldoffEnd s
  | .writePacket port p => Sys2Proof.Machine.execWritePacket port p s
  | .readPacket port p => Sys2Proof.Machine.execReadPacket port p s
  | .rdcpl port p => Sys2Proof.Machine.execRdcpl port p s
  | .wrack port p => Sys2Proof.Machine.execWrack port p s
  | .mbxPacket port p => Sys2Proof.Machine.execMbxPacket port p s
  | .mbxrsp port p => Sys2Proof.Machine.execMbxrsp port p s
  | .rresetPacket port p => Sys2Proof.Machine.execRresetPacket port p s
  | .readTimeout rid => Sys2Proof.Machine.execReadTimeout rid s
  | .tagQuarantineEnd tag => Sys2Proof.Machine.execTagQuarantineEnd tag s
  | .writeAckTimeout wid => Sys2Proof.Machine.execWriteAckTimeout wid s
  | .routeEntryWrite c r v => Sys2Proof.Machine.execRouteEntryWrite c r v s
  | .upRecord src r => Sys2Proof.Machine.execUpRecord src r s
  | .downRecord src r => Sys2Proof.Machine.execDownRecord src r s
  | .abandonRecord src r => Sys2Proof.Machine.execAbandonRecord src r s
  | .preRoundRecord src r => Sys2Proof.Machine.execPreRoundRecord src r s
  | .signalTimeout g => Sys2Proof.Machine.execSignalTimeout g s
  | .circ c a host => Sys2Proof.Machine.execCirc c a host s
  | .agather c a host => Sys2Proof.Machine.execAgather c a host s
  | .bcast c a host => Sys2Proof.Machine.execBcast c a host s
  | .permute c a host => Sys2Proof.Machine.execPermute c a host s
  | .collPacket port p => Sys2Proof.Machine.execCollPacket port p s
  | .collectiveComplete cid => Sys2Proof.Machine.execCollectiveComplete cid s
  | .collectiveTimeout cid => Sys2Proof.Machine.execCollectiveTimeout cid s
  | .adopt c r => Sys2Proof.Machine.execAdopt c r s
  | .forwardRow port p => Sys2Proof.Machine.execForwardRow port p s
  | .backwardRow port p => Sys2Proof.Machine.execBackwardRow port p s
  | .endPacket port p => Sys2Proof.Machine.execEndPacket port p s
  | .returnRow port p => Sys2Proof.Machine.execReturnRow port p s
  | .reorderDone q e b => Sys2Proof.Machine.execReorderDone q e b s
  | .post c q st => Sys2Proof.Machine.execPost c q st s
  | .openBuf c q useNew => Sys2Proof.Machine.execOpenBuf c q useNew s
  | .rel c q e b => Sys2Proof.Machine.execRel c q e b s
  | .fdsctlAbort c q => Sys2Proof.Machine.execFdsctlAbort c q s
  | .planDoorbell c q st => Sys2Proof.Machine.execPlanDoorbell c q st s
  | .planDeadline q => Sys2Proof.Machine.execPlanDeadline q s
  | .dispatchTimeout q e b => Sys2Proof.Machine.execDispatchTimeout q e b s
  | .gstepinGo c step vote => Sys2Proof.Machine.execGstepinGo c step vote s
  | .decisionComplete => Sys2Proof.Machine.execDecisionComplete s
  | .nonfiniteLog c v => Sys2Proof.Machine.execNonfiniteLog c v s
  | .phaseStart c p => Sys2Proof.Machine.execPhaseStart c p s
  | .phaseEnd c p => Sys2Proof.Machine.execPhaseEnd c p s
  | .phaseClear c p => Sys2Proof.Machine.execPhaseClear c p s
  | .sstageWrite c st n v => Sys2Proof.Machine.execSstageWrite c st n v s
  | .farSendFrag c a => Sys2Proof.Machine.execFarSendFrag c a s
  | .farSendCatch c a => Sys2Proof.Machine.execFarSendCatch c a s
  | .farPacketTransmit p => Sys2Proof.Machine.execFarPacketTransmit p s
  | .fragPacket p frame => Sys2Proof.Machine.execFragPacket p frame s
  | .farHello p frame => Sys2Proof.Machine.execFarHello p frame s
  | .joinPacket p frame => Sys2Proof.Machine.execJoinPacket p frame s
  | .catchPacket p frame => Sys2Proof.Machine.execCatchPacket p frame s
  | .enterPacket p frame => Sys2Proof.Machine.execEnterPacket p frame s
  | .neighborSolicitation p frame => Sys2Proof.Machine.execNeighborSolicitation p frame s
  | .closeRound c r ownex => Sys2Proof.Machine.execCloseRound c r ownex s
  | .sealRound c => Sys2Proof.Machine.execSealRound c s
  | .freeRound c r => Sys2Proof.Machine.execFreeRound c r s
  | .joinRound c => Sys2Proof.Machine.execJoinRound c s
  | .enterRound c => Sys2Proof.Machine.execEnterRound c s
  | .roundDeadline => Sys2Proof.Machine.execRoundDeadline s
  | .farHelloInterval => Sys2Proof.Machine.execFarHelloInterval s
  | .catchRepairTimer => Sys2Proof.Machine.execCatchRepairTimer s
  | .catchTimeout => Sys2Proof.Machine.execCatchTimeout s
  | .farLinkChange p up => Sys2Proof.Machine.execFarLinkChange p up s
  | .grstrndWrite c v => Sys2Proof.Machine.execGrstrndWrite c v s
  | .ledgerModeWrite c mode far => Sys2Proof.Machine.execLedgerModeWrite c mode far s
  | .ledgerRpWrite rp => Sys2Proof.Machine.execLedgerRpWrite rp s
  | .gapRecord => Sys2Proof.Machine.execGapRecord s
  | .sqDoorbell c v => Sys2Proof.Machine.execSqDoorbell c v s
  | .commandFetch c => Sys2Proof.Machine.execCommandFetch c s
  | .nopCommand c k => Sys2Proof.Machine.execNopCommand c k s
  | .writeCommand c k => Sys2Proof.Machine.execWriteCommand c k s
  | .readCommand c k => Sys2Proof.Machine.execReadCommand c k s
  | .startCommand c k => Sys2Proof.Machine.execStartCommand c k s
  | .stopCommand c k => Sys2Proof.Machine.execStopCommand c k s
  | .collCommand c k => Sys2Proof.Machine.execCollCommand c k s
  | .planCommand c k => Sys2Proof.Machine.execPlanCommand c k s
  | .tokwait c k expired => Sys2Proof.Machine.execTokwait c k expired s
  | .tokadd c k => Sys2Proof.Machine.execTokadd c k s
  | .rresetCommand c k => Sys2Proof.Machine.execRresetCommand c k s
  | .commandComplete c k => Sys2Proof.Machine.execCommandComplete c k s
  | .completionHeadWrite c v => Sys2Proof.Machine.execCompletionHeadWrite c v s
  | .eventHeadWrite c v => Sys2Proof.Machine.execEventHeadWrite c v s
  | .queueEnable c v => Sys2Proof.Machine.execQueueEnable c v s
  | .hostRead c bar x n => Sys2Proof.Machine.execHostRead c bar x n s
  | .hostWrite c bar x bs ep => Sys2Proof.Machine.execHostWrite c bar x bs ep s
  | .hostDmaCompletion id status bytes pois => Sys2Proof.Machine.execHostDmaCompletion id status bytes pois s
  | .quantumEnd part => Sys2Proof.Machine.execQuantumEnd part s
  | .drainDone part => Sys2Proof.Machine.execDrainDone part s
  | .saveDone part => Sys2Proof.Machine.execSaveDone part s
  | .restoreDone part => Sys2Proof.Machine.execRestoreDone part s
  | .contextReset by_ c => Sys2Proof.Machine.execContextReset by_ c s
  | .flr fn => Sys2Proof.Machine.execFlr fn s
  | .partitionReset c part => Sys2Proof.Machine.execPartitionReset c part s
  | .pcieLinkLoss => Sys2Proof.Machine.execPcieLinkLoss s
  | .pcieLinkRetrained rate width => Sys2Proof.Machine.execPcieLinkRetrained rate width s
  | .busMasterDisable c => Sys2Proof.Machine.execBusMasterDisable c s
  | .vfEnable n => Sys2Proof.Machine.execVfEnable n s
  | .moderationDelayEnd fn => Sys2Proof.Machine.execModerationDelayEnd fn s
  | .flashRead c a => Sys2Proof.Machine.execFlashRead c a s
  | .flashProgram c a => Sys2Proof.Machine.execFlashProgram c a s
  | .flashErase c a => Sys2Proof.Machine.execFlashErase c a s
  | .flashOpDone ok => Sys2Proof.Machine.execFlashOpDone ok s
  | .watchdogKick c => Sys2Proof.Machine.execWatchdogKick c s
  | .watchdogExpiry => Sys2Proof.Machine.execWatchdogExpiry s
  | .keyLoad c n => Sys2Proof.Machine.execKeyLoad c n s
  | .keyLoadDone => Sys2Proof.Machine.execKeyLoadDone s
  | .keyClear c n => Sys2Proof.Machine.execKeyClear c n s
  | .peakRequest c v => Sys2Proof.Machine.execPeakRequest c v s
  | .pacedSelect c v => Sys2Proof.Machine.execPacedSelect c v s
  | .efficientSelect c v => Sys2Proof.Machine.execEfficientSelect c v s
  | .park c => Sys2Proof.Machine.execPark c s
  | .unpark c => Sys2Proof.Machine.execUnpark c s
  | .governorTick avg mv beat => Sys2Proof.Machine.execGovernorTick avg mv beat s
  | .peakWindowEnd => Sys2Proof.Machine.execPeakWindowEnd s
  | .peakSecond => Sys2Proof.Machine.execPeakSecond s
  | .pacedAllowance met => Sys2Proof.Machine.execPacedAllowance met s
  | .sensorRead t0 t1 ts => Sys2Proof.Machine.execSensorRead t0 t1 ts s
  | .throttleStep => Sys2Proof.Machine.execThrottleStep s
  | .thermalTrip sensor => Sys2Proof.Machine.execThermalTrip sensor s
  | .thermtripRelease => Sys2Proof.Machine.execThermtripRelease s
  | .haltSample a b => Sys2Proof.Machine.execHaltSample a b s
  | .discrepancyTimeout => Sys2Proof.Machine.execDiscrepancyTimeout s
  | .resume c => Sys2Proof.Machine.execResume c s
  | .faultClear c => Sys2Proof.Machine.execFaultClear c s
  | .readClear c x n => Sys2Proof.Machine.execReadClear c x n s
  | .registerWrite c x bs => Sys2Proof.Machine.execRegisterWrite c x bs s
  | .completionTimeout id => Sys2Proof.Machine.execCompletionTimeout id s
  | .channelTrainingLost st ch => Sys2Proof.Machine.execChannelTrainingLost st ch s

end Sys2Proof.Machine
end

