-- ==== Sys2Proof/WellFormed.lean ====
section
/-! DEFINITION. Which commands are well formed: every operand lies in the range that the manual numbers (tiles 0 to 2,047, contexts 0 to
511, stacks, engines, ports, streams, groups, halves, partitions), and what a packet or a flit carries fits its fields. -/

namespace Sys2Proof

/-- Every element is a byte. -/
def okBytes (bs : List Nat) : Bool := bs.all fun b => decide (b < 256)

/-- A packet's fields fit their widths (Table 8.6). -/
def okPkt (p : Pkt) : Bool :=
  decide (p.vc < 3) && decide (p.opc < 256) && decide (p.cst < 16) && decide (p.drank < 65536) && decide (p.srank < 65536)
    && decide (p.hops < 64) && decide (p.tgen < 256) && decide (p.addr < 2 ^ 48) && decide (p.len ≤ 4096) && decide (p.tag < 4096)
    && decide (p.dtk < 32) && decide (p.pmask < 2 ^ 64) && okBytes p.data

/-- A command is well formed. -/
def Instr.wellFormed (i : Instr) : Bool :=
  match i with
  | .porstNAssert _ => true
  | .warmrstNAssert _ => true
  | .perstAssert _ => true
  | .vin48Brownout => true
  | .powerCycle => true
  | .resetRelease src => decide (1 ≤ src) && decide (src ≤ 6)
  | .mgcLeaveReset => true
  | .arbitrationAttempt => true
  | .strapConversionDone code _ => decide (code < 64)
  | .strap => true
  | .strapAck => true
  | .claim h => decide (h < 2)
  | .claimSample h _ => decide (h < 2)
  | .verdict h => decide (h < 2)
  | .commit => true
  | .ack => true
  | .abort => true
  | .hold h => decide (h < 2)
  | .arbitrationTimeout h => decide (h < 2)
  | .strapTimeout => true
  | .configurationTrafficTimeout h => decide (h < 2)
  | .bridgeTestDone _ => true
  | .imageReadDone _ => true
  | .imageApply => true
  | .markingDone t => decide (t < 2048)
  | .stackInitDone st _ => decide (st < 8)
  | .imageApplied => true
  | .siteTimeTick => true
  | .timingExchange frac => decide (frac < 16)
  | .tsyncReq p seq frac _ => decide (p < 8) && decide (seq < 65536) && decide (frac < 16)
  | .tsyncRsp seq _ t2 t3 errb frac => decide (seq < 65536) && decide (t2 < 2 ^ 64) && decide (t3 < 2 ^ 64) && decide (errb < 65536) && decide (frac < 16)
  | .timingResponseTimeout => true
  | .nop t _ => decide (t < 2048)
  | .br t _ => decide (t < 2048)
  | .brl t _ => decide (t < 2048)
  | .bri t _ => decide (t < 2048)
  | .loopS t _ => decide (t < 2048)
  | .loopI t _ => decide (t < 2048)
  | .haltI t _ => decide (t < 2048)
  | .trapI t _ => decide (t < 2048)
  | .add t _ => decide (t < 2048)
  | .sub t _ => decide (t < 2048)
  | .mul t _ => decide (t < 2048)
  | .andR t _ => decide (t < 2048)
  | .orR t _ => decide (t < 2048)
  | .xorR t _ => decide (t < 2048)
  | .shl t _ => decide (t < 2048)
  | .shr t _ => decide (t < 2048)
  | .sra t _ => decide (t < 2048)
  | .mins t _ => decide (t < 2048)
  | .maxs t _ => decide (t < 2048)
  | .minu t _ => decide (t < 2048)
  | .maxu t _ => decide (t < 2048)
  | .addi t _ => decide (t < 2048)
  | .andi t _ => decide (t < 2048)
  | .ori t _ => decide (t < 2048)
  | .xori t _ => decide (t < 2048)
  | .shli t _ => decide (t < 2048)
  | .shri t _ => decide (t < 2048)
  | .srai t _ => decide (t < 2048)
  | .li t _ => decide (t < 2048)
  | .lih t _ => decide (t < 2048)
  | .cmpeq t _ => decide (t < 2048)
  | .cmpne t _ => decide (t < 2048)
  | .cmplt t _ => decide (t < 2048)
  | .cmple t _ => decide (t < 2048)
  | .cmpltu t _ => decide (t < 2048)
  | .cmpleu t _ => decide (t < 2048)
  | .pand t _ => decide (t < 2048)
  | .por t _ => decide (t < 2048)
  | .pxor t _ => decide (t < 2048)
  | .pnot t _ => decide (t < 2048)
  | .timerd t _ => decide (t < 2048)
  | .rankrd t _ => decide (t < 2048)
  | .tilerd t _ => decide (t < 2048)
  | .ld1 t _ => decide (t < 2048)
  | .ld2 t _ => decide (t < 2048)
  | .ld4 t _ => decide (t < 2048)
  | .ld8 t _ => decide (t < 2048)
  | .lds1 t _ => decide (t < 2048)
  | .lds2 t _ => decide (t < 2048)
  | .lds4 t _ => decide (t < 2048)
  | .st1 t _ => decide (t < 2048)
  | .st2 t _ => decide (t < 2048)
  | .st4 t _ => decide (t < 2048)
  | .st8 t _ => decide (t < 2048)
  | .mova t _ => decide (t < 2048)
  | .movs t _ => decide (t < 2048)
  | .adda t _ => decide (t < 2048)
  | .addai t _ => decide (t < 2048)
  | .loadReturn t _ => decide (t < 2048)
  | .mxMul t _ => decide (t < 2048)
  | .stationaryLoadDone t q => decide (t < 2048) && decide (q < 4)
  | .portExpansionDone t q => decide (t < 2048) && decide (q < 4)
  | .resultRowWrite t q => decide (t < 2048) && decide (q < 4)
  | .productComplete t q => decide (t < 2048) && decide (q < 4)
  | .accBind t _ => decide (t < 2048)
  | .accSpill t _ => decide (t < 2048)
  | .accRound t _ => decide (t < 2048)
  | .accDrop t _ => decide (t < 2048)
  | .accChain t _ => decide (t < 2048)
  | .spillPassComplete t => decide (t < 2048)
  | .accRoundComplete t => decide (t < 2048)
  | .chainTokenAcquire t => decide (t < 2048)
  | .chainAddComplete t => decide (t < 2048)
  | .vecAdd t _ => decide (t < 2048)
  | .vecMul t _ => decide (t < 2048)
  | .vecFma t _ => decide (t < 2048)
  | .vecMax t _ => decide (t < 2048)
  | .vecMin t _ => decide (t < 2048)
  | .vecCmp t _ => decide (t < 2048)
  | .vecSel t _ => decide (t < 2048)
  | .vecRed t _ => decide (t < 2048)
  | .vecExp2 t _ => decide (t < 2048)
  | .vecLog2 t _ => decide (t < 2048)
  | .vecRcp t _ => decide (t < 2048)
  | .vecRsq t _ => decide (t < 2048)
  | .vecCvt t _ => decide (t < 2048)
  | .vecIcvt t _ => decide (t < 2048)
  | .vecPhx t _ => decide (t < 2048)
  | .vecTopk t _ => decide (t < 2048)
  | .vecMov t _ => decide (t < 2048)
  | .vectorComplete t => decide (t < 2048)
  | .plainCopy t _ => decide (t < 2048)
  | .skewedWrite t _ => decide (t < 2048)
  | .folioCompression t _ => decide (t < 2048)
  | .folioExpansion t _ => decide (t < 2048)
  | .fp32ToE48 t _ => decide (t < 2048)
  | .transferComplete t _ => decide (t < 2048)
  | .fenceG t _ => decide (t < 2048)
  | .fenceGComplete t => decide (t < 2048)
  | .fenceI t _ => decide (t < 2048)
  | .fenceIComplete t => decide (t < 2048)
  | .tokWait t _ => decide (t < 2048)
  | .tokenWaitRelease t => decide (t < 2048)
  | .tokAdd t _ => decide (t < 2048)
  | .tokRd t _ => decide (t < 2048)
  | .waitTime t _ => decide (t < 2048)
  | .waitTimeRelease t => decide (t < 2048)
  | .waitUnit t _ => decide (t < 2048)
  | .waitUnitRelease t => decide (t < 2048)
  | .waitTimeout t _ => decide (t < 2048)
  | .sigBar t _ => decide (t < 2048)
  | .sigRed t _ => decide (t < 2048)
  | .mbxSt t _ => decide (t < 2048)
  | .mbxLd t _ => decide (t < 2048)
  | .mbxFadd t _ => decide (t < 2048)
  | .mbxCas t _ => decide (t < 2048)
  | .mailboxResult t => decide (t < 2048)
  | .mailboxAccess t n _ _ => decide (t < 2048) && decide (n < 16)
  | .fuseCirc t _ => decide (t < 2048)
  | .fuseDisp t _ => decide (t < 2048)
  | .dispSend t _ => decide (t < 2048)
  | .dispEnd t _ => decide (t < 2048)
  | .dispCnt t _ => decide (t < 2048)
  | .trapped t => decide (t < 2048)
  | .tsqctlRun t start => decide (t < 2048) && decide (start < 8192)
  | .tsqctlStop t => decide (t < 2048)
  | .tflipArm t _ => decide (t < 2048)
  | .streamCacheInvalidate t => decide (t < 2048)
  | .lineFill t a => decide (t < 2048) && a % 2048 == 0 && decide (a < 0x8000000000)
  | .leakTick k => decide (k < 2)
  | .errorReport => true
  | .errorLogRpWrite h rp => decide (h < 2) && decide (rp < 1024)
  | .channelRetrainTimeout st ch => decide (st < 8) && decide (ch < 32)
  | .sctlTestRequest st => decide (st < 8)
  | .testStateEntry st => decide (st < 8)
  | .sctlTestExit st => decide (st < 8)
  | .wsBypass => true
  | .wsExtest _ => true
  | .rpRead _ _ => true
  | .rpStage _ addr _ => decide (addr < 2 ^ 48)
  | .rpFuse _ => true
  | .rpFuseDone st _ => decide (st < 8)
  | .rpMapout _ => true
  | .mbRun _ => true
  | .mbRunDone st _ addr => decide (st < 8) && decide (addr < 2 ^ 48)
  | .mbResult => true
  | .testLogicReset => true
  | .idcode => true
  | .sample _ => true
  | .preload _ => true
  | .extest _ _ => true
  | .extestPulse _ _ => true
  | .extestTrain _ _ => true
  | .clamp => true
  | .highz => true
  | .stkwrap _ => true
  | .bypass => true
  | .piWrite c st e p => decide (c < 512) && decide (st < 8) && decide (e < 8) && decide (p < 512)
  | .descriptorFetch st e => decide (st < 8) && decide (e < 8)
  | .binderyNop st e => decide (st < 8) && decide (e < 8)
  | .copy st e => decide (st < 8) && decide (e < 8)
  | .fill st e => decide (st < 8) && decide (e < 8)
  | .publish st e => decide (st < 8) && decide (e < 8)
  | .pack st e => decide (st < 8) && decide (e < 8)
  | .binderyFence st e => decide (st < 8) && decide (e < 8)
  | .adamw st e => decide (st < 8) && decide (e < 8)
  | .adamL2 st e => decide (st < 8) && decide (e < 8)
  | .scan st e => decide (st < 8) && decide (e < 8)
  | .xsel st e => decide (st < 8) && decide (e < 8)
  | .xout st e => decide (st < 8) && decide (e < 8)
  | .unpack st e => decide (st < 8) && decide (e < 8)
  | .chunkComplete st e => decide (st < 8) && decide (e < 8)
  | .fragmentComplete st e => decide (st < 8) && decide (e < 8)
  | .semaphoreAcquire st e => decide (st < 8) && decide (e < 8)
  | .semaphoreTimeout st e => decide (st < 8) && decide (e < 8)
  | .bsemAdd st n v => decide (st < 8) && decide (n < 64) && decide (v < 65536)
  | .descriptorComplete st e => decide (st < 8) && decide (e < 8)
  | .bcqptrTailWrite st e v => decide (st < 8) && decide (e < 8) && decide (v < 512)
  | .binderyAbort st e => decide (st < 8) && decide (e < 8)
  | .pmdTrainingDone p good => decide (p < 8) && decide (good < 256)
  | .helloResend p => decide (p < 8)
  | .hello p ver rank pport kind crdd crdc crds lanes => decide (p < 8) && decide (ver < 256) && decide (rank < 2 ^ 16) && decide (pport < 256) && decide (kind < 2) && decide (crdd < 65536) && decide (crdc < 65536) && decide (crds < 65536) && decide (lanes < 256)
  | .helloack p ackseq => decide (p < 8) && decide (ackseq < 4096)
  | .helloTimeout p => decide (p < 8)
  | .downWaitEnd p => decide (p < 8)
  | .flit p bs => decide (p < 8) && decide (bs.length = 256) && okBytes bs
  | .ackTimer p => decide (p < 8)
  | .nakHoldEnd p => decide (p < 8)
  | .ackTimeout p => decide (p < 8)
  | .fpctlRetrain p => decide (p < 8)
  | .fpctlDisable p _ => decide (p < 8)
  | .replayWindowEnd p => decide (p < 8)
  | .hintHoldoffEnd => true
  | .writePacket port p => decide (port < 8) && okPkt p
  | .readPacket port p => decide (port < 8) && okPkt p
  | .rdcpl port p => decide (port < 8) && okPkt p
  | .wrack port p => decide (port < 8) && okPkt p
  | .mbxPacket port p => decide (port < 8) && okPkt p
  | .mbxrsp port p => decide (port < 8) && okPkt p
  | .rresetPacket port p => decide (port < 8) && okPkt p
  | .readTimeout _ => true
  | .tagQuarantineEnd tag => decide (tag < 4096)
  | .writeAckTimeout _ => true
  | .routeEntryWrite c r v => decide (c < 512) && decide (r < 65536) && decide (v < 256)
  | .upRecord src r => decide (src < 65536) && okBytes r
  | .downRecord src r => decide (src < 65536) && okBytes r
  | .abandonRecord src r => decide (src < 65536) && okBytes r
  | .preRoundRecord src r => decide (src < 65536) && okBytes r
  | .signalTimeout g => decide (g < 256)
  | .circ c a _ => decide (c < 512) && decide (a < 2 ^ 64)
  | .agather c a _ => decide (c < 512) && decide (a < 2 ^ 64)
  | .bcast c a _ => decide (c < 512) && decide (a < 2 ^ 64)
  | .permute c a _ => decide (c < 512) && decide (a < 2 ^ 64)
  | .collPacket port p => decide (port < 8) && okPkt p
  | .collectiveComplete cid => decide (cid < 65536)
  | .collectiveTimeout cid => decide (cid < 65536)
  | .adopt c r => decide (c < 512) && decide (r < 65536)
  | .forwardRow port p => decide (port < 8) && okPkt p
  | .backwardRow port p => decide (port < 8) && okPkt p
  | .endPacket port p => decide (port < 8) && okPkt p
  | .returnRow port p => decide (port < 8) && okPkt p
  | .reorderDone q e _ => decide (q < 64) && decide (e < 64)
  | .post c q st => decide (c < 512) && decide (q < 64) && decide (st < 2 ^ 32)
  | .openBuf c q _ => decide (c < 512) && decide (q < 64)
  | .rel c q e b => decide (c < 512) && decide (q < 64) && decide (e < 64) && decide (b < 2)
  | .fdsctlAbort c q => decide (c < 512) && decide (q < 64)
  | .planDoorbell c q st => decide (c < 512) && decide (q < 64) && decide (st < 2 ^ 32)
  | .planDeadline q => decide (q < 64)
  | .dispatchTimeout q e _ => decide (q < 64) && decide (e < 64)
  | .gstepinGo c step vote => decide (c < 512) && decide (step < 2 ^ 32) && decide (vote < 512)
  | .decisionComplete => true
  | .nonfiniteLog c _ => decide (c < 512)
  | .phaseStart c p => decide (c < 512) && decide (p < 6)
  | .phaseEnd c p => decide (c < 512) && decide (p < 6)
  | .phaseClear c p => decide (c < 512) && decide (p < 6)
  | .sstageWrite c st n _ => decide (c < 512) && decide (st < 8) && decide (n < 4096)
  | .farSendFrag c a => decide (c < 512) && decide (a < 2 ^ 64)
  | .farSendCatch c a => decide (c < 512) && decide (a < 2 ^ 64)
  | .farPacketTransmit p => decide (p < 2)
  | .fragPacket p frame => decide (p < 2) && okBytes frame
  | .farHello p frame => decide (p < 2) && okBytes frame
  | .joinPacket p frame => decide (p < 2) && okBytes frame
  | .catchPacket p frame => decide (p < 2) && okBytes frame
  | .enterPacket p frame => decide (p < 2) && okBytes frame
  | .neighborSolicitation p frame => decide (p < 2) && okBytes frame
  | .closeRound c r _ => decide (c < 512) && decide (r < 2 ^ 32)
  | .sealRound c => decide (c < 512)
  | .freeRound c r => decide (c < 512) && decide (r < 2 ^ 32)
  | .joinRound c => decide (c < 512)
  | .enterRound c => decide (c < 512)
  | .roundDeadline => true
  | .farHelloInterval => true
  | .catchRepairTimer => true
  | .catchTimeout => true
  | .farLinkChange p _ => decide (p < 2)
  | .grstrndWrite c v => decide (c < 512) && decide (v < 2 ^ 32)
  | .ledgerModeWrite c mode _ => decide (c < 512) && decide (mode < 3)
  | .ledgerRpWrite rp => decide (rp < 2 ^ 64)
  | .gapRecord => true
  | .sqDoorbell c v => decide (c < 512) && decide (v < 2 ^ 17)
  | .commandFetch c => decide (c < 512)
  | .nopCommand c _ => decide (c < 512)
  | .writeCommand c _ => decide (c < 512)
  | .readCommand c _ => decide (c < 512)
  | .startCommand c _ => decide (c < 512)
  | .stopCommand c _ => decide (c < 512)
  | .collCommand c _ => decide (c < 512)
  | .planCommand c _ => decide (c < 512)
  | .tokwait c _ _ => decide (c < 512)
  | .tokadd c _ => decide (c < 512)
  | .rresetCommand c _ => decide (c < 512)
  | .commandComplete c _ => decide (c < 512)
  | .completionHeadWrite c v => decide (c < 512) && decide (v < 2 ^ 17)
  | .eventHeadWrite c v => decide (c < 512) && decide (v < 2 ^ 17)
  | .queueEnable c _ => decide (c < 512)
  | .hostRead c bar x n => decide (c < 512) && (bar == 0 || bar == 2) && decide (x < 2 ^ 48) && decide (n < 4097)
  | .hostWrite c bar x bs _ => decide (c < 512) && (bar == 0 || bar == 2) && decide (x < 2 ^ 48) && okBytes bs
  | .hostDmaCompletion _ status bytes pois => decide (status < 3) && okBytes bytes && pois.all (fun i => decide (i * 64 < bytes.length))
  | .quantumEnd part => decide (part < 64)
  | .drainDone part => decide (part < 64)
  | .saveDone part => decide (part < 64)
  | .restoreDone part => decide (part < 64)
  | .contextReset by_ c => decide (by_ < 512) && decide (c < 512)
  | .flr fn => decide (fn < 512)
  | .partitionReset c part => decide (c < 512) && decide (part < 64)
  | .pcieLinkLoss => true
  | .pcieLinkRetrained rate width => decide (1 ≤ rate) && decide (rate ≤ 6) && decide (width < 17)
  | .busMasterDisable c => decide (c < 512)
  | .vfEnable n => decide (n < 512)
  | .moderationDelayEnd fn => decide (fn < 512)
  | .flashRead c a => decide (c < 512) && decide (a < 2 ^ 27)
  | .flashProgram c a => decide (c < 512) && decide (a < 2 ^ 27)
  | .flashErase c a => decide (c < 512) && decide (a < 2 ^ 27)
  | .flashOpDone _ => true
  | .watchdogKick c => decide (c < 512)
  | .watchdogExpiry => true
  | .keyLoad c n => decide (c < 512) && decide (n < 32)
  | .keyLoadDone => true
  | .keyClear c n => decide (c < 512) && decide (n < 32)
  | .peakRequest c _ => decide (c < 512)
  | .pacedSelect c _ => decide (c < 512)
  | .efficientSelect c _ => decide (c < 512)
  | .park c => decide (c < 512)
  | .unpark c => decide (c < 512)
  | .governorTick _ _ _ => true
  | .peakWindowEnd => true
  | .peakSecond => true
  | .pacedAllowance _ => true
  | .sensorRead _ _ _ => true
  | .throttleStep => true
  | .thermalTrip _ => true
  | .thermtripRelease => true
  | .haltSample _ _ => true
  | .discrepancyTimeout => true
  | .resume c => decide (c < 512)
  | .faultClear c => decide (c < 512)
  | .readClear c x n => decide (c < 512) && decide (x < 2 ^ 48) && (n == 1 || n == 2 || n == 4 || n == 8)
  | .registerWrite c x bs => decide (c < 512) && decide (x < 2 ^ 48) && okBytes bs
  | .completionTimeout _ => true
  | .channelTrainingLost st ch => decide (st < 8) && decide (ch < 32)

end Sys2Proof
end

