-- ==== Sys2Proof/Safety.lean ====
section
/-! DEFINITION. The terms the statements are made in: a sound state of the block, an answer with a property, an instruction that is due
and issues, and what is left unchanged. -/

namespace Sys2Proof.Machine

/-- A step goes on: it answers a next state. -/
def goesOn (s : State) : Prop := ∃ s', step s = .next s'

/-- The answer is a next state that satisfies P. -/
def Gives (r : Res) (P : State → Prop) : Prop := ∃ u, r = .next u ∧ P u

/-- The device is in arbitration hold, which only a power cycle ends (R45, R47). -/
def State.inHold (s : State) : Prop := s.boot = .hold

/-! ## Stored data in canonical form -/

/-- Every sparse store of the state is in its canonical form: keys strictly rising, and no entry equal to what an unlisted key reads
as. -/
def State.canonical (s : State) : Bool :=
  SMap.wf regReset s.regs && SMap.wf (fun _ => 0xFF) s.flash && SMap.wf (fun _ => 0) s.stk && SMap.wf (fun _ => 0) s.stkMark

/-- A tile's stores are in canonical form. -/
def Tile.canonical (x : Tile) : Bool :=
  SMap.wf (fun _ => 0) x.s && SMap.wf (fun _ => 0) x.a && SMap.wf (fun _ => none) x.bank && SMap.wf (fun _ => 0) x.acc
    && SMap.wf (fun _ => false) x.accPois

/-! ## An instruction that is due -/

/-- The byte at a bank offset holds a code word with no error. -/
def Tile.clean (x : Tile) (off : Nat) : Bool := match x.classOf off with
  | .good _ => true
  | _ => false

/-- The instruction word at index i of a tile reads without error and is w. -/
def Tile.wordIs (x : Tile) (i w : Nat) : Bool :=
  ((List.range 8).all fun k => x.clean (0x1F0000 + i * 8 + k)) && x.word i == some w

/-- The row of class cls and operation op with operand bits b is the instruction due at tile t: the tile can issue, the word at PC
reads clean and is the row's (R148, R151), its reserved bits rsv are 0 (R150) and no prefix stands before it (R181). -/
def State.due (s : State) (t cls op : Nat) (b : BitVec 54) (rsv : Nat) : Bool :=
  s.canIssue t && (s.tile t).wordIs (s.pc t) (rowWord cls op b) && (b.toNat &&& rsv) == 0 && (s.tile t).fuse.isNone

/-- It is due, its predicate holds (R149) and it names no register that an unfinished operation will write (R152). -/
def State.issues (s : State) (t cls op : Nat) (b : BitVec 54) (rsv : Nat) (regs : List Nat) : Bool :=
  s.due t cls op b rsv && (s.tile t).executes b && regs.all fun r => !(s.tile t).pendRegs.contains r

/-- R155: the index after one instruction at PC when no active loop ends there. -/
def State.seqPc (s : State) (t : Nat) : Nat := (s.pc t + 1) % 8192

/-- No active loop of tile t ends at PC. -/
def State.noLoopEnd (s : State) (t : Nat) : Prop := (s.tile t).loopAt (s.pc t) = none

/-! ## What is left alone -/

/-- Every byte of the bank and every word of the accumulator file of tile t reads as before. -/
def Tile.sameMem (x y : Tile) : Prop :=
  (∀ off, y.code off = x.code off) ∧ (∀ w, y.accWord w = x.accWord w) ∧ (∀ r, y.rowPois r = x.rowPois r)

/-- Every byte of memory reads as before: tiles and stacks. -/
def State.sameMem (s u : State) : Prop :=
  (∀ t, (s.tile t).sameMem (u.tile t)) ∧ (∀ d, u.stkByte d = s.stkByte d) ∧ ∀ d, u.markOf d = s.markOf d

/-- Scalar registers but those listed read as before. -/
def Tile.sameS (x y : Tile) (but : List Nat) : Prop := ∀ i, i ∉ but → y.sreg i = x.sreg i
/-- Address registers but those listed read as before. -/
def Tile.sameA (x y : Tile) (but : List Nat) : Prop := ∀ i, i ∉ but → y.areg i = x.areg i
/-- Predicates but those listed read as before. -/
def Tile.sameP (x y : Tile) (but : List Nat) : Prop := ∀ i, i < 8 → i ∉ but → y.preg i = x.preg i

/-- Every tile but t is unchanged. -/
def State.sameTilesBut (s u : State) (t : Nat) : Prop := ∀ k, k ≠ t → u.tile k = s.tile k

/-- Every register of the device map but those listed reads as before. -/
def State.sameRegs (s u : State) (but : List Nat) : Prop := ∀ a, a ∉ but → u.reg a = s.reg a

/-- What lies outside the tiles and the register file is unchanged: stacks, ports, contexts, far unit, image, start-up, and what the
device has sent. -/
def State.sameRest (s u : State) : Prop :=
  u.stk = s.stk ∧ u.stkMark = s.stkMark ∧ u.stx = s.stx ∧ u.engines = s.engines ∧ u.ports = s.ports ∧ u.ctxs = s.ctxs ∧ u.far = s.far
    ∧ u.img = s.img ∧ u.boot = s.boot ∧ u.flash = s.flash ∧ u.keys = s.keys ∧ u.sent = s.sent ∧ u.reports = s.reports
    ∧ u.pending = s.pending ∧ u.streams = s.streams ∧ u.colls = s.colls ∧ u.groups = s.groups ∧ u.pow = s.pow ∧ u.tap = s.tap

/-- What a scalar instruction leaves alone: the other registers of its tile but those listed, all memory, every other tile, every
register of the device map but the tile's TSQSTAT, and what lies outside the tiles. -/
def scalarFrame (t : Nat) (sd ad pd : List Nat) (s u : State) : Prop :=
  (s.tile t).sameS (u.tile t) sd ∧ (s.tile t).sameA (u.tile t) ad ∧ (s.tile t).sameP (u.tile t) pd ∧ s.sameMem u
    ∧ s.sameTilesBut u t ∧ s.sameRegs u [aTSQSTAT t] ∧ s.sameRest u

/-- PC moves on by one, where no active loop ends there (R151, R155). -/
def movesOn (t : Nat) (s u : State) : Prop := s.noLoopEnd t → u.pc t = s.seqPc t

/-- R form of Table 5.6: row, operation code, sD from sA and sB. -/
def scalarR : List ((Nat → BitVec 54 → Instr) × Nat × (BitVec 64 → BitVec 64 → BitVec 64)) :=
  [(.add, 0x00, fun x y => x + y), (.sub, 0x01, fun x y => x - y), (.mul, 0x02, fun x y => x * y),
   (.andR, 0x03, fun x y => x &&& y), (.orR, 0x04, fun x y => x ||| y), (.xorR, 0x05, fun x y => x ^^^ y),
   (.shl, 0x06, fun x y => x <<< (y.toNat % 64)), (.shr, 0x07, fun x y => x >>> (y.toNat % 64)),
   (.sra, 0x08, fun x y => x.sshiftRight (y.toNat % 64)), (.mins, 0x09, fun x y => if x.toInt ≤ y.toInt then x else y),
   (.maxs, 0x0A, fun x y => if x.toInt ≤ y.toInt then y else x), (.minu, 0x0B, fun x y => if x.toNat ≤ y.toNat then x else y),
   (.maxu, 0x0C, fun x y => if x.toNat ≤ y.toNat then y else x)]

/-- Fields of the R form. -/
def rsvR : Nat := rsvOut [(49, 45), (44, 40), (39, 35)]

/-- I form of Table 5.6: row, operation code, sD from sA and IMM. -/
def scalarI : List ((Nat → BitVec 54 → Instr) × Nat × (BitVec 64 → BitVec 32 → BitVec 64)) :=
  [(.addi, 0x10, fun x i => x + i.signExtend 64), (.andi, 0x11, fun x i => x &&& i.zeroExtend 64),
   (.ori, 0x12, fun x i => x ||| i.zeroExtend 64), (.xori, 0x13, fun x i => x ^^^ i.zeroExtend 64),
   (.shli, 0x14, fun x i => x <<< (i.toNat % 64)), (.shri, 0x15, fun x i => x >>> (i.toNat % 64)),
   (.srai, 0x16, fun x i => x.sshiftRight (i.toNat % 64))]

/-- LI and LIH: row, operation code, sD from sD and IMM. -/
def scalarL : List ((Nat → BitVec 54 → Instr) × Nat × (BitVec 64 → BitVec 32 → BitVec 64)) :=
  [(.li, 0x17, fun _ i => i.signExtend 64), (.lih, 0x18, fun x i => i ++ x.extractLsb' 0 32)]

/-- Compares of Table 5.6: row, operation code, condition. -/
def scalarC : List ((Nat → BitVec 54 → Instr) × Nat × (BitVec 64 → BitVec 64 → Bool)) :=
  [(.cmpeq, 0x20, fun x y => decide (x = y)), (.cmpne, 0x21, fun x y => decide (x ≠ y)),
   (.cmplt, 0x22, fun x y => decide (x.toInt < y.toInt)), (.cmple, 0x23, fun x y => decide (x.toInt ≤ y.toInt)),
   (.cmpltu, 0x24, fun x y => decide (x.toNat < y.toNat)), (.cmpleu, 0x25, fun x y => decide (x.toNat ≤ y.toNat))]

/-- P form of Table 5.6. -/
def scalarP : List ((Nat → BitVec 54 → Instr) × Nat × (Bool → Bool → Bool)) :=
  [(.pand, 0x28, fun x y => x && y), (.por, 0x29, fun x y => x || y), (.pxor, 0x2A, fun x y => x != y), (.pnot, 0x2B, fun x _ => !x)]

/-- The loop tested at PC has been tested: with a count above 1 the loop's start comes next and its count is one less; with a count of 1
the loop is inactive and PC moves on. No other loop counter changes. -/
def loopTested (t c : Nat) (s u : State) : Prop :=
  (((s.tile t).loop c).count.toNat ≠ 1 → u.pc t = ((s.tile t).loop c).start.toNat
    ∧ (u.tile t).loop c = { (s.tile t).loop c with count := ((s.tile t).loop c).count - 1 }) ∧
  (((s.tile t).loop c).count.toNat = 1 → u.pc t = s.seqPc t ∧ ((u.tile t).loop c).active = false) ∧
  ∀ k, k ≠ c → (u.tile t).loop k = (s.tile t).loop k

/-- Loads of Table 5.7: row, operation code, bytes, sign-extended. -/
def loadRows : List ((Nat → BitVec 54 → Instr) × Nat × Nat × Bool) :=
  [(.ld1, 0, 1, false), (.ld2, 1, 2, false), (.ld4, 2, 4, false), (.ld8, 3, 8, false), (.lds1, 4, 1, true), (.lds2, 5, 2, true),
   (.lds4, 6, 4, true)]

/-- Stores of Table 5.7: row, operation code, bytes. -/
def storeRows : List ((Nat → BitVec 54 → Instr) × Nat × Nat) := [(.st1, 8, 1), (.st2, 9, 2), (.st4, 0x0A, 4), (.st8, 0x0B, 8)]

/-- The n bytes at an offset of tile t's bank read without error and spell v. -/
def Tile.holds (x : Tile) (off n v : Nat) : Bool :=
  ((List.range n).all fun k => x.clean (off + k)) && valOf ((List.range n).map fun k => (x.classOf (off + k)).value) == v

/-- A trap found at tile t by the instruction at PC: recorded, with PC where it was and no register or memory changed. -/
def trapsHere (t cause code : Nat) (s u : State) : Prop :=
  (u.tile t).trap = some ⟨cause, false, s.pc t, code, s.pc t⟩ ∧ u.pc t = s.pc t ∧ scalarFrame t [] [] [] s u

/-- Every row of the tile instructions that the statements on issue name: row, class and operation code, the bits in no field. -/
def plainRows : List ((Nat → BitVec 54 → Instr) × Nat × Nat × Nat) :=
  (scalarR.map fun r => (r.1, 1, r.2.1, rsvR)) ++ (loadRows.map fun r => (r.1, 2, r.2.1, rsvMem))
    ++ (storeRows.map fun r => (r.1, 2, r.2.1, rsvMem)) ++ [(.nop, 0, 0, rsvOut []), (.br, 0, 1, rsvOut [(13, 0)])]

/-- The oldest product of unit q that satisfies f stands at position i of tile t's list. -/
def State.prodIs (s : State) (t q : Nat) (f : Product → Bool) (i : Nat) (p : Product) : Prop := (s.tile t).prodAt q f = some (i, p)

/-- n bytes of tile t's bank from off read without error. -/
def Tile.cleanRange (x : Tile) (off n : Nat) : Prop := off + n ≤ 0x200000 ∧ ∀ k < n, x.clean (off + k) = true

/-- The byte values of a clean range. -/
def Tile.bytesAt (x : Tile) (off n : Nat) : List Nat := (List.range n).map fun k => (x.classOf (off + k)).value.1

/-- Streamed row r of a product: its element lanes and its scales read without error (R61, R62, R66). -/
def Tile.rowClean (x : Tile) (p : Product) (r : Nat) : Prop :=
  ∀ k < kpOf p.qm p.fa p.fw, x.cleanRange (elemOff p r k) (laneBytes p.fa) ∧ (isMX p.fa = true → x.cleanRange (scaleOff p r k) 1)

/-- The elements of a clean streamed row: element bits and scale byte, in cell-row order. -/
def Tile.rowElems (x : Tile) (p : Product) (r : Nat) : List (Nat × Nat) :=
  (List.range (kpOf p.qm p.fa p.fw)).map fun k =>
    (laneElem p k (ofLE (x.bytesAt (elemOff p r k) (laneBytes p.fa))),
      if isMX p.fa then (x.classOf (scaleOff p r k)).value.1 else 0)

/-- An instruction that joins the tail of the vector datapath's queue: it moves on and nothing else of the tile changes. -/
def queuesV (t : Nat) (j : VJob) (s u : State) : Prop :=
  (u.tile t).vq = (s.tile t).vq ++ [j] ∧ movesOn t s u ∧ scalarFrame t [] [] [] s u

/-- Neither a range hazard nor a full queue or tracker holds it. -/
def State.vFree (s : State) (t : Nat) (rd wr : List Rng) : Prop :=
  s.rangeHold t rd wr = false ∧ (s.tile t).vqFull = false ∧ s.trackerFull t = false

/-- VEC instructions of Table 5.11: row and operation code. -/
def vecRows : List ((Nat → BitVec 54 → Instr) × Nat) :=
  [(.vecAdd, 0), (.vecMul, 1), (.vecFma, 2), (.vecMax, 3), (.vecMin, 4), (.vecCmp, 5), (.vecSel, 6), (.vecRed, 7), (.vecExp2, 8),
   (.vecLog2, 9), (.vecRcp, 0xA), (.vecRsq, 0xB), (.vecCvt, 0xC), (.vecIcvt, 0xD), (.vecPhx, 0xE), (.vecTopk, 0xF), (.vecMov, 0x10)]

/-- No spill pass waits in the datapath's queue. -/
def Tile.noSpill (x : Tile) : Prop := ∀ w, VJob.spill w ∉ x.vq

/-- Element i of width w bytes from off. -/
def Tile.elemAt (x : Tile) (off w i : Nat) : Nat := ofLE (x.bytesAt (off + i * w) w)

/-- Rows that submit a descriptor, with the kinds each stands for (Table 5.13). -/
def moverRows : List ((Nat → BitVec 54 → Instr) × (Nat → Bool)) :=
  [(.plainCopy, fun k => k == 0 || decide (5 ≤ k)), (.skewedWrite, fun k => k == 1), (.folioCompression, fun k => k == 2),
   (.folioExpansion, fun k => k == 3), (.fp32ToE48, fun k => k == 4)]

/-- A descriptor of clean bytes at offset off of tile t, as it joins the mover's list under token tok. -/
def State.xferAt (s : State) (t off tok : Nat) : Xfer :=
  let x : Xfer := { desc := (s.tile t).bytesAt off 32, tok := tok, bad := false, todo := [], reads := [], sent := false, acks := [], st := 0, rd := [], wr := [] }
  { x with rd := s.ownRng t x.src (if x.rows = 0 then 0 else (x.rows - 1) * x.sstride + x.rlen), wr := s.ownRng t x.dst x.dstMax }

/-- The tile and the offset of an address in a tile window. -/
def winTile (a : Nat) : Nat := (addrDev a - tileBase 0) / 0x400000
/-- The offset. -/
def winOff (a : Nat) : Nat := (addrDev a - tileBase 0) % 0x400000

/-- Nothing of what tile t's program computes with has changed: registers, predicates, memory of the device, every other tile. -/
def sameWork (t : Nat) (s u : State) : Prop :=
  (s.tile t).sameS (u.tile t) [] ∧ (s.tile t).sameA (u.tile t) [] ∧ (s.tile t).sameP (u.tile t) [] ∧ s.sameMem u ∧ s.sameTilesBut u t

/-- SYNC rows that wait (Table 5.17): row, operation code, reserved bits, registers read, the wait. -/
def waitRows : List ((Nat → BitVec 54 → Instr) × Nat × Nat × (BitVec 54 → List Nat) × (Tile → BitVec 54 → Wait)) :=
  [(.fenceG, 0, rsvOut [], fun _ => [], fun _ _ => .fenceG), (.fenceI, 1, rsvOut [], fun _ => [], fun _ _ => .fenceI),
   (.tokWait, 2, rsvOut [(49, 45), (15, 0)], fun _ => [], fun _ b => .tok (fb b 45 5) (fb b 0 16)),
   (.waitTime, 5, rsvOut [(49, 45)], fun b => [fb b 45 5], fun x b => .time (x.sreg (fb b 45 5)).toNat),
   (.waitUnit, 6, rsvOut [(49, 42)], fun _ => [], fun _ b => .unit (fb b 42 8))]

/-- The event that ends each kind of wait. -/
def releaseOf (t : Nat) : Wait → Instr
  | .fenceG => .fenceGComplete t
  | .fenceI => .fenceIComplete t
  | .tok _ _ => .tokenWaitRelease t
  | .time _ => .waitTimeRelease t
  | .unit _ => .waitUnitRelease t

/-- The operation that an instruction of form (bar, opk, w64) finds at group g: the pending one, or a new one. -/
def State.pendOr (s : State) (g : Nat) (bar : Bool) (opk : Nat) (w64 : Bool) : SigPend :=
  (s.grp g).pend.getD ⟨bar, opk, w64, [], [], false, none, none, s.grpRec g⟩

/-- Tile t has issued with value v. -/
def SigPend.joined (p : SigPend) (t v : Nat) (detm : Bool) : SigPend :=
  { p with vals := p.vals ++ [(t, v)], det := some (p.det.getD detm) }

/-- The operation p of group g has ended with combination v: every member tile that waited has its register written, and GEN rises. -/
def sigEnded (g : Nat) (p : SigPend) (v : Nat) (s u : State) : Prop :=
  (∀ t ∈ p.vals.map (·.1), ∀ o, (s.tile t).sig = some o → (u.tile t).sig = none ∧ (s.tile t).sameS (u.tile t) [o.sd]
      ∧ (u.tile t).sreg o.sd = if o.bar then BitVec.ofNat 64 (s.grp g).gen else sigResult o.opk o.w64 v) ∧
    (∀ t, t ∉ p.vals.map (·.1) → u.tile t = s.tile t) ∧ (u.grp g).gen = ((s.grp g).gen + 1) % 65536 ∧ (u.grp g).pend = none ∧ s.sameMem u

/-- A record of the group's present generation, of the form of its pending operation p, no PERMUTE taking part and none held. -/
def State.takes (s : State) (r : List Nat) (p : SigPend) : Prop :=
  rPre r = false ∧ (s.grp (rGid r)).gen = rGen r ∧ (s.grp (rGid r)).pend = some p ∧ p.agrees (rBar r) (rOpk r) (rW64 r) = true
    ∧ p.by_ = none ∧ (s.grp (rGid r)).held = []

/-- A record from a child. -/
def SigPend.withKid (p : SigPend) (src v : Nat) : SigPend := { p with kids := p.kids ++ [(src, v)] }

/-- MBX rows: row, operation code, operation, reserved bits, registers, whether sS and sC are read (else 0). -/
def mbxRows : List ((Nat → BitVec 54 → Instr) × Nat × Nat × Nat × (BitVec 54 → List Nat) × (Tile → BitVec 54 → Nat × BitVec 64 × BitVec 64)) :=
  [(.mbxSt, 2, 0, rsvMbx [(44, 40)], fun b => [fb b 40 5], fun x b => (0, x.sreg (fb b 40 5), 0)),
   (.mbxLd, 3, 1, rsvMbx [(44, 40)], fun b => [fb b 40 5], fun _ b => (fb b 40 5, 0, 0)),
   (.mbxFadd, 4, 2, rsvMbx [(44, 40), (39, 35)], fun b => [fb b 40 5, fb b 35 5], fun x b => (fb b 40 5, x.sreg (fb b 35 5), 0)),
   (.mbxCas, 5, 3, rsvMbx [(44, 40), (39, 35), (34, 30)], fun b => [fb b 40 5, fb b 35 5, fb b 30 5],
     fun x b => (fb b 40 5, x.sreg (fb b 35 5), x.sreg (fb b 30 5)))]

/-- What a mailbox operation leaves in its word (R180). -/
def mbxNew (op : Nat) (old sv cv : BitVec 64) : BitVec 64 :=
  if op = 0 then sv else if op = 2 then old + sv else if op = 3 then (if old = cv then sv else old) else old

/-- Nothing is held for a CID. -/
def State.noneHeld (s : State) (cid : Nat) : Prop :=
  (∀ p ∈ s.collHeld, bitsOf p.addr 0 16 ≠ cid) ∧ ∀ r ∈ s.collRecs, rCid r.2 ≠ cid

/-- Every stripe of a descriptor has a usable port (R294). -/
def State.stripesUp (s : State) (d : List Nat) : Prop :=
  ∀ k, k < cdStripes d → s.fld (FPSTAT_STATE (stripePort d k)) = 4 ∨ s.fld (FPSTAT_STATE (stripePort d k)) = 5

/-- Fields of a row packet that arrived from another device and passes the checks of stream q's record (R344, R354): DIR 0 or 2. -/
def State.rowOk (s : State) (p : Pkt) (bwd : Bool) : Prop :=
  let q := daQ p.addr
  let e := daE p.addr
  let r := s.srOf q
  p.opc = 10 ∧ p.srank ≠ s.rank ∧ daDir p.addr = (if bwd then 2 else 0) ∧ daKind p.addr = 0 ∧ srValid r = true ∧ srBwd r = bwd ∧ e < srNexp r
    ∧ srOwner r e = s.rank ∧ daPart p.addr < srParts r ∧ p.len = min 4096 (srRowb r - 4096 * daPart p.addr)
    ∧ ((s.stream q).buf e (p.tag % 2)).place p.tag = .take ∧ (s.tile (srQtile r e)).marking = false

/-- Part of a row has been taken for slot k of buffer b of expert e: the buffer holds the row's identity, the buffer is CLOSED when END has
come from every source and its rows are whole, the received count rises when the row is whole, and in a plain queue its bytes lie at
slot × ROWB. -/
def rowTaken (p : Pkt) (k : Nat) (s u : State) : Prop :=
  let q := daQ p.addr
  let e := daE p.addr
  let r := s.srOf q
  let b := p.tag % 2
  let f := (s.stream q).buf e b
  let o := bufOff r e b + k * srRowb r + 4096 * daPart p.addr
  let g := (u.stream q).buf e b
  g.batch = some p.tag ∧ g.rows = (f.rows.filter fun y => y.slot != k) ++ [⟨k, p.srank, daTok p.addr, daK p.addr, [daPart p.addr]⟩] ∧
    g.ends = f.ends ∧ g.aband = f.aband ∧
    (g.closed = true ↔ f.closed = true ∨ (srNsrc r ≤ f.ends.length ∧ ∀ d ∈ g.rows, srParts r ≤ d.parts.length)) ∧
    cntGet (u.stream q).recv e = cntGet (s.stream q).recv e + (if srParts r = 1 then 1 else 0) ∧
    (srSkew r = false → k < srQslots r → bufOff r e b + srQsz r ≤ 0x1F0000 → p.data.length = p.len → p.pmask = 0 →
      s.flag (TFLIP_PEND (srQtile r e)) = false →
      ∀ i < p.len, (u.tile (srQtile r e)).classOf (o + i) = .good (nth 0 p.data i % 256))

/-- A TAP instruction whose data register's bits leave TDO; nothing of the device's own logic changes. -/
def tapAnswers (ir : Nat) (bits : List Nat) (s u : State) : Prop :=
  u.tap = { s.tap with ir := ir } ∧ u.sent = s.sent ++ [.tdo bits] ∧ s.sameRegs u [] ∧ s.sameMem u ∧ u.ports = s.ports ∧ u.reports = s.reports

/-- The wrapper of the stack that STKWRAP selected is reached, and the stack is or is not in test state. -/
def State.wrapAt (s : State) (st : Nat) (test : Bool) : Prop := s.tap.ir = 0x10 ∧ s.tap.sel = st ∧ s.flag (SSTAT_TEST st) = test

/-- The 64 bytes at a stack offset read clean, as bs. -/
def State.stkHolds (s : State) (d : Nat) (bs : List Nat) : Prop := s.stkRead d bs.length = (bs.map fun b => (b, false), s)

/-- Engine e of stack st can fetch, no abort covers its next descriptor, and that descriptor reads clean as d. -/
def State.nextDesc (s : State) (st e : Nat) (d : List Nat) : Prop :=
  st < 8 ∧ e < 8 ∧ s.canFetch st e = true ∧ (s.engine st e).abortTo = none ∧ d.length = 64
    ∧ s.inTop st (s.fld (BQBASE_BASE st e) * 4096 + s.fld (BQPTR_CI st e) % 256 * 64) 64 = true
    ∧ s.stkHolds (stackBase st + (s.fld (BQBASE_BASE st e) * 4096 + s.fld (BQPTR_CI st e) % 256 * 64)) d

/-- Engine e of stack st has fetched d: CI moved on, and the descriptor stands at the stage given. -/
def descAt (st e : Nat) (d : List Nat) (g : EStage) (s u : State) : Prop :=
  u.fld (BQPTR_CI st e) = (s.fld (BQPTR_CI st e) + 1) % 512 ∧ u.fld (BQPTR_PI st e) = s.fld (BQPTR_PI st e) ∧ (u.engine st e).stage = g
    ∧ (∃ i, (u.engine st e).desc = some ⟨d, false, i⟩) ∧ u.flag (BESTAT_BUSY st e) = true ∧ s.sameMem u
    ∧ s.sameRegs u [aBQPTR st e, aBESTAT st e]

/-- Engine e of stack st has reached the end of its descriptor's execution with a status. -/
def endsWith (st e status : Nat) (u : State) : Prop := ∃ d, (u.engine st e).stage = .ended status d

/-- Nothing in a stack range has failed and it lies in one stack. -/
def State.rangeOk (s : State) (d n : Nat) : Prop := d % 0x1000000000 + n ≤ 0x1000000000 ∧ s.hitsFailed d n = false

/-- The update RUN that engine e of stack st is about to start passes every check, with argument block arg and step record sr. -/
def State.updateReady (s : State) (st e kind : Nat) (d arg sr : List Nat) : Prop :=
  s.engRunKind st e kind = some d ∧ arg.length = 128 ∧ sr.length = 64 ∧ s.stkHolds (stackBase st + bdA2 d) arg
    ∧ s.inTop st (le arg 16 8) 64 = true ∧ s.stkHolds (stackBase st + le arg 16 8) sr ∧ le arg 16 8 % 64 = 0
    ∧ (∀ o ∈ shardArrays, le arg o.1 8 % 64 = 0 ∧ s.inTop st (le arg o.1 8) (le arg 8 8 / 4096 * o.2) = true)
    ∧ s.updateFault st arg sr = []

/-- Engine e of stack st runs pass p from chunk k on the shard. -/
def runsPass (st e p k : Nat) (d arg sr : List Nat) (u : State) : Prop :=
  (u.engine st e).stage = .running ∧ (u.engine st e).aux = [p, le arg 0 2 % 4096, bdProg d] ++ arg ++ sr ∧ (u.engine st e).chunk = k

/-- A port is in training: electrical training of ELEC (state 2), or of RETRAIN (state 5). -/
def State.training (s : State) (p : Nat) : Prop :=
  p < 8 ∧ (s.fld (FPSTAT_STATE p) = 2 ∨ s.fld (FPSTAT_STATE p) = 5) ∧ (s.port p).inHello = false

/-- Port p is DOWN with a cause, and nothing waits on it. -/
def downBy (p cause : Nat) (u : State) : Prop :=
  u.fld (FPSTAT_STATE p) = 6 ∧ u.fld (FPSTAT_DCAUSE p) = cause ∧ (u.port p).unacked = [] ∧ (u.port p).inHello = false

/-- No collective is in flight or waits. -/
def State.noColl (s : State) : Prop := s.colls = [] ∧ s.collWait = []

/-- A flit that acknowledges nothing and is no NAK. -/
def plainFlit (f : Flit) : Prop := f.ackv = false ∧ f.nak = false ∧ f.vc < 3

/-- A packet of an operation is taken here: it waits in the mesh, or it is sound, for this device, and the first of its VC at its port
(R261, R266, R269). -/
def State.arrives (s : State) (port : Nat) (p : Pkt) (opc : Nat) : Prop :=
  p.opc = opc ∧ (s.mesh.contains p = true ∨ (s.rxTurn port p = true ∧ pktMalformed p = false ∧ p.drank = s.rank))

/-- A sound signal record of rank src is the next of its link (R261, R266, R289). -/
def State.recDue (s : State) (src : Nat) (r : List Nat) : Prop := (s.rxRecord src r).isSome = true ∧ sigRecBad r = false

/-- Packet q, for another device, went to the port that its destination's route names, when there is one (R269, R270). -/
def answers (s : State) (q : Pkt) (u : State) : Prop :=
  q.drank ≠ s.rank → ∀ k, s.routePort q.drank = some k → Out.pkt k { q with srank := s.rank, hops := s.fld FCFG_HOPLIM } ∈ u.sent

/-- A request refused with the address fault: reported (type 0x05), and nothing else changes. -/
def refused (s u : State) : Prop :=
  (∃ r, u.reports = s.reports ++ [r] ∧ r.typ = 0x05) ∧ s.sameRegs u [] ∧ s.sameMem u ∧ u.sent = s.sent ∧ u.far = s.far ∧ u.decision = s.decision

/-- Control frames that wait on far port p. -/
def State.farQueue (s : State) (p : Nat) : List (List Nat) := (SMap.get (fun _ => FarPort.reset) s.far.ports p).ctl

/-- Round r has been sealed: its manifest is written and listed, no round waits, and XEVT.SEALED is set. -/
def sealedAs (r : Nat) (s u : State) : Prop :=
  u.fld XRSTAT_SEALED = r ∧ u.flag XRSTAT_WAITING = false ∧ u.fld XRSTAT_QCOUNT = 0 ∧ u.flag XEVT_SEALED = true ∧ u.far.due = none
    ∧ ∃ es, u.far.manifests = s.far.manifests ++ [(r, es)] ∧ es.length ≤ s.fld (XAREA_COUNT 2) * 1024

/-- No unfreed manifest stands at round r's position (R411). -/
def State.roomFor (s : State) (r : Nat) : Prop := ∀ m ∈ s.far.manifests, m.1 % 4 ≠ r % 4

/-- Partitions are numbered 0 to 63 and contexts 0 to 511, as every image numbers them (R457, R458). -/
def State.numbersOk (s : State) : Prop := (∀ e ∈ s.img.parts, e.1 < 64) ∧ ∀ e ∈ s.img.ctxs, e.1 < 512

/-- Context c has been faulted with a cause (R472). -/
def faulted (c cause : Nat) (s u : State) : Prop :=
  u.flag (HCTXSTAT_FAULT c) = true ∧ u.fld (HCTXSTAT_FCAUSE c) = cause ∧ ⟨0, 0x82, 1, srcOf 5 c, 0, cause, s.now⟩ ∈ u.reports ∧ s.sameMem u

/-- Command k of context c is x, of operation opc, may start, and has no reserved field set. -/
def State.cmdReady (s : State) (c k opc : Nat) (x : Cmd) : Prop :=
  (s.ctx c).cmds[k]? = some x ∧ x.opc = opc ∧ s.cmdMayStart c k x = true ∧ x.reserved (s.fld (HQCFG_VER c)) = false

/-- Command k of context c has ended with a status and detail, and its queue holds the same commands. -/
def cmdEnded (c k : Nat) (x : Cmd) (st detail : Nat) (s u : State) : Prop :=
  (u.ctx c).cmds = (s.ctx c).cmds.set k { x with stage := 2, status := st, detail := detail }

/-- A host access to function c reaches the device: an image is applied, the link is up and the function is enabled. -/
def State.hostIn (s : State) (c : Nat) : Prop := s.boot = .up ∧ s.flag HLINK_UP = true ∧ c < 512 ∧ (c = 0 ∨ (s.ctx c).vfEnabled = true)

/-- Bit i lies in a field of a register's layout whose kind satisfies f. -/
def RSpec.inField (r : RSpec) (f : FKind → Bool) (i : Nat) : Prop := ∃ x ∈ r.fs, f x.kind = true ∧ x.lo ≤ i ∧ i < x.lo + x.w

/-- Context c has been reset: disabled, not FAULTED, its queue empty, and the reset reported (type 0x83). -/
def ctxCleared (c : Nat) (s u : State) : Prop :=
  u.flag (HQCFG_EN c) = false ∧ u.flag (HCTXSTAT_FAULT c) = false ∧ (u.ctx c).cmds = [] ∧ (u.ctx c).saved = [] ∧ (u.ctx c).hasRun = false
    ∧ ⟨0, 0x83, 1, srcOf 5 c, 0, c, s.now⟩ ∈ u.reports

/-- One entry of the primary's global units has been reported: its type, severity and detail. -/
def logs (typ sev detail : Nat) (s u : State) : Prop :=
  u.reports = s.reports ++ [⟨s.primHalf, typ, sev, srcOf 6 (s.primHalf * 16), 0, detail, s.now⟩]

/-- A device reset: the block's units take their reset state, and what outlasts every reset is kept. -/
def resetDone (s u : State) : Prop :=
  u.boot = .inReset ∧ u.tiles = [] ∧ u.img = Image.empty ∧ u.keys = [] ∧ u.ports = [] ∧ u.ctxs = [] ∧ u.colls = [] ∧ u.halt = HaltIn.reset
    ∧ u.hoursBurnt = s.hoursBurnt ∧ u.clk = s.clk ∧ u.pending = s.pending ∧ (s.flashOp = none → u.flash = s.flash)

/-- Half h has entered arbitration hold: it drives ALERT_N, shows the hold, and sends HOLD after what it had sent (R42, R45). -/
def holdsNow (h : Nat) (sent : List (Nat × Mgmt)) (s u : State) : Prop :=
  (u.half h).role = .hold ∧ u.boot = .hold ∧ u.alert = true ∧ u.flag GSTAT_ARBHOLD = true ∧ u.fld GARB_ATTEMPT = s.attempt % 4
    ∧ u.mgmt = sent ++ [(1 - h, .hold)] ∧ s.sameRegs u [aGSTAT, aGARB] ∧ s.sameMem u

/-- Half h has failed the attempt for a cause, which it keeps unless it had found one: attempt 3's failure is the hold. -/
def failsAttempt (h cause : Nat) (sent : List (Nat × Mgmt)) (s u : State) : Prop :=
  (u.half h).phase = .idle ∧ (u.half h).cause = (if (s.half h).cause = 0 then cause else (s.half h).cause) ∧
  (s.attempt = 3 → holdsNow h sent s u) ∧ (s.attempt ≠ 3 → u.mgmt = sent ∧ u.boot = s.boot ∧ (u.half h).role = (s.half h).role ∧ s.sameRegs u [] ∧ s.sameMem u)

/-- Half h has judged the claim pair: no cause, or the wire disagrees (3), both intend (1), neither does (2); the verdict is sent. -/
def judges (h : Nat) (wire claim : Bool) (sent : List (Nat × Mgmt)) (s u : State) : Prop :=
  let own := (s.half h).intent
  let cause := if wire ≠ claim then 3 else if own && claim then 1 else if !own && !claim then 2 else 0
  (u.half h).phase = .judged ∧ (u.half h).verdict = some (cause == 0) ∧ u.mgmt = sent ++ [(1 - h, .verdict (cause == 0))]
    ∧ (cause ≠ 0 → (s.half h).cause = 0 → (u.half h).cause = cause) ∧ u.boot = s.boot ∧ s.sameRegs u [] ∧ s.sameMem u

end Sys2Proof.Machine
end

