-- ==== Sys2Proof/Certificates/Slice0/Obligations.lean ====
section
/-! DEFINITION. The statements for the provers, in the order of the chapters. -/

section Statements
open Sys2Proof Sys2Proof.Machine

/-- A step takes the oldest waiting command and performs it on the state with the queue's rest; with none waiting it idles (the model's form, log entry
2). -/
def Obligations.StepPerformsFrontCommand : Prop :=
  (∀ (c : Instr) (cs : List Instr) (s : State), s.pending = c :: cs → step s = exec c (s.withPending cs)) ∧
    ∀ s : State, s.pending = [] → step s = .next s

/-- R156, R form: sD takes the wrapping 64-bit result of sA and sB, shifts taking the low 6 bits of sB. R156, I form: sD takes the result of sA (of its
own old value in LIH) and the 32-bit immediate. -/
def Obligations.ScalarArithmeticWritesItsRegister : Prop :=
  (∀ r ∈ scalarR, ∀ (s : State) (t : Nat) (b : BitVec 54),
    s.issues t 1 r.2.1 b rsvR [fb b 45 5, fb b 40 5, fb b 35 5] = true →
    Gives (exec (r.1 t b) s) fun u =>
      (u.tile t).sreg (fb b 45 5) = r.2.2 ((s.tile t).sreg (fb b 40 5)) ((s.tile t).sreg (fb b 35 5))
        ∧ movesOn t s u ∧ scalarFrame t [fb b 45 5] [] [] s u) ∧
  ((∀ r ∈ scalarI, ∀ (s : State) (t : Nat) (b : BitVec 54),
    s.issues t 1 r.2.1 b (rsvOut [(49, 45), (44, 40), (31, 0)]) [fb b 45 5, fb b 40 5] = true →
    Gives (exec (r.1 t b) s) fun u =>
      (u.tile t).sreg (fb b 45 5) = r.2.2 ((s.tile t).sreg (fb b 40 5)) (BitVec.ofNat 32 (fb b 0 32))
        ∧ movesOn t s u ∧ scalarFrame t [fb b 45 5] [] [] s u) ∧
  ∀ r ∈ scalarL, ∀ (s : State) (t : Nat) (b : BitVec 54),
    s.issues t 1 r.2.1 b (rsvOut [(49, 45), (31, 0)]) [fb b 45 5] = true →
    Gives (exec (r.1 t b) s) fun u =>
      (u.tile t).sreg (fb b 45 5) = r.2.2 ((s.tile t).sreg (fb b 45 5)) (BitVec.ofNat 32 (fb b 0 32))
        ∧ movesOn t s u ∧ scalarFrame t [fb b 45 5] [] [] s u)

/-- R156: compares and predicate operations write pD; a write to p0 is discarded, and p0 reads 1. R156, R159: reads of site time, rank and tile number
into sD, and moves between scalar and address registers. -/
def Obligations.ScalarPredicatesReadsAndAddresses : Prop :=
  ((∀ r ∈ scalarC, ∀ (s : State) (t : Nat) (b : BitVec 54),
    s.issues t 1 r.2.1 b (rsvOut [(49, 47), (44, 40), (39, 35)]) [fb b 40 5, fb b 35 5] = true →
    Gives (exec (r.1 t b) s) fun u =>
      (u.tile t).preg (fb b 47 3) = (fb b 47 3 == 0 || r.2.2 ((s.tile t).sreg (fb b 40 5)) ((s.tile t).sreg (fb b 35 5)))
        ∧ movesOn t s u ∧ scalarFrame t [] [] [fb b 47 3] s u) ∧
  ∀ r ∈ scalarP, ∀ (s : State) (t : Nat) (b : BitVec 54),
    s.issues t 1 r.2.1 b (rsvOut [(49, 47), (46, 44), (43, 41)]) [] = true →
    Gives (exec (r.1 t b) s) fun u =>
      (u.tile t).preg (fb b 47 3) = (fb b 47 3 == 0 || r.2.2 ((s.tile t).preg (fb b 44 3)) ((s.tile t).preg (fb b 41 3)))
        ∧ movesOn t s u ∧ scalarFrame t [] [] [fb b 47 3] s u) ∧
  ((∀ r ∈ ([(.timerd, 0x30, fun s _ => s.fld TBTIME_TIME), (.rankrd, 0x31, fun s _ => s.fld FCFG_RANK), (.tilerd, 0x32, fun _ t => t)] :
      List ((Nat → BitVec 54 → Instr) × Nat × (State → Nat → Nat))),
    ∀ (s : State) (t : Nat) (b : BitVec 54), s.issues t 1 r.2.1 b (rsvOut [(49, 45)]) [fb b 45 5] = true →
    Gives (exec (r.1 t b) s) fun u =>
      (u.tile t).sreg (fb b 45 5) = BitVec.ofNat 64 (r.2.2 s t) ∧ movesOn t s u ∧ scalarFrame t [fb b 45 5] [] [] s u) ∧
  (∀ r ∈ ([(.mova, 0x10, fun x b => x.sreg (fb b 45 5)), (.adda, 0x12, fun x b => x.areg (fb b 37 4) + x.sreg (fb b 45 5))] :
      List ((Nat → BitVec 54 → Instr) × Nat × (Tile → BitVec 54 → BitVec 64))),
    ∀ (s : State) (t : Nat) (b : BitVec 54), s.issues t 2 r.2.1 b rsvMem [fb b 45 5] = true →
    Gives (exec (r.1 t b) s) fun u =>
      (u.tile t).areg (fb b 41 4) = r.2.2 (s.tile t) b ∧ movesOn t s u ∧ scalarFrame t [] [fb b 41 4] [] s u) ∧
  (∀ (s : State) (t : Nat) (b : BitVec 54), s.issues t 2 0x13 b rsvMem [] = true →
    Gives (exec (.addai t b) s) fun u =>
      (u.tile t).areg (fb b 41 4) = (s.tile t).areg (fb b 37 4) + BitVec.ofInt 64 (fbs b 0 20)
        ∧ movesOn t s u ∧ scalarFrame t [] [fb b 41 4] [] s u) ∧
  ∀ (s : State) (t : Nat) (b : BitVec 54), s.issues t 2 0x11 b rsvMem [fb b 45 5] = true →
    Gives (exec (.movs t b) s) fun u =>
      (u.tile t).sreg (fb b 45 5) = (s.tile t).areg (fb b 41 4) ∧ movesOn t s u ∧ scalarFrame t [fb b 45 5] [] [] s u)

/-- R154: NOP only moves on; a branch goes to its target modulo 8,192, BRL writing the return index to s31. R154, Table 5.22: HALT stops the tile in
HALTED with its code, PC moving on as after any instruction; TRAP is the software trap (cause 8) with its code. -/
def Obligations.ControlFlow : Prop :=
  ((∀ (s : State) (t : Nat) (b : BitVec 54), s.issues t 0 0 b (rsvOut []) [] = true →
    Gives (exec (.nop t b) s) fun u => movesOn t s u ∧ scalarFrame t [] [] [] s u) ∧
  (∀ (s : State) (t : Nat) (b : BitVec 54), s.issues t 0 1 b (rsvOut [(13, 0)]) [] = true →
    Gives (exec (.br t b) s) fun u => (u.pc t : Int) = ((s.pc t : Int) + fbs b 0 14) % 8192 ∧ scalarFrame t [] [] [] s u) ∧
  (∀ (s : State) (t : Nat) (b : BitVec 54), s.issues t 0 2 b (rsvOut [(13, 0)]) [31] = true →
    Gives (exec (.brl t b) s) fun u =>
      (u.pc t : Int) = ((s.pc t : Int) + fbs b 0 14) % 8192 ∧ (u.tile t).sreg 31 = BitVec.ofNat 64 (s.seqPc t)
        ∧ scalarFrame t [31] [] [] s u) ∧
  (∀ (s : State) (t : Nat) (b : BitVec 54), s.issues t 0 3 b (rsvOut [(49, 45)]) [fb b 45 5] = true →
    Gives (exec (.bri t b) s) fun u =>
      u.pc t = ((s.tile t).sreg (fb b 45 5)).toNat % 8192 ∧ scalarFrame t [] [] [] s u)) ∧
  ((∀ (s : State) (t : Nat) (b : BitVec 54), s.issues t 0 6 b (rsvOut [(15, 0)]) [] = true →
    Gives (exec (.haltI t b) s) fun u =>
      u.fld (TSQSTAT_STATE t) = stHalted ∧ u.fld (TSQSTAT_HCODE t) = fb b 0 16 ∧ movesOn t s u ∧ sameWork t s u) ∧
  ∀ (s : State) (t : Nat) (b : BitVec 54), s.issues t 0 7 b (rsvOut [(15, 0)]) [] = true →
    Gives (exec (.trapI t b) s) (trapsHere t 8 (fb b 0 16) s))

/-- R155: the hardware loops. LOOP with END 0 or on an active counter is the invalid-instruction trap; a count of 0 skips the body; else the counter is
active from PC + 1 to PC + END. The loop tested at an end is the highest-numbered active one, and it is tested whatever falls through there: said of
NOP, of HALT and of a branch that its predicate holds back. A taken branch ends each active loop whose body its target lies outside of, and leaves every other
loop as it is, at its end too. -/
def Obligations.LoopRules : Prop :=
  (∀ r ∈ ([(.loopS, 4, rsvOut [(49, 48), (47, 35), (34, 30)], fun b => [fb b 30 5], fun x b => (x.sreg (fb b 30 5)).toNat % 2 ^ 32),
      (.loopI, 5, rsvOut [(49, 48), (47, 35), (15, 0)], fun _ => [], fun _ b => fb b 0 16)] :
      List ((Nat → BitVec 54 → Instr) × Nat × Nat × (BitVec 54 → List Nat) × (Tile → BitVec 54 → Nat))),
    ∀ (s : State) (t : Nat) (b : BitVec 54), s.issues t 0 r.2.1 b r.2.2.1 (r.2.2.2.1 b) = true →
      (fb b 35 13 = 0 ∨ ((s.tile t).loop (fb b 48 2)).active = true → Gives (exec (r.1 t b) s) (trapsHere t 1 0 s)) ∧
      (fb b 35 13 ≠ 0 → ((s.tile t).loop (fb b 48 2)).active = false →
        Gives (exec (r.1 t b) s) fun u => scalarFrame t [] [] [] s u ∧
          if r.2.2.2.2 (s.tile t) b = 0 then u.pc t = (s.pc t + fb b 35 13 + 1) % 8192 ∧ (u.tile t).lc = (s.tile t).lc
          else movesOn t s u ∧ (s.noLoopEnd t → (u.tile t).loop (fb b 48 2)
            = ⟨BitVec.ofNat 32 (r.2.2.2.2 (s.tile t) b), BitVec.ofNat 13 (s.pc t + 1), BitVec.ofNat 13 (s.pc t + fb b 35 13), true⟩))) ∧
  (∀ (x : Tile) (pc c : Nat), x.loopAt pc = some c ↔
    c < 4 ∧ (x.loop c).active = true ∧ (x.loop c).stop.toNat = pc ∧ ∀ k, c < k → k < 4 → (x.loop k).active = true → (x.loop k).stop.toNat ≠ pc) ∧
  (∀ (s : State) (t c : Nat) (b : BitVec 54), (s.tile t).loopAt (s.pc t) = some c → 1 ≤ ((s.tile t).loop c).count.toNat →
    (s.issues t 0 0 b (rsvOut []) [] = true → Gives (exec (.nop t b) s) (loopTested t c s)) ∧
    (s.issues t 0 6 b (rsvOut [(15, 0)]) [] = true → Gives (exec (.haltI t b) s) (loopTested t c s)) ∧
    (s.due t 0 1 b (rsvOut [(13, 0)]) = true → (s.tile t).executes b = false → Gives (exec (.br t b) s) (loopTested t c s))) ∧
  ∀ r ∈ ([(.br, 1, rsvOut [(13, 0)], fun _ => []), (.brl, 2, rsvOut [(13, 0)], fun _ => [31]), (.bri, 3, rsvOut [(49, 45)], fun b => [fb b 45 5])] :
      List ((Nat → BitVec 54 → Instr) × Nat × Nat × (BitVec 54 → List Nat))),
    ∀ (s : State) (t : Nat) (b : BitVec 54), s.issues t 0 r.2.1 b r.2.2.1 (r.2.2.2 b) = true →
      Gives (exec (r.1 t b) s) fun u => ∀ c < 4, (u.tile t).loop c =
        if ((s.tile t).loop c).active && !((s.tile t).loop c).inBody (u.pc t) then { (s.tile t).loop c with active := false } else (s.tile t).loop c

/-- R159, R160, R543: a load whose address aB + OFF passes the tile's checks issues, and its register is not yet written: the load stands last in the
tile's list with its register, address and width, with the bytes of the own bank where it lies there, and without them where the address lies
elsewhere on this device or is a mailbox word; one of another device asks for its bytes with a READ (R268, R272); one outside the partition, the map or
a stack's top issues too, and traps when it returns (log entry 29). R160: when a load that holds its bytes returns, its destination register takes
them, zero- or sign-extended to 64 bits; a poisoned byte raises the imprecise poison trap (cause 5) instead and leaves the register. One of another
tile's bank takes the bytes that stand there when it returns. Either way the load is no longer outstanding. -/
def Obligations.LoadsIssueAndReturn : Prop :=
  (∀ r ∈ loadRows, ∀ (s : State) (t : Nat) (b : BitVec 54), s.issues t 2 r.2.1 b rsvMem [fb b 45 5] = true →
    let a := memAddr b (s.tile t)
    let l : LoadOp := ⟨fb b 45 5, a, r.2.2.1, r.2.2.2, s.pc t, none, none⟩
    (∀ o v, s.addrOk t a r.2.2.1 = true → a % r.2.2.1 = 0 → s.ownOff t a = some o → s.isMem (addrDev a) r.2.2.1 = true →
      o + r.2.2.1 ≤ 0x200000 → (s.tile t).holds o r.2.2.1 v = true → s.rangeHold t [⟨o, r.2.2.1⟩] [] = false →
      isMbox (addrDev a) = false →
      Gives (exec (r.1 t b) s) fun u => movesOn t s u ∧ scalarFrame t [] [] [] s u ∧
        ∃ bs, (u.tile t).loads = (s.tile t).loads ++ [{ l with got := some bs }] ∧ bs.length = r.2.2.1 ∧ valOf bs = v ∧ anyPois bs = false) ∧
    (s.addrOk t a r.2.2.1 = true → a % r.2.2.1 = 0 → s.isLocal a = true → s.ownOff t a = none →
      (isMbox (addrDev a) = true → s.mboxPend t = false) →
      Gives (exec (r.1 t b) s) fun u => movesOn t s u ∧ scalarFrame t [] [] [] s u ∧ (u.tile t).loads = (s.tile t).loads ++ [l]) ∧
    (∀ o, s.addrOk t a r.2.2.1 = true → a % r.2.2.1 = 0 → s.ownOff t a = some o → isMbox (addrDev a) = true → s.mboxPend t = false →
      s.rangeHold t [⟨o, r.2.2.1⟩] [] = false →
      Gives (exec (r.1 t b) s) fun u => movesOn t s u ∧ scalarFrame t [] [] [] s u ∧ (u.tile t).loads = (s.tile t).loads ++ [l]) ∧
    (∀ g, s.addrOk t a r.2.2.1 = true → a % r.2.2.1 = 0 → s.isLocal a = false → s.freeTag = some g → s.lineHold t a false = false →
      (isMbox (addrDev a) = true → s.mboxPend t = false) →
      Gives (exec (r.1 t b) s) fun u => movesOn t s u ∧ sameWork t s u ∧
        ∃ id, (u.tile t).loads = (s.tile t).loads ++ [{ l with rid := some id }] ∧
          ∃ q ∈ u.reads, q.rid = id ∧ q.tag = g ∧ q.dst = addrRank a ∧ q.addr = addrDev a ∧ q.len = r.2.2.1) ∧
    (s.addrOk t a r.2.2.1 = false →
      Gives (exec (r.1 t b) s) fun u => movesOn t s u ∧ scalarFrame t [] [] [] s u ∧ (u.tile t).loads = (s.tile t).loads ++ [l])) ∧
  (∀ (s : State) (t k : Nat) (l : LoadOp) (bs : List (Nat × Bool)), (s.tile t).loads[k]? = some l → l.got = some bs →
    (anyPois bs = false → l.width ≤ 8 →
      Gives (exec (.loadReturn t k) s) fun u =>
        (l.signed = false → (u.tile t).sreg l.sd = BitVec.ofNat 64 (valOf bs)) ∧
        (l.signed = true → (u.tile t).sreg l.sd = BitVec.ofInt 64 (toIntW (8 * l.width) (valOf bs))) ∧
        (u.tile t).loads = (s.tile t).loads.eraseIdx k ∧ scalarFrame t [l.sd] [] [] s u) ∧
    (anyPois bs = true → (s.tile t).trap = none →
      Gives (exec (.loadReturn t k) s) fun u =>
        (u.tile t).trap = some ⟨5, true, l.idx, 0, s.pc t⟩ ∧ (u.tile t).loads = (s.tile t).loads.eraseIdx k
          ∧ scalarFrame t [] [] [] s u)) ∧
  (∀ (s : State) (t k v : Nat) (l : LoadOp), (s.tile t).loads[k]? = some l → l.got = none → l.rid = none → s.isLocal l.addr = true →
    s.addrOk t l.addr l.width = true → addrDev l.addr % l.width = 0 → inTileWindow l.addr = true → winOff l.addr + l.width ≤ 0x200000 →
    s.isMem (addrDev l.addr) l.width = true → (s.tile (winTile l.addr)).holds (winOff l.addr) l.width v = true → (s.tile t).posted = [] →
    Gives (exec (.loadReturn t k) s) fun u =>
      (u.tile t).sreg l.sd = (if l.signed then BitVec.ofInt 64 (toIntW (8 * l.width) v) else BitVec.ofNat 64 v) ∧
        (u.tile t).loads = (s.tile t).loads.eraseIdx k ∧ scalarFrame t [l.sd] [] [] s u)

/-- R159, R185: a store to the own bank whose address passes the checks writes the low bytes of sS there, least significant first, as it issues, and no
other byte of memory. R186, R188: one to another place of this device is posted, with nothing written yet; FENCE.G ends with it written at its place,
here in the bank of the tile that its address names, and no other byte of memory. R160: the checks of a scalar access in their order. A misaligned address that
passes the address check raises the misaligned trap (cause 4); a store to a stack below its top raises the stack-granule trap (cause 9); a store
outside the partition, the map or a stack's top of this device the address trap (cause 3). No register and no memory changes. -/
def Obligations.StoresAndScalarAccessTraps : Prop :=
  (∀ r ∈ storeRows, ∀ (s : State) (t : Nat) (b : BitVec 54), s.issues t 2 r.2.1 b rsvMem [fb b 45 5] = true →
    let n := r.2.2
    let a := memAddr b (s.tile t)
    s.addrOk t a n = true → a % n = 0 → s.isLocal a = true → 0x8000000000 ≤ addrDev a → s.lineHold t a true = false →
    (∀ o, s.ownOff t a = some o → o + n ≤ 0x200000 → s.isMem (addrDev a) n = true → (s.tile t).marking = false → s.flag (TFLIP_PEND t) = false →
      s.rangeHold t [] [⟨o, n⟩] = false →
      Gives (exec (r.1 t b) s) fun u =>
        (∀ j < n, (u.tile t).classOf (o + j) = .good (bitsOf ((s.tile t).sreg (fb b 45 5)).toNat (8 * j) 8)) ∧
        (∀ off, off < o ∨ o + n ≤ off → (u.tile t).code off = (s.tile t).code off) ∧
        (∀ w, (u.tile t).accWord w = (s.tile t).accWord w) ∧ (∀ d, u.stkByte d = s.stkByte d ∧ u.markOf d = s.markOf d) ∧
        (s.tile t).sameS (u.tile t) [] ∧ (s.tile t).sameA (u.tile t) [] ∧ (s.tile t).sameP (u.tile t) [] ∧
        s.sameTilesBut u t ∧ s.sameRegs u [aTSQSTAT t] ∧ movesOn t s u) ∧
    (s.ownOff t a = none → isMbox (addrDev a) = false →
      Gives (exec (r.1 t b) s) fun u => movesOn t s u ∧ scalarFrame t [] [] [] s u ∧
        (u.tile t).posted = (s.tile t).posted ++ [(addrDev a, leBytes n ((s.tile t).sreg (fb b 45 5)).toNat)])) ∧
  (∀ (s : State) (t i : Nat) (a : Nat) (bs : List Nat), (s.tile t).wait = some ⟨.fenceG, i⟩ → s.tileLive t = true → s.frozen = false →
    s.drained t = true → (s.tile t).posted = [(addrDev a, bs)] → (s.tile t).marking = false → (s.tile (winTile a)).marking = false →
    inTileWindow a = true → winOff a + bs.length ≤ 0x200000 → s.isMem (addrDev a) bs.length = true → s.flag (TFLIP_PEND (winTile a)) = false →
    (∀ x ∈ bs, x < 256) →
    Gives (exec (.fenceGComplete t) s) fun u =>
      (u.tile t).wait = none ∧ (u.tile t).posted = [] ∧ (∀ j < bs.length, (u.tile (winTile a)).classOf (winOff a + j) = .good (nth 0 bs j)) ∧
        (∀ k off, (k = winTile a → off < winOff a ∨ winOff a + bs.length ≤ off) → (u.tile k).code off = (s.tile k).code off) ∧
        (∀ k w, (u.tile k).accWord w = (s.tile k).accWord w) ∧ (∀ d, u.stkByte d = s.stkByte d ∧ u.markOf d = s.markOf d) ∧ s.sameRegs u []) ∧
  ((∀ r ∈ loadRows, ∀ (s : State) (t : Nat) (b : BitVec 54), s.issues t 2 r.2.1 b rsvMem [fb b 45 5] = true →
    s.addrOk t (memAddr b (s.tile t)) r.2.2.1 = true → memAddr b (s.tile t) % r.2.2.1 ≠ 0 →
    Gives (exec (r.1 t b) s) (trapsHere t 4 0 s)) ∧
  ∀ r ∈ storeRows, ∀ (s : State) (t : Nat) (b : BitVec 54), s.issues t 2 r.2.1 b rsvMem [fb b 45 5] = true →
    let a := memAddr b (s.tile t)
    (s.isLocal a = true → s.addrOk t a r.2.2 = false → Gives (exec (r.1 t b) s) (trapsHere t 3 0 s)) ∧
    (s.addrOk t a r.2.2 = true → a % r.2.2 ≠ 0 → Gives (exec (r.1 t b) s) (trapsHere t 4 0 s)) ∧
    (s.addrOk t a r.2.2 = true → a % r.2.2 = 0 → addrDev a < 0x8000000000 → Gives (exec (r.1 t b) s) (trapsHere t 9 0 s)))

/-- R150, R149, R151, R183: at an instruction that is due, a reserved bit that is not 0 raises the invalid-instruction trap (cause 1); where its predicate
does not hold only PC moves on; and where a byte of its word reads poisoned the poison trap (cause 5) is found, whichever row asks. R184, R213 and
Table 6.9: once everything issued has completed, TRAPPED is entered: TSQTRAP records cause, precision, index and code, TSQSTAT shows TRAPPED, and a
report of type 0x07 is made. -/
def Obligations.IssueChecksAndTraps : Prop :=
  (∀ r ∈ plainRows, ∀ (s : State) (t : Nat) (b : BitVec 54), s.canIssue t = true →
    ((s.tile t).wordIs (s.pc t) (rowWord r.2.1 r.2.2.1 b) = true → b.toNat &&& r.2.2.2 ≠ 0 →
      Gives (exec (r.1 t b) s) (trapsHere t 1 0 s)) ∧
    (s.due t r.2.1 r.2.2.1 b r.2.2.2 = true → (s.tile t).executes b = false →
      Gives (exec (r.1 t b) s) fun u => movesOn t s u ∧ scalarFrame t [] [] [] s u) ∧
    ((∃ k < 8, (s.tile t).classOf (0x1F0000 + s.pc t * 8 + k) = .poison) →
      (∀ k < 8, (s.tile t).classOf (0x1F0000 + s.pc t * 8 + k) = .poison ∨ (s.tile t).clean (0x1F0000 + s.pc t * 8 + k) = true) →
      (s.tile t).olds = [] → Gives (exec (r.1 t b) s) (trapsHere t 5 0 s))) ∧
  (∀ (s : State) (t : Nat) (r : TrapRec), t < 2048 → (s.tile t).trap = some r → s.drained t = true → (s.tile t).wait = none → (s.tile t).posted = [] →
    r.cause < 32 → r.idx < 8192 → r.code < 65536 →
    Gives (exec (.trapped t) s) fun u =>
      u.fld (TSQTRAP_CAUSE t) = r.cause ∧ u.fld (TSQTRAP_IMPR t) = (if r.impr then 1 else 0) ∧ u.fld (TSQTRAP_PC t) = r.idx
        ∧ u.fld (TSQTRAP_CODE t) = r.code ∧ u.fld (TSQSTAT_STATE t) = stTrapped ∧ (u.tile t).trap = none
        ∧ (∃ more, u.reports = s.reports ++ [⟨halfOfTile t, 0x07, 2, srcOf 0 t, 0, r.cause + 32 * r.idx, s.now⟩] ++ more)
        ∧ (s.tile t).sameS (u.tile t) [] ∧ (s.tile t).sameA (u.tile t) [] ∧ (s.tile t).sameP (u.tile t) [] ∧ s.sameMem u
        ∧ s.sameTilesBut u t)

/-- R162, R163, R53: MX.MUL whose fields are valid and which no hazard holds joins its unit's products with the fields of Table 5.8, and TMXSTAT.QMODE
shows its mode; an invalid one raises the invalid-operand trap (cause 2) and writes nothing. R78, R105, R107, R119: the next result row of the oldest
product passes the write stage. Each of its columns takes the sum over the reduction depth of streamed elements by the block's cells, added to the old
word unless the product overwrites; the row's poison bit follows R78; every other accumulator word and every bank byte is unchanged; and the rows of a
fused dispatch are handed over as each group of 32 (16 in quadrant mode) is written (R181). A product with no block to run on writes no row and is
failed (log entry 88). R87, R123, R124:
the unit's oldest product, all its valid rows written, leaves its unit; a float product that accumulates adds its reduction depth to the count of each
bound column half it targets, and one that overwrites, an integer one or a failed one does not. -/
def Obligations.MatrixProducts : Prop :=
  (∀ (s : State) (t : Nat) (b : BitVec 54), s.issues t 3 0 b (span 5 0) [] = true → mxHeld s t (mxFields s t b) = false →
    (mxInvalid s t (mxFields s t b) = false →
      Gives (exec (.mxMul t b) s) fun u => movesOn t s u ∧ s.sameMem u ∧ s.sameTilesBut u t
        ∧ (s.tile t).sameS (u.tile t) [] ∧ (s.tile t).sameA (u.tile t) [] ∧ (s.tile t).sameP (u.tile t) []
        ∧ s.sameRegs u [aTSQSTAT t, aTMXSTAT t, aTMXBUSY t, aTMXWAIT t] ∧ u.fld (TMXSTAT_QMODE t) = fb b 23 1
        ∧ ∃ p, (u.tile t).prods = (s.tile t).prods ++ [p]
          ∧ (p.fa, p.fw, p.acc, p.m, p.v) = (fb b 46 4, fb b 42 4, fb b 27 3, (fb b 14 4 + 1) * 16, fb b 6 8 + 1)
          ∧ (p.pBase, p.wBase, p.xBase) = (((s.tile t).areg (fb b 38 4)).toNat, ((s.tile t).areg (fb b 34 4)).toNat, ((s.tile t).areg (fb b 30 4)).toNat)
          ∧ (p.q, p.c, p.idx, p.rows) = (fb b 24 2, fb b 26 1, s.pc t, 0)
          ∧ (p.qm, p.ow, p.ta, p.tw, p.ru, p.fo) = (fb1 b 23, fb1 b 22, fb1 b 21, fb1 b 20, fb1 b 19, fb1 b 18)) ∧
    (mxInvalid s t (mxFields s t b) = true → Gives (exec (.mxMul t b) s) (trapsHere t 2 0 s))) ∧
  (∀ (s : State) (t q i : Nat) (p : Product) (st : Stat), s.prodIs t q (fun p => decide (p.rows < p.v) && !p.failed) i p → p.loaded = true →
    (if p.swapped ∨ p.ru then (s.tile t).actOf q else (s.tile t).shadowOf q) = some st → (s.tile t).rowClean p p.rows →
    codesOk p.fa p.fw = true → (p.ta = true → denseCodes p.fa p.fw = false) →
    let N := lanesOf p.qm
    let w0 := p.rowWord p.rows
    (∀ n < N, accBad ((s.tile t).accWord (w0 + n)) = false) →
    Gives (exec (.resultRowWrite t q) s) fun e => ∃ u : State,
      e = (match p.fuse with
        | some d => u.fuseDisp t d ((p.groupEnd p.rows).map p.rowRng)
        | none => u) ∧
      (∀ n < N, (u.tile t).accWord (w0 + n) = accCode (resultWord p (if p.ow then 0 else bitsOf ((s.tile t).accWord (w0 + n)).toNat 0 32)
        ((s.tile t).rowElems p p.rows) (st.column n N (kpOf p.qm p.fa p.fw)))) ∧
      (∀ w, w < w0 ∨ w0 + N ≤ w → (u.tile t).accWord w = (s.tile t).accWord w) ∧
      (u.tile t).rowPois (w0 / 32) = rowPoisAfter ((s.tile t).rowPois (w0 / 32)) (st.poisoned || (!p.ow && (s.tile t).rowPois (w0 / 32))) (!p.qm) p.ow ∧
      (∀ r, r ≠ w0 / 32 → (u.tile t).rowPois r = (s.tile t).rowPois r) ∧ (∀ off, (u.tile t).code off = (s.tile t).code off) ∧
      (u.tile t).prods = (s.tile t).prods.set i { p with rows := p.rows + 1, swapped := true } ∧ (u.tile t).actOf q = some st) ∧
  (∀ (s : State) (t q i : Nat) (p : Product), s.prodIs t q (fun p => decide (p.rows < p.v) && !p.failed) i p → p.loaded = true →
    (if p.swapped ∨ p.ru then (s.tile t).actOf q else (s.tile t).shadowOf q) = none →
    Gives (exec (.resultRowWrite t q) s) fun u =>
      (u.tile t).prods = (s.tile t).prods.set i { p with failed := true } ∧ s.sameMem u ∧ s.sameTilesBut u t ∧ s.sameRegs u []) ∧
  (∀ (s : State) (t q i : Nat) (p : Product), s.prodIs t q (fun _ => true) i p → (p.v ≤ p.rows ∨ p.failed = true) → p.c < 2 →
    Gives (exec (.productComplete t q) s) fun u =>
      (u.tile t).prods = (s.tile t).prods.eraseIdx i ∧ s.sameMem u ∧
      ∀ h, h.1 < 8 → h.2 < 2 →
        u.fld (bndCount t h.1 h.2) =
          if h ∈ p.targets ∧ s.flag (TSPBND_BOUND t h.1) = true ∧ p.ow = false ∧ intCode p.fa = false ∧ p.failed = false
          then min 2047 (s.fld (bndCount t h.1 h.2) + kpOf p.qm p.fa p.fw / 16) else s.fld (bndCount t h.1 h.2))

/-- R55, R65, R333: the oldest product of a unit with a block to load fills the free shadow register with the block's cells; from a folio, once the folio
is held expanded (one that read poisoned gives a poisoned block, R328). R74, R327, R328, R332: the operand port checks the folio that the oldest
waiting product begins in. One that passes is held expanded, the least recently used of four making room; one that fails raises the imprecise
folio-check trap (cause 6) and counts in TFOLERR.CHKFAIL, and its product is failed; one that reads poisoned is marked so, and no trap is raised. -/
def Obligations.StationaryLoadsAndFolioPort : Prop :=
  (∀ (s : State) (t q i : Nat) (p : Product), s.prodIs t q (fun p => !p.loaded && !p.failed) i p → (s.tile t).shadowOf q = none →
    (p.fo = false → (s.tile t).cleanRange p.wBase (blockBytes p.qm p.fa p.fw) →
      Gives (exec (.stationaryLoadDone t q) s) fun u =>
        (u.tile t).shadowOf q = some ⟨p.fw, mixedCodes p.fa p.fw, blockCells p ((s.tile t).bytesAt p.wBase (blockBytes p.qm p.fa p.fw)), false⟩
          ∧ (u.tile t).prods = (s.tile t).prods.set i { p with loaded := true } ∧ s.sameMem u ∧ s.sameRegs u [aTMXSTAT t]) ∧
    (p.fo = true → p.fpois = true →
      Gives (exec (.stationaryLoadDone t q) s) fun u =>
        (∃ cells, (u.tile t).shadowOf q = some ⟨p.fw, mixedCodes p.fa p.fw, cells, true⟩)
          ∧ (u.tile t).prods = (s.tile t).prods.set i { p with loaded := true } ∧ s.sameMem u ∧ s.sameRegs u [aTMXSTAT t]) ∧
    (∀ bs, p.fo = true → p.fpois = false → (s.tile t).foldedBlock p = some bs →
      Gives (exec (.stationaryLoadDone t q) s) fun u =>
        (u.tile t).shadowOf q = some ⟨p.fw, mixedCodes p.fa p.fw, blockCells p (bs.take (blockBytes p.qm p.fa p.fw)), false⟩
          ∧ (u.tile t).prods = (s.tile t).prods.set i { p with loaded := true } ∧ s.sameMem u ∧ s.sameRegs u [aTMXSTAT t])) ∧
  (∀ (s : State) (t q i : Nat) (p : Product), s.prodIs t q (fun p => p.fo && !p.loaded && !p.failed && !p.fpois) i p →
    (s.tile t).bufAt p.folio = none → p.folio < 0x200000 →
    let n := min (s.regionEnd t p.folio - p.folio) (max 16 ((s.tile t).peekLen p.folio))
    p.folio + n ≤ 0x200000 →
    (∀ plain, (s.tile t).cleanRange p.folio n → folioDecode ((s.tile t).bytesAt p.folio n) = some plain →
      Gives (exec (.portExpansionDone t q) s) fun u =>
        (u.tile t).exb = (if 4 ≤ (s.tile t).exb.length then (s.tile t).exb.drop 1 else (s.tile t).exb) ++ [⟨p.folio, n, plain⟩]
          ∧ s.sameMem u ∧ s.sameRegs u []) ∧
    ((s.tile t).cleanRange p.folio n → folioDecode ((s.tile t).bytesAt p.folio n) = none → (s.tile t).trap = none →
      Gives (exec (.portExpansionDone t q) s) fun u =>
        (u.tile t).trap = some ⟨6, true, p.idx, 0, s.pc t⟩ ∧ u.fld (TFOLERR_CHKFAIL t) = min (2 ^ (TFOLERR_CHKFAIL t).w - 1) (s.fld (TFOLERR_CHKFAIL t) + 1)
          ∧ (u.tile t).prods = (s.tile t).prods.set i { p with failed := true } ∧ s.sameMem u) ∧
    ((∀ k < n, (s.tile t).clean (p.folio + k) = true ∨ (s.tile t).classOf (p.folio + k) = .poison) →
      (∃ k < n, (s.tile t).classOf (p.folio + k) = .poison) →
      Gives (exec (.portExpansionDone t q) s) fun u =>
        (u.tile t).prods = (s.tile t).prods.set i { p with fpois := true } ∧ (u.tile t).trap = (s.tile t).trap ∧ s.sameMem u))

/-- R121, R128, R129, R127, R165, R130: ACC.BIND to a 64-byte aligned buffer in scratch clears the tile and binds it with both halves empty; ACC.DROP
releases it; ACC.SPILL queues the halves with a non-zero count and ACC.ROUND the whole tile; ACC.CHAIN joins the queue to wait for its token. Each of
the middle three on an unbound tile raises the invalid-operand trap. -/
def Obligations.AccumulatorControl : Prop :=
  (∀ (s : State) (t : Nat) (b : BitVec 54), s.issues t 4 0 b (rsvOut [(49, 47), (46, 43)]) [] = true →
    let a := fb b 47 3
    let base := ((s.tile t).areg (fb b 43 4)).toNat
    s.rangeHold t [] [accTileRng a] = false →
    (s.flag (TSPBND_BOUND t a) = false → base % 64 = 0 → base + 6144 ≤ s.scBase t →
      Gives (exec (.accBind t b) s) fun u => movesOn t s u ∧ u.flag (TSPBND_BOUND t a) = true ∧ u.fld (TSPBND_BASE t a) = base / 64
        ∧ u.flag (TSPBND_EMPTY0 t a) = true ∧ u.flag (TSPBND_EMPTY1 t a) = true ∧ u.fld (TSPBND_COUNT0 t a) = 0
        ∧ u.fld (TSPBND_COUNT1 t a) = 0 ∧ u.fld (TSPBND_SPILLS t a) = 0
        ∧ (∀ w, (u.tile t).accWord w = if a * 1024 ≤ w ∧ w < a * 1024 + 1024 then accCode 0 else (s.tile t).accWord w)
        ∧ (∀ r, (u.tile t).rowPois r = ((s.tile t).rowPois r && !decide (a * 32 ≤ r ∧ r < a * 32 + 32)))
        ∧ ∀ off, (u.tile t).code off = (s.tile t).code off) ∧
    (s.flag (TSPBND_BOUND t a) = true ∨ base % 64 ≠ 0 ∨ s.inScratch t base 6144 = false →
      Gives (exec (.accBind t b) s) (trapsHere t 2 0 s))) ∧
  (∀ (s : State) (t : Nat) (b : BitVec 54), s.issues t 4 3 b (rsvOut [(49, 47)]) [] = true →
    s.rangeHold t [] [accTileRng (fb b 47 3)] = false →
    (s.flag (TSPBND_BOUND t (fb b 47 3)) = true →
      Gives (exec (.accDrop t b) s) fun u => movesOn t s u ∧ u.flag (TSPBND_BOUND t (fb b 47 3)) = false ∧ s.sameMem u
        ∧ s.sameRegs u [aTSQSTAT t, aTSPBND t (fb b 47 3)]) ∧
    (s.flag (TSPBND_BOUND t (fb b 47 3)) = false → Gives (exec (.accDrop t b) s) (trapsHere t 2 0 s))) ∧
  (∀ (s : State) (t : Nat) (b : BitVec 54), s.issues t 4 1 b (rsvOut [(49, 47)]) [] = true →
    let a := fb b 47 3
    s.vFree t [⟨s.bufBase t a, 6144⟩] [⟨s.bufBase t a, 6144⟩, accTileRng a] →
    (s.flag (TSPBND_BOUND t a) = true → s.fld (TSPBND_COUNT0 t a) ≠ 0 → s.fld (TSPBND_COUNT1 t a) ≠ 0 →
      Gives (exec (.accSpill t b) s) (queuesV t (.spill [(a, 0), (a, 1)]) s)) ∧
    (s.flag (TSPBND_BOUND t a) = true → s.fld (TSPBND_COUNT0 t a) ≠ 0 → s.fld (TSPBND_COUNT1 t a) = 0 →
      Gives (exec (.accSpill t b) s) (queuesV t (.spill [(a, 0)]) s)) ∧
    (s.flag (TSPBND_BOUND t a) = true → s.fld (TSPBND_COUNT0 t a) = 0 → s.fld (TSPBND_COUNT1 t a) ≠ 0 →
      Gives (exec (.accSpill t b) s) (queuesV t (.spill [(a, 1)]) s)) ∧
    (s.flag (TSPBND_BOUND t a) = true → s.fld (TSPBND_COUNT0 t a) = 0 → s.fld (TSPBND_COUNT1 t a) = 0 →
      Gives (exec (.accSpill t b) s) fun u => movesOn t s u ∧ scalarFrame t [] [] [] s u ∧ (u.tile t).vq = (s.tile t).vq) ∧
    (s.flag (TSPBND_BOUND t a) = false → Gives (exec (.accSpill t b) s) (trapsHere t 2 0 s))) ∧
  (∀ (s : State) (t : Nat) (b : BitVec 54), s.issues t 4 2 b (rsvOut [(49, 47)]) [] = true →
    s.vFree t [⟨s.bufBase t (fb b 47 3), 6144⟩] [accTileRng (fb b 47 3)] →
    (s.flag (TSPBND_BOUND t (fb b 47 3)) = true → Gives (exec (.accRound t b) s) (queuesV t (.round (fb b 47 3)) s)) ∧
    (s.flag (TSPBND_BOUND t (fb b 47 3)) = false → Gives (exec (.accRound t b) s) (trapsHere t 2 0 s))) ∧
  ∀ (s : State) (t : Nat) (b : BitVec 54),
    s.issues t 4 4 b (rsvOut [(49, 47), (46, 46), (45, 44), (43, 40), (39, 36), (35, 32), (31, 27)]) [] = true →
    let off := fun lo => ((s.tile t).areg (fb b lo 4)).toNat
    let n := if fb b 44 2 = 0 then 6144 else 3072
    let j : VJob := .chain (fb b 47 3) (fb b 46 1) (fb b 44 2) (off 40) (off 36) (off 32) (fb b 27 5) (s.pc t) false
    s.vFree t (j.ranges (s.bufBase t)).1 (j.ranges (s.bufBase t)).2 → fb b 44 2 ≠ 3 → s.inScratch t (off 40) n = true →
    (fb b 46 1 = 0 → s.inScratch t (off 36) 6144 = true) →
    s.inScratch t (off 32) (if fb b 46 1 = 0 ∧ off 32 = off 36 then 6144 else n) = true →
    Gives (exec (.accChain t b) s) (queuesV t j s)

/-- R125, R126: a spill pass of both halves of tile a that completes leaves the tile's accumulator words and poison bits 0, EMPTY and COUNT of both halves
0, SPILLS one higher (saturating), and the buffer's 6,144 bytes written; other accumulator tiles and other bank bytes are unchanged. R125, R122: one
row of one column half. On a half never spilled each E48 element of its buffer row is the accumulator word converted exactly; after that it is the
element's old value plus the word. -/
def Obligations.SpillPasses : Prop :=
  (∀ (s : State) (t a : Nat) (rest : List VJob), (s.tile t).vq = .spill [(a, 0), (a, 1)] :: rest → a < 8 → t < 2048 →
    s.bufBase t a + 6144 ≤ 0x1F0000 → s.flag (TFLIP_PEND t) = false →
    (s.flag (TSPBND_EMPTY0 t a) = true ∧ s.flag (TSPBND_EMPTY1 t a) = true ∨ (s.tile t).cleanRange (s.bufBase t a) 6144) →
    (∀ w, a * 1024 ≤ w → w < a * 1024 + 1024 → accBad ((s.tile t).accWord w) = false) →
    Gives (exec (.spillPassComplete t) s) fun u =>
      (u.tile t).vq = rest ∧ u.fld (TSPBND_COUNT0 t a) = 0 ∧ u.fld (TSPBND_COUNT1 t a) = 0 ∧ u.fld (TSPBND_EMPTY0 t a) = 0
        ∧ u.fld (TSPBND_EMPTY1 t a) = 0 ∧ u.fld (TSPBND_SPILLS t a) = min 65535 (s.fld (TSPBND_SPILLS t a) + 1)
        ∧ (∀ w, a * 1024 ≤ w → w < a * 1024 + 1024 → (u.tile t).accWord w = accCode 0)
        ∧ (∀ r, (u.tile t).rowPois r = ((s.tile t).rowPois r && !decide (a * 32 ≤ r ∧ r < a * 32 + 32)))
        ∧ (∀ w, w < a * 1024 ∨ a * 1024 + 1024 ≤ w → (u.tile t).accWord w = (s.tile t).accWord w)
        ∧ (∀ off, off < s.bufBase t a ∨ s.bufBase t a + 6144 ≤ off → (u.tile t).code off = (s.tile t).code off)
        ∧ s.sameTilesBut u t) ∧
  (∀ (s : State) (t a c r : Nat), t < 2048 → a < 8 → c < 2 → r < 32 → s.bufBase t a + 6144 ≤ 0x1F0000 → s.flag (TFLIP_PEND t) = false →
    let off := s.bufBase t a + r * 192 + c * 96
    let w0 := a * 1024 + r * 32 + 16 * c
    (s.flag (bndEmpty t a c) = false → (s.tile t).cleanRange off 96) → (s.tile t).rowPois (w0 / 32) = false → (∀ n < 16, accBad ((s.tile t).accWord (w0 + n)) = false) →
    ∀ n < 16, ((s.spillRow t a c r).tile t).holds (off + 6 * n) 6
      (if s.flag (bndEmpty t a c) then fp32ToE48 (bitsOf ((s.tile t).accWord (w0 + n)).toNat 0 32)
       else e48Add (e48F.decArray (ofLE ((s.tile t).bytesAt (off + 6 * n) 6))) (fp32F.decArray (bitsOf ((s.tile t).accWord (w0 + n)).toNat 0 32))) = true)

/-- R128: ACC.ROUND that completes releases its tile; a half that was never spilled keeps its words, and the bank is unchanged. R165, R133: a waiting
chain-add at the head of the datapath takes one from its token and runs; when it completes it leaves the queue, and only its output bytes change. -/
def Obligations.RoundsAndChainAdds : Prop :=
  (∀ (s : State) (t a : Nat) (rest : List VJob), (s.tile t).vq = .round a :: rest → a < 8 → t < 2048 → s.bufBase t a + 6144 ≤ 0x1F0000 →
    (s.flag (TSPBND_EMPTY0 t a) = true ∧ s.flag (TSPBND_EMPTY1 t a) = true ∨ (s.tile t).cleanRange (s.bufBase t a) 6144) →
    (∀ w, a * 1024 ≤ w → w < a * 1024 + 1024 → accBad ((s.tile t).accWord w) = false) →
    Gives (exec (.accRoundComplete t) s) fun u =>
      (u.tile t).vq = rest ∧ u.flag (TSPBND_BOUND t a) = false ∧ (∀ off, (u.tile t).code off = (s.tile t).code off)
        ∧ (∀ w, w < a * 1024 ∨ a * 1024 + 1024 ≤ w → (u.tile t).accWord w = (s.tile t).accWord w)
        ∧ (∀ r c n, r < 32 → c < 2 → n < 16 →
          let w := a * 1024 + r * 32 + 16 * c + n
          let e := e48F.decArray (ofLE ((s.tile t).bytesAt (s.bufBase t a + r * 192 + c * 96 + 6 * n) 6))
          (u.tile t).accWord w =
            if s.flag (bndEmpty t a c) then (s.tile t).accWord w
            else accCode (e48ToFp32 (if s.fld (bndCount t a c) = 0 then e48F.encArray e
              else e48Add e (fp32F.decArray (bitsOf ((s.tile t).accWord w).toNat 0 32)))))) ∧
  ((∀ (s : State) (t a src spn inc loc out tok idx : Nat) (rest : List VJob),
    (s.tile t).vq = .chain a src spn inc loc out tok idx false :: rest → 1 ≤ s.fld (TTOK_COUNT t tok) →
    Gives (exec (.chainTokenAcquire t) s) fun u =>
      u.fld (TTOK_COUNT t tok) = s.fld (TTOK_COUNT t tok) - 1 ∧ (u.tile t).vq = .chain a src spn inc loc out tok idx true :: rest
        ∧ s.sameMem u ∧ s.sameRegs u [aTTOK t tok]) ∧
  ∀ (s : State) (t a src spn inc loc out tok idx : Nat) (rest : List VJob),
    (s.tile t).vq = .chain a src spn inc loc out tok idx true :: rest → spn < 3 → s.flag (TFLIP_PEND t) = false →
    let n := if spn = 0 then 6144 else 3072
    let m := if src = 0 ∧ out = loc then 6144 else n
    out + m ≤ 0x1F0000 → (s.tile t).cleanRange inc n → (src = 0 → (s.tile t).cleanRange loc 6144) →
    (src ≠ 0 → ∀ w, a * 1024 ≤ w → w < a * 1024 + 1024 → accBad ((s.tile t).accWord w) = false) →
    Gives (exec (.chainAddComplete t) s) fun u =>
      (u.tile t).vq = rest ∧ (∀ off, off < out ∨ out + m ≤ off → (u.tile t).code off = (s.tile t).code off)
        ∧ (∀ w, (u.tile t).accWord w = (s.tile t).accWord w) ∧ s.sameRegs u [] ∧ s.sameTilesBut u t)

/-- R166, R168 to R171, R152: a VEC instruction that no hazard holds and whose operands are valid joins the vector datapath with its fields and the
registers captured at issue; with a count of 0 it does nothing; with an invalid operand it raises trap 2. R80, R112, R167: a plain FP32 element
instruction at the head of the datapath (ADD, MUL, FMA, MAX, MIN, CMP, SEL, EXP2, LOG2, RCP, RSQ, MOV) that completes leaves the queue and writes, for
each element, the operation's result on its operands, all read before any is written; only the destination's bytes change, and only VSTAT among the
registers. R424: PHX writes words of the Philox stream of its generator number in counter order, element i being word i of the stream at step TRNGSTEP
under GSEED. -/
def Obligations.VectorInstructions : Prop :=
  (∀ r ∈ vecRows, ∀ (s : State) (t : Nat) (b : BitVec 54), s.issues t 5 r.2 b (span 3 0) (vecRegs r.2 b) = true →
    let j := vecFields r.2 t b s
    s.vFree t j.rd j.wr → (s.tile t).noSpill →
    (j.invalid s t = false → j.n ≠ 0 → Gives (exec (r.1 t b) s) (queuesV t (.vec j) s)) ∧
    (j.invalid s t = false → j.n = 0 → Gives (exec (r.1 t b) s) fun u =>
      (u.tile t).vq = (s.tile t).vq ∧ movesOn t s u ∧ scalarFrame t [] [] [] s u) ∧
    (j.invalid s t = true → Gives (exec (r.1 t b) s) (trapsHere t 2 0 s))) ∧
  (∀ (s : State) (t : Nat) (j : VecJob) (rest : List VJob), (s.tile t).vq = .vec j :: rest → j.fuse = none → j.skw = false →
    j.fi = 0 → j.fo = 0 → j.op ∈ [0, 1, 2, 3, 4, 5, 6, 8, 9, 0xA, 0xB, 0x10] → s.flag (TFLIP_PEND t) = false →
    (s.tile t).cleanRange j.aA (4 * j.n) → (j.readsB = true → (s.tile t).cleanRange j.aB (4 * j.n)) →
    (j.op = 2 ∨ j.op = 6 → (s.tile t).cleanRange j.aC (4 * j.n)) → j.aD + 4 * j.n ≤ 0x1F0000 →
    Gives (exec (.vectorComplete t) s) fun u =>
      (u.tile t).vq = rest ∧
      (∀ i < j.n, (u.tile t).holds (j.aD + 4 * i) 4 ((j.elem i ((s.tile t).elemAt j.aA 4 i, false)
        (if j.readsB then (s.tile t).elemAt j.aB 4 i else 0, false)
        (if j.op = 2 ∨ j.op = 6 then (s.tile t).elemAt j.aC 4 i else 0, false)).v % 2 ^ 32) = true) ∧
      (∀ off, off < j.aD ∨ j.aD + 4 * j.n ≤ off → (u.tile t).code off = (s.tile t).code off) ∧
      (∀ w, (u.tile t).accWord w = (s.tile t).accWord w) ∧ s.sameTilesBut u t ∧ s.sameRegs u [aVSTAT t]) ∧
  (∀ (s : State) (t : Nat) (j : VecJob) (rest : List VJob), (s.tile t).vq = .vec j :: rest → j.fuse = none → j.skw = false →
    j.op = 0xE → j.fo = 0 → s.flag (TFLIP_PEND t) = false → j.aD + 4 * j.n ≤ 0x1F0000 →
    Gives (exec (.vectorComplete t) s) fun u =>
      (∀ i < j.n, (u.tile t).holds (j.aD + 4 * i) 4 (phxWord j.seed.toNat j.step j.gen.toNat i % 2 ^ 32) = true) ∧
      (∀ off, off < j.aD ∨ j.aD + 4 * j.n ≤ off → (u.tile t).code off = (s.tile t).code off) ∧ s.sameRegs u [])

/-- R172, R173: SM.SUB reads its 32-byte descriptor when it issues, and one whose source is on this device joins the tile's outstanding descriptors with
its token; a descriptor address outside scratch and the accumulator file raises trap 2. R173, R175: a plain copy between tile windows of this device
that passes its checks writes its rows one after the other from DST, reading every row before it writes; it leaves the list, its token rises by one,
and no other byte of memory changes. R175, Table 5.15, Table 6.9: a transfer refused for its descriptor (6), a permission (7) or the stack granule (2)
writes nothing: TSMERR, TSMSTAT and a report of type 0x06 record it, and its own token still rises. R205, R206, R207, R219: a wanted line is fetched
whole from its stack and kept, counted as one burst, and as a miss when a transfer waits for it; a read that finds its line takes the bytes from it
and counts a hit, but for the read it was filled for; one that finds an uncorrectable byte there fetches the line again, which counts one correctable
error (R208); STREAM_CACHE_INVALIDATE drops every line and nothing else. -/
def Obligations.StreamMoverAndCache : Prop :=
  (∀ r ∈ moverRows, ∀ (s : State) (t : Nat) (b : BitVec 54), s.issues t 6 0 b (rsvOut [(49, 46), (45, 41)]) [] = true →
    let off := ((s.tile t).areg (fb b 46 4)).toNat
    let x := s.xferAt t off (fb b 41 5)
    (s.opRange t off 32 = true → off < 0x200000 → (s.tile t).cleanRange off 32 → r.2 x.kind = true → s.isLocal x.src = true →
      (s.tile t).xfers.length < 16 → s.trackerFull t = false → s.rangeHold t (⟨off, 32⟩ :: x.rd) x.wr = false →
      Gives (exec (r.1 t b) s) fun u => (u.tile t).xfers = (s.tile t).xfers ++ [x] ∧ movesOn t s u ∧ scalarFrame t [] [] [] s u) ∧
    (s.opRange t off 32 = false → Gives (exec (r.1 t b) s) (trapsHere t 2 0 s))) ∧
  (∀ (s : State) (t k : Nat) (x : Xfer), (s.tile t).xfers[k]? = some x → (s.tile t).xferWaits k x = false → x.sent = false → x.early s t = 0 → x.kind = 0 → x.dtken = false →
    s.isLocal x.src = true → s.isLocal x.dst = true → inTileWindow x.dst = true → winOff x.dst + x.rows * x.rlen ≤ 0x1F0000 →
    (s.tile (winTile x.dst)).marking = false → s.flag (TFLIP_PEND (winTile x.dst)) = false → x.tok < 32 → s.fld (TTOK_COUNT t x.tok) < 65535 →
    (∀ r < x.rows, 0x8000000000 ≤ addrDev (x.src + r * x.sstride) ∧ s.isLocal ((x.src + r * x.sstride) % 2 ^ 64) = true ∧ x.src + r * x.sstride < 2 ^ 64
      ∧ (s.tile (winTile (x.src + r * x.sstride))).cleanRange (winOff (x.src + r * x.sstride)) x.rlen) →
    Gives (exec (.transferComplete t k) s) fun u =>
      (∀ r < x.rows, ∀ i < x.rlen, (u.tile (winTile x.dst)).classOf (winOff x.dst + r * x.rlen + i)
        = .good (((s.tile (winTile (x.src + r * x.sstride))).classOf (winOff (x.src + r * x.sstride) + i)).value.1 % 256)) ∧
      (∀ j off, (j = winTile x.dst → off < winOff x.dst ∨ winOff x.dst + x.rows * x.rlen ≤ off) → (u.tile j).code off = (s.tile j).code off) ∧
      (∀ j w, (u.tile j).accWord w = (s.tile j).accWord w) ∧ (∀ a, u.stkByte a = s.stkByte a ∧ u.markOf a = s.markOf a) ∧
      (u.tile t).xfers = (s.tile t).xfers.eraseIdx k ∧ u.fld (TTOK_COUNT t x.tok) = s.fld (TTOK_COUNT t x.tok) + 1 ∧
      s.sameRegs u [aTTOK t x.tok] ∧ u.reports = s.reports) ∧
  (∀ (s : State) (t k : Nat) (x : Xfer), t < 2048 → (s.tile t).xfers[k]? = some x → (s.tile t).xferWaits k x = false → x.sent = false → x.tok < 32 →
    (x.early s t = 6 ∨ x.early s t = 7 ∨ x.early s t = 2) →
    Gives (exec (.transferComplete t k) s) fun u =>
      s.sameMem u ∧ (u.tile t).xfers = (s.tile t).xfers.eraseIdx k ∧ s.sameTilesBut u t
        ∧ u.fld (TSMSTAT_CODE t) = x.early s t ∧ u.fld (TSMSTAT_TOKEN t) = x.tok ∧ bitOf (u.fld (TSMERR_ERR t)) x.tok = true
        ∧ u.reports = s.reports ++ [⟨halfOfTile t, 0x06, 1, srcOf 0 t, x.dst, x.early s t + 16 * x.tok, s.now⟩]
        ∧ u.fld (TTOK_COUNT t x.tok) = min 65535 (s.fld (TTOK_COUNT t x.tok) + 1)
        ∧ s.sameRegs u [aTSMERR t, aTSMSTAT t, aTTOK t x.tok, aTSQSTAT t]) ∧
  ((∀ (s : State) (t a : Nat), t < 2048 → a % 2048 = 0 → a < 0x8000000000 → s.scn t ≠ 0 → s.lineWanted t a = true →
    (∀ k < 64, s.markOf (a + 32 * k) = 0 ∧ s.chanFailed (a / 0x1000000000) ((a + 32 * k) % 0x1000000000) = false) →
    Gives (exec (.lineFill t a) s) fun u =>
      (u.tile t).lineAt a = some ⟨a, (List.range 2048).map fun i => codeWord (s.stkByte (a + i)) 0, s.lineDemand t a⟩ ∧ s.sameMem u ∧ s.sameTilesBut u t
        ∧ (∀ l ∈ (u.tile t).lines, l.addr = a ∨ l ∈ (s.tile t).lines)
        ∧ u.fld (SBURST_BURSTS (a / 0x1000000000)) = min (2 ^ 32 - 1) (s.fld (SBURST_BURSTS (a / 0x1000000000)) + 1)
        ∧ u.fld (TSCCNT_MISSES t) = (if s.lineDemand t a then min (2 ^ 32 - 1) (s.fld (TSCCNT_MISSES t) + 1) else s.fld (TSCCNT_MISSES t))
        ∧ s.sameRegs u [aSBURST (a / 0x1000000000), aTSCCNT t] ∧ s.sameRest u) ∧
  (∀ (s : State) (t a lo n : Nat) (l : CLine), t < 2048 → (s.tile t).lineAt a = some l →
    (l.due = false → anyPois (l.read lo n) = true → a < 0x8000000000 →
      (∀ k < 64, s.markOf (a + 32 * k) = 0 ∧ s.chanFailed (a / 0x1000000000) ((a + 32 * k) % 0x1000000000) = false) → a % 2048 = 0 →
      let u := (s.cacheRead t a lo n).2
      (s.cacheRead t a lo n).1 = (((List.range 2048).map fun i => (s.stkByte (a + i), false)).drop lo).take n ∧
        u.fld (TECCCNT_CE t) = min (2 ^ (TECCCNT_CE t).w - 1) (s.fld (TECCCNT_CE t) + 1) ∧
        (u.tile t).lineAt a = some ⟨a, (List.range 2048).map fun i => codeWord (s.stkByte (a + i)) 0, false⟩ ∧ s.sameMem u) ∧
    ((∀ c ∈ l.classes lo n, ∃ v, c = .good v) → (s.cacheRead t a lo n).1 = l.read lo n ∧
    let u := (s.cacheRead t a lo n).2
    u.fld (TSCCNT_HITS t) = (if l.due then s.fld (TSCCNT_HITS t) else min (2 ^ 32 - 1) (s.fld (TSCCNT_HITS t) + 1))
      ∧ (u.tile t).lineAt a = some { l with due := false } ∧ s.sameMem u ∧ s.sameTilesBut u t ∧ s.sameRegs u [aTSCCNT t])) ∧
  ∀ (s : State) (t : Nat),
    Gives (exec (.streamCacheInvalidate t) s) fun u =>
      (u.tile t).lines = [] ∧ scalarFrame t [] [] [] s u ∧ u.pc t = s.pc t ∧ (u.tile t).xfers = (s.tile t).xfers ∧ (u.tile t).pf = (s.tile t).pf)

/-- R146, R193, R457, R530: RUN starts an IDLE or HALTED tile of a partition at START with its registers kept, or waits while the device is halted; STOP
stops a tile that has not trapped, abandoning its wait, with code 0xFFFF. R202, R212: a marking that ends leaves every byte of the bank reading as the
unwritten marker, and takes writes again; arming the checker test stores the target and masks, and the next write of the armed byte by a store of one
byte is stored with those bits changed. -/
def Obligations.TilesStartStopAndMark : Prop :=
  ((∀ (s : State) (t start : Nat), t < 2048 → start < 8192 → (s.fld (TSQSTAT_STATE t) = stIdle ∨ s.fld (TSQSTAT_STATE t) = stHalted) →
    (s.partOfTile t).isSome = true → (s.tile t).marking = false →
    (s.frozen = false →
      Gives (exec (.tsqctlRun t start) s) fun u =>
        u.fld (TSQSTAT_STATE t) = stRunning ∧ u.pc t = start ∧ (u.tile t) = s.tile t ∧ s.sameMem u ∧ s.sameTilesBut u t) ∧
    (s.frozen = true →
      Gives (exec (.tsqctlRun t start) s) fun u =>
        u.fld (TSQSTAT_STATE t) = s.fld (TSQSTAT_STATE t) ∧ u.halt.runs = s.halt.runs ++ [(t, start)] ∧ (u.tile t) = s.tile t
          ∧ s.sameRegs u [aTSQCTL t])) ∧
  ∀ (s : State) (t : Nat), t < 2048 → s.fld (TSQSTAT_STATE t) ≠ stTrapped → (s.tile t).trap = none → (s.tile t).marking = false →
    Gives (exec (.tsqctlStop t) s) fun u =>
      u.fld (TSQSTAT_STATE t) = stHalted ∧ u.fld (TSQSTAT_HCODE t) = 0xFFFF ∧ u.pc t = s.pc t ∧ (u.tile t).wait = none
        ∧ (u.tile t).held = none ∧ sameWork t s u) ∧
  ((∀ (s : State) (t : Nat), (s.tile t).marking = true → s.boot ≠ .hold →
    Gives (exec (.markingDone t) s) fun u =>
      (u.tile t).marking = false ∧ (∀ off, (u.tile t).classOf off = .unwritten) ∧ (∀ w, (u.tile t).accWord w = (s.tile t).accWord w)
        ∧ s.sameRegs u [] ∧ s.sameTilesBut u t) ∧
  (∀ (s : State) (t : Nat) (v : BitVec 64), t < 2048 → (s.tile t).marking = false →
    Gives (exec (.tflipArm t v) s) fun u =>
      u.fld (TFLIP_ADDR t) = bitsOf v.toNat 0 21 ∧ u.fld (TFLIP_DMASK t) = bitsOf v.toNat 21 8 ∧ u.fld (TFLIP_CMASK t) = bitsOf v.toNat 29 5
        ∧ (bitOf v.toNat 34 = true → u.flag (TFLIP_PEND t) = true) ∧ (bitOf v.toNat 34 = false → u.flag (TFLIP_PEND t) = s.flag (TFLIP_PEND t))
        ∧ s.sameRegs u [aTFLIP t] ∧ ∀ k, u.tile k = s.tile k) ∧
  ∀ (s : State) (t off v : Nat), v < 256 → off < s.scBase t ∨ 0x1F0000 ≤ off → s.flag (TFLIP_PEND t) = true → s.fld (TFLIP_ADDR t) = off →
    let u := s.bankPut t off (v, false)
    (u.tile t).code off = some (codeWord v 0 ^^^ BitVec.ofNat 13 (s.fld (TFLIP_DMASK t) + 256 * s.fld (TFLIP_CMASK t)))
      ∧ u.flag (TFLIP_PEND t) = false ∧ ∀ o, o ≠ off → (u.tile t).code o = (s.tile t).code o)

/-- R178: a SYNC instruction that waits issues, and the tile waits with the index of the instruction: while it does the tile cannot issue. TOK.ADD adds to
its token and TOK.RD reads one without waiting. R151, R178, R188, R193: a wait ends when its event finds its condition true, TOK.WAIT taking its count
from the token and FENCE.I discarding every word a fetch might still return; while the condition is false the event changes nothing. R165, R174, R184:
an expired wait timeout raises cause 7: precise for FENCE.G and TOK.WAIT, which are then over, and for an instruction held for a register; imprecise
for an ACC.CHAIN that waits for its token, which leaves the datapath; behind a trap already found its own is not recorded. -/
def Obligations.WaitsOfATile : Prop :=
  ((∀ r ∈ waitRows, ∀ (s : State) (t : Nat) (b : BitVec 54), s.issues t 7 r.2.1 b r.2.2.1 (r.2.2.2.1 b) = true →
    Gives (exec (r.1 t b) s) fun u =>
      (u.tile t).wait = some ⟨r.2.2.2.2 (s.tile t) b, s.pc t⟩ ∧ u.canIssue t = false ∧ movesOn t s u ∧ scalarFrame t [] [] [] s u) ∧
  (∀ (s : State) (t : Nat) (b : BitVec 54), s.issues t 7 3 b (rsvOut [(49, 45), (15, 0)]) [] = true →
    Gives (exec (.tokAdd t b) s) fun u =>
      u.fld (TTOK_COUNT t (fb b 45 5)) = min 65535 (s.fld (TTOK_COUNT t (fb b 45 5)) + fb b 0 16)
        ∧ (65535 < s.fld (TTOK_COUNT t (fb b 45 5)) + fb b 0 16 → u.flag (TSQSTAT_TOKOVF t) = true)
        ∧ movesOn t s u ∧ sameWork t s u ∧ s.sameRegs u [aTSQSTAT t, aTTOK t (fb b 45 5)]) ∧
  ∀ (s : State) (t : Nat) (b : BitVec 54), s.issues t 7 4 b (rsvOut [(49, 45), (44, 40)]) [fb b 40 5] = true →
    Gives (exec (.tokRd t b) s) fun u =>
      (u.tile t).sreg (fb b 40 5) = BitVec.ofNat 64 (s.fld (TTOK_COUNT t (fb b 45 5))) ∧ movesOn t s u ∧ scalarFrame t [fb b 40 5] [] [] s u) ∧
  (∀ (s : State) (t i : Nat) (w : Wait), (s.tile t).wait = some ⟨w, i⟩ → s.tileLive t = true → s.frozen = false →
    (s.waitOver t w = true → (w = .fenceG → (s.tile t).posted = []) →
      Gives (exec (releaseOf t w) s) fun u =>
        (u.tile t).wait = none ∧ sameWork t s u ∧ u.pc t = s.pc t ∧
        match w with
        | .tok k n => u.fld (TTOK_COUNT t k) + n = s.fld (TTOK_COUNT t k) ∧ s.sameRegs u [aTTOK t k]
        | .fenceI => (u.tile t).olds = [] ∧ s.sameRegs u []
        | _ => (u.tile t).olds = (s.tile t).olds ∧ s.sameRegs u []) ∧
    (s.waitOver t w = false → exec (releaseOf t w) s = .next s)) ∧
  ((∀ (s : State) (t i : Nat) (w : Wait), (w = .fenceG ∨ ∃ k n, w = .tok k n) → (s.tile t).wait = some ⟨w, i⟩ → (s.tile t).trap = none →
    s.tileLive t = true → s.waitOver t w = false →
    Gives (exec (.waitTimeout t false) s) fun u =>
      (u.tile t).wait = none ∧ (u.tile t).trap = some ⟨7, false, i, 0, i⟩ ∧ sameWork t s u ∧ s.sameRegs u []) ∧
  (∀ (s : State) (t i : Nat) (rs : List Nat), (s.tile t).wait = none → (s.tile t).held = some ⟨i, .regs rs⟩ → (s.tile t).trap = none →
    s.tileLive t = true → (∃ r ∈ rs, r ∈ (s.tile t).opRegs) →
    Gives (exec (.waitTimeout t false) s) fun u => (u.tile t).trap = some ⟨7, false, i, 0, i⟩ ∧ sameWork t s u ∧ s.sameRegs u []) ∧
  ∀ (s : State) (t a src spn inc loc out tok idx : Nat) (rest : List VJob),
    (s.tile t).vq = .chain a src spn inc loc out tok idx false :: rest → s.tileLive t = true → s.fld (TTOK_COUNT t tok) = 0 →
    Gives (exec (.waitTimeout t true) s) fun u =>
      (u.tile t).vq = rest ∧ (u.tile t).trap = some ((s.tile t).trap.getD ⟨7, true, idx, 0, s.pc t⟩) ∧ sameWork t s u ∧ s.sameRegs u [])

/-- R179, R285, R287: SIG.BAR and SIG.RED on a group the tile may use join the group's operation, or open it, and while members or children are still due
nothing else happens; on an unknown group, or one the tile is not in, the imprecise signal trap (cause 11) is found and the instruction has issued. -/
def Obligations.SignalInstructionsIssue : Prop :=
  ∀ r ∈ ([(.sigBar, 0, rsvOut [(49, 45), (44, 40)], fun b => [fb b 45 5, fb b 40 5], fun _ => (true, 0, false), fun _ _ => 0),
      (.sigRed, 1, rsvOut [(49, 45), (44, 40), (39, 35), (34, 32), (31, 31)], fun b => [fb b 45 5, fb b 40 5, fb b 35 5],
        fun b => (false, fb b 32 3, fb1 b 31), fun x b => (x.sreg (fb b 35 5)).toNat)] :
      List ((Nat → BitVec 54 → Instr) × Nat × Nat × (BitVec 54 → List Nat) × (BitVec 54 → Bool × Nat × Bool) × (Tile → BitVec 54 → Nat))),
    ∀ (s : State) (t : Nat) (b : BitVec 54), s.issues t 8 r.2.1 b r.2.2.1 (r.2.2.2.1 b) = true → (s.tile t).sig = none → (s.tile t).mbx = none →
    s.collWait = [] →
    let g := ((s.tile t).sreg (fb b 45 5)).toNat
    let f := r.2.2.2.2.1 b
    let v := r.2.2.2.2.2 (s.tile t) b
    let p := s.pendOr g f.1 f.2.1 f.2.2
    ¬(f.2.1 = 5 ∧ f.2.2 = true ∧ f.1 = false) →
    (s.sigOk t g = true → p.agrees f.1 f.2.1 f.2.2 = true → ((p.joined t v s.detm).localIn && (p.joined t v s.detm).kidsIn) = false →
      (s.grp g).held = [] →
      Gives (exec (r.1 t b) s) fun u =>
        (u.tile t).sig = some ⟨g, f.1, f.2.1, f.2.2, fb b 40 5, s.pc t⟩ ∧ (u.grp g).pend = some (p.joined t v s.detm)
          ∧ (u.grp g).gen = (s.grp g).gen ∧ movesOn t s u ∧ sameWork t s u ∧ s.sameRegs u [aTSQSTAT t] ∧ u.sent = s.sent) ∧
    (s.sigOk t g = false → s.sigOkBy (s.grpRec g) t g = false →
      Gives (exec (r.1 t b) s) fun u =>
        (u.tile t).trap = some ⟨11, true, s.pc t, 0, s.pc t⟩ ∧ (u.tile t).sig = none ∧ movesOn t s u ∧ sameWork t s u)

/-- R287: an UP record of the pending generation is entered; at the root, once every member and child is in, the operation ends with the combination, and
elsewhere it waits with its own UP sent. A DOWN record ends it with the record's value. R291, Table 9.16: an abandoned operation (by a record of its
generation or by the signal timeout) ends without a result: every waiting member tile finds the imprecise signal trap (cause 11), GEN rises,
FCOLLATE.ABNDN counts it and type 0x51 is reported. -/
def Obligations.SignalOperationsEnd : Prop :=
  ((∀ (s : State) (src : Nat) (r : List Nat) (p : SigPend), rPhase r = 0 → s.takes r p → s.recDue src r → s.collWait = [] →
    let p' := p.withKid src (rVal r)
    ((p'.up || !(p'.localIn && p'.kidsIn)) = true →
      Gives (exec (.upRecord src r) s) fun u =>
        (u.grp (rGid r)).pend = some p' ∧ (u.grp (rGid r)).gen = (s.grp (rGid r)).gen ∧ (∀ t, u.tile t = s.tile t) ∧ s.sameRegs u []) ∧
    (p'.up = false → p'.localIn = true → p'.kidsIn = true → gRoot p.rec_ = false →
      Gives (exec (.upRecord src r) s) fun u =>
        (u.grp (rGid r)).pend = some { p' with up := true } ∧ (∀ t, u.tile t = s.tile t) ∧ s.sameRegs u []) ∧
    (p'.up = false → p'.localIn = true → p'.kidsIn = true → gRoot p.rec_ = true →
      Gives (exec (.upRecord src r) s) (sigEnded (rGid r) p' (p'.combine s.detm) s))) ∧
  ∀ (s : State) (src : Nat) (r : List Nat) (p : SigPend), rPhase r = 1 → s.takes r p → s.recDue src r → s.collWait = [] →
    Gives (exec (.downRecord src r) s) (sigEnded (rGid r) p (rVal r) s)) ∧
  (∀ (s : State) (g : Nat) (p : SigPend) (c : Instr), (s.grp g).pend = some p → (s.grp g).held = [] → s.collWait = [] →
    (c = .signalTimeout g ∨ ∃ src r, c = .abandonRecord src r ∧ s.recDue src r ∧ rPhase r = 2 ∧ rCid r = 0 ∧ rGid r = g ∧ rGen r = (s.grp g).gen) →
    Gives (exec c s) fun u =>
      (∀ t ∈ p.vals.map (·.1), ∀ o, (s.tile t).sig = some o → (s.tile t).trap = none →
        (u.tile t).sig = none ∧ (u.tile t).trap = some ⟨11, true, o.idx, 0, s.pc t⟩ ∧ (s.tile t).sameS (u.tile t) []) ∧
      (∀ t, t ∉ p.vals.map (·.1) → u.tile t = s.tile t) ∧
      (u.grp g).gen = ((s.grp g).gen + 1) % 65536 ∧ (u.grp g).pend = none ∧ s.sameMem u ∧
      u.fld FCOLLATE_ABNDN = min (2 ^ FCOLLATE_ABNDN.w - 1) (s.fld FCOLLATE_ABNDN + 1) ∧ s.sameRegs u [aFCOLLATE] ∧
      ⟨s.primHalf, 0x51, 1, srcOf 6 (s.primHalf * 16), 0, g + (s.grp g).gen * 256, s.now⟩ ∈ u.reports)

/-- R179, R288: on integers of width w the combination of any values is their sum modulo 2^w, their smallest and their largest, whatever order they are
taken in. -/
def Obligations.SignalCombinationIsOrderFree : Prop :=
  ∀ (w64 : Bool) (v : Nat) (vs ws : List Nat), (v :: vs).Perm ws → (∀ x ∈ ws, x < 2 ^ (if w64 then 64 else 32)) →
    (∀ opk, opk < 8 → opk ≠ 5 → sigFold opk w64 (v :: vs) = sigFold opk w64 ws) ∧
    sigFold 2 w64 ws = ws.sum % 2 ^ (if w64 then 64 else 32) ∧ (∀ x ∈ ws, sigFold 6 w64 ws ≤ x) ∧ (∀ x ∈ ws, x ≤ sigFold 7 w64 ws)

/-- R179, R180: a mailbox instruction on a mailbox word of this device issues and stands as the tile's one operation; its result is performed at the word,
and sD takes the word's old value (a store writes no register); a store to an address that is no mailbox of this device raises the precise address
trap, the others the imprecise one when their result is due. The answer of another device gives sD the word's old value. -/
def Obligations.MailboxOperations : Prop :=
  (∀ r ∈ mbxRows, ∀ (s : State) (t : Nat) (b : BitVec 54), s.issues t 8 r.2.1 b r.2.2.2.1 (r.2.2.2.2.1 b) = true →
    (s.tile t).sig = none → s.mboxPend t = false →
    let a := ((s.tile t).areg (fb b 46 4)).toNat
    let f := r.2.2.2.2.2 (s.tile t) b
    s.isLocal a = true →
    (s.tileMay t a 8 = true → (mboxAt (addrDev a)).isSome = true →
      Gives (exec (r.1 t b) s) fun u =>
        (u.tile t).mbx = some ⟨r.2.2.1, a, f.1, f.2.1, f.2.2, s.pc t, false, none⟩ ∧ movesOn t s u ∧ scalarFrame t [] [] [] s u) ∧
    ((s.tileMay t a 8 = false ∨ mboxAt (addrDev a) = none) →
      (r.2.2.1 = 0 → Gives (exec (r.1 t b) s) (trapsHere t 3 0 s)) ∧
      (r.2.2.1 ≠ 0 → Gives (exec (r.1 t b) s) fun u => (∃ m, (u.tile t).mbx = some m ∧ m.bad = true ∧ m.idx = s.pc t)
        ∧ movesOn t s u ∧ scalarFrame t [] [] [] s u))) ∧
  (∀ (s : State) (t k i : Nat) (m : MbxOp), (s.tile t).mbx = some m → m.rid = none → m.bad = false → mboxAt (addrDev m.addr) = some (k, i) →
    (m.op = 1 ∨ (s.tile k).marking = false) →
    Gives (exec (.mailboxResult t) s) fun u =>
      u.reg (aTMBX k i) = mbxNew m.op (s.reg (aTMBX k i)) m.sv m.cv ∧ (u.tile t).mbx = none
        ∧ (m.op = 0 → (s.tile t).sameS (u.tile t) [])
        ∧ (m.op ≠ 0 → (u.tile t).sreg m.sd = s.reg (aTMBX k i) ∧ (s.tile t).sameS (u.tile t) [m.sd])
        ∧ s.sameRegs u [aTMBX k i] ∧ s.sameMem u ∧ s.sameTilesBut u t) ∧
  (∀ (s : State) (t : Nat) (m : MbxOp), (s.tile t).mbx = some m → m.bad = true → (s.tile t).trap = none →
    Gives (exec (.mailboxResult t) s) fun u =>
      (u.tile t).mbx = none ∧ (u.tile t).trap = some ⟨3, true, m.idx, 0, s.pc t⟩ ∧ sameWork t s u ∧ s.sameRegs u []) ∧
  (∀ (s : State) (t id : Nat) (m : MbxOp) (q : FarRead), (s.tile t).mbx = some m → m.bad = false → m.rid = some id → m.op ≠ 0 →
    s.readOf id = some q → q.st = 1 → q.cst = 0 →
    Gives (exec (.mailboxResult t) s) fun u =>
      (u.tile t).mbx = none ∧ (u.tile t).sreg m.sd = BitVec.ofNat 64 (valOf q.bytes) ∧ (s.tile t).sameS (u.tile t) [m.sd] ∧ s.sameRegs u []
        ∧ s.sameMem u ∧ s.sameTilesBut u t) ∧
  ∀ (s : State) (t i : Nat) (w : Bool) (v : BitVec 64), t < 2048 → i < 16 → (w = true → (s.tile t).marking = false) →
    Gives (exec (.mailboxAccess t i w v) s) fun u =>
      u.reg (aTMBX t i) = (if w then v else s.reg (aTMBX t i)) ∧ s.sameRegs u [aTMBX t i] ∧ (∀ k, u.tile k = s.tile k)

/-- R181: a fused prefix issues with its descriptor's offset and stands before the next instruction; before one that takes no prefix it is the
invalid-instruction trap (said of NOP). R182, R342, R347: DISP.CNT writes the counts to sD and changes nothing else; DISP.END ends its slot's current
batch, so that the next send begins another; DISP.SEND of n rows numbers them on in the slot; a stream or slot that is not the tile's raises trap 2. -/
def Obligations.DispatchAndFusedInstructions : Prop :=
  ((∀ r ∈ ([(.fuseCirc, 0), (.fuseDisp, 1)] : List ((Nat → BitVec 54 → Instr) × Nat)), ∀ (s : State) (t : Nat) (b : BitVec 54),
    s.issues t 9 r.2 b (2 ^ 54 - 1 - span 49 46) [] = true →
    Gives (exec (r.1 t b) s) fun u =>
      (∃ p, (u.tile t).fuse = some p ∧ p.off = ((s.tile t).areg (fb b 46 4)).toNat
        ∧ (s.pc t ≠ 8191 → (∃ c, s.cfgOfTile t = some c ∧ c.implicit = true) → p.kind = r.2))
        ∧ movesOn t s u ∧ scalarFrame t [] [] [] s u) ∧
  ∀ (s : State) (t : Nat) (b : BitVec 54) (p : FusePfx), s.canIssue t = true → (s.tile t).wordIs (s.pc t) (rowWord 0 0 b) = true →
    b.toNat &&& rsvOut [] = 0 → (s.tile t).fuse = some p → Gives (exec (.nop t b) s) (trapsHere t 1 0 s)) ∧
  ((∀ (s : State) (t : Nat) (b : BitVec 54), s.issues t 10 2 b (rsvOut [(49, 45), (36, 32)]) [fb b 45 5, fb b 32 5] = true →
    (∀ v, s.dispCnt t ((s.tile t).sreg (fb b 32 5)).toNat = some v →
      Gives (exec (.dispCnt t b) s) fun u => (u.tile t).sreg (fb b 45 5) = v ∧ movesOn t s u ∧ scalarFrame t [fb b 45 5] [] [] s u) ∧
    (s.dispCnt t ((s.tile t).sreg (fb b 32 5)).toNat = none → Gives (exec (.dispCnt t b) s) (trapsHere t 2 0 s))) ∧
  (∀ (s : State) (t : Nat) (b : BitVec 54), s.issues t 10 1 b (rsvOut [(36, 32)]) [fb b 32 5] = true → (s.tile t).disp.length < 5 →
    let q := bitsOf ((s.tile t).sreg (fb b 32 5)).toNat 0 6
    (∀ j, srValid (s.srOf q) = true → s.srCtxIs q (s.ctxOfTile t) = true → srSlotOf (s.srOf q) t = some j →
      Gives (exec (.dispEnd t b) s) fun u =>
        ((u.stream q).slot j).cur = ((s.stream q).slot j).cur + 1 ∧ ((u.stream q).slot j).used = []
          ∧ (((u.stream q).slot j).batch ((s.stream q).slot j).cur).ending = true ∧ movesOn t s u ∧ sameWork t s u) ∧
    (srValid (s.srOf q) = false ∨ s.srCtxIs q (s.ctxOfTile t) = false ∨ srSlotOf (s.srOf q) t = none →
      Gives (exec (.dispEnd t b) s) (trapsHere t 2 0 s))) ∧
  ∀ (s : State) (t : Nat) (b : BitVec 54), s.issues t 10 0 b (span 28 0) [fb b 37 5, fb b 32 5] = true →
    let q := bitsOf ((s.tile t).sreg (fb b 32 5)).toNat 0 6
    let n := bitsOf ((s.tile t).sreg (fb b 37 5)).toNat 0 16
    let aR := ((s.tile t).areg (fb b 46 4)).toNat
    let aI := ((s.tile t).areg (fb b 42 4)).toNat
    (∀ j, s.sendOk t q (some (fb b 29 3)) = some j → (s.tile t).disp.length < 5 → s.trackerFull t = false →
      s.rangeHold t (s.ownRng t aR (n * srRowb (s.srOf q)) ++ s.ownRng t aI (n * srK (s.srOf q)))
        (s.rwRngs t (s.srOf q) ((srTbase (s.srOf q) j + ((s.stream q).slot j).rows) % 65536) n) = false →
      Gives (exec (.dispSend t b) s) fun u =>
        ((u.stream q).slot j).rows = ((s.stream q).slot j).rows + n ∧ ((u.stream q).slot j).cur = ((s.stream q).slot j).cur
          ∧ movesOn t s u ∧ (s.tile t).sameS (u.tile t) [] ∧ (s.tile t).sameA (u.tile t) [] ∧ (s.tile t).sameP (u.tile t) []) ∧
    (s.sendOk t q (some (fb b 29 3)) = none → Gives (exec (.dispSend t b) s) (trapsHere t 2 0 s)))

/-- R293, R304, R306: a descriptor submitted by the host, read without poison and accepted (status 0), is in flight afterwards under its CID,
FCOLSTAT.ACTIVE counts it, and every collective in flight before still is; of PERMUTE it is said while another member of its barrier is still due.
R299, R307, R308, Table 9.6: a collective with nothing left due ends: it is no longer in flight, and a record in a tile's bank takes its CID and
status. One that still waits when its time runs out, or that a record of another member abandons, ends too, its CID is remembered as abandoned and
FCOLLATE.ABNDN counts it. R295, R296, R306, R307: a packet or a pre-round record of a CID that is not in flight is held for its submission, up to 16
packets; of an abandoned one it is late and counted. R310: ADOPT on a device marked reserve, by PF 0 or firmware, gives it the new rank, clears the
mark and reports type 0x55; on any other device, or by any other context, nothing changes. -/
def Obligations.CollectivesStartAndEnd : Prop :=
  (∀ r ∈ ([(.circ, 1), (.agather, 2), (.bcast, 3), (.permute, 4)] : List ((Nat → Nat → Bool → Instr) × Nat)), ∀ (s : State) (c a : Nat), s.colls.length < 16 → s.ctxMay c a 128 = true → s.isMem (addrDev a) 128 = true →
    (s.collRead a 128).2 = s → anyPois (s.collRead a 128).1 = false →
    let d := (s.collRead a 128).1.map (·.1)
    cdOpc d = r.2 → s.cdStatus c 0 d = 0 → s.noneHeld (cdCid d) → s.stripesUp d →
    (r.2 = 4 → (s.grp (cdGid d)).pend = none ∧ (s.grp (cdGid d)).held = [] ∧ gKids (s.grpRec (cdGid d)) ≠ []) →
    Gives (exec (r.1 c a true) s) fun u =>
      (∃ x, u.collOf (cdCid d) = some x ∧ x.desc = d ∧ x.ctx = c) ∧ (∀ y ∈ s.colls, u.collOf y.cid = s.collOf y.cid)
        ∧ u.fld FCOLSTAT_ACTIVE = s.colls.length + 1) ∧
  ((∀ (s : State) (x : Coll), s.collOf x.cid = some x → x.done = true → s.collWait = [] → s.colls.length < 32 → x.cid < 65536 →
    s.isLocal (cdCrec x.desc) = true → inTileWindow (cdCrec x.desc) = true → s.isMem (addrDev (cdCrec x.desc)) 32 = true →
    winOff (cdCrec x.desc) + 32 ≤ 0x1F0000 → s.flag (TFLIP_PEND (winTile (cdCrec x.desc))) = false →
    s.ctxMay x.ctx (cdCrec x.desc) 32 = true → (s.tile (winTile (cdCrec x.desc))).marking = false →
    Gives (exec (.collectiveComplete x.cid) s) fun u =>
      u.collOf x.cid = none ∧ (∀ y, y ≠ x.cid → u.collOf y = s.collOf y) ∧ u.fld FCOLSTAT_ACTIVE = u.colls.length
        ∧ (u.tile (winTile (cdCrec x.desc))).holds (winOff (cdCrec x.desc)) 2 x.cid = true
        ∧ (u.tile (winTile (cdCrec x.desc))).holds (winOff (cdCrec x.desc) + 2) 1 x.status = true) ∧
  ∀ (s : State) (x : Coll) (c : Instr), s.collOf x.cid = some x → s.collWait = [] →
    (c = .collectiveTimeout x.cid ∧ x.done = false ∨ ∃ src r, c = .abandonRecord src r ∧ s.recDue src r ∧ rPhase r = 2 ∧ rCid r = x.cid ∧ x.cid ≠ 0) →
    Gives (exec c s) fun u =>
      u.collOf x.cid = none ∧ (∀ y, y ≠ x.cid → u.collOf y = s.collOf y) ∧ isDead u.collDead x.cid = true
        ∧ u.fld FCOLLATE_ABNDN = min (2 ^ 32 - 1) (s.fld FCOLLATE_ABNDN + 1)) ∧
  ((∀ (s : State) (port : Nat) (p : Pkt), s.arrives port p 9 → s.collOf (bitsOf p.addr 0 16) = none →
    (isDead s.collDead (bitsOf p.addr 0 16) = false → (s.collHeld.filter fun q => bitsOf q.addr 0 16 == bitsOf p.addr 0 16).length < 16 →
      Gives (exec (.collPacket port p) s) fun u => u.collHeld = s.collHeld ++ [p] ∧ u.colls = s.colls ∧ s.sameRegs u [] ∧ s.sameMem u ∧ u.sent = s.sent) ∧
    (isDead s.collDead (bitsOf p.addr 0 16) = true →
      Gives (exec (.collPacket port p) s) fun u => u.collHeld = s.collHeld ∧ u.colls = s.colls ∧ s.sameMem u
        ∧ u.fld FCOLLATE_LATE = min (2 ^ 32 - 1) (s.fld FCOLLATE_LATE + 1) ∧ s.sameRegs u [aFCOLLATE])) ∧
  ∀ (s : State) (src : Nat) (r : List Nat), rPre r = true → rPhase r ≠ 2 → s.recDue src r → s.collOf (rCid r) = none →
    (isDead s.collDead (rCid r) = false →
      Gives (exec (.preRoundRecord src r) s) fun u => u.collRecs = s.collRecs ++ [(src, r)] ∧ u.colls = s.colls ∧ s.sameRegs u [] ∧ s.sameMem u) ∧
    (isDead s.collDead (rCid r) = true →
      Gives (exec (.preRoundRecord src r) s) fun u => u.collRecs = s.collRecs ∧ u.fld FCOLLATE_LATE = min (2 ^ 32 - 1) (s.fld FCOLLATE_LATE + 1)
        ∧ s.sameRegs u [aFCOLLATE])) ∧
  (∀ (s : State) (c r : Nat), r < 65536 →
    (s.pfOrFw c = true → s.flag FRSVCTL_RESERVE = true →
      Gives (exec (.adopt c r) s) fun u =>
        u.rank = r ∧ u.flag FRSVCTL_RESERVE = false ∧ s.sameRegs u [aFCFG, aFRSVCTL] ∧ s.sameMem u
          ∧ u.reports = s.reports ++ [⟨s.primHalf, 0x55, 1, srcOf 6 (s.primHalf * 16), 0, r + s.rank * 65536, s.now⟩]) ∧
    (s.pfOrFw c = false ∨ s.flag FRSVCTL_RESERVE = false → exec (.adopt c r) s = .next s))

/-- R138, R140: the running sum of a circulation is exact: as long as no partial sum leaves the 32-bit range, every element of the result is the integer
sum of the members' entries, none is counted as saturated, and the order of the two does not matter. -/
def Obligations.CirculationSumIsExact : Prop :=
  (∀ (a b : List Int), a.length = b.length → a.length ≤ 1024 → (∀ p ∈ a.zip b, -2147483647 ≤ p.1 + p.2 ∧ p.1 + p.2 ≤ 2147483647) →
    (∀ x ∈ a, -2147483648 ≤ x ∧ x ≤ 2147483647) → (∀ x ∈ b, -2147483648 ≤ x ∧ x ≤ 2147483647) →
    addFX 1024 (a.flatMap fun i => asBytes 4 (ofIntW 32 i) false) (b.flatMap fun i => asBytes 4 (ofIntW 32 i) false)
      = ((a.zip b).flatMap fun p => asBytes 4 (ofIntW 32 (p.1 + p.2)) false, 0)) ∧
  ∀ (x y : List (Nat × Bool)), x.length = y.length → x.length ≤ 4096 → addFX 1024 x y = addFX 1024 y x

/-- R344, R354, R346: a forward row of another device that comes first takes the next slot of its buffer while the plan's capacity lasts, and is counted
and refused beyond it; a backward row takes the slot it names. R341: the quotas of a plan's sources for one expert differ by at most one and add up to
its capacity. -/
def Obligations.DispatchRowsAndQuotas : Prop :=
  ((∀ (s : State) (port : Nat) (p : Pkt), s.arrives port p 10 → s.rowOk p false →
    let q := daQ p.addr
    let f := (s.stream q).buf (daE p.addr) (p.tag % 2)
    (f.rows.find? fun d => d.srank == p.srank && d.token == daTok p.addr && d.kslot == daK p.addr) = none →
    (f.rows.length < s.capOf q (daE p.addr) → Gives (exec (.forwardRow port p) s) (rowTaken p f.rows.length s)) ∧
    (s.capOf q (daE p.addr) ≤ f.rows.length → daPart p.addr = 0 →
      Gives (exec (.forwardRow port p) s) fun u =>
        u.fld (FDSCNT_QOVF q) = min 65535 (s.fld (FDSCNT_QOVF q) + 1) ∧ u.stream q = s.stream q ∧ s.sameMem u)) ∧
  ∀ (s : State) (port : Nat) (p : Pkt), s.arrives port p 10 → s.rowOk p true →
    (((s.stream (daQ p.addr)).buf (daE p.addr) (p.tag % 2)).rows.find? fun d => d.slot == daSlot p.addr) = none →
    daSlot p.addr < srQslots (s.srOf (daQ p.addr)) → Gives (exec (.backwardRow port p) s) (rowTaken p (daSlot p.addr) s)) ∧
  ((∀ cap nsrc, 0 < nsrc → ((List.range nsrc).map (quota cap nsrc)).sum = cap) ∧
  ∀ cap nsrc i j, 0 < nsrc → i < nsrc → j < nsrc → quota cap nsrc i ≤ quota cap nsrc j + 1)

/-- R342, R345, R356, R357: an END of a source that had not ended is entered at every queue of the stream here, and closes a queue when every source has
ended and every row that has begun to land has landed; a buffer that is reordered has its rows in ascending (SRANK, TOKEN) order, numbered from slot 0, and is READY; one that times out is abandoned
and counted. R350: a return slice of another device lands at its place in the return region, and its return word shows the slot, the 64-byte units
landed so far and whether the whole row has arrived. -/
def Obligations.DispatchBuffersAndReturns : Prop :=
  ((∀ (s : State) (port : Nat) (p : Pkt), s.arrives port p 10 → p.srank ≠ s.rank → daKind p.addr = 1 →
    let q := daQ p.addr
    let r := s.srOf q
    let b := p.tag % 2
    daDir p.addr = (if srBwd r then 2 else 0) → srValid r = true →
    (∀ e, e < srNexp r → srOwner r e = s.rank → ((s.stream q).buf e b).place p.tag = .take) → (∃ e, e < srNexp r ∧ srOwner r e = s.rank) →
    Gives (exec (.endPacket port p) s) fun u => s.sameMem u ∧ ∀ e, e < srNexp r → srOwner r e = s.rank →
      let f := (s.stream q).buf e b
      let g := (u.stream q).buf e b
      (p.srank, daTok p.addr % 4) ∈ g.ends ∧ (∀ w ∈ f.ends, w ∈ g.ends) ∧ g.rows = f.rows
        ∧ (g.closed = true ↔ f.closed = true ∨ (srNsrc r ≤ g.ends.length ∧ ∀ d ∈ g.rows, srParts r ≤ d.parts.length))
        ∧ g.batch = some p.tag ∧ (s.detm = false → g.ready = g.closed)) ∧
  (∀ (s : State) (q e b : Nat), b < 2 →
    let f := (s.stream q).buf e b
    f.closed = true → f.ready = false → f.aband = false →
    Gives (exec (.reorderDone q e b) s) fun u =>
      let g := (u.stream q).buf e b
      g.ready = true ∧ g.rows.map (·.slot) = List.range f.rows.length
        ∧ (g.rows.map fun d => (d.srank, d.token, d.kslot, d.parts)).Perm (f.rows.map fun d => (d.srank, d.token, d.kslot, d.parts))
        ∧ g.rows.Pairwise fun x y => x.srank < y.srank ∨ x.srank = y.srank ∧ x.token ≤ y.token) ∧
  ∀ (s : State) (q e b : Nat),
    let f := (s.stream q).buf e b
    f.batch.isSome = true → f.closed = false → f.aband = false →
    Gives (exec (.dispatchTimeout q e b) s) fun u =>
      (u.stream q).buf e b = { f with aband := true } ∧ u.fld (FDSCNT_ABNDN q) = min 65535 (s.fld (FDSCNT_ABNDN q) + 1)
        ∧ s.sameRegs u [aFDSCNT q] ∧ s.sameMem u) ∧
  (∀ (s : State) (port : Nat) (p : Pkt), s.arrives port p 10 → p.srank ≠ s.rank → daKind p.addr = 0 →
    let q := daQ p.addr
    let r := s.srOf q
    let t := daTok p.addr
    let i := daK p.addr
    let roff := (bitsOf p.addr 6 6 + 64 * bitsOf p.addr 16 2) * 64
    let dst := addrDev (srRetbase r) + (t * srK r + i) * srOrb r + roff
    let w := rwAddr r t i
    daDir p.addr = (if srBwd r then 3 else 1) → srValid r = true → i < srK r → ((s.stream q).slotOfTok r t).isSome = true →
    roff + p.len ≤ srOrb r → p.len % 64 = 0 → p.data.length = p.len → p.pmask = 0 →
    (∀ k ∈ ((s.stream q).slot (((s.stream q).slotOfTok r t).getD 0)).batches, k.b % 4096 = p.tag → k.aband = false) →
    inTileWindow dst = true → inTileWindow w = true → s.isMem dst p.len = true → s.isMem w 4 = true →
    winOff dst + p.len ≤ 0x1F0000 → winOff w + 4 ≤ 0x1F0000 → (dst + p.len ≤ w ∨ w + 4 ≤ dst) →
    s.flag (TFLIP_PEND (winTile dst)) = false → s.flag (TFLIP_PEND (winTile w)) = false →
    (s.tile (winTile w)).cleanRange (winOff w) 4 → (s.tile (winTile dst)).marking = false → (s.tile (winTile w)).marking = false →
    let old := ofLE ((s.tile (winTile w)).bytesAt (winOff w) 4)
    let n := bitsOf old 16 9 + p.len / 64
    bitsOf old 12 4 = 0 →
    Gives (exec (.returnRow port p) s) fun u =>
      (∀ k < p.len, (u.tile (winTile dst)).classOf (winOff dst + k) = .good (nth 0 p.data k % 256)) ∧
      (u.tile (winTile w)).holds (winOff w) 4 (daSlot p.addr + (if srOrb r ≤ n * 64 then 4096 else 0) + n % 512 * 65536) = true)

/-- R351 to R353, R358, R359, R361: the commands on a stream's registers by PF 0 or the stream's context. POST closes sending, starts the plan deadline
and clears the counts; OPEN with a new plan puts the offered plan in force; OPEN out of turn sets OPENERR only; REL empties a buffer; ABORT abandons
both buffers of every queue here; a timely plan is offered, another is counted late; at the deadline the stream is DECIDED. -/
def Obligations.StreamCommands : Prop :=
  ∀ (s : State) (c q : Nat), q < 64 → s.fdsMay q c = true →
    (∀ st, st < 2 ^ 32 → srBwd (s.srOf q) = false → s.replay = false →
      Gives (exec (.post c q st) s) fun u =>
        u.fld (FDSSTAT_STATE q) = 0 ∧ u.fld (FDSDL_DEADLINE q) = (s.now + srPlanto (s.srOf q) * 1000) % 2 ^ 64 ∧ u.fld (FDSSTAT_DECIDED q) = 0
          ∧ u.fld (FDSSTAT_HAVE q) = 0 ∧ (u.stream q).demand = [] ∧ (u.stream q).sent = [] ∧ (u.stream q).recv = []
          ∧ le (u.tblBytes (aFHIST (q * 128)) 1024) 0 4 = st ∧ le (u.tblBytes (aFHIST (q * 128)) 1024) 8 8 = s.now % 2 ^ 64
          ∧ (∀ e, e < 64 → le (u.tblBytes (aFHIST (q * 128)) 1024) (16 + 4 * e) 4 = cntGet (s.stream q).demand e % 2 ^ 32) ∧ s.sameMem u) ∧
    (s.srOpen q = false → s.flag (FDSSTAT_DECIDED q) = true → srBwd (s.srRec q) = false → s.flag (FDSSTAT_HAVE q) = true →
      s.fld GLEDCTL_MODE ≠ 1 →
      Gives (exec (.openBuf c q true) s) fun u =>
        u.srOpen q = true ∧ u.fld (FDSSTAT_BATCH q) = 0 ∧ u.tblBytes (aFPLAN (q * 128 + 64)) 256 = s.tblBytes (aFPLAN (q * 128 + 32)) 256
          ∧ u.fld (FDSSTAT_PLANSTEP q) = le (s.tblBytes (aFPLAN (q * 128 + 32)) 256) 0 4 ∧ (u.stream q).rec_ = s.srRec q
          ∧ (u.stream q).slots = [] ∧ s.sameMem u) ∧
    (∀ n, (s.srOpen q = true ∨ s.flag (FDSSTAT_DECIDED q) = false) →
      Gives (exec (.openBuf c q n) s) fun u =>
        u.flag (FDSSTAT_OPENERR q) = true ∧ u.fld (FDSSTAT_STATE q) = s.fld (FDSSTAT_STATE q) ∧ u.stream q = s.stream q ∧ s.sameRegs u [aFDSSTAT q]) ∧
    (∀ e b, e < 64 → b < 2 →
      Gives (exec (.rel c q e b) s) fun u =>
        (u.stream q).buf e b = DBuf.reset ∧ (∀ e' b', e' < 64 → b' < 2 → (e', b') ≠ (e, b) → (u.stream q).buf e' b' = (s.stream q).buf e' b')
          ∧ s.sameRegs u [] ∧ s.sameMem u) ∧
    (Gives (exec (.fdsctlAbort c q) s) fun u =>
      u.fld (FDSSTAT_STATE q) = 0 ∧ s.sameRegs u [aFDSSTAT q] ∧ s.sameMem u ∧
      ∀ e b, b < 2 → (u.stream q).buf e b =
        if e < srNexp (s.srOf q) ∧ srOwner (s.srOf q) e = s.rank then { (s.stream q).buf e b with aband := true } else (s.stream q).buf e b) ∧
    (∀ st, st < 2 ^ 32 →
      let want := (le (s.tblBytes (aFHIST (q * 128)) 8) 0 4 + 1) % 2 ^ 32
      let plan := s.tblBytes (aFPLAN (q * 128)) 256
      (s.now < s.fld (FDSDL_DEADLINE q) → st = want → le plan 0 4 = want → bitsOf (le plan 4 1) 0 7 = srNexp (s.srOf q) →
        (∀ e < srNexp (s.srOf q), le plan (16 + 2 * e) 2 % srPad (s.srOf q) = 0 ∧ le plan (16 + 2 * e) 2 ≤ srQslots (s.srOf q)) →
        s.fld GLEDCTL_MODE = 0 →
        Gives (exec (.planDoorbell c q st) s) fun u =>
          u.flag (FDSSTAT_HAVE q) = true ∧ u.flag (FDSSTAT_DECIDED q) = true ∧ u.tblBytes (aFPLAN (q * 128 + 32)) 256 = plan ∧ s.sameMem u) ∧
      (s.fld (FDSDL_DEADLINE q) ≤ s.now ∨ st ≠ want →
        Gives (exec (.planDoorbell c q st) s) fun u =>
          u.fld (FDSCNT_LATE q) = min 65535 (s.fld (FDSCNT_LATE q) + 1) ∧ s.sameRegs u [aFDSCNT q] ∧ s.sameMem u)) ∧
    (s.fld (FDSDL_DEADLINE q) ≤ s.now → s.replay = false →
      Gives (exec (.planDeadline q) s) fun u => u.flag (FDSSTAT_DECIDED q) = true ∧ s.sameRegs u [aFDSSTAT q] ∧ s.sameMem u)

/-- R213, R215, R216, R211: the oldest waiting report becomes a new entry at WP of its half's ring when no recent entry is the same and the ring is not
full, raises the count of one that is the same, and is lost and counted when the ring is full; a bucket's overflow (type 0x04) raises the device error
interrupt each time. A write of RP frees entries, never beyond WP. A leak tick that has fallen lowers each bucket of its class by one; where none has
fallen nothing happens. -/
def Obligations.ErrorLogCommands : Prop :=
  (∀ (s : State) (r : Report) (rs : List Report), s.reports = r :: rs → r.half < 2 → r.typ < 256 → r.sev < 256 →
    let h := r.half
    let wp := s.fld (ERRPTR_WP h)
    let full := (wp + 1024 - s.fld (ERRPTR_RP h)) % 1024 = 512
    let hit := (s.errNewest h).find? fun i => errSame r (s.errEntry h i)
    (hit = none → ¬full →
      Gives (exec .errorReport s) fun u => u.errEntry h wp = errBytes r 1 0 ∧ u.fld (ERRPTR_WP h) = (wp + 1) % 1024
        ∧ u.fld (ERRPTR_RP h) = s.fld (ERRPTR_RP h) ∧ s.sameMem u ∧ (r.typ = 4 → Out.msix 0 2 ∈ u.sent)
        ∧ (r.typ ≠ 4 → u.reports = rs ∧ u.sent = s.sent
            ∧ s.sameRegs u [aERRPTR h, aERRLOG (errWord h wp), aERRLOG (errWord h wp + 1), aERRLOG (errWord h wp + 2), aERRLOG (errWord h wp + 3)])) ∧
    (hit = none → full →
      Gives (exec .errorReport s) fun u => (r.typ = 4 → Out.msix 0 2 ∈ u.sent) ∧ (r.typ ≠ 4 → u.reports = rs ∧ u.sent = s.sent)
        ∧ (∀ k i, k < 2 → u.errEntry k i = s.errEntry k i) ∧ u.fld (ERRPTR_WP h) = wp
        ∧ (h = 0 → u.fld ERRLOST_LOST0 = min (2 ^ 32 - 1) (s.fld ERRLOST_LOST0 + 1) ∧ u.flag GERRSTAT_OVF0 = true)
        ∧ (h = 1 → u.fld ERRLOST_LOST1 = min (2 ^ 32 - 1) (s.fld ERRLOST_LOST1 + 1) ∧ u.flag GERRSTAT_OVF1 = true) ∧ s.sameMem u) ∧
    (∀ i, hit = some i →
      Gives (exec .errorReport s) fun u => (r.typ = 4 → Out.msix 0 2 ∈ u.sent) ∧ (r.typ ≠ 4 → u.reports = rs ∧ u.sent = s.sent)
        ∧ u.fld (ERRPTR_WP h) = wp ∧ le (u.errEntry h i) 20 2 = min 65535 (le (s.errEntry h i) 20 2 + 1) ∧ le (u.errEntry h i) 0 8 = le (s.errEntry h i) 0 8 ∧ s.sameMem u)) ∧
  (∀ (s : State) (h rp : Nat), h < 2 → rp < 1024 →
    let old := s.fld (ERRPTR_RP h)
    let wp := s.fld (ERRPTR_WP h)
    Gives (exec (.errorLogRpWrite h rp) s) fun u =>
      ((rp + 1024 - old) % 1024 ≤ (wp + 1024 - old) % 1024 → u.fld (ERRPTR_RP h) = rp) ∧
      ((wp + 1024 - old) % 1024 < (rp + 1024 - old) % 1024 → u.fld (ERRPTR_RP h) = wp) ∧
      u.fld (ERRPTR_WP h) = wp ∧ s.sameRegs u [aERRPTR h] ∧ s.sameMem u) ∧
  (∀ (s : State) (k : Nat), k ∉ s.tsync.leak → exec (.leakTick k) s = .next s) ∧
  ∀ (s : State) (k : Nat), k < 2 → k ∈ s.tsync.leak →
    Gives (exec (.leakTick k) s) fun u => k ∉ u.tsync.leak ∧
      (∀ n < 10, u.fld (GECCBKT_LEVEL n) = if (k = 0 ↔ n < 2) then s.fld (GECCBKT_LEVEL n) - 1 else s.fld (GECCBKT_LEVEL n)) ∧
      (∀ n < 10, u.fld (GECCBKT_OVFCNT n) = s.fld (GECCBKT_OVFCNT n)) ∧ s.sameRegs u ((List.range 10).map aGECCBKT) ∧ s.sameMem u

/-- R228, R229: initialisation that ends leaves every byte of the stack 0 with no error and no failed channel, with the channels live that no cause maps
out, which are reported; the other stacks' bytes are unchanged. R230, R231, R229: a live channel that loses training and does not retrain in time is
failed and reported; a write of SCTL.TEST = 1 waits until the stack is at rest, then the stack is in test state and determinism is forced; a write of
0 leaves it with an initialisation. -/
def Obligations.StackInitialisationAndLoss : Prop :=
  (∀ (s : State) (st : Nat) (failed : BitVec 32), st < 8 → (s.stackU st).initing = true → s.boot ≠ .hold →
    let gone := (failed.toNat ||| SMap.get (fun _ => 0) s.img.mapouts st ||| (s.stackU st).mapFuse) % 2 ^ 32
    Gives (exec (.stackInitDone st failed) s) fun u =>
      (∀ c < 32, bitOf (u.fld (SCHMAP_LIVEMAP st)) c = !bitOf gone c) ∧ u.fld (SSTAT_LIVE st) = 32 - popcount 32 gone
        ∧ u.fld (SSTAT_TOPGB st) = 2 * (32 - popcount 32 gone) ∧ u.flag (SSTAT_INITD st) = true ∧ u.fld (SFAIL_FAILMAP st) = 0
        ∧ (u.stackU st).initing = false ∧ (∀ d, stackBase st ≤ d → d < stackBase (st + 1) → u.stkByte d = 0 ∧ u.markOf d = 0)
        ∧ (∀ d, d < stackBase st ∨ stackBase (st + 1) ≤ d → u.stkByte d = s.stkByte d ∧ u.markOf d = s.markOf d)
        ∧ (∀ c < 32, bitOf gone c = true → ∃ r ∈ u.reports, r.typ = 0x22 ∧ r.src = srcOf 1 st ∧ r.detail % 256 = c)) ∧
  ((∀ (s : State) (st ch : Nat), st < 8 → ch < 32 → s.flag (SSTAT_INITD st) = true → bitOf (s.fld (SCHMAP_LIVEMAP st)) ch = true →
    Gives (exec (.channelTrainingLost st ch) s) fun u => ch ∈ (u.stackU st).lost ∧ s.sameRegs u [] ∧ s.sameMem u) ∧
  (∀ (s : State) (st ch : Nat), st < 8 → ch < 32 → ch ∈ (s.stackU st).lost → bitOf (s.fld (SFAIL_FAILMAP st)) ch = false →
    Gives (exec (.channelRetrainTimeout st ch) s) fun u =>
      u.fld (SFAIL_FAILMAP st) = s.fld (SFAIL_FAILMAP st) ||| 2 ^ ch ∧ ⟨halfOfStack st, 0x21, 2, srcOf 1 st, 0, ch, s.now⟩ ∈ u.reports ∧ s.sameMem u) ∧
  (∀ (s : State) (st : Nat), st < 8 → s.flag (SSTAT_TEST st) = false →
    Gives (exec (.sctlTestRequest st) s) fun u => (u.stackU st).testReq = true ∧ s.sameRegs u [] ∧ s.sameMem u) ∧
  (∀ (s : State) (st : Nat), st < 8 → (s.stackU st).testReq = true → s.flag (SSTAT_INITD st) = true → s.enginesIdle st = true →
    s.stackBusy st = false →
    Gives (exec (.testStateEntry st) s) fun u =>
      u.flag (SSTAT_TEST st) = true ∧ u.flag (SCTL_TEST st) = true ∧ (u.stackU st).testReq = false ∧ u.detm = true
        ∧ u.reports = s.reports ++ [⟨halfOfStack st, 0x27, 0, srcOf 1 st, 0, st, s.now⟩] ∧ s.sameRegs u [aSCTL st, aSSTAT st, aGCTL] ∧ s.sameMem u) ∧
  ∀ (s : State) (st : Nat), st < 8 → s.flag (SSTAT_TEST st) = true →
    Gives (exec (.sctlTestExit st) s) fun u =>
      u.flag (SSTAT_TEST st) = false ∧ u.flag (SCTL_TEST st) = false ∧ u.flag (SSTAT_INITD st) = false ∧ (u.stackU st).initing = true
        ∧ s.sameRegs u [aSCTL st, aSSTAT st, aGCTL] ∧ s.sameMem u)

/-- R222: with n live channels, byte A of a stack lies in the channel at position (A / 4096) mod n of the ascending live list, at byte
(A / 4096 / n) × 4096 + A mod 4096 of it. R223, R224, R226, R227,
R230: whole 64-byte granules written to channels that have not failed read back as written, a poisoned byte poisoning its 32-byte half, and no other
byte of any stack changes; a granule of a failed channel reads poisoned and keeps what it held. -/
def Obligations.StackAddressesAndGranules : Prop :=
  (∀ (s : State) (st off : Nat), (s.liveList st) ≠ [] →
    (s.liveList st)[(off / 4096) % (s.liveList st).length]? = some (s.channelOf st off) ∧ bitOf (s.fld (SCHMAP_LIVEMAP st)) (s.channelOf st off) = true
      ∧ s.chanOffset st off = off / 4096 / (s.liveList st).length * 4096 + off % 4096 ∧ (s.liveList st).Pairwise (· < ·) ∧ ∀ off', off' / 4096 = off / 4096 → s.channelOf st off' = s.channelOf st off) ∧
  ((∀ (s : State) (d : Nat) (bs : List (Nat × Bool)), d % 64 = 0 → bs.length % 64 = 0 → d % 0x1000000000 + bs.length ≤ 0x1000000000 →
    (∀ b ∈ bs, b.1 < 256) → s.hitsFailed d bs.length = false →
    let u := s.stkWrite d bs
    (∀ x, x < d ∨ d + bs.length ≤ x → u.stkByte x = s.stkByte x ∧ u.markOf x = s.markOf x) ∧ (u.stkRead d bs.length).2 = u ∧
    ∀ i < bs.length,
      ((u.stkRead d bs.length).1[i]?.map (·.2)) = some (anyPois ((bs.drop (i / 32 * 32)).take 32)) ∧
      (anyPois ((bs.drop (i / 32 * 32)).take 32) = false → (u.stkRead d bs.length).1[i]? = bs[i]?)) ∧
  ∀ (s : State) (g : Nat) (bs : List (Nat × Bool)), s.chanFailed (g * 64 / 0x1000000000) (g * 64 % 0x1000000000) = true → bs.length = 64 →
    (∀ b ∈ (s.stkGranule g).1, b.2 = true) ∧ (s.stkGranule g).2 = s ∧ s.stkWrite (g * 64) bs = s)

/-- R536: the TAP instructions. IDCODE, SAMPLE and BYPASS shift out their registers and PRELOAD and STKWRAP load theirs; those that take the pins from the
device's logic also bring every Miltum link down; Test-Logic-Reset selects IDCODE. R231, R232: the wrapper instructions of a stack in test state: the
boundary of its interface, reading, staging, burning and recording repairs, and the array test with its result. Outside test state each acts as
WS_BYPASS, which shifts out one 0. -/
def Obligations.TapAndStackWrapper : Prop :=
  (∀ (s : State),
    (Gives (exec .testLogicReset s) fun u => u.tap = Tap.reset ∧ u.sent = s.sent ∧ s.sameRegs u [] ∧ s.sameMem u) ∧
    (Gives (exec .idcode s) (tapAnswers 1 (tdoBits 32 0x12048567) s)) ∧
    (∀ v, Gives (exec (.sample v) s) (tapAnswers 2 (tdoBits 918 v.toNat) s)) ∧
    (∀ w, Gives (exec (.preload w) s) fun u => u.tap = ⟨3, s.tap.sel, w.toNat⟩ ∧ u.sent = s.sent ∧ s.sameRegs u [] ∧ s.sameMem u) ∧
    (∀ sel, Gives (exec (.stkwrap sel) s) fun u => u.tap = ⟨0x10, sel.toNat, s.tap.bsr⟩ ∧ u.sent = s.sent ∧ s.sameRegs u [] ∧ s.sameMem u) ∧
    (Gives (exec .bypass s) (tapAnswers 0xFF [0] s)) ∧
    (∀ r ∈ ([(.extest, 4), (.extestPulse, 5), (.extestTrain, 6)] : List ((BitVec 918 → BitVec 918 → Instr) × Nat)), ∀ v w,
      Gives (exec (r.1 v w) s) fun u =>
        u.tap = ⟨r.2, s.tap.sel, w.toNat⟩ ∧ u.sent.getLast? = some (.tdo (tdoBits 918 v.toNat)) ∧ ∀ p < 8, u.portUp p = false) ∧
    (∀ r ∈ ([(.clamp, 7), (.highz, 8)] : List (Instr × Nat)),
      Gives (exec r.1 s) fun u =>
        u.tap = { s.tap with ir := r.2 } ∧ u.sent.getLast? = some (.tdo [0]) ∧ ∀ p < 8, u.portUp p = false)) ∧
  ((∀ (s : State) (st : Nat), s.wrapAt st true →
    let x := s.stackU st
    (Gives (exec .wsBypass s) fun u => u.sent = s.sent ++ [.tdo [0]] ∧ u.stackU st = { x with wir := 0 } ∧ s.sameRegs u [] ∧ s.sameMem u) ∧
    (∀ v, Gives (exec (.wsExtest v) s) fun u => u.stackU st = { x with wir := 1, wbr := v.drive } ∧ u.sent = s.sent ++ [.tdo v.pins] ∧ s.sameRegs u [] ∧ s.sameMem u) ∧
    (∀ ch set, Gives (exec (.rpRead ch set) s) fun u => u.stackU st = { x with wir := 0x10 } ∧ s.sameRegs u [] ∧ s.sameMem u ∧ u.sent
      = s.sent ++ [.tdo (tdoBits 64 (Config.repairWord (ch.toNat * 128 + set.toNat) (x.spares ch.toNat true) (x.spares ch.toNat false)).toNat)]) ∧
    (∀ ch addr row, x.spares ch.toNat row ≠ 0 →
      Gives (exec (.rpStage ch addr row) s) fun u =>
        u.stackU st = { x with wir := 0x11, staged := x.staged ++ [(ch.toNat, addr, row)] } ∧ s.sameRegs u [] ∧ s.sameMem u) ∧
    (∀ ch, x.fusing = none →
      Gives (exec (.rpFuse ch) s) fun u => u.stackU st = { x with wir := 0x12, fusing := some ch.toNat, fuseFail := false }
        ∧ u.sent = s.sent ++ [.tdo (tdoBits 64 (Config.burnWord x.fuseFail).toNat)] ∧ s.sameRegs u [] ∧ s.sameMem u) ∧
    (∀ ch, Gives (exec (.rpMapout ch) s) fun u => u.stackU st = { x with wir := 0x13, mapFuse := x.mapFuse ||| 2 ^ ch.toNat } ∧ s.sameRegs u [] ∧ s.sameMem u) ∧
    (∀ mask, Gives (exec (.mbRun mask) s) fun u => u.stackU st = { x with wir := 0x20, mbrun := some mask.toNat } ∧ s.sameRegs u [] ∧ s.sameMem u) ∧
    (Gives (exec .mbResult s) fun u => u.stackU st = { x with wir := 0x21 }
      ∧ u.sent = s.sent ++ [.tdo (tdoBits 128 (Config.arrayWord x.mbres x.mbaddr).toNat)] ∧ s.sameRegs u [] ∧ s.sameMem u)) ∧
  (∀ (s : State) (st : Nat) (v : WScan) (addr : Nat) (ch : BitVec 5) (set : BitVec 7) (row : Bool) (mask : BitVec 32), s.wrapAt st false →
    ∀ c ∈ [.wsBypass, .wsExtest v, .rpRead ch set, .rpStage ch addr row, .rpFuse ch, .rpMapout ch, .mbRun mask, .mbResult],
      Gives (exec c s) fun u => u.sent = s.sent ++ [.tdo [0]] ∧ (∃ w, u.stackU st = { s.stackU st with wir := w }) ∧ s.sameRegs u [] ∧ s.sameMem u) ∧
  (∀ (s : State) (st ch : Nat), (s.stackU st).fusing = some ch →
    (Gives (exec (.rpFuseDone st true) s) fun u =>
      (u.stackU st).fusing = none ∧ (∀ r, r ∈ (u.stackU st).repaired ↔ r ∈ (s.stackU st).repaired ∨ (r ∈ (s.stackU st).staged ∧ r.1 = ch))
        ∧ (∀ r, r ∈ (u.stackU st).staged ↔ r ∈ (s.stackU st).staged ∧ r.1 ≠ ch) ∧ s.sameRegs u [] ∧ s.sameMem u) ∧
    (Gives (exec (.rpFuseDone st false) s) fun u =>
      u.stackU st = { s.stackU st with fusing := none, fuseFail := true } ∧ s.sameRegs u [] ∧ s.sameMem u)) ∧
  ∀ (s : State) (st m : Nat) (fails : BitVec 32) (addr : Nat), (s.stackU st).mbrun = some m →
    Gives (exec (.mbRunDone st fails addr) s) fun u =>
      u.stackU st = { s.stackU st with mbrun := none, mbres := m &&& fails.toNat, mbaddr := addr } ∧ s.sameRegs u [] ∧ s.sameMem u)

/-- R236: a PI write by a context that may use the engine's ring sets PI while the ring holds at most 256 descriptors, and beyond that is discarded with
QERR and a report of type 0x25; a writer outside the engine's partition meets the address fault and changes no register. R237, R238, R239, R544: a
fetched descriptor ends with the first static check it fails, waits on its semaphore when DEP is set, and otherwise runs; the first waiter whose count
is covered takes it and runs; a semaphore wait that times out takes none; an addition to a semaphore saturates at 65,535. -/
def Obligations.BinderyDescriptorsStart : Prop :=
  ((∀ (s : State) (c st e p : Nat), st < 8 → e < 8 → p < 512 → s.engineMay c st e = true →
    let n := (p + 512 - s.fld (BQPTR_CI st e)) % 512
    (n ≤ 256 → Gives (exec (.piWrite c st e p) s) fun u =>
      u.fld (BQPTR_PI st e) = p ∧ u.fld (BQPTR_CI st e) = s.fld (BQPTR_CI st e) ∧ s.sameRegs u [aBQPTR st e] ∧ s.sameMem u) ∧
    (256 < n → Gives (exec (.piWrite c st e p) s) fun u =>
      u.flag (BESTAT_QERR st e) = true ∧ s.sameRegs u [aBESTAT st e] ∧ s.sameMem u
        ∧ u.reports = s.reports ++ [⟨halfOfStack st, 0x25, 1, srcOf 2 (st * 8 + e), 0, e, s.now⟩])) ∧
  (∀ (s : State) (c st e p : Nat), st < 8 → e < 8 → s.engineMay c st e = false →
    Gives (exec (.piWrite c st e p) s) fun u => s.sameRegs u [] ∧ s.sameMem u ∧ u.engines = s.engines
      ∧ ∃ r, u.reports = s.reports ++ [r] ∧ r.typ = 0x05) ∧
  ∀ (s : State) (st e v : Nat), st < 8 → e < 8 → v < 512 →
    let head := s.fld (BCQPTR_HEAD st e)
    let old := s.fld (BCQPTR_TAIL st e)
    Gives (exec (.bcqptrTailWrite st e v) s) fun u =>
      u.fld (BCQPTR_TAIL st e) = (if (v + 512 - old) % 512 ≤ (head + 512 - old) % 512 then v else head)
        ∧ u.fld (BCQPTR_HEAD st e) = head ∧ s.sameRegs u [aBCQPTR st e] ∧ s.sameMem u) ∧
  ((∀ (s : State) (st e : Nat) (d : List Nat), s.nextDesc st e d →
    (∀ f, s.bdStatic st e d = some f → Gives (exec (.descriptorFetch st e) s) (descAt st e d (.ended f.1 f.2) s)) ∧
    (s.bdStatic st e d = none → bdDep d = true → Gives (exec (.descriptorFetch st e) s) fun u =>
      descAt st e d .waitSem s u ∧ (u.stackU st).semq = (s.stackU st).semq ++ [e] ∧ u.flag (BESTAT_WAITSEM st e) = true) ∧
    (s.bdStatic st e d = none → bdDep d = false → Gives (exec (.descriptorFetch st e) s) (descAt st e d .running s))) ∧
  (∀ (s : State) (st e : Nat) (d : Desc), st < 8 → e < 8 → (s.engine st e).stage = .waitSem → (s.engine st e).desc = some d → s.firstWaiter st e = true →
    bdWcnt d.bytes ≤ s.fld (BSEM_COUNT st (bdSemw d.bytes)) →
    Gives (exec (.semaphoreAcquire st e) s) fun u =>
      u.fld (BSEM_COUNT st (bdSemw d.bytes)) + bdWcnt d.bytes = s.fld (BSEM_COUNT st (bdSemw d.bytes)) ∧ (u.engine st e).stage = .running
        ∧ (u.engine st e).desc = some d ∧ e ∉ (u.stackU st).semq ∧ s.sameMem u) ∧
  (∀ (s : State) (st e : Nat), (s.engine st e).stage = .waitSem →
    Gives (exec (.semaphoreTimeout st e) s) fun u =>
      (u.engine st e).stage = .ended bsTimeout 0 ∧ e ∉ (u.stackU st).semq ∧ s.sameRegs u [aBESTAT st e] ∧ s.sameMem u) ∧
  ∀ (s : State) (st n v : Nat), st < 8 → n < 64 → v < 65536 →
    Gives (exec (.bsemAdd st n v) s) fun u =>
      u.fld (BSEM_COUNT st n) = min 65535 (s.fld (BSEM_COUNT st n) + v)
        ∧ (65535 < s.fld (BSEM_COUNT st n) + v → ∀ e < 8, u.flag (BESTAT_SEMOVF st e) = true)
        ∧ s.sameRegs u (aBSEM st n :: (List.range 8).map (aBESTAT st)) ∧ s.sameMem u)

/-- R238, Table 7.4: NOP and FENCE end with status 0; COPY writes the source's bytes, as if through a temporary, and FILL repeats its 64-byte pattern,
over exactly the destination. R240, R241, R242: a descriptor that has ended completes while its completion ring has room: the record of Table 7.5 is
written at HEAD, HEAD moves on, a status that is not 0 is reported as type 0x24 and posts no semaphore, and the engine is idle; with the ring full it
waits, shown by CQFULL. ABORT ends a descriptor in progress with status 7 and covers every later one up to PI. -/
def Obligations.BinderyDescriptorsEnd : Prop :=
  ((∀ (s : State) (st e : Nat) (d : List Nat) (r : (Nat → Nat → Instr) × Nat), r ∈ [(.binderyNop, 0), (.binderyFence, 6)] → s.engRun st e r.2 = some d →
    Gives (exec (r.1 st e) s) fun u => (u.engine st e).stage = .ended 0 0 ∧ s.sameMem u ∧ s.sameRegs u [aBESTAT st e]) ∧
  (∀ (s : State) (st e : Nat) (d bs : List Nat), s.engRun st e 2 = some d → bs.length = bdLen d → (∀ b ∈ bs, b < 256) →
    s.stkHolds (stackBase st + bdA0 d) bs → bdLen d % 64 = 0 → bdA1 d % 64 = 0 → bdA1 d + bdLen d ≤ 0x1000000000 →
    s.hitsFailed (stackBase st + bdA1 d) (bdLen d) = false →
    Gives (exec (.copy st e) s) fun u =>
      (u.engine st e).stage = .ended 0 0 ∧ u.stkHolds (stackBase st + bdA1 d) bs ∧ s.sameRegs u [aBESTAT st e] ∧
      ∀ x, x < stackBase st + bdA1 d ∨ stackBase st + bdA1 d + bdLen d ≤ x → u.stkByte x = s.stkByte x ∧ u.markOf x = s.markOf x) ∧
  ∀ (s : State) (st e : Nat) (d bs : List Nat), s.engRun st e 3 = some d → bs.length = 64 → (∀ b ∈ bs, b < 256) →
    s.stkHolds (stackBase st + bdA0 d) bs → bdLen d % 64 = 0 → bdA1 d % 64 = 0 → bdA1 d + bdLen d ≤ 0x1000000000 →
    s.hitsFailed (stackBase st + bdA1 d) (bdLen d) = false →
    Gives (exec (.fill st e) s) fun u =>
      (u.engine st e).stage = .ended 0 0 ∧ (∀ i < bdLen d, u.stkByte (stackBase st + bdA1 d + i) = nth 0 bs (i % 64))
        ∧ s.sameRegs u [aBESTAT st e] ∧
      ∀ x, x < stackBase st + bdA1 d ∨ stackBase st + bdA1 d + bdLen d ≤ x → u.stkByte x = s.stkByte x ∧ u.markOf x = s.markOf x) ∧
  ((∀ (s : State) (st e status detail : Nat) (d : Desc), st < 8 → e < 8 → (s.engine st e).stage = .ended status detail → (s.engine st e).desc = some d →
    let head := s.fld (BCQPTR_HEAD st e)
    let off := s.fld (BCQBASE_BASE st e) * 4096 + head % 256 * 16
    ((head + 512 - s.fld (BCQPTR_TAIL st e)) % 512 ≠ 256 →
      Gives (exec (.descriptorComplete st e) s) fun u =>
        u.fld (BCQPTR_HEAD st e) = (head + 1) % 512 ∧ (u.engine st e).stage = .idle ∧ (u.engine st e).desc = none
          ∧ u.flag (BESTAT_BUSY st e) = false
          ∧ (s.inTop st off 16 = true → s.chanFailed st off = false → status < 256 → ∀ i < 16,
              u.stkByte (stackBase st + off + i) = nth 0 (bdRecord (if d.poisoned then 0 else bdId d.bytes) status
                (if status = bsProg then detail else 0) (s.engine st e).tend) i % 256)
          ∧ (status = 0 → bdSpost d.bytes ≠ 0 → u.fld (BSEM_COUNT st (bdSemp d.bytes))
              = min 65535 (s.fld (BSEM_COUNT st (bdSemp d.bytes)) + bdSpost d.bytes))
          ∧ (status ≠ 0 → (∀ n, n < 64 → u.fld (BSEM_COUNT st n) = s.fld (BSEM_COUNT st n))
              ∧ ∃ r ∈ u.reports, r.typ = 0x24 ∧ r.src = srcOf 2 (st * 8 + e) ∧ r.detail = status + 16 * e + 256 * detail)) ∧
    ((head + 512 - s.fld (BCQPTR_TAIL st e)) % 512 = 256 →
      Gives (exec (.descriptorComplete st e) s) fun u =>
        u.flag (BESTAT_CQFULL st e) = true ∧ u.engine st e = s.engine st e ∧ s.sameRegs u [aBESTAT st e] ∧ s.sameMem u)) ∧
  ∀ (s : State) (st e : Nat), st < 8 → e < 8 →
    Gives (exec (.binderyAbort st e) s) fun u =>
      ((s.engine st e).stage = .waitSem ∨ (s.engine st e).stage = .running → (u.engine st e).stage = .ended bsAbort 0) ∧
      ((s.engine st e).stage = .idle → (u.engine st e).stage = .idle) ∧ (s.engWhole st e = none → s.sameMem u) ∧
      (∀ a, u.stkByte a = s.stkByte a ∨ ∃ w, s.engWhole st e = some w ∧ u.stkByte a = w.stkByte a) ∧
      (u.engine st e).abortTo = if s.fld (BQPTR_CI st e) = s.fld (BQPTR_PI st e) then none else some (s.fld (BQPTR_PI st e)))

/-- R376, R377, R380, R383, R384, Table 12.7: an update RUN that passes its checks: on a shard COMMITTED at its step it ends with status 0 and changes
nothing; on one in MOMENTS it resumes pass W at the cursor; on one that is new to the step, with SKIP in the step record, it begins the skip pass, and
without, a prescan that finds no 0xFF exponent and was not asked for the idle test begins pass M. R375, R380, R376: a chunk of the skip pass writes
the BF16 roundings of its 4,096 weights over its gradients' place and nothing else, and moves the cursor; the last one commits the shard with SKIPPED
and ends the RUN. -/
def Obligations.UpdateRuns : Prop :=
  (∀ r ∈ ([(.adamw, 1), (.adamL2, 2)] : List ((Nat → Nat → Instr) × Nat)), ∀ (s : State) (st e : Nat) (d arg sr : List Nat),
    s.updateReady st e r.2 d arg sr → s.stageWait = [] →
    let sh := le arg 0 2 % 4096
    let stage := s.fld (SSTAGE_STAGE st sh)
    let same := s.fld (SSTAGE_STEP st sh) = le sr 0 4
    (stage = sgCommitted → same → Gives (exec (r.1 st e) s) fun u =>
      (u.engine st e).stage = .ended 0 0 ∧ s.sameRegs u [aBESTAT st e] ∧ s.sameMem u) ∧
    (stage = sgMoments → Gives (exec (r.1 st e) s) fun u =>
      runsPass st e paW (s.fld (SSTAGE_CURSOR st sh)) d arg sr u ∧ s.sameRegs u [] ∧ s.sameMem u) ∧
    ((stage = sgIdle ∨ stage = sgCommitted) → ¬same →
      (bitOf (le sr 4 1) 0 = true → Gives (exec (r.1 st e) s) fun u =>
        runsPass st e paSkip 0 d arg sr u ∧ u.fld (SSTAGE_STEP st sh) = le sr 0 4 ∧ u.fld (SSTAGE_STAGE st sh) = sgIdle
          ∧ u.fld (SSTAGE_CURSOR st sh) = 0 ∧ s.sameRegs u [aSSTAGE st sh] ∧ s.sameMem u) ∧
      (∀ gx, bitOf (le sr 4 1) 0 = false → bitOf (le arg 2 1) 0 = false → gx.length = le arg 8 8 / 32 →
        s.stkHolds (stackBase st + le arg 32 8) gx → (∀ x ∈ gx, x ≠ 255) →
        Gives (exec (r.1 st e) s) fun u =>
          runsPass st e paM 0 d arg sr u ∧ u.fld (SSTAGE_STEP st sh) = le sr 0 4 ∧ u.fld (SSTAGE_STAGE st sh) = sgIdle
            ∧ s.sameRegs u [aSSTAGE st sh] ∧ s.sameMem u))) ∧
  (∀ (s : State) (st e k : Nat) (sh slot : Nat) (arg sr wb : List Nat), st < 8 → e < 8 → sh < 4096 → (s.engine st e).stage = .running →
    (s.engine st e).aux = [paSkip, sh, slot] ++ arg ++ sr → arg.length = 128 → sr.length = 64 → (s.engine st e).chunk = k →
    (s.engine st e).media = false → (s.engine st e).pois = false → s.stageWait = [] →
    k < le arg 8 8 / 4096 → le arg 8 8 / 4096 ≤ 2 ^ 20 → wb.length = 16384 → s.stkHolds (stackBase st + le arg 72 8 + k * 16384) wb →
    le arg 24 8 % 64 = 0 → s.rangeOk (stackBase st + le arg 24 8 + k * 8192) 8192 →
    Gives (exec (.chunkComplete st e) s) fun u =>
      u.stkHolds (stackBase st + le arg 24 8 + k * 8192) (wordBytes 2 ((List.range 4096).map fun i => toBf16 (fv (le wb (4 * i) 4)))) ∧
      (∀ x, x < stackBase st + le arg 24 8 + k * 8192 ∨ stackBase st + le arg 24 8 + k * 8192 + 8192 ≤ x →
        u.stkByte x = s.stkByte x ∧ u.markOf x = s.markOf x) ∧
      u.fld (SSTAGE_CURSOR st sh) = k + 1 ∧ s.sameRegs u [aSSTAGE st sh, aBESTAT st e] ∧
      (k + 1 < le arg 8 8 / 4096 → (u.engine st e).chunk = k + 1 ∧ (u.engine st e).stage = .running
        ∧ u.fld (SSTAGE_STAGE st sh) = s.fld (SSTAGE_STAGE st sh)) ∧
      (le arg 8 8 / 4096 = k + 1 → (u.engine st e).stage = .ended 0 0 ∧ u.fld (SSTAGE_STAGE st sh) = sgCommitted
        ∧ u.flag (SSTAGE_SKIPPED st sh) = true))

/-- R365, R366, R386 to R389, R440, R443: the other programs. SCAN writes its result word after its argument block; PACK writes an item whose header is
the template's with the counts, step and stage word filled in; UNPACK with its bind flag sets the shard's stage word from the item; PUBLISH of one
MXFP4 block writes the block of Table 2.4 into its tile. R399, R401, R412, R544: a far RUN that passes its checks is already done where its STATE word
says so, and otherwise begins at its cursor, a new round clearing the STATE granule; when every fragment is done the STATE granule says so and the RUN
ends. -/
def Obligations.BinderyPrograms : Prop :=
  ((∀ (s : State) (st e : Nat) (d arg gx gm : List Nat), s.engRunKind st e 3 = some d → arg.length = 128 → s.stkHolds (stackBase st + bdA2 d) arg →
    s.stageWait = [] → le arg 16 8 % 64 = 0 → le arg 24 8 % 64 = 0 → bdA2 d % 64 = 0 → scanFault arg = [] → s.inTop st (le arg 24 8) (le arg 8 8 / 32) = true →
    (le arg 0 1 = 1 → s.inTop st (le arg 16 8) (2 * le arg 8 8) = true) →
    gx.length = le arg 8 8 / 32 → s.stkHolds (stackBase st + le arg 24 8) gx →
    gm.length = (if le arg 0 1 = 1 then 2 * le arg 8 8 else 0) → s.stkHolds (stackBase st + le arg 16 8) gm →
    s.rangeOk (stackBase st + bdA2 d + 64) 64 →
    Gives (exec (.scan st e) s) fun u =>
      (u.engine st e).stage = .ended 0 0 ∧ s.sameRegs u [aBESTAT st e] ∧
      u.stkHolds (stackBase st + bdA2 d + 64) (leBytes 8 (scanResult (le arg 0 1) (le arg 1 1) gx gm) ++ List.replicate 56 0) ∧
      ∀ x, x < stackBase st + bdA2 d + 64 ∨ stackBase st + bdA2 d + 128 ≤ x → u.stkByte x = s.stkByte x ∧ u.markOf x = s.markOf x) ∧
  (∀ (s : State) (st e src : Nat) (d h el : List Nat), s.engRun st e 5 = some d → h.length = 192 → s.stkHolds (stackBase st + bdA2 d) h →
    packFault h (bdFmt d) (bdLen d) (s.flag GCKCFG_NARROW) = [] → packSrc h (bdLen d) = some src → isMX src = false → packNarrow src (bdFmt d) = false →
    let n := boxSize (ciNdim h) (ciVec h 96)
    let stage := (s.reg (aSSTAGE st (ciShard h))).toNat
    s.inTop st (bdA1 d) (192 + itemBytes (bdFmt d) n) = true → el.length = bdLen d → (∀ b ∈ el, b < 256) → s.stkHolds (stackBase st + bdA0 d) el →
    bdLen d % 64 = 0 → bdA1 d % 64 = 0 → s.rangeOk (stackBase st + bdA1 d) (192 + bdLen d) → bdA1 d + 192 + bdLen d ≤ 0x1000000000 →
    Gives (exec (.pack st e) s) fun u =>
      (u.engine st e).stage = .ended 0 0 ∧ s.sameRegs u [aBESTAT st e] ∧
      u.stkHolds (stackBase st + bdA1 d) ((packHeader h (bdFmt d) n (stage % 2 ^ 32) stage).map (· % 256) ++ el)) ∧
  (∀ (s : State) (st e : Nat) (d a h : List Nat), s.engRunKind st e 0x20 = some d → a.length = 128 → h.length = 192 →
    s.stkHolds (stackBase st + bdA2 d) a → s.inTop st (le a 0 8) 192 = true → s.stkHolds (stackBase st + le a 0 8) h →
    le a 0 8 % 64 = 0 → le a 8 8 % 64 = 0 → le a 16 8 % 64 = 0 → le a 25 1 = 1 → unpackFault h a = [] → st < 8 →
    s.inTop st (le a 0 8) (192 + ciBytes h) = true →
    s.inTop st (le a 8 8) (ceilDiv (elemArray (bitsOf (le a 24 1) 0 4) (boxSize (ciNdim h) (ciVec a 64))) 64 * 64) = true →
    (isMX (bitsOf (le a 24 1) 0 4) = true → s.inTop st (le a 16 8) (ceilDiv (boxSize (ciNdim h) (ciVec a 64) / 32) 64 * 64) = true) →
    Gives (exec (.unpack st e) s) fun u =>
      (∃ status, (u.engine st e).stage = .ended status 0 ∧ (status = 0 ∨ status = bsMedia ∨ status = bsPoison))
        ∧ u.fld (SSTAGE_STEP st (le a 26 2)) = le h 128 4 ∧ u.fld (SSTAGE_STAGE st (le a 26 2)) = bitsOf (le h 128 8) 56 2) ∧
  ∀ (s : State) (st e : Nat) (d L : List Nat) (rows : List (List (Nat × Bool))), s.engRun st e 4 = some d → L.length = 64 →
    s.stkHolds (stackBase st + bdA2 d) L → bdFmt d = 9 → pbReserved L = false → pbBroken 9 (bdLen d) L = false → pubBlocks 9 L = 1 →
    s.pubTargetOk st e d L = true → s.pbPlacesOk st e 9 L = true → s.pbSource st (bdA0 d) L (pbKdim L) = (rows, s) →
    (∀ row ∈ rows, ∀ x ∈ row, x.2 = false ∧ (pbVal L x.1).nonFinite = false) → s.flag (TFLIP_PEND (le L 16 2)) = false →
    le L 24 4 + pbSize 9 L ≤ 0x1F0000 →
    Gives (exec (.publish st e) s) fun u =>
      (u.engine st e).stage = .ended 0 0 ∧
      ∀ i < pbSize 9 L, (u.tile (le L 16 2)).classOf (le L 24 4 + i) = .good ((nth (0, false) ((publish 9 s.fresh L rows).block 9 L 0 0) i).1 % 256)) ∧
  ((∀ r ∈ ([(.xsel, 0x10, false), (.xout, 0x11, true)] : List ((Nat → Nat → Instr) × Nat × Bool)), ∀ (s : State) (st e : Nat) (d a : List Nat),
    s.engRunKind st e r.2.1 = some d → a.length = 128 → s.stkHolds (stackBase st + bdA2 d) a →
    (∀ x ∈ xArrays r.2.2 a, le a x.1 8 % 64 = 0 ∧ s.inTop st (le a x.1 8) x.2 = true) → xFault r.2.2 a (le a 112 8) = [] →
    let cur := le a 112 8
    (bitsOf cur 0 32 = xaRound a → bitOf cur 52 = true → Gives (exec (r.1 st e) s) fun u =>
      (u.engine st e).stage = .ended 0 0 ∧ s.sameMem u ∧ s.sameRegs u [aBESTAT st e]) ∧
    (bitsOf cur 0 32 = xaRound a → bitOf cur 52 = false → Gives (exec (r.1 st e) s) fun u =>
      (u.engine st e).aux = [xMark r.2.2, bdProg d, bdA2 d, le a 120 8] ++ a ∧ (u.engine st e).chunk = bitsOf cur 32 20
        ∧ (u.engine st e).stage = .running ∧ s.sameMem u ∧ s.sameRegs u []) ∧
    (bitsOf cur 0 32 ≠ xaRound a → bdA2 d % 64 = 0 → s.rangeOk (stackBase st + bdA2 d + 64) 64 → Gives (exec (r.1 st e) s) fun u =>
      (u.engine st e).aux = [xMark r.2.2, bdProg d, bdA2 d, 0] ++ a ∧ (u.engine st e).chunk = 0 ∧ (u.engine st e).stage = .running
        ∧ u.stkHolds (stackBase st + bdA2 d + 112) (leBytes 8 (xaRound a) ++ leBytes 8 0))) ∧
  ∀ (s : State) (st e slot ao nfin : Nat) (mark : Nat) (a old : List Nat), st < 8 → e < 8 → (s.engine st e).stage = .running →
    (s.engine st e).aux = [mark, slot, ao, nfin] ++ a → a.length = 128 → xaFrags a ≤ (s.engine st e).chunk → xaFrags a < 2 ^ 20 →
    (s.engine st e).media = false → (s.engine st e).pois = false → ao % 64 = 0 → s.rangeOk (stackBase st + ao + 64) 64 →
    old.length = 64 → s.stkHolds (stackBase st + ao + 64) old →
    Gives (exec (.fragmentComplete st e) s) fun u =>
      (u.engine st e).stage = .ended 0 0 ∧
      u.stkHolds (stackBase st + ao + 64) (old.take 48 ++ leBytes 8 (xaRound a + xaFrags a * 2 ^ 32 + 2 ^ 52) ++ leBytes 8 nfin))

/-- R251, R253, R254, R256, R258, R262, R278, R279: a port whose eight lanes trained sends HELLO and one with no usable lanes goes DOWN with cause 1;
HELLO is resent until the partner's comes; a HELLO of major version 1 settles version, partner and credits and is answered by HELLOACK, one of another
major version takes the port DOWN with cause 3; HELLOACK brings a port that has sent its own UP; without one in time the port goes DOWN with cause 2,
and after its wait trains again. RETRAIN takes an UP port into RETRAIN; DISABLE takes any port but one already DISABLED or held in reset to DISABLED. -/
def Obligations.PortTraining : Prop :=
  (∀ (s : State) (p : Nat) (good : Nat), s.training p → s.noColl →
    (lanesOfMask good = 255 →
      Gives (exec (.pmdTrainingDone p good) s) fun u =>
        (u.port p).inHello = true ∧ (u.port p).good = 255 ∧ u.fld (FPSTAT_LANES p) = 255
          ∧ u.fld (FPSTAT_STATE p) = (if s.fld (FPSTAT_STATE p) = 2 then 3 else 5) ∧ u.sent = s.sent ++ [.flit p ((s.port p).flit (s.port p).txSeq 3 0 false (u.helloBody p 1)).bytes]
          ∧ s.sameRegs u [aFPSTAT p] ∧ s.sameMem u ∧ u.reports = s.reports) ∧
    (lanesOfMask good = 0 →
      Gives (exec (.pmdTrainingDone p good) s) fun u =>
        downBy p 1 u ∧ (u.port p).fails = (s.port p).fails + (if s.fld (FPSTAT_SPEED p) = 0 then 1 else 0) ∧ s.sameRegs u [aFPSTAT p] ∧ s.sameMem u)) ∧
  (∀ (s : State) (p : Nat), (s.port p).inHello = true → (s.port p).heard = false →
    Gives (exec (.helloResend p) s) fun u => u.sent = s.sent ++ [.flit p ((s.port p).flit (s.port p).txSeq 3 0 false (s.helloBody p 1)).bytes]
      ∧ u.port p = (s.port p).flitSent ∧ (∀ q, q ≠ p → u.port q = s.port q) ∧ s.sameRegs u [] ∧ s.sameMem u) ∧
  (∀ (s : State) (p ver rank pport kind crdd crdc crds lanes : Nat), p < 8 → (s.port p).inHello = true → rank < 65536 → pport < 8 →
    kind < 2 → (s.port p).retraining = false →
    (ver / 16 = 1 → lanesOfMask ((s.port p).good &&& lanes) = 255 → (s.port p).ackRecv = false →
      Gives (exec (.hello p ver rank pport kind crdd crdc crds lanes) s) fun u =>
        u.fld (FPSTAT_VER p) = min (s.fld FCFG_MAXVER) (ver % 16) % 4 ∧ u.fld (FPSTAT_PRANK p) = rank ∧ u.fld (FPSTAT_PPORT p) = pport
          ∧ u.fld (FPSTAT_PSW p) = kind ∧ u.fld (FPSTAT_LANES p) = 255 ∧ u.fld (FPSTAT_STATE p) = s.fld (FPSTAT_STATE p)
          ∧ (u.port p).crd = [crdd, crdc, crds] ∧ (u.port p).heard = true ∧ (u.port p).ackSent = true
          ∧ u.sent.getLast? = some (.flit p ((s.port p).flit (s.port p).txSeq 3 0 false (u.helloBody p 2)).bytes) ∧ s.sameRegs u [aFPSTAT p] ∧ s.sameMem u) ∧
    (ver / 16 ≠ 1 → s.noColl →
      Gives (exec (.hello p ver rank pport kind crdd crdc crds lanes) s) fun u => downBy p 3 u ∧ s.sameRegs u [aFPSTAT p] ∧ s.sameMem u)) ∧
  (∀ (s : State) (p ackseq : Nat), p < 8 → (s.port p).inHello = true →
    ((s.port p).ackSent = true →
      Gives (exec (.helloack p ackseq) s) fun u => u.portUp p = true ∧ (u.port p).inHello = false ∧ s.sameRegs u [aFPSTAT p] ∧ s.sameMem u) ∧
    ((s.port p).ackSent = false →
      Gives (exec (.helloack p ackseq) s) fun u => (u.port p).ackRecv = true ∧ (u.port p).inHello = true ∧ s.sameRegs u [] ∧ s.sameMem u ∧ u.sent = s.sent)) ∧
  (∀ (s : State) (p : Nat), p < 8 → (s.port p).inHello = true → (s.port p).ackRecv = false → s.noColl →
    Gives (exec (.helloTimeout p) s) fun u => downBy p 2 u ∧ s.sameRegs u [aFPSTAT p] ∧ s.sameMem u) ∧
  (∀ (s : State) (p : Nat), s.fld (FPSTAT_STATE p) = 6 → s.pinsOff = false →
    Gives (exec (.downWaitEnd p) s) fun u => u.fld (FPSTAT_STATE p) = 2 ∧ (u.port p).inHello = false ∧ s.sameRegs u [aFPSTAT p] ∧ s.sameMem u ∧ u.sent = s.sent) ∧
  (∀ (s : State) (p : Nat), p < 8 → s.portUp p = true →
    Gives (exec (.fpctlRetrain p) s) fun u =>
      u.fld (FPSTAT_STATE p) = 5 ∧ (u.port p).retraining = true ∧ (u.port p).unacked = (s.port p).unacked
        ∧ u.reports = s.reports ++ [⟨halfOfPort p, 0x43, 1, srcOf 3 p, 0, (s.port p).txSeq, s.now⟩] ∧ s.sameRegs u [aFPSTAT p] ∧ s.sameMem u) ∧
  ∀ (s : State) (p : Nat), p < 8 →
    (2 ≤ s.fld (FPSTAT_STATE p) → s.noColl →
      Gives (exec (.fpctlDisable p true) s) fun u =>
        u.fld (FPSTAT_STATE p) = 0 ∧ u.flag (FPCTL_DISABLE p) = true ∧ (u.port p).unacked = [] ∧ s.sameRegs u [aFPSTAT p, aFPCTL p] ∧ s.sameMem u) ∧
    (s.flag (FPCTL_DISABLE p) = true → s.fld (FPSTAT_STATE p) = 0 → s.parked = false → s.pinsOff = false →
      (∃ c, s.img.mports.find? (fun q => q.1 == p) = some (p, c) ∧ c.en = true) →
      Gives (exec (.fpctlDisable p false) s) fun u =>
        u.fld (FPSTAT_STATE p) = 2 ∧ u.flag (FPCTL_DISABLE p) = false ∧ s.sameRegs u [aFPSTAT p, aFPCTL p] ∧ s.sameMem u)

/-- R259 to R262: on an UP port 256 bytes that are no flit (the check fails, a reserved encoding, a reserved bit set) are discarded, counted in
FPCNT.CRCERR and NAKed once, and a flit out of sequence is NAKed once, uncounted; one in sequence is taken, and a packet that fits its HEAD flit and is
for this device waits for its row; credits and acknowledgements of any good flit are taken; a NAK has every unacknowledged flit sent again, in order. What
is owed goes out with the acknowledgement timer; unacknowledged flits that time out take the port into RETRAIN. R264, R438: the replay window records its
count, and above the threshold warns once. -/
def Obligations.FlitsAndReplay : Prop :=
  (∀ (s : State) (p : Nat) (bs : List Nat), p < 8 → s.portUp p = true →
    let nakSent : List Out := [.flit p ((s.port p).flit (s.port p).txSeq 0 0 true []).bytes]
    (flitParse bs = none →
      Gives (exec (.flit p bs) s) fun u =>
        u.fld (FPCNT_CRCERR p) = min (2 ^ 32 - 1) (s.fld (FPCNT_CRCERR p) + 1) ∧ (u.port p).rxSeq = (s.port p).rxSeq ∧ (u.port p).nakHold = true
          ∧ u.sent = s.sent ++ (if (s.port p).nakHold then [] else nakSent) ∧ s.sameRegs u [aFPCNT p] ∧ s.sameMem u) ∧
    ∀ f, flitParse bs = some f →
      (plainFlit f → f.ftype = 1 ∨ f.ftype = 2 → f.fseq ≠ (s.port p).rxSeq → (s.port p).txq = [] →
        Gives (exec (.flit p bs) s) fun u =>
          (u.port p).rxSeq = (s.port p).rxSeq ∧ (u.port p).inbox = (s.port p).inbox ∧ (u.port p).nakHold = true
            ∧ u.sent = s.sent ++ (if (s.port p).nakHold then [] else nakSent) ∧ s.sameRegs u [] ∧ s.sameMem u) ∧
      (plainFlit f → f.ftype = 1 → f.fseq = (s.port p).rxSeq → (s.port p).txq = [] → (s.port p).accepted < 255 →
        let q := pktParse f.vc f.body
        32 + (if q.opc = 2 then 0 else q.len) ≤ f.body.length → pktMalformed q = false → q.drank = s.rank →
        Gives (exec (.flit p bs) s) fun u =>
          (u.port p).inbox = (s.port p).inbox ++ [q] ∧ (u.port p).rxSeq = ((s.port p).rxSeq + 1) % 4096 ∧ (u.port p).ackDue = true ∧ u.sent = s.sent
            ∧ s.sameRegs u [] ∧ s.sameMem u) ∧
      (f.nak = false → f.ftype = 0 → (s.port p).txq = [] →
        Gives (exec (.flit p bs) s) fun u =>
          (u.port p).crd = [nth 0 (s.port p).crd 0 + f.crdd, nth 0 (s.port p).crd 1 + f.crdc, nth 0 (s.port p).crd 2 + f.crds]
            ∧ (u.port p).unacked = (if f.ackv then ((s.port p).acked f.ackseq).unacked else (s.port p).unacked)
            ∧ u.sent = s.sent ∧ s.sameRegs u [] ∧ s.sameMem u) ∧
      (f.nak = true → f.ftype = 0 → (s.port p).txq = [] → (s.port p).naks < 7 →
        Gives (exec (.flit p bs) s) fun u =>
          (∃ fs : List Flit, u.sent = s.sent ++ fs.map (fun g => Out.flit p g.bytes) ∧ fs.map (fun g => (g.fseq, g.ftype, g.vc, g.body))
              = ((s.port p).acked f.ackseq).unacked.map (fun e => (e.1, e.2.ftype, e.2.vc, e.2.body)))
            ∧ u.fld (FPCNT_RETRY p) = min (2 ^ 32 - 1) (s.fld (FPCNT_RETRY p) + 1) ∧ s.sameRegs u [aFPCNT p] ∧ s.sameMem u)) ∧
  (∀ (s : State) (p : Nat), s.portUp p = true → (s.port p).ackDue = true →
    Gives (exec (.ackTimer p) s) fun u =>
      u.sent = s.sent ++ [.flit p ((s.port p).flit (s.port p).txSeq 0 0 false []).bytes]
        ∧ (u.port p).ackDue = false ∧ s.sameRegs u [] ∧ s.sameMem u) ∧
  (∀ (s : State) (p : Nat),
    Gives (exec (.nakHoldEnd p) s) fun u => u.port p = { s.port p with nakHold := false } ∧ s.sameRegs u [] ∧ s.sameMem u ∧ u.sent = s.sent) ∧
  (∀ (s : State) (p : Nat) (e : Nat × Flit) (es : List (Nat × Flit)), (s.port p).unacked = e :: es → s.portUp p = true →
    Gives (exec (.ackTimeout p) s) fun u =>
      u.fld (FPSTAT_STATE p) = 5 ∧ (u.port p).retraining = true ∧ (u.port p).unacked = (s.port p).unacked
        ∧ u.reports = s.reports ++ [⟨halfOfPort p, 0x43, 1, srcOf 3 p, 0, e.1, s.now⟩] ∧ s.sameRegs u [aFPSTAT p] ∧ s.sameMem u) ∧
  (∀ (s : State) (p : Nat) (c : MPortCfg), s.img.mports.find? (fun q => q.1 == p) = some (p, c) → p < 8 →
    Gives (exec (.replayWindowEnd p) s) fun u =>
      u.fld (FPRATE_LAST p) = min 65535 (s.port p).replays ∧ (u.port p).replays = 0 ∧
      (c.rthr < (s.port p).replays → (s.port p).warned = false →
        u.flag (FPRATE_WARN p) = true ∧ bitOf (u.reg aGCKHINT).toNat 1 = true
          ∧ ⟨halfOfPort p, 0x42, 1, srcOf 3 p, 0, min 65535 (s.port p).replays, s.now⟩ ∈ u.reports) ∧
      ((s.port p).replays ≤ c.rthr ∨ (s.port p).warned = true → s.sameRegs u [aFPRATE p] ∧ u.reports = s.reports ∧ s.sameMem u)) ∧
  ∀ (s : State), Gives (exec .hintHoldoffEnd s) fun u => u.hintHold = false ∧ s.sameRegs u [] ∧ s.sameMem u ∧ u.sent = s.sent

/-- R180, R257, R267 to R270, R274, R276, R277, R498: a WRITE into a tile's bank is performed whole and acknowledged, and its token rises; a READ of a
bank is answered with the bytes; a mailbox operation is performed on its word and answered with the old word; a remote reset that fails a condition is
reported and changes nothing else, one that passes with KIND 1 resets the device. Any of these rows whose packet is for another device passes it on to
its route's port with HOPS one lower. -/
def Obligations.PacketsAreServed : Prop :=
  (∀ (s : State) (port : Nat) (p : Pkt), s.arrives port p 1 → inTileWindow p.addr = true → p.addr < 2 ^ 48 → p.data.length = p.len → p.pmask = 0 →
    s.isMem p.addr p.len = true → winOff p.addr + p.len ≤ 0x1F0000 → (s.tile (winTile p.addr)).marking = false →
    s.flag (TFLIP_PEND (winTile p.addr)) = false → p.dtk < 32 →
    Gives (exec (.writePacket port p) s) fun u =>
      (∀ k < p.len, (u.tile (winTile p.addr)).classOf (winOff p.addr + k) = .good (nth 0 p.data k % 256)) ∧
      (∀ j off, (j = winTile p.addr → off < winOff p.addr ∨ winOff p.addr + p.len ≤ off) → (u.tile j).code off = (s.tile j).code off) ∧
      (∀ a, u.stkByte a = s.stkByte a ∧ u.markOf a = s.markOf a) ∧
      (p.dtken = false → s.sameRegs u []) ∧
      (p.dtken = true → u.fld (TTOK_COUNT (winTile p.addr) p.dtk) = min 65535 (s.fld (TTOK_COUNT (winTile p.addr) p.dtk) + 1)
        ∧ s.sameRegs u [aTTOK (winTile p.addr) p.dtk, aTSQSTAT (winTile p.addr)]) ∧
      answers s (mkPkt 1 4 p.srank p.addr 0 p.tag p.tgen) u) ∧
  (∀ (s : State) (port : Nat) (p : Pkt), s.arrives port p 2 → inTileWindow p.addr = true → p.addr < 2 ^ 48 → s.isMem p.addr p.len = true →
    (s.tile (winTile p.addr)).cleanRange (winOff p.addr) p.len →
    Gives (exec (.readPacket port p) s) fun u =>
      answers s { mkPkt 0 3 p.srank p.addr p.len p.tag p.tgen with data := (s.tile (winTile p.addr)).bytesAt (winOff p.addr) p.len } u
        ∧ s.sameRegs u [] ∧ s.sameMem u) ∧
  (∀ (s : State) (port t i : Nat) (p : Pkt), s.arrives port p 5 → mboxAt p.addr = some (t, i) →
    let op := le p.data 0 1
    op = 1 ∨ (s.tile t).marking = false →
    let old := s.reg (aTMBX t i)
    Gives (exec (.mbxPacket port p) s) fun u =>
      u.reg (aTMBX t i) = mbxNew op old (BitVec.ofNat 64 (le p.data 8 8)) (BitVec.ofNat 64 (le p.data 16 8)) ∧ s.sameRegs u [aTMBX t i] ∧ s.sameMem u
        ∧ answers s { mkPkt 2 6 p.srank p.addr 8 p.tag p.tgen with data := leBytes 8 (if op = 0 then 0 else old.toNat) } u) ∧
  (∀ (s : State) (port : Nat) (p : Pkt), s.arrives port p 8 →
    (s.rrFail p ≠ 0 →
      Gives (exec (.rresetPacket port p) s) fun u =>
        u.reports = s.reports ++ [⟨halfOfPort port, 0x49, 1, srcOf 3 port, 0, s.rrFail p + p.srank * 65536, s.now⟩] ∧ s.sameRegs u [] ∧ s.sameMem u
          ∧ u.boot = s.boot ∧ u.ctxs = s.ctxs) ∧
    (s.rrFail p = 0 → le p.data 16 1 = 1 → s.boot = .up → p.data.length = 56 →
      Gives (exec (.rresetPacket port p) s) fun u =>
        u.boot = .inReset ∧ u.held = (if s.held.contains 6 then s.held else s.held ++ [6]) ∧ u.fld CRSTCAUSE_LAST = 6
          ∧ u.fld FRRCTR_CTR = le p.data 0 8 % 2 ^ 64)) ∧
  ∀ r ∈ ([(.writePacket, 1), (.readPacket, 2), (.rdcpl, 3), (.wrack, 4), (.mbxPacket, 5), (.mbxrsp, 6), (.rresetPacket, 8)] :
      List ((Nat → Pkt → Instr) × Nat)), ∀ (s : State) (port k : Nat) (p : Pkt), p.opc = r.2 → s.mesh.contains p = false → s.rxTurn port p = true →
    pktMalformed p = false → p.drank ≠ s.rank → p.hops ≠ 0 → s.routePort p.drank = some k → pktMinor p ≤ s.fld (FPSTAT_VER k) →
    Gives (exec (r.1 port p) s) fun u => Out.pkt k { p with hops := p.hops - 1 } ∈ u.sent ∧ s.sameRegs u [] ∧ s.sameMem u ∧ u.reports = s.reports

/-- R267, R271 to R274, R292, R295: a read completion or a mailbox answer that matches an outstanding read by tag and generation answers it, and
an acknowledgement ends the write it matches; one that matches nothing is counted in LATECPL. A read with no reply in time is ended, its tag
quarantined and type 0x45 reported; a scalar store without acknowledgement is ended and reported. A route entry takes its value at once, unless writes
toward its rank are unacknowledged: then it waits. -/
def Obligations.RepliesAndTimeouts : Prop :=
  (∀ r ∈ ([(.rdcpl, 3), (.mbxrsp, 6)] : List ((Nat → Pkt → Instr) × Nat)), ∀ (s : State) (port : Nat) (p : Pkt), s.arrives port p r.2 →
    (∀ x, s.readFor p = some x →
      Gives (exec (r.1 port p) s) fun u =>
        { x with st := 1, cst := p.cst, bytes := pktData p } ∈ u.reads ∧ (∀ y ∈ s.reads, y.rid ≠ x.rid → y ∈ u.reads) ∧ s.sameRegs u [] ∧ s.sameMem u) ∧
    (s.readFor p = none → (∀ w ∈ s.writes, w.from p = false ∨ w.tag ≠ p.tag ∨ w.gen ≠ p.tgen) →
      Gives (exec (r.1 port p) s) fun u =>
        u.reads = s.reads ∧ u.fld LATECPL_COUNT = min (2 ^ LATECPL_COUNT.w - 1) (s.fld LATECPL_COUNT + 1) ∧ s.sameRegs u [aLATECPL] ∧ s.sameMem u)) ∧
  (∀ (s : State) (port : Nat) (p : Pkt), s.arrives port p 4 →
    (∀ w, s.writes.find? (fun w => w.from p && w.tag == p.tag && w.gen == p.tgen && w.addr == p.addr && w.kind != 5) = some w →
      w.kind = 0 → s.routeWait = [] →
      Gives (exec (.wrack port p) s) fun u => u.writes = s.writes.erase w ∧ s.sameRegs u [] ∧ s.sameMem u) ∧
    ((∀ w ∈ s.writes, w.from p = false ∨ w.tag ≠ p.tag ∨ w.gen ≠ p.tgen) →
      Gives (exec (.wrack port p) s) fun u =>
        u.writes = s.writes ∧ u.fld LATECPL_COUNT = min (2 ^ LATECPL_COUNT.w - 1) (s.fld LATECPL_COUNT + 1) ∧ s.sameRegs u [aLATECPL] ∧ s.sameMem u)) ∧
  (∀ (s : State) (rid : Nat) (x : FarRead), s.reads.find? (fun r => r.rid == rid && r.st == 0) = some x →
    Gives (exec (.readTimeout rid) s) fun u =>
      { x with st := 2 } ∈ u.reads ∧ u.quar = s.quar ++ [x.tag] ∧ u.fld LATECPL_QUAR = (s.quar.length + 1) % 2 ^ LATECPL_QUAR.w
        ∧ (∃ h, u.reports = s.reports ++ [⟨h, 0x45, 2, x.src, x.dst * 2 ^ 48 + x.addr, x.tag * 65536, s.now⟩]) ∧ s.sameRegs u [aLATECPL] ∧ s.sameMem u) ∧
  (∀ (s : State) (tag : Nat),
    Gives (exec (.tagQuarantineEnd tag) s) fun u =>
      u.quar = s.quar.filter (· != tag) ∧ u.fld LATECPL_QUAR = u.quar.length % 2 ^ LATECPL_QUAR.w ∧ s.sameRegs u [aLATECPL] ∧ s.sameMem u ∧ u.reads = s.reads) ∧
  (∀ (s : State) (wid : Nat) (w : FarWrite), s.writes.find? (fun w => w.wid == wid) = some w → w.kind = 0 → s.routeWait = [] →
    Gives (exec (.writeAckTimeout wid) s) fun u =>
      u.writes = s.writes.erase w ∧ (∃ h, u.reports = s.reports ++ [⟨h, 0x45, 2, w.src, w.dst * 2 ^ 48 + w.addr, 1 + w.tag * 65536, s.now⟩])
        ∧ s.sameRegs u [] ∧ s.sameMem u) ∧
  ∀ (s : State) (c r v : Nat), s.pfOrFw c = true → r < 65536 → s.routeWait = [] →
    ((∀ w ∈ s.writes, w.dst ≠ r) →
      Gives (exec (.routeEntryWrite c r v) s) fun u =>
        u.routeEntry r = v % 256 ∧ (∀ k, k < 65536 → k ≠ r → u.routeEntry k = s.routeEntry k) ∧ u.routeWait = [] ∧ s.sameRegs u [aFROUTE (r / 8)] ∧ s.sameMem u) ∧
    ((∃ w ∈ s.writes, w.dst = r) →
      Gives (exec (.routeEntryWrite c r v) s) fun u => u.routeWait = [(r, v % 256)] ∧ s.sameRegs u [] ∧ s.sameMem u)

/-- R261, R265, R266: a packet survives its flits. The bodies of a sound packet's flits, joined, are read back as that very packet, whatever its header
fields and payload: the padding of the last flit changes nothing. R259, R260: a flit whose fields fit Table 8.5 and whose FTYPE and VC are not reserved
is 256 bytes, and those bytes pass the check and are read back as that very flit. -/
def Obligations.PacketsSurviveTheirFlits : Prop :=
  (∀ (p : Pkt), okPkt p = true → p.rsv = false → p.data.length = (if p.opc = 2 then 0 else p.len) →
    pktParse p.vc ((pktFlits p).map (·.2)).flatten = p ∧ (∀ f ∈ pktFlits p, f.2.length = 244)
      ∧ (pktFlits p).map (·.1) = 1 :: List.replicate ((31 + p.data.length) / 244) 2) ∧
  ∀ (f : Flit), f.fseq < 4096 → f.ftype < 4 → f.vc < 3 → f.ackseq < 4096 → f.crdd < 256 → f.crdc < 256 → f.crds < 256 → f.body.length = 244 →
    (∀ b ∈ f.body, b < 256) → f.bytes.length = 256 ∧ flitParse f.bytes = some f

/-- R367 to R369, R371, R392 to R394, Table 12.3: GO for the step after LAST starts a decision and any other sets ERR; the decision that completes writes
GDECIDE, GCLIP, GNORM and GSTEP with the computation of R368, an exponent overflow always skipping with cause 1 and c = 1.0, and moves the loss scale;
a non-finite entry is logged while its ring has room and counted as lost after that; a stage word is written whole by PF 0 or firmware, when no RUN
works on its shard. A context that may not is refused. -/
def Obligations.TrainingStepDecision : Prop :=
  (∀ (s : State) (c step vote : Nat),
    (s.trainMay c = true → s.decision = none → step % 2 ^ 32 = (s.fld GSTEP_LAST + 1) % 2 ^ 32 →
      Gives (exec (.gstepinGo c step vote) s) fun u =>
        u.decision = some (step % 2 ^ 32, vote % 512, (s.reg aGSTEPNSQ).toNat) ∧ s.sameRegs u [] ∧ s.sameMem u) ∧
    (s.trainMay c = true → s.decision ≠ none ∨ step % 2 ^ 32 ≠ (s.fld GSTEP_LAST + 1) % 2 ^ 32 →
      Gives (exec (.gstepinGo c step vote) s) fun u => u.flag GDECIDE_ERR = true ∧ u.decision = s.decision ∧ s.sameRegs u [aGDECIDE] ∧ s.sameMem u) ∧
    (s.trainMay c = false → Gives (exec (.gstepinGo c step vote) s) (refused s))) ∧
  (∀ (s : State) (st v n : Nat), s.decision = some (st, v, n) → st < 2 ^ 32 → s.fld GLEDCTL_MODE = 0 →
    let ex := toIntW 8 (s.fld GLSCALE_EXP)
    let d := decideStep v n ex (s.fld GNRMCFG_CLIPN) (s.fld GNRMCFG_MAXN)
    Gives (exec .decisionComplete s) fun u =>
      u.decision = none ∧ u.fld GSTEP_LAST = st ∧ u.fld GDECIDE_STEP = st ∧ u.flag GDECIDE_SKIP = d.skip ∧ u.fld GDECIDE_CAUSE = d.cause
        ∧ u.flag GDECIDE_CLIPPED = d.clipped ∧ u.fld GDECIDE_LSEXP = s.fld GLSCALE_EXP ∧ u.fld GCLIP_C = d.c % 2 ^ 32
        ∧ u.fld GNORM_N2 = d.n2 % 2 ^ 32 ∧ u.fld GNORM_NORM = d.norm % 2 ^ 32 ∧
      (256 ≤ v → u.flag GDECIDE_SKIP = true ∧ u.fld GDECIDE_CAUSE = 1 ∧ u.fld GCLIP_C = 0x3F800000
        ∧ u.fld GSKIPCNT_OVF = min 65535 (s.fld GSKIPCNT_OVF + 1)) ∧
      (d.skip = true → d.cause ≠ 3 → u.fld GLSCALE_CLEAN = 0 ∧ (-32 < ex → u.fld GLSCALE_EXP = ofIntW 8 (ex - 1))
        ∧ (ex ≤ -32 → u.fld GLSCALE_EXP = s.fld GLSCALE_EXP ∧ u.flag GLSCALE_ATMIN = true)) ∧
      (d.skip = true → d.cause = 3 → u.reg aGLSCALE = s.reg aGLSCALE) ∧
      (d.skip = false → s.fld GLSCALE_CLEAN + 1 < s.fld GLSCFG_INTERVAL →
        u.fld GLSCALE_CLEAN = s.fld GLSCALE_CLEAN + 1 ∧ u.fld GLSCALE_EXP = s.fld GLSCALE_EXP) ∧
      (d.skip = false → s.fld GLSCFG_INTERVAL ≤ s.fld GLSCALE_CLEAN + 1 → u.fld GLSCALE_CLEAN = 0
        ∧ (ex < 48 → u.fld GLSCALE_EXP = ofIntW 8 (ex + 1)) ∧ (48 ≤ ex → u.fld GLSCALE_EXP = s.fld GLSCALE_EXP ∧ u.flag GLSCALE_ATMAX = true)) ∧
      s.sameRegs u [aGDECIDE, aGCLIP, aGNORM, aGSTEP, aGSKIPCNT, aGLSCALE] ∧ s.sameMem u) ∧
  (∀ (s : State) (c : Nat) (v : BitVec 64), s.trainMay c = true →
    let wp := s.fld GNFPTR_WP
    ((wp + 16 - s.fld GNFPTR_RP) % 16 ≠ 8 →
      Gives (exec (.nonfiniteLog c v) s) fun u =>
        u.reg (aGNFREC (wp % 8)) = v ∧ u.reg (aGNFTIM (wp % 8)) = BitVec.ofNat 64 s.now ∧ u.fld GNFPTR_WP = (wp + 1) % 16
          ∧ s.sameRegs u [aGNFREC (wp % 8), aGNFTIM (wp % 8), aGNFPTR] ∧ s.sameMem u) ∧
    ((wp + 16 - s.fld GNFPTR_RP) % 16 = 8 →
      Gives (exec (.nonfiniteLog c v) s) fun u =>
        u.fld GNFPTR_LOST = min 65535 (s.fld GNFPTR_LOST + 1) ∧ u.fld GNFPTR_WP = wp ∧ s.sameRegs u [aGNFPTR] ∧ s.sameMem u)) ∧
  ∀ (s : State) (c st n : Nat) (v : BitVec 64), st < 8 → n < 4096 →
    (s.pfOrFw c = true → s.shardBusy st n = false →
      Gives (exec (.sstageWrite c st n v) s) fun u =>
        u.fld (SSTAGE_STEP st n) = bitsOf v.toNat (SSTAGE_STEP st n).lo (SSTAGE_STEP st n).w ∧ u.fld (SSTAGE_STAGE st n) = bitsOf v.toNat (SSTAGE_STAGE st n).lo (SSTAGE_STAGE st n).w
          ∧ s.sameRegs u [aSSTAGE st n] ∧ s.sameMem u) ∧
    (s.pfOrFw c = true → s.shardBusy st n = true →
      Gives (exec (.sstageWrite c st n v) s) fun u => u.stageWait = s.stageWait ++ [(st, n, 2 ^ 64 - 1, v.toNat)] ∧ s.sameRegs u [] ∧ s.sameMem u) ∧
    (s.pfOrFw c = false → exec (.sstageWrite c st n v) s = .next s)

/-- R391: the phase timers. A start records site time and opens its phase while that is closed, and is ignored while it is open; an end records site time
while the phase is open; a clear closes the phase and keeps both times. Phases 6 and 7 and kind 3 are ignored. Any tile and the host may mark, whichever
context it is. -/
def Obligations.PhaseTimers : Prop :=
  (∀ (s : State) (c p : Nat), p < 6 →
    (s.phaseOpen p = false →
      Gives (exec (.phaseStart c p) s) fun u =>
        u.reg (aGPHS p) = BitVec.ofNat 64 s.now ∧ u.phaseOpen p = true ∧ (∀ q, q < 6 → q ≠ p → u.phaseOpen q = s.phaseOpen q)
          ∧ s.sameRegs u [aGPHS p, aGPHOPEN] ∧ s.sameMem u) ∧
    (s.phaseOpen p = true →
      Gives (exec (.phaseEnd c p) s) (fun u => u.reg (aGPHE p) = BitVec.ofNat 64 s.now ∧ s.sameRegs u [aGPHE p] ∧ s.sameMem u) ∧
      Gives (exec (.phaseClear c p) s) fun u => u.phaseOpen p = false ∧ (∀ q, q < 6 → q ≠ p → u.phaseOpen q = s.phaseOpen q) ∧ s.sameRegs u [aGPHOPEN] ∧ s.sameMem u) ∧
    (s.phaseOpen p = true → exec (.phaseStart c p) s = .next s) ∧
    (s.phaseOpen p = false → exec (.phaseEnd c p) s = .next s ∧ exec (.phaseClear c p) s = .next s)) ∧
  (∀ (s : State) (c p : Nat), 6 ≤ p →
    exec (.phaseStart c p) s = .next s ∧ exec (.phaseEnd c p) s = .next s ∧ exec (.phaseClear c p) s = .next s) ∧
  ∀ (s : State) (p : Nat), s.phaseMark p 3 = s

/-- R431, R433, R434, R435, R436, R427: GLEDCTL written by PF 0 or firmware. From off, replay forces determinism and recording begins with a CONFIG
record; any other context is refused. Outside replay a write of GLEDRP only frees ring space. A GAP record that is due and fits is written, committed
and carries the number of records lost. -/
def Obligations.LedgerCommands : Prop :=
  (∀ (s : State) (c : Nat) (far : Bool),
    (s.pfOrFw c = true → s.fld GLEDCTL_MODE = 0 →
      Gives (exec (.ledgerModeWrite c 2 far) s) (fun u =>
        u.fld GLEDCTL_MODE = 2 ∧ u.flag GLEDCTL_FAR = far ∧ u.flag GCTL_DETMF = true ∧ u.ledRd = s.fld GLEDRP_RP ∧ u.ledIn = []
          ∧ s.sameRegs u [aGLEDCTL, aGCTL] ∧ s.sameMem u) ∧
      (s.ringBytes ≠ 0 → s.ledGap = 0 → s.ledFits 128 = true → s.ledPad (s.fld GLEDWP_WP) 128 = 0 →
        Gives (exec (.ledgerModeWrite c 1 far) s) fun u => u.fld GLEDCTL_MODE = 1 ∧ u.fld GLEDWP_WP = (s.fld GLEDWP_WP + 128) % 2 ^ 64 ∧ u.ledGap = 0) ∧
      Gives (exec (.ledgerModeWrite c 0 far) s) fun u => u.fld GLEDCTL_MODE = 0 ∧ u.flag GLEDCTL_FAR = far ∧ s.sameRegs u [aGLEDCTL] ∧ s.sameMem u) ∧
    (∀ m, s.pfOrFw c = false → Gives (exec (.ledgerModeWrite c m far) s) (refused s))) ∧
  (∀ (s : State) (rp : Nat), rp < 2 ^ 64 → s.replay = false →
    Gives (exec (.ledgerRpWrite rp) s) fun u => u.fld GLEDRP_RP = rp ∧ s.sameRegs u [aGLEDRP] ∧ s.sameMem u) ∧
  ∀ (s : State), s.fld GLEDCTL_MODE = 1 →
    (s.ledGap ≠ 0 → s.ledFits 64 = true → s.ledPad (s.fld GLEDWP_WP) 64 = 0 → s.detm = false →
      let d := s.ringAddr (s.fld GLEDWP_WP)
      Gives (exec .gapRecord s) fun u =>
        u.ledGap = 0 ∧ u.fld GLEDWP_WP = (s.fld GLEDWP_WP + 64) % 2 ^ 64 ∧ u.fld GLEDCP_CP = u.fld GLEDWP_WP
          ∧ u.fld GLEDSEQ_NEXT = (s.fld GLEDSEQ_NEXT + 1) % 2 ^ 64 ∧
        (s.isMem d 64 = true → d < 0x8000000000 → d % 64 = 0 → s.hitsFailed d 64 = false → s.fld GLEDWP_WP < 2 ^ 64 - 64 →
          u.stkByte (d + 16) = 9 ∧ ofLE ((List.range 8).map fun i => u.stkByte (d + 20 + i)) = s.ledGap % 2 ^ 64
            ∧ ofLE ((List.range 8).map fun i => u.stkByte (d + i)) = s.fld GLEDSEQ_NEXT)) ∧
    (s.ledGap = 0 ∨ s.ledFits 64 = false → exec .gapRecord s = .next s)

/-- R403 to R405: a FRAG or CATCH descriptor stored to XSUB that reads clean joins the unit's list; one that is misaligned, not permitted, or the ninth
sets XEVT.CMDERR. A port sends control frames before data, and of the descriptor at the head one packet to the next live recipient, whose frame the
token bucket holds; when every recipient has had the folio the next one is due. -/
def Obligations.FarSending : Prop :=
  (∀ r ∈ ([(.farSendFrag, 1), (.farSendCatch, 4)] : List ((Nat → Nat → Instr) × Nat)), ∀ (s : State) (c a : Nat),
    (s.trainMay c = false → Gives (exec (r.1 c a) s) (refused s)) ∧
    (s.trainMay c = true → s.far.jobs.length < 8 → s.ctxMay c a 64 = true → a % 64 = 0 → s.isLocal a = true → inTileWindow a = true →
      s.isMem (addrDev a) 64 = true → (s.tile (winTile a)).cleanRange (winOff a) 64 → (∀ j ∈ s.far.jobs, j.folio < fdNfrag j.desc) →
      let d := (s.tile (winTile a)).bytesAt (winOff a) 64
      fdType d = r.2 → fdWrong d = false → fdNfrag d ≠ 0 →
      Gives (exec (r.1 c a) s) fun u => u.far.jobs = s.far.jobs ++ [⟨d, a, c, 0, 0, none⟩] ∧ s.sameRegs u [] ∧ s.sameMem u ∧ u.sent = s.sent) ∧
    (s.trainMay c = true → 8 ≤ s.far.jobs.length ∨ s.ctxMay c a 64 = false ∨ a % 64 ≠ 0 →
      Gives (exec (r.1 c a) s) fun u => u.flag XEVT_CMDERR = true ∧ u.far = s.far ∧ s.sameMem u)) ∧
  ∀ (s : State) (p : Nat), p < 2 → s.replay = false →
    (∀ f fs, s.farQueue p = f :: fs → s.farUp p = true → farCost f ≤ s.farLevel p →
      Gives (exec (.farPacketTransmit p) s) fun u =>
        u.sent = s.sent ++ [.far p f] ∧ u.farQueue p = fs ∧ u.far.jobs = s.far.jobs ∧ s.sameRegs u [aXPCNT p] ∧ s.sameMem u) ∧
    (s.farQueue p = [] → s.frozen = true → exec (.farPacketTransmit p) s = .next s) ∧
    (∀ j js folio n rest due f, s.farQueue p = [] → s.frozen = false → s.far.repairs = [] → s.far.jobs = j :: js → fdType j.desc = 1 →
      s.folioAt j.desc j.off = (some folio, s) →
      ((j.owed.getD ((List.range 16).filter fun n => bitOf (fdMask j.desc) n)).filter fun n => s.pState n == 1 || s.pState n == 3) = n :: rest →
      s.farRoute j.desc (fdFbase j.desc + j.folio) = (due, some p) →
      s.farFrame n p (farData j.desc (fdFbase j.desc + j.folio) folio) = some f → farCost f ≤ s.farLevel p → j.folio + 1 < fdNfrag j.desc →
      Gives (exec (.farPacketTransmit p) s) fun u =>
        u.sent = s.sent ++ [.far p f] ∧ u.fld (XPCNT_TXPKT p) = min (2 ^ 32 - 1) (s.fld (XPCNT_TXPKT p) + 1) ∧ s.sameRegs u [aXPCNT p] ∧ s.sameMem u
          ∧ u.far.jobs = (if rest = [] then { j with folio := j.folio + 1, off := j.off + folio.length, owed := none }
              else { j with owed := some rest }) :: js)

/-- R407, R408, R414 to R417: a frame on an up port that fails a check is discarded and counted by what failed. A FRAG that counts, lies in the window and
is new is filed in the lowest free slot; one seen before is a duplicate. HELLO settles the version and the partner's sealed round; JOIN makes its
sender CATCHING; CATCH files a page while the accession runs and ends it with the last one; ENTER makes a CATCHING partner ACTIVE from its round.
R395: a solicitation for the port's address is answered. -/
def Obligations.FarReceiving : Prop :=
  (∀ r ∈ ([(.fragPacket, ftFrag), (.farHello, ftHello), (.joinPacket, ftJoin), (.catchPacket, ftCatch), (.enterPacket, ftEnter)] :
      List ((Nat → List Nat → Instr) × Nat)), ∀ (s : State) (p : Nat) (fr : List Nat), s.farUp p = true → s.replay = false →
    (s.farCheck p fr = .drop →
      Gives (exec (r.1 p fr) s) fun u => u.fld (XPDROP_RXDROP p) = min (2 ^ 32 - 1) (s.fld (XPDROP_RXDROP p) + 1) ∧ s.sameRegs u [aXPDROP p] ∧ s.sameMem u ∧ u.far = s.far) ∧
    (s.farCheck p fr = .malform →
      Gives (exec (r.1 p fr) s) fun u => u.fld XCNT2_MALFORM = min (2 ^ 32 - 1) (s.fld XCNT2_MALFORM + 1) ∧ s.sameRegs u [aXCNT2] ∧ s.sameMem u ∧ u.far = s.far) ∧
    (∀ site k, s.farCheck p fr = .tag site k →
      Gives (exec (r.1 p fr) s) fun u => u.fld XCNT2_TAGFAIL = min (2 ^ 32 - 1) (s.fld XCNT2_TAGFAIL + 1) ∧ s.sameRegs u [aXCNT2] ∧ s.sameMem u ∧ u.far = s.far
        ∧ u.reports = s.reports ++ [⟨p, 0x62, 1, srcOf 4 p, 0, site + 16 * k, s.now⟩])) ∧
  (∀ (s : State) (p site ver : Nat) (m : FarMsg) (fr : List Nat), s.farUp p = true → s.replay = false → s.farCheck p fr = .ok site ver m →
    let one := fun (u : State) => u.fld (XPCNT_RXPKT p) = min (2 ^ 32 - 1) (s.fld (XPCNT_RXPKT p) + 1)
    (m.typ = ftFrag → s.pCounts site m.round = true → s.fld XRSTAT_SEALED + 1 ≤ m.round + s.fld XCFG_STALE → m.round ≤ s.fld XRSTAT_SEALED + 3 →
      m.frag < m.nfrag → m.nfrag ≤ 2 ^ 20 → (s.nfragOf site m.round).getD m.nfrag = m.nfrag →
      (s.far.seen.contains (site, m.round, m.frag) = false → s.flag XRSTAT_WAITING = false → ∀ n, s.freeSlot p = some n →
        Gives (exec (.fragPacket p fr) s) fun u =>
          u.far.filed = s.far.filed ++ [⟨p, n, site, m.round, m.frag, m.payload.length, none⟩] ∧ u.far.seen = s.far.seen ++ [(site, m.round, m.frag)] ∧ one u) ∧
      (s.far.seen.contains (site, m.round, m.frag) = true →
        Gives (exec (.fragPacket p fr) s) fun u =>
          u.fld XCNT1_DUP = min 65535 (s.fld XCNT1_DUP + 1) ∧ u.far = s.far ∧ s.sameRegs u [aXCNT1] ∧ s.sameMem u)) ∧
    (m.typ = ftHello → ver = 1 ∨ ver = 2 → m.aux ≤ s.fld XRSTAT_SEALED + s.fld XCFG_STALE →
      Gives (exec (.farHello p fr) s) fun u =>
        u.pVer site = max 1 (min ver (s.fld XCFG_MAXVER)) ∧ bitsOf (u.pw site 5) 0 32 = m.aux % 2 ^ 32 ∧ one u ∧ s.sameMem u ∧ u.far = s.far
          ∧ s.sameRegs u [aXPART (site * 8), aXPART (site * 8 + 5), aXPART (site * 8 + 6), aXPCNT p]) ∧
    (m.typ = ftJoin →
      Gives (exec (.joinPacket p fr) s) fun u =>
        u.pState site = 3 ∧ one u ∧ (bitOf m.flag 0 = true → u.flag XEVT_JOINREQ = true ∧ u.fld XEVT_JSITE = site)
          ∧ (s.flag XRSTAT_WAITING = false → s.sameMem u
            ∧ (bitOf m.flag 0 = false → bitOf m.flag 1 = false → s.sameRegs u [aXPART (site * 8), aXPCNT p] ∧ u.far = s.far))) ∧
    (m.typ = ftEnter → s.pState site = 3 → s.fld XRSTAT_SEALED < m.aux →
      Gives (exec (.enterPacket p fr) s) fun u =>
        u.pState site = 1 ∧ u.pActrnd site = m.aux % 2 ^ 32 ∧ one u
          ∧ (s.flag XRSTAT_WAITING = false → s.sameRegs u [aXPART (site * 8), aXPCNT p] ∧ s.sameMem u)) ∧
    ∀ x, m.typ = ftCatch → s.far.accession = 1 → s.far.catch_ = some x → 2 ≤ bitsOf m.flag 2 2 → bitsOf m.flag 0 2 < bitsOf m.flag 2 2 →
      m.frag < m.nfrag → m.round = x.base → x.got.contains (bitsOf m.flag 0 2, m.frag) = false → m.frag < s.fld (XAREA_COUNT (4 + bitsOf m.flag 0 2)) →
      let y := { x with pages := SMap.set (fun _ => 0) x.pages (bitsOf m.flag 0 2) m.nfrag, got := x.got ++ [(bitsOf m.flag 0 2, m.frag)] }
      Gives (exec (.catchPacket p fr) s) fun u =>
        u.far.catch_ = some y ∧ one u ∧ (y.whole = false → u.far.accession = 1) ∧
        (y.whole = true → u.far.accession = 2 ∧ u.flag XEVT_CATCHDONE = true ∧ u.fld XRSTAT_SEALED = (x.base + 2 ^ 32 - 1) % 2 ^ 32)) ∧
  ∀ (s : State) (p : Nat) (fr : List Nat), s.farUp p = true → s.replay = false →
    (∀ src, nsSource (s.fport p) fr = some src →
      Gives (exec (.neighborSolicitation p fr) s) fun u =>
        u.farQueue p = s.farQueue p ++ [naFrame (s.fport p) p (s.fld XCFG_SITE) src] ∧ s.sameRegs u [] ∧ s.sameMem u ∧ u.sent = s.sent) ∧
    (nsSource (s.fport p) fr = none →
      Gives (exec (.neighborSolicitation p fr) s) fun u =>
        u.fld (XPDROP_RXDROP p) = min (2 ^ 32 - 1) (s.fld (XPDROP_RXDROP p) + 1) ∧ s.sameRegs u [aXPDROP p] ∧ s.sameMem u ∧ u.far = s.far)

/-- R406, R409 to R411, R414 to R418, R446: CLOSE of the round after the sealed one makes it wait, or seals it when its quorum stands, and any other CLOSE
sets CMDERR; SEAL and the deadline seal a waiting round whose position is free; FREE releases a manifest and the slots it lists; JOIN begins and ENTER
ends an accession; a repair, and HELLO at each interval, are queued for the partners; a link that comes up or is lost is shown and reported; GRSTRND
sets the sealed round of a device that neither waits nor catches. -/
def Obligations.FarRounds : Prop :=
  (∀ (s : State) (c r : Nat) (ownex : Bool), s.trainMay c = true → r < 2 ^ 32 → s.fld GLEDCTL_MODE = 0 →
    let q := ((List.range 16).filter fun n => s.meets n r).length
    let need := min (s.fld XCFG_QUORUM) (s.counting r).length
    (r = s.fld XRSTAT_SEALED + 1 → s.flag XRSTAT_WAITING = false → q < need →
      Gives (exec (.closeRound c r ownex) s) fun u =>
        u.flag XRSTAT_WAITING = true ∧ u.fld XRSTAT_QCOUNT = q % 16 ∧ u.fld XRSTAT_SEALED = s.fld XRSTAT_SEALED ∧ u.far.ownex = ownex
          ∧ u.far.deadline = s.now + s.fld XTMO_DEADLINE * 1000000 ∧ u.far.due = none ∧ s.sameRegs u [aXRSTAT] ∧ s.sameMem u) ∧
    (r = s.fld XRSTAT_SEALED + 1 → s.flag XRSTAT_WAITING = false → need ≤ q → s.roomFor r → Gives (exec (.closeRound c r ownex) s) (sealedAs r s)) ∧
    (r ≠ s.fld XRSTAT_SEALED + 1 ∨ s.flag XRSTAT_WAITING = true →
      Gives (exec (.closeRound c r ownex) s) fun u => u.flag XEVT_CMDERR = true ∧ u.reg aXRSTAT = s.reg aXRSTAT ∧ u.far = s.far ∧ s.sameMem u)) ∧
  (∀ (s : State) (c : Nat), s.trainMay c = true → s.fld GLEDCTL_MODE = 0 → s.fld XRSTAT_SEALED + 1 < 2 ^ 32 → s.roomFor (s.fld XRSTAT_SEALED + 1) →
    (s.flag XRSTAT_WAITING = true →
      Gives (exec (.sealRound c) s) (sealedAs (s.fld XRSTAT_SEALED + 1) s) ∧
      (s.far.deadline ≤ s.now → Gives (exec .roundDeadline s) (sealedAs (s.fld XRSTAT_SEALED + 1) s))) ∧
    (s.flag XRSTAT_WAITING = false → exec (.sealRound c) s = .next s ∧ exec .roundDeadline s = .next s) ∧
    (s.now < s.far.deadline → exec .roundDeadline s = .next s)) ∧
  (∀ (s : State) (c r : Nat), s.trainMay c = true →
    (s.far.manifests.any (fun m => m.1 == r) = true → s.flag XRSTAT_WAITING = false →
      Gives (exec (.freeRound c r) s) fun u =>
        u.far = { s.far with manifests := s.far.manifests.filter fun m => m.1 != r, filed := s.far.filed.filter fun x => x.listed != some r }
          ∧ s.sameRegs u [] ∧ s.sameMem u) ∧
    (s.far.manifests.any (fun m => m.1 == r) = false → exec (.freeRound c r) s = .next s)) ∧
  (∀ (s : State) (c : Nat), s.trainMay c = true →
    Gives (exec (.joinRound c) s) fun u => u.far.accession = 1 ∧ u.far.catch_ = none ∧ u.flag XRSTAT_CATCHING = true ∧ s.sameMem u) ∧
  (∀ (s : State) (c : Nat), s.trainMay c = true →
    (s.flag XRSTAT_CATCHING = true → s.flag XRSTAT_WAITING = false →
      Gives (exec (.enterRound c) s) fun u => u.far.accession = 0 ∧ u.far.catch_ = none ∧ u.flag XRSTAT_CATCHING = false ∧ u.flag XEVT_ENTERED = true ∧ s.sameMem u) ∧
    (s.flag XRSTAT_CATCHING = false ∨ s.flag XRSTAT_WAITING = true →
      Gives (exec (.enterRound c) s) fun u => u.flag XEVT_CMDERR = true ∧ u.reg aXRSTAT = s.reg aXRSTAT ∧ u.far = s.far ∧ s.sameMem u)) ∧
  (∀ (s : State) (n : Nat) (x : Catch) (f : List Nat), s.far.catch_ = some x → s.sponsor = some n → s.far.accession = 1 → x.whole = false →
    s.replay = false → s.farUp 0 = true →
    s.farFrame n 0 ⟨ftJoin, x.base, 0, 0, 2, 0, x.missing.flatMap fun q => leBytes 4 (q.2 % 2 ^ 30 + q.1 * 2 ^ 30)⟩ = some f →
    Gives (exec .catchRepairTimer s) fun u => u.farQueue 0 = s.farQueue 0 ++ [f] ∧ s.sameRegs u [] ∧ s.sameMem u ∧ u.far.accession = 1) ∧
  (∀ (s : State), s.far.accession = 1 →
    Gives (exec .catchTimeout s) fun u => u.far.accession = 3 ∧ u.flag XEVT_CATCHFAIL = true ∧ s.sameMem u
      ∧ ⟨0, 0x69, 2, srcOf 4 0, 0, s.sponsor.getD 0, s.now⟩ ∈ u.reports) ∧
  (∀ (s : State) (n : Nat) (f : List Nat), s.replay = false → s.partners = [n] → s.farUp (s.far.hello % 2) = true → s.pVer n = 1 →
    s.farFrame n (s.far.hello % 2) ⟨ftHello, 0, 0, 0, s.fld XRSTAT_CATCHING, s.fld XRSTAT_SEALED, []⟩ = some f →
    Gives (exec .farHelloInterval s) fun u =>
      u.farQueue (s.far.hello % 2) = s.farQueue (s.far.hello % 2) ++ [f] ∧ u.far.hello = s.far.hello + 1 ∧ s.sameRegs u [] ∧ s.sameMem u) ∧
  (∀ (s : State) (p : Nat), p < 2 → s.pinsOff = false → (s.fport p).en = true →
    (s.boot = .up → s.parked = false → s.farUp p = false → Gives (exec (.farLinkChange p true) s) fun u => u.farUp p = true ∧ s.sameRegs u [aXPSTAT p] ∧ s.sameMem u
      ∧ u.reports = s.reports ++ [⟨p, 0x61, 0, srcOf 4 p, 0, 0, s.now⟩]) ∧
    (s.farUp p = true → Gives (exec (.farLinkChange p false) s) fun u => u.farUp p = false ∧ s.sameRegs u [aXPSTAT p] ∧ s.sameMem u
      ∧ u.reports = s.reports ++ [⟨p, 0x60, 1, srcOf 4 p, 0, 0, s.now⟩])) ∧
  ∀ (s : State) (c v : Nat),
    (s.pfOrFw c = true → s.fld XRSTAT_SEALED = 0 → s.flag XRSTAT_WAITING = false → s.flag XRSTAT_CATCHING = false →
      Gives (exec (.grstrndWrite c v) s) fun u => u.fld XRSTAT_SEALED = v % 2 ^ 32 ∧ s.sameRegs u [aXRSTAT] ∧ s.sameMem u) ∧
    (s.pfOrFw c = false ∨ s.fld XRSTAT_SEALED ≠ 0 ∨ s.flag XRSTAT_WAITING = true ∨ s.flag XRSTAT_CATCHING = true →
      Gives (exec (.grstrndWrite c v) s) fun u => u.flag XEVT_CMDERR = true ∧ u.reg aXRSTAT = s.reg aXRSTAT ∧ s.sameMem u)

/-- R460, R461, R463, R465, R466, R471, R472: a doorbell within the ring sets the tail and one beyond it faults the context (cause 2); HQCFG enabled with
a version other than 1 or 2 faults it (cause 3); the heads take what is written. A fetch reads the next 64-byte entry from host memory and moves
SQHEAD on; its completion adds the command, and one that fails or never comes faults the context (cause 1). A command that has ended writes its entry
and leaves the queue. Vectors held back are signalled when the moderation delay ends. -/
def Obligations.HostQueues : Prop :=
  (∀ (s : State) (c v : Nat), s.boot = .up → c < 512 → s.numbersOk → (s.ctx c).resetDue = none → v < 2 ^ 17 →
    let n := ringSize (s.fld (HQCFG_SQLOG c))
    let gap := (v + 2 * n - s.fld (HQSQHEAD_HEAD c) % (2 * n)) % (2 * n)
    (gap ≤ n → v < 2 * n →
      Gives (exec (.sqDoorbell c v) s) fun u => u.fld (HQSQTAIL_TAIL c) = v ∧ u.flag (HCTXSTAT_FAULT c) = s.flag (HCTXSTAT_FAULT c) ∧ s.sameMem u ∧ u.sent = s.sent) ∧
    (n < gap ∨ 2 * n ≤ v → s.flag (HCTXSTAT_FAULT c) = false → Gives (exec (.sqDoorbell c v) s) (faulted c 2 s))) ∧
  (∀ (s : State) (c v : Nat), s.boot = .up → c < 512 → v < 2 ^ 17 →
    Gives (exec (.completionHeadWrite c v) s) (fun u => u.fld (HQCQHEAD_HEAD c) = v ∧ s.sameRegs u [aHQCQHEAD c] ∧ s.sameMem u ∧ u.ctxs = s.ctxs) ∧
    Gives (exec (.eventHeadWrite c v) s) fun u =>
      u.fld (HQEVHEAD_HEAD c) = v ∧ (u.ctx c).evLogged = false ∧ s.sameRegs u [aHQEVHEAD c] ∧ s.sameMem u) ∧
  (∀ (s : State) (c : Nat) (v : BitVec 64), s.boot = .up → c < 512 → s.numbersOk → v &&& 0x3FF000FFF07 = v →
    let ver := bitsOf v.toNat (HQCFG_VER c).lo (HQCFG_VER c).w
    let en := bitsOf v.toNat (HQCFG_EN c).lo 1
    let logs := [HQCFG_SQLOG c, HQCFG_CQLOG c, HQCFG_EVLOG c].map fun f => bitsOf v.toNat f.lo f.w
    (en = 0 ∨ ((ver = 1 ∨ ver = 2) ∧ ∀ l ∈ logs, l ≤ 10) →
      Gives (exec (.queueEnable c v) s) fun u => u.reg (aHQCFG c) = v ∧ u.flag (HCTXSTAT_FAULT c) = s.flag (HCTXSTAT_FAULT c) ∧ s.sameMem u) ∧
    (en = 1 → (ver = 0 ∨ ver = 3 ∨ ∃ l ∈ logs, 10 < l) → s.flag (HCTXSTAT_FAULT c) = false → Gives (exec (.queueEnable c v) s) (faulted c 3 s))) ∧
  (∀ (s : State) (c p : Nat), s.queueLive c = true → s.unfetched c = true → s.flag HLINK_UP = true → s.frozen = false → s.cqRoom c = true →
    s.ctxPart c = some p → s.curCtx p = some c → s.switchAt p = .none → (∀ d ∈ s.dmas, d.ctx ≠ c ∨ d.use ≠ .fetch) →
    ((s.ctx c).cmds = [] ∨ s.fld (HQCFG_VER c) = 2) → s.fld (HQCFG_SQLOG c) ≤ 10 →
    let n := ringSize (s.fld (HQCFG_SQLOG c))
    let head := s.fld (HQSQHEAD_HEAD c)
    let a := s.fld (HQSQBASE_BASE c) * 4096 + head % n * 64
    Gives (exec (.commandFetch c) s) fun u =>
      u.fld (HQSQHEAD_HEAD c) = (head + 1) % (2 * n) ∧ u.sent = s.sent ++ [.hostRead s.nextId a 64]
        ∧ u.dmas = s.dmas ++ [⟨s.nextId, c, a, 64, .fetch, (head + 1) % (2 * n)⟩] ∧ s.sameRegs u [aHQSQHEAD c] ∧ s.sameMem u) ∧
  (∀ (s : State) (d : Dma), s.dmas.find? (fun e => e.id == d.id) = some d → d.use = .fetch →
    (∀ bytes, bytes.length = d.len → le bytes 0 1 ≤ 9 →
      Gives (exec (.hostDmaCompletion d.id 0 bytes []) s) fun u =>
        (u.ctx d.ctx).cmds = (s.ctx d.ctx).cmds ++ [⟨bytes, d.head, 0, 0, 0⟩] ∧ u.dmas = s.dmas.filter (fun e => e.id != d.id) ∧ s.sameMem u ∧ u.sent = s.sent) ∧
    (s.flag (HCTXSTAT_FAULT d.ctx) = false → d.ctx < 512 → s.numbersOk →
      Gives (exec (.completionTimeout d.id) s) fun u => faulted d.ctx 1 s u ∧ u.dmas = s.dmas.filter (fun e => e.id != d.id)
        ∧ ⟨0, 0x81, 2, srcOf 5 d.ctx, d.addr, 4, s.now⟩ ∈ u.reports)) ∧
  (∀ (s : State) (d : Dma) (x : Cmd) (bytes : List Nat), s.dmas.find? (fun e => e.id == d.id) = some d → d.use = .data → bytes.length = d.len →
    (s.ctx d.ctx).cmds = [x] → x.head = d.head → x.stage = 1 → x.opc = 1 → x.status = 0 → s.fld GLEDCTL_MODE = 0 → x.arg 1 < 2 ^ 48 →
    inTileWindow (x.arg 1) = true → winOff (x.arg 1) + bytes.length ≤ 0x1F0000 → s.flag (TFLIP_PEND (winTile (x.arg 1))) = false →
    (s.tile (winTile (x.arg 1))).marking = false →
    Gives (exec (.hostDmaCompletion d.id 0 bytes []) s) fun u =>
      (∀ k < bytes.length, (u.tile (winTile (x.arg 1))).classOf (winOff (x.arg 1) + k) = .good (nth 0 bytes k % 256)) ∧
      (∀ j off, (j = winTile (x.arg 1) → off < winOff (x.arg 1) ∨ winOff (x.arg 1) + bytes.length ≤ off) → (u.tile j).code off = (s.tile j).code off) ∧
      (u.ctx d.ctx).cmds = [{ x with stage := 2, status := 0, detail := 0 }] ∧ s.sameRegs u []) ∧
  (∀ (s : State) (c k : Nat) (x : Cmd), (s.ctx c).cmds[k]? = some x → x.stage = 2 → s.queueLive c = true → s.cqRoom c = true →
    let n := ringSize (s.fld (HQCFG_CQLOG c))
    Gives (exec (.commandComplete c k) s) fun u =>
      (u.ctx c).cmds = (s.ctx c).cmds.eraseIdx k ∧ (u.ctx c).cqTail = ((s.ctx c).cqTail + 1) % (2 * n) ∧ s.sameMem u ∧
      ∃ bs more, u.sent = s.sent ++ [.hostWrite (s.fld (HQCQBASE_BASE c) * 4096 + (s.ctx c).cqTail % n * 16) bs false] ++ more ∧ bs.length = 16
        ∧ ofLE (bs.take 4) = le x.bytes 4 4 % 2 ^ 32 ∧ nth 0 bs 4 = x.status ∧ ofLE ((bs.drop 8).take 4) = x.detail % 2 ^ 32
        ∧ (bitOf (le x.bytes 1 1) 0 = false → more = [])) ∧
  ∀ (s : State) (fn : Nat),
    Gives (exec (.moderationDelayEnd fn) s) fun u =>
      (u.ctx fn).held = [] ∧ (u.ctx fn).modOn = false ∧ u.sent = s.sent ++ (s.ctx fn).held.map (Out.msix fn) ∧ s.sameRegs u [] ∧ s.sameMem u

/-- R461, R462, Table 15.6: each command that may start does what its row says and ends with OK, or goes on until its data has come: WRITE and PLAN ask
for host memory, READ sends device bytes to it, START and STOP act on a tile, TOKADD and TOKWAIT on a token, COLL submits a descriptor, RRESET sends a
tagged packet. What the context may not touch ends it with DESC or PERM, and so does a reserved field (DESC) of any command. -/
def Obligations.HostCommands : Prop :=
  (∀ r ∈ ([(.nopCommand, 0), (.writeCommand, 1), (.readCommand, 2), (.startCommand, 3), (.stopCommand, 4), (.collCommand, 5), (.planCommand, 6),
      (fun c k => .tokwait c k false, 7), (.tokadd, 8), (.rresetCommand, 9)] : List ((Nat → Nat → Instr) × Nat)),
    ∀ (s : State) (c k : Nat) (x : Cmd), (s.ctx c).cmds[k]? = some x → x.opc = r.2 → s.cmdMayStart c k x = true →
      x.reserved (s.fld (HQCFG_VER c)) = true → s.frozen = false → s.colls.length < 16 →
      Gives (exec (r.1 c k) s) fun u => cmdEnded c k x 1 0 s u ∧ s.sameRegs u [] ∧ s.sameMem u ∧ u.sent = s.sent) ∧
  ∀ (s : State) (c k : Nat) (x : Cmd),
    (s.cmdReady c k 0 x → Gives (exec (.nopCommand c k) s) fun u => cmdEnded c k x 0 0 s u ∧ s.sameRegs u [] ∧ s.sameMem u ∧ u.sent = s.sent) ∧
    (s.cmdReady c k 1 x →
      (s.copyStatus c (x.arg 1) (x.arg 2) true = 0 →
        Gives (exec (.writeCommand c k) s) fun u =>
          (u.ctx c).cmds = (s.ctx c).cmds.set k { x with stage := 1, status := 0 } ∧ u.sent = s.sent ++ [.hostRead s.nextId (x.arg 0) (x.arg 2)]
            ∧ u.dmas = s.dmas ++ [⟨s.nextId, c, x.arg 0, x.arg 2, .data, x.head⟩] ∧ s.sameRegs u [] ∧ s.sameMem u) ∧
      (∀ st, s.copyStatus c (x.arg 1) (x.arg 2) true = st → st = 1 ∨ st = 2 →
        Gives (exec (.writeCommand c k) s) fun u => cmdEnded c k x st 0 s u ∧ u.sent = s.sent ∧ s.sameRegs u [] ∧ s.sameMem u)) ∧
    (s.cmdReady c k 2 x → s.copyStatus c (x.arg 1) (x.arg 2) false = 0 → x.arg 1 < 2 ^ 48 → inTileWindow (x.arg 1) = true →
      (s.tile (winTile (x.arg 1))).cleanRange (winOff (x.arg 1)) (x.arg 2) → x.arg 0 % 512 + x.arg 2 ≤ 512 →
      Gives (exec (.readCommand c k) s) fun u =>
        cmdEnded c k x 0 0 s u ∧ u.sent = s.sent ++ [.hostWrite (x.arg 0) ((s.tile (winTile (x.arg 1))).bytesAt (winOff (x.arg 1)) (x.arg 2)) false]
          ∧ s.sameRegs u [] ∧ s.sameMem u) ∧
    (s.cmdReady c k 3 x → s.frozen = false →
      (s.cmdTile c (x.arg 0) = true → s.fld (TSQSTAT_STATE (x.arg 0)) = stIdle ∨ s.fld (TSQSTAT_STATE (x.arg 0)) = stHalted →
        (s.tile (x.arg 0)).marking = false →
        Gives (exec (.startCommand c k) s) fun u =>
          cmdEnded c k x 0 0 s u ∧ u.fld (TSQSTAT_STATE (x.arg 0)) = stRunning ∧ u.pc (x.arg 0) = x.arg 1 % 8192 ∧ s.sameMem u) ∧
      (s.cmdTile c (x.arg 0) = false → Gives (exec (.startCommand c k) s) fun u => cmdEnded c k x 1 0 s u ∧ s.sameRegs u [] ∧ s.sameMem u)) ∧
    (s.cmdReady c k 4 x → s.cmdTile c (x.arg 0) = true → s.fld (TSQSTAT_STATE (x.arg 0)) ≠ stTrapped → (s.tile (x.arg 0)).trap = none → (s.tile (x.arg 0)).marking = false →
      Gives (exec (.stopCommand c k) s) fun u =>
        cmdEnded c k x 0 0 s u ∧ u.fld (TSQSTAT_STATE (x.arg 0)) = stHalted ∧ u.fld (TSQSTAT_HCODE (x.arg 0)) = 0xFFFF ∧ s.sameMem u) ∧
    (s.cmdReady c k 5 x → s.colls.length < 16 →
      let r := s.collSubmit c 0 (s.ownAddr (x.arg 0))
      Gives (exec (.collCommand c k) s) fun u =>
        u.colls = r.2.colls ∧ (r.1 = 0 → cmdEnded c k x 0 0 s u) ∧ (r.1 = 1 → cmdEnded c k x 1 1 s u) ∧ (r.1 = 2 → cmdEnded c k x 2 2 s u)) ∧
    (s.cmdReady c k 6 x →
      (x.arg 1 < 64 → s.srCtxIs (x.arg 1) (some c) = true →
        Gives (exec (.planCommand c k) s) fun u =>
          (u.ctx c).cmds = (s.ctx c).cmds.set k { x with stage := 1 } ∧ u.sent = s.sent ++ [.hostRead s.nextId (x.arg 0) 256]
            ∧ u.dmas = s.dmas ++ [⟨s.nextId, c, x.arg 0, 256, .data, x.head⟩] ∧ s.sameRegs u [] ∧ s.sameMem u) ∧
      (64 ≤ x.arg 1 ∨ s.srCtxIs (x.arg 1) (some c) = false →
        Gives (exec (.planCommand c k) s) fun u => cmdEnded c k x 1 0 s u ∧ u.sent = s.sent ∧ s.sameRegs u [] ∧ s.sameMem u)) ∧
    (∀ t j, s.cmdReady c k 7 x → s.cmdToken c (x.arg 0) = .ok (t, j) →
      let n := s.fld (TTOK_COUNT t j)
      let want := x.arg 1 % 65536
      (∀ late, want ≤ n →
        Gives (exec (.tokwait c k late) s) fun u =>
          cmdEnded c k x 0 0 s u ∧ u.fld (TTOK_COUNT t j) = n - want ∧ s.sameRegs u [aTTOK t j] ∧ s.sameMem u) ∧
      (n < want →
        Gives (exec (.tokwait c k true) s) (fun u => cmdEnded c k x 6 0 s u ∧ s.sameRegs u [] ∧ s.sameMem u) ∧
        Gives (exec (.tokwait c k false) s) fun u => (u.ctx c).cmds = (s.ctx c).cmds.set k { x with stage := 1 } ∧ s.sameRegs u [] ∧ s.sameMem u)) ∧
    (∀ t j, s.cmdReady c k 8 x → s.cmdToken c (x.arg 0) = .ok (t, j) →
      Gives (exec (.tokadd c k) s) fun u =>
        cmdEnded c k x 0 0 s u ∧ u.fld (TTOK_COUNT t j) = min 65535 (s.fld (TTOK_COUNT t j) + x.arg 1 % 65536)
          ∧ s.sameRegs u [aTTOK t j, aTSQSTAT t] ∧ s.sameMem u) ∧
    (s.cmdReady c k 9 x →
      (∀ key, s.rrKey = some key → s.pfOrFw c = true → bitsOf (x.arg 0) 16 8 = 1 ∨ bitsOf (x.arg 0) 16 8 = 2 →
        (∀ j, s.routePort (x.arg 0 % 65536) = some j → 1 ≤ s.fld (FPSTAT_VER j)) →
        Gives (exec (.rresetCommand c k) s) fun u =>
          cmdEnded c k x 0 0 s u ∧ answers s (s.rrBuild key (x.arg 0 % 65536) (bitsOf (x.arg 0) 16 8) (bitsOf (x.arg 0) 24 8) (x.arg 1)) u
            ∧ s.sameRegs u [] ∧ s.sameMem u) ∧
      (s.rrKey = none ∨ s.pfOrFw c = false →
        Gives (exec (.rresetCommand c k) s) fun u => cmdEnded c k x 1 0 s u ∧ u.sent = s.sent ∧ s.sameRegs u [] ∧ s.sameMem u))

/-- R451, R454, R456: PF 0 reads and writes a tile's bank through BAR 2; a write with EP set poisons every 64-byte granule it covers; outside a BAR's
contents a read is aborted and a write discarded, both reported; in arbitration hold a read returns all ones (R46) and a write is discarded, but PF 0's
vendor-specific capability answers copies of GSTAT and GARB, as it does under an image. R12, R14, R542: a read of a register answers its bytes and clears the RC fields that it covers whole; a plain register takes a write in the bytes written: RW
fields the value, W1C fields cleared by ones, every other bit unchanged. -/
def Obligations.HostAccesses : Prop :=
  (∀ (s : State) (x n : Nat), s.hostIn 0 → x < 2 ^ 42 → inTileWindow x = true → s.isMem x n = true →
    (s.tile (winTile x)).cleanRange (winOff x) n →
    Gives (exec (.hostRead 0 2 x n) s) fun u =>
      u.sent = s.sent ++ [.hostData ((s.tile (winTile x)).bytesAt (winOff x) n) false] ∧ s.sameRegs u [] ∧ s.sameMem u) ∧
  (∀ (s : State) (x : Nat) (bs : List Nat), s.hostIn 0 → x < 2 ^ 42 → inTileWindow x = true → s.isMem x bs.length = true →
    (s.tile (winTile x)).marking = false → s.flag (TFLIP_PEND (winTile x)) = false →
    (winOff x + bs.length ≤ 0x1F0000 →
      Gives (exec (.hostWrite 0 2 x bs false) s) fun u =>
        (∀ k < bs.length, (u.tile (winTile x)).classOf (winOff x + k) = .good (nth 0 bs k % 256)) ∧
        (∀ j off, (j = winTile x → off < winOff x ∨ winOff x + bs.length ≤ off) → (u.tile j).code off = (s.tile j).code off) ∧ s.sameRegs u []) ∧
    (winOff x + bs.length + 63 ≤ s.scBase (winTile x) → 0 < bs.length →
      let lo := winOff x / 64 * 64
      let hi := (winOff x + bs.length + 63) / 64 * 64
      Gives (exec (.hostWrite 0 2 x bs true) s) fun u =>
        (∀ off, lo ≤ off → off < hi → (u.tile (winTile x)).classOf off = .poison) ∧
        (∀ j off, (j = winTile x → off < lo ∨ hi ≤ off) → (u.tile j).code off = (s.tile j).code off) ∧ s.sameRegs u [])) ∧
  (∀ (s : State) (c bar x n : Nat) (bs : List Nat) (ep : Bool), s.hostIn c → s.barAddr c bar x = none →
    (bar ≠ barConfig → Gives (exec (.hostRead c bar x n) s) fun u =>
      u.sent = s.sent ++ [.hostAbort] ∧ (∃ r, u.reports = s.reports ++ [r] ∧ r.typ = 0x05) ∧ s.sameRegs u [] ∧ s.sameMem u) ∧
    Gives (exec (.hostWrite c bar x bs ep) s) fun u => u.sent = s.sent ∧ (∃ r, u.reports = s.reports ++ [r] ∧ r.typ = 0x05) ∧ s.sameRegs u [] ∧ s.sameMem u) ∧
  (∀ (s : State) (c bar x n : Nat) (bs : List Nat) (ep : Bool), s.inHold →
    (bar ≠ barConfig → Gives (exec (.hostRead c bar x n) s) fun u =>
      u.sent = s.sent ++ [.hostData (List.replicate n 255) false] ∧ s.sameRegs u [] ∧ s.sameMem u) ∧
    exec (.hostWrite c bar x bs ep) s = .next s) ∧
  (∀ (s : State) (x n : Nat), s.inHold ∨ s.boot = .up ∧ s.flag HLINK_UP = true →
    Gives (exec (.hostRead 0 barConfig x n) s) fun u =>
      u.sent = s.sent ++ [.hostData (((leBytes 8 (s.readReg aGSTAT).toNat ++ leBytes 8 (s.readReg aGARB).toNat).drop x).take n) false]
        ∧ s.sameRegs u [] ∧ s.sameMem u ∧ u.reports = s.reports) ∧
  (∀ (s : State) (x n : Nat) (r : RSpec), s.hostIn 0 → accessOk x n = true → regSpecAt (x - x % 8) = some r → s.regReads (some 0) (x - x % 8) = true →
    (mboxAt (x - x % 8) = none ∨ n = 8) → x - x % 8 ≠ aARFP → s.goneTile x = false → (beatCounter (x - x % 8) = true → s.beatsRun (x - x % 8) = false) →
    let a := x - x % 8
    let cleared := fun (i : Nat) => ∃ f ∈ r.fs, f.kind = .rc ∧ x % 8 ≤ f.lo / 8 ∧ (f.lo + f.w + 7) / 8 ≤ x % 8 + n ∧ f.lo ≤ i ∧ i < f.lo + f.w
    Gives (exec (.readClear 0 x n) s) fun u =>
      u.sent = s.sent ++ [.hostData (leBytes n (bitsOf (s.readReg a).toNat (8 * (x % 8)) (8 * n))) false] ∧
      (∀ i < 64, (cleared i → (u.reg a).getLsbD i = false) ∧ (¬cleared i → (u.reg a).getLsbD i = (s.reg a).getLsbD i)) ∧ s.sameRegs u [a] ∧ s.sameMem u) ∧
  (∀ (s : State) (x : Nat) (bs : List Nat), s.hostIn 0 → regSpecAt (x - x % 8) = none →
    Gives (exec (.registerWrite 0 x bs) s) fun u => (∃ r, u.reports = s.reports ++ [r] ∧ r.typ = 0x05) ∧ s.sameRegs u [] ∧ s.sameMem u) ∧
  ∀ (s : State) (x t : Nat) (bs : List Nat) (r : RSpec), s.hostIn 0 → accessOk x bs.length = true → (∀ b ∈ bs, b < 256) →
    regSpecAt (x - x % 8) = some r → tileBase t ≤ x → x < tileBase (t + 1) → t < 2048 → (s.tile t).marking = false → s.goneTile x = false →
    (mboxAt (x - x % 8) = none ∨ bs.length = 8) →
    x - x % 8 ≠ aTSQCTL t → x - x % 8 ≠ aTFLIP t → x - x % 8 ≠ aTSCCTL t →
    let a := x - x % 8
    let hit := fun (i : Nat) => 8 * (x % 8) ≤ i ∧ i < 8 * (x % 8) + 8 * bs.length
    let v := ofLE bs * 2 ^ (8 * (x % 8))
    Gives (exec (.registerWrite 0 x bs) s) fun u =>
      (∀ i < 64, (¬hit i ∨ (¬r.inField (· == .rw) i ∧ ¬r.inField (· == .w1c) i) → (u.reg a).getLsbD i = (s.reg a).getLsbD i)
        ∧ (hit i → r.inField (· == .rw) i → ¬r.inField (· == .w1c) i → (u.reg a).getLsbD i = v.testBit i)
        ∧ (hit i → r.inField (· == .w1c) i → ¬r.inField (· == .rw) i → (u.reg a).getLsbD i = ((s.reg a).getLsbD i && !v.testBit i)))
        ∧ s.sameRegs u [a] ∧ s.sameMem u ∧ ∀ k, u.tile k = s.tile k

/-- R467 to R469: at a quantum's end a partition with another context ready begins a switch; once its tiles have drained, caches and expansion buffers are
dropped; the save keeps every tile of the outgoing context; the restore puts the incoming one's tiles back as they were saved, or resets them on its
first run. R473 to R475, R477: a context reset or FLR clears the context and is reported, or waits for its switch; a partition reset resets every
tile. R452, R453, R472: losing the link, its return, bus mastering turned off, and virtual functions enabled. -/
def Obligations.ContextsAndLink : Prop :=
  (∀ (s : State) (part c n : Nat), s.curCtx part = some c → s.nextReady part = some n →
    (s.switchAt part = .none → n ≠ c →
      Gives (exec (.quantumEnd part) s) fun u => u.switchAt part = .draining n ∧ s.sameRegs u [aHCTXSTAT c, aHCTXSTAT n] ∧ s.sameMem u ∧ u.tiles = s.tiles) ∧
    (s.switchAt part ≠ .none ∨ n = c → exec (.quantumEnd part) s = .next s)) ∧
  (∀ (s : State) (part c n : Nat), s.switchAt part = .draining n → s.occupant part = some c →
    (s.partDrained part c = true → (∀ t ∈ s.tilesOf part, (s.tile t).posted = []) →
      Gives (exec (.drainDone part) s) fun u =>
        u.switchAt part = .saving n ∧ (∀ t ∈ s.tilesOf part, u.tile t = { s.tile t with lines := [], exb := [], pf := [] })
          ∧ (∀ t, t ∉ s.tilesOf part → u.tile t = s.tile t) ∧ s.sameRegs u [] ∧ s.sameMem u) ∧
    (s.partDrained part c = false → exec (.drainDone part) s = .next s)) ∧
  (∀ (s : State) (part c n : Nat), s.switchAt part = .saving n → s.occupant part = some c → part < 64 →
    Gives (exec (.saveDone part) s) fun u =>
      (u.ctx c).saved.map (fun x => (x.t, x.tile)) = (s.tilesOf part).map (fun t => (t, s.tile t)) ∧ u.occupant part = none
        ∧ u.switchAt part = .restoring n ∧ u.flag (HPSTAT_HELD part) = false ∧ s.sameRegs u [aHPSTAT part, aHCTXSTAT c, aHCTXSTAT n] ∧ (∀ t, (s.tile t).sameMem (u.tile t))
        ∧ (∀ d, (∀ k, s.ctxCfg c = some k → ∀ r ∈ s.img.saveRanges k, d + 32 ≤ r.1 ∨ r.1 + r.2 ≤ d) → u.stkByte d = s.stkByte d ∧ u.markOf d = s.markOf d)
        ∧ ∀ t ∈ s.tilesOf part, ∀ a ∈ savedRegs t, ∀ x ∈ (u.ctx c).saved, x.t = t → SMap.get regReset x.regs a = s.reg a) ∧
  (∀ (s : State) (part n : Nat), s.switchAt part = .restoring n → (s.ctx n).startDue = false → s.halted = false → (∀ c, (s.ctx c).resetDue = none) →
    ((s.ctx n).hasRun = true → (s.ctx n).saved.Pairwise (fun x y => x.t ≠ y.t) →
      Gives (exec (.restoreDone part) s) fun u =>
        (∀ x ∈ (s.ctx n).saved, u.tile x.t = x.tile) ∧ u.occupant part = some n ∧ (u.ctx n).saved = [] ∧ u.detHold = false) ∧
    ((s.ctx n).hasRun = false →
      Gives (exec (.restoreDone part) s) fun u =>
        (∀ t ∈ s.tilesOf part, u.tile t = Tile.reset) ∧ u.occupant part = some n ∧ (u.ctx n).hasRun = true ∧ u.detHold = false)) ∧
  (∀ (s : State) (b c : Nat), c < 512 → s.numbersOk →
    (s.pfOrFw b = true ∨ b = c → (∀ p, s.ctxPart c = some p → s.inSwitch p c = false) →
      Gives (exec (.contextReset b c) s) (ctxCleared c s) ∧
      Gives (exec (.flr c) s) fun u => ctxCleared c s u ∧ ⟨0, 0x84, 1, srcOf 5 c, 0, c, s.now⟩ ∈ u.reports) ∧
    (∀ p, s.pfOrFw b = true ∨ b = c → s.ctxPart c = some p → s.inSwitch p c = true → (s.ctx c).resetDue = none →
      Gives (exec (.contextReset b c) s) (fun u => (u.ctx c).resetDue = some false ∧ s.sameRegs u [] ∧ s.sameMem u ∧ u.reports = s.reports) ∧
      Gives (exec (.flr c) s) fun u => (u.ctx c).resetDue = some true ∧ s.sameRegs u [] ∧ s.sameMem u) ∧
    (s.pfOrFw b = false → b ≠ c → Gives (exec (.contextReset b c) s) (refused s))) ∧
  (∀ (s : State) (c part : Nat), part < 64 →
    (s.pfOrFw c = true →
      Gives (exec (.partitionReset c part) s) fun u =>
        (∀ t ∈ s.tilesOf part, u.tile t = { Tile.reset with marking := true }) ∧ (∀ k ∈ s.ctxsOf part, (u.ctx k).cmds = [])
          ∧ ⟨0, 0x85, 1, srcOf 5 0, 0, part, s.now⟩ ∈ u.reports) ∧
    (s.pfOrFw c = false → Gives (exec (.partitionReset c part) s) (refused s))) ∧
  (∀ (s : State), s.flag HLINK_UP = true →
    Gives (exec .pcieLinkLoss s) fun u =>
      u.flag HLINK_UP = false ∧ u.fld HLINK_DOWNS = min 65535 (s.fld HLINK_DOWNS + 1) ∧ s.sameRegs u [aHLINK] ∧ s.sameMem u
        ∧ u.reports = s.reports ++ [⟨0, 0x80, 1, srcOf 5 0, 0, s.fld HLINK_RATE, s.now⟩]) ∧
  (∀ (s : State) (rate width : Nat), s.boot = .up → s.flag HLINK_UP = false → s.pinsOff = false → rate < 16 → width < 32 →
    Gives (exec (.pcieLinkRetrained rate width) s) fun u =>
      u.flag HLINK_UP = true ∧ u.fld HLINK_RATE = rate ∧ u.fld HLINK_WIDTH = width ∧ s.sameRegs u [aHLINK] ∧ s.sameMem u ∧ u.reports = s.reports) ∧
  (∀ (s : State) (c : Nat), c < 512 → s.numbersOk → s.flag (HQCFG_EN c) = true → s.flag (HCTXSTAT_FAULT c) = false →
    Gives (exec (.busMasterDisable c) s) (faulted c 4 s)) ∧
  ∀ (s : State) (n : Nat), s.boot = .up →
    Gives (exec (.vfEnable n) s) fun u => (∀ i < 511, (u.ctx (i + 1)).vfEnabled = decide (i < n)) ∧ (u.ctx 0) = s.ctx 0 ∧ s.sameMem u ∧ u.tiles = s.tiles

/-- R495, R504, R507, R508: a flash operation starts at once when the flash is free and waits its turn when it is not; one at an address that is not a
multiple of its size only sets CFLSTAT.ERR. A read fills CFLBUF, an erase sets its sector to 0xFF, a program clears the bits that CFLBUF has clear (both
PRESUMED of NOR flash, log entry 9); every other byte stays. A key load that passes every check replaces its slot; one that fails, or whose blob
cannot be read, leaves it; a clear empties it. A kick restarts the watchdog's count; its expiry is a device reset. Who may not is refused (log entry
33). -/
def Obligations.FlashKeysWatchdog : Prop :=
  (∀ r ∈ ([(.flashRead, 1, 256), (.flashProgram, 2, 256), (.flashErase, 3, 65536)] : List ((Nat → Nat → Instr) × Nat × Nat)),
    ∀ (s : State) (c a : Nat), a < 2 ^ 27 →
      (s.pfOrFw c = true → a % r.2.2 = 0 → s.flashOp = none → s.flashQ = [] → s.boot ≠ .reading →
        Gives (exec (r.1 c a) s) fun u => u.flashOp = some (r.2.1, a) ∧ u.flag CFLSTAT_BUSY = true ∧ u.flash = s.flash ∧ s.sameRegs u [aCFLCMD, aCFLSTAT] ∧ s.sameMem u) ∧
      (s.pfOrFw c = true → a % r.2.2 = 0 → s.flashOp.isSome = true ∨ s.boot = .reading →
        Gives (exec (r.1 c a) s) fun u => u.flashOp = s.flashOp ∧ u.flashQ = s.flashQ ++ [(r.2.1, a)] ∧ u.flash = s.flash ∧ s.sameRegs u [aCFLCMD] ∧ s.sameMem u) ∧
      (s.pfOrFw c = true → a % r.2.2 ≠ 0 →
        Gives (exec (r.1 c a) s) fun u => u.flag CFLSTAT_ERR = true ∧ u.flashOp = s.flashOp ∧ u.flashQ = s.flashQ ∧ u.flash = s.flash ∧ s.sameMem u) ∧
      (s.pfOrFw c = false → Gives (exec (r.1 c a) s) (refused s))) ∧
  (∀ (s : State) (a : Nat), s.flashQ = [] →
    (s.flashOp = some (1, a) → Gives (exec (.flashOpDone true) s) fun u =>
      (∀ i < 32, ∀ j < 8, bitsOf (u.reg (aCFLBUF i)).toNat (8 * j) 8 = s.flashByte (a + 8 * i + j)) ∧ u.flashOp = none ∧ u.flag CFLSTAT_BUSY = false ∧ u.flash = s.flash ∧ s.sameMem u) ∧
    (s.flashOp = some (2, a) → Gives (exec (.flashOpDone true) s) fun u =>
      (∀ i < 256, u.flashByte (a + i) = s.flashByte (a + i) &&& bitsOf (s.reg (aCFLBUF (i / 8))).toNat (8 * (i % 8)) 8)
        ∧ (∀ k, k < a ∨ a + 256 ≤ k → u.flashByte k = s.flashByte k) ∧ u.flashOp = none ∧ s.sameRegs u [aCFLSTAT] ∧ s.sameMem u) ∧
    (s.flashOp = some (3, a) → Gives (exec (.flashOpDone true) s) fun u =>
      (∀ i < 65536, u.flashByte (a + i) = 0xFF) ∧ (∀ k, k < a ∨ a + 65536 ≤ k → u.flashByte k = s.flashByte k) ∧ u.flashOp = none ∧ s.sameRegs u [aCFLSTAT] ∧ s.sameMem u) ∧
    (∀ op, s.flashOp = some (op, a) → Gives (exec (.flashOpDone false) s) fun u => u.flag CFLSTAT_ERR = true ∧ u.flashOp = none ∧ s.sameMem u)) ∧
  (∀ (s : State) (ok : Bool) (op q : Nat × Nat) (qs : List (Nat × Nat)), s.flashOp = some op → s.flashQ = q :: qs → s.boot ≠ .reading →
    Gives (exec (.flashOpDone ok) s) fun u => u.flashOp = some q ∧ u.flashQ = qs ∧ u.flag CFLSTAT_BUSY = true ∧ s.sameMem u) ∧
  (∀ (s : State) (c n : Nat), n < 32 →
    (s.pfOrFw c = true → s.keyLoad = none →
      Gives (exec (.keyLoad c n) s) fun u => u.keyLoad = some (n, s.fld KLDADDR_ADDR) ∧ u.flag KSTAT_BUSY = true ∧ u.keys = s.keys ∧ s.sameRegs u [aKLDCTL, aKSTAT] ∧ s.sameMem u) ∧
    (s.pfOrFw c = true → s.keyLoad.isSome = true →
      Gives (exec (.keyLoad c n) s) fun u => u.keyLoad = s.keyLoad ∧ u.fld KSTAT_RES = 5 ∧ u.keys = s.keys ∧ s.sameMem u) ∧
    (s.pfOrFw c = true → Gives (exec (.keyClear c n) s) fun u =>
      u.keySlot n = none ∧ u.fld (KSLOT_LOADED n) = 0 ∧ (∀ m, m ≠ n → u.keySlot m = s.keySlot m) ∧ s.sameRegs u [aKLDCTL, aKSLOT n] ∧ s.sameMem u) ∧
    (s.pfOrFw c = false → Gives (exec (.keyLoad c n) s) (refused s) ∧ Gives (exec (.keyClear c n) s) (refused s))) ∧
  (∀ (s : State) (n a : Nat) (blob : List Nat), s.keyLoad = some (n, a) → n < 32 → s.isLocal a = true → addrDev a < 0x8000000000 →
    s.isMem (addrDev a) 56 = true → blob.length = 56 → s.stkHolds (addrDev a) blob →
    (∀ k, openBlob blob = .ok k → Gives (exec .keyLoadDone s) fun u =>
      u.keySlot n = some k ∧ u.fld (KSLOT_LOADED n) = 1 ∧ u.fld (KSLOT_USE n) = k.use % 8 ∧ u.fld (KSLOT_SRC n) = 1 ∧ u.fld KSTAT_RES = 0
        ∧ u.keyLoad = none ∧ (∀ m, m ≠ n → u.keySlot m = s.keySlot m) ∧ logs 0xA7 0 n s u ∧ s.sameMem u) ∧
    (∀ e, openBlob blob = .error e → Gives (exec .keyLoadDone s) fun u =>
      u.keys = s.keys ∧ u.fld KSTAT_RES = e % 8 ∧ u.flag KSTAT_BUSY = false ∧ u.keyLoad = none ∧ logs 0xA4 1 (n + 32 * e) s u ∧ s.sameRegs u [aKSTAT] ∧ s.sameMem u)) ∧
  (∀ (s : State) (n a : Nat), s.keyLoad = some (n, a) → s.isLocal a = false ∨ s.isMem (addrDev a) 56 = false →
    Gives (exec .keyLoadDone s) fun u =>
      u.keys = s.keys ∧ u.fld KSTAT_RES = 4 ∧ u.flag KSTAT_BUSY = false ∧ u.keyLoad = none ∧ logs 0xA4 1 (n + 32 * 4) s u ∧ s.sameRegs u [aKSTAT] ∧ s.sameMem u) ∧
  ∀ (s : State) (c : Nat),
    (s.pfOrFw c = true → exec (.watchdogKick c) s = .next { s with dogAt := s.clk }) ∧
    (s.pfOrFw c = false → Gives (exec (.watchdogKick c) s) (refused s)) ∧
    (s.boot = .up → s.fld CWDOG_LIMIT ≠ 0 → s.dogAt + s.fld CWDOG_LIMIT * 1000000 ≤ s.clk →
      Gives (exec .watchdogExpiry s) fun u => u.boot = .inReset ∧ u.fld CRSTCAUSE_LAST = 4 ∧ 4 ∈ u.held) ∧
    (s.fld CWDOG_LIMIT = 0 ∨ s.clk < s.dogAt + s.fld CWDOG_LIMIT * 1000000 → exec .watchdogExpiry s = .next s)

/-- R519, R523, R525: the mode follows its selections, Parked before Paced before Peak before Efficient; Peak is refused with its life budget spent; a
park that nothing refuses sets 550 mV, stops the core and turns every port off, and leaving it trains the enabled ports again. R520 to R524, R526 to
R528: a governor's millisecond settles the energy credit, which opens and closes the Peak window; window time is counted in seconds and burnt in
hours; a Paced allowance missed is reported once. Sensors set PTEMP and begin throttling, which lowers the voltage 5 mV a millisecond and raises it 3
°C below the threshold; a trip holds the device in reset until it is released. -/
def Obligations.PowerModesAndLimits : Prop :=
  ((∀ (s : State) (c : Nat) (v : Bool), s.boot = .up → s.pfOrFw c = true →
    let mode := fun (peak paced eff : Bool) => if s.parked then 4 else if paced then 3 else if peak then 1 else if eff then 2 else 0
    let keeps := fun (a : Nat) (u : State) => s.sameRegs u [a, aPSTAT] ∧ s.sameMem u ∧ u.sent = s.sent
    (v = false ∨ s.peakHours < peakBudget → Gives (exec (.peakRequest c v) s) fun u =>
      u.flag GCTL_PEAKEN = v ∧ u.fld PSTAT_MODE = mode v (s.flag GCTL_PACED) (s.flag PCTL_EFF) ∧ keeps aGCTL u) ∧
    (peakBudget ≤ s.peakHours → Gives (exec (.peakRequest c true) s) fun u =>
      u.flag GCTL_PEAKEN = false ∧ u.flag PSTAT_PEAKREF = true ∧ logs 0xC2 1 (s.peakHours % 65536) s u ∧ keeps aGCTL u) ∧
    Gives (exec (.pacedSelect c v) s) (fun u =>
      u.flag GCTL_PACED = v ∧ u.fld PSTAT_MODE = mode (s.flag GCTL_PEAKEN) v (s.flag PCTL_EFF) ∧ keeps aGCTL u) ∧
    Gives (exec (.efficientSelect c v) s) fun u =>
      u.flag PCTL_EFF = v ∧ u.fld PSTAT_MODE = mode (s.flag GCTL_PEAKEN) (s.flag GCTL_PACED) v ∧ keeps aPCTL u) ∧
  (∀ (s : State) (c : Nat), s.boot = .up → s.parked = false → s.pfOrFw c = true →
    (s.parkBar = 0 → s.noColl → Gives (exec (.park c) s) fun u =>
      u.parked = true ∧ u.fld PSTAT_MODE = 4 ∧ u.flag PSTAT_WINDOW = false ∧ u.fld PSTAT_VCORE = 550 ∧ u.fld PSTAT_BEAT = 0
        ∧ (∀ p < 8, u.fld (FPSTAT_STATE p) = 0) ∧ (∀ p < 2, u.farUp p = false) ∧ s.sameMem u) ∧
    (s.parkBar ≠ 0 → Gives (exec (.park c) s) fun u =>
      u.flag PSTAT_PARKREF = true ∧ u.parked = false ∧ logs 0xC9 1 s.parkBar s u ∧ s.sameRegs u [aPSTAT] ∧ s.sameMem u) ∧
    exec (.unpark c) s = .next s) ∧
  (∀ (s : State) (c : Nat), s.boot = .up → s.parked = true → s.pfOrFw c = true → s.numbersOk → s.halt.runs = [] → (∀ e ∈ s.img.mports, e.1 < 8) →
    (∀ p o, s.occupant p = some o → o < 512) →
    Gives (exec (.unpark c) s) (fun u =>
      u.parked = false ∧ u.fld PSTAT_MODE ≠ 4 ∧ s.sameMem u
        ∧ (∀ p k, (p, k) ∈ s.img.mports → k.en = true → s.flag (FPCTL_DISABLE p) = false → s.pinsOff = false → u.fld (FPSTAT_STATE p) = 2)) ∧
    exec (.park c) s = .next s) ∧
  ∀ (s : State) (c : Nat) (v : Bool), s.pfOrFw c = false →
    ∀ i ∈ ([.peakRequest c v, .pacedSelect c v, .efficientSelect c v, .park c, .unpark c] : List Instr), Gives (exec i s) (refused s)) ∧
  ((∀ (s : State) (avg mv beat : Nat), s.boot = .up → s.pow.credit ≤ 200000 →
    let cr := if s.fld PCFG_PSUST < avg then s.pow.credit - (avg - s.fld PCFG_PSUST) else min 200000 (s.pow.credit + 150)
    Gives (exec (.governorTick avg mv beat) s) fun u =>
      u.pow = { s.pow with credit := cr } ∧ u.fld PCREDIT_CREDIT = cr / 100 ∧ u.fld PPOWER_NOW = min 65535 avg
        ∧ u.fld PPOWER_MAX = max (s.fld PPOWER_MAX) (min 65535 avg) ∧ u.fld PSTAT_VCORE ≤ s.modeMv - s.pow.cut
        ∧ (cr = 0 → s.fld PCFG_CREDMIN ≠ 0 → u.flag PSTAT_WINDOW = false)
        ∧ (s.modeNow = 1 → s.fld PCFG_CREDMIN * 1000 ≤ cr → u.flag PSTAT_WINDOW = true)
        ∧ (s.modeNow ≠ 1 → cr ≠ 0 → u.flag PSTAT_WINDOW = s.flag PSTAT_WINDOW)
        ∧ s.sameRegs u [aPPOWER, aPSTAT, aPCREDIT] ∧ s.sameMem u) ∧
  (∀ (s : State),
    Gives (exec .peakWindowEnd s) (fun u => u.flag PSTAT_WINDOW = false ∧ s.sameRegs u [aPSTAT] ∧ s.sameMem u) ∧
    (s.flag PSTAT_WINDOW = false → exec .peakSecond s = .next s) ∧
    (s.flag PSTAT_WINDOW = true → s.fld PLIFE_SECS < 3599 →
      Gives (exec .peakSecond s) fun u => u.fld PLIFE_SECS = s.fld PLIFE_SECS + 1 ∧ u.hoursBurnt = s.hoursBurnt ∧ s.sameRegs u [aPLIFE] ∧ s.sameMem u) ∧
    (s.flag PSTAT_WINDOW = true → 3599 ≤ s.fld PLIFE_SECS →
      Gives (exec .peakSecond s) fun u => u.fld PLIFE_SECS = 0 ∧ u.hoursBurnt = s.hoursBurnt + 1 ∧ s.sameMem u
        ∧ (peakBudget ≤ s.peakHours + 1 → u.flag GCTL_PEAKEN = false ∧ u.flag PSTAT_WINDOW = false ∧ logs 0xC3 1 ((s.peakHours + 1) % 65536) s u)) ∧
    (s.modeNow = 3 → s.flag PSTAT_PACELOST = false →
      Gives (exec (.pacedAllowance false) s) fun u => u.flag PSTAT_PACELOST = true ∧ logs 0xC7 1 (s.fld PSTAT_BEAT) s u ∧ s.sameRegs u [aPSTAT] ∧ s.sameMem u) ∧
    exec (.pacedAllowance true) s = .next s) ∧
  (∀ (s : State) (t0 t1 ts : BitVec 16), s.numbersOk →
    let tj := max t0.toInt (max t1.toInt ts.toInt)
    Gives (exec (.sensorRead t0 t1 ts) s) fun u =>
      u.fld PTEMP_TJ0 = t0.toNat ∧ u.fld PTEMP_TJ1 = t1.toNat ∧ u.fld PTEMP_TJSTK = ts.toNat
        ∧ (u.pow.hot = true ↔ ((s.fld PCFG_THROTT * 16 : Nat) : Int) < tj)
        ∧ (u.flag PSTAT_THROT = true ↔ s.flag PSTAT_THROT = true ∨ ((s.fld PCFG_THROTT * 16 : Nat) : Int) < tj)
        ∧ (((s.fld GCKCFG_THERM * 16 : Nat) : Int) ≤ tj → bitOf (u.reg aGCKHINT).toNat 3 = true)) ∧
  (∀ (s : State), s.flag PSTAT_THROT = true →
    (s.pow.hot = true → Gives (exec .throttleStep s) fun u =>
      u.fld PSTAT_VCORE = s.fld PSTAT_VCORE - 5 ∧ u.pow.cut = s.pow.cut + 5 ∧ u.flag PSTAT_THROT = true ∧ s.sameRegs u [aPSTAT] ∧ s.sameMem u) ∧
    (s.pow.hot = false → s.tj ≤ ((s.fld PCFG_THROTT * 16 : Nat) : Int) - 48 → s.fld PSTAT_VCORE < 65000 → Gives (exec .throttleStep s) fun u =>
      u.fld PSTAT_VCORE = (if s.pow.cut = 0 then s.fld PSTAT_VCORE else s.fld PSTAT_VCORE + 5) ∧ u.pow.cut = s.pow.cut - 5
        ∧ (u.flag PSTAT_THROT = false ↔ s.pow.cut ≤ 5) ∧ s.sameRegs u [aPSTAT] ∧ s.sameMem u)) ∧
  ∀ (s : State) (n : Nat), s.boot ≠ .hold →
    (s.pow.trip = false → Gives (exec (.thermalTrip n) s) fun u =>
      u.pow.trip = true ∧ u.boot = .inReset ∧ 5 ∈ u.held ∧ (s.boot = .up → u.fld CRSTCAUSE_LAST = 5) ∧ exec (.resetRelease 5) u = .next u) ∧
    (s.pow.trip = true → Gives (exec .thermtripRelease s) fun u =>
      u.pow.trip = false ∧ (s.held = [5] → s.boot = .inReset → u.boot = .released ∧ u.held = []) ∧ s.sameRegs u [] ∧ s.sameMem u))

/-- R529, R530: a pin counts as changed when two samples agree; both low halt the device, and every RUNNING tile whose partition is not being switched
stops with HCODE 0xFFFE; a disagreement that lasts longer than TD is a fault and a halt,
and the sample that follows one longer than TD + 20 us latches it. -/
def Obligations.HaltInputs : Prop :=
  (∀ (s : State) (a b : Bool), s.pinsOff = false → s.haltOverdue = false →
    let fa := if a = s.halt.a then a else s.flag PHALT_INA
    let fb := if b = s.halt.b then b else s.flag PHALT_INB
    Gives (exec (.haltSample a b) s) fun u =>
      u.flag PHALT_INA = fa ∧ u.flag PHALT_INB = fb ∧ u.halt.a = a ∧ u.halt.b = b ∧ s.sameMem u
        ∧ (u.flag PHALT_HALTED = true ↔ s.flag PHALT_HALTED = true ∨ (s.boot = .up ∧ fa = true ∧ fb = true))
        ∧ (s.boot = .up → s.halted = false → fa = true → fb = true → logs 0xC4 1 0 s u ∧
          ∀ t < 2048, ∀ p, s.partOfTile t = some p → s.switching p = false → s.fld (TSQSTAT_STATE t) = stRunning →
            u.fld (TSQSTAT_STATE t) = stHalted ∧ u.fld (TSQSTAT_HCODE t) = 0xFFFE ∧ t ∈ u.halt.tiles)) ∧
  (∀ (s : State) (t : Nat), s.boot = .up → s.halt.since = some t →
    (s.pinsOff = false → s.fld PCFG_TD * 1000 + 20000 < s.now - t → ∀ a b, Gives (exec (.haltSample a b) s) fun u =>
      u.flag PHALT_FAULT = true ∧ u.flag PHALT_HALTED = true ∧ s.sameMem u) ∧
    (s.fld PCFG_TD * 1000 ≤ s.now - t + 20000 → Gives (exec .discrepancyTimeout s) fun u =>
      u.flag PHALT_FAULT = true ∧ u.flag PHALT_HALTED = true ∧ u.halt.since = none ∧ s.sameMem u
        ∧ ∃ more, u.reports = s.reports ++ [⟨s.primHalf, 0xC6, 2, srcOf 6 (s.primHalf * 16), 0, s.fld PHALT_INA + 2 * s.fld PHALT_INB, s.now⟩] ++ more) ∧
    (s.now - t + 20000 < s.fld PCFG_TD * 1000 → exec .discrepancyTimeout s = .next s))

/-- R531: a halt ends only on a write of RESUME by PF 0 or firmware while both pins are high and FAULT is clear: the tiles that were RUNNING run on from
their PC with their registers and waits, and unless the device is parked its units work again. The fault is cleared only while both pins are high. A
RESUME at any other time, and one by any other context, changes nothing of the halt. -/
def Obligations.HaltEnds : Prop :=
  (∀ (s : State) (c : Nat), s.pfOrFw c = true →
    (s.halted = true → s.pinsHigh = true → s.flag PHALT_FAULT = false → s.halt.runs = [] → s.halt.pkts = [] → (∀ t ∈ s.halt.tiles, t < 2048) →
      Gives (exec (.resume c) s) fun u =>
        u.halted = false ∧ u.frozen = s.parked ∧ u.halt.tiles = [] ∧ (∀ t ∈ s.halt.tiles, u.fld (TSQSTAT_STATE t) = stRunning ∧ u.pc t = s.pc t)
          ∧ (∀ t, u.tile t = s.tile t) ∧ s.sameRegs u (aPHALT :: s.halt.tiles.map aTSQSTAT) ∧ s.sameMem u) ∧
    (s.halted = false ∨ s.pinsHigh = false ∨ s.flag PHALT_FAULT = true → exec (.resume c) s = .next s) ∧
    (s.pinsHigh = true → Gives (exec (.faultClear c) s) fun u => u.flag PHALT_FAULT = false ∧ s.sameRegs u [aPHALT] ∧ s.sameMem u) ∧
    (s.pinsHigh = false → exec (.faultClear c) s = .next s)) ∧
  ∀ (s : State) (c : Nat), s.pfOrFw c = false → Gives (exec (.resume c) s) (refused s) ∧ Gives (exec (.faultClear c) s) (refused s)

/-- R47, R498, R499, R502, R503, R516: an assertion shorter than 10 us is ignored, one of 100 us or more is taken, and one between is taken whole or
ignored and counted (which of the two is a free value, log entry 78). PORST_N and a brownout leave every register at its reset value but CRSTCAUSE and
PLIFE; any other source keeps the registers of its column, and GSTAT.TBLOCK goes on as the copy of TBSTAT.LOCK. A reset that comes while another is in
progress leaves CRSTCAUSE.LAST (log entry 77). Arbitration hold ignores them all; a power cycle ends it. The device leaves reset when its last source
does, and a release of PORST_N starts site time at 0. -/
def Obligations.DeviceResets : Prop :=
  (∀ r ∈ ([(.porstNAssert, 1), (.perstAssert, 2), (.warmrstNAssert, 3)] : List ((Nat → Instr) × Nat)), ∀ (s : State) (us : Nat),
    (us < 10 ∨ s.boot = .hold ∨ s.pinsOff = true → exec (r.1 us) s = .next s) ∧
    (100 ≤ us → s.boot ≠ .hold → s.pinsOff = false → Gives (exec (r.1 us) s) fun u => resetDone s u ∧ r.2 ∈ u.held ∧
      (r.2 = 1 ∨ s.boot = .up → u.fld CRSTCAUSE_LAST = r.2) ∧ (r.2 ≠ 1 → s.boot ≠ .up → u.fld CRSTCAUSE_LAST = s.fld CRSTCAUSE_LAST) ∧
      (∀ a, a ≠ aCRSTCAUSE → (r.2 = 1 → a ≠ aPLIFE) → (r.2 ≠ 1 → keptWarm a = false ∧ a ≠ aGSTAT) → u.reg a = regReset a) ∧
      (r.2 ≠ 1 → s.engines = [] → s.stageWait = [] → (∀ st < 8, s.flag (SSTAT_TEST st) = false) →
        (∀ a, keptWarm a = true → a ≠ aCRSTCAUSE → u.reg a = s.reg a) ∧ u.flag GSTAT_TBLOCK = s.flag TBSTAT_LOCK)) ∧
    (10 ≤ us → us < 100 → s.boot ≠ .hold → s.pinsOff = false → Gives (exec (r.1 us) s) fun u =>
      (resetDone s u ∧ r.2 ∈ u.held) ∨
      (u.boot = s.boot ∧ u.held = s.held ∧ u.fld CRSTCAUSE_IGNORED = min (2 ^ CRSTCAUSE_IGNORED.w - 1) (s.fld CRSTCAUSE_IGNORED + 1)
        ∧ s.sameRegs u [aCRSTCAUSE] ∧ s.sameMem u ∧ u.sent = s.sent))) ∧
  (∀ (s : State),
    (1 ∉ s.held → s.boot ≠ .hold → Gives (exec .vin48Brownout s) fun u => resetDone s u ∧ 1 ∈ u.held ∧ u.fld CRSTCAUSE_LAST = 1) ∧
    (1 ∈ s.held → exec .vin48Brownout s = .next s) ∧
    (Gives (exec .powerCycle s) fun u => resetDone s u ∧ u.held = [1] ∧ u.regs = [] ∧ u.stk = [] ∧ u.alert = false)) ∧
  (∀ (s : State) (src : Nat), s.held = [src] → s.boot = .inReset → (src = 5 → s.pow.trip = false) →
    Gives (exec (.resetRelease src) s) fun u =>
      u.held = [] ∧ u.boot = .released ∧ (src = 1 → u.fld TBTIME_TIME = 0) ∧ s.sameRegs u (if src = 1 then [aTBTIME] else []) ∧ s.sameMem u) ∧
  (∀ (s : State) (src k : Nat), src ∈ s.held → k ∈ s.held.erase src → (src = 5 → s.pow.trip = false) →
    Gives (exec (.resetRelease src) s) fun u => u.held = s.held.erase src ∧ u.boot = s.boot) ∧
  ∀ (s : State) (us n : Nat), s.boot = .hold →
    ∀ i ∈ ([.porstNAssert us, .perstAssert us, .warmrstNAssert us, .vin48Brownout, .watchdogExpiry, .thermalTrip n, .thermtripRelease, .resetRelease n,
      .mgcLeaveReset, .imageReadDone false, .imageApply, .imageApplied, .arbitrationAttempt] : List Instr), Gives (exec i s) fun u => u.boot = .hold

/-- R24, R25, R39, R427, R485, R486, R493, R502, R504, R521: start-up after release: attempt 0 starts, the bridge's test sets GBRIDGE and GSTAT.BRDEG, a
rejected slot gives way to the other and two rejections to the factory defaults; the accepted image, or Half 0's share of it when no bridge link works,
is applied with every tile reset and marked and every stack not initialised being so; when all that has ended the device is up, with full credit and the
watchdog counting, every port the image enables in training and every other one DISABLED (R253). -/
def Obligations.StartUp : Prop :=
  (∀ (s : State), s.boot = .released → Gives (exec .mgcLeaveReset s) fun u =>
    u.boot = .arbitrating ∧ u.attempt = 0 ∧ u.h0.phase = .converting ∧ u.h1.phase = .waitStrap ∧ u.flag GCTL_DETMF = true ∧ s.sameRegs u [aGCTL] ∧ s.sameMem u) ∧
  (∀ (s : State) (ok : BitVec 32), s.bridgeDone = false → s.boot = .reading ∨ s.boot = .accepted →
    Gives (exec (.bridgeTestDone ok) s) fun u =>
      u.bridgeDone = true ∧ u.fld GBRIDGE_LINKOK = ok.toNat ∧ (u.flag GSTAT_BRDEG = false ↔ ok = BitVec.allOnes 32) ∧ (u.half1Gone = true ↔ ok = 0)
        ∧ u.boot = s.boot ∧ s.sameMem u) ∧
  (∀ (s : State) (k : Nat) (e : Bool), s.boot = .reading → s.imgSlot = some k → k < 2 →
    let read := if e then Except.error 11 else s.imageCheck k
    (∀ im, read = .ok im → Gives (exec (.imageReadDone e) s) fun u =>
      u.boot = .accepted ∧ u.imgNext = some im ∧ u.imgSlot = none ∧ u.fld CSTAT_SLOT = k ∧ u.fld CSTAT_SRC = 0 ∧ s.sameRegs u [aCSTAT] ∧ u.reports = s.reports) ∧
    (∀ code, read = .error code → Gives (exec (.imageReadDone e) s) fun u =>
      u.fld (if k = 0 then CSTAT_REJ0 else CSTAT_REJ1) = code % 16 ∧
      (s.fld CSTAT_TRIED = 0 → u.boot = .reading ∧ u.imgSlot = some (1 - k) ∧ u.imgNext = s.imgNext) ∧
      (s.fld CSTAT_TRIED ≠ 0 → u.boot = .accepted ∧ u.imgNext = some Image.factory ∧ u.flag GSTAT_CFGDEF = true ∧ u.fld CSTAT_SRC = 1))) ∧
  (∀ (s : State) (im : Image), s.boot = .accepted → s.bridgeDone = true → s.half1Gone = false → s.imgNext = some im → (∀ e ∈ im.ctxs, e.1 < 512) →
    (∀ e ∈ im.keys, e.1 < 32) → (∀ t, (s.tile t).xfers = []) → (∀ f ∈ im.fields, (f.addr < aGBRIDGE ∨ aGBRIDGE < f.addr) ∧ (f.addr < aSSTAT 0 ∨ aSSTAT 7 < f.addr)) →
    (∀ e ∈ im.tables, ∃ w ∈ tableWindows, w.1 ≤ e.1 ∧ e.1 + e.2.length ≤ w.2) →
    Gives (exec .imageApply s) fun u =>
      u.boot = .applying ∧ u.img = im ∧ u.imgNext = none ∧ u.fld CSTAT_VER = im.ver % 4 ∧ u.fld PCFG_PSUST = im.param 0x0101 2600 % 65536
        ∧ u.fld PCFG_TD = im.param 0x0105 5000 % 65536
        ∧ (∀ t < 2048, u.tile t = { Tile.reset with marking := true } ∧ u.fld (TSQSTAT_STATE t) = stIdle)
        ∧ (∀ st < 8, s.flag (SSTAT_INITD st) = false → (u.stackU st).initing = true) ∧ ∀ d, u.stkByte d = s.stkByte d) ∧
  (∀ (s : State) (im : Image), s.boot = .accepted → s.bridgeDone = true → s.half1Gone = true → s.imgNext = some im →
    Gives (exec .imageApply s) fun u => u.boot = .applying ∧ u.img = im.half0 ∧ u.imgNext = none) ∧
  ∀ (s : State), s.boot = .applying → s.applyBusy = false → s.numbersOk → (∀ p o, s.occupant p = some o → o < 512) →
    Gives (exec .imageApplied s) fun u =>
      u.boot = .up ∧ u.dogAt = s.clk ∧ u.pow.credit = 200000 ∧ u.fld PCREDIT_CREDIT = 2000 ∧ u.fld PSTAT_MODE = u.modeNow
        ∧ (s.img.timeRef = true → u.flag TBSTAT_LOCK = true ∧ u.flag TBSTAT_REF = true ∧ u.flag GSTAT_TBLOCK = true)
        ∧ (s.img.timeRef = false → u.flag TBSTAT_LOCK = s.flag TBSTAT_LOCK ∧ u.flag GSTAT_TBLOCK = s.flag TBSTAT_LOCK)
        ∧ (∀ p < 8,
          (∀ k, s.img.mports.find? (fun e => e.1 == p) = some (p, k) → k.en = true → s.flag (FPCTL_DISABLE p) = false → s.pinsOff = false → u.fld (FPSTAT_STATE p) = 2) ∧
          ((∀ k, s.img.mports.find? (fun e => e.1 == p) = some (p, k) → k.en = false) ∨ s.flag (FPCTL_DISABLE p) = true → u.fld (FPSTAT_STATE p) = 0))
        ∧ s.sameMem u

/-- R39, R40, R496: an attempt begins with the strap's conversion; windows of three codes give the values 0 to 14, and 61 and 62 the value 15. STRAP and
its acknowledgement make each half claim as its intent says; a half judges once it has both the other's CLAIM and its wire. R40 to R45, R486: two
success verdicts commit the half that intends and make the other wait for it; any other pair fails the attempt. COMMIT makes the other half secondary,
and its ACK settles primacy and starts the image's read. A message that does not come fails the attempt, after three resends of COMMIT; the failure of
attempt 3, HOLD and 200 ms without configuration traffic lead to hold. Messages in flight form one list (DESIGN CHOICE, log entry 45); the order in which
the causes 3, 1 and 2 are judged is DEDUCED (log entry 46). -/
def Obligations.Arbitration : Prop :=
  ((∀ code < 64, ∀ v < 16, strapDecode code = some v ↔ (v < 15 ∧ 4 * v + 1 ≤ code ∧ code ≤ 4 * v + 3) ∨ (v = 15 ∧ (code = 61 ∨ code = 62))) ∧
  (∀ (s : State), s.boot = .arbitrating → s.attempt < 3 → Gives (exec .arbitrationAttempt s) fun u =>
    u.attempt = s.attempt + 1 ∧ u.h0.phase = .converting ∧ u.h1.phase = .waitStrap ∧ u.h0.role = .arbitrating ∧ u.h1.role = .arbitrating ∧ u.mgmt = []
      ∧ u.arbFails = s.arbFails ++ [(s.attempt, s.h0.cause)] ∧ u.boot = s.boot ∧ s.sameRegs u [] ∧ s.sameMem u) ∧
  (∀ (s : State) (code : Nat) (ok : Bool), s.h0.phase = .converting → s.h0.role ≠ .hold → code < 64 →
    let v := if ok then strapDecode code else none
    Gives (exec (.strapConversionDone code ok) s) fun u =>
      u.strap = v ∧ u.h0.phase = .waitAck ∧ u.mgmt = s.mgmt ++ [(1, .strap v)] ∧ u.fld GARB_STRAPADC = code ∧ u.fld GARB_STRAPVAL = v.getD 0
        ∧ u.fld GARB_STRAPHALF = v.getD 0 % 2 ∧ s.sameRegs u [aGARB] ∧ s.sameMem u) ∧
  (∀ (s : State) (v : Option Nat) (rest : List (Nat × Mgmt)), s.h1.phase = .waitStrap → s.h1.role ≠ .hold → s.mgmt = (1, .strap v) :: rest →
    Gives (exec .strap s) fun u =>
      u.h1 = { s.h1 with phase := .claimed, intent := (v.map (· % 2)) == some 1, wire := (v.map (· % 2)) == some 1 }
        ∧ u.mgmt = rest ++ [(0, .strapAck), (0, .claim ((v.map (· % 2)) == some 1))] ∧ u.h0 = s.h0 ∧ s.sameRegs u [] ∧ s.sameMem u) ∧
  (∀ (s : State) (rest : List (Nat × Mgmt)), s.h0.phase = .waitAck → s.h0.role ≠ .hold → s.mgmt = (0, .strapAck) :: rest →
    let own := (s.strap.getD 0) % 2 == 0
    Gives (exec .strapAck s) fun u =>
      u.h0 = { s.h0 with phase := .claimed, intent := own, wire := own } ∧ u.mgmt = rest ++ [(1, .claim own)] ∧ u.h1 = s.h1 ∧ s.sameRegs u [] ∧ s.sameMem u) ∧
  (∀ (s : State) (h : Nat) (c : Bool) (rest : List (Nat × Mgmt)), h < 2 → (s.half h).role ≠ .hold → s.mgmt = (h, .claim c) :: rest →
    (∀ w, (s.half h).phase = .claimed → (s.half h).sampled = some w → (s.half h).peerVerdict = none → Gives (exec (.claim h) s) (judges h w c rest s)) ∧
    (∀ w, (s.half h).phase = .claimed → (s.half h).sampled = some w → Gives (exec (.claim h) s) fun u =>
      (u.half h).verdict = some (w == c && (s.half h).intent != c) ∧ (1 - h, .verdict (w == c && (s.half h).intent != c)) ∈ u.mgmt ∧ s.sameMem u) ∧
    ((s.half h).sampled = none → Gives (exec (.claim h) s) fun u =>
      u.half h = { s.half h with peerClaim := some c } ∧ u.mgmt = rest ∧ s.sameRegs u [] ∧ s.sameMem u)) ∧
  ∀ (s : State) (h : Nat) (w : Bool), h < 2 → (s.half h).role ≠ .hold → (s.half h).phase = .claimed → (s.half h).sampled = none →
    (∀ c, (s.half h).peerClaim = some c → (s.half h).peerVerdict = none → Gives (exec (.claimSample h w) s) (judges h w c s.mgmt s)) ∧
    (∀ c, (s.half h).peerClaim = some c → Gives (exec (.claimSample h w) s) fun u =>
      (u.half h).verdict = some (w == c && (s.half h).intent != c) ∧ (1 - h, .verdict (w == c && (s.half h).intent != c)) ∈ u.mgmt ∧ s.sameMem u) ∧
    ((s.half h).peerClaim = none → Gives (exec (.claimSample h w) s) fun u =>
      u.half h = { s.half h with sampled := some w } ∧ u.mgmt = s.mgmt ∧ s.sameRegs u [] ∧ s.sameMem u)) ∧
  ((∀ (s : State) (h : Nat) (mine theirs : Bool) (rest : List (Nat × Mgmt)), h < 2 → (s.half h).role ≠ .hold → s.mgmt = (h, .verdict theirs) :: rest →
    (s.half h).phase = .judged → (s.half h).verdict = some mine →
    (mine = true → theirs = true → Gives (exec (.verdict h) s) fun u =>
      (u.half h).phase = (if (s.half h).intent then .committing else .waitCommit) ∧ u.mgmt = (if (s.half h).intent then rest ++ [(1 - h, .commit)] else rest)
        ∧ u.boot = s.boot ∧ s.sameRegs u [] ∧ s.sameMem u) ∧
    (mine = false ∨ theirs = false → Gives (exec (.verdict h) s) (failsAttempt h 5 rest s))) ∧
  (∀ (s : State) (h : Nat) (rest : List (Nat × Mgmt)), h < 2 → (s.half h).role ≠ .hold → s.mgmt = (h, .commit) :: rest →
    (h = 1 → ∀ m ∈ rest, m ≠ (0, .commit)) → (s.half h).phase = .waitCommit ∨ (s.half h).role = .secondary →
    Gives (exec .commit s) fun u =>
      u.half h = { s.half h with role := .secondary, phase := .idle } ∧ u.mgmt = rest ++ [(1 - h, .ack)] ∧ u.boot = s.boot ∧ s.sameRegs u [] ∧ s.sameMem u) ∧
  (∀ (s : State) (h : Nat) (rest : List (Nat × Mgmt)), h < 2 → (s.half h).role ≠ .hold → (s.half h).phase = .committing → (h = 1 → s.h0.phase ≠ .committing) →
    s.mgmt = (h, .ack) :: rest →
    Gives (exec .ack s) fun u =>
      u.half h = { s.half h with role := .primary, phase := .idle } ∧ u.mgmt = rest ∧ u.fld GSTAT_PRIM = h ∧ u.fld GARB_ATTEMPT = s.attempt % 4
        ∧ u.boot = .reading ∧ u.imgSlot = some (s.strap.getD 0 / 2 % 2) ∧ (s.strap = none → u.flag GSTAT_STRAPBAD = true)
        ∧ u.reports.length = s.reports.length + (if s.strap = none then 1 else 0) + s.arbFails.length ∧ s.sameRegs u [aGSTAT, aGARB] ∧ s.sameMem u) ∧
  (∀ (s : State) (h : Nat) (rest : List (Nat × Mgmt)), h < 2 → (s.half h).role ≠ .hold →
    (s.mgmt = (h, .abort) :: rest → (h = 1 → ∀ m ∈ rest, m ≠ (0, .abort)) → (s.half h).role = .secondary →
      Gives (exec .abort s) fun u => u.half h = { s.half h with role := .arbitrating, phase := .idle } ∧ u.mgmt = rest ∧ s.sameRegs u [] ∧ s.sameMem u) ∧
    (s.mgmt = (h, .hold) :: rest → Gives (exec (.hold h) s) (holdsNow h rest s))) ∧
  (∀ (s : State) (h : Nat), h < 2 → (s.half h).role ≠ .hold →
    ((s.half h).phase = .judged ∨ (s.half h).phase = .waitCommit ∨ (s.half h).phase = .waitAck →
      Gives (exec (.arbitrationTimeout h) s) (failsAttempt h 4 s.mgmt s)) ∧
    ((s.half h).phase = .claimed → Gives (exec (.arbitrationTimeout h) s) fun u => (u.half h).verdict = some false ∧ (1 - h, .verdict false) ∈ u.mgmt ∧ s.sameMem u) ∧
    ((s.half h).phase = .claimed → (s.half h).peerVerdict = none → Gives (exec (.arbitrationTimeout h) s) fun u =>
      (u.half h).phase = .judged ∧ (u.half h).verdict = some false ∧ u.mgmt = s.mgmt ++ [(1 - h, .verdict false)] ∧ s.sameRegs u [] ∧ s.sameMem u) ∧
    ((s.half h).phase = .committing → (s.half h).resends < 3 → Gives (exec (.arbitrationTimeout h) s) fun u =>
      u.half h = { s.half h with resends := (s.half h).resends + 1 } ∧ u.mgmt = s.mgmt ++ [(1 - h, .commit)] ∧ s.sameRegs u [] ∧ s.sameMem u) ∧
    ((s.half h).phase = .committing → 3 ≤ (s.half h).resends → Gives (exec (.arbitrationTimeout h) s) fun u =>
      (u.half h).phase = .idle ∧ (1 - h, .abort) ∈ u.mgmt ∧ (s.attempt = 3 → u.boot = .hold) ∧ s.sameMem u) ∧
    ((s.half h).role = .primary ∨ (s.half h).role = .secondary → s.boot ≠ .up → s.boot ≠ .inReset → s.boot ≠ .released →
      Gives (exec (.configurationTrafficTimeout h) s) (holdsNow h s.mgmt s))) ∧
  ∀ (s : State), s.h1.phase = .waitStrap → s.h1.role ≠ .hold → Gives (exec .strapTimeout s) (failsAttempt 1 4 s.mgmt s))

/-- R32, R35, R36, R37, R210, R275: each nanosecond counts TBTIME on while PORST_N does not hold the device, and one that crosses a multiple of a leak
interval makes that class's leak tick fall. A follower's exchange sends TSYNC_REQ with its timestamp from TBSTAT.SRCPORT, or sends nothing and will be missed
where that port is not UP; a request is answered with both of the responder's. A response gives the offset; enough in-tolerance ones take the lock, the
first stepping TBTIME; a missed exchange starts the count again and enough of them lose the lock. A device that is the reference, or whose image is not
applied, does none of it. (What the count of good exchanges does at a missed one is DEDUCED, log entry 61.) -/
def Obligations.SiteTime : Prop :=
  (∀ (s : State), (∀ e ∈ s.tiles, e.2.posted = []) →
    (1 ∉ s.held → Gives (exec .siteTimeTick s) fun u =>
      u.reg aTBTIME = s.reg aTBTIME + 1 ∧ u.clk = s.clk + 1 ∧ s.sameRegs u (aTBTIME :: (List.range 10).map aGECCBKT) ∧ s.sameMem u ∧ u.sent = s.sent ∧
      (s.tsync.leak = [] → s.sameRegs u [aTBTIME] ∧
        ∀ k < 2, k ∈ u.tsync.leak ↔ let n := s.fld (GECCCFG_LEAK k) * 1000; n ≠ 0 ∧ s.now / n < (s.now + 1) / n)) ∧
    (1 ∈ s.held → exec .siteTimeTick s = .next { s with clk := s.clk + 1 })) ∧
  (∀ (s : State) (frac : Nat),
    let p := s.fld TBSTAT_SRCPORT
    let t1 := s.stamp p true (s.now * 16 + frac % 16)
    (s.follows = true → Gives (exec (.timingExchange frac) s) fun u =>
      u.sent = s.sent ++ (if s.fld (FPSTAT_STATE p) = 4 then [.flit p ((s.port p).flit (s.port p).txSeq 3 0 false (tsyncReqBody s.tsync.seq t1)).bytes] else [])
        ∧ (u.port p).treq = some (s.tsync.seq, ofIntW 68 t1) ∧ u.tsync = { s.tsync with seq := (s.tsync.seq + 1) % 65536 } ∧ s.sameRegs u [] ∧ s.sameMem u) ∧
    (s.follows = false → exec (.timingExchange frac) s = .next s)) ∧
  (∀ (s : State) (p seq frac turn : Nat), p < 8 → seq < 65536 →
    (s.boot = .up → s.fld (FPSTAT_STATE p) = 4 →
      Gives (exec (.tsyncReq p seq frac turn) s) fun u =>
        s.sameRegs u [] ∧ s.sameMem u ∧ ∃ b, u.sent = s.sent ++ [.flit p ((s.port p).flit (s.port p).txSeq 3 0 false b).bytes] ∧ b.length = 24
          ∧ nth 0 b 0 = 0x11 ∧ le b 2 2 = seq ∧ le b 4 8 = ofIntW 68 (s.stamp p false (s.now * 16 + frac % 16)) / 16
          ∧ le b 13 8 = ofIntW 68 (s.stamp p true (s.now * 16 + frac % 16 + turn)) / 16
          ∧ (nth 0 b 1 = 1 ↔ s.flag TBSTAT_LOCK = true ∨ s.flag TBSTAT_REF = true) ∧ (s.flag TBSTAT_REF = true → le b 22 2 = 0)) ∧
    (s.boot ≠ .up ∨ s.fld (FPSTAT_STATE p) ≠ 4 → exec (.tsyncReq p seq frac turn) s = .next s)) ∧
  (∀ (s : State) (seq : Nat) (locked : Bool) (t2 t3 errb frac t1 : Nat), s.follows = true →
    let p := s.fld TBSTAT_SRCPORT
    let t4 := s.stamp p false (s.now * 16 + frac % 16)
    let off : Int := (((t1 : Int) - t2) + (t4 - t3)) / 2
    let bound := (if s.fld (FPSTAT_VER p) < 2 then 32 else errb) + 4
    let good := locked = true ∧ off.natAbs + bound ≤ 64
    (s.fld (FPSTAT_STATE p) = 4 → (s.port p).treq = some (seq, t1) →
      Gives (exec (.tsyncRsp seq locked t2 t3 errb frac) s) fun u =>
        u.fld TBOFS_OFFSET = ofIntW 32 off ∧ (u.port p).treq = none ∧ u.tsync.missed = 0 ∧ u.tsync.bound = bound
          ∧ (good → u.tsync.good = s.tsync.good + 1) ∧ (¬ good → u.tsync.good = 0)
          ∧ s.sameRegs u ([aTBOFS, aTBSTAT, aGSTAT, aTBTIME] ++ (List.range 10).map aGECCBKT) ∧ s.sameMem u
          ∧ (good → s.img.lockN ≤ s.tsync.good + 1 → u.flag TBSTAT_LOCK = true)
          ∧ (good → s.img.lockN ≤ s.tsync.good + 1 → s.flag TBSTAT_LOCK = false → s.flag TBSTAT_STEPPED = false →
              u.flag TBSTAT_STEPPED = true ∧ u.fld TBTIME_TIME = ofIntW 68 (t4 - off) / 16)
          ∧ (320 < off.natAbs → u.flag TBSTAT_LOCK = false)) ∧
    ((s.port p).treq = none ∨ s.fld (FPSTAT_STATE p) ≠ 4 ∨ (∃ q, (s.port p).treq = some (q, t1) ∧ q ≠ seq) → exec (.tsyncRsp seq locked t2 t3 errb frac) s = .next s)) ∧
  ∀ (s : State),
    (s.follows = true → (s.port (s.fld TBSTAT_SRCPORT)).treq.isSome = true →
      Gives (exec .timingResponseTimeout s) fun u =>
        u.tsync.good = 0 ∧ u.tsync.missed = s.tsync.missed + 1 ∧ (u.port (s.fld TBSTAT_SRCPORT)).treq = none ∧ s.sameMem u
          ∧ (s.img.missN ≤ s.tsync.missed + 1 → u.flag TBSTAT_LOCK = false ∧ u.flag GSTAT_TBLOCK = (if s.flag TBSTAT_LOCK then false else s.flag GSTAT_TBLOCK))
          ∧ (s.tsync.missed + 1 < s.img.missN → s.sameRegs u [])) ∧
    (s.follows = false ∨ (s.port (s.fld TBSTAT_SRCPORT)).treq = none → exec .timingResponseTimeout s = .next s)

/-- R13, R502, R503: right after a power-on reset every register of the device map reads its Reset column, PORST_N holds the device, no tile runs, no
stack is initialised, no key is loaded, no port is up and no context has a partition; the stores are in their canonical form. -/
def Obligations.ResetState : Prop :=
  (∀ a, State.reset.reg a = regReset a) ∧ State.reset.boot = .inReset ∧ State.reset.held = [1] ∧ State.reset.pending = [] ∧ State.reset.sent = [] ∧
  (∀ t < 2048, State.reset.fld (TSQSTAT_STATE t) = stIdle ∧ State.reset.tile t = Tile.reset) ∧
  (∀ st < 8, State.reset.flag (SSTAT_INITD st) = false) ∧ (∀ n, State.reset.keySlot n = none) ∧ (∀ p < 8, State.reset.portUp p = false) ∧
  (∀ c, State.reset.ctxPart c = none) ∧ State.reset.fld TBTIME_TIME = 0 ∧ State.reset.fld GSTAT_ARBHOLD = 0 ∧ State.reset.parked = false ∧
  State.reset.halted = false ∧ State.reset.canonical = true ∧ State.reset.numbersOk

/-- Every step of the block keeps every store of the device in its canonical form: registers, flash, stack bytes and error marks have their addresses
strictly rising and list nothing that an unlisted address already reads as. -/
def Obligations.StepKeepsCanonicalForm : Prop :=
  ∀ s u : State, s.canonical = true → step s = .next u → u.canonical = true

end Statements
end

