-- ==== Sys2Proof/Laws/SMap.lean ====
section
/-! SUPPORT. The laws of a sparse map: a read after a write, and that every write keeps the canonical form. -/

namespace Sys2Proof.Machine

variable {α : Type}

/-- No entry of key k. -/
def SMap.noKey (m : SMap α) (k : Nat) : Prop := ∀ p ∈ m, p.1 ≠ k

theorem SMap.noKey_del (m : SMap α) (k : Nat) : (SMap.del m k).noKey k := by
  intro p hp; simpa [SMap.del] using (List.mem_filter.mp hp).2

theorem SMap.get_del (d : Nat → α) (m : SMap α) (k j : Nat) :
    SMap.get d (SMap.del m k) j = if j = k then d k else SMap.get d m j := by
  induction m with
  | nil => by_cases h : j = k <;> simp [SMap.del, SMap.get, h]
  | cons e m ih =>
    obtain ⟨a, v⟩ := e
    by_cases ha : a = k
    · have : SMap.del ((a, v) :: m) k = SMap.del m k := by simp [SMap.del, ha]
      rw [this, ih]; by_cases h : j = k <;> simp [SMap.get, h, ha]
    · have : SMap.del ((a, v) :: m) k = (a, v) :: SMap.del m k := by simp [SMap.del, ha]
      rw [this]
      by_cases h : j = a
      · subst h; simp [SMap.get, ha]
      · simp only [SMap.get, h, if_false]; exact ih

theorem SMap.get_ins (d : Nat → α) (m : SMap α) (k j : Nat) (v : α) (h : m.noKey k) :
    SMap.get d (SMap.ins k v m) j = if j = k then v else SMap.get d m j := by
  induction m with
  | nil => simp [SMap.ins, SMap.get]
  | cons e m ih =>
    obtain ⟨a, w⟩ := e
    have hm : SMap.noKey m k := fun p hp => h p (List.mem_cons_of_mem _ hp)
    have ha : a ≠ k := h (a, w) List.mem_cons_self
    by_cases hk : k < a
    · simp [SMap.ins, hk, SMap.get]
    · rw [SMap.ins, if_neg hk]
      by_cases hj : j = a
      · subst hj; simp [SMap.get, ha]
      · simp only [SMap.get, hj, if_false]; exact ih hm

/-- A read after a write of the same map. -/
theorem SMap.get_set [DecidableEq α] (d : Nat → α) (m : SMap α) (k j : Nat) (v : α) :
    SMap.get d (SMap.set d m k v) j = if j = k then v else SMap.get d m j := by
  unfold SMap.set
  split
  · next h => rw [SMap.get_del, h]
  · rw [SMap.get_ins _ _ _ _ _ (SMap.noKey_del m k), SMap.get_del]; split <;> rfl

@[simp] theorem SMap.get_set_same [DecidableEq α] (d : Nat → α) (m : SMap α) (k : Nat) (v : α) :
    SMap.get d (SMap.set d m k v) k = v := by simp [SMap.get_set]

theorem SMap.get_set_other [DecidableEq α] (d : Nat → α) (m : SMap α) (k j : Nat) (v : α) (h : j ≠ k) :
    SMap.get d (SMap.set d m k v) j = SMap.get d m j := by simp [SMap.get_set, h]

theorem SMap.get_keep (d : Nat → α) (p : Nat → Bool) (m : SMap α) (j : Nat) :
    SMap.get d (SMap.keep p m) j = if p j then SMap.get d m j else d j := by
  induction m with
  | nil => simp [SMap.keep, SMap.get]
  | cons e m ih =>
    obtain ⟨a, v⟩ := e
    by_cases hp : p a
    · have : SMap.keep p ((a, v) :: m) = (a, v) :: SMap.keep p m := by simp [SMap.keep, hp]
      rw [this]
      by_cases hj : j = a
      · subst hj; simp [SMap.get, hp]
      · simp only [SMap.get, hj, if_false]; exact ih
    · have : SMap.keep p ((a, v) :: m) = SMap.keep p m := by simp [SMap.keep, hp]
      rw [this, ih]
      by_cases hj : j = a
      · subst hj; simp [hp]
      · simp [SMap.get, hj]

/-! ## The canonical form -/

section
variable [DecidableEq α] (d : Nat → α)

theorem SMap.okFrom_mono {lo lo' : Nat} (h : lo' ≤ lo) {m : SMap α} (hm : SMap.okFrom d lo m = true) :
    SMap.okFrom d lo' m = true := by
  cases m with
  | nil => rfl
  | cons e m =>
    obtain ⟨k, v⟩ := e
    simp only [SMap.okFrom, Bool.and_eq_true, decide_eq_true_eq] at hm ⊢
    exact ⟨⟨by omega, hm.1.2⟩, hm.2⟩

theorem SMap.okFrom_filter (p : Nat × α → Bool) {lo : Nat} {m : SMap α} (hm : SMap.okFrom d lo m = true) :
    SMap.okFrom d lo (m.filter p) = true := by
  induction m generalizing lo with
  | nil => rfl
  | cons e m ih =>
    obtain ⟨k, v⟩ := e
    simp only [SMap.okFrom, Bool.and_eq_true, decide_eq_true_eq] at hm
    by_cases hp : p (k, v)
    · simp only [List.filter_cons, hp, if_true, SMap.okFrom, Bool.and_eq_true, decide_eq_true_eq]
      exact ⟨hm.1, ih hm.2⟩
    · simp only [List.filter_cons, hp, Bool.false_eq_true, if_false]
      exact SMap.okFrom_mono d (by omega) (ih hm.2)

theorem SMap.okFrom_ins {lo k : Nat} {v : α} {m : SMap α} (hk : lo ≤ k) (hv : v ≠ d k) (hn : m.noKey k)
    (hm : SMap.okFrom d lo m = true) : SMap.okFrom d lo (SMap.ins k v m) = true := by
  induction m generalizing lo with
  | nil => simp [SMap.ins, SMap.okFrom, hk, hv]
  | cons e m ih =>
    obtain ⟨a, w⟩ := e
    have ha : a ≠ k := hn (a, w) List.mem_cons_self
    simp only [SMap.okFrom, Bool.and_eq_true, decide_eq_true_eq] at hm
    by_cases h : k < a
    · simp only [SMap.ins, h, if_true, SMap.okFrom, Bool.and_eq_true, decide_eq_true_eq]
      exact ⟨⟨hk, hv⟩, ⟨by omega, hm.1.2⟩, hm.2⟩
    · simp only [SMap.ins, h, if_false, SMap.okFrom, Bool.and_eq_true, decide_eq_true_eq]
      exact ⟨hm.1, ih (by omega) (fun p hp => hn p (List.mem_cons_of_mem _ hp)) hm.2⟩

theorem SMap.wf_set {m : SMap α} (k : Nat) (v : α) (hm : SMap.wf d m = true) : SMap.wf d (SMap.set d m k v) = true := by
  unfold SMap.set
  split
  · exact SMap.okFrom_filter d _ hm
  · next h => exact SMap.okFrom_ins d (Nat.zero_le _) h (SMap.noKey_del m k) (SMap.okFrom_filter d _ hm)

theorem SMap.wf_keep {m : SMap α} (p : Nat → Bool) (hm : SMap.wf d m = true) : SMap.wf d (SMap.keep p m) = true :=
  SMap.okFrom_filter d _ hm

theorem SMap.wf_del {m : SMap α} (k : Nat) (hm : SMap.wf d m = true) : SMap.wf d (SMap.del m k) = true :=
  SMap.okFrom_filter d _ hm

theorem SMap.wf_setList {m : SMap α} (k : Nat) (vs : List α) (hm : SMap.wf d m = true) :
    SMap.wf d (SMap.setList d m k vs) = true := by
  induction vs generalizing m k with
  | nil => exact hm
  | cons v vs ih => exact ih (k + 1) (SMap.wf_set d k v hm)

@[simp] theorem SMap.wf_nil : SMap.wf d ([] : SMap α) = true := rfl
end

/-- A list of consecutive writes, read back. -/
theorem SMap.get_setList [DecidableEq α] (d : Nat → α) (m : SMap α) (k j : Nat) (vs : List α) :
    SMap.get d (SMap.setList d m k vs) j = if k ≤ j then (vs[j - k]?).getD (SMap.get d m j) else SMap.get d m j := by
  induction vs generalizing m k with
  | nil => simp [SMap.setList]
  | cons v vs ih =>
    rw [SMap.setList, ih, SMap.get_set]
    rcases Nat.lt_trichotomy j k with h | h | h
    · have h1 : ¬ k + 1 ≤ j := by omega
      have h2 : ¬ k ≤ j := by omega
      have h3 : j ≠ k := by omega
      simp [h1, h2, h3]
    · subst h; simp
    · have h1 : k + 1 ≤ j := by omega
      have h2 : k ≤ j := by omega
      have h3 : j ≠ k := by omega
      obtain ⟨n, rfl⟩ : ∃ n, j = k + 1 + n := ⟨j - (k + 1), by omega⟩
      have h4 : k + 1 + n - k = n + 1 := by omega
      simp [h1, h2, h3, h4]

end Sys2Proof.Machine
end

