-- ==== Sys2Proof/Laws/State.lean ====
section
/-! SUPPORT. What each basic update of the state leaves alone, one lemma per field, true by rfl, and what it puts into the field it
writes. -/

namespace Sys2Proof.Machine

variable (s : State)

/-! ## State.setReg -/

@[simp] theorem State.setReg_pending (a : Nat) (v : BitVec 64) : (s.setReg a v).pending = s.pending := (rfl)
@[simp] theorem State.setReg_fresh (a : Nat) (v : BitVec 64) : (s.setReg a v).fresh = s.fresh := (rfl)
@[simp] theorem State.setReg_clk (a : Nat) (v : BitVec 64) : (s.setReg a v).clk = s.clk := (rfl)
@[simp] theorem State.setReg_nextId (a : Nat) (v : BitVec 64) : (s.setReg a v).nextId = s.nextId := (rfl)
@[simp] theorem State.setReg_tiles (a : Nat) (v : BitVec 64) : (s.setReg a v).tiles = s.tiles := (rfl)
@[simp] theorem State.setReg_h0 (a : Nat) (v : BitVec 64) : (s.setReg a v).h0 = s.h0 := (rfl)
@[simp] theorem State.setReg_h1 (a : Nat) (v : BitVec 64) : (s.setReg a v).h1 = s.h1 := (rfl)
@[simp] theorem State.setReg_mgmt (a : Nat) (v : BitVec 64) : (s.setReg a v).mgmt = s.mgmt := (rfl)
@[simp] theorem State.setReg_boot (a : Nat) (v : BitVec 64) : (s.setReg a v).boot = s.boot := (rfl)
@[simp] theorem State.setReg_attempt (a : Nat) (v : BitVec 64) : (s.setReg a v).attempt = s.attempt := (rfl)
@[simp] theorem State.setReg_strap (a : Nat) (v : BitVec 64) : (s.setReg a v).strap = s.strap := (rfl)
@[simp] theorem State.setReg_bridgeDone (a : Nat) (v : BitVec 64) : (s.setReg a v).bridgeDone = s.bridgeDone := (rfl)
@[simp] theorem State.setReg_arbFails (a : Nat) (v : BitVec 64) : (s.setReg a v).arbFails = s.arbFails := (rfl)
@[simp] theorem State.setReg_alert (a : Nat) (v : BitVec 64) : (s.setReg a v).alert = s.alert := (rfl)
@[simp] theorem State.setReg_img (a : Nat) (v : BitVec 64) : (s.setReg a v).img = s.img := (rfl)
@[simp] theorem State.setReg_imgSlot (a : Nat) (v : BitVec 64) : (s.setReg a v).imgSlot = s.imgSlot := (rfl)
@[simp] theorem State.setReg_imgNext (a : Nat) (v : BitVec 64) : (s.setReg a v).imgNext = s.imgNext := (rfl)
@[simp] theorem State.setReg_held (a : Nat) (v : BitVec 64) : (s.setReg a v).held = s.held := (rfl)
@[simp] theorem State.setReg_flashOp (a : Nat) (v : BitVec 64) : (s.setReg a v).flashOp = s.flashOp := (rfl)
@[simp] theorem State.setReg_flashQ (a : Nat) (v : BitVec 64) : (s.setReg a v).flashQ = s.flashQ := (rfl)
@[simp] theorem State.setReg_dogAt (a : Nat) (v : BitVec 64) : (s.setReg a v).dogAt = s.dogAt := (rfl)
@[simp] theorem State.setReg_tsync (a : Nat) (v : BitVec 64) : (s.setReg a v).tsync = s.tsync := (rfl)
@[simp] theorem State.setReg_pow (a : Nat) (v : BitVec 64) : (s.setReg a v).pow = s.pow := (rfl)
@[simp] theorem State.setReg_hoursBurnt (a : Nat) (v : BitVec 64) : (s.setReg a v).hoursBurnt = s.hoursBurnt := (rfl)
@[simp] theorem State.setReg_halt (a : Nat) (v : BitVec 64) : (s.setReg a v).halt = s.halt := (rfl)
@[simp] theorem State.setReg_flash (a : Nat) (v : BitVec 64) : (s.setReg a v).flash = s.flash := (rfl)
@[simp] theorem State.setReg_stk (a : Nat) (v : BitVec 64) : (s.setReg a v).stk = s.stk := (rfl)
@[simp] theorem State.setReg_stkMark (a : Nat) (v : BitVec 64) : (s.setReg a v).stkMark = s.stkMark := (rfl)
@[simp] theorem State.setReg_stx (a : Nat) (v : BitVec 64) : (s.setReg a v).stx = s.stx := (rfl)
@[simp] theorem State.setReg_tap (a : Nat) (v : BitVec 64) : (s.setReg a v).tap = s.tap := (rfl)
@[simp] theorem State.setReg_engines (a : Nat) (v : BitVec 64) : (s.setReg a v).engines = s.engines := (rfl)
@[simp] theorem State.setReg_ports (a : Nat) (v : BitVec 64) : (s.setReg a v).ports = s.ports := (rfl)
@[simp] theorem State.setReg_reads (a : Nat) (v : BitVec 64) : (s.setReg a v).reads = s.reads := (rfl)
@[simp] theorem State.setReg_writes (a : Nat) (v : BitVec 64) : (s.setReg a v).writes = s.writes := (rfl)
@[simp] theorem State.setReg_tagGen (a : Nat) (v : BitVec 64) : (s.setReg a v).tagGen = s.tagGen := (rfl)
@[simp] theorem State.setReg_quar (a : Nat) (v : BitVec 64) : (s.setReg a v).quar = s.quar := (rfl)
@[simp] theorem State.setReg_routeWait (a : Nat) (v : BitVec 64) : (s.setReg a v).routeWait = s.routeWait := (rfl)
@[simp] theorem State.setReg_reports (a : Nat) (v : BitVec 64) : (s.setReg a v).reports = s.reports := (rfl)
@[simp] theorem State.setReg_hintHold (a : Nat) (v : BitVec 64) : (s.setReg a v).hintHold = s.hintHold := (rfl)
@[simp] theorem State.setReg_groups (a : Nat) (v : BitVec 64) : (s.setReg a v).groups = s.groups := (rfl)
@[simp] theorem State.setReg_colls (a : Nat) (v : BitVec 64) : (s.setReg a v).colls = s.colls := (rfl)
@[simp] theorem State.setReg_collHeld (a : Nat) (v : BitVec 64) : (s.setReg a v).collHeld = s.collHeld := (rfl)
@[simp] theorem State.setReg_collRecs (a : Nat) (v : BitVec 64) : (s.setReg a v).collRecs = s.collRecs := (rfl)
@[simp] theorem State.setReg_collDead (a : Nat) (v : BitVec 64) : (s.setReg a v).collDead = s.collDead := (rfl)
@[simp] theorem State.setReg_collWait (a : Nat) (v : BitVec 64) : (s.setReg a v).collWait = s.collWait := (rfl)
@[simp] theorem State.setReg_streams (a : Nat) (v : BitVec 64) : (s.setReg a v).streams = s.streams := (rfl)
@[simp] theorem State.setReg_mesh (a : Nat) (v : BitVec 64) : (s.setReg a v).mesh = s.mesh := (rfl)
@[simp] theorem State.setReg_detHold (a : Nat) (v : BitVec 64) : (s.setReg a v).detHold = s.detHold := (rfl)
@[simp] theorem State.setReg_ledPend (a : Nat) (v : BitVec 64) : (s.setReg a v).ledPend = s.ledPend := (rfl)
@[simp] theorem State.setReg_ledGap (a : Nat) (v : BitVec 64) : (s.setReg a v).ledGap = s.ledGap := (rfl)
@[simp] theorem State.setReg_ledRd (a : Nat) (v : BitVec 64) : (s.setReg a v).ledRd = s.ledRd := (rfl)
@[simp] theorem State.setReg_ledIn (a : Nat) (v : BitVec 64) : (s.setReg a v).ledIn = s.ledIn := (rfl)
@[simp] theorem State.setReg_ledWant (a : Nat) (v : BitVec 64) : (s.setReg a v).ledWant = s.ledWant := (rfl)
@[simp] theorem State.setReg_decision (a : Nat) (v : BitVec 64) : (s.setReg a v).decision = s.decision := (rfl)
@[simp] theorem State.setReg_stageWait (a : Nat) (v : BitVec 64) : (s.setReg a v).stageWait = s.stageWait := (rfl)
@[simp] theorem State.setReg_keys (a : Nat) (v : BitVec 64) : (s.setReg a v).keys = s.keys := (rfl)
@[simp] theorem State.setReg_keyLoad (a : Nat) (v : BitVec 64) : (s.setReg a v).keyLoad = s.keyLoad := (rfl)
@[simp] theorem State.setReg_far (a : Nat) (v : BitVec 64) : (s.setReg a v).far = s.far := (rfl)
@[simp] theorem State.setReg_ctxs (a : Nat) (v : BitVec 64) : (s.setReg a v).ctxs = s.ctxs := (rfl)
@[simp] theorem State.setReg_switches (a : Nat) (v : BitVec 64) : (s.setReg a v).switches = s.switches := (rfl)
@[simp] theorem State.setReg_occup (a : Nat) (v : BitVec 64) : (s.setReg a v).occup = s.occup := (rfl)
@[simp] theorem State.setReg_dmas (a : Nat) (v : BitVec 64) : (s.setReg a v).dmas = s.dmas := (rfl)
@[simp] theorem State.setReg_sent (a : Nat) (v : BitVec 64) : (s.setReg a v).sent = s.sent := (rfl)

/-! ## State.setFld -/

@[simp] theorem State.setFld_pending (f : Fld) (v : Nat) : (s.setFld f v).pending = s.pending := (rfl)
@[simp] theorem State.setFld_fresh (f : Fld) (v : Nat) : (s.setFld f v).fresh = s.fresh := (rfl)
@[simp] theorem State.setFld_clk (f : Fld) (v : Nat) : (s.setFld f v).clk = s.clk := (rfl)
@[simp] theorem State.setFld_nextId (f : Fld) (v : Nat) : (s.setFld f v).nextId = s.nextId := (rfl)
@[simp] theorem State.setFld_tiles (f : Fld) (v : Nat) : (s.setFld f v).tiles = s.tiles := (rfl)
@[simp] theorem State.setFld_h0 (f : Fld) (v : Nat) : (s.setFld f v).h0 = s.h0 := (rfl)
@[simp] theorem State.setFld_h1 (f : Fld) (v : Nat) : (s.setFld f v).h1 = s.h1 := (rfl)
@[simp] theorem State.setFld_mgmt (f : Fld) (v : Nat) : (s.setFld f v).mgmt = s.mgmt := (rfl)
@[simp] theorem State.setFld_boot (f : Fld) (v : Nat) : (s.setFld f v).boot = s.boot := (rfl)
@[simp] theorem State.setFld_attempt (f : Fld) (v : Nat) : (s.setFld f v).attempt = s.attempt := (rfl)
@[simp] theorem State.setFld_strap (f : Fld) (v : Nat) : (s.setFld f v).strap = s.strap := (rfl)
@[simp] theorem State.setFld_bridgeDone (f : Fld) (v : Nat) : (s.setFld f v).bridgeDone = s.bridgeDone := (rfl)
@[simp] theorem State.setFld_arbFails (f : Fld) (v : Nat) : (s.setFld f v).arbFails = s.arbFails := (rfl)
@[simp] theorem State.setFld_alert (f : Fld) (v : Nat) : (s.setFld f v).alert = s.alert := (rfl)
@[simp] theorem State.setFld_img (f : Fld) (v : Nat) : (s.setFld f v).img = s.img := (rfl)
@[simp] theorem State.setFld_imgSlot (f : Fld) (v : Nat) : (s.setFld f v).imgSlot = s.imgSlot := (rfl)
@[simp] theorem State.setFld_imgNext (f : Fld) (v : Nat) : (s.setFld f v).imgNext = s.imgNext := (rfl)
@[simp] theorem State.setFld_held (f : Fld) (v : Nat) : (s.setFld f v).held = s.held := (rfl)
@[simp] theorem State.setFld_flashOp (f : Fld) (v : Nat) : (s.setFld f v).flashOp = s.flashOp := (rfl)
@[simp] theorem State.setFld_flashQ (f : Fld) (v : Nat) : (s.setFld f v).flashQ = s.flashQ := (rfl)
@[simp] theorem State.setFld_dogAt (f : Fld) (v : Nat) : (s.setFld f v).dogAt = s.dogAt := (rfl)
@[simp] theorem State.setFld_tsync (f : Fld) (v : Nat) : (s.setFld f v).tsync = s.tsync := (rfl)
@[simp] theorem State.setFld_pow (f : Fld) (v : Nat) : (s.setFld f v).pow = s.pow := (rfl)
@[simp] theorem State.setFld_hoursBurnt (f : Fld) (v : Nat) : (s.setFld f v).hoursBurnt = s.hoursBurnt := (rfl)
@[simp] theorem State.setFld_halt (f : Fld) (v : Nat) : (s.setFld f v).halt = s.halt := (rfl)
@[simp] theorem State.setFld_flash (f : Fld) (v : Nat) : (s.setFld f v).flash = s.flash := (rfl)
@[simp] theorem State.setFld_stk (f : Fld) (v : Nat) : (s.setFld f v).stk = s.stk := (rfl)
@[simp] theorem State.setFld_stkMark (f : Fld) (v : Nat) : (s.setFld f v).stkMark = s.stkMark := (rfl)
@[simp] theorem State.setFld_stx (f : Fld) (v : Nat) : (s.setFld f v).stx = s.stx := (rfl)
@[simp] theorem State.setFld_tap (f : Fld) (v : Nat) : (s.setFld f v).tap = s.tap := (rfl)
@[simp] theorem State.setFld_engines (f : Fld) (v : Nat) : (s.setFld f v).engines = s.engines := (rfl)
@[simp] theorem State.setFld_ports (f : Fld) (v : Nat) : (s.setFld f v).ports = s.ports := (rfl)
@[simp] theorem State.setFld_reads (f : Fld) (v : Nat) : (s.setFld f v).reads = s.reads := (rfl)
@[simp] theorem State.setFld_writes (f : Fld) (v : Nat) : (s.setFld f v).writes = s.writes := (rfl)
@[simp] theorem State.setFld_tagGen (f : Fld) (v : Nat) : (s.setFld f v).tagGen = s.tagGen := (rfl)
@[simp] theorem State.setFld_quar (f : Fld) (v : Nat) : (s.setFld f v).quar = s.quar := (rfl)
@[simp] theorem State.setFld_routeWait (f : Fld) (v : Nat) : (s.setFld f v).routeWait = s.routeWait := (rfl)
@[simp] theorem State.setFld_reports (f : Fld) (v : Nat) : (s.setFld f v).reports = s.reports := (rfl)
@[simp] theorem State.setFld_hintHold (f : Fld) (v : Nat) : (s.setFld f v).hintHold = s.hintHold := (rfl)
@[simp] theorem State.setFld_groups (f : Fld) (v : Nat) : (s.setFld f v).groups = s.groups := (rfl)
@[simp] theorem State.setFld_colls (f : Fld) (v : Nat) : (s.setFld f v).colls = s.colls := (rfl)
@[simp] theorem State.setFld_collHeld (f : Fld) (v : Nat) : (s.setFld f v).collHeld = s.collHeld := (rfl)
@[simp] theorem State.setFld_collRecs (f : Fld) (v : Nat) : (s.setFld f v).collRecs = s.collRecs := (rfl)
@[simp] theorem State.setFld_collDead (f : Fld) (v : Nat) : (s.setFld f v).collDead = s.collDead := (rfl)
@[simp] theorem State.setFld_collWait (f : Fld) (v : Nat) : (s.setFld f v).collWait = s.collWait := (rfl)
@[simp] theorem State.setFld_streams (f : Fld) (v : Nat) : (s.setFld f v).streams = s.streams := (rfl)
@[simp] theorem State.setFld_mesh (f : Fld) (v : Nat) : (s.setFld f v).mesh = s.mesh := (rfl)
@[simp] theorem State.setFld_detHold (f : Fld) (v : Nat) : (s.setFld f v).detHold = s.detHold := (rfl)
@[simp] theorem State.setFld_ledPend (f : Fld) (v : Nat) : (s.setFld f v).ledPend = s.ledPend := (rfl)
@[simp] theorem State.setFld_ledGap (f : Fld) (v : Nat) : (s.setFld f v).ledGap = s.ledGap := (rfl)
@[simp] theorem State.setFld_ledRd (f : Fld) (v : Nat) : (s.setFld f v).ledRd = s.ledRd := (rfl)
@[simp] theorem State.setFld_ledIn (f : Fld) (v : Nat) : (s.setFld f v).ledIn = s.ledIn := (rfl)
@[simp] theorem State.setFld_ledWant (f : Fld) (v : Nat) : (s.setFld f v).ledWant = s.ledWant := (rfl)
@[simp] theorem State.setFld_decision (f : Fld) (v : Nat) : (s.setFld f v).decision = s.decision := (rfl)
@[simp] theorem State.setFld_stageWait (f : Fld) (v : Nat) : (s.setFld f v).stageWait = s.stageWait := (rfl)
@[simp] theorem State.setFld_keys (f : Fld) (v : Nat) : (s.setFld f v).keys = s.keys := (rfl)
@[simp] theorem State.setFld_keyLoad (f : Fld) (v : Nat) : (s.setFld f v).keyLoad = s.keyLoad := (rfl)
@[simp] theorem State.setFld_far (f : Fld) (v : Nat) : (s.setFld f v).far = s.far := (rfl)
@[simp] theorem State.setFld_ctxs (f : Fld) (v : Nat) : (s.setFld f v).ctxs = s.ctxs := (rfl)
@[simp] theorem State.setFld_switches (f : Fld) (v : Nat) : (s.setFld f v).switches = s.switches := (rfl)
@[simp] theorem State.setFld_occup (f : Fld) (v : Nat) : (s.setFld f v).occup = s.occup := (rfl)
@[simp] theorem State.setFld_dmas (f : Fld) (v : Nat) : (s.setFld f v).dmas = s.dmas := (rfl)
@[simp] theorem State.setFld_sent (f : Fld) (v : Nat) : (s.setFld f v).sent = s.sent := (rfl)

/-! ## State.bump -/

@[simp] theorem State.bump_pending (f : Fld) (n : Nat) : (s.bump f n).pending = s.pending := (rfl)
@[simp] theorem State.bump_fresh (f : Fld) (n : Nat) : (s.bump f n).fresh = s.fresh := (rfl)
@[simp] theorem State.bump_clk (f : Fld) (n : Nat) : (s.bump f n).clk = s.clk := (rfl)
@[simp] theorem State.bump_nextId (f : Fld) (n : Nat) : (s.bump f n).nextId = s.nextId := (rfl)
@[simp] theorem State.bump_tiles (f : Fld) (n : Nat) : (s.bump f n).tiles = s.tiles := (rfl)
@[simp] theorem State.bump_h0 (f : Fld) (n : Nat) : (s.bump f n).h0 = s.h0 := (rfl)
@[simp] theorem State.bump_h1 (f : Fld) (n : Nat) : (s.bump f n).h1 = s.h1 := (rfl)
@[simp] theorem State.bump_mgmt (f : Fld) (n : Nat) : (s.bump f n).mgmt = s.mgmt := (rfl)
@[simp] theorem State.bump_boot (f : Fld) (n : Nat) : (s.bump f n).boot = s.boot := (rfl)
@[simp] theorem State.bump_attempt (f : Fld) (n : Nat) : (s.bump f n).attempt = s.attempt := (rfl)
@[simp] theorem State.bump_strap (f : Fld) (n : Nat) : (s.bump f n).strap = s.strap := (rfl)
@[simp] theorem State.bump_bridgeDone (f : Fld) (n : Nat) : (s.bump f n).bridgeDone = s.bridgeDone := (rfl)
@[simp] theorem State.bump_arbFails (f : Fld) (n : Nat) : (s.bump f n).arbFails = s.arbFails := (rfl)
@[simp] theorem State.bump_alert (f : Fld) (n : Nat) : (s.bump f n).alert = s.alert := (rfl)
@[simp] theorem State.bump_img (f : Fld) (n : Nat) : (s.bump f n).img = s.img := (rfl)
@[simp] theorem State.bump_imgSlot (f : Fld) (n : Nat) : (s.bump f n).imgSlot = s.imgSlot := (rfl)
@[simp] theorem State.bump_imgNext (f : Fld) (n : Nat) : (s.bump f n).imgNext = s.imgNext := (rfl)
@[simp] theorem State.bump_held (f : Fld) (n : Nat) : (s.bump f n).held = s.held := (rfl)
@[simp] theorem State.bump_flashOp (f : Fld) (n : Nat) : (s.bump f n).flashOp = s.flashOp := (rfl)
@[simp] theorem State.bump_flashQ (f : Fld) (n : Nat) : (s.bump f n).flashQ = s.flashQ := (rfl)
@[simp] theorem State.bump_dogAt (f : Fld) (n : Nat) : (s.bump f n).dogAt = s.dogAt := (rfl)
@[simp] theorem State.bump_tsync (f : Fld) (n : Nat) : (s.bump f n).tsync = s.tsync := (rfl)
@[simp] theorem State.bump_pow (f : Fld) (n : Nat) : (s.bump f n).pow = s.pow := (rfl)
@[simp] theorem State.bump_hoursBurnt (f : Fld) (n : Nat) : (s.bump f n).hoursBurnt = s.hoursBurnt := (rfl)
@[simp] theorem State.bump_halt (f : Fld) (n : Nat) : (s.bump f n).halt = s.halt := (rfl)
@[simp] theorem State.bump_flash (f : Fld) (n : Nat) : (s.bump f n).flash = s.flash := (rfl)
@[simp] theorem State.bump_stk (f : Fld) (n : Nat) : (s.bump f n).stk = s.stk := (rfl)
@[simp] theorem State.bump_stkMark (f : Fld) (n : Nat) : (s.bump f n).stkMark = s.stkMark := (rfl)
@[simp] theorem State.bump_stx (f : Fld) (n : Nat) : (s.bump f n).stx = s.stx := (rfl)
@[simp] theorem State.bump_tap (f : Fld) (n : Nat) : (s.bump f n).tap = s.tap := (rfl)
@[simp] theorem State.bump_engines (f : Fld) (n : Nat) : (s.bump f n).engines = s.engines := (rfl)
@[simp] theorem State.bump_ports (f : Fld) (n : Nat) : (s.bump f n).ports = s.ports := (rfl)
@[simp] theorem State.bump_reads (f : Fld) (n : Nat) : (s.bump f n).reads = s.reads := (rfl)
@[simp] theorem State.bump_writes (f : Fld) (n : Nat) : (s.bump f n).writes = s.writes := (rfl)
@[simp] theorem State.bump_tagGen (f : Fld) (n : Nat) : (s.bump f n).tagGen = s.tagGen := (rfl)
@[simp] theorem State.bump_quar (f : Fld) (n : Nat) : (s.bump f n).quar = s.quar := (rfl)
@[simp] theorem State.bump_routeWait (f : Fld) (n : Nat) : (s.bump f n).routeWait = s.routeWait := (rfl)
@[simp] theorem State.bump_reports (f : Fld) (n : Nat) : (s.bump f n).reports = s.reports := (rfl)
@[simp] theorem State.bump_hintHold (f : Fld) (n : Nat) : (s.bump f n).hintHold = s.hintHold := (rfl)
@[simp] theorem State.bump_groups (f : Fld) (n : Nat) : (s.bump f n).groups = s.groups := (rfl)
@[simp] theorem State.bump_colls (f : Fld) (n : Nat) : (s.bump f n).colls = s.colls := (rfl)
@[simp] theorem State.bump_collHeld (f : Fld) (n : Nat) : (s.bump f n).collHeld = s.collHeld := (rfl)
@[simp] theorem State.bump_collRecs (f : Fld) (n : Nat) : (s.bump f n).collRecs = s.collRecs := (rfl)
@[simp] theorem State.bump_collDead (f : Fld) (n : Nat) : (s.bump f n).collDead = s.collDead := (rfl)
@[simp] theorem State.bump_collWait (f : Fld) (n : Nat) : (s.bump f n).collWait = s.collWait := (rfl)
@[simp] theorem State.bump_streams (f : Fld) (n : Nat) : (s.bump f n).streams = s.streams := (rfl)
@[simp] theorem State.bump_mesh (f : Fld) (n : Nat) : (s.bump f n).mesh = s.mesh := (rfl)
@[simp] theorem State.bump_detHold (f : Fld) (n : Nat) : (s.bump f n).detHold = s.detHold := (rfl)
@[simp] theorem State.bump_ledPend (f : Fld) (n : Nat) : (s.bump f n).ledPend = s.ledPend := (rfl)
@[simp] theorem State.bump_ledGap (f : Fld) (n : Nat) : (s.bump f n).ledGap = s.ledGap := (rfl)
@[simp] theorem State.bump_ledRd (f : Fld) (n : Nat) : (s.bump f n).ledRd = s.ledRd := (rfl)
@[simp] theorem State.bump_ledIn (f : Fld) (n : Nat) : (s.bump f n).ledIn = s.ledIn := (rfl)
@[simp] theorem State.bump_ledWant (f : Fld) (n : Nat) : (s.bump f n).ledWant = s.ledWant := (rfl)
@[simp] theorem State.bump_decision (f : Fld) (n : Nat) : (s.bump f n).decision = s.decision := (rfl)
@[simp] theorem State.bump_stageWait (f : Fld) (n : Nat) : (s.bump f n).stageWait = s.stageWait := (rfl)
@[simp] theorem State.bump_keys (f : Fld) (n : Nat) : (s.bump f n).keys = s.keys := (rfl)
@[simp] theorem State.bump_keyLoad (f : Fld) (n : Nat) : (s.bump f n).keyLoad = s.keyLoad := (rfl)
@[simp] theorem State.bump_far (f : Fld) (n : Nat) : (s.bump f n).far = s.far := (rfl)
@[simp] theorem State.bump_ctxs (f : Fld) (n : Nat) : (s.bump f n).ctxs = s.ctxs := (rfl)
@[simp] theorem State.bump_switches (f : Fld) (n : Nat) : (s.bump f n).switches = s.switches := (rfl)
@[simp] theorem State.bump_occup (f : Fld) (n : Nat) : (s.bump f n).occup = s.occup := (rfl)
@[simp] theorem State.bump_dmas (f : Fld) (n : Nat) : (s.bump f n).dmas = s.dmas := (rfl)
@[simp] theorem State.bump_sent (f : Fld) (n : Nat) : (s.bump f n).sent = s.sent := (rfl)

/-! ## State.orFld -/

@[simp] theorem State.orFld_pending (f : Fld) (v : Nat) : (s.orFld f v).pending = s.pending := (rfl)
@[simp] theorem State.orFld_fresh (f : Fld) (v : Nat) : (s.orFld f v).fresh = s.fresh := (rfl)
@[simp] theorem State.orFld_clk (f : Fld) (v : Nat) : (s.orFld f v).clk = s.clk := (rfl)
@[simp] theorem State.orFld_nextId (f : Fld) (v : Nat) : (s.orFld f v).nextId = s.nextId := (rfl)
@[simp] theorem State.orFld_tiles (f : Fld) (v : Nat) : (s.orFld f v).tiles = s.tiles := (rfl)
@[simp] theorem State.orFld_h0 (f : Fld) (v : Nat) : (s.orFld f v).h0 = s.h0 := (rfl)
@[simp] theorem State.orFld_h1 (f : Fld) (v : Nat) : (s.orFld f v).h1 = s.h1 := (rfl)
@[simp] theorem State.orFld_mgmt (f : Fld) (v : Nat) : (s.orFld f v).mgmt = s.mgmt := (rfl)
@[simp] theorem State.orFld_boot (f : Fld) (v : Nat) : (s.orFld f v).boot = s.boot := (rfl)
@[simp] theorem State.orFld_attempt (f : Fld) (v : Nat) : (s.orFld f v).attempt = s.attempt := (rfl)
@[simp] theorem State.orFld_strap (f : Fld) (v : Nat) : (s.orFld f v).strap = s.strap := (rfl)
@[simp] theorem State.orFld_bridgeDone (f : Fld) (v : Nat) : (s.orFld f v).bridgeDone = s.bridgeDone := (rfl)
@[simp] theorem State.orFld_arbFails (f : Fld) (v : Nat) : (s.orFld f v).arbFails = s.arbFails := (rfl)
@[simp] theorem State.orFld_alert (f : Fld) (v : Nat) : (s.orFld f v).alert = s.alert := (rfl)
@[simp] theorem State.orFld_img (f : Fld) (v : Nat) : (s.orFld f v).img = s.img := (rfl)
@[simp] theorem State.orFld_imgSlot (f : Fld) (v : Nat) : (s.orFld f v).imgSlot = s.imgSlot := (rfl)
@[simp] theorem State.orFld_imgNext (f : Fld) (v : Nat) : (s.orFld f v).imgNext = s.imgNext := (rfl)
@[simp] theorem State.orFld_held (f : Fld) (v : Nat) : (s.orFld f v).held = s.held := (rfl)
@[simp] theorem State.orFld_flashOp (f : Fld) (v : Nat) : (s.orFld f v).flashOp = s.flashOp := (rfl)
@[simp] theorem State.orFld_flashQ (f : Fld) (v : Nat) : (s.orFld f v).flashQ = s.flashQ := (rfl)
@[simp] theorem State.orFld_dogAt (f : Fld) (v : Nat) : (s.orFld f v).dogAt = s.dogAt := (rfl)
@[simp] theorem State.orFld_tsync (f : Fld) (v : Nat) : (s.orFld f v).tsync = s.tsync := (rfl)
@[simp] theorem State.orFld_pow (f : Fld) (v : Nat) : (s.orFld f v).pow = s.pow := (rfl)
@[simp] theorem State.orFld_hoursBurnt (f : Fld) (v : Nat) : (s.orFld f v).hoursBurnt = s.hoursBurnt := (rfl)
@[simp] theorem State.orFld_halt (f : Fld) (v : Nat) : (s.orFld f v).halt = s.halt := (rfl)
@[simp] theorem State.orFld_flash (f : Fld) (v : Nat) : (s.orFld f v).flash = s.flash := (rfl)
@[simp] theorem State.orFld_stk (f : Fld) (v : Nat) : (s.orFld f v).stk = s.stk := (rfl)
@[simp] theorem State.orFld_stkMark (f : Fld) (v : Nat) : (s.orFld f v).stkMark = s.stkMark := (rfl)
@[simp] theorem State.orFld_stx (f : Fld) (v : Nat) : (s.orFld f v).stx = s.stx := (rfl)
@[simp] theorem State.orFld_tap (f : Fld) (v : Nat) : (s.orFld f v).tap = s.tap := (rfl)
@[simp] theorem State.orFld_engines (f : Fld) (v : Nat) : (s.orFld f v).engines = s.engines := (rfl)
@[simp] theorem State.orFld_ports (f : Fld) (v : Nat) : (s.orFld f v).ports = s.ports := (rfl)
@[simp] theorem State.orFld_reads (f : Fld) (v : Nat) : (s.orFld f v).reads = s.reads := (rfl)
@[simp] theorem State.orFld_writes (f : Fld) (v : Nat) : (s.orFld f v).writes = s.writes := (rfl)
@[simp] theorem State.orFld_tagGen (f : Fld) (v : Nat) : (s.orFld f v).tagGen = s.tagGen := (rfl)
@[simp] theorem State.orFld_quar (f : Fld) (v : Nat) : (s.orFld f v).quar = s.quar := (rfl)
@[simp] theorem State.orFld_routeWait (f : Fld) (v : Nat) : (s.orFld f v).routeWait = s.routeWait := (rfl)
@[simp] theorem State.orFld_reports (f : Fld) (v : Nat) : (s.orFld f v).reports = s.reports := (rfl)
@[simp] theorem State.orFld_hintHold (f : Fld) (v : Nat) : (s.orFld f v).hintHold = s.hintHold := (rfl)
@[simp] theorem State.orFld_groups (f : Fld) (v : Nat) : (s.orFld f v).groups = s.groups := (rfl)
@[simp] theorem State.orFld_colls (f : Fld) (v : Nat) : (s.orFld f v).colls = s.colls := (rfl)
@[simp] theorem State.orFld_collHeld (f : Fld) (v : Nat) : (s.orFld f v).collHeld = s.collHeld := (rfl)
@[simp] theorem State.orFld_collRecs (f : Fld) (v : Nat) : (s.orFld f v).collRecs = s.collRecs := (rfl)
@[simp] theorem State.orFld_collDead (f : Fld) (v : Nat) : (s.orFld f v).collDead = s.collDead := (rfl)
@[simp] theorem State.orFld_collWait (f : Fld) (v : Nat) : (s.orFld f v).collWait = s.collWait := (rfl)
@[simp] theorem State.orFld_streams (f : Fld) (v : Nat) : (s.orFld f v).streams = s.streams := (rfl)
@[simp] theorem State.orFld_mesh (f : Fld) (v : Nat) : (s.orFld f v).mesh = s.mesh := (rfl)
@[simp] theorem State.orFld_detHold (f : Fld) (v : Nat) : (s.orFld f v).detHold = s.detHold := (rfl)
@[simp] theorem State.orFld_ledPend (f : Fld) (v : Nat) : (s.orFld f v).ledPend = s.ledPend := (rfl)
@[simp] theorem State.orFld_ledGap (f : Fld) (v : Nat) : (s.orFld f v).ledGap = s.ledGap := (rfl)
@[simp] theorem State.orFld_ledRd (f : Fld) (v : Nat) : (s.orFld f v).ledRd = s.ledRd := (rfl)
@[simp] theorem State.orFld_ledIn (f : Fld) (v : Nat) : (s.orFld f v).ledIn = s.ledIn := (rfl)
@[simp] theorem State.orFld_ledWant (f : Fld) (v : Nat) : (s.orFld f v).ledWant = s.ledWant := (rfl)
@[simp] theorem State.orFld_decision (f : Fld) (v : Nat) : (s.orFld f v).decision = s.decision := (rfl)
@[simp] theorem State.orFld_stageWait (f : Fld) (v : Nat) : (s.orFld f v).stageWait = s.stageWait := (rfl)
@[simp] theorem State.orFld_keys (f : Fld) (v : Nat) : (s.orFld f v).keys = s.keys := (rfl)
@[simp] theorem State.orFld_keyLoad (f : Fld) (v : Nat) : (s.orFld f v).keyLoad = s.keyLoad := (rfl)
@[simp] theorem State.orFld_far (f : Fld) (v : Nat) : (s.orFld f v).far = s.far := (rfl)
@[simp] theorem State.orFld_ctxs (f : Fld) (v : Nat) : (s.orFld f v).ctxs = s.ctxs := (rfl)
@[simp] theorem State.orFld_switches (f : Fld) (v : Nat) : (s.orFld f v).switches = s.switches := (rfl)
@[simp] theorem State.orFld_occup (f : Fld) (v : Nat) : (s.orFld f v).occup = s.occup := (rfl)
@[simp] theorem State.orFld_dmas (f : Fld) (v : Nat) : (s.orFld f v).dmas = s.dmas := (rfl)
@[simp] theorem State.orFld_sent (f : Fld) (v : Nat) : (s.orFld f v).sent = s.sent := (rfl)

/-! ## State.setTile -/

@[simp] theorem State.setTile_pending (t : Nat) (x : Tile) : (s.setTile t x).pending = s.pending := (rfl)
@[simp] theorem State.setTile_fresh (t : Nat) (x : Tile) : (s.setTile t x).fresh = s.fresh := (rfl)
@[simp] theorem State.setTile_clk (t : Nat) (x : Tile) : (s.setTile t x).clk = s.clk := (rfl)
@[simp] theorem State.setTile_nextId (t : Nat) (x : Tile) : (s.setTile t x).nextId = s.nextId := (rfl)
@[simp] theorem State.setTile_regs (t : Nat) (x : Tile) : (s.setTile t x).regs = s.regs := (rfl)
@[simp] theorem State.setTile_h0 (t : Nat) (x : Tile) : (s.setTile t x).h0 = s.h0 := (rfl)
@[simp] theorem State.setTile_h1 (t : Nat) (x : Tile) : (s.setTile t x).h1 = s.h1 := (rfl)
@[simp] theorem State.setTile_mgmt (t : Nat) (x : Tile) : (s.setTile t x).mgmt = s.mgmt := (rfl)
@[simp] theorem State.setTile_boot (t : Nat) (x : Tile) : (s.setTile t x).boot = s.boot := (rfl)
@[simp] theorem State.setTile_attempt (t : Nat) (x : Tile) : (s.setTile t x).attempt = s.attempt := (rfl)
@[simp] theorem State.setTile_strap (t : Nat) (x : Tile) : (s.setTile t x).strap = s.strap := (rfl)
@[simp] theorem State.setTile_bridgeDone (t : Nat) (x : Tile) : (s.setTile t x).bridgeDone = s.bridgeDone := (rfl)
@[simp] theorem State.setTile_arbFails (t : Nat) (x : Tile) : (s.setTile t x).arbFails = s.arbFails := (rfl)
@[simp] theorem State.setTile_alert (t : Nat) (x : Tile) : (s.setTile t x).alert = s.alert := (rfl)
@[simp] theorem State.setTile_img (t : Nat) (x : Tile) : (s.setTile t x).img = s.img := (rfl)
@[simp] theorem State.setTile_imgSlot (t : Nat) (x : Tile) : (s.setTile t x).imgSlot = s.imgSlot := (rfl)
@[simp] theorem State.setTile_imgNext (t : Nat) (x : Tile) : (s.setTile t x).imgNext = s.imgNext := (rfl)
@[simp] theorem State.setTile_held (t : Nat) (x : Tile) : (s.setTile t x).held = s.held := (rfl)
@[simp] theorem State.setTile_flashOp (t : Nat) (x : Tile) : (s.setTile t x).flashOp = s.flashOp := (rfl)
@[simp] theorem State.setTile_flashQ (t : Nat) (x : Tile) : (s.setTile t x).flashQ = s.flashQ := (rfl)
@[simp] theorem State.setTile_dogAt (t : Nat) (x : Tile) : (s.setTile t x).dogAt = s.dogAt := (rfl)
@[simp] theorem State.setTile_tsync (t : Nat) (x : Tile) : (s.setTile t x).tsync = s.tsync := (rfl)
@[simp] theorem State.setTile_pow (t : Nat) (x : Tile) : (s.setTile t x).pow = s.pow := (rfl)
@[simp] theorem State.setTile_hoursBurnt (t : Nat) (x : Tile) : (s.setTile t x).hoursBurnt = s.hoursBurnt := (rfl)
@[simp] theorem State.setTile_halt (t : Nat) (x : Tile) : (s.setTile t x).halt = s.halt := (rfl)
@[simp] theorem State.setTile_flash (t : Nat) (x : Tile) : (s.setTile t x).flash = s.flash := (rfl)
@[simp] theorem State.setTile_stk (t : Nat) (x : Tile) : (s.setTile t x).stk = s.stk := (rfl)
@[simp] theorem State.setTile_stkMark (t : Nat) (x : Tile) : (s.setTile t x).stkMark = s.stkMark := (rfl)
@[simp] theorem State.setTile_stx (t : Nat) (x : Tile) : (s.setTile t x).stx = s.stx := (rfl)
@[simp] theorem State.setTile_tap (t : Nat) (x : Tile) : (s.setTile t x).tap = s.tap := (rfl)
@[simp] theorem State.setTile_engines (t : Nat) (x : Tile) : (s.setTile t x).engines = s.engines := (rfl)
@[simp] theorem State.setTile_ports (t : Nat) (x : Tile) : (s.setTile t x).ports = s.ports := (rfl)
@[simp] theorem State.setTile_reads (t : Nat) (x : Tile) : (s.setTile t x).reads = s.reads := (rfl)
@[simp] theorem State.setTile_writes (t : Nat) (x : Tile) : (s.setTile t x).writes = s.writes := (rfl)
@[simp] theorem State.setTile_tagGen (t : Nat) (x : Tile) : (s.setTile t x).tagGen = s.tagGen := (rfl)
@[simp] theorem State.setTile_quar (t : Nat) (x : Tile) : (s.setTile t x).quar = s.quar := (rfl)
@[simp] theorem State.setTile_routeWait (t : Nat) (x : Tile) : (s.setTile t x).routeWait = s.routeWait := (rfl)
@[simp] theorem State.setTile_reports (t : Nat) (x : Tile) : (s.setTile t x).reports = s.reports := (rfl)
@[simp] theorem State.setTile_hintHold (t : Nat) (x : Tile) : (s.setTile t x).hintHold = s.hintHold := (rfl)
@[simp] theorem State.setTile_groups (t : Nat) (x : Tile) : (s.setTile t x).groups = s.groups := (rfl)
@[simp] theorem State.setTile_colls (t : Nat) (x : Tile) : (s.setTile t x).colls = s.colls := (rfl)
@[simp] theorem State.setTile_collHeld (t : Nat) (x : Tile) : (s.setTile t x).collHeld = s.collHeld := (rfl)
@[simp] theorem State.setTile_collRecs (t : Nat) (x : Tile) : (s.setTile t x).collRecs = s.collRecs := (rfl)
@[simp] theorem State.setTile_collDead (t : Nat) (x : Tile) : (s.setTile t x).collDead = s.collDead := (rfl)
@[simp] theorem State.setTile_collWait (t : Nat) (x : Tile) : (s.setTile t x).collWait = s.collWait := (rfl)
@[simp] theorem State.setTile_streams (t : Nat) (x : Tile) : (s.setTile t x).streams = s.streams := (rfl)
@[simp] theorem State.setTile_mesh (t : Nat) (x : Tile) : (s.setTile t x).mesh = s.mesh := (rfl)
@[simp] theorem State.setTile_detHold (t : Nat) (x : Tile) : (s.setTile t x).detHold = s.detHold := (rfl)
@[simp] theorem State.setTile_ledPend (t : Nat) (x : Tile) : (s.setTile t x).ledPend = s.ledPend := (rfl)
@[simp] theorem State.setTile_ledGap (t : Nat) (x : Tile) : (s.setTile t x).ledGap = s.ledGap := (rfl)
@[simp] theorem State.setTile_ledRd (t : Nat) (x : Tile) : (s.setTile t x).ledRd = s.ledRd := (rfl)
@[simp] theorem State.setTile_ledIn (t : Nat) (x : Tile) : (s.setTile t x).ledIn = s.ledIn := (rfl)
@[simp] theorem State.setTile_ledWant (t : Nat) (x : Tile) : (s.setTile t x).ledWant = s.ledWant := (rfl)
@[simp] theorem State.setTile_decision (t : Nat) (x : Tile) : (s.setTile t x).decision = s.decision := (rfl)
@[simp] theorem State.setTile_stageWait (t : Nat) (x : Tile) : (s.setTile t x).stageWait = s.stageWait := (rfl)
@[simp] theorem State.setTile_keys (t : Nat) (x : Tile) : (s.setTile t x).keys = s.keys := (rfl)
@[simp] theorem State.setTile_keyLoad (t : Nat) (x : Tile) : (s.setTile t x).keyLoad = s.keyLoad := (rfl)
@[simp] theorem State.setTile_far (t : Nat) (x : Tile) : (s.setTile t x).far = s.far := (rfl)
@[simp] theorem State.setTile_ctxs (t : Nat) (x : Tile) : (s.setTile t x).ctxs = s.ctxs := (rfl)
@[simp] theorem State.setTile_switches (t : Nat) (x : Tile) : (s.setTile t x).switches = s.switches := (rfl)
@[simp] theorem State.setTile_occup (t : Nat) (x : Tile) : (s.setTile t x).occup = s.occup := (rfl)
@[simp] theorem State.setTile_dmas (t : Nat) (x : Tile) : (s.setTile t x).dmas = s.dmas := (rfl)
@[simp] theorem State.setTile_sent (t : Nat) (x : Tile) : (s.setTile t x).sent = s.sent := (rfl)

/-! ## State.modTile -/

@[simp] theorem State.modTile_pending (t : Nat) (f : Tile → Tile) : (s.modTile t f).pending = s.pending := (rfl)
@[simp] theorem State.modTile_fresh (t : Nat) (f : Tile → Tile) : (s.modTile t f).fresh = s.fresh := (rfl)
@[simp] theorem State.modTile_clk (t : Nat) (f : Tile → Tile) : (s.modTile t f).clk = s.clk := (rfl)
@[simp] theorem State.modTile_nextId (t : Nat) (f : Tile → Tile) : (s.modTile t f).nextId = s.nextId := (rfl)
@[simp] theorem State.modTile_regs (t : Nat) (f : Tile → Tile) : (s.modTile t f).regs = s.regs := (rfl)
@[simp] theorem State.modTile_h0 (t : Nat) (f : Tile → Tile) : (s.modTile t f).h0 = s.h0 := (rfl)
@[simp] theorem State.modTile_h1 (t : Nat) (f : Tile → Tile) : (s.modTile t f).h1 = s.h1 := (rfl)
@[simp] theorem State.modTile_mgmt (t : Nat) (f : Tile → Tile) : (s.modTile t f).mgmt = s.mgmt := (rfl)
@[simp] theorem State.modTile_boot (t : Nat) (f : Tile → Tile) : (s.modTile t f).boot = s.boot := (rfl)
@[simp] theorem State.modTile_attempt (t : Nat) (f : Tile → Tile) : (s.modTile t f).attempt = s.attempt := (rfl)
@[simp] theorem State.modTile_strap (t : Nat) (f : Tile → Tile) : (s.modTile t f).strap = s.strap := (rfl)
@[simp] theorem State.modTile_bridgeDone (t : Nat) (f : Tile → Tile) : (s.modTile t f).bridgeDone = s.bridgeDone := (rfl)
@[simp] theorem State.modTile_arbFails (t : Nat) (f : Tile → Tile) : (s.modTile t f).arbFails = s.arbFails := (rfl)
@[simp] theorem State.modTile_alert (t : Nat) (f : Tile → Tile) : (s.modTile t f).alert = s.alert := (rfl)
@[simp] theorem State.modTile_img (t : Nat) (f : Tile → Tile) : (s.modTile t f).img = s.img := (rfl)
@[simp] theorem State.modTile_imgSlot (t : Nat) (f : Tile → Tile) : (s.modTile t f).imgSlot = s.imgSlot := (rfl)
@[simp] theorem State.modTile_imgNext (t : Nat) (f : Tile → Tile) : (s.modTile t f).imgNext = s.imgNext := (rfl)
@[simp] theorem State.modTile_held (t : Nat) (f : Tile → Tile) : (s.modTile t f).held = s.held := (rfl)
@[simp] theorem State.modTile_flashOp (t : Nat) (f : Tile → Tile) : (s.modTile t f).flashOp = s.flashOp := (rfl)
@[simp] theorem State.modTile_flashQ (t : Nat) (f : Tile → Tile) : (s.modTile t f).flashQ = s.flashQ := (rfl)
@[simp] theorem State.modTile_dogAt (t : Nat) (f : Tile → Tile) : (s.modTile t f).dogAt = s.dogAt := (rfl)
@[simp] theorem State.modTile_tsync (t : Nat) (f : Tile → Tile) : (s.modTile t f).tsync = s.tsync := (rfl)
@[simp] theorem State.modTile_pow (t : Nat) (f : Tile → Tile) : (s.modTile t f).pow = s.pow := (rfl)
@[simp] theorem State.modTile_hoursBurnt (t : Nat) (f : Tile → Tile) : (s.modTile t f).hoursBurnt = s.hoursBurnt := (rfl)
@[simp] theorem State.modTile_halt (t : Nat) (f : Tile → Tile) : (s.modTile t f).halt = s.halt := (rfl)
@[simp] theorem State.modTile_flash (t : Nat) (f : Tile → Tile) : (s.modTile t f).flash = s.flash := (rfl)
@[simp] theorem State.modTile_stk (t : Nat) (f : Tile → Tile) : (s.modTile t f).stk = s.stk := (rfl)
@[simp] theorem State.modTile_stkMark (t : Nat) (f : Tile → Tile) : (s.modTile t f).stkMark = s.stkMark := (rfl)
@[simp] theorem State.modTile_stx (t : Nat) (f : Tile → Tile) : (s.modTile t f).stx = s.stx := (rfl)
@[simp] theorem State.modTile_tap (t : Nat) (f : Tile → Tile) : (s.modTile t f).tap = s.tap := (rfl)
@[simp] theorem State.modTile_engines (t : Nat) (f : Tile → Tile) : (s.modTile t f).engines = s.engines := (rfl)
@[simp] theorem State.modTile_ports (t : Nat) (f : Tile → Tile) : (s.modTile t f).ports = s.ports := (rfl)
@[simp] theorem State.modTile_reads (t : Nat) (f : Tile → Tile) : (s.modTile t f).reads = s.reads := (rfl)
@[simp] theorem State.modTile_writes (t : Nat) (f : Tile → Tile) : (s.modTile t f).writes = s.writes := (rfl)
@[simp] theorem State.modTile_tagGen (t : Nat) (f : Tile → Tile) : (s.modTile t f).tagGen = s.tagGen := (rfl)
@[simp] theorem State.modTile_quar (t : Nat) (f : Tile → Tile) : (s.modTile t f).quar = s.quar := (rfl)
@[simp] theorem State.modTile_routeWait (t : Nat) (f : Tile → Tile) : (s.modTile t f).routeWait = s.routeWait := (rfl)
@[simp] theorem State.modTile_reports (t : Nat) (f : Tile → Tile) : (s.modTile t f).reports = s.reports := (rfl)
@[simp] theorem State.modTile_hintHold (t : Nat) (f : Tile → Tile) : (s.modTile t f).hintHold = s.hintHold := (rfl)
@[simp] theorem State.modTile_groups (t : Nat) (f : Tile → Tile) : (s.modTile t f).groups = s.groups := (rfl)
@[simp] theorem State.modTile_colls (t : Nat) (f : Tile → Tile) : (s.modTile t f).colls = s.colls := (rfl)
@[simp] theorem State.modTile_collHeld (t : Nat) (f : Tile → Tile) : (s.modTile t f).collHeld = s.collHeld := (rfl)
@[simp] theorem State.modTile_collRecs (t : Nat) (f : Tile → Tile) : (s.modTile t f).collRecs = s.collRecs := (rfl)
@[simp] theorem State.modTile_collDead (t : Nat) (f : Tile → Tile) : (s.modTile t f).collDead = s.collDead := (rfl)
@[simp] theorem State.modTile_collWait (t : Nat) (f : Tile → Tile) : (s.modTile t f).collWait = s.collWait := (rfl)
@[simp] theorem State.modTile_streams (t : Nat) (f : Tile → Tile) : (s.modTile t f).streams = s.streams := (rfl)
@[simp] theorem State.modTile_mesh (t : Nat) (f : Tile → Tile) : (s.modTile t f).mesh = s.mesh := (rfl)
@[simp] theorem State.modTile_detHold (t : Nat) (f : Tile → Tile) : (s.modTile t f).detHold = s.detHold := (rfl)
@[simp] theorem State.modTile_ledPend (t : Nat) (f : Tile → Tile) : (s.modTile t f).ledPend = s.ledPend := (rfl)
@[simp] theorem State.modTile_ledGap (t : Nat) (f : Tile → Tile) : (s.modTile t f).ledGap = s.ledGap := (rfl)
@[simp] theorem State.modTile_ledRd (t : Nat) (f : Tile → Tile) : (s.modTile t f).ledRd = s.ledRd := (rfl)
@[simp] theorem State.modTile_ledIn (t : Nat) (f : Tile → Tile) : (s.modTile t f).ledIn = s.ledIn := (rfl)
@[simp] theorem State.modTile_ledWant (t : Nat) (f : Tile → Tile) : (s.modTile t f).ledWant = s.ledWant := (rfl)
@[simp] theorem State.modTile_decision (t : Nat) (f : Tile → Tile) : (s.modTile t f).decision = s.decision := (rfl)
@[simp] theorem State.modTile_stageWait (t : Nat) (f : Tile → Tile) : (s.modTile t f).stageWait = s.stageWait := (rfl)
@[simp] theorem State.modTile_keys (t : Nat) (f : Tile → Tile) : (s.modTile t f).keys = s.keys := (rfl)
@[simp] theorem State.modTile_keyLoad (t : Nat) (f : Tile → Tile) : (s.modTile t f).keyLoad = s.keyLoad := (rfl)
@[simp] theorem State.modTile_far (t : Nat) (f : Tile → Tile) : (s.modTile t f).far = s.far := (rfl)
@[simp] theorem State.modTile_ctxs (t : Nat) (f : Tile → Tile) : (s.modTile t f).ctxs = s.ctxs := (rfl)
@[simp] theorem State.modTile_switches (t : Nat) (f : Tile → Tile) : (s.modTile t f).switches = s.switches := (rfl)
@[simp] theorem State.modTile_occup (t : Nat) (f : Tile → Tile) : (s.modTile t f).occup = s.occup := (rfl)
@[simp] theorem State.modTile_dmas (t : Nat) (f : Tile → Tile) : (s.modTile t f).dmas = s.dmas := (rfl)
@[simp] theorem State.modTile_sent (t : Nat) (f : Tile → Tile) : (s.modTile t f).sent = s.sent := (rfl)

/-! ## State.modStack -/

@[simp] theorem State.modStack_pending (n : Nat) (f : Stack → Stack) : (s.modStack n f).pending = s.pending := (rfl)
@[simp] theorem State.modStack_fresh (n : Nat) (f : Stack → Stack) : (s.modStack n f).fresh = s.fresh := (rfl)
@[simp] theorem State.modStack_clk (n : Nat) (f : Stack → Stack) : (s.modStack n f).clk = s.clk := (rfl)
@[simp] theorem State.modStack_nextId (n : Nat) (f : Stack → Stack) : (s.modStack n f).nextId = s.nextId := (rfl)
@[simp] theorem State.modStack_regs (n : Nat) (f : Stack → Stack) : (s.modStack n f).regs = s.regs := (rfl)
@[simp] theorem State.modStack_tiles (n : Nat) (f : Stack → Stack) : (s.modStack n f).tiles = s.tiles := (rfl)
@[simp] theorem State.modStack_h0 (n : Nat) (f : Stack → Stack) : (s.modStack n f).h0 = s.h0 := (rfl)
@[simp] theorem State.modStack_h1 (n : Nat) (f : Stack → Stack) : (s.modStack n f).h1 = s.h1 := (rfl)
@[simp] theorem State.modStack_mgmt (n : Nat) (f : Stack → Stack) : (s.modStack n f).mgmt = s.mgmt := (rfl)
@[simp] theorem State.modStack_boot (n : Nat) (f : Stack → Stack) : (s.modStack n f).boot = s.boot := (rfl)
@[simp] theorem State.modStack_attempt (n : Nat) (f : Stack → Stack) : (s.modStack n f).attempt = s.attempt := (rfl)
@[simp] theorem State.modStack_strap (n : Nat) (f : Stack → Stack) : (s.modStack n f).strap = s.strap := (rfl)
@[simp] theorem State.modStack_bridgeDone (n : Nat) (f : Stack → Stack) : (s.modStack n f).bridgeDone = s.bridgeDone := (rfl)
@[simp] theorem State.modStack_arbFails (n : Nat) (f : Stack → Stack) : (s.modStack n f).arbFails = s.arbFails := (rfl)
@[simp] theorem State.modStack_alert (n : Nat) (f : Stack → Stack) : (s.modStack n f).alert = s.alert := (rfl)
@[simp] theorem State.modStack_img (n : Nat) (f : Stack → Stack) : (s.modStack n f).img = s.img := (rfl)
@[simp] theorem State.modStack_imgSlot (n : Nat) (f : Stack → Stack) : (s.modStack n f).imgSlot = s.imgSlot := (rfl)
@[simp] theorem State.modStack_imgNext (n : Nat) (f : Stack → Stack) : (s.modStack n f).imgNext = s.imgNext := (rfl)
@[simp] theorem State.modStack_held (n : Nat) (f : Stack → Stack) : (s.modStack n f).held = s.held := (rfl)
@[simp] theorem State.modStack_flashOp (n : Nat) (f : Stack → Stack) : (s.modStack n f).flashOp = s.flashOp := (rfl)
@[simp] theorem State.modStack_flashQ (n : Nat) (f : Stack → Stack) : (s.modStack n f).flashQ = s.flashQ := (rfl)
@[simp] theorem State.modStack_dogAt (n : Nat) (f : Stack → Stack) : (s.modStack n f).dogAt = s.dogAt := (rfl)
@[simp] theorem State.modStack_tsync (n : Nat) (f : Stack → Stack) : (s.modStack n f).tsync = s.tsync := (rfl)
@[simp] theorem State.modStack_pow (n : Nat) (f : Stack → Stack) : (s.modStack n f).pow = s.pow := (rfl)
@[simp] theorem State.modStack_hoursBurnt (n : Nat) (f : Stack → Stack) : (s.modStack n f).hoursBurnt = s.hoursBurnt := (rfl)
@[simp] theorem State.modStack_halt (n : Nat) (f : Stack → Stack) : (s.modStack n f).halt = s.halt := (rfl)
@[simp] theorem State.modStack_flash (n : Nat) (f : Stack → Stack) : (s.modStack n f).flash = s.flash := (rfl)
@[simp] theorem State.modStack_stk (n : Nat) (f : Stack → Stack) : (s.modStack n f).stk = s.stk := (rfl)
@[simp] theorem State.modStack_stkMark (n : Nat) (f : Stack → Stack) : (s.modStack n f).stkMark = s.stkMark := (rfl)
@[simp] theorem State.modStack_tap (n : Nat) (f : Stack → Stack) : (s.modStack n f).tap = s.tap := (rfl)
@[simp] theorem State.modStack_engines (n : Nat) (f : Stack → Stack) : (s.modStack n f).engines = s.engines := (rfl)
@[simp] theorem State.modStack_ports (n : Nat) (f : Stack → Stack) : (s.modStack n f).ports = s.ports := (rfl)
@[simp] theorem State.modStack_reads (n : Nat) (f : Stack → Stack) : (s.modStack n f).reads = s.reads := (rfl)
@[simp] theorem State.modStack_writes (n : Nat) (f : Stack → Stack) : (s.modStack n f).writes = s.writes := (rfl)
@[simp] theorem State.modStack_tagGen (n : Nat) (f : Stack → Stack) : (s.modStack n f).tagGen = s.tagGen := (rfl)
@[simp] theorem State.modStack_quar (n : Nat) (f : Stack → Stack) : (s.modStack n f).quar = s.quar := (rfl)
@[simp] theorem State.modStack_routeWait (n : Nat) (f : Stack → Stack) : (s.modStack n f).routeWait = s.routeWait := (rfl)
@[simp] theorem State.modStack_reports (n : Nat) (f : Stack → Stack) : (s.modStack n f).reports = s.reports := (rfl)
@[simp] theorem State.modStack_hintHold (n : Nat) (f : Stack → Stack) : (s.modStack n f).hintHold = s.hintHold := (rfl)
@[simp] theorem State.modStack_groups (n : Nat) (f : Stack → Stack) : (s.modStack n f).groups = s.groups := (rfl)
@[simp] theorem State.modStack_colls (n : Nat) (f : Stack → Stack) : (s.modStack n f).colls = s.colls := (rfl)
@[simp] theorem State.modStack_collHeld (n : Nat) (f : Stack → Stack) : (s.modStack n f).collHeld = s.collHeld := (rfl)
@[simp] theorem State.modStack_collRecs (n : Nat) (f : Stack → Stack) : (s.modStack n f).collRecs = s.collRecs := (rfl)
@[simp] theorem State.modStack_collDead (n : Nat) (f : Stack → Stack) : (s.modStack n f).collDead = s.collDead := (rfl)
@[simp] theorem State.modStack_collWait (n : Nat) (f : Stack → Stack) : (s.modStack n f).collWait = s.collWait := (rfl)
@[simp] theorem State.modStack_streams (n : Nat) (f : Stack → Stack) : (s.modStack n f).streams = s.streams := (rfl)
@[simp] theorem State.modStack_mesh (n : Nat) (f : Stack → Stack) : (s.modStack n f).mesh = s.mesh := (rfl)
@[simp] theorem State.modStack_detHold (n : Nat) (f : Stack → Stack) : (s.modStack n f).detHold = s.detHold := (rfl)
@[simp] theorem State.modStack_ledPend (n : Nat) (f : Stack → Stack) : (s.modStack n f).ledPend = s.ledPend := (rfl)
@[simp] theorem State.modStack_ledGap (n : Nat) (f : Stack → Stack) : (s.modStack n f).ledGap = s.ledGap := (rfl)
@[simp] theorem State.modStack_ledRd (n : Nat) (f : Stack → Stack) : (s.modStack n f).ledRd = s.ledRd := (rfl)
@[simp] theorem State.modStack_ledIn (n : Nat) (f : Stack → Stack) : (s.modStack n f).ledIn = s.ledIn := (rfl)
@[simp] theorem State.modStack_ledWant (n : Nat) (f : Stack → Stack) : (s.modStack n f).ledWant = s.ledWant := (rfl)
@[simp] theorem State.modStack_decision (n : Nat) (f : Stack → Stack) : (s.modStack n f).decision = s.decision := (rfl)
@[simp] theorem State.modStack_stageWait (n : Nat) (f : Stack → Stack) : (s.modStack n f).stageWait = s.stageWait := (rfl)
@[simp] theorem State.modStack_keys (n : Nat) (f : Stack → Stack) : (s.modStack n f).keys = s.keys := (rfl)
@[simp] theorem State.modStack_keyLoad (n : Nat) (f : Stack → Stack) : (s.modStack n f).keyLoad = s.keyLoad := (rfl)
@[simp] theorem State.modStack_far (n : Nat) (f : Stack → Stack) : (s.modStack n f).far = s.far := (rfl)
@[simp] theorem State.modStack_ctxs (n : Nat) (f : Stack → Stack) : (s.modStack n f).ctxs = s.ctxs := (rfl)
@[simp] theorem State.modStack_switches (n : Nat) (f : Stack → Stack) : (s.modStack n f).switches = s.switches := (rfl)
@[simp] theorem State.modStack_occup (n : Nat) (f : Stack → Stack) : (s.modStack n f).occup = s.occup := (rfl)
@[simp] theorem State.modStack_dmas (n : Nat) (f : Stack → Stack) : (s.modStack n f).dmas = s.dmas := (rfl)
@[simp] theorem State.modStack_sent (n : Nat) (f : Stack → Stack) : (s.modStack n f).sent = s.sent := (rfl)

/-! ## State.modEngine -/

@[simp] theorem State.modEngine_pending (n e : Nat) (f : Engine → Engine) : (s.modEngine n e f).pending = s.pending := (rfl)
@[simp] theorem State.modEngine_fresh (n e : Nat) (f : Engine → Engine) : (s.modEngine n e f).fresh = s.fresh := (rfl)
@[simp] theorem State.modEngine_clk (n e : Nat) (f : Engine → Engine) : (s.modEngine n e f).clk = s.clk := (rfl)
@[simp] theorem State.modEngine_nextId (n e : Nat) (f : Engine → Engine) : (s.modEngine n e f).nextId = s.nextId := (rfl)
@[simp] theorem State.modEngine_regs (n e : Nat) (f : Engine → Engine) : (s.modEngine n e f).regs = s.regs := (rfl)
@[simp] theorem State.modEngine_tiles (n e : Nat) (f : Engine → Engine) : (s.modEngine n e f).tiles = s.tiles := (rfl)
@[simp] theorem State.modEngine_h0 (n e : Nat) (f : Engine → Engine) : (s.modEngine n e f).h0 = s.h0 := (rfl)
@[simp] theorem State.modEngine_h1 (n e : Nat) (f : Engine → Engine) : (s.modEngine n e f).h1 = s.h1 := (rfl)
@[simp] theorem State.modEngine_mgmt (n e : Nat) (f : Engine → Engine) : (s.modEngine n e f).mgmt = s.mgmt := (rfl)
@[simp] theorem State.modEngine_boot (n e : Nat) (f : Engine → Engine) : (s.modEngine n e f).boot = s.boot := (rfl)
@[simp] theorem State.modEngine_attempt (n e : Nat) (f : Engine → Engine) : (s.modEngine n e f).attempt = s.attempt := (rfl)
@[simp] theorem State.modEngine_strap (n e : Nat) (f : Engine → Engine) : (s.modEngine n e f).strap = s.strap := (rfl)
@[simp] theorem State.modEngine_bridgeDone (n e : Nat) (f : Engine → Engine) : (s.modEngine n e f).bridgeDone = s.bridgeDone := (rfl)
@[simp] theorem State.modEngine_arbFails (n e : Nat) (f : Engine → Engine) : (s.modEngine n e f).arbFails = s.arbFails := (rfl)
@[simp] theorem State.modEngine_alert (n e : Nat) (f : Engine → Engine) : (s.modEngine n e f).alert = s.alert := (rfl)
@[simp] theorem State.modEngine_img (n e : Nat) (f : Engine → Engine) : (s.modEngine n e f).img = s.img := (rfl)
@[simp] theorem State.modEngine_imgSlot (n e : Nat) (f : Engine → Engine) : (s.modEngine n e f).imgSlot = s.imgSlot := (rfl)
@[simp] theorem State.modEngine_imgNext (n e : Nat) (f : Engine → Engine) : (s.modEngine n e f).imgNext = s.imgNext := (rfl)
@[simp] theorem State.modEngine_held (n e : Nat) (f : Engine → Engine) : (s.modEngine n e f).held = s.held := (rfl)
@[simp] theorem State.modEngine_flashOp (n e : Nat) (f : Engine → Engine) : (s.modEngine n e f).flashOp = s.flashOp := (rfl)
@[simp] theorem State.modEngine_flashQ (n e : Nat) (f : Engine → Engine) : (s.modEngine n e f).flashQ = s.flashQ := (rfl)
@[simp] theorem State.modEngine_dogAt (n e : Nat) (f : Engine → Engine) : (s.modEngine n e f).dogAt = s.dogAt := (rfl)
@[simp] theorem State.modEngine_tsync (n e : Nat) (f : Engine → Engine) : (s.modEngine n e f).tsync = s.tsync := (rfl)
@[simp] theorem State.modEngine_pow (n e : Nat) (f : Engine → Engine) : (s.modEngine n e f).pow = s.pow := (rfl)
@[simp] theorem State.modEngine_hoursBurnt (n e : Nat) (f : Engine → Engine) : (s.modEngine n e f).hoursBurnt = s.hoursBurnt := (rfl)
@[simp] theorem State.modEngine_halt (n e : Nat) (f : Engine → Engine) : (s.modEngine n e f).halt = s.halt := (rfl)
@[simp] theorem State.modEngine_flash (n e : Nat) (f : Engine → Engine) : (s.modEngine n e f).flash = s.flash := (rfl)
@[simp] theorem State.modEngine_stk (n e : Nat) (f : Engine → Engine) : (s.modEngine n e f).stk = s.stk := (rfl)
@[simp] theorem State.modEngine_stkMark (n e : Nat) (f : Engine → Engine) : (s.modEngine n e f).stkMark = s.stkMark := (rfl)
@[simp] theorem State.modEngine_stx (n e : Nat) (f : Engine → Engine) : (s.modEngine n e f).stx = s.stx := (rfl)
@[simp] theorem State.modEngine_tap (n e : Nat) (f : Engine → Engine) : (s.modEngine n e f).tap = s.tap := (rfl)
@[simp] theorem State.modEngine_ports (n e : Nat) (f : Engine → Engine) : (s.modEngine n e f).ports = s.ports := (rfl)
@[simp] theorem State.modEngine_reads (n e : Nat) (f : Engine → Engine) : (s.modEngine n e f).reads = s.reads := (rfl)
@[simp] theorem State.modEngine_writes (n e : Nat) (f : Engine → Engine) : (s.modEngine n e f).writes = s.writes := (rfl)
@[simp] theorem State.modEngine_tagGen (n e : Nat) (f : Engine → Engine) : (s.modEngine n e f).tagGen = s.tagGen := (rfl)
@[simp] theorem State.modEngine_quar (n e : Nat) (f : Engine → Engine) : (s.modEngine n e f).quar = s.quar := (rfl)
@[simp] theorem State.modEngine_routeWait (n e : Nat) (f : Engine → Engine) : (s.modEngine n e f).routeWait = s.routeWait := (rfl)
@[simp] theorem State.modEngine_reports (n e : Nat) (f : Engine → Engine) : (s.modEngine n e f).reports = s.reports := (rfl)
@[simp] theorem State.modEngine_hintHold (n e : Nat) (f : Engine → Engine) : (s.modEngine n e f).hintHold = s.hintHold := (rfl)
@[simp] theorem State.modEngine_groups (n e : Nat) (f : Engine → Engine) : (s.modEngine n e f).groups = s.groups := (rfl)
@[simp] theorem State.modEngine_colls (n e : Nat) (f : Engine → Engine) : (s.modEngine n e f).colls = s.colls := (rfl)
@[simp] theorem State.modEngine_collHeld (n e : Nat) (f : Engine → Engine) : (s.modEngine n e f).collHeld = s.collHeld := (rfl)
@[simp] theorem State.modEngine_collRecs (n e : Nat) (f : Engine → Engine) : (s.modEngine n e f).collRecs = s.collRecs := (rfl)
@[simp] theorem State.modEngine_collDead (n e : Nat) (f : Engine → Engine) : (s.modEngine n e f).collDead = s.collDead := (rfl)
@[simp] theorem State.modEngine_collWait (n e : Nat) (f : Engine → Engine) : (s.modEngine n e f).collWait = s.collWait := (rfl)
@[simp] theorem State.modEngine_streams (n e : Nat) (f : Engine → Engine) : (s.modEngine n e f).streams = s.streams := (rfl)
@[simp] theorem State.modEngine_mesh (n e : Nat) (f : Engine → Engine) : (s.modEngine n e f).mesh = s.mesh := (rfl)
@[simp] theorem State.modEngine_detHold (n e : Nat) (f : Engine → Engine) : (s.modEngine n e f).detHold = s.detHold := (rfl)
@[simp] theorem State.modEngine_ledPend (n e : Nat) (f : Engine → Engine) : (s.modEngine n e f).ledPend = s.ledPend := (rfl)
@[simp] theorem State.modEngine_ledGap (n e : Nat) (f : Engine → Engine) : (s.modEngine n e f).ledGap = s.ledGap := (rfl)
@[simp] theorem State.modEngine_ledRd (n e : Nat) (f : Engine → Engine) : (s.modEngine n e f).ledRd = s.ledRd := (rfl)
@[simp] theorem State.modEngine_ledIn (n e : Nat) (f : Engine → Engine) : (s.modEngine n e f).ledIn = s.ledIn := (rfl)
@[simp] theorem State.modEngine_ledWant (n e : Nat) (f : Engine → Engine) : (s.modEngine n e f).ledWant = s.ledWant := (rfl)
@[simp] theorem State.modEngine_decision (n e : Nat) (f : Engine → Engine) : (s.modEngine n e f).decision = s.decision := (rfl)
@[simp] theorem State.modEngine_stageWait (n e : Nat) (f : Engine → Engine) : (s.modEngine n e f).stageWait = s.stageWait := (rfl)
@[simp] theorem State.modEngine_keys (n e : Nat) (f : Engine → Engine) : (s.modEngine n e f).keys = s.keys := (rfl)
@[simp] theorem State.modEngine_keyLoad (n e : Nat) (f : Engine → Engine) : (s.modEngine n e f).keyLoad = s.keyLoad := (rfl)
@[simp] theorem State.modEngine_far (n e : Nat) (f : Engine → Engine) : (s.modEngine n e f).far = s.far := (rfl)
@[simp] theorem State.modEngine_ctxs (n e : Nat) (f : Engine → Engine) : (s.modEngine n e f).ctxs = s.ctxs := (rfl)
@[simp] theorem State.modEngine_switches (n e : Nat) (f : Engine → Engine) : (s.modEngine n e f).switches = s.switches := (rfl)
@[simp] theorem State.modEngine_occup (n e : Nat) (f : Engine → Engine) : (s.modEngine n e f).occup = s.occup := (rfl)
@[simp] theorem State.modEngine_dmas (n e : Nat) (f : Engine → Engine) : (s.modEngine n e f).dmas = s.dmas := (rfl)
@[simp] theorem State.modEngine_sent (n e : Nat) (f : Engine → Engine) : (s.modEngine n e f).sent = s.sent := (rfl)

/-! ## State.modPort -/

@[simp] theorem State.modPort_pending (p : Nat) (f : Port → Port) : (s.modPort p f).pending = s.pending := (rfl)
@[simp] theorem State.modPort_fresh (p : Nat) (f : Port → Port) : (s.modPort p f).fresh = s.fresh := (rfl)
@[simp] theorem State.modPort_clk (p : Nat) (f : Port → Port) : (s.modPort p f).clk = s.clk := (rfl)
@[simp] theorem State.modPort_nextId (p : Nat) (f : Port → Port) : (s.modPort p f).nextId = s.nextId := (rfl)
@[simp] theorem State.modPort_regs (p : Nat) (f : Port → Port) : (s.modPort p f).regs = s.regs := (rfl)
@[simp] theorem State.modPort_tiles (p : Nat) (f : Port → Port) : (s.modPort p f).tiles = s.tiles := (rfl)
@[simp] theorem State.modPort_h0 (p : Nat) (f : Port → Port) : (s.modPort p f).h0 = s.h0 := (rfl)
@[simp] theorem State.modPort_h1 (p : Nat) (f : Port → Port) : (s.modPort p f).h1 = s.h1 := (rfl)
@[simp] theorem State.modPort_mgmt (p : Nat) (f : Port → Port) : (s.modPort p f).mgmt = s.mgmt := (rfl)
@[simp] theorem State.modPort_boot (p : Nat) (f : Port → Port) : (s.modPort p f).boot = s.boot := (rfl)
@[simp] theorem State.modPort_attempt (p : Nat) (f : Port → Port) : (s.modPort p f).attempt = s.attempt := (rfl)
@[simp] theorem State.modPort_strap (p : Nat) (f : Port → Port) : (s.modPort p f).strap = s.strap := (rfl)
@[simp] theorem State.modPort_bridgeDone (p : Nat) (f : Port → Port) : (s.modPort p f).bridgeDone = s.bridgeDone := (rfl)
@[simp] theorem State.modPort_arbFails (p : Nat) (f : Port → Port) : (s.modPort p f).arbFails = s.arbFails := (rfl)
@[simp] theorem State.modPort_alert (p : Nat) (f : Port → Port) : (s.modPort p f).alert = s.alert := (rfl)
@[simp] theorem State.modPort_img (p : Nat) (f : Port → Port) : (s.modPort p f).img = s.img := (rfl)
@[simp] theorem State.modPort_imgSlot (p : Nat) (f : Port → Port) : (s.modPort p f).imgSlot = s.imgSlot := (rfl)
@[simp] theorem State.modPort_imgNext (p : Nat) (f : Port → Port) : (s.modPort p f).imgNext = s.imgNext := (rfl)
@[simp] theorem State.modPort_held (p : Nat) (f : Port → Port) : (s.modPort p f).held = s.held := (rfl)
@[simp] theorem State.modPort_flashOp (p : Nat) (f : Port → Port) : (s.modPort p f).flashOp = s.flashOp := (rfl)
@[simp] theorem State.modPort_flashQ (p : Nat) (f : Port → Port) : (s.modPort p f).flashQ = s.flashQ := (rfl)
@[simp] theorem State.modPort_dogAt (p : Nat) (f : Port → Port) : (s.modPort p f).dogAt = s.dogAt := (rfl)
@[simp] theorem State.modPort_tsync (p : Nat) (f : Port → Port) : (s.modPort p f).tsync = s.tsync := (rfl)
@[simp] theorem State.modPort_pow (p : Nat) (f : Port → Port) : (s.modPort p f).pow = s.pow := (rfl)
@[simp] theorem State.modPort_hoursBurnt (p : Nat) (f : Port → Port) : (s.modPort p f).hoursBurnt = s.hoursBurnt := (rfl)
@[simp] theorem State.modPort_halt (p : Nat) (f : Port → Port) : (s.modPort p f).halt = s.halt := (rfl)
@[simp] theorem State.modPort_flash (p : Nat) (f : Port → Port) : (s.modPort p f).flash = s.flash := (rfl)
@[simp] theorem State.modPort_stk (p : Nat) (f : Port → Port) : (s.modPort p f).stk = s.stk := (rfl)
@[simp] theorem State.modPort_stkMark (p : Nat) (f : Port → Port) : (s.modPort p f).stkMark = s.stkMark := (rfl)
@[simp] theorem State.modPort_stx (p : Nat) (f : Port → Port) : (s.modPort p f).stx = s.stx := (rfl)
@[simp] theorem State.modPort_tap (p : Nat) (f : Port → Port) : (s.modPort p f).tap = s.tap := (rfl)
@[simp] theorem State.modPort_engines (p : Nat) (f : Port → Port) : (s.modPort p f).engines = s.engines := (rfl)
@[simp] theorem State.modPort_reads (p : Nat) (f : Port → Port) : (s.modPort p f).reads = s.reads := (rfl)
@[simp] theorem State.modPort_writes (p : Nat) (f : Port → Port) : (s.modPort p f).writes = s.writes := (rfl)
@[simp] theorem State.modPort_tagGen (p : Nat) (f : Port → Port) : (s.modPort p f).tagGen = s.tagGen := (rfl)
@[simp] theorem State.modPort_quar (p : Nat) (f : Port → Port) : (s.modPort p f).quar = s.quar := (rfl)
@[simp] theorem State.modPort_routeWait (p : Nat) (f : Port → Port) : (s.modPort p f).routeWait = s.routeWait := (rfl)
@[simp] theorem State.modPort_reports (p : Nat) (f : Port → Port) : (s.modPort p f).reports = s.reports := (rfl)
@[simp] theorem State.modPort_hintHold (p : Nat) (f : Port → Port) : (s.modPort p f).hintHold = s.hintHold := (rfl)
@[simp] theorem State.modPort_groups (p : Nat) (f : Port → Port) : (s.modPort p f).groups = s.groups := (rfl)
@[simp] theorem State.modPort_colls (p : Nat) (f : Port → Port) : (s.modPort p f).colls = s.colls := (rfl)
@[simp] theorem State.modPort_collHeld (p : Nat) (f : Port → Port) : (s.modPort p f).collHeld = s.collHeld := (rfl)
@[simp] theorem State.modPort_collRecs (p : Nat) (f : Port → Port) : (s.modPort p f).collRecs = s.collRecs := (rfl)
@[simp] theorem State.modPort_collDead (p : Nat) (f : Port → Port) : (s.modPort p f).collDead = s.collDead := (rfl)
@[simp] theorem State.modPort_collWait (p : Nat) (f : Port → Port) : (s.modPort p f).collWait = s.collWait := (rfl)
@[simp] theorem State.modPort_streams (p : Nat) (f : Port → Port) : (s.modPort p f).streams = s.streams := (rfl)
@[simp] theorem State.modPort_mesh (p : Nat) (f : Port → Port) : (s.modPort p f).mesh = s.mesh := (rfl)
@[simp] theorem State.modPort_detHold (p : Nat) (f : Port → Port) : (s.modPort p f).detHold = s.detHold := (rfl)
@[simp] theorem State.modPort_ledPend (p : Nat) (f : Port → Port) : (s.modPort p f).ledPend = s.ledPend := (rfl)
@[simp] theorem State.modPort_ledGap (p : Nat) (f : Port → Port) : (s.modPort p f).ledGap = s.ledGap := (rfl)
@[simp] theorem State.modPort_ledRd (p : Nat) (f : Port → Port) : (s.modPort p f).ledRd = s.ledRd := (rfl)
@[simp] theorem State.modPort_ledIn (p : Nat) (f : Port → Port) : (s.modPort p f).ledIn = s.ledIn := (rfl)
@[simp] theorem State.modPort_ledWant (p : Nat) (f : Port → Port) : (s.modPort p f).ledWant = s.ledWant := (rfl)
@[simp] theorem State.modPort_decision (p : Nat) (f : Port → Port) : (s.modPort p f).decision = s.decision := (rfl)
@[simp] theorem State.modPort_stageWait (p : Nat) (f : Port → Port) : (s.modPort p f).stageWait = s.stageWait := (rfl)
@[simp] theorem State.modPort_keys (p : Nat) (f : Port → Port) : (s.modPort p f).keys = s.keys := (rfl)
@[simp] theorem State.modPort_keyLoad (p : Nat) (f : Port → Port) : (s.modPort p f).keyLoad = s.keyLoad := (rfl)
@[simp] theorem State.modPort_far (p : Nat) (f : Port → Port) : (s.modPort p f).far = s.far := (rfl)
@[simp] theorem State.modPort_ctxs (p : Nat) (f : Port → Port) : (s.modPort p f).ctxs = s.ctxs := (rfl)
@[simp] theorem State.modPort_switches (p : Nat) (f : Port → Port) : (s.modPort p f).switches = s.switches := (rfl)
@[simp] theorem State.modPort_occup (p : Nat) (f : Port → Port) : (s.modPort p f).occup = s.occup := (rfl)
@[simp] theorem State.modPort_dmas (p : Nat) (f : Port → Port) : (s.modPort p f).dmas = s.dmas := (rfl)
@[simp] theorem State.modPort_sent (p : Nat) (f : Port → Port) : (s.modPort p f).sent = s.sent := (rfl)

/-! ## State.modStream -/

@[simp] theorem State.modStream_pending (q : Nat) (f : Stream → Stream) : (s.modStream q f).pending = s.pending := (rfl)
@[simp] theorem State.modStream_fresh (q : Nat) (f : Stream → Stream) : (s.modStream q f).fresh = s.fresh := (rfl)
@[simp] theorem State.modStream_clk (q : Nat) (f : Stream → Stream) : (s.modStream q f).clk = s.clk := (rfl)
@[simp] theorem State.modStream_nextId (q : Nat) (f : Stream → Stream) : (s.modStream q f).nextId = s.nextId := (rfl)
@[simp] theorem State.modStream_regs (q : Nat) (f : Stream → Stream) : (s.modStream q f).regs = s.regs := (rfl)
@[simp] theorem State.modStream_tiles (q : Nat) (f : Stream → Stream) : (s.modStream q f).tiles = s.tiles := (rfl)
@[simp] theorem State.modStream_h0 (q : Nat) (f : Stream → Stream) : (s.modStream q f).h0 = s.h0 := (rfl)
@[simp] theorem State.modStream_h1 (q : Nat) (f : Stream → Stream) : (s.modStream q f).h1 = s.h1 := (rfl)
@[simp] theorem State.modStream_mgmt (q : Nat) (f : Stream → Stream) : (s.modStream q f).mgmt = s.mgmt := (rfl)
@[simp] theorem State.modStream_boot (q : Nat) (f : Stream → Stream) : (s.modStream q f).boot = s.boot := (rfl)
@[simp] theorem State.modStream_attempt (q : Nat) (f : Stream → Stream) : (s.modStream q f).attempt = s.attempt := (rfl)
@[simp] theorem State.modStream_strap (q : Nat) (f : Stream → Stream) : (s.modStream q f).strap = s.strap := (rfl)
@[simp] theorem State.modStream_bridgeDone (q : Nat) (f : Stream → Stream) : (s.modStream q f).bridgeDone = s.bridgeDone := (rfl)
@[simp] theorem State.modStream_arbFails (q : Nat) (f : Stream → Stream) : (s.modStream q f).arbFails = s.arbFails := (rfl)
@[simp] theorem State.modStream_alert (q : Nat) (f : Stream → Stream) : (s.modStream q f).alert = s.alert := (rfl)
@[simp] theorem State.modStream_img (q : Nat) (f : Stream → Stream) : (s.modStream q f).img = s.img := (rfl)
@[simp] theorem State.modStream_imgSlot (q : Nat) (f : Stream → Stream) : (s.modStream q f).imgSlot = s.imgSlot := (rfl)
@[simp] theorem State.modStream_imgNext (q : Nat) (f : Stream → Stream) : (s.modStream q f).imgNext = s.imgNext := (rfl)
@[simp] theorem State.modStream_held (q : Nat) (f : Stream → Stream) : (s.modStream q f).held = s.held := (rfl)
@[simp] theorem State.modStream_flashOp (q : Nat) (f : Stream → Stream) : (s.modStream q f).flashOp = s.flashOp := (rfl)
@[simp] theorem State.modStream_flashQ (q : Nat) (f : Stream → Stream) : (s.modStream q f).flashQ = s.flashQ := (rfl)
@[simp] theorem State.modStream_dogAt (q : Nat) (f : Stream → Stream) : (s.modStream q f).dogAt = s.dogAt := (rfl)
@[simp] theorem State.modStream_tsync (q : Nat) (f : Stream → Stream) : (s.modStream q f).tsync = s.tsync := (rfl)
@[simp] theorem State.modStream_pow (q : Nat) (f : Stream → Stream) : (s.modStream q f).pow = s.pow := (rfl)
@[simp] theorem State.modStream_hoursBurnt (q : Nat) (f : Stream → Stream) : (s.modStream q f).hoursBurnt = s.hoursBurnt := (rfl)
@[simp] theorem State.modStream_halt (q : Nat) (f : Stream → Stream) : (s.modStream q f).halt = s.halt := (rfl)
@[simp] theorem State.modStream_flash (q : Nat) (f : Stream → Stream) : (s.modStream q f).flash = s.flash := (rfl)
@[simp] theorem State.modStream_stk (q : Nat) (f : Stream → Stream) : (s.modStream q f).stk = s.stk := (rfl)
@[simp] theorem State.modStream_stkMark (q : Nat) (f : Stream → Stream) : (s.modStream q f).stkMark = s.stkMark := (rfl)
@[simp] theorem State.modStream_stx (q : Nat) (f : Stream → Stream) : (s.modStream q f).stx = s.stx := (rfl)
@[simp] theorem State.modStream_tap (q : Nat) (f : Stream → Stream) : (s.modStream q f).tap = s.tap := (rfl)
@[simp] theorem State.modStream_engines (q : Nat) (f : Stream → Stream) : (s.modStream q f).engines = s.engines := (rfl)
@[simp] theorem State.modStream_ports (q : Nat) (f : Stream → Stream) : (s.modStream q f).ports = s.ports := (rfl)
@[simp] theorem State.modStream_reads (q : Nat) (f : Stream → Stream) : (s.modStream q f).reads = s.reads := (rfl)
@[simp] theorem State.modStream_writes (q : Nat) (f : Stream → Stream) : (s.modStream q f).writes = s.writes := (rfl)
@[simp] theorem State.modStream_tagGen (q : Nat) (f : Stream → Stream) : (s.modStream q f).tagGen = s.tagGen := (rfl)
@[simp] theorem State.modStream_quar (q : Nat) (f : Stream → Stream) : (s.modStream q f).quar = s.quar := (rfl)
@[simp] theorem State.modStream_routeWait (q : Nat) (f : Stream → Stream) : (s.modStream q f).routeWait = s.routeWait := (rfl)
@[simp] theorem State.modStream_reports (q : Nat) (f : Stream → Stream) : (s.modStream q f).reports = s.reports := (rfl)
@[simp] theorem State.modStream_hintHold (q : Nat) (f : Stream → Stream) : (s.modStream q f).hintHold = s.hintHold := (rfl)
@[simp] theorem State.modStream_groups (q : Nat) (f : Stream → Stream) : (s.modStream q f).groups = s.groups := (rfl)
@[simp] theorem State.modStream_colls (q : Nat) (f : Stream → Stream) : (s.modStream q f).colls = s.colls := (rfl)
@[simp] theorem State.modStream_collHeld (q : Nat) (f : Stream → Stream) : (s.modStream q f).collHeld = s.collHeld := (rfl)
@[simp] theorem State.modStream_collRecs (q : Nat) (f : Stream → Stream) : (s.modStream q f).collRecs = s.collRecs := (rfl)
@[simp] theorem State.modStream_collDead (q : Nat) (f : Stream → Stream) : (s.modStream q f).collDead = s.collDead := (rfl)
@[simp] theorem State.modStream_collWait (q : Nat) (f : Stream → Stream) : (s.modStream q f).collWait = s.collWait := (rfl)
@[simp] theorem State.modStream_mesh (q : Nat) (f : Stream → Stream) : (s.modStream q f).mesh = s.mesh := (rfl)
@[simp] theorem State.modStream_detHold (q : Nat) (f : Stream → Stream) : (s.modStream q f).detHold = s.detHold := (rfl)
@[simp] theorem State.modStream_ledPend (q : Nat) (f : Stream → Stream) : (s.modStream q f).ledPend = s.ledPend := (rfl)
@[simp] theorem State.modStream_ledGap (q : Nat) (f : Stream → Stream) : (s.modStream q f).ledGap = s.ledGap := (rfl)
@[simp] theorem State.modStream_ledRd (q : Nat) (f : Stream → Stream) : (s.modStream q f).ledRd = s.ledRd := (rfl)
@[simp] theorem State.modStream_ledIn (q : Nat) (f : Stream → Stream) : (s.modStream q f).ledIn = s.ledIn := (rfl)
@[simp] theorem State.modStream_ledWant (q : Nat) (f : Stream → Stream) : (s.modStream q f).ledWant = s.ledWant := (rfl)
@[simp] theorem State.modStream_decision (q : Nat) (f : Stream → Stream) : (s.modStream q f).decision = s.decision := (rfl)
@[simp] theorem State.modStream_stageWait (q : Nat) (f : Stream → Stream) : (s.modStream q f).stageWait = s.stageWait := (rfl)
@[simp] theorem State.modStream_keys (q : Nat) (f : Stream → Stream) : (s.modStream q f).keys = s.keys := (rfl)
@[simp] theorem State.modStream_keyLoad (q : Nat) (f : Stream → Stream) : (s.modStream q f).keyLoad = s.keyLoad := (rfl)
@[simp] theorem State.modStream_far (q : Nat) (f : Stream → Stream) : (s.modStream q f).far = s.far := (rfl)
@[simp] theorem State.modStream_ctxs (q : Nat) (f : Stream → Stream) : (s.modStream q f).ctxs = s.ctxs := (rfl)
@[simp] theorem State.modStream_switches (q : Nat) (f : Stream → Stream) : (s.modStream q f).switches = s.switches := (rfl)
@[simp] theorem State.modStream_occup (q : Nat) (f : Stream → Stream) : (s.modStream q f).occup = s.occup := (rfl)
@[simp] theorem State.modStream_dmas (q : Nat) (f : Stream → Stream) : (s.modStream q f).dmas = s.dmas := (rfl)
@[simp] theorem State.modStream_sent (q : Nat) (f : Stream → Stream) : (s.modStream q f).sent = s.sent := (rfl)

/-! ## State.modCtx -/

@[simp] theorem State.modCtx_pending (c : Nat) (f : Ctx → Ctx) : (s.modCtx c f).pending = s.pending := (rfl)
@[simp] theorem State.modCtx_fresh (c : Nat) (f : Ctx → Ctx) : (s.modCtx c f).fresh = s.fresh := (rfl)
@[simp] theorem State.modCtx_clk (c : Nat) (f : Ctx → Ctx) : (s.modCtx c f).clk = s.clk := (rfl)
@[simp] theorem State.modCtx_nextId (c : Nat) (f : Ctx → Ctx) : (s.modCtx c f).nextId = s.nextId := (rfl)
@[simp] theorem State.modCtx_regs (c : Nat) (f : Ctx → Ctx) : (s.modCtx c f).regs = s.regs := (rfl)
@[simp] theorem State.modCtx_tiles (c : Nat) (f : Ctx → Ctx) : (s.modCtx c f).tiles = s.tiles := (rfl)
@[simp] theorem State.modCtx_h0 (c : Nat) (f : Ctx → Ctx) : (s.modCtx c f).h0 = s.h0 := (rfl)
@[simp] theorem State.modCtx_h1 (c : Nat) (f : Ctx → Ctx) : (s.modCtx c f).h1 = s.h1 := (rfl)
@[simp] theorem State.modCtx_mgmt (c : Nat) (f : Ctx → Ctx) : (s.modCtx c f).mgmt = s.mgmt := (rfl)
@[simp] theorem State.modCtx_boot (c : Nat) (f : Ctx → Ctx) : (s.modCtx c f).boot = s.boot := (rfl)
@[simp] theorem State.modCtx_attempt (c : Nat) (f : Ctx → Ctx) : (s.modCtx c f).attempt = s.attempt := (rfl)
@[simp] theorem State.modCtx_strap (c : Nat) (f : Ctx → Ctx) : (s.modCtx c f).strap = s.strap := (rfl)
@[simp] theorem State.modCtx_bridgeDone (c : Nat) (f : Ctx → Ctx) : (s.modCtx c f).bridgeDone = s.bridgeDone := (rfl)
@[simp] theorem State.modCtx_arbFails (c : Nat) (f : Ctx → Ctx) : (s.modCtx c f).arbFails = s.arbFails := (rfl)
@[simp] theorem State.modCtx_alert (c : Nat) (f : Ctx → Ctx) : (s.modCtx c f).alert = s.alert := (rfl)
@[simp] theorem State.modCtx_img (c : Nat) (f : Ctx → Ctx) : (s.modCtx c f).img = s.img := (rfl)
@[simp] theorem State.modCtx_imgSlot (c : Nat) (f : Ctx → Ctx) : (s.modCtx c f).imgSlot = s.imgSlot := (rfl)
@[simp] theorem State.modCtx_imgNext (c : Nat) (f : Ctx → Ctx) : (s.modCtx c f).imgNext = s.imgNext := (rfl)
@[simp] theorem State.modCtx_held (c : Nat) (f : Ctx → Ctx) : (s.modCtx c f).held = s.held := (rfl)
@[simp] theorem State.modCtx_flashOp (c : Nat) (f : Ctx → Ctx) : (s.modCtx c f).flashOp = s.flashOp := (rfl)
@[simp] theorem State.modCtx_flashQ (c : Nat) (f : Ctx → Ctx) : (s.modCtx c f).flashQ = s.flashQ := (rfl)
@[simp] theorem State.modCtx_dogAt (c : Nat) (f : Ctx → Ctx) : (s.modCtx c f).dogAt = s.dogAt := (rfl)
@[simp] theorem State.modCtx_tsync (c : Nat) (f : Ctx → Ctx) : (s.modCtx c f).tsync = s.tsync := (rfl)
@[simp] theorem State.modCtx_pow (c : Nat) (f : Ctx → Ctx) : (s.modCtx c f).pow = s.pow := (rfl)
@[simp] theorem State.modCtx_hoursBurnt (c : Nat) (f : Ctx → Ctx) : (s.modCtx c f).hoursBurnt = s.hoursBurnt := (rfl)
@[simp] theorem State.modCtx_halt (c : Nat) (f : Ctx → Ctx) : (s.modCtx c f).halt = s.halt := (rfl)
@[simp] theorem State.modCtx_flash (c : Nat) (f : Ctx → Ctx) : (s.modCtx c f).flash = s.flash := (rfl)
@[simp] theorem State.modCtx_stk (c : Nat) (f : Ctx → Ctx) : (s.modCtx c f).stk = s.stk := (rfl)
@[simp] theorem State.modCtx_stkMark (c : Nat) (f : Ctx → Ctx) : (s.modCtx c f).stkMark = s.stkMark := (rfl)
@[simp] theorem State.modCtx_stx (c : Nat) (f : Ctx → Ctx) : (s.modCtx c f).stx = s.stx := (rfl)
@[simp] theorem State.modCtx_tap (c : Nat) (f : Ctx → Ctx) : (s.modCtx c f).tap = s.tap := (rfl)
@[simp] theorem State.modCtx_engines (c : Nat) (f : Ctx → Ctx) : (s.modCtx c f).engines = s.engines := (rfl)
@[simp] theorem State.modCtx_ports (c : Nat) (f : Ctx → Ctx) : (s.modCtx c f).ports = s.ports := (rfl)
@[simp] theorem State.modCtx_reads (c : Nat) (f : Ctx → Ctx) : (s.modCtx c f).reads = s.reads := (rfl)
@[simp] theorem State.modCtx_writes (c : Nat) (f : Ctx → Ctx) : (s.modCtx c f).writes = s.writes := (rfl)
@[simp] theorem State.modCtx_tagGen (c : Nat) (f : Ctx → Ctx) : (s.modCtx c f).tagGen = s.tagGen := (rfl)
@[simp] theorem State.modCtx_quar (c : Nat) (f : Ctx → Ctx) : (s.modCtx c f).quar = s.quar := (rfl)
@[simp] theorem State.modCtx_routeWait (c : Nat) (f : Ctx → Ctx) : (s.modCtx c f).routeWait = s.routeWait := (rfl)
@[simp] theorem State.modCtx_reports (c : Nat) (f : Ctx → Ctx) : (s.modCtx c f).reports = s.reports := (rfl)
@[simp] theorem State.modCtx_hintHold (c : Nat) (f : Ctx → Ctx) : (s.modCtx c f).hintHold = s.hintHold := (rfl)
@[simp] theorem State.modCtx_groups (c : Nat) (f : Ctx → Ctx) : (s.modCtx c f).groups = s.groups := (rfl)
@[simp] theorem State.modCtx_colls (c : Nat) (f : Ctx → Ctx) : (s.modCtx c f).colls = s.colls := (rfl)
@[simp] theorem State.modCtx_collHeld (c : Nat) (f : Ctx → Ctx) : (s.modCtx c f).collHeld = s.collHeld := (rfl)
@[simp] theorem State.modCtx_collRecs (c : Nat) (f : Ctx → Ctx) : (s.modCtx c f).collRecs = s.collRecs := (rfl)
@[simp] theorem State.modCtx_collDead (c : Nat) (f : Ctx → Ctx) : (s.modCtx c f).collDead = s.collDead := (rfl)
@[simp] theorem State.modCtx_collWait (c : Nat) (f : Ctx → Ctx) : (s.modCtx c f).collWait = s.collWait := (rfl)
@[simp] theorem State.modCtx_streams (c : Nat) (f : Ctx → Ctx) : (s.modCtx c f).streams = s.streams := (rfl)
@[simp] theorem State.modCtx_mesh (c : Nat) (f : Ctx → Ctx) : (s.modCtx c f).mesh = s.mesh := (rfl)
@[simp] theorem State.modCtx_detHold (c : Nat) (f : Ctx → Ctx) : (s.modCtx c f).detHold = s.detHold := (rfl)
@[simp] theorem State.modCtx_ledPend (c : Nat) (f : Ctx → Ctx) : (s.modCtx c f).ledPend = s.ledPend := (rfl)
@[simp] theorem State.modCtx_ledGap (c : Nat) (f : Ctx → Ctx) : (s.modCtx c f).ledGap = s.ledGap := (rfl)
@[simp] theorem State.modCtx_ledRd (c : Nat) (f : Ctx → Ctx) : (s.modCtx c f).ledRd = s.ledRd := (rfl)
@[simp] theorem State.modCtx_ledIn (c : Nat) (f : Ctx → Ctx) : (s.modCtx c f).ledIn = s.ledIn := (rfl)
@[simp] theorem State.modCtx_ledWant (c : Nat) (f : Ctx → Ctx) : (s.modCtx c f).ledWant = s.ledWant := (rfl)
@[simp] theorem State.modCtx_decision (c : Nat) (f : Ctx → Ctx) : (s.modCtx c f).decision = s.decision := (rfl)
@[simp] theorem State.modCtx_stageWait (c : Nat) (f : Ctx → Ctx) : (s.modCtx c f).stageWait = s.stageWait := (rfl)
@[simp] theorem State.modCtx_keys (c : Nat) (f : Ctx → Ctx) : (s.modCtx c f).keys = s.keys := (rfl)
@[simp] theorem State.modCtx_keyLoad (c : Nat) (f : Ctx → Ctx) : (s.modCtx c f).keyLoad = s.keyLoad := (rfl)
@[simp] theorem State.modCtx_far (c : Nat) (f : Ctx → Ctx) : (s.modCtx c f).far = s.far := (rfl)
@[simp] theorem State.modCtx_switches (c : Nat) (f : Ctx → Ctx) : (s.modCtx c f).switches = s.switches := (rfl)
@[simp] theorem State.modCtx_occup (c : Nat) (f : Ctx → Ctx) : (s.modCtx c f).occup = s.occup := (rfl)
@[simp] theorem State.modCtx_dmas (c : Nat) (f : Ctx → Ctx) : (s.modCtx c f).dmas = s.dmas := (rfl)
@[simp] theorem State.modCtx_sent (c : Nat) (f : Ctx → Ctx) : (s.modCtx c f).sent = s.sent := (rfl)

/-! ## State.modGrp -/

@[simp] theorem State.modGrp_pending (g : Nat) (f : SigGrp → SigGrp) : (s.modGrp g f).pending = s.pending := (rfl)
@[simp] theorem State.modGrp_fresh (g : Nat) (f : SigGrp → SigGrp) : (s.modGrp g f).fresh = s.fresh := (rfl)
@[simp] theorem State.modGrp_clk (g : Nat) (f : SigGrp → SigGrp) : (s.modGrp g f).clk = s.clk := (rfl)
@[simp] theorem State.modGrp_nextId (g : Nat) (f : SigGrp → SigGrp) : (s.modGrp g f).nextId = s.nextId := (rfl)
@[simp] theorem State.modGrp_regs (g : Nat) (f : SigGrp → SigGrp) : (s.modGrp g f).regs = s.regs := (rfl)
@[simp] theorem State.modGrp_tiles (g : Nat) (f : SigGrp → SigGrp) : (s.modGrp g f).tiles = s.tiles := (rfl)
@[simp] theorem State.modGrp_h0 (g : Nat) (f : SigGrp → SigGrp) : (s.modGrp g f).h0 = s.h0 := (rfl)
@[simp] theorem State.modGrp_h1 (g : Nat) (f : SigGrp → SigGrp) : (s.modGrp g f).h1 = s.h1 := (rfl)
@[simp] theorem State.modGrp_mgmt (g : Nat) (f : SigGrp → SigGrp) : (s.modGrp g f).mgmt = s.mgmt := (rfl)
@[simp] theorem State.modGrp_boot (g : Nat) (f : SigGrp → SigGrp) : (s.modGrp g f).boot = s.boot := (rfl)
@[simp] theorem State.modGrp_attempt (g : Nat) (f : SigGrp → SigGrp) : (s.modGrp g f).attempt = s.attempt := (rfl)
@[simp] theorem State.modGrp_strap (g : Nat) (f : SigGrp → SigGrp) : (s.modGrp g f).strap = s.strap := (rfl)
@[simp] theorem State.modGrp_bridgeDone (g : Nat) (f : SigGrp → SigGrp) : (s.modGrp g f).bridgeDone = s.bridgeDone := (rfl)
@[simp] theorem State.modGrp_arbFails (g : Nat) (f : SigGrp → SigGrp) : (s.modGrp g f).arbFails = s.arbFails := (rfl)
@[simp] theorem State.modGrp_alert (g : Nat) (f : SigGrp → SigGrp) : (s.modGrp g f).alert = s.alert := (rfl)
@[simp] theorem State.modGrp_img (g : Nat) (f : SigGrp → SigGrp) : (s.modGrp g f).img = s.img := (rfl)
@[simp] theorem State.modGrp_imgSlot (g : Nat) (f : SigGrp → SigGrp) : (s.modGrp g f).imgSlot = s.imgSlot := (rfl)
@[simp] theorem State.modGrp_imgNext (g : Nat) (f : SigGrp → SigGrp) : (s.modGrp g f).imgNext = s.imgNext := (rfl)
@[simp] theorem State.modGrp_held (g : Nat) (f : SigGrp → SigGrp) : (s.modGrp g f).held = s.held := (rfl)
@[simp] theorem State.modGrp_flashOp (g : Nat) (f : SigGrp → SigGrp) : (s.modGrp g f).flashOp = s.flashOp := (rfl)
@[simp] theorem State.modGrp_flashQ (g : Nat) (f : SigGrp → SigGrp) : (s.modGrp g f).flashQ = s.flashQ := (rfl)
@[simp] theorem State.modGrp_dogAt (g : Nat) (f : SigGrp → SigGrp) : (s.modGrp g f).dogAt = s.dogAt := (rfl)
@[simp] theorem State.modGrp_tsync (g : Nat) (f : SigGrp → SigGrp) : (s.modGrp g f).tsync = s.tsync := (rfl)
@[simp] theorem State.modGrp_pow (g : Nat) (f : SigGrp → SigGrp) : (s.modGrp g f).pow = s.pow := (rfl)
@[simp] theorem State.modGrp_hoursBurnt (g : Nat) (f : SigGrp → SigGrp) : (s.modGrp g f).hoursBurnt = s.hoursBurnt := (rfl)
@[simp] theorem State.modGrp_halt (g : Nat) (f : SigGrp → SigGrp) : (s.modGrp g f).halt = s.halt := (rfl)
@[simp] theorem State.modGrp_flash (g : Nat) (f : SigGrp → SigGrp) : (s.modGrp g f).flash = s.flash := (rfl)
@[simp] theorem State.modGrp_stk (g : Nat) (f : SigGrp → SigGrp) : (s.modGrp g f).stk = s.stk := (rfl)
@[simp] theorem State.modGrp_stkMark (g : Nat) (f : SigGrp → SigGrp) : (s.modGrp g f).stkMark = s.stkMark := (rfl)
@[simp] theorem State.modGrp_stx (g : Nat) (f : SigGrp → SigGrp) : (s.modGrp g f).stx = s.stx := (rfl)
@[simp] theorem State.modGrp_tap (g : Nat) (f : SigGrp → SigGrp) : (s.modGrp g f).tap = s.tap := (rfl)
@[simp] theorem State.modGrp_engines (g : Nat) (f : SigGrp → SigGrp) : (s.modGrp g f).engines = s.engines := (rfl)
@[simp] theorem State.modGrp_ports (g : Nat) (f : SigGrp → SigGrp) : (s.modGrp g f).ports = s.ports := (rfl)
@[simp] theorem State.modGrp_reads (g : Nat) (f : SigGrp → SigGrp) : (s.modGrp g f).reads = s.reads := (rfl)
@[simp] theorem State.modGrp_writes (g : Nat) (f : SigGrp → SigGrp) : (s.modGrp g f).writes = s.writes := (rfl)
@[simp] theorem State.modGrp_tagGen (g : Nat) (f : SigGrp → SigGrp) : (s.modGrp g f).tagGen = s.tagGen := (rfl)
@[simp] theorem State.modGrp_quar (g : Nat) (f : SigGrp → SigGrp) : (s.modGrp g f).quar = s.quar := (rfl)
@[simp] theorem State.modGrp_routeWait (g : Nat) (f : SigGrp → SigGrp) : (s.modGrp g f).routeWait = s.routeWait := (rfl)
@[simp] theorem State.modGrp_reports (g : Nat) (f : SigGrp → SigGrp) : (s.modGrp g f).reports = s.reports := (rfl)
@[simp] theorem State.modGrp_hintHold (g : Nat) (f : SigGrp → SigGrp) : (s.modGrp g f).hintHold = s.hintHold := (rfl)
@[simp] theorem State.modGrp_colls (g : Nat) (f : SigGrp → SigGrp) : (s.modGrp g f).colls = s.colls := (rfl)
@[simp] theorem State.modGrp_collHeld (g : Nat) (f : SigGrp → SigGrp) : (s.modGrp g f).collHeld = s.collHeld := (rfl)
@[simp] theorem State.modGrp_collRecs (g : Nat) (f : SigGrp → SigGrp) : (s.modGrp g f).collRecs = s.collRecs := (rfl)
@[simp] theorem State.modGrp_collDead (g : Nat) (f : SigGrp → SigGrp) : (s.modGrp g f).collDead = s.collDead := (rfl)
@[simp] theorem State.modGrp_collWait (g : Nat) (f : SigGrp → SigGrp) : (s.modGrp g f).collWait = s.collWait := (rfl)
@[simp] theorem State.modGrp_streams (g : Nat) (f : SigGrp → SigGrp) : (s.modGrp g f).streams = s.streams := (rfl)
@[simp] theorem State.modGrp_mesh (g : Nat) (f : SigGrp → SigGrp) : (s.modGrp g f).mesh = s.mesh := (rfl)
@[simp] theorem State.modGrp_detHold (g : Nat) (f : SigGrp → SigGrp) : (s.modGrp g f).detHold = s.detHold := (rfl)
@[simp] theorem State.modGrp_ledPend (g : Nat) (f : SigGrp → SigGrp) : (s.modGrp g f).ledPend = s.ledPend := (rfl)
@[simp] theorem State.modGrp_ledGap (g : Nat) (f : SigGrp → SigGrp) : (s.modGrp g f).ledGap = s.ledGap := (rfl)
@[simp] theorem State.modGrp_ledRd (g : Nat) (f : SigGrp → SigGrp) : (s.modGrp g f).ledRd = s.ledRd := (rfl)
@[simp] theorem State.modGrp_ledIn (g : Nat) (f : SigGrp → SigGrp) : (s.modGrp g f).ledIn = s.ledIn := (rfl)
@[simp] theorem State.modGrp_ledWant (g : Nat) (f : SigGrp → SigGrp) : (s.modGrp g f).ledWant = s.ledWant := (rfl)
@[simp] theorem State.modGrp_decision (g : Nat) (f : SigGrp → SigGrp) : (s.modGrp g f).decision = s.decision := (rfl)
@[simp] theorem State.modGrp_stageWait (g : Nat) (f : SigGrp → SigGrp) : (s.modGrp g f).stageWait = s.stageWait := (rfl)
@[simp] theorem State.modGrp_keys (g : Nat) (f : SigGrp → SigGrp) : (s.modGrp g f).keys = s.keys := (rfl)
@[simp] theorem State.modGrp_keyLoad (g : Nat) (f : SigGrp → SigGrp) : (s.modGrp g f).keyLoad = s.keyLoad := (rfl)
@[simp] theorem State.modGrp_far (g : Nat) (f : SigGrp → SigGrp) : (s.modGrp g f).far = s.far := (rfl)
@[simp] theorem State.modGrp_ctxs (g : Nat) (f : SigGrp → SigGrp) : (s.modGrp g f).ctxs = s.ctxs := (rfl)
@[simp] theorem State.modGrp_switches (g : Nat) (f : SigGrp → SigGrp) : (s.modGrp g f).switches = s.switches := (rfl)
@[simp] theorem State.modGrp_occup (g : Nat) (f : SigGrp → SigGrp) : (s.modGrp g f).occup = s.occup := (rfl)
@[simp] theorem State.modGrp_dmas (g : Nat) (f : SigGrp → SigGrp) : (s.modGrp g f).dmas = s.dmas := (rfl)
@[simp] theorem State.modGrp_sent (g : Nat) (f : SigGrp → SigGrp) : (s.modGrp g f).sent = s.sent := (rfl)

/-! ## State.emit -/

@[simp] theorem State.emit_pending (o : Out) : (s.emit o).pending = s.pending := (rfl)
@[simp] theorem State.emit_fresh (o : Out) : (s.emit o).fresh = s.fresh := (rfl)
@[simp] theorem State.emit_clk (o : Out) : (s.emit o).clk = s.clk := (rfl)
@[simp] theorem State.emit_nextId (o : Out) : (s.emit o).nextId = s.nextId := (rfl)
@[simp] theorem State.emit_regs (o : Out) : (s.emit o).regs = s.regs := (rfl)
@[simp] theorem State.emit_tiles (o : Out) : (s.emit o).tiles = s.tiles := (rfl)
@[simp] theorem State.emit_h0 (o : Out) : (s.emit o).h0 = s.h0 := (rfl)
@[simp] theorem State.emit_h1 (o : Out) : (s.emit o).h1 = s.h1 := (rfl)
@[simp] theorem State.emit_mgmt (o : Out) : (s.emit o).mgmt = s.mgmt := (rfl)
@[simp] theorem State.emit_boot (o : Out) : (s.emit o).boot = s.boot := (rfl)
@[simp] theorem State.emit_attempt (o : Out) : (s.emit o).attempt = s.attempt := (rfl)
@[simp] theorem State.emit_strap (o : Out) : (s.emit o).strap = s.strap := (rfl)
@[simp] theorem State.emit_bridgeDone (o : Out) : (s.emit o).bridgeDone = s.bridgeDone := (rfl)
@[simp] theorem State.emit_arbFails (o : Out) : (s.emit o).arbFails = s.arbFails := (rfl)
@[simp] theorem State.emit_alert (o : Out) : (s.emit o).alert = s.alert := (rfl)
@[simp] theorem State.emit_img (o : Out) : (s.emit o).img = s.img := (rfl)
@[simp] theorem State.emit_imgSlot (o : Out) : (s.emit o).imgSlot = s.imgSlot := (rfl)
@[simp] theorem State.emit_imgNext (o : Out) : (s.emit o).imgNext = s.imgNext := (rfl)
@[simp] theorem State.emit_held (o : Out) : (s.emit o).held = s.held := (rfl)
@[simp] theorem State.emit_flashOp (o : Out) : (s.emit o).flashOp = s.flashOp := (rfl)
@[simp] theorem State.emit_flashQ (o : Out) : (s.emit o).flashQ = s.flashQ := (rfl)
@[simp] theorem State.emit_dogAt (o : Out) : (s.emit o).dogAt = s.dogAt := (rfl)
@[simp] theorem State.emit_tsync (o : Out) : (s.emit o).tsync = s.tsync := (rfl)
@[simp] theorem State.emit_pow (o : Out) : (s.emit o).pow = s.pow := (rfl)
@[simp] theorem State.emit_hoursBurnt (o : Out) : (s.emit o).hoursBurnt = s.hoursBurnt := (rfl)
@[simp] theorem State.emit_halt (o : Out) : (s.emit o).halt = s.halt := (rfl)
@[simp] theorem State.emit_flash (o : Out) : (s.emit o).flash = s.flash := (rfl)
@[simp] theorem State.emit_stk (o : Out) : (s.emit o).stk = s.stk := (rfl)
@[simp] theorem State.emit_stkMark (o : Out) : (s.emit o).stkMark = s.stkMark := (rfl)
@[simp] theorem State.emit_stx (o : Out) : (s.emit o).stx = s.stx := (rfl)
@[simp] theorem State.emit_tap (o : Out) : (s.emit o).tap = s.tap := (rfl)
@[simp] theorem State.emit_engines (o : Out) : (s.emit o).engines = s.engines := (rfl)
@[simp] theorem State.emit_ports (o : Out) : (s.emit o).ports = s.ports := (rfl)
@[simp] theorem State.emit_reads (o : Out) : (s.emit o).reads = s.reads := (rfl)
@[simp] theorem State.emit_writes (o : Out) : (s.emit o).writes = s.writes := (rfl)
@[simp] theorem State.emit_tagGen (o : Out) : (s.emit o).tagGen = s.tagGen := (rfl)
@[simp] theorem State.emit_quar (o : Out) : (s.emit o).quar = s.quar := (rfl)
@[simp] theorem State.emit_routeWait (o : Out) : (s.emit o).routeWait = s.routeWait := (rfl)
@[simp] theorem State.emit_reports (o : Out) : (s.emit o).reports = s.reports := (rfl)
@[simp] theorem State.emit_hintHold (o : Out) : (s.emit o).hintHold = s.hintHold := (rfl)
@[simp] theorem State.emit_groups (o : Out) : (s.emit o).groups = s.groups := (rfl)
@[simp] theorem State.emit_colls (o : Out) : (s.emit o).colls = s.colls := (rfl)
@[simp] theorem State.emit_collHeld (o : Out) : (s.emit o).collHeld = s.collHeld := (rfl)
@[simp] theorem State.emit_collRecs (o : Out) : (s.emit o).collRecs = s.collRecs := (rfl)
@[simp] theorem State.emit_collDead (o : Out) : (s.emit o).collDead = s.collDead := (rfl)
@[simp] theorem State.emit_collWait (o : Out) : (s.emit o).collWait = s.collWait := (rfl)
@[simp] theorem State.emit_streams (o : Out) : (s.emit o).streams = s.streams := (rfl)
@[simp] theorem State.emit_mesh (o : Out) : (s.emit o).mesh = s.mesh := (rfl)
@[simp] theorem State.emit_detHold (o : Out) : (s.emit o).detHold = s.detHold := (rfl)
@[simp] theorem State.emit_ledPend (o : Out) : (s.emit o).ledPend = s.ledPend := (rfl)
@[simp] theorem State.emit_ledGap (o : Out) : (s.emit o).ledGap = s.ledGap := (rfl)
@[simp] theorem State.emit_ledRd (o : Out) : (s.emit o).ledRd = s.ledRd := (rfl)
@[simp] theorem State.emit_ledIn (o : Out) : (s.emit o).ledIn = s.ledIn := (rfl)
@[simp] theorem State.emit_ledWant (o : Out) : (s.emit o).ledWant = s.ledWant := (rfl)
@[simp] theorem State.emit_decision (o : Out) : (s.emit o).decision = s.decision := (rfl)
@[simp] theorem State.emit_stageWait (o : Out) : (s.emit o).stageWait = s.stageWait := (rfl)
@[simp] theorem State.emit_keys (o : Out) : (s.emit o).keys = s.keys := (rfl)
@[simp] theorem State.emit_keyLoad (o : Out) : (s.emit o).keyLoad = s.keyLoad := (rfl)
@[simp] theorem State.emit_far (o : Out) : (s.emit o).far = s.far := (rfl)
@[simp] theorem State.emit_ctxs (o : Out) : (s.emit o).ctxs = s.ctxs := (rfl)
@[simp] theorem State.emit_switches (o : Out) : (s.emit o).switches = s.switches := (rfl)
@[simp] theorem State.emit_occup (o : Out) : (s.emit o).occup = s.occup := (rfl)
@[simp] theorem State.emit_dmas (o : Out) : (s.emit o).dmas = s.dmas := (rfl)

/-! ## State.emits -/

@[simp] theorem State.emits_pending (os : List Out) : (s.emits os).pending = s.pending := (rfl)
@[simp] theorem State.emits_fresh (os : List Out) : (s.emits os).fresh = s.fresh := (rfl)
@[simp] theorem State.emits_clk (os : List Out) : (s.emits os).clk = s.clk := (rfl)
@[simp] theorem State.emits_nextId (os : List Out) : (s.emits os).nextId = s.nextId := (rfl)
@[simp] theorem State.emits_regs (os : List Out) : (s.emits os).regs = s.regs := (rfl)
@[simp] theorem State.emits_tiles (os : List Out) : (s.emits os).tiles = s.tiles := (rfl)
@[simp] theorem State.emits_h0 (os : List Out) : (s.emits os).h0 = s.h0 := (rfl)
@[simp] theorem State.emits_h1 (os : List Out) : (s.emits os).h1 = s.h1 := (rfl)
@[simp] theorem State.emits_mgmt (os : List Out) : (s.emits os).mgmt = s.mgmt := (rfl)
@[simp] theorem State.emits_boot (os : List Out) : (s.emits os).boot = s.boot := (rfl)
@[simp] theorem State.emits_attempt (os : List Out) : (s.emits os).attempt = s.attempt := (rfl)
@[simp] theorem State.emits_strap (os : List Out) : (s.emits os).strap = s.strap := (rfl)
@[simp] theorem State.emits_bridgeDone (os : List Out) : (s.emits os).bridgeDone = s.bridgeDone := (rfl)
@[simp] theorem State.emits_arbFails (os : List Out) : (s.emits os).arbFails = s.arbFails := (rfl)
@[simp] theorem State.emits_alert (os : List Out) : (s.emits os).alert = s.alert := (rfl)
@[simp] theorem State.emits_img (os : List Out) : (s.emits os).img = s.img := (rfl)
@[simp] theorem State.emits_imgSlot (os : List Out) : (s.emits os).imgSlot = s.imgSlot := (rfl)
@[simp] theorem State.emits_imgNext (os : List Out) : (s.emits os).imgNext = s.imgNext := (rfl)
@[simp] theorem State.emits_held (os : List Out) : (s.emits os).held = s.held := (rfl)
@[simp] theorem State.emits_flashOp (os : List Out) : (s.emits os).flashOp = s.flashOp := (rfl)
@[simp] theorem State.emits_flashQ (os : List Out) : (s.emits os).flashQ = s.flashQ := (rfl)
@[simp] theorem State.emits_dogAt (os : List Out) : (s.emits os).dogAt = s.dogAt := (rfl)
@[simp] theorem State.emits_tsync (os : List Out) : (s.emits os).tsync = s.tsync := (rfl)
@[simp] theorem State.emits_pow (os : List Out) : (s.emits os).pow = s.pow := (rfl)
@[simp] theorem State.emits_hoursBurnt (os : List Out) : (s.emits os).hoursBurnt = s.hoursBurnt := (rfl)
@[simp] theorem State.emits_halt (os : List Out) : (s.emits os).halt = s.halt := (rfl)
@[simp] theorem State.emits_flash (os : List Out) : (s.emits os).flash = s.flash := (rfl)
@[simp] theorem State.emits_stk (os : List Out) : (s.emits os).stk = s.stk := (rfl)
@[simp] theorem State.emits_stkMark (os : List Out) : (s.emits os).stkMark = s.stkMark := (rfl)
@[simp] theorem State.emits_stx (os : List Out) : (s.emits os).stx = s.stx := (rfl)
@[simp] theorem State.emits_tap (os : List Out) : (s.emits os).tap = s.tap := (rfl)
@[simp] theorem State.emits_engines (os : List Out) : (s.emits os).engines = s.engines := (rfl)
@[simp] theorem State.emits_ports (os : List Out) : (s.emits os).ports = s.ports := (rfl)
@[simp] theorem State.emits_reads (os : List Out) : (s.emits os).reads = s.reads := (rfl)
@[simp] theorem State.emits_writes (os : List Out) : (s.emits os).writes = s.writes := (rfl)
@[simp] theorem State.emits_tagGen (os : List Out) : (s.emits os).tagGen = s.tagGen := (rfl)
@[simp] theorem State.emits_quar (os : List Out) : (s.emits os).quar = s.quar := (rfl)
@[simp] theorem State.emits_routeWait (os : List Out) : (s.emits os).routeWait = s.routeWait := (rfl)
@[simp] theorem State.emits_reports (os : List Out) : (s.emits os).reports = s.reports := (rfl)
@[simp] theorem State.emits_hintHold (os : List Out) : (s.emits os).hintHold = s.hintHold := (rfl)
@[simp] theorem State.emits_groups (os : List Out) : (s.emits os).groups = s.groups := (rfl)
@[simp] theorem State.emits_colls (os : List Out) : (s.emits os).colls = s.colls := (rfl)
@[simp] theorem State.emits_collHeld (os : List Out) : (s.emits os).collHeld = s.collHeld := (rfl)
@[simp] theorem State.emits_collRecs (os : List Out) : (s.emits os).collRecs = s.collRecs := (rfl)
@[simp] theorem State.emits_collDead (os : List Out) : (s.emits os).collDead = s.collDead := (rfl)
@[simp] theorem State.emits_collWait (os : List Out) : (s.emits os).collWait = s.collWait := (rfl)
@[simp] theorem State.emits_streams (os : List Out) : (s.emits os).streams = s.streams := (rfl)
@[simp] theorem State.emits_mesh (os : List Out) : (s.emits os).mesh = s.mesh := (rfl)
@[simp] theorem State.emits_detHold (os : List Out) : (s.emits os).detHold = s.detHold := (rfl)
@[simp] theorem State.emits_ledPend (os : List Out) : (s.emits os).ledPend = s.ledPend := (rfl)
@[simp] theorem State.emits_ledGap (os : List Out) : (s.emits os).ledGap = s.ledGap := (rfl)
@[simp] theorem State.emits_ledRd (os : List Out) : (s.emits os).ledRd = s.ledRd := (rfl)
@[simp] theorem State.emits_ledIn (os : List Out) : (s.emits os).ledIn = s.ledIn := (rfl)
@[simp] theorem State.emits_ledWant (os : List Out) : (s.emits os).ledWant = s.ledWant := (rfl)
@[simp] theorem State.emits_decision (os : List Out) : (s.emits os).decision = s.decision := (rfl)
@[simp] theorem State.emits_stageWait (os : List Out) : (s.emits os).stageWait = s.stageWait := (rfl)
@[simp] theorem State.emits_keys (os : List Out) : (s.emits os).keys = s.keys := (rfl)
@[simp] theorem State.emits_keyLoad (os : List Out) : (s.emits os).keyLoad = s.keyLoad := (rfl)
@[simp] theorem State.emits_far (os : List Out) : (s.emits os).far = s.far := (rfl)
@[simp] theorem State.emits_ctxs (os : List Out) : (s.emits os).ctxs = s.ctxs := (rfl)
@[simp] theorem State.emits_switches (os : List Out) : (s.emits os).switches = s.switches := (rfl)
@[simp] theorem State.emits_occup (os : List Out) : (s.emits os).occup = s.occup := (rfl)
@[simp] theorem State.emits_dmas (os : List Out) : (s.emits os).dmas = s.dmas := (rfl)

/-! ## State.freshen -/

@[simp] theorem State.freshen_pending : (s.freshen).pending = s.pending := (rfl)
@[simp] theorem State.freshen_clk : (s.freshen).clk = s.clk := (rfl)
@[simp] theorem State.freshen_nextId : (s.freshen).nextId = s.nextId := (rfl)
@[simp] theorem State.freshen_regs : (s.freshen).regs = s.regs := (rfl)
@[simp] theorem State.freshen_tiles : (s.freshen).tiles = s.tiles := (rfl)
@[simp] theorem State.freshen_h0 : (s.freshen).h0 = s.h0 := (rfl)
@[simp] theorem State.freshen_h1 : (s.freshen).h1 = s.h1 := (rfl)
@[simp] theorem State.freshen_mgmt : (s.freshen).mgmt = s.mgmt := (rfl)
@[simp] theorem State.freshen_boot : (s.freshen).boot = s.boot := (rfl)
@[simp] theorem State.freshen_attempt : (s.freshen).attempt = s.attempt := (rfl)
@[simp] theorem State.freshen_strap : (s.freshen).strap = s.strap := (rfl)
@[simp] theorem State.freshen_bridgeDone : (s.freshen).bridgeDone = s.bridgeDone := (rfl)
@[simp] theorem State.freshen_arbFails : (s.freshen).arbFails = s.arbFails := (rfl)
@[simp] theorem State.freshen_alert : (s.freshen).alert = s.alert := (rfl)
@[simp] theorem State.freshen_img : (s.freshen).img = s.img := (rfl)
@[simp] theorem State.freshen_imgSlot : (s.freshen).imgSlot = s.imgSlot := (rfl)
@[simp] theorem State.freshen_imgNext : (s.freshen).imgNext = s.imgNext := (rfl)
@[simp] theorem State.freshen_held : (s.freshen).held = s.held := (rfl)
@[simp] theorem State.freshen_flashOp : (s.freshen).flashOp = s.flashOp := (rfl)
@[simp] theorem State.freshen_flashQ : (s.freshen).flashQ = s.flashQ := (rfl)
@[simp] theorem State.freshen_dogAt : (s.freshen).dogAt = s.dogAt := (rfl)
@[simp] theorem State.freshen_tsync : (s.freshen).tsync = s.tsync := (rfl)
@[simp] theorem State.freshen_pow : (s.freshen).pow = s.pow := (rfl)
@[simp] theorem State.freshen_hoursBurnt : (s.freshen).hoursBurnt = s.hoursBurnt := (rfl)
@[simp] theorem State.freshen_halt : (s.freshen).halt = s.halt := (rfl)
@[simp] theorem State.freshen_flash : (s.freshen).flash = s.flash := (rfl)
@[simp] theorem State.freshen_stk : (s.freshen).stk = s.stk := (rfl)
@[simp] theorem State.freshen_stkMark : (s.freshen).stkMark = s.stkMark := (rfl)
@[simp] theorem State.freshen_stx : (s.freshen).stx = s.stx := (rfl)
@[simp] theorem State.freshen_tap : (s.freshen).tap = s.tap := (rfl)
@[simp] theorem State.freshen_engines : (s.freshen).engines = s.engines := (rfl)
@[simp] theorem State.freshen_ports : (s.freshen).ports = s.ports := (rfl)
@[simp] theorem State.freshen_reads : (s.freshen).reads = s.reads := (rfl)
@[simp] theorem State.freshen_writes : (s.freshen).writes = s.writes := (rfl)
@[simp] theorem State.freshen_tagGen : (s.freshen).tagGen = s.tagGen := (rfl)
@[simp] theorem State.freshen_quar : (s.freshen).quar = s.quar := (rfl)
@[simp] theorem State.freshen_routeWait : (s.freshen).routeWait = s.routeWait := (rfl)
@[simp] theorem State.freshen_reports : (s.freshen).reports = s.reports := (rfl)
@[simp] theorem State.freshen_hintHold : (s.freshen).hintHold = s.hintHold := (rfl)
@[simp] theorem State.freshen_groups : (s.freshen).groups = s.groups := (rfl)
@[simp] theorem State.freshen_colls : (s.freshen).colls = s.colls := (rfl)
@[simp] theorem State.freshen_collHeld : (s.freshen).collHeld = s.collHeld := (rfl)
@[simp] theorem State.freshen_collRecs : (s.freshen).collRecs = s.collRecs := (rfl)
@[simp] theorem State.freshen_collDead : (s.freshen).collDead = s.collDead := (rfl)
@[simp] theorem State.freshen_collWait : (s.freshen).collWait = s.collWait := (rfl)
@[simp] theorem State.freshen_streams : (s.freshen).streams = s.streams := (rfl)
@[simp] theorem State.freshen_mesh : (s.freshen).mesh = s.mesh := (rfl)
@[simp] theorem State.freshen_detHold : (s.freshen).detHold = s.detHold := (rfl)
@[simp] theorem State.freshen_ledPend : (s.freshen).ledPend = s.ledPend := (rfl)
@[simp] theorem State.freshen_ledGap : (s.freshen).ledGap = s.ledGap := (rfl)
@[simp] theorem State.freshen_ledRd : (s.freshen).ledRd = s.ledRd := (rfl)
@[simp] theorem State.freshen_ledIn : (s.freshen).ledIn = s.ledIn := (rfl)
@[simp] theorem State.freshen_ledWant : (s.freshen).ledWant = s.ledWant := (rfl)
@[simp] theorem State.freshen_decision : (s.freshen).decision = s.decision := (rfl)
@[simp] theorem State.freshen_stageWait : (s.freshen).stageWait = s.stageWait := (rfl)
@[simp] theorem State.freshen_keys : (s.freshen).keys = s.keys := (rfl)
@[simp] theorem State.freshen_keyLoad : (s.freshen).keyLoad = s.keyLoad := (rfl)
@[simp] theorem State.freshen_far : (s.freshen).far = s.far := (rfl)
@[simp] theorem State.freshen_ctxs : (s.freshen).ctxs = s.ctxs := (rfl)
@[simp] theorem State.freshen_switches : (s.freshen).switches = s.switches := (rfl)
@[simp] theorem State.freshen_occup : (s.freshen).occup = s.occup := (rfl)
@[simp] theorem State.freshen_dmas : (s.freshen).dmas = s.dmas := (rfl)
@[simp] theorem State.freshen_sent : (s.freshen).sent = s.sent := (rfl)

/-! ## State.report -/

@[simp] theorem State.report_pending (half typ sev src addr detail : Nat) : (s.report half typ sev src addr detail).pending = s.pending := (rfl)
@[simp] theorem State.report_fresh (half typ sev src addr detail : Nat) : (s.report half typ sev src addr detail).fresh = s.fresh := (rfl)
@[simp] theorem State.report_clk (half typ sev src addr detail : Nat) : (s.report half typ sev src addr detail).clk = s.clk := (rfl)
@[simp] theorem State.report_nextId (half typ sev src addr detail : Nat) : (s.report half typ sev src addr detail).nextId = s.nextId := (rfl)
@[simp] theorem State.report_regs (half typ sev src addr detail : Nat) : (s.report half typ sev src addr detail).regs = s.regs := (rfl)
@[simp] theorem State.report_tiles (half typ sev src addr detail : Nat) : (s.report half typ sev src addr detail).tiles = s.tiles := (rfl)
@[simp] theorem State.report_h0 (half typ sev src addr detail : Nat) : (s.report half typ sev src addr detail).h0 = s.h0 := (rfl)
@[simp] theorem State.report_h1 (half typ sev src addr detail : Nat) : (s.report half typ sev src addr detail).h1 = s.h1 := (rfl)
@[simp] theorem State.report_mgmt (half typ sev src addr detail : Nat) : (s.report half typ sev src addr detail).mgmt = s.mgmt := (rfl)
@[simp] theorem State.report_boot (half typ sev src addr detail : Nat) : (s.report half typ sev src addr detail).boot = s.boot := (rfl)
@[simp] theorem State.report_attempt (half typ sev src addr detail : Nat) : (s.report half typ sev src addr detail).attempt = s.attempt := (rfl)
@[simp] theorem State.report_strap (half typ sev src addr detail : Nat) : (s.report half typ sev src addr detail).strap = s.strap := (rfl)
@[simp] theorem State.report_bridgeDone (half typ sev src addr detail : Nat) : (s.report half typ sev src addr detail).bridgeDone = s.bridgeDone := (rfl)
@[simp] theorem State.report_arbFails (half typ sev src addr detail : Nat) : (s.report half typ sev src addr detail).arbFails = s.arbFails := (rfl)
@[simp] theorem State.report_alert (half typ sev src addr detail : Nat) : (s.report half typ sev src addr detail).alert = s.alert := (rfl)
@[simp] theorem State.report_img (half typ sev src addr detail : Nat) : (s.report half typ sev src addr detail).img = s.img := (rfl)
@[simp] theorem State.report_imgSlot (half typ sev src addr detail : Nat) : (s.report half typ sev src addr detail).imgSlot = s.imgSlot := (rfl)
@[simp] theorem State.report_imgNext (half typ sev src addr detail : Nat) : (s.report half typ sev src addr detail).imgNext = s.imgNext := (rfl)
@[simp] theorem State.report_held (half typ sev src addr detail : Nat) : (s.report half typ sev src addr detail).held = s.held := (rfl)
@[simp] theorem State.report_flashOp (half typ sev src addr detail : Nat) : (s.report half typ sev src addr detail).flashOp = s.flashOp := (rfl)
@[simp] theorem State.report_flashQ (half typ sev src addr detail : Nat) : (s.report half typ sev src addr detail).flashQ = s.flashQ := (rfl)
@[simp] theorem State.report_dogAt (half typ sev src addr detail : Nat) : (s.report half typ sev src addr detail).dogAt = s.dogAt := (rfl)
@[simp] theorem State.report_tsync (half typ sev src addr detail : Nat) : (s.report half typ sev src addr detail).tsync = s.tsync := (rfl)
@[simp] theorem State.report_pow (half typ sev src addr detail : Nat) : (s.report half typ sev src addr detail).pow = s.pow := (rfl)
@[simp] theorem State.report_hoursBurnt (half typ sev src addr detail : Nat) : (s.report half typ sev src addr detail).hoursBurnt = s.hoursBurnt := (rfl)
@[simp] theorem State.report_halt (half typ sev src addr detail : Nat) : (s.report half typ sev src addr detail).halt = s.halt := (rfl)
@[simp] theorem State.report_flash (half typ sev src addr detail : Nat) : (s.report half typ sev src addr detail).flash = s.flash := (rfl)
@[simp] theorem State.report_stk (half typ sev src addr detail : Nat) : (s.report half typ sev src addr detail).stk = s.stk := (rfl)
@[simp] theorem State.report_stkMark (half typ sev src addr detail : Nat) : (s.report half typ sev src addr detail).stkMark = s.stkMark := (rfl)
@[simp] theorem State.report_stx (half typ sev src addr detail : Nat) : (s.report half typ sev src addr detail).stx = s.stx := (rfl)
@[simp] theorem State.report_tap (half typ sev src addr detail : Nat) : (s.report half typ sev src addr detail).tap = s.tap := (rfl)
@[simp] theorem State.report_engines (half typ sev src addr detail : Nat) : (s.report half typ sev src addr detail).engines = s.engines := (rfl)
@[simp] theorem State.report_ports (half typ sev src addr detail : Nat) : (s.report half typ sev src addr detail).ports = s.ports := (rfl)
@[simp] theorem State.report_reads (half typ sev src addr detail : Nat) : (s.report half typ sev src addr detail).reads = s.reads := (rfl)
@[simp] theorem State.report_writes (half typ sev src addr detail : Nat) : (s.report half typ sev src addr detail).writes = s.writes := (rfl)
@[simp] theorem State.report_tagGen (half typ sev src addr detail : Nat) : (s.report half typ sev src addr detail).tagGen = s.tagGen := (rfl)
@[simp] theorem State.report_quar (half typ sev src addr detail : Nat) : (s.report half typ sev src addr detail).quar = s.quar := (rfl)
@[simp] theorem State.report_routeWait (half typ sev src addr detail : Nat) : (s.report half typ sev src addr detail).routeWait = s.routeWait := (rfl)
@[simp] theorem State.report_hintHold (half typ sev src addr detail : Nat) : (s.report half typ sev src addr detail).hintHold = s.hintHold := (rfl)
@[simp] theorem State.report_groups (half typ sev src addr detail : Nat) : (s.report half typ sev src addr detail).groups = s.groups := (rfl)
@[simp] theorem State.report_colls (half typ sev src addr detail : Nat) : (s.report half typ sev src addr detail).colls = s.colls := (rfl)
@[simp] theorem State.report_collHeld (half typ sev src addr detail : Nat) : (s.report half typ sev src addr detail).collHeld = s.collHeld := (rfl)
@[simp] theorem State.report_collRecs (half typ sev src addr detail : Nat) : (s.report half typ sev src addr detail).collRecs = s.collRecs := (rfl)
@[simp] theorem State.report_collDead (half typ sev src addr detail : Nat) : (s.report half typ sev src addr detail).collDead = s.collDead := (rfl)
@[simp] theorem State.report_collWait (half typ sev src addr detail : Nat) : (s.report half typ sev src addr detail).collWait = s.collWait := (rfl)
@[simp] theorem State.report_streams (half typ sev src addr detail : Nat) : (s.report half typ sev src addr detail).streams = s.streams := (rfl)
@[simp] theorem State.report_mesh (half typ sev src addr detail : Nat) : (s.report half typ sev src addr detail).mesh = s.mesh := (rfl)
@[simp] theorem State.report_detHold (half typ sev src addr detail : Nat) : (s.report half typ sev src addr detail).detHold = s.detHold := (rfl)
@[simp] theorem State.report_ledPend (half typ sev src addr detail : Nat) : (s.report half typ sev src addr detail).ledPend = s.ledPend := (rfl)
@[simp] theorem State.report_ledGap (half typ sev src addr detail : Nat) : (s.report half typ sev src addr detail).ledGap = s.ledGap := (rfl)
@[simp] theorem State.report_ledRd (half typ sev src addr detail : Nat) : (s.report half typ sev src addr detail).ledRd = s.ledRd := (rfl)
@[simp] theorem State.report_ledIn (half typ sev src addr detail : Nat) : (s.report half typ sev src addr detail).ledIn = s.ledIn := (rfl)
@[simp] theorem State.report_ledWant (half typ sev src addr detail : Nat) : (s.report half typ sev src addr detail).ledWant = s.ledWant := (rfl)
@[simp] theorem State.report_decision (half typ sev src addr detail : Nat) : (s.report half typ sev src addr detail).decision = s.decision := (rfl)
@[simp] theorem State.report_stageWait (half typ sev src addr detail : Nat) : (s.report half typ sev src addr detail).stageWait = s.stageWait := (rfl)
@[simp] theorem State.report_keys (half typ sev src addr detail : Nat) : (s.report half typ sev src addr detail).keys = s.keys := (rfl)
@[simp] theorem State.report_keyLoad (half typ sev src addr detail : Nat) : (s.report half typ sev src addr detail).keyLoad = s.keyLoad := (rfl)
@[simp] theorem State.report_far (half typ sev src addr detail : Nat) : (s.report half typ sev src addr detail).far = s.far := (rfl)
@[simp] theorem State.report_ctxs (half typ sev src addr detail : Nat) : (s.report half typ sev src addr detail).ctxs = s.ctxs := (rfl)
@[simp] theorem State.report_switches (half typ sev src addr detail : Nat) : (s.report half typ sev src addr detail).switches = s.switches := (rfl)
@[simp] theorem State.report_occup (half typ sev src addr detail : Nat) : (s.report half typ sev src addr detail).occup = s.occup := (rfl)
@[simp] theorem State.report_dmas (half typ sev src addr detail : Nat) : (s.report half typ sev src addr detail).dmas = s.dmas := (rfl)
@[simp] theorem State.report_sent (half typ sev src addr detail : Nat) : (s.report half typ sev src addr detail).sent = s.sent := (rfl)

/-! ## State.withPending -/

@[simp] theorem State.withPending_fresh (cs : List Instr) : (s.withPending cs).fresh = s.fresh := (rfl)
@[simp] theorem State.withPending_clk (cs : List Instr) : (s.withPending cs).clk = s.clk := (rfl)
@[simp] theorem State.withPending_nextId (cs : List Instr) : (s.withPending cs).nextId = s.nextId := (rfl)
@[simp] theorem State.withPending_regs (cs : List Instr) : (s.withPending cs).regs = s.regs := (rfl)
@[simp] theorem State.withPending_tiles (cs : List Instr) : (s.withPending cs).tiles = s.tiles := (rfl)
@[simp] theorem State.withPending_h0 (cs : List Instr) : (s.withPending cs).h0 = s.h0 := (rfl)
@[simp] theorem State.withPending_h1 (cs : List Instr) : (s.withPending cs).h1 = s.h1 := (rfl)
@[simp] theorem State.withPending_mgmt (cs : List Instr) : (s.withPending cs).mgmt = s.mgmt := (rfl)
@[simp] theorem State.withPending_boot (cs : List Instr) : (s.withPending cs).boot = s.boot := (rfl)
@[simp] theorem State.withPending_attempt (cs : List Instr) : (s.withPending cs).attempt = s.attempt := (rfl)
@[simp] theorem State.withPending_strap (cs : List Instr) : (s.withPending cs).strap = s.strap := (rfl)
@[simp] theorem State.withPending_bridgeDone (cs : List Instr) : (s.withPending cs).bridgeDone = s.bridgeDone := (rfl)
@[simp] theorem State.withPending_arbFails (cs : List Instr) : (s.withPending cs).arbFails = s.arbFails := (rfl)
@[simp] theorem State.withPending_alert (cs : List Instr) : (s.withPending cs).alert = s.alert := (rfl)
@[simp] theorem State.withPending_img (cs : List Instr) : (s.withPending cs).img = s.img := (rfl)
@[simp] theorem State.withPending_imgSlot (cs : List Instr) : (s.withPending cs).imgSlot = s.imgSlot := (rfl)
@[simp] theorem State.withPending_imgNext (cs : List Instr) : (s.withPending cs).imgNext = s.imgNext := (rfl)
@[simp] theorem State.withPending_held (cs : List Instr) : (s.withPending cs).held = s.held := (rfl)
@[simp] theorem State.withPending_flashOp (cs : List Instr) : (s.withPending cs).flashOp = s.flashOp := (rfl)
@[simp] theorem State.withPending_flashQ (cs : List Instr) : (s.withPending cs).flashQ = s.flashQ := (rfl)
@[simp] theorem State.withPending_dogAt (cs : List Instr) : (s.withPending cs).dogAt = s.dogAt := (rfl)
@[simp] theorem State.withPending_tsync (cs : List Instr) : (s.withPending cs).tsync = s.tsync := (rfl)
@[simp] theorem State.withPending_pow (cs : List Instr) : (s.withPending cs).pow = s.pow := (rfl)
@[simp] theorem State.withPending_hoursBurnt (cs : List Instr) : (s.withPending cs).hoursBurnt = s.hoursBurnt := (rfl)
@[simp] theorem State.withPending_halt (cs : List Instr) : (s.withPending cs).halt = s.halt := (rfl)
@[simp] theorem State.withPending_flash (cs : List Instr) : (s.withPending cs).flash = s.flash := (rfl)
@[simp] theorem State.withPending_stk (cs : List Instr) : (s.withPending cs).stk = s.stk := (rfl)
@[simp] theorem State.withPending_stkMark (cs : List Instr) : (s.withPending cs).stkMark = s.stkMark := (rfl)
@[simp] theorem State.withPending_stx (cs : List Instr) : (s.withPending cs).stx = s.stx := (rfl)
@[simp] theorem State.withPending_tap (cs : List Instr) : (s.withPending cs).tap = s.tap := (rfl)
@[simp] theorem State.withPending_engines (cs : List Instr) : (s.withPending cs).engines = s.engines := (rfl)
@[simp] theorem State.withPending_ports (cs : List Instr) : (s.withPending cs).ports = s.ports := (rfl)
@[simp] theorem State.withPending_reads (cs : List Instr) : (s.withPending cs).reads = s.reads := (rfl)
@[simp] theorem State.withPending_writes (cs : List Instr) : (s.withPending cs).writes = s.writes := (rfl)
@[simp] theorem State.withPending_tagGen (cs : List Instr) : (s.withPending cs).tagGen = s.tagGen := (rfl)
@[simp] theorem State.withPending_quar (cs : List Instr) : (s.withPending cs).quar = s.quar := (rfl)
@[simp] theorem State.withPending_routeWait (cs : List Instr) : (s.withPending cs).routeWait = s.routeWait := (rfl)
@[simp] theorem State.withPending_reports (cs : List Instr) : (s.withPending cs).reports = s.reports := (rfl)
@[simp] theorem State.withPending_hintHold (cs : List Instr) : (s.withPending cs).hintHold = s.hintHold := (rfl)
@[simp] theorem State.withPending_groups (cs : List Instr) : (s.withPending cs).groups = s.groups := (rfl)
@[simp] theorem State.withPending_colls (cs : List Instr) : (s.withPending cs).colls = s.colls := (rfl)
@[simp] theorem State.withPending_collHeld (cs : List Instr) : (s.withPending cs).collHeld = s.collHeld := (rfl)
@[simp] theorem State.withPending_collRecs (cs : List Instr) : (s.withPending cs).collRecs = s.collRecs := (rfl)
@[simp] theorem State.withPending_collDead (cs : List Instr) : (s.withPending cs).collDead = s.collDead := (rfl)
@[simp] theorem State.withPending_collWait (cs : List Instr) : (s.withPending cs).collWait = s.collWait := (rfl)
@[simp] theorem State.withPending_streams (cs : List Instr) : (s.withPending cs).streams = s.streams := (rfl)
@[simp] theorem State.withPending_mesh (cs : List Instr) : (s.withPending cs).mesh = s.mesh := (rfl)
@[simp] theorem State.withPending_detHold (cs : List Instr) : (s.withPending cs).detHold = s.detHold := (rfl)
@[simp] theorem State.withPending_ledPend (cs : List Instr) : (s.withPending cs).ledPend = s.ledPend := (rfl)
@[simp] theorem State.withPending_ledGap (cs : List Instr) : (s.withPending cs).ledGap = s.ledGap := (rfl)
@[simp] theorem State.withPending_ledRd (cs : List Instr) : (s.withPending cs).ledRd = s.ledRd := (rfl)
@[simp] theorem State.withPending_ledIn (cs : List Instr) : (s.withPending cs).ledIn = s.ledIn := (rfl)
@[simp] theorem State.withPending_ledWant (cs : List Instr) : (s.withPending cs).ledWant = s.ledWant := (rfl)
@[simp] theorem State.withPending_decision (cs : List Instr) : (s.withPending cs).decision = s.decision := (rfl)
@[simp] theorem State.withPending_stageWait (cs : List Instr) : (s.withPending cs).stageWait = s.stageWait := (rfl)
@[simp] theorem State.withPending_keys (cs : List Instr) : (s.withPending cs).keys = s.keys := (rfl)
@[simp] theorem State.withPending_keyLoad (cs : List Instr) : (s.withPending cs).keyLoad = s.keyLoad := (rfl)
@[simp] theorem State.withPending_far (cs : List Instr) : (s.withPending cs).far = s.far := (rfl)
@[simp] theorem State.withPending_ctxs (cs : List Instr) : (s.withPending cs).ctxs = s.ctxs := (rfl)
@[simp] theorem State.withPending_switches (cs : List Instr) : (s.withPending cs).switches = s.switches := (rfl)
@[simp] theorem State.withPending_occup (cs : List Instr) : (s.withPending cs).occup = s.occup := (rfl)
@[simp] theorem State.withPending_dmas (cs : List Instr) : (s.withPending cs).dmas = s.dmas := (rfl)
@[simp] theorem State.withPending_sent (cs : List Instr) : (s.withPending cs).sent = s.sent := (rfl)

/-! ## State.modHalf -/

@[simp] theorem State.modHalf_pending (h : Nat) (f : Half → Half) : (s.modHalf h f).pending = s.pending := by
  unfold State.modHalf; split <;> rfl
@[simp] theorem State.modHalf_fresh (h : Nat) (f : Half → Half) : (s.modHalf h f).fresh = s.fresh := by
  unfold State.modHalf; split <;> rfl
@[simp] theorem State.modHalf_clk (h : Nat) (f : Half → Half) : (s.modHalf h f).clk = s.clk := by
  unfold State.modHalf; split <;> rfl
@[simp] theorem State.modHalf_nextId (h : Nat) (f : Half → Half) : (s.modHalf h f).nextId = s.nextId := by
  unfold State.modHalf; split <;> rfl
@[simp] theorem State.modHalf_regs (h : Nat) (f : Half → Half) : (s.modHalf h f).regs = s.regs := by
  unfold State.modHalf; split <;> rfl
@[simp] theorem State.modHalf_tiles (h : Nat) (f : Half → Half) : (s.modHalf h f).tiles = s.tiles := by
  unfold State.modHalf; split <;> rfl
@[simp] theorem State.modHalf_mgmt (h : Nat) (f : Half → Half) : (s.modHalf h f).mgmt = s.mgmt := by
  unfold State.modHalf; split <;> rfl
@[simp] theorem State.modHalf_boot (h : Nat) (f : Half → Half) : (s.modHalf h f).boot = s.boot := by
  unfold State.modHalf; split <;> rfl
@[simp] theorem State.modHalf_attempt (h : Nat) (f : Half → Half) : (s.modHalf h f).attempt = s.attempt := by
  unfold State.modHalf; split <;> rfl
@[simp] theorem State.modHalf_strap (h : Nat) (f : Half → Half) : (s.modHalf h f).strap = s.strap := by
  unfold State.modHalf; split <;> rfl
@[simp] theorem State.modHalf_bridgeDone (h : Nat) (f : Half → Half) : (s.modHalf h f).bridgeDone = s.bridgeDone := by
  unfold State.modHalf; split <;> rfl
@[simp] theorem State.modHalf_arbFails (h : Nat) (f : Half → Half) : (s.modHalf h f).arbFails = s.arbFails := by
  unfold State.modHalf; split <;> rfl
@[simp] theorem State.modHalf_alert (h : Nat) (f : Half → Half) : (s.modHalf h f).alert = s.alert := by
  unfold State.modHalf; split <;> rfl
@[simp] theorem State.modHalf_img (h : Nat) (f : Half → Half) : (s.modHalf h f).img = s.img := by
  unfold State.modHalf; split <;> rfl
@[simp] theorem State.modHalf_imgSlot (h : Nat) (f : Half → Half) : (s.modHalf h f).imgSlot = s.imgSlot := by
  unfold State.modHalf; split <;> rfl
@[simp] theorem State.modHalf_imgNext (h : Nat) (f : Half → Half) : (s.modHalf h f).imgNext = s.imgNext := by
  unfold State.modHalf; split <;> rfl
@[simp] theorem State.modHalf_held (h : Nat) (f : Half → Half) : (s.modHalf h f).held = s.held := by
  unfold State.modHalf; split <;> rfl
@[simp] theorem State.modHalf_flashOp (h : Nat) (f : Half → Half) : (s.modHalf h f).flashOp = s.flashOp := by
  unfold State.modHalf; split <;> rfl
@[simp] theorem State.modHalf_flashQ (h : Nat) (f : Half → Half) : (s.modHalf h f).flashQ = s.flashQ := by
  unfold State.modHalf; split <;> rfl
@[simp] theorem State.modHalf_dogAt (h : Nat) (f : Half → Half) : (s.modHalf h f).dogAt = s.dogAt := by
  unfold State.modHalf; split <;> rfl
@[simp] theorem State.modHalf_tsync (h : Nat) (f : Half → Half) : (s.modHalf h f).tsync = s.tsync := by
  unfold State.modHalf; split <;> rfl
@[simp] theorem State.modHalf_pow (h : Nat) (f : Half → Half) : (s.modHalf h f).pow = s.pow := by
  unfold State.modHalf; split <;> rfl
@[simp] theorem State.modHalf_hoursBurnt (h : Nat) (f : Half → Half) : (s.modHalf h f).hoursBurnt = s.hoursBurnt := by
  unfold State.modHalf; split <;> rfl
@[simp] theorem State.modHalf_halt (h : Nat) (f : Half → Half) : (s.modHalf h f).halt = s.halt := by
  unfold State.modHalf; split <;> rfl
@[simp] theorem State.modHalf_flash (h : Nat) (f : Half → Half) : (s.modHalf h f).flash = s.flash := by
  unfold State.modHalf; split <;> rfl
@[simp] theorem State.modHalf_stk (h : Nat) (f : Half → Half) : (s.modHalf h f).stk = s.stk := by
  unfold State.modHalf; split <;> rfl
@[simp] theorem State.modHalf_stkMark (h : Nat) (f : Half → Half) : (s.modHalf h f).stkMark = s.stkMark := by
  unfold State.modHalf; split <;> rfl
@[simp] theorem State.modHalf_stx (h : Nat) (f : Half → Half) : (s.modHalf h f).stx = s.stx := by
  unfold State.modHalf; split <;> rfl
@[simp] theorem State.modHalf_tap (h : Nat) (f : Half → Half) : (s.modHalf h f).tap = s.tap := by
  unfold State.modHalf; split <;> rfl
@[simp] theorem State.modHalf_engines (h : Nat) (f : Half → Half) : (s.modHalf h f).engines = s.engines := by
  unfold State.modHalf; split <;> rfl
@[simp] theorem State.modHalf_ports (h : Nat) (f : Half → Half) : (s.modHalf h f).ports = s.ports := by
  unfold State.modHalf; split <;> rfl
@[simp] theorem State.modHalf_reads (h : Nat) (f : Half → Half) : (s.modHalf h f).reads = s.reads := by
  unfold State.modHalf; split <;> rfl
@[simp] theorem State.modHalf_writes (h : Nat) (f : Half → Half) : (s.modHalf h f).writes = s.writes := by
  unfold State.modHalf; split <;> rfl
@[simp] theorem State.modHalf_tagGen (h : Nat) (f : Half → Half) : (s.modHalf h f).tagGen = s.tagGen := by
  unfold State.modHalf; split <;> rfl
@[simp] theorem State.modHalf_quar (h : Nat) (f : Half → Half) : (s.modHalf h f).quar = s.quar := by
  unfold State.modHalf; split <;> rfl
@[simp] theorem State.modHalf_routeWait (h : Nat) (f : Half → Half) : (s.modHalf h f).routeWait = s.routeWait := by
  unfold State.modHalf; split <;> rfl
@[simp] theorem State.modHalf_reports (h : Nat) (f : Half → Half) : (s.modHalf h f).reports = s.reports := by
  unfold State.modHalf; split <;> rfl
@[simp] theorem State.modHalf_hintHold (h : Nat) (f : Half → Half) : (s.modHalf h f).hintHold = s.hintHold := by
  unfold State.modHalf; split <;> rfl
@[simp] theorem State.modHalf_groups (h : Nat) (f : Half → Half) : (s.modHalf h f).groups = s.groups := by
  unfold State.modHalf; split <;> rfl
@[simp] theorem State.modHalf_colls (h : Nat) (f : Half → Half) : (s.modHalf h f).colls = s.colls := by
  unfold State.modHalf; split <;> rfl
@[simp] theorem State.modHalf_collHeld (h : Nat) (f : Half → Half) : (s.modHalf h f).collHeld = s.collHeld := by
  unfold State.modHalf; split <;> rfl
@[simp] theorem State.modHalf_collRecs (h : Nat) (f : Half → Half) : (s.modHalf h f).collRecs = s.collRecs := by
  unfold State.modHalf; split <;> rfl
@[simp] theorem State.modHalf_collDead (h : Nat) (f : Half → Half) : (s.modHalf h f).collDead = s.collDead := by
  unfold State.modHalf; split <;> rfl
@[simp] theorem State.modHalf_collWait (h : Nat) (f : Half → Half) : (s.modHalf h f).collWait = s.collWait := by
  unfold State.modHalf; split <;> rfl
@[simp] theorem State.modHalf_streams (h : Nat) (f : Half → Half) : (s.modHalf h f).streams = s.streams := by
  unfold State.modHalf; split <;> rfl
@[simp] theorem State.modHalf_mesh (h : Nat) (f : Half → Half) : (s.modHalf h f).mesh = s.mesh := by
  unfold State.modHalf; split <;> rfl
@[simp] theorem State.modHalf_detHold (h : Nat) (f : Half → Half) : (s.modHalf h f).detHold = s.detHold := by
  unfold State.modHalf; split <;> rfl
@[simp] theorem State.modHalf_ledPend (h : Nat) (f : Half → Half) : (s.modHalf h f).ledPend = s.ledPend := by
  unfold State.modHalf; split <;> rfl
@[simp] theorem State.modHalf_ledGap (h : Nat) (f : Half → Half) : (s.modHalf h f).ledGap = s.ledGap := by
  unfold State.modHalf; split <;> rfl
@[simp] theorem State.modHalf_ledRd (h : Nat) (f : Half → Half) : (s.modHalf h f).ledRd = s.ledRd := by
  unfold State.modHalf; split <;> rfl
@[simp] theorem State.modHalf_ledIn (h : Nat) (f : Half → Half) : (s.modHalf h f).ledIn = s.ledIn := by
  unfold State.modHalf; split <;> rfl
@[simp] theorem State.modHalf_ledWant (h : Nat) (f : Half → Half) : (s.modHalf h f).ledWant = s.ledWant := by
  unfold State.modHalf; split <;> rfl
@[simp] theorem State.modHalf_decision (h : Nat) (f : Half → Half) : (s.modHalf h f).decision = s.decision := by
  unfold State.modHalf; split <;> rfl
@[simp] theorem State.modHalf_stageWait (h : Nat) (f : Half → Half) : (s.modHalf h f).stageWait = s.stageWait := by
  unfold State.modHalf; split <;> rfl
@[simp] theorem State.modHalf_keys (h : Nat) (f : Half → Half) : (s.modHalf h f).keys = s.keys := by
  unfold State.modHalf; split <;> rfl
@[simp] theorem State.modHalf_keyLoad (h : Nat) (f : Half → Half) : (s.modHalf h f).keyLoad = s.keyLoad := by
  unfold State.modHalf; split <;> rfl
@[simp] theorem State.modHalf_far (h : Nat) (f : Half → Half) : (s.modHalf h f).far = s.far := by
  unfold State.modHalf; split <;> rfl
@[simp] theorem State.modHalf_ctxs (h : Nat) (f : Half → Half) : (s.modHalf h f).ctxs = s.ctxs := by
  unfold State.modHalf; split <;> rfl
@[simp] theorem State.modHalf_switches (h : Nat) (f : Half → Half) : (s.modHalf h f).switches = s.switches := by
  unfold State.modHalf; split <;> rfl
@[simp] theorem State.modHalf_occup (h : Nat) (f : Half → Half) : (s.modHalf h f).occup = s.occup := by
  unfold State.modHalf; split <;> rfl
@[simp] theorem State.modHalf_dmas (h : Nat) (f : Half → Half) : (s.modHalf h f).dmas = s.dmas := by
  unfold State.modHalf; split <;> rfl
@[simp] theorem State.modHalf_sent (h : Nat) (f : Half → Half) : (s.modHalf h f).sent = s.sent := by
  unfold State.modHalf; split <;> rfl

/-! ## What is written -/

@[simp] theorem State.emit_sent (o : Out) : (s.emit o).sent = s.sent ++ [o] := (rfl)
@[simp] theorem State.emits_sent (os : List Out) : (s.emits os).sent = s.sent ++ os := (rfl)
@[simp] theorem State.freshen_fresh : s.freshen.fresh = s.fresh + 1 := (rfl)
@[simp] theorem State.report_reports (half typ sev src addr detail : Nat) :
    (s.report half typ sev src addr detail).reports = s.reports ++ [⟨half, typ, sev, src, addr, detail, s.now⟩] := (rfl)
@[simp] theorem State.withPending_pending (cs : List Instr) : (s.withPending cs).pending = cs := (rfl)

/-- A register reads back as it was written, and every other register is unchanged. -/
theorem State.reg_setReg (a b : Nat) (v : BitVec 64) : (s.setReg a v).reg b = if b = a then v else s.reg b :=
  SMap.get_set regReset s.regs a b v

@[simp] theorem State.reg_setReg_same (a : Nat) (v : BitVec 64) : (s.setReg a v).reg a = v := by simp [State.reg_setReg]

theorem State.reg_setReg_other (a b : Nat) (v : BitVec 64) (h : b ≠ a) : (s.setReg a v).reg b = s.reg b := by
  simp [State.reg_setReg, h]

theorem State.tile_setTile (t u : Nat) (x : Tile) : (s.setTile t x).tile u = if u = t then x else s.tile u :=
  SMap.get_set (fun _ => Tile.reset) s.tiles t u x

@[simp] theorem State.tile_setTile_same (t : Nat) (x : Tile) : (s.setTile t x).tile t = x := by simp [State.tile_setTile]

theorem State.tile_setTile_other (t u : Nat) (x : Tile) (h : u ≠ t) : (s.setTile t x).tile u = s.tile u := by
  simp [State.tile_setTile, h]

@[simp] theorem State.tile_modTile_same (t : Nat) (f : Tile → Tile) : (s.modTile t f).tile t = f (s.tile t) := by
  simp [State.modTile]

theorem State.tile_modTile_other (t u : Nat) (f : Tile → Tile) (h : u ≠ t) : (s.modTile t f).tile u = s.tile u := by
  simp [State.modTile, State.tile_setTile, h]

@[simp] theorem State.ctx_modCtx_same (c : Nat) (f : Ctx → Ctx) : (s.modCtx c f).ctx c = f (s.ctx c) :=
  SMap.get_set_same _ _ _ _

@[simp] theorem State.port_modPort_same (p : Nat) (f : Port → Port) : (s.modPort p f).port p = f (s.port p) :=
  SMap.get_set_same _ _ _ _

theorem State.port_modPort_other (p q : Nat) (f : Port → Port) (h : q ≠ p) : (s.modPort p f).port q = s.port q :=
  SMap.get_set_other _ _ _ _ _ h

@[simp] theorem State.engine_modEngine_same (n e : Nat) (f : Engine → Engine) :
    (s.modEngine n e f).engine n e = f (s.engine n e) := SMap.get_set_same _ _ _ _

@[simp] theorem State.stackU_modStack_same (n : Nat) (f : Stack → Stack) : (s.modStack n f).stackU n = f (s.stackU n) :=
  SMap.get_set_same _ _ _ _

@[simp] theorem State.stream_modStream_same (q : Nat) (f : Stream → Stream) : (s.modStream q f).stream q = f (s.stream q) :=
  SMap.get_set_same _ _ _ _

@[simp] theorem State.grp_modGrp_same (g : Nat) (f : SigGrp → SigGrp) : (s.modGrp g f).grp g = f (s.grp g) :=
  SMap.get_set_same _ _ _ _

/-- Registers and tiles are read through one field each. -/
theorem State.reg_congr {s u : State} (h : s.regs = u.regs) (a : Nat) : s.reg a = u.reg a := by unfold State.reg; rw [h]
theorem State.tile_congr {s u : State} (h : s.tiles = u.tiles) (t : Nat) : s.tile t = u.tile t := by unfold State.tile; rw [h]

@[simp] theorem State.reg_setTile (t : Nat) (x : Tile) (a : Nat) : (s.setTile t x).reg a = s.reg a := (rfl)
@[simp] theorem State.reg_modTile (t : Nat) (f : Tile → Tile) (a : Nat) : (s.modTile t f).reg a = s.reg a := (rfl)
@[simp] theorem State.reg_emit (o : Out) (a : Nat) : (s.emit o).reg a = s.reg a := (rfl)
@[simp] theorem State.tile_setReg (a : Nat) (v : BitVec 64) (t : Nat) : (s.setReg a v).tile t = s.tile t := (rfl)
@[simp] theorem State.tile_setFld (f : Fld) (v : Nat) (t : Nat) : (s.setFld f v).tile t = s.tile t := (rfl)
@[simp] theorem State.fld_setTile (t : Nat) (x : Tile) (f : Fld) : (s.setTile t x).fld f = s.fld f := (rfl)
@[simp] theorem State.fld_modTile (t : Nat) (g : Tile → Tile) (f : Fld) : (s.modTile t g).fld f = s.fld f := (rfl)
@[simp] theorem State.fld_emit (o : Out) (f : Fld) : (s.emit o).fld f = s.fld f := (rfl)

end Sys2Proof.Machine
end

