-- ==== Sys2Proof/Laws/Fields.lean ====
section
/-! SUPPORT. Bit fields and register fields: a field reads back as written, and writing it leaves disjoint fields and other registers
alone. -/

namespace Sys2Proof.Machine

theorem testBit_bitsOf (x lo w i : Nat) : (bitsOf x lo w).testBit i = (decide (i < w) && x.testBit (lo + i)) := by
  simp [bitsOf, Nat.testBit_mod_two_pow, Nat.testBit_shiftRight]

/-- A number cut at the two ends of a field. -/
theorem bits_split (x lo w : Nat) :
    x = 2 ^ (lo + w) * (x / 2 ^ (lo + w)) + (2 ^ lo * bitsOf x lo w + x % 2 ^ lo) := by
  have h1 := Nat.div_add_mod x (2 ^ lo)
  have h2 := Nat.div_add_mod (x / 2 ^ lo) (2 ^ w)
  have h3 : x / 2 ^ (lo + w) = x / 2 ^ lo / 2 ^ w := by rw [Nat.div_div_eq_div_mul, Nat.pow_add]
  have h4 : bitsOf x lo w = x / 2 ^ lo % 2 ^ w := by rw [bitsOf, Nat.shiftRight_eq_div_pow]
  rw [h3, h4, Nat.pow_add, Nat.mul_assoc, ← Nat.add_assoc, ← Nat.mul_add, h2, h1]

theorem putBits_eq (x lo w v : Nat) :
    putBits x lo w v = 2 ^ (lo + w) * (x / 2 ^ (lo + w)) + (2 ^ lo * (v % 2 ^ w) + x % 2 ^ lo) := by
  have h := bits_split x lo w
  have hc : bitsOf x lo w * 2 ^ lo = 2 ^ lo * bitsOf x lo w := Nat.mul_comm _ _
  have hd : v % 2 ^ w * 2 ^ lo = 2 ^ lo * (v % 2 ^ w) := Nat.mul_comm _ _
  unfold putBits; rw [hc, hd]; omega

theorem testBit_putBits (x lo w v i : Nat) :
    (putBits x lo w v).testBit i = if lo ≤ i ∧ i < lo + w then v.testBit (i - lo) else x.testBit i := by
  have hl : x % 2 ^ lo < 2 ^ lo := Nat.mod_lt _ (by positivity)
  have hv : v % 2 ^ w < 2 ^ w := Nat.mod_lt _ (by positivity)
  have hm : 2 ^ lo * (v % 2 ^ w) + x % 2 ^ lo < 2 ^ (lo + w) := by
    rw [Nat.pow_add]; nlinarith [Nat.mul_le_mul_left (2 ^ lo) (Nat.succ_le_of_lt hv)]
  rw [putBits_eq, Nat.testBit_two_pow_mul_add _ hm, Nat.testBit_two_pow_mul_add _ hl]
  by_cases h1 : i < lo
  · have h2 : i < lo + w := by omega
    have h3 : ¬ lo ≤ i := by omega
    simp [h1, h2, h3, Nat.testBit_mod_two_pow]
  · have h3 : lo ≤ i := by omega
    by_cases h2 : i < lo + w
    · have : i - lo < w := by omega
      simp [h1, h2, h3, this, Nat.testBit_mod_two_pow]
    · simp only [h2, h3, if_false, and_false, Nat.testBit_div_two_pow]
      congr 1; omega

theorem bitsOf_putBits_same (x lo w v : Nat) : bitsOf (putBits x lo w v) lo w = v % 2 ^ w := by
  apply Nat.eq_of_testBit_eq; intro i
  rw [testBit_bitsOf, testBit_putBits, Nat.testBit_mod_two_pow]
  by_cases h : i < w <;> simp [h]

theorem bitsOf_putBits_other (x lo w v lo' w' : Nat) (h : lo + w ≤ lo' ∨ lo' + w' ≤ lo) :
    bitsOf (putBits x lo w v) lo' w' = bitsOf x lo' w' := by
  apply Nat.eq_of_testBit_eq; intro i
  rw [testBit_bitsOf, testBit_bitsOf, testBit_putBits]
  by_cases hi : i < w'
  · have : ¬ (lo ≤ lo' + i ∧ lo' + i < lo + w) := by omega
    simp [hi, this]
  · simp [hi]

theorem putBits_lt (x lo w v n : Nat) (hx : x < 2 ^ n) (h : lo + w ≤ n) : putBits x lo w v < 2 ^ n := by
  apply Nat.lt_pow_two_of_testBit; intro i hi
  rw [testBit_putBits, if_neg (by omega)]
  exact Nat.testBit_lt_two_pow (Nat.lt_of_lt_of_le hx (Nat.pow_le_pow_right (by omega) hi))

variable (s : State)

theorem State.reg_setFld_same (f : Fld) (v : Nat) :
    (s.setFld f v).reg f.addr = BitVec.ofNat 64 (putBits (s.reg f.addr).toNat f.lo f.w v) := by
  simp [State.setFld]

theorem State.reg_setFld_other (f : Fld) (v a : Nat) (h : a ≠ f.addr) : (s.setFld f v).reg a = s.reg a := by
  simp [State.setFld, State.reg_setReg, h]

/-- A field reads back as it was written, cut to its width. -/
theorem State.fld_setFld_same (f : Fld) (v : Nat) (hf : f.lo + f.w ≤ 64) : (s.setFld f v).fld f = v % 2 ^ f.w := by
  have := putBits_lt (s.reg f.addr).toNat f.lo f.w v 64 (BitVec.isLt _) hf
  rw [State.fld, State.reg_setFld_same, BitVec.toNat_ofNat, Nat.mod_eq_of_lt this, bitsOf_putBits_same]

/-- Two fields that share no bit. -/
def Fld.disjoint (f g : Fld) : Prop := f.addr ≠ g.addr ∨ f.lo + f.w ≤ g.lo ∨ g.lo + g.w ≤ f.lo

/-- Writing a field leaves every field that shares no bit with it alone. -/
theorem State.fld_setFld_other (f g : Fld) (v : Nat) (hf : f.lo + f.w ≤ 64) (h : f.disjoint g) :
    (s.setFld f v).fld g = s.fld g := by
  by_cases ha : g.addr = f.addr
  · have hd : f.lo + f.w ≤ g.lo ∨ g.lo + g.w ≤ f.lo := by
      rcases h with h | h
      · exact absurd ha.symm h
      · exact h
    have := putBits_lt (s.reg f.addr).toNat f.lo f.w v 64 (BitVec.isLt _) hf
    rw [State.fld, State.fld, ha, State.reg_setFld_same, BitVec.toNat_ofNat, Nat.mod_eq_of_lt this, bitsOf_putBits_other _ _ _ _ _ _ hd]
  · rw [State.fld, State.fld, State.reg_setFld_other _ _ _ _ ha]

theorem State.fld_setReg_other (a : Nat) (v : BitVec 64) (g : Fld) (h : g.addr ≠ a) : (s.setReg a v).fld g = s.fld g := by
  rw [State.fld, State.fld, State.reg_setReg_other _ _ _ _ h]

/-- A counter field counts up to its largest value and stays there. -/
theorem State.fld_bump (f : Fld) (n : Nat) (hf : f.lo + f.w ≤ 64) : (s.bump f n).fld f = min (2 ^ f.w - 1) (s.fld f + n) := by
  have hp : 0 < 2 ^ f.w := by positivity
  rw [State.bump, State.fld_setFld_same _ _ _ hf, satAdd, Nat.mod_eq_of_lt]
  omega

end Sys2Proof.Machine
end

