-- ==== Sys2Proof/Laws/Issue.lean ====
section
/-! SUPPORT. What the issue of an instruction does: a clean fetch changes nothing, and an instruction that is due does what its body
says. -/

namespace Sys2Proof.Machine

/-- A reader that answers each place with a value and leaves the state alone reads the list of values. -/
theorem readMany_pure (f : State → Nat → (Nat × Bool) × State) (g : Nat → Nat × Bool) (s : State) (l : List Nat)
    (h : ∀ o ∈ l, f s o = (g o, s)) : readMany f s l = (l.map g, s) := by
  induction l with
  | nil => rfl
  | cons o os ih =>
    have h1 := h o List.mem_cons_self
    have h2 := ih fun p hp => h p (List.mem_cons_of_mem _ hp)
    simp [readMany, h1, h2]

/-- A byte without error reads without a trace. -/
theorem State.bankByte_clean (s : State) (t off unit : Nat) (h : (s.tile t).clean off = true) :
    s.bankByte t off unit = (((s.tile t).classOf off).value, s) := by
  unfold State.bankByte Tile.clean at *
  split at h
  · next d hd => simp [hd, State.noteByte]
  · cases h

/-- Bank bytes without error read without a trace. -/
theorem State.winRead_clean (s : State) (t off n unit : Nat) (hb : off + n ≤ 0x200000)
    (h : ∀ k < n, (s.tile t).clean (off + k) = true) :
    s.winRead t off n unit = ((List.range n).map fun k => ((s.tile t).classOf (off + k)).value, s) := by
  unfold State.winRead
  rw [readMany_pure _ (fun o => ((s.tile t).classOf o).value)]
  · simp [Function.comp_def]
  · intro o ho
    obtain ⟨k, hk, rfl⟩ := List.mem_map.mp ho
    have hk := List.mem_range.mp hk
    have : off + k < 0x200000 := by omega
    rw [State.winByte, if_pos this, State.bankByte_clean _ _ _ _ (h k hk)]

theorem State.pc_lt (s : State) (t : Nat) : s.pc t < 8192 := Nat.mod_lt _ (show 0 < 2 ^ 13 by decide)

/-- The fetch of a word that reads clean is that word, and leaves the state alone. -/
theorem State.fetch_wordIs (s : State) (t w : Nat) (h : (s.tile t).wordIs (s.pc t) w = true) :
    anyPois (s.fetch t).1 = false ∧ valOf (s.fetch t).1 = w ∧ (s.fetch t).2 = s := by
  have hp := s.pc_lt t
  simp only [Tile.wordIs, Bool.and_eq_true, List.all_eq_true, List.mem_range, beq_iff_eq] at h
  have hr := State.winRead_clean s t (0x1F0000 + s.pc t * 8) 8 uFetch (by omega) h.1
  have hw := h.2
  unfold State.fetch; rw [hr]
  simp only [Tile.word, Nat.mul_comm 8] at hw
  split at hw
  · cases hw
  · next hn => exact ⟨by simpa using hn, Option.some.inj hw, rfl⟩

/-- Everything an instruction that is due and executes does. -/
theorem State.issue_issues {s : State} {t cls op : Nat} {b : BitVec 54} {rsv : Nat} {regs : List Nat}
    (h : s.issues t cls op b rsv regs = true) (fuseOk : Nat → Bool) (body : State → Act) :
    s.issue t cls op b rsv regs fuseOk body = s.perform t s (body s) := by
  simp only [State.issues, State.due, Bool.and_eq_true, beq_iff_eq, Option.isNone_iff_eq_none] at h
  obtain ⟨⟨⟨⟨⟨hc, hw⟩, hr⟩, hf⟩, he⟩, hg⟩ := h
  obtain ⟨h1, h2, h3⟩ := State.fetch_wordIs s t _ hw
  have hp : ¬ ∃ r ∈ regs, r ∈ (s.tile t).pendRegs := by
    rintro ⟨r, hr', hm⟩
    have := List.all_eq_true.mp hg r hr'
    simp [hm] at this
  simp [State.issue, hc, h1, h2, h3, hr, hf, he, hp]

/-! ## Moving on -/

@[simp] theorem State.tile_setPc (s : State) (t n k : Nat) : (s.setPc t n).tile k = s.tile k := by
  unfold State.setPc; exact State.tile_setFld _ _ _ _

theorem TSQSTAT_PC_w (t : Nat) : (TSQSTAT_PC t).w = 13 := (rfl)
theorem TSQSTAT_PC_lo (t : Nat) : (TSQSTAT_PC t).lo = 16 := (rfl)
theorem TSQSTAT_PC_addr (t : Nat) : (TSQSTAT_PC t).addr = aTSQSTAT t := (rfl)

@[simp] theorem State.pc_setPc (s : State) (t n : Nat) : (s.setPc t n).pc t = n % 8192 := by
  unfold State.setPc State.pc
  rw [State.fld_setFld_same _ _ _ (by rw [TSQSTAT_PC_w, TSQSTAT_PC_lo]; omega), TSQSTAT_PC_w]
  omega

theorem State.reg_setPc (s : State) (t n a : Nat) (h : a ≠ aTSQSTAT t) : (s.setPc t n).reg a = s.reg a := by
  unfold State.setPc; rw [State.reg_setFld_other]; rwa [TSQSTAT_PC_addr]

@[simp] theorem State.pc_modTile (s : State) (t k : Nat) (f : Tile → Tile) : (s.modTile t f).pc k = s.pc k := (rfl)
@[simp] theorem State.pc_setTile (s : State) (t k : Nat) (x : Tile) : (s.setTile t x).pc k = s.pc k := (rfl)

/-- u is s but for tile t and its TSQSTAT. -/
structure State.OnlyTile (t : Nat) (s u : State) : Prop where
  tiles : s.sameTilesBut u t
  regs : s.sameRegs u [aTSQSTAT t]
  rest : s.sameRest u

theorem State.OnlyTile.refl (t : Nat) (s : State) : State.OnlyTile t s s :=
  ⟨fun _ _ => rfl, fun _ _ => rfl, by simp [State.sameRest]⟩

theorem State.OnlyTile.trans {t : Nat} {s u v : State} (h : State.OnlyTile t s u) (g : State.OnlyTile t u v) :
    State.OnlyTile t s v := by
  refine ⟨fun k hk => (g.tiles k hk).trans (h.tiles k hk), fun a ha => (g.regs a ha).trans (h.regs a ha), ?_⟩
  have h1 := h.rest; have h2 := g.rest
  simp only [State.sameRest] at h1 h2 ⊢
  refine ⟨?_, ?_, ?_, ?_, ?_, ?_, ?_, ?_, ?_, ?_, ?_, ?_, ?_, ?_, ?_, ?_, ?_, ?_, ?_⟩ <;> simp_all

theorem State.onlyTile_setTile (s : State) (t : Nat) (x : Tile) : State.OnlyTile t s (s.setTile t x) :=
  ⟨fun _ hk => State.tile_setTile_other _ _ _ _ hk, fun _ _ => rfl, by simp [State.sameRest]⟩

theorem State.onlyTile_modTile (s : State) (t : Nat) (f : Tile → Tile) : State.OnlyTile t s (s.modTile t f) :=
  State.onlyTile_setTile s t _

theorem State.onlyTile_setPc (s : State) (t n : Nat) : State.OnlyTile t s (s.setPc t n) :=
  ⟨fun _ _ => State.tile_setPc _ _ _ _, fun _ ha => State.reg_setPc _ _ _ _ (by simpa using ha), by simp [State.sameRest, State.setPc]⟩

theorem State.tile_ext_lc (x : Tile) : x = { x with lc := x.lc } := (rfl)

/-- Everything moving past an instruction does: loop counters and PC of the tile change, nothing else. -/
theorem State.advance_spec (s : State) (t : Nat) :
    State.OnlyTile t s (s.advance t) ∧ (∃ l, (s.advance t).tile t = { s.tile t with lc := l }) ∧
      (s.noLoopEnd t → (s.advance t).pc t = s.seqPc t ∧ (s.advance t).tile t = s.tile t) := by
  cases h : (s.tile t).loopAt (s.pc t) with
  | none =>
    have e : s.advance t = s.setPc t (s.pc t + 1) := by simp only [State.advance, h]
    rw [e]
    exact ⟨s.onlyTile_setPc t _, ⟨(s.tile t).lc, rfl⟩, fun _ => ⟨State.pc_setPc _ _ _, State.tile_setPc _ _ _ _⟩⟩
  | some c =>
    have e : ∃ l n, s.advance t = (s.setTile t ((s.tile t).setLoop c l)).setPc t n := by
      simp only [State.advance, h]
      split
      · exact ⟨_, _, rfl⟩
      · exact ⟨_, _, rfl⟩
    obtain ⟨l, n, e⟩ := e
    rw [e]
    refine ⟨(s.onlyTile_setTile t _).trans (State.onlyTile_setPc _ t _), ⟨((s.tile t).setLoop c l).lc, ?_⟩, fun hn => absurd (hn.symm.trans h) (by simp)⟩
    rw [State.tile_setPc, State.tile_setTile_same]; rfl

end Sys2Proof.Machine
end

