-- ==== Sys2Proof/Machine/Geometry.lean ====
section
/-! DEFINITION. Where things are: tile coordinates and blocks (R18 to R20), the route of a packet over the mesh and the bridge (R22 to
R24, R84), the edge attachments (R26, R27), and the package's ball map (R532 to R535). -/

namespace Sys2Proof.Machine

/-- A tile by half, row (north to south) and column (west to east), R18. -/
structure Coord where
  h : Nat
  y : Nat
  x : Nat
  deriving DecidableEq, Repr

/-- R18: t = h × 1024 + y × 32 + x. -/
def tileAt (k : Coord) : Nat := k.h * 1024 + k.y * 32 + k.x

/-- R18: a tile's coordinates from its number. -/
def coordOf (t : Nat) : Coord := ⟨t / 1024, t % 1024 / 32, t % 32⟩

/-- R19: b = h × 64 + (y div 4) × 8 + (x div 4). -/
def blockAt (k : Coord) : Nat := k.h * 64 + k.y / 4 * 8 + k.x / 4

/-- R19: the sixteen tiles of a block, ascending. -/
def tilesOfBlock (b : Nat) : List Nat :=
  (List.range 16).map fun i => tileAt ⟨b / 64, 4 * (b % 64 / 8) + i / 4, 4 * (b % 8) + i % 4⟩

/-! ## Routing (R22 to R24) -/

/-- The column of a half's routers that the bridge joins (R22): 31 on Half 0, 0 on Half 1. -/
def bridgeCol (h : Nat) : Nat := if h = 0 then 31 else 0

/-- The link is working: its bit of GBRIDGE.LINKOK. -/
def linkOk (ok y : Nat) : Bool := ok.testBit y

/-- R24: the row on which traffic of row y crosses: its own when its link works, else the nearest row with a working link, the
northern (smaller) one of two equally near; none where no link works (R25). -/
def crossRow (ok y : Nat) : Option Nat :=
  ((List.range 32).flatMap fun d => (if d ≤ y then [y - d] else []) ++ (if y + d < 32 then [y + d] else [])).find? (linkOk ok)

/-- The columns or rows passed going from a to b, a left out. -/
def strideTo (a b : Nat) : List Nat :=
  if a ≤ b then (List.range (b - a)).map (a + 1 + ·) else (List.range (a - b)).map (a - 1 - ·)

/-- Routers passed moving along x. -/
def alongX (k : Coord) (x : Nat) : List Coord := (strideTo k.x x).map fun v => { k with x := v }
/-- Routers passed moving along y. -/
def alongY (k : Coord) (y : Nat) : List Coord := (strideTo k.y y).map fun v => { k with y := v }

/-- R23, R24: the routers a packet passes from a to b, a left out: within a half along x then y; to the other half along its row to the
bridge, along y to a working row where its own link is mapped out, across, then along x and y. none: no bridge link works. -/
def meshPath (ok : Nat) (a b : Coord) : Option (List Coord) :=
  if a.h = b.h then some (alongX a b.x ++ alongY { a with x := b.x } b.y)
  else (crossRow ok a.y).map fun r =>
    let e : Coord := { a with x := bridgeCol a.h }
    let f : Coord := ⟨b.h, r, bridgeCol b.h⟩
    alongX a e.x ++ alongY e r ++ [f] ++ alongX f b.x ++ alongY { f with x := b.x } b.y

/-- R84: the unloaded cost of a path in beats: 2 for each hop and 6 for the bridge. -/
def pathBeats : Coord → List Coord → Nat
  | _, [] => 0
  | a, b :: bs => (if a.h = b.h then 2 else 6) + pathBeats b bs

/-! ## Edge attachments (R26, R27) -/

/-- A unit at the edge of the mesh (Table 1.2). -/
inductive EdgeUnit where
  | stack (n : Nat)
  | port (n : Nat)
  | pcie
  | far (n : Nat)
  | mgc (h : Nat)
  deriving DecidableEq, Repr

/-- Table 1.2: the tiles whose routers a unit attaches to. -/
def attachTiles : EdgeUnit → List Nat
  | .stack n => (List.range 16).map fun i => tileAt ⟨n / 4, if n % 4 < 2 then 0 else 31, 16 * (n % 2) + i⟩
  | .port n => [0, 1].map fun i => tileAt ⟨n / 4, 2 + 8 * (n % 4) + i, if n < 4 then 0 else 31⟩
  | .pcie => [0, 1].map fun i => tileAt ⟨0, 6 + i, 0⟩
  | .far n => [0, 1].map fun i => tileAt ⟨n, 14 + i, if n = 0 then 0 else 31⟩
  | .mgc h => [0, 1].map fun i => tileAt ⟨h, 16 + i, if h = 0 then 0 else 31⟩

/-- R27: the attachment router that inbound traffic bound for a tile leaves its unit by: of a stack's sixteen by the tile's column
mod 16, of two by the tile number's lowest bit. -/
def inboundTile (u : EdgeUnit) (t : Nat) : Option Nat :=
  match u with
  | .stack _ => (attachTiles u)[(coordOf t).x % 16]?
  | _ => (attachTiles u)[t % 2]?

/-! ## The package (R532 to R535) -/

/-- A ball position, row and column from 1 to 106 (R532). -/
structure Ball where
  row : Nat
  col : Nat
  deriving DecidableEq, Repr

/-- R532: the four corner squares and the centre square hold no ball. -/
def Ball.empty (b : Ball) : Bool :=
  ((decide (b.row ≤ 5) || decide (102 ≤ b.row)) && (decide (b.col ≤ 5) || decide (102 ≤ b.col)))
    || (decide (49 ≤ b.row) && decide (b.row ≤ 58) && decide (49 ≤ b.col) && decide (b.col ≤ 58))

/-- R532: the grid is 106 by 106. -/
def Ball.onGrid (b : Ball) : Bool := decide (1 ≤ b.row) && decide (b.row ≤ 106) && decide (1 ≤ b.col) && decide (b.col ≤ 106)

/-- The low-speed signals of Table 17.7 but for the xSPI data. -/
inductive Sig where
  | porst | warmrst | perst | alert | thermtrip | haltA | haltB | cfgsel | xspiCk | xspiCs | xspiDs | xspiReset
  | tck | tms | tdi | tdo | trst
  deriving DecidableEq, Repr

/-- What a ball carries. -/
inductive Net where
  | gnd
  | vin48
  | v3p3sb
  /-- lane of a unit: Miltum port, far port or PCIe; transmit or receive; positive or negative -/
  | lane (u : EdgeUnit) (l : Nat) (tx pos : Bool)
  /-- a reference clock, by the first letters of its name: 0 SYS, 1 PCIE, 2 MREF0, 3 MREF1, 4 FREF0, 5 FREF1 -/
  | refclk (n : Nat) (pos : Bool)
  | low (g : Sig)
  | xspiIo (i : Nat)
  | test (i : Nat)
  deriving DecidableEq, Repr

/-- R533: lanes of a unit. -/
def edgeLanes : EdgeUnit → Nat
  | .port _ => 8
  | .far _ => 8
  | .pcie => 16
  | _ => 0

/-- R533, Table 17.8: the pair of a lane, positive ball first, before the exchanges of R534. -/
def lanePair (u : EdgeUnit) (l : Nat) (tx : Bool) : Ball × Ball :=
  match u with
  | .port p =>
    let r := 7 + 24 * (p % 4) + 3 * l
    let k := if tx then 2 else 6
    if p < 4 then (⟨r, k⟩, ⟨r, k + 1⟩) else (⟨r, 107 - k⟩, ⟨r, 107 - (k + 1)⟩)
  | .far f =>
    let r := 40 + 3 * l
    let k := if tx then 11 else 15
    if f = 0 then (⟨r, k⟩, ⟨r, k + 1⟩) else (⟨r, 107 - k⟩, ⟨r, 107 - (k + 1)⟩)
  | _ => let r := if tx then 102 else 105
         (⟨r, 20 + 4 * l⟩, ⟨r, 21 + 4 * l⟩)

/-- R534: the four pairs whose balls are exchanged. -/
def laneSwapped (u : EdgeUnit) (l : Nat) (tx : Bool) : Bool :=
  (decide (u = .port 0) && l == 0 && tx) || (decide (u = .port 4) && l == 0 && tx)
    || (decide (u = .pcie) && (l == 0 || l == 8) && !tx)

/-- The ball of one side of a lane's pair. -/
def laneBall (u : EdgeUnit) (l : Nat) (tx pos : Bool) : Ball :=
  let q := lanePair u l tx
  if pos != laneSwapped u l tx then q.1 else q.2

/-- The units with high-speed lanes. -/
def laneUnits : List EdgeUnit := (List.range 8).map .port ++ [.far 0, .far 1, .pcie]

/-- What a position carries. -/
def ballNet (r c : Nat) (n : Net) : Ball × Net := (⟨r, c⟩, n)

/-- Table 17.7: the low-speed signals but for the xSPI data. -/
def lowNets : List (Ball × Net) :=
  [ballNet 10 20 (.low .porst), ballNet 10 22 (.low .warmrst), ballNet 10 24 (.low .perst), ballNet 10 26 (.low .alert),
   ballNet 10 28 (.low .thermtrip), ballNet 12 20 (.low .haltA), ballNet 12 24 (.low .haltB), ballNet 12 28 (.low .cfgsel),
   ballNet 14 20 (.low .xspiCk), ballNet 14 22 (.low .xspiCs), ballNet 14 24 (.low .xspiDs), ballNet 14 26 (.low .xspiReset),
   ballNet 18 20 (.low .tck), ballNet 18 22 (.low .tms), ballNet 18 24 (.low .tdi), ballNet 18 26 (.low .tdo),
   ballNet 18 28 (.low .trst)]

/-- Table 17.7: the reference clocks. -/
def clockNets : List (Ball × Net) :=
  [ballNet 20 20 (.refclk 0 true), ballNet 20 21 (.refclk 0 false), ballNet 100 40 (.refclk 1 true),
   ballNet 100 41 (.refclk 1 false), ballNet 3 10 (.refclk 2 true), ballNet 3 11 (.refclk 2 false),
   ballNet 3 97 (.refclk 3 true), ballNet 3 96 (.refclk 3 false), ballNet 37 11 (.refclk 4 true),
   ballNet 37 12 (.refclk 4 false), ballNet 37 96 (.refclk 5 true), ballNet 37 95 (.refclk 5 false)]

/-- Tables 17.6 and 17.7: what stands at the fixed positions. -/
def fixedNets : List (Ball × Net) :=
  lowNets ++ (clockNets ++ ((List.range 8).map (fun i => ballNet 16 (20 + 2 * i) (.xspiIo i))
    ++ (List.range 16).map (fun i => ballNet 22 (20 + 2 * i) (.test i))))

/-- The lane balls. -/
def laneNets : List (Ball × Net) :=
  laneUnits.flatMap fun u => (List.range (edgeLanes u)).flatMap fun l =>
    [(true, true), (true, false), (false, true), (false, false)].map fun (q : Bool × Bool) => (laneBall u l q.1 q.2, .lane u l q.1 q.2)

/-- R532, Table 17.6: what a position carries; none: no ball there. -/
def netAt (b : Ball) : Option Net :=
  if !b.onGrid || b.empty then none
  else if 90 ≤ b.row ∧ b.row ≤ 97 ∧ 45 ≤ b.col ∧ b.col ≤ 60 then some .vin48
  else if b.row = 99 ∧ 45 ≤ b.col ∧ b.col ≤ 52 then some .v3p3sb
  else match (laneNets ++ fixedNets).find? fun e => e.1 == b with
    | some e => some e.2
    | none => some .gnd

end Sys2Proof.Machine
end

