-- ==== Sys2Proof/Tests/Slice0.lean ====
section
/-! SUPPORT. Small tests: ill-formed commands are refused, every statement's hypotheses are met by a state, and worked examples of the
manual. -/

namespace Sys2Proof.Tests
open Sys2Proof Sys2Proof.Machine

set_option maxRecDepth 20000

/-! ## Small states -/

/-- An operand of an instruction word: fields (low bit, value). -/
def ops (l : List (Nat × Nat)) : BitVec 54 := BitVec.ofNat 54 ((l.map fun f => f.2 * 2 ^ f.1).sum)

/-- Bytes of a bank from an offset, each with its check field. -/
def bank (off : Nat) (bs : List Nat) : SMap (Option Code13) := (bs.zipIdx).map fun b => (off + b.2, some (codeWord b.1 0))

/-- A firmware context of partition 0. -/
def fwCtx : CtxCfg :=
  { part := some 0, fw := true, training := true, implicit := false, ftz := false, spill := 2048, saveMask := 0, waitTo := 100000, saveOff := 0,
    stile := none, sidx := 0, sprog := 0, groups := [7], streams := [1] }

/-- Partition 0 holds blocks 0 and 1 (tiles 0 to 7), 64 KiB of stack 0 and ranks 0 to 3; context 0 is its firmware context; 1 is another's. -/
def img : Image :=
  { Image.empty with
    parts := [(0, { scn := 1, depth := 4, quantum := 10000, blocks := [0, 1], stkr := [(0, 0x10000)], rankr := [(0, 3)] })]
    ctxs := [(0, fwCtx), (1, { fwCtx with fw := false, groups := [], streams := [] })] }

/-- The image is applied, stack 0 is initialised with all its channels, and context 0 holds partition 0. -/
def up : State :=
  ((((({ State.reset with boot := .up, held := [], img := img }.setFld (HPSTAT_HELD 0) 1).setFld (SSTAT_INITD 0) 1).setFld (SSTAT_LIVE 0) 32).setFld
    (SCHMAP_LIVEMAP 0) (2 ^ 32 - 1))).setFld HLINK_UP 1

/-- A state with fields set. -/
def withF (s : State) (l : List (Fld × Nat)) : State := l.foldl (fun s f => s.setFld f.1 f.2) s

/-- Registers given by address. -/
def withR (s : State) (l : List (Nat × Nat)) : State := l.foldl (fun s f => s.setReg f.1 (BitVec.ofNat 64 f.2)) s

/-- Tile 3 runs at index 5 with registers and a bank. -/
def run (x : Tile) : State := ((up.setFld (TSQSTAT_STATE 3) stRunning).setPc 3 5).setTile 3 x

/-- The tile's word at index 5. -/
def word (cls op : Nat) (b : BitVec 54) : SMap (Option Code13) := bank (0x1F0000 + 40) (leBytes 8 (rowWord cls op b))

/-- Tile 3 with s1 = a, s2 = c, a1 = v. -/
def regs (a c v : Nat) : Tile := { Tile.reset with s := [(1, BitVec.ofNat 64 a), (2, BitVec.ofNat 64 c)], a := [(1, BitVec.ofNat 64 v)] }

/-- Tile 3 runs with an instruction at PC and bytes below it. -/
def at5 (x : Tile) (cls op : Nat) (b : BitVec 54) : State := run { x with bank := x.bank ++ word cls op b }

/-! ## Witnesses: states that meet the statements' hypotheses -/

/-- The queue's two clauses. -/
theorem wit_queue : ({ up with pending := [Instr.stopCommand 0 0] } : State).pending = [.stopCommand 0 0] ∧ up.pending = [] := by decide

/-- s3 from s1 and s2, at s3 = s31 and s0 as well. -/
theorem wit_scalarR : (scalarR.all fun r => [(3, 1, 2), (31, 0, 31)].all fun f =>
    let b := ops [(45, f.1), (40, f.2.1), (35, f.2.2)]
    (at5 (regs 7 9 0) 1 r.2.1 b).issues 3 1 r.2.1 b rsvR [fb b 45 5, fb b 40 5, fb b 35 5]) = true := by decide

theorem wit_scalarI : ((scalarI.all fun r =>
    let b := ops [(45, 3), (40, 1), (0, 2 ^ 32 - 1)]
    (at5 (regs 7 9 0) 1 r.2.1 b).issues 3 1 r.2.1 b (rsvOut [(49, 45), (44, 40), (31, 0)]) [fb b 45 5, fb b 40 5])
  && scalarL.all fun r =>
    let b := ops [(45, 3), (0, 2 ^ 32 - 1)]
    (at5 (regs 7 9 0) 1 r.2.1 b).issues 3 1 r.2.1 b (rsvOut [(49, 45), (31, 0)]) [fb b 45 5]) = true := by decide

theorem wit_scalarP : ((scalarC.all fun r =>
    let b := ops [(47, 7), (40, 1), (35, 2)]
    (at5 (regs 7 9 0) 1 r.2.1 b).issues 3 1 r.2.1 b (rsvOut [(49, 47), (44, 40), (39, 35)]) [fb b 40 5, fb b 35 5])
  && scalarP.all fun r =>
    let b := ops [(47, 0), (44, 1), (41, 2)]
    (at5 (regs 7 9 0) 1 r.2.1 b).issues 3 1 r.2.1 b (rsvOut [(49, 47), (46, 44), (43, 41)]) []) = true := by decide

theorem wit_scalarReads :
    (([0x30, 0x31, 0x32].all fun o => (at5 (regs 7 9 0) 1 o (ops [(45, 3)])).issues 3 1 o (ops [(45, 3)]) (rsvOut [(49, 45)]) [3])
  && ([0x10, 0x12, 0x11].all fun o =>
    let b := ops [(45, 1), (41, 1), (37, 1)]
    (at5 (regs 7 9 0) 2 o b).issues 3 2 o b rsvMem [fb b 45 5])
  && (at5 (regs 7 9 0) 2 0x13 (ops [(41, 1), (37, 1), (0, 2 ^ 20 - 1)])).issues 3 2 0x13 (ops [(41, 1), (37, 1), (0, 2 ^ 20 - 1)]) rsvMem []) = true := by
  decide

theorem wit_control :
    ((at5 (regs 7 9 0) 0 0 0).issues 3 0 0 0 (rsvOut []) [] && (at5 (regs 7 9 0) 0 1 (ops [(0, 2 ^ 14 - 6)])).issues 3 0 1 (ops [(0, 2 ^ 14 - 6)]) (rsvOut [(13, 0)]) []
  && (at5 (regs 7 9 0) 0 2 (ops [(0, 9)])).issues 3 0 2 (ops [(0, 9)]) (rsvOut [(13, 0)]) [31]
  && (at5 (regs 7 9 0) 0 3 (ops [(45, 1)])).issues 3 0 3 (ops [(45, 1)]) (rsvOut [(49, 45)]) [1]
  && ([6, 7].all fun o => (at5 (regs 7 9 0) 0 o (ops [(0, 65535)])).issues 3 0 o (ops [(0, 65535)]) (rsvOut [(15, 0)]) [])) = true := by decide

/-- A tile with loop 2 active from 4 to 5, its count n. -/
def looping (n : Nat) : Tile := { regs 7 9 0 with lc := [(2, ⟨BitVec.ofNat 32 n, 4, 5, true⟩)] }

theorem wit_loops :
    (([0, 3].all fun e =>
      (at5 (regs 7 9 0) 0 4 (ops [(48, 2), (35, e), (30, 1)])).issues 3 0 4 (ops [(48, 2), (35, e), (30, 1)]) (rsvOut [(49, 48), (47, 35), (34, 30)]) [1]
      && (at5 (regs 7 9 0) 0 5 (ops [(48, 2), (35, e), (0, 65535)])).issues 3 0 5 (ops [(48, 2), (35, e), (0, 65535)]) (rsvOut [(49, 48), (47, 35), (15, 0)]) [])
  && (looping 2).loopAt 5 == some 2 && (at5 (looping 1) 0 0 0).issues 3 0 0 0 (rsvOut []) []
  && (at5 (looping 2) 0 1 (ops [(50, 1), (0, 9)])).due 3 0 1 (ops [(50, 1), (0, 9)]) (rsvOut [(13, 0)]) && !(looping 2).executes (ops [(50, 1)])
  && (at5 (looping 2) 0 6 (ops [(0, 7)])).issues 3 0 6 (ops [(0, 7)]) (rsvOut [(15, 0)]) []) = true := by decide

/-- A loop's test as R155 gives it: from index 5 with count 2 to index 4 with count 1; with count 1 on to index 6. -/
theorem test_loop_test :
    ((match exec (.nop 3 0) (at5 (looping 2) 0 0 0) with
      | .next u => u.pc 3 == 4 && ((u.tile 3).loop 2).count == 1
      | _ => false)
  && match exec (.nop 3 0) (at5 (looping 1) 0 0 0) with
      | .next u => u.pc 3 == 6 && !((u.tile 3).loop 2).active
      | _ => false) = true := by decide

/-- A bank written byte by byte reads each byte back clean. -/
theorem get_bank (off : Nat) : ∀ (bs : List Nat) (k : Nat), k < bs.length → SMap.get (fun _ => none) (bank off bs) (off + k) = some (codeWord (nth 0 bs k) 0) := by
  suffices h : ∀ (bs : List Nat) (n k : Nat), k < bs.length →
      SMap.get (fun _ => none) ((bs.zipIdx n).map fun b => (off + b.2, some (codeWord b.1 0))) (off + (n + k)) = some (codeWord (nth 0 bs k) 0) by
    intro bs k hk; simpa [bank] using h bs 0 k hk
  intro bs
  induction bs with
  | nil => intro n k h; simp at h
  | cons b bs ih =>
    intro n k h
    cases k with
    | zero => simp [SMap.get, nth]
    | succ k =>
      have := ih (n + 1) k (by simpa using h)
      simp only [List.zipIdx_cons, List.map_cons, SMap.get]
      rw [if_neg (by omega), show off + (n + (k + 1)) = off + (n + 1 + k) by omega, this]
      simp [nth]

/-- Zero bytes of a bank from an offset. -/
def zeros (off n : Nat) : SMap (Option Code13) := bank off (List.replicate n 0)

theorem zeros_clean (x : Tile) (off n : Nat) (h : x.bank = zeros off n) (hn : off + n ≤ 0x200000) : x.cleanRange off n := by
  refine ⟨hn, fun k hk => ?_⟩
  have hb : nth 0 (List.replicate n 0) k = 0 := by simp [nth, hk]
  have := get_bank off (List.replicate n 0) k (by simpa using hk)
  rw [hb] at this
  simp only [Tile.clean, Tile.classOf, Tile.code, h, zeros, this]
  decide

/-- Device addresses of tile 3's own window. -/
def own (off : Nat) : Nat := tileBase 3 + off

/-- Memory instruction operands: s3, a1, offset 0. -/
def memOps : BitVec 54 := ops [(45, 3), (41, 1)]

theorem wit_loads : (loadRows.all fun r =>
    let s := at5 { regs 7 9 (own 256) with bank := bank 256 [1, 2, 3, 4, 5, 6, 7, 8] } 2 r.2.1 memOps
    let a := memAddr memOps (s.tile 3)
    s.issues 3 2 r.2.1 memOps rsvMem [3] && s.addrOk 3 a r.2.2.1 && a % r.2.2.1 == 0 && s.ownOff 3 a == some 256 && s.isMem (addrDev a) r.2.2.1
      && (s.tile 3).holds 256 r.2.2.1 (ofLE ((List.range r.2.2.1).map (· + 1))) && !s.rangeHold 3 [⟨256, r.2.2.1⟩] [] && !isMbox (addrDev a)
      && [tileBase 2, 0].all fun v =>
        let s := at5 (regs 7 9 v) 2 r.2.1 memOps
        let a := memAddr memOps (s.tile 3)
        s.issues 3 2 r.2.1 memOps rsvMem [3] && s.addrOk 3 a r.2.2.1 && a % r.2.2.1 == 0 && s.isLocal a && (s.ownOff 3 a).isNone
          && !isMbox (addrDev a)
      && [(own 0x300478, true), (own 0x300478 + 2 ^ 48, false)].all fun v =>
        let s := at5 (regs 7 9 v.1) 2 r.2.1 memOps
        let a := memAddr memOps (s.tile 3)
        (v.2 && decide (r.2.2.1 < 8)) || s.issues 3 2 r.2.1 memOps rsvMem [3] && s.addrOk 3 a r.2.2.1 && a % r.2.2.1 == 0 && s.isLocal a == v.2 && (s.ownOff 3 a).isSome == v.2
          && isMbox (addrDev a) && !s.mboxPend 3 && !s.rangeHold 3 [⟨0x300478, r.2.2.1⟩] [] && s.freeTag == some 0 && !s.lineHold 3 a false) = true
  ∧ (loadRows.all fun r => let s := at5 (regs 7 9 (tileBase 8)) 2 r.2.1 memOps
      s.issues 3 2 r.2.1 memOps rsvMem [3] && !s.addrOk 3 (memAddr memOps (s.tile 3)) r.2.2.1) = true := by decide

/-- A load of tile 3 that holds its bytes. -/
def ld (p sg : Bool) : LoadOp := ⟨3, own 256, 2, sg, 5, none, some [(1, p), (0x80, false)]⟩

theorem wit_loadReturn : [ld false true, ld true false].all (fun l =>
    let x := { regs 7 9 0 with loads := [l] }
    (x.loads[0]? == some l) && l.got.isSome && decide (l.width ≤ 8) && x.trap.isNone) = true ∧ anyPois [(1, false), (0x80, false)] = false
    ∧ anyPois [(1, true), (0x80, false)] = true
  ∧ (let l : LoadOp := ⟨3, tileBase 4 + 256, 2, true, 5, none, none⟩;
      let s := (run { regs 7 9 0 with loads := [l] }).setTile 4 { Tile.reset with bank := bank 256 [1, 0x80] };
      (s.tile 3).loads[0]? = some l ∧ s.isLocal l.addr = true ∧ s.addrOk 3 l.addr 2 = true ∧ addrDev l.addr % 2 = 0 ∧ inTileWindow l.addr = true
        ∧ winOff l.addr = 256 ∧ winTile l.addr = 4 ∧ s.isMem (addrDev l.addr) 2 = true ∧ (s.tile 4).holds 256 2 0x8001 = true
        ∧ (s.tile 3).posted = []) := by decide

theorem test_load_sign : (match exec (.loadReturn 3 0) (run { regs 7 9 0 with loads := [ld false true] }) with
    | .next u => (u.tile 3).sreg 3 == BitVec.ofInt 64 (-32767) && (u.tile 3).loads.isEmpty
    | _ => false) = true := by decide

theorem wit_stores : (storeRows.all fun r => [own 256, tileBase 4 + 0x1EFFF8].all fun v =>
    let s := at5 (regs 7 9 v) 2 r.2.1 memOps
    let d := addrDev (memAddr memOps (s.tile 3))
    let k := (d - tileBase 0) / 0x400000
    s.issues 3 2 r.2.1 memOps rsvMem [3] && s.addrOk 3 v r.2.2 && v % r.2.2 == 0 && s.isLocal v && s.isMem d r.2.2
      && decide ((d - tileBase 0) % 0x400000 + r.2.2 ≤ 0x200000) && !(s.tile k).marking && !s.flag (TFLIP_PEND k)
      && !s.rangeHold 3 [] [⟨(d - tileBase 0) % 0x400000, r.2.2⟩] && !s.lineHold 3 v true && !isMbox d && decide (0x8000000000 ≤ d)
      && (s.ownOff 3 v).isSome == (v == own 256)) = true
  ∧ (let s := run { regs 7 9 0 with wait := some ⟨.fenceG, 5⟩, posted := [(tileBase 4 + 256, [1, 2])] };
      (s.tile 3).wait = some ⟨.fenceG, 5⟩ ∧ s.tileLive 3 = true ∧ s.frozen = false ∧ s.drained 3 = true
        ∧ (s.tile 3).posted = [(addrDev (tileBase 4 + 256), [1, 2])] ∧ (s.tile 3).marking = false ∧ (s.tile 4).marking = false
        ∧ winTile (tileBase 4 + 256) = 4 ∧ winOff (tileBase 4 + 256) = 256 ∧ inTileWindow (tileBase 4 + 256) = true
        ∧ s.isMem (addrDev (tileBase 4 + 256)) 2 = true ∧ s.flag (TFLIP_PEND 4) = false) := by decide

theorem wit_accessTraps :
    (loadRows.all fun r => r.2.2.1 == 1 || let s := at5 (regs 7 9 (own 257)) 2 r.2.1 memOps
      s.issues 3 2 r.2.1 memOps rsvMem [3] && s.addrOk 3 (own 257) r.2.2.1 && !(own 257 % r.2.2.1 == 0)) = true
  ∧ (storeRows.all fun r =>
      (let s := at5 (regs 7 9 (tileBase 8)) 2 r.2.1 memOps;
        s.issues 3 2 r.2.1 memOps rsvMem [3] && s.isLocal (tileBase 8) && !s.addrOk 3 (tileBase 8) r.2.2)
      && (r.2.2 == 1 || let s := at5 (regs 7 9 (own 257)) 2 r.2.1 memOps
        s.issues 3 2 r.2.1 memOps rsvMem [3] && s.addrOk 3 (own 257) r.2.2 && !(own 257 % r.2.2 == 0))
      && let s := at5 (regs 7 9 64) 2 r.2.1 memOps
        s.issues 3 2 r.2.1 memOps rsvMem [3] && s.addrOk 3 64 r.2.2) = true := by decide

theorem wit_issueChecks : (plainRows.all fun r =>
    (let s := at5 (regs 7 9 0) r.2.1 r.2.2.1 (BitVec.ofNat 54 r.2.2.2);
      s.canIssue 3 && (s.tile 3).wordIs 5 (rowWord r.2.1 r.2.2.1 (BitVec.ofNat 54 r.2.2.2)) && !(r.2.2.2 == 0))
    && (let b := ops [(50, 2)]; let s := at5 (regs 7 9 0) r.2.1 r.2.2.1 b
      s.due 3 r.2.1 r.2.2.1 b r.2.2.2 && !(s.tile 3).executes b)) = true
  ∧ let s := run { regs 7 9 0 with bank := (List.range 8).map fun k => (0x1F0000 + 40 + k, some (codeWord 0 0x1E)) };
    s.canIssue 3 = true ∧ (s.tile 3).classOf (0x1F0000 + 40) = .poison ∧ (∀ k < 8, (s.tile 3).classOf (0x1F0000 + s.pc 3 * 8 + k) = .poison)
      ∧ (s.tile 3).olds = [] := by decide

theorem wit_trapped : let s := run { regs 7 9 0 with trap := some ⟨8, false, 5, 0xFFFF, 5⟩ };
    (s.tile 3).trap = some ⟨8, false, 5, 0xFFFF, 5⟩ ∧ s.drained 3 = true ∧ (s.tile 3).wait = none ∧ (s.tile 3).posted = [] := by decide

/-! ## Products and accumulators -/

/-- The worked example of R162's section: MX.MUL of FP8 operands at a2 and a3 into accumulator tile 4. -/
def mulOps : BitVec 54 := ops [(46, 3), (42, 3), (38, 2), (34, 3), (27, 4), (14, 3), (6, 63)]

theorem test_mul_word : rowWord 3 0 mulOps = 0x3000CC8C2000CFC0 := by decide

theorem wit_mul :
    (let s := at5 { regs 7 9 0 with a := [(2, 0x1000), (3, 0x2000)] } 3 0 mulOps;
      s.issues 3 3 0 mulOps (span 5 0) [] && !mxHeld s 3 (mxFields s 3 mulOps) && !mxInvalid s 3 (mxFields s 3 mulOps))
  && (let b := mulOps ||| ops [(27, 7)]; let s := at5 { regs 7 9 0 with a := [(2, 0x1000), (3, 0x2000)] } 3 0 b;
      s.issues 3 3 0 b (span 5 0) [] && !mxHeld s 3 (mxFields s 3 b) && mxInvalid s 3 (mxFields s 3 b)) = true := by decide

/-- A quadrant product of 16 rows on unit 1, into tile 0. -/
def prod : Product :=
  { idx := 5, fa := 3, fw := 3, pBase := 0, wBase := 0, xBase := 0, acc := 0, c := 0, q := 1, qm := true, ow := false, ta := false, tw := false,
    ru := false, fo := false, m := 16, v := 16, rows := 0, loaded := false, swapped := false, failed := false, fpois := false, rd := [], wr := [],
    fuse := none }

/-- A tile with one product and zeros from offset 0. -/
def mxTile (p : Product) (n : Nat) : Tile := { regs 7 9 0 with prods := [p], bank := zeros 0 n }

/-- A folio of 4,096 zero bytes in the FP8 format. -/
def zeroFolio : List Nat := [167, 3, 1, 2, 1] ++ List.replicate 55 0 ++ [75, 173, 52, 12]

theorem wit_stationary :
    let f := fun p : Product => !p.loaded && !p.failed
    let x := mxTile prod (blockBytes true 3 3)
    (x.prodAt 1 f = some (0, prod) ∧ x.shadowOf 1 = none ∧ prod.fo = false ∧ x.cleanRange prod.wBase (blockBytes prod.qm prod.fa prod.fw))
  ∧ (mxTile { prod with fo := true, fpois := true } 0).prodAt 1 f = some (0, { prod with fo := true, fpois := true })
  ∧ let y := { mxTile { prod with fo := true } 0 with exb := [⟨0, 64, List.replicate 256 0⟩] }
    y.prodAt 1 f = some (0, { prod with fo := true }) ∧ y.shadowOf 1 = none ∧ (y.foldedBlock { prod with fo := true }).isSome = true := by
  refine ⟨⟨by decide, by decide, by decide, zeros_clean _ _ _ rfl (by decide)⟩, by decide, by decide, by decide, by decide⟩

/-- The port's three cases: a folio that passes, one that fails, one poisoned. -/
theorem wit_port :
    let p := { prod with fo := true }
    ([zeroFolio, List.replicate 64 0].all fun f =>
      let s := run { regs 7 9 0 with prods := [p], bank := bank 0 f }
      let n := min (s.regionEnd 3 p.folio - p.folio) (max 16 ((s.tile 3).peekLen p.folio))
      (s.tile 3).prodAt 1 (fun p => p.fo && !p.loaded && !p.failed && !p.fpois) == some (0, p) && ((s.tile 3).bufAt p.folio).isNone
        && decide (p.folio < 0x200000) && decide (p.folio + n ≤ 0x200000) && (List.range n).all fun k => (s.tile 3).clean k)
  && (let s := run { regs 7 9 0 with prods := [p], bank := bank 0 [0, 0, 0] ++ [(3, some (codeWord 0 0x1E))] ++ bank 4 (List.replicate 12 0) };
      min (s.regionEnd 3 p.folio - p.folio) (max 16 ((s.tile 3).peekLen p.folio)) == 16
        && (List.range 16).all fun k => (s.tile 3).clean k || (k == 3 && (s.tile 3).classOf k == .poison)) = true := by decide

theorem wit_port_folio : (folioDecode zeroFolio).isSome = true ∧ folioDecode (List.replicate 16 0) = none := by decide

theorem wit_resultRow :
    let p := { prod with loaded := true, swapped := true }
    let x := { mxTile p 256 with act := [(1, some ⟨3, false, [], false⟩)] }
    x.prodAt 1 (fun p => decide (p.rows < p.v) && !p.failed) = some (0, p) ∧ x.actOf 1 = some ⟨3, false, [], false⟩
    ∧ (∀ k < kpOf p.qm p.fa p.fw, elemOff p 0 k + laneBytes p.fa ≤ 0x200000 ∧ (∀ j < laneBytes p.fa, x.clean (elemOff p 0 k + j) = true) ∧ isMX p.fa = false)
    ∧ (codesOk p.fa p.fw = true ∧ p.ta = false)
    ∧ ((mxTile p 0).prodAt 1 (fun p => decide (p.rows < p.v) && !p.failed) = some (0, p) ∧ (mxTile p 0).actOf 1 = none)
    ∧ ∀ n < lanesOf p.qm, accBad (x.accWord (p.rowWord p.rows + n)) = false := by decide

theorem wit_completion : (mxTile { prod with rows := 16 } 0).prodAt 1 (fun _ => true) = some (0, { prod with rows := 16 })
    ∧ (mxTile { prod with failed := true } 0).prodAt 1 (fun _ => true) = some (0, { prod with failed := true }) := by decide

/-- ACC.BIND and ACC.DROP. -/
theorem wit_accBindDrop :
    (let s := at5 (regs 7 9 0x1000) 4 0 (ops [(47, 7), (43, 1)]); s.issues 3 4 0 (ops [(47, 7), (43, 1)]) (rsvOut [(49, 47), (46, 43)]) []
      && !s.rangeHold 3 [] [accTileRng 7] && !s.flag (TSPBND_BOUND 3 7) && decide (0x1000 + 6144 ≤ s.scBase 3))
  && (let s := at5 (regs 7 9 0x1020) 4 0 (ops [(47, 7), (43, 1)]); s.issues 3 4 0 (ops [(47, 7), (43, 1)]) (rsvOut [(49, 47), (46, 43)]) []
      && !s.rangeHold 3 [] [accTileRng 7])
  && (let s := at5 (regs 7 9 0) 4 3 (ops [(47, 7)]); s.issues 3 4 3 (ops [(47, 7)]) (rsvOut [(49, 47)]) [] && !s.rangeHold 3 [] [accTileRng 7]
      && !s.flag (TSPBND_BOUND 3 7) && (s.setFld (TSPBND_BOUND 3 7) 1).issues 3 4 3 (ops [(47, 7)]) (rsvOut [(49, 47)]) []
      && !(s.setFld (TSPBND_BOUND 3 7) 1).rangeHold 3 [] [accTileRng 7]) = true := by decide

/-- ACC.SPILL with both, one, the other and no half counted, ACC.ROUND, and both unbound. -/
theorem wit_accSpillRound :
    ([(1, 1, 1), (1, 1, 0), (1, 0, 1), (1, 0, 0), (0, 0, 0)].all fun f =>
      let s := withF (at5 (regs 7 9 0) 4 1 (ops [(47, 2)])) [(TSPBND_BOUND 3 2, f.1), (TSPBND_COUNT0 3 2, f.2.1), (TSPBND_COUNT1 3 2, f.2.2)]
      s.issues 3 4 1 (ops [(47, 2)]) (rsvOut [(49, 47)]) [] && !s.rangeHold 3 [⟨s.bufBase 3 2, 6144⟩] [⟨s.bufBase 3 2, 6144⟩, accTileRng 2]
        && !(s.tile 3).vqFull && !s.trackerFull 3)
  && [0, 1].all (fun f =>
      let s := withF (at5 (regs 7 9 0) 4 2 (ops [(47, 2)])) [(TSPBND_BOUND 3 2, f)]
      s.issues 3 4 2 (ops [(47, 2)]) (rsvOut [(49, 47)]) [] && !s.rangeHold 3 [⟨s.bufBase 3 2, 6144⟩] [accTileRng 2] && !(s.tile 3).vqFull
        && !s.trackerFull 3) = true := by decide

theorem wit_accChain :
    let b := ops [(47, 1), (40, 2), (36, 3), (32, 3), (27, 31)]
    let s := at5 { regs 7 9 0 with a := [(2, 0x1000), (3, 0x3000)] } 4 4 b
    let j : VJob := .chain 1 0 0 0x1000 0x3000 0x3000 31 (s.pc 3) false
    (s.issues 3 4 4 b (rsvOut [(49, 47), (46, 46), (45, 44), (43, 40), (39, 36), (35, 32), (31, 27)]) []
      && !s.rangeHold 3 (j.ranges (s.bufBase 3)).1 (j.ranges (s.bufBase 3)).2 && !(s.tile 3).vqFull && !s.trackerFull 3
      && s.inScratch 3 0x1000 6144 && s.inScratch 3 0x3000 6144) = true := by decide

/-- A bound tile 2 with no element spilled yet, and work on the datapath. -/
def bound (j : VJob) : State :=
  withF (run { regs 7 9 0 with vq := [j] }) [(TSPBND_BOUND 3 2, 1), (TSPBND_BASE 3 2, 0x40), (TSPBND_EMPTY0 3 2, 1), (TSPBND_EMPTY1 3 2, 1)]

theorem acc_clear (x : Tile) (h : x.acc = []) (w : Nat) : accBad (x.accWord w) = false := by
  simp only [Tile.accWord, h, SMap.get]
  decide

theorem wit_spillRound (w : Nat) :
    ((bound (.spill [(2, 0), (2, 1)])).tile 3).vq = [.spill [(2, 0), (2, 1)]] ∧ ((bound (.round 2)).tile 3).vq = [.round 2]
    ∧ (bound (.round 2)).bufBase 3 2 + 6144 ≤ 0x1F0000 ∧ (bound (.round 2)).flag (TFLIP_PEND 3) = false
    ∧ (bound (.round 2)).flag (TSPBND_EMPTY0 3 2) = true ∧ (bound (.round 2)).flag (TSPBND_EMPTY1 3 2) = true
    ∧ accBad (({ regs 7 9 0 with vq := [.round 2] } : Tile).accWord w) = false :=
  ⟨by decide, by decide, by decide, by decide, by decide, by decide, acc_clear _ rfl w⟩

theorem wit_spillRow : let s := bound (.round 2); s.bufBase 3 2 + 6144 ≤ 0x1F0000 ∧ s.flag (TFLIP_PEND 3) = false ∧ s.flag (bndEmpty 3 2 0) = true
    ∧ (s.tile 3).rowPois 64 = false ∧ ∀ n < 16, accBad ((s.tile 3).accWord (2048 + n)) = false := by decide

/-- A tile that runs is the one it was given. -/
theorem run_tile (x : Tile) : (run x).tile 3 = x := by simp [run]

theorem wit_chain :
    (let s := withF (run { regs 7 9 0 with vq := [.chain 1 1 1 0 0 0 31 5 false] }) [(TTOK_COUNT 3 31, 1)];
     (s.tile 3).vq = [.chain 1 1 1 0 0 0 31 5 false] ∧ 1 ≤ s.fld (TTOK_COUNT 3 31))
  ∧ ((run { mxTile prod 3072 with vq := [.chain 1 1 1 0 0 0 31 5 true] }).tile 3).vq = [.chain 1 1 1 0 0 0 31 5 true]
  ∧ ((run { mxTile prod 3072 with vq := [.chain 1 1 1 0 0 0 31 5 true] }).tile 3).cleanRange 0 3072
  ∧ ∀ w, accBad (((run { mxTile prod 3072 with vq := [.chain 1 1 1 0 0 0 31 5 true] }).tile 3).accWord w) = false := by
  refine ⟨by decide, by rw [run_tile], ?_, ?_⟩ <;> rw [run_tile]
  · exact zeros_clean _ 0 3072 (by simp only [mxTile]) (by decide)
  · exact acc_clear _ rfl

/-! ## The vector datapath and the stream mover -/

/-- VEC fields: FP32 in and out, a1 to a4, count in register n. -/
def vecOps (n : Nat) : BitVec 54 := ops [(38, 1), (34, 2), (30, 3), (26, 4), (21, n), (16, 2), (5, 2)]

/-- Each vector instruction valid with 32 elements, with none, and with a destination beyond the bank. -/
theorem wit_vector : ([(1, 0x3000), (5, 0x3000), (1, 0x300000)].all fun f => vecRows.all fun r =>
    let b := vecOps f.1
    let s := at5 { regs 32 9 0 with a := [(1, 0), (2, 0x4000), (3, 0x2000), (4, f.2)] } 5 r.2 b
    let j := vecFields r.2 3 b s
    s.issues 3 5 r.2 b (span 3 0) (vecRegs r.2 b) && !s.rangeHold 3 j.rd j.wr && !(s.tile 3).vqFull && !s.trackerFull 3 && (s.tile 3).vq.isEmpty
      && j.invalid s 3 == (f.2 == 0x300000) && (j.n == 0) == (f.1 == 5)) = true := by decide

/-- An FP32 job on two elements, from offsets 0, 16 and 32 to 48. -/
def vjob (op : Nat) : VecJob :=
  { op := op, idx := 5, fi := 0, fo := 0, aA := 0, aB := 16, aC := 32, aD := 48, n := 2, bcast := 0, gen := 0, md := 0, bsc := false, skw := false,
    skq := false, skn := false, ftz := false, step := 0, seed := 0, rd := [], wr := [], fuse := none }

theorem wit_vectorResults : ([0, 1, 2, 3, 4, 5, 6, 8, 9, 0xA, 0xB, 0x10, 0xE].all fun op =>
    let s := run { regs 7 9 0 with vq := [.vec (vjob op)], bank := zeros 0 64 }
    (s.tile 3).vq == [.vec (vjob op)] && (vjob op).fuse.isNone && !(vjob op).skw && !s.flag (TFLIP_PEND 3) && (List.range 40).all (s.tile 3).clean
      && decide ((vjob op).aD + 8 ≤ 0x1F0000)) = true := by decide

/-- 1.5 × 2.0 = 3.0 in FP32, by an element of MUL. -/
theorem test_mul_element : ((vjob 1).elem 0 (0x3FC00000, false) (0x40000000, false) (0, false)).v = 0x40400000 := by decide

/-- A mover descriptor: SRC, DST, RLEN 64, KIND, two rows 64 bytes apart. -/
def mvDesc (src dst kind : Nat) : List Nat := leBytes 8 src ++ leBytes 8 dst ++ leBytes 4 64 ++ [kind * 16, 0, 0, 0] ++ leBytes 2 2 ++ [0, 0] ++ leBytes 4 64

theorem wit_moverSubmission : ([0, 1, 2, 3, 4].all fun k =>
    let b := ops [(46, 1), (41, 31)]
    let s := at5 { regs 7 9 0x1000 with bank := bank 0x1000 (mvDesc (own 0) (own 0x2000) k) } 6 0 b
    let x := s.xferAt 3 0x1000 31
    s.issues 3 6 0 b (rsvOut [(49, 46), (45, 41)]) [] && s.opRange 3 0x1000 32 && (List.range 32).all (fun i => (s.tile 3).clean (0x1000 + i))
      && x.kind == k && s.isLocal x.src && !s.trackerFull 3 && !s.rangeHold 3 (⟨0x1000, 32⟩ :: x.rd) x.wr) = true
  ∧ (let s := at5 (regs 7 9 0x300000) 6 0 (ops [(46, 1), (41, 31)]);
      s.issues 3 6 0 (ops [(46, 1), (41, 31)]) (rsvOut [(49, 46), (45, 41)]) [] && !s.opRange 3 0x300000 32) = true := by decide

/-- A transfer of the mover. -/
def xf (d : List Nat) : Xfer := { desc := d, tok := 31, bad := false, todo := [], reads := [], sent := false, acks := [], st := 0, rd := [], wr := [] }

theorem wit_transfer :
    let x := xf (mvDesc (own 0) (tileBase 4) 0)
    let s := run { regs 7 9 0 with xfers := [x], bank := zeros 0 128 }
    (s.tile 3).xfers[0]? = some x ∧ ((s.tile 3).xferWaits 0 x = false ∧ x.sent = false) ∧ (x.early s 3 = 0 ∧ x.kind = 0 ∧ x.dtken = false) ∧ s.isLocal x.src = true ∧ s.isLocal x.dst = true
      ∧ inTileWindow x.dst = true ∧ winOff x.dst + x.rows * x.rlen ≤ 0x1F0000 ∧ (s.tile (winTile x.dst)).marking = false
      ∧ s.flag (TFLIP_PEND (winTile x.dst)) = false ∧ s.fld (TTOK_COUNT 3 x.tok) < 65535
      ∧ ∀ r < x.rows, 0x8000000000 ≤ addrDev (x.src + r * x.sstride) ∧ s.isLocal ((x.src + r * x.sstride) % 2 ^ 64) = true
        ∧ x.src + r * x.sstride < 2 ^ 64 ∧ winTile (x.src + r * x.sstride) = 3 ∧ winOff (x.src + r * x.sstride) = r * 64 := by decide

theorem wit_transfer_clean (p : Product) : (mxTile p 128).cleanRange 0 128 := zeros_clean _ 0 128 (by simp only [mxTile]) (by decide)

/-- A descriptor of no row, a source in another partition, a destination in a stack off its granule. -/
theorem wit_refused : ([(mvDesc (own 0) (own 0x2000) 5, 6), (mvDesc (tileBase 8) (own 0x2000) 0, 7), (mvDesc (own 0) 32 0, 2)].map fun d =>
    let s := run { regs 7 9 0 with xfers := [xf d.1] }
    (xf d.1).early s 3 == d.2 && !(s.tile 3).xferWaits 0 (xf d.1)) = [true, true, true] := by decide

theorem wit_lineFill : let s := (run { regs 7 9 0 with xfers := [xf (mvDesc 0x800 (own 0) 0)] }).setFld (TSCSTAT_SIZE 3) 1;
    s.scn 3 ≠ 0 ∧ s.lineWanted 3 0x800 = true ∧ ∀ k < 64, s.markOf (0x800 + 32 * k) = 0 ∧ s.chanFailed 0 (0x800 + 32 * k) = false := by decide

/-- A line ahead of a confirmed stride, and lines kept: one filled for a read to come, one read before. -/
theorem wit_lines :
    (let s := (run { regs 7 9 0 with pf := [⟨0, 1, true⟩] }).setFld (TSCSTAT_SIZE 3) 1; s.lineWanted 3 0x800 = true ∧ s.lineDemand 3 0x800 = false)
  ∧ ([true, false].all fun d => [codeWord 7 0, codeWord 7 0x1E].all fun c =>
      let s := run { regs 7 9 0 with lines := [⟨0x800, [c], d⟩] }
      (s.tile 3).lineAt 0x800 == some ⟨0x800, [c], d⟩
        && if c == codeWord 7 0 then (CLine.classes ⟨0x800, [c], d⟩ 0 1) == [.good 7]
          else anyPois (CLine.read ⟨0x800, [c], d⟩ 0 1) && (List.range 64).all fun k => s.markOf (0x800 + 32 * k) == 0 && !s.chanFailed 0 (0x800 + 32 * k)) = true := by
  decide

/-! ## Stops, starts and waits -/

theorem wit_haltStart :
    (at5 (regs 7 9 0) 0 6 (ops [(0, 65535)])).issues 3 0 6 (ops [(0, 65535)]) (rsvOut [(15, 0)]) [] = true
  ∧ (at5 (regs 7 9 0) 0 7 (ops [(0, 65535)])).issues 3 0 7 (ops [(0, 65535)]) (rsvOut [(15, 0)]) [] = true
  ∧ (let s := up.setTile 3 (regs 7 9 0); s.fld (TSQSTAT_STATE 3) = stIdle ∧ (s.partOfTile 3).isSome = true ∧ (s.tile 3).marking = false ∧ s.frozen = false)
  ∧ (let s := (run (regs 7 9 0)).setFld (TSQSTAT_STATE 3) stHalted; s.fld (TSQSTAT_STATE 3) = stHalted
      ∧ (s.setFld PHALT_HALTED 1).frozen = true ∧ (s.tile 3).trap = none ∧ (s.tile 3).marking = false) := by decide

theorem wit_sync :
    (waitRows.all fun r =>
      let b := BitVec.ofNat 54 (2 ^ 50 - 1 - r.2.2.1 % 2 ^ 50)
      let b := if r.2.1 = 5 then ops [(45, 1)] else b
      (at5 (regs 7 9 0) 7 r.2.1 b).issues 3 7 r.2.1 b r.2.2.1 (r.2.2.2.1 b)) = true
  ∧ (let b := ops [(45, 31), (0, 65535)]; let s := at5 (regs 7 9 0) 7 3 b;
      s.issues 3 7 3 b (rsvOut [(49, 45), (15, 0)]) [] && decide (65535 < (s.setFld (TTOK_COUNT 3 31) 1).fld (TTOK_COUNT 3 31) + fb b 0 16)) = true
  ∧ (let b := ops [(45, 31), (40, 3)]; (at5 (regs 7 9 0) 7 4 b).issues 3 7 4 b (rsvOut [(49, 45), (44, 40)]) [3]) = true := by decide

/-- A tile that waits. -/
def waiting (w : Wait) : State := run { regs 7 9 0 with wait := some ⟨w, 5⟩ }

theorem wit_waits :
    ([Wait.fenceG, .fenceI, .tok 31 0, .time 0, .unit 255].all fun w => ((waiting w).tile 3).wait == some ⟨w, 5⟩ && (waiting w).tileLive 3
      && !(waiting w).frozen && (waiting w).waitOver 3 w && ((waiting w).tile 3).posted == []) = true
  ∧ ([Wait.tok 31 1, .time 1].all fun w => (waiting w).tileLive 3 && !(waiting w).frozen && !(waiting w).waitOver 3 w) = true := by decide

theorem wit_waitTimeout :
    (let s := run { regs 7 9 0 with wait := some ⟨.fenceG, 5⟩, loads := [ld false false] }; s.tileLive 3 = true ∧ s.waitOver 3 .fenceG = false)
  ∧ (let s := run { regs 7 9 0 with held := some ⟨5, .regs [3]⟩, sig := some ⟨7, false, 2, false, 3, 4⟩ };
      (s.tile 3).wait = none ∧ (s.tile 3).held = some ⟨5, .regs [3]⟩ ∧ (s.tile 3).trap = none ∧ s.tileLive 3 = true ∧ ∃ r ∈ [3], r ∈ (s.tile 3).opRegs)
  ∧ (let s := run { regs 7 9 0 with vq := [.chain 1 1 1 0 0 0 31 5 false] };
      (s.tile 3).vq = [.chain 1 1 1 0 0 0 31 5 false] ∧ s.tileLive 3 = true ∧ s.fld (TTOK_COUNT 3 31) = 0) := by decide

theorem wit_marking : (let s := run { regs 7 9 0 with marking := true }; (s.tile 3).marking = true ∧ s.boot ≠ .hold)
    ∧ (let s := withF (run (regs 7 9 0)) [(TFLIP_PEND 3, 1), (TFLIP_ADDR 3, 0x100)];
      0x100 < s.scBase 3 ∧ s.flag (TFLIP_PEND 3) = true ∧ s.fld (TFLIP_ADDR 3) = 0x100 ∧ (s.tile 3).marking = false)
    ∧ bitOf (0x400000000 : BitVec 64).toNat 34 = true ∧ bitOf (0 : BitVec 64).toNat 34 = false := by decide

/-! ## Signals, mailboxes, collectives, dispatch -/

/-- Group 7 is of two devices, this one the root with child 1; tile 3 is its member. -/
def grouped (s : State) : State := withR s [(aFGROUP (7 * 64), 2), (aFGROUP (7 * 64 + 1), 2 ^ 48 + 3 * 2 ^ 56), (aFGROUP (7 * 64 + 18), 8)]

/-- A group record in bytes: children from rank 1 on, root or not. -/
def gbytes (kids : Nat) (root : Bool) : List Nat :=
  [4, 0, 0, 0, 0, 0, 0, 0, 0, 0, 0, 0, 0, 0, kids, if root then 3 else 1] ++ (List.range kids).flatMap fun k => [k + 1, 0]

/-- A pending operation of group 7. -/
def pend (bar : Bool) (opk : Nat) (w64 : Bool) (rec_ : List Nat) : SigPend := ⟨bar, opk, w64, [], [], false, none, none, rec_⟩

/-- It is pending. -/
def signalling (s : State) (p : SigPend) : State := { grouped s with groups := [(7, { SigGrp.reset with pend := some p })] }

theorem wit_signals :
    (let b := ops [(45, 1), (40, 3)]; let s := signalling (at5 (regs 7 9 0) 8 0 b) (pend true 0 false ((grouped up).grpRec 7));
      s.issues 3 8 0 b (rsvOut [(49, 45), (44, 40)]) [1, 3] && (s.tile 3).sig.isNone && (s.tile 3).mbx.isNone && s.collWait.isEmpty && s.sigOk 3 7
        && (s.pendOr 7 true 0 false).agrees true 0 false && !((s.pendOr 7 true 0 false).joined 3 0 s.detm).kidsIn && (s.grp 7).held.isEmpty)
  && (let b := ops [(45, 1), (40, 3), (35, 2), (32, 7), (31, 1)]; let s := signalling (at5 (regs 7 9 0) 8 1 b) (pend false 7 true ((grouped up).grpRec 7));
      s.issues 3 8 1 b (rsvOut [(49, 45), (44, 40), (39, 35), (34, 32), (31, 31)]) [1, 3, 2] && s.sigOk 3 7
        && (s.pendOr 7 false 7 true).agrees false 7 true && !((s.pendOr 7 false 7 true).joined 3 9 s.detm).kidsIn && (s.grp 7).held.isEmpty)
  && (let b := ops [(45, 2), (40, 3)]; let s := at5 (regs 7 9 0) 8 0 b;
      s.issues 3 8 0 b (rsvOut [(49, 45), (44, 40)]) [2, 3] && !s.sigOk 3 9 && !s.sigOkBy (s.grpRec 9) 3 9)
  && (let b := ops [(45, 2), (40, 3), (35, 2), (32, 5)]; let s := at5 (regs 7 9 0) 8 1 b;
      s.issues 3 8 1 b (rsvOut [(49, 45), (44, 40), (39, 35), (34, 32), (31, 31)]) [2, 3, 2] && !s.sigOk 3 9 && !s.sigOkBy (s.grpRec 9) 3 9) = true := by decide

/-- An UP record of one of two children, of the only child of a root and of another device; DOWN and ABANDON records. -/
theorem wit_records :
    ([(gbytes 2 true, false, true), (gbytes 1 true, true, true), (gbytes 1 false, true, false)].all fun f =>
      let r := sigRec 7 2 false 0 false false 0 0 5
      let p := pend false 2 false f.1
      let s := signalling up p
      let p' := p.withKid 1 (rVal r)
      rPhase r == 0 && !rPre r && rGid r == 7 && rGen r == (s.grp 7).gen && (s.grp 7).pend == some p && p.agrees (rBar r) (rOpk r) (rW64 r)
        && (s.grp 7).held.isEmpty && s.collWait.isEmpty && (s.rxRecord 1 r).isSome && !sigRecBad r && !p'.up && p'.localIn && p'.kidsIn == f.2.1 && gRoot p'.rec_ == f.2.2) = true
  ∧ (let r := sigRec 7 2 false 1 false false 0 0 5; rPhase r = 1 ∧ rPre r = false ∧ rGen r = 0 ∧ rGid r = 7 ∧ (up.rxRecord 1 r).isSome = true ∧ sigRecBad r = false)
  ∧ (let r := sigRec 7 2 false 2 false false 0 0 0; rPhase r = 2 ∧ rCid r = 0 ∧ rGen r = 0 ∧ rGid r = 7 ∧ (up.rxRecord 1 r).isSome = true ∧ sigRecBad r = false) := by decide

theorem wit_orderFree : [1, 3].Perm [3, 1] ∧ ∀ x ∈ [3, 1], x < 2 ^ 32 := ⟨List.Perm.swap 3 1 [], by decide⟩

theorem wit_mailbox :
    (mbxRows.all fun r =>
      let b := ops [(46, 1), (40, 3), (35, 2), (30, 1)] &&& ~~~ (BitVec.ofNat 54 r.2.2.2.1)
      [(own 0x300478, true, true), (own 0x300480, true, false), (tileBase 8 + 0x300400, false, true)].all fun a =>
        let s := at5 (regs 7 9 a.1) 8 r.2.1 b
        s.issues 3 8 r.2.1 b r.2.2.2.1 (r.2.2.2.2.1 b) && !s.mboxPend 3 && s.isLocal a.1 && s.tileMay 3 a.1 8 == a.2.1 && (mboxAt (addrDev a.1)).isSome == a.2.2)
  && [false, true].all (fun bad =>
      let m : MbxOp := ⟨3, own 0x300478, 3, 1, 0, 5, bad, none⟩
      let s := run { regs 7 9 0 with mbx := some m }
      (s.tile 3).mbx == some m && (s.tile 3).trap.isNone && mboxAt (addrDev m.addr) == some (3, 15) && !(s.tile 3).marking)
  && (let m : MbxOp := ⟨3, own 0x300478 + 2 ^ 48, 3, 1, 0, 5, false, some 4⟩;
      let s := { run { regs 7 9 0 with mbx := some m } with reads := [⟨4, 9, 0, 1, own 0x300478, 8, 1, 0, [(5, false)], 0⟩] };
      (s.tile 3).mbx == some m && (s.readOf 4).any fun q => q.st == 1 && q.cst == 0) = true := by decide

/-- The same image with its first context in the implicit mode. -/
def implicitly (s : State) : State :=
  { s with img := { s.img with ctxs := [(0, { fwCtx with implicit := true }), (1, { fwCtx with fw := false, groups := [], streams := [] })] } }

theorem wit_fused :
    ([0, 1].all fun o => let s := implicitly (at5 (regs 7 9 0) 9 o (ops [(46, 1)]))
      s.issues 3 9 o (ops [(46, 1)]) (2 ^ 54 - 1 - span 49 46) [] && s.pc 3 != 8191 && (s.cfgOfTile 3).any (·.implicit)) = true
  ∧ (let s := at5 { regs 7 9 0 with fuse := some ⟨0, 0⟩ } 0 0 0;
      s.canIssue 3 = true ∧ (s.tile 3).wordIs (s.pc 3) (rowWord 0 0 0) = true ∧ (s.tile 3).fuse = some ⟨0, 0⟩) := by decide

/-- A stream record: one expert owned here in tile 0, rows and returns of 64 bytes, 32 slots, tile 3 its sender. -/
def srec (bwd : Bool) : List Nat :=
  [if bwd then 3 else 1, 0, 1, 0, 2, 0, 0, 0] ++ leBytes 2 64 ++ leBytes 2 64 ++ leBytes 2 32 ++ [0, 0] ++ leBytes 4 100 ++ leBytes 4 1000
    ++ leBytes 8 (tileBase 0 + 0x10000) ++ leBytes 8 (tileBase 0 + 0x20000) ++ leBytes 2 3

/-- Stream 1 open with a record. -/
def streaming (s : State) (x : Stream) (bwd : Bool) : State := { s.setFld (FDSSTAT_STATE 1) 1 with streams := [(1, { x with rec_ := srec bwd })] }

theorem wit_dispatchIssue :
    (let b := ops [(45, 3), (32, 2)]; let s := streaming (at5 (regs 7 1 0) 10 2 b) .reset false;
      s.issues 3 10 2 b (rsvOut [(49, 45), (36, 32)]) [3, 2] && (s.dispCnt 3 1).isSome && (s.dispCnt 3 2).isNone)
  && (let b := ops [(32, 2)]; let s := streaming (at5 (regs 7 1 0) 10 1 b) .reset false;
      s.issues 3 10 1 b (rsvOut [(36, 32)]) [2] && (s.tile 3).disp.isEmpty && !s.trackerFull 3 && srValid (s.srOf 1) && s.srCtxIs 1 (s.ctxOfTile 3)
        && srSlotOf (s.srOf 1) 3 == some 0 && !s.srCtxIs 2 (s.ctxOfTile 3))
  && (let b := ops [(46, 1), (42, 2), (37, 1), (32, 2)]; let s := streaming (at5 (regs 7 1 0) 10 0 b) .reset false;
      s.issues 3 10 0 b (span 28 0) [1, 2] && s.sendOk 3 1 (some 0) == some 0 && (s.sendOk 3 1 (some 1)).isNone
        && !s.rangeHold 3 (s.ownRng 3 0 448 ++ s.ownRng 3 0 7) (s.rwRngs 3 (s.srOf 1) (srTbase (s.srOf 1) 0 % 65536) 7)) = true := by decide

/-- A collective descriptor of group 7. -/
def cdesc (opc count : Nat) : List Nat :=
  [opc, 0, 0, 1, 9, 0, 7, if opc = 1 then 7 else 0] ++ leBytes 8 (own 0x2000) ++ leBytes 8 (if opc = 1 then own 0x3000 else 0) ++ leBytes 8 (own 0x4000)
    ++ leBytes 8 (if opc = 1 then own 0x5000 else 0) ++ leBytes 8 (if opc = 1 then own 0x6000 else 0) ++ leBytes 8 count ++ List.replicate 24 0
    ++ leBytes 8 (own 0x7000) ++ List.replicate 40 0

/-- A collective in flight. -/
def coll (opc count phase : Nat) : Coll :=
  { cid := 9, ctx := 0, desc := cdesc opc count, grp := gbytes 1 true, grpP := [], fused := false, handed := [], chunks := [], got := [], phase := phase,
    acks := [], found := [], ovf := false, sat := 0, tstart := 0 }

/-- A descriptor of each kind in tile 3 is accepted from the host. -/
theorem wit_collSubmit : ([(1, 32), (2, 64), (3, 64), (4, 0)].all fun f =>
    let s := (grouped (run { regs 7 9 0 with bank := bank 0x1000 (cdesc f.1 f.2) })).setFld (FPSTAT_STATE 0) 4
    s.ctxMay 0 (own 0x1000) 128 && s.isMem (addrDev (own 0x1000)) 128 && (s.collRead (own 0x1000) 128).2 == s && !anyPois (s.collRead (own 0x1000) 128).1
      && ((s.collRead (own 0x1000) 128).1.map (·.1)) == cdesc f.1 f.2) = true := by decide

theorem wit_collStatus : ([(1, 32), (2, 64), (3, 64), (4, 0)].all fun f =>
    let s := (grouped (run (regs 7 9 0))).setFld (FPSTAT_STATE 0) 4
    let d := cdesc f.1 f.2
    cdOpc d == f.1 && s.cdStatus 0 0 d == 0 && cdStripes d == 1 && stripePort d 0 == 0 && s.fld (FPSTAT_STATE 0) == 4 && s.collHeld.isEmpty
      && s.collRecs.isEmpty && (s.grp 7).pend.isNone && gKids (s.grpRec 7) != []) = true := by decide

theorem wit_collEnds :
    (let s := { up with colls := [coll 4 0 3] };
      s.collOf 9 = some (coll 4 0 3) ∧ (coll 4 0 3).done = true ∧ s.collWait = [] ∧ s.isLocal (cdCrec (cdesc 4 0)) = true
      ∧ inTileWindow (cdCrec (cdesc 4 0)) = true ∧ s.isMem (addrDev (cdCrec (cdesc 4 0))) 32 = true ∧ winOff (cdCrec (cdesc 4 0)) + 32 ≤ 0x1F0000
      ∧ s.flag (TFLIP_PEND (winTile (cdCrec (cdesc 4 0)))) = false ∧ s.ctxMay 0 (cdCrec (cdesc 4 0)) 32 = true
      ∧ (s.tile (winTile (cdCrec (cdesc 4 0)))).marking = false)
  ∧ (coll 4 0 1).done = false ∧ (let r := sigRec 7 0 false 2 false false 0 9 0; rPhase r = 2 ∧ rCid r = 9 ∧ (up.rxRecord 1 r).isSome = true ∧ sigRecBad r = false)
  ∧ (let r := sigRec 7 0 false 0 false true 0 9 0; rPre r = true ∧ rPhase r ≠ 2 ∧ rCid r = 9 ∧ (up.rxRecord 1 r).isSome = true ∧ sigRecBad r = false)
  ∧ (let p := { mkPkt 0 9 0 9 64 0 0 with srank := 1, data := List.replicate 64 7 }; p.opc = 9 ∧ up.rxTurn 0 p = true ∧ pktMalformed p = false
      ∧ p.drank = up.rank ∧ bitsOf p.addr 0 16 = 9)
  ∧ (up.collOf 9 = none ∧ isDead up.collDead 9 = false ∧ up.collHeld = [] ∧ isDead ({ up with collDead := [(9, true)] }).collDead 9 = true) := by decide

theorem wit_sums : (∀ p ∈ [1, -5].zip [7, 2147483647], -2147483647 ≤ p.1 + p.2 ∧ p.1 + p.2 ≤ (2147483647 : Int))
    ∧ (∀ x ∈ [1, -5], -2147483648 ≤ x ∧ x ≤ (2147483647 : Int)) := by decide

theorem wit_adopt : (up.setFld FRSVCTL_RESERVE 1).pfOrFw 0 = true ∧ (up.setFld FRSVCTL_RESERVE 1).flag FRSVCTL_RESERVE = true
    ∧ up.pfOrFw 1 = false ∧ up.flag FRSVCTL_RESERVE = false := by decide

/-- A row packet of rank 1 for stream 1: direction, KIND, 64 bytes. -/
def rowPkt (dir kind : Nat) : Pkt := { mkPkt 0 10 0 (1 + dir * 2 ^ 12 + kind * 2 ^ 14) 64 0 0 with srank := 1, data := List.replicate 64 7 }

theorem wit_rows : ([false, true].all fun bwd =>
    let p := rowPkt (if bwd then 2 else 0) 0
    let s := streaming up .reset bwd
    p.opc == 10 && s.rxTurn 0 p && !pktMalformed p && p.drank == s.rank && p.srank != s.rank && daDir p.addr == (if bwd then 2 else 0) && daKind p.addr == 0 && srValid (s.srOf 1) && srBwd (s.srOf 1) == bwd && srNexp (s.srOf 1) == 1
      && srOwner (s.srOf 1) 0 == s.rank && decide (daPart p.addr < srParts (s.srOf 1)) && p.len == min 4096 (srRowb (s.srOf 1))
      && ((s.stream 1).buf 0 0).place p.tag == .take && ((s.stream 1).buf 0 0).rows.isEmpty && decide (daSlot p.addr < srQslots (s.srOf 1))
      && s.capOf 1 0 == 0 && ((withR s [(aFPLAN (1 * 128 + 64 + 2), 5)]).capOf 1 0 == 5)) = true := by decide

theorem wit_buffers :
    (let p := rowPkt 0 1; let s := streaming up .reset false;
      daKind p.addr = 1 ∧ (s.rxTurn 0 p = true ∧ pktMalformed p = false ∧ p.drank = s.rank ∧ p.opc = 10) ∧ p.srank ≠ s.rank ∧ daDir p.addr = 0 ∧ srValid (s.srOf 1) = true ∧ srOwner (s.srOf 1) 0 = s.rank
        ∧ ((s.stream 1).buf 0 0).place p.tag = .take)
  ∧ (let f : DBuf := ⟨some 0, [⟨0, 2, 1, 0, [0]⟩, ⟨1, 1, 0, 0, [0]⟩], [], true, false, false⟩; let s := streaming up { Stream.reset with bufs := [(0, f)] } false;
      (s.stream 1).buf 0 0 = f)
  ∧ (let f : DBuf := ⟨some 0, [⟨0, 2, 1, 0, [0]⟩], [], false, false, false⟩; let s := streaming up { Stream.reset with bufs := [(0, f)] } false;
      (s.stream 1).buf 0 0 = f) := by decide

theorem wit_returnRow :
    let p := rowPkt 1 0
    let x : Stream := { Stream.reset with slots := [(0, { DSlot.reset with rows := 1, batches := [⟨0, [], false, false, [], false, 0, 0, false⟩] })] }
    let s := streaming (up.setTile 0 { Tile.reset with bank := bank 0x20000 [0, 0, 0, 0] }) x false
    let r := s.srOf 1
    let dst := addrDev (srRetbase r)
    let w := rwAddr r 0 0
    (s.rxTurn 0 p = true ∧ pktMalformed p = false ∧ p.drank = s.rank ∧ p.opc = 10)
    ∧ ((s.tile (winTile dst)).marking = false ∧ (s.tile (winTile w)).marking = false)
    ∧ (daDir p.addr = 1 ∧ srValid r = true ∧ 0 < srK r ∧ ((s.stream 1).slotOfTok r 0).isSome = true ∧ p.len ≤ srOrb r)
    ∧ (inTileWindow dst = true ∧ inTileWindow w = true ∧ s.isMem dst p.len = true ∧ s.isMem w 4 = true ∧ winOff w + 4 ≤ 0x1F0000 ∧ dst + p.len ≤ w)
    ∧ (s.flag (TFLIP_PEND (winTile dst)) = false ∧ (∀ k < 4, (s.tile (winTile w)).clean (winOff w + k) = true)
      ∧ bitsOf (ofLE ((s.tile (winTile w)).bytesAt (winOff w) 4)) 12 4 = 0) := by decide

/-- The stream registers' conditions: closed and decided with a plan at hand; open; a plan in time and a late one. -/
theorem wit_streamCommands :
    up.fdsMay 1 0 = true ∧ up.replay = false
  ∧ (let s := withF (implicitly up) [(FDSSTAT_DECIDED 1, 1), (FDSSTAT_HAVE 1, 1)]; s.srOpen 1 = false ∧ s.flag (FDSSTAT_DECIDED 1) = true
      ∧ s.flag (FDSSTAT_HAVE 1) = true ∧ s.fld GLEDCTL_MODE ≠ 1 ∧ srBwd (s.srRec 1) = false)
  ∧ ((streaming up .reset false).srOpen 1 = true ∧ (up.setFld (FDSSTAT_DECIDED 1) 0).flag (FDSSTAT_DECIDED 1) = false)
  ∧ (let s := withR ((streaming up .reset false).setFld (FDSDL_DEADLINE 1) 100) [(aFPLAN 128, 1 + 2 ^ 32)];
      s.now < s.fld (FDSDL_DEADLINE 1) ∧ (le (s.tblBytes (aFHIST 128) 8) 0 4 + 1) % 2 ^ 32 = 1 ∧ le (s.tblBytes (aFPLAN 128) 256) 0 4 = 1
        ∧ bitsOf (le (s.tblBytes (aFPLAN 128) 256) 4 1) 0 7 = srNexp (s.srOf 1) ∧ s.fld GLEDCTL_MODE = 0
        ∧ ∀ e < srNexp (s.srOf 1), le (s.tblBytes (aFPLAN 128) 256) (16 + 2 * e) 2 % srPad (s.srOf 1) = 0
          ∧ le (s.tblBytes (aFPLAN 128) 256) (16 + 2 * e) 2 ≤ srQslots (s.srOf 1))
  ∧ up.fld (FDSDL_DEADLINE 1) ≤ up.now := by decide

/-! ## Stacks and bindery -/

/-- A report, and its entry in a log. -/
def rep : Report := ⟨0, 0x20, 2, 0, 0, 0, 0⟩

theorem wit_errorLog :
    (let s := { up with reports := [rep] };
      ((s.errNewest 0).find? fun i => errSame rep (s.errEntry 0 i)) = none ∧ ¬(s.fld (ERRPTR_WP 0) + 1024 - s.fld (ERRPTR_RP 0)) % 1024 = 512)
  ∧ (let s := { up.setFld (ERRPTR_WP 0) 512 with reports := [{ rep with src := 9 }] };
      ((s.errNewest 0).find? fun i => errSame { rep with src := 9 } (s.errEntry 0 i)) = none ∧ (s.fld (ERRPTR_WP 0) + 1024 - s.fld (ERRPTR_RP 0)) % 1024 = 512)
  ∧ (let s := { up.setFld (ERRPTR_WP 0) 1 with reports := [{ rep with typ := 0, sev := 0 }] };
      ((s.errNewest 0).find? fun i => errSame { rep with typ := 0, sev := 0 } (s.errEntry 0 i)) = some 0)
  ∧ (let s := up.setFld (ERRPTR_WP 0) 3; (5 + 1024 - s.fld (ERRPTR_RP 0)) % 1024 > (s.fld (ERRPTR_WP 0) + 1024 - s.fld (ERRPTR_RP 0)) % 1024)
  ∧ 1 ∈ ({ up with tsync := { up.tsync with leak := [1] } } : State).tsync.leak ∧ 1 ∉ up.tsync.leak := by decide

theorem wit_stacks :
    (up.modStack 0 fun x => { x with initing := true }).stackU 0 ≠ up.stackU 0 ∧ ((up.modStack 0 fun x => { x with initing := true }).stackU 0).initing = true
  ∧ (up.modStack 0 fun x => { x with initing := true }).boot ≠ .hold
  ∧ up.liveList 0 = List.range 32 ∧ up.hitsFailed 0 64 = false ∧ (up.setFld (SFAIL_FAILMAP 0) 1).chanFailed 0 64 = true
  ∧ (let s := up.modStack 0 fun x => { x with lost := [31], testReq := true }; 31 ∈ (s.stackU 0).lost ∧ bitOf (s.fld (SFAIL_FAILMAP 0)) 31 = false
      ∧ (s.stackU 0).testReq = true ∧ s.flag (SSTAT_INITD 0) = true ∧ s.flag (SSTAT_TEST 0) = false ∧ s.enginesIdle 0 = true ∧ s.stackBusy 0 = false
      ∧ bitOf (s.fld (SCHMAP_LIVEMAP 0)) 31 = true)
  ∧ (up.setFld (SSTAT_TEST 0) 1).flag (SSTAT_TEST 0) = true := by decide

theorem wit_tap :
    (let s := { up.setFld (SSTAT_TEST 0) 1 with tap := ⟨0x10, 0, 0⟩ }; s.tap.ir = 0x10 ∧ s.tap.sel = 0 ∧ s.flag (SSTAT_TEST 0) = true
      ∧ (s.stackU 0).spares 31 true ≠ 0 ∧ (s.stackU 0).fusing = none)
  ∧ (let s := up.modStack 0 fun x => { x with fusing := some 3, mbrun := some 7 }; (s.stackU 0).fusing = some 3 ∧ (s.stackU 0).mbrun = some 7) := by decide

/-- Stack 0 with no mark and no failed channel reads clean and is left as it was. -/
theorem stkRead_clean (s : State) (hm : s.stkMark = []) (hf : s.fld (SFAIL_FAILMAP 0) = 0) (d n : Nat) (hd : d + n ≤ 0x800000000) :
    s.stkRead d n = ((List.range n).map fun i => (s.stkByte (d + i), false), s) := by
  have hc : ∀ a, a < 0x1000000000 → s.checkHalf a = (false, s) := by
    intro a ha
    have h0 : a / 0x1000000000 = 0 := by omega
    simp [State.checkHalf, h0, State.chanFailed, hf, bitOf, bitsOf, State.markOf, hm, SMap.get]
  have hg : ∀ g, g * 64 + 64 ≤ 0x1000000000 → s.stkGranule g = ((List.range 64).map fun i => (s.stkByte (g * 64 + i), false), s) := by
    intro g h; simp [State.stkGranule, hc (g * 64) (by omega), hc (g * 64 + 32) (by omega)]
  have hs : ∀ k g, (g + k) * 64 ≤ 0x1000000000 →
      s.stkGranules g k = ((List.range (64 * k)).map fun i => (s.stkByte (g * 64 + i), false), s) := by
    intro k
    induction k with
    | zero => intro g _; simp [State.stkGranules]
    | succ k ih =>
      intro g h
      rw [State.stkGranules, hg g (by omega), ih (g + 1) (by omega), show 64 * (k + 1) = 64 + 64 * k by ring, List.range_add]
      simp only [List.map_append, List.map_map, Function.comp_def, Prod.mk.injEq, and_true]
      refine congrArg _ (List.map_congr_left fun i _ => ?_)
      rw [show (g + 1) * 64 + i = g * 64 + (64 + i) by ring]
  unfold State.stkRead
  by_cases h : n = 0
  · simp [h]
  · rw [if_neg h]
    simp only [hs _ _ (show (d / 64 + ((d + n - 1) / 64 - d / 64 + 1)) * 64 ≤ 0x1000000000 by omega)]
    refine Prod.ext (List.ext_getElem? fun i => ?_) rfl
    simp only [List.getElem?_take, List.getElem?_drop, List.getElem?_map]
    by_cases hi : i < n
    · have h1 : d % 64 + i < 64 * ((d + n - 1) / 64 - d / 64 + 1) := by omega
      have h2 : d / 64 * 64 + (d % 64 + i) = d + i := by omega
      simp [hi, h1, h2]
    · simp [hi]

/-- Bytes at offset a of stack 0, zeros elsewhere. -/
def stkOf (a : Nat) (bs : List Nat) : SMap (BitVec 8) := (bs.zipIdx).map fun b => (a + b.2, BitVec.ofNat 8 b.1)

theorem stkOf_get (a : Nat) : ∀ (bs : List Nat) (i : Nat), (∀ b ∈ bs, b < 256) →
    (SMap.get (fun _ => (0 : BitVec 8)) (stkOf a bs) (a + i)).toNat = nth 0 bs i := by
  suffices h : ∀ (bs : List Nat) (n i : Nat), (∀ b ∈ bs, b < 256) →
      (SMap.get (fun _ => (0 : BitVec 8)) ((bs.zipIdx n).map fun b => (a + b.2, BitVec.ofNat 8 b.1)) (a + (n + i))).toNat = nth 0 bs i by
    intro bs i hb; simpa [stkOf] using h bs 0 i hb
  intro bs
  induction bs with
  | nil => intro n i _; simp [SMap.get, nth]
  | cons b bs ih =>
    intro n i hb
    cases i with
    | zero => simp [SMap.get, nth, Nat.mod_eq_of_lt (hb b (by simp))]
    | succ i =>
      have := ih (n + 1) i (fun x hx => hb x (by simp [hx]))
      simp only [List.zipIdx_cons, List.map_cons, SMap.get]
      rw [if_neg (by omega), show a + (n + (i + 1)) = a + (n + 1 + i) by omega, this]
      simp [nth]

/-- A part of the bytes, and zeros beyond them. -/
theorem stkOf_holds (s : State) (a : Nat) (bs : List Nat) (hb : ∀ b ∈ bs, b < 256) (hk : s.stk = stkOf a bs) (hm : s.stkMark = [])
    (hf : s.fld (SFAIL_FAILMAP 0) = 0) (o : Nat) (xs : List Nat) (hx : ∀ i < xs.length, nth 0 bs (o + i) = nth 0 xs i)
    (hd : a + o + xs.length ≤ 0x800000000) : s.stkHolds (stackBase 0 + (a + o)) xs := by
  have h0 : stackBase 0 = 0 := by simp only [stackBase, Nat.zero_mul]
  unfold State.stkHolds
  rw [h0, Nat.zero_add, stkRead_clean s hm hf _ _ hd]
  refine Prod.ext (List.ext_getElem? fun i => ?_) rfl
  simp only [List.getElem?_map]
  by_cases hi : i < xs.length
  · have h := stkOf_get a bs (o + i) hb
    rw [hx i hi, ← Nat.add_assoc] at h
    rw [← hk] at h
    have hn : nth 0 xs i = xs[i] := by simp [nth, hi]
    simp only [List.getElem?_range, hi, Option.map_some, List.getElem?_eq_getElem hi, State.stkByte]
    rw [← hn, ← h]
  · simp [hi]

theorem wit_piWrite :
    (let s := { up with img := { img with engines := [(0, 0)] } }; s.engineMay 0 0 0 = true ∧ (256 + 512 - s.fld (BQPTR_CI 0 0)) % 512 ≤ 256
      ∧ 256 < (257 + 512 - s.fld (BQPTR_CI 0 0)) % 512) ∧ up.engineMay 0 0 0 = false := by decide

/-- An engine at work on a descriptor of 64 bytes in stack 0 that holds bytes from 0x1000. -/
def eng (s : State) (g : EStage) (d : List Nat) (bs : List Nat) : State :=
  { s with
    engines := [(0, { Engine.reset with stage := g, desc := some ⟨d, false, 0⟩ })]
    stk := stkOf 0x1000 bs
    img := { s.img with engines := [(0, 0)], slots := [(0, [1]), (1, [2]), (2, [3]), (3, [0x10]), (4, [0x11]), (5, [0x20])] } }

/-- A descriptor: operation, flags, slot, format, A0, A1, A2, LEN, semaphore n waited on with count w. -/
def bd (opc fl prog fmt a0 a1 a2 len n w : Nat) : List Nat :=
  [opc, fl, prog, fmt, 0, 0, 0, 0] ++ leBytes 8 a0 ++ leBytes 8 a1 ++ leBytes 8 a2 ++ leBytes 8 len ++ List.replicate 12 0 ++ [n, 0] ++ leBytes 2 w
    ++ List.replicate 8 0

/-- A descriptor at 0x1000 that is next: one refused, one that waits, one that runs. -/
theorem wit_fetch : ([bd 9 0 0 0 0 0 0 0 0 0, bd 0 8 0 0 0 0 0 0 3 1, bd 0 0 0 0 0 0 0 0 0 0].all fun d =>
    let s := { withF up [(BQBASE_BASE 0 0, 1), (BQPTR_PI 0 0, 1)] with stk := stkOf 0x1000 d }
    s.canFetch 0 0 && (s.engine 0 0).abortTo.isNone && d.length == 64
      && s.inTop 0 (s.fld (BQBASE_BASE 0 0) * 4096 + s.fld (BQPTR_CI 0 0) % 256 * 64) 64 && s.fld (BQBASE_BASE 0 0) * 4096 == 0x1000
      && s.stkRead 0x1000 64 == (d.map fun b => (b, false), s)) = true
  ∧ up.bdStatic 0 0 (bd 9 0 0 0 0 0 0 0 0 0) = some (bsDesc, 0) ∧ up.bdStatic 0 0 (bd 0 8 0 0 0 0 0 0 3 1) = none
  ∧ bdDep (bd 0 8 0 0 0 0 0 0 3 1) = true ∧ up.bdStatic 0 0 (bd 0 0 0 0 0 0 0 0 0 0) = none := by decide

theorem wit_semaphore :
    let s := (eng up .waitSem (bd 0 8 0 0 0 0 0 0 3 1) []).modStack 0 fun x => { x with semq := [0] }
    let s := s.setFld (BSEM_COUNT 0 3) 1
    (s.engine 0 0).stage = .waitSem ∧ (s.engine 0 0).desc = some ⟨bd 0 8 0 0 0 0 0 0 3 1, false, 0⟩ ∧ s.firstWaiter 0 0 = true
      ∧ bdWcnt (bd 0 8 0 0 0 0 0 0 3 1) ≤ s.fld (BSEM_COUNT 0 (bdSemw (bd 0 8 0 0 0 0 0 0 3 1))) := by decide

theorem wit_binderyMemory :
    ([0, 6].all fun o => (eng up .running (bd o 0 0 0 0 0 0 0 0 0) []).engRun 0 0 o == some (bd o 0 0 0 0 0 0 0 0 0)) = true
  ∧ ([2, 3].all fun o =>
      let d := bd o 0 0 0 0x1000 0x2000 0 64 0 0
      let d := d.take 32 ++ leBytes 8 64 ++ d.drop 40
      let s := eng up .running d (List.range 64)
      s.engRun 0 0 o == some d && bdLen d == 64 && s.stkRead (bdA0 d) 64 == ((List.range 64).map fun b => (b, false), s)
        && bdA1 d == 0x2000 && !s.hitsFailed (stackBase 0 + bdA1 d) (bdLen d)) = true := by decide

theorem wit_completes :
    let s := eng up (.ended 3 0) (bd 0 0 0 0 0 0 0 0 0 0) []
    (s.engine 0 0).stage = .ended 3 0 ∧ (s.fld (BCQPTR_HEAD 0 0) + 512 - s.fld (BCQPTR_TAIL 0 0)) % 512 ≠ 256
      ∧ s.inTop 0 (s.fld (BCQBASE_BASE 0 0) * 4096 + s.fld (BCQPTR_HEAD 0 0) % 256 * 16) 16 = true
      ∧ ((s.setFld (BCQPTR_HEAD 0 0) 256).fld (BCQPTR_HEAD 0 0) + 512 - s.fld (BCQPTR_TAIL 0 0)) % 512 = 256 := by decide

/-- Argument block of an update of shard 5, 4,096 parameters, and its step record of step 1 at 0x1080. -/
def updArg (skip : Nat) : List Nat :=
  [5, 0, 0, 0, 0, 0, 0, 0] ++ leBytes 8 4096 ++ leBytes 8 0x1080 ++ List.replicate 8 0 ++ leBytes 8 0x10C0 ++ List.replicate 88 0 ++ [1, 0, 0, 0, skip] ++ List.replicate 59 0

/-- An update RUN of slot n, ready, with the shard's stage word. -/
def upd (n skip stage step : Nat) : State :=
  withF (eng up .running (bd 1 0 n 0 0 0 0x1000 0 0 0) (updArg skip)) [(SSTAGE_STAGE 0 5, stage), (SSTAGE_STEP 0 5, step)]

theorem wit_updateReady : ([0, 1].all fun n => [(0, 2, 1), (0, 1, 1), (3, 0, 0), (0, 0, 0)].all fun f =>
    let s := upd n f.1 f.2.1 f.2.2
    let arg := (updArg f.1).take 128
    let sr := (updArg f.1).drop 128
    s.engRunKind 0 0 (n + 1) == some (bd 1 0 n 0 0 0 0x1000 0 0 0) && arg.length == 128 && sr.length == 64 && le arg 16 8 == 0x1080 && s.inTop 0 0x1080 64
      && shardArrays.all (fun o => le arg o.1 8 % 64 == 0 && s.inTop 0 (le arg o.1 8) (le arg 8 8 / 4096 * o.2))
      && s.updateFault 0 arg sr == [] && s.fld (SSTAGE_STAGE 0 5) == f.2.1 && s.fld (SSTAGE_STEP 0 5) == f.2.2) = true := by decide

/-- Its blocks and its gradient exponents read clean. -/
theorem wit_updateReads (n stage step : Nat) (h : (upd n 0 stage step).fld (SFAIL_FAILMAP 0) = 0) :
    (upd n 0 stage step).stkHolds (stackBase 0 + (0x1000 + 0)) ((updArg 0).take 128) ∧ (upd n 0 stage step).stkHolds (stackBase 0 + (0x1000 + 128)) ((updArg 0).drop 128)
    ∧ (upd n 0 stage step).stkHolds (stackBase 0 + (0x1000 + 192)) (List.replicate 128 0) := by
  refine ⟨?_, ?_, ?_⟩ <;> exact stkOf_holds _ _ (updArg 0) (by decide) (by simp [upd, eng, withF]) (by simp [upd, eng, withF, up]; rfl) h _ _ (by decide) (by decide)

/-- An empty stack holds zeros. -/
theorem zeros_hold (s : State) (hk : s.stk = []) (hm : s.stkMark = []) (hf : s.fld (SFAIL_FAILMAP 0) = 0) (a n : Nat) (hd : a + n ≤ 0x800000000) :
    s.stkHolds (stackBase 0 + a) (List.replicate n 0) := by
  refine stkOf_holds s a [] (by simp) (by simp [hk, stkOf]) hm hf 0 _ (fun i hi => ?_) (by simpa using hd)
  have : i < n := by simpa using hi
  simp [nth, this]

/-- The first chunk of a skip pass over an empty stack: 4,096 parameters, and 8,192. -/
theorem wit_chunk : ([4096, 8192].all fun n =>
    let arg := [5, 0, 0, 0, 0, 0, 0, 0] ++ leBytes 8 n ++ List.replicate 56 0 ++ leBytes 8 0x100000 ++ List.replicate 48 0
    let s := { up with engines := [(0, { Engine.reset with stage := .running, aux := [paSkip, 5, 0] ++ arg ++ List.replicate 64 0 })] }
    (s.engine 0 0).stage == .running && (s.engine 0 0).aux == [paSkip, 5, 0] ++ arg ++ List.replicate 64 0 && arg.length == 128 && (s.engine 0 0).chunk == 0
      && !(s.engine 0 0).media && !(s.engine 0 0).pois && decide (0 < le arg 8 8 / 4096) && le arg 24 8 % 64 == 0 && le arg 72 8 == 0x100000
      && !s.hitsFailed (stackBase 0 + le arg 24 8) 8192) = true
  ∧ up.stkHolds (stackBase 0 + 0x100000) (List.replicate 16384 0) := ⟨by decide, zeros_hold up rfl rfl (by decide) _ _ (by decide)⟩

/-- SCAN of the exponents of 4,096 gradients. -/
theorem wit_scan :
    let arg := List.replicate 8 0 ++ leBytes 8 4096 ++ List.replicate 8 0 ++ leBytes 8 0x1080 ++ List.replicate 96 0
    let s := eng up .running (bd 1 0 2 0 0 0 0x1000 0 0 0) arg
    s.engRunKind 0 0 3 = some (bd 1 0 2 0 0 0 0x1000 0 0 0) ∧ arg.length = 128 ∧ scanFault arg = [] ∧ le arg 24 8 = 0x1080 ∧ s.inTop 0 0x1080 128 = true
    ∧ s.hitsFailed (stackBase 0 + 0x1040) 64 = false ∧ s.stkHolds (stackBase 0 + (0x1000 + 0)) arg
    ∧ s.stkHolds (stackBase 0 + (0x1000 + 128)) (List.replicate 128 0) := by
  refine ⟨by decide, by decide, by decide, by decide, by decide, by decide, ?_, ?_⟩ <;>
    exact stkOf_holds _ _ _ (by decide) rfl rfl (by decide) _ _ (by decide) (by decide)

/-- An item header: 32 BF16 gradients of shard 5 in one dimension. -/
def itemHead (src : Bool) : List Nat :=
  [0x43, 0x4B, 1, 2, 1, 1, 0, 0] ++ List.replicate 8 0 ++ (if src then List.replicate 16 0 else leBytes 8 32 ++ leBytes 8 64) ++ leBytes 8 32 ++ List.replicate 56 0
    ++ leBytes 8 32 ++ List.replicate 40 0 ++ (if src then [5, 0] else [0, 0]) ++ List.replicate 46 0

theorem wit_pack :
    let h := itemHead true
    let s := eng up .running (bd 5 0 0 1 0x10C0 0x2000 0x1000 64 0 0) h
    (s.engRun 0 0 5 = some (bd 5 0 0 1 0x10C0 0x2000 0x1000 64 0 0) ∧ h.length = 192 ∧ packFault h 1 64 (s.flag GCKCFG_NARROW) = [] ∧ packSrc h 64 = some 1
      ∧ isMX 1 = false ∧ packNarrow 1 1 = false ∧ s.inTop 0 0x2000 (192 + itemBytes 1 (boxSize (ciNdim h) (ciVec h 96))) = true
      ∧ s.hitsFailed (stackBase 0 + 0x2000) 256 = false)
    ∧ s.stkHolds (stackBase 0 + (0x1000 + 0)) h ∧ s.stkHolds (stackBase 0 + (0x1000 + 192)) (List.replicate 64 0) := by
  refine ⟨by decide, ?_, ?_⟩ <;> exact stkOf_holds _ _ _ (by decide) rfl rfl (by decide) _ _ (by decide) (by decide)

theorem wit_unpack :
    let h := itemHead false
    let a := leBytes 8 0x1080 ++ leBytes 8 0x2000 ++ leBytes 8 0 ++ [1, 1, 5, 0, 0, 0, 0, 0] ++ List.replicate 32 0 ++ leBytes 8 32 ++ List.replicate 56 0
    let s := eng up .running (bd 1 0 5 0 0 0 0x1000 0 0 0) (a ++ h)
    (s.engRunKind 0 0 0x20 = some (bd 1 0 5 0 0 0 0x1000 0 0 0) ∧ a.length = 128 ∧ h.length = 192 ∧ unpackFault h a = [] ∧ s.inTop 0 0x1080 (192 + ciBytes h) = true
      ∧ s.inTop 0 0x2000 (ceilDiv (elemArray 1 (boxSize (ciNdim h) (ciVec a 64))) 64 * 64) = true ∧ isMX 1 = false)
    ∧ s.stkHolds (stackBase 0 + (0x1000 + 0)) a ∧ s.stkHolds (stackBase 0 + (0x1000 + 128)) h := by
  refine ⟨by decide, ?_, ?_⟩ <;> exact stkOf_holds _ _ _ (by decide) rfl rfl (by decide) _ _ (by decide) (by decide)

/-- A layout of one block of BF16 zeros in MXFP4, into tile 3. -/
def layout : List Nat := [1, 0, 0, 0] ++ leBytes 4 64 ++ leBytes 4 32 ++ leBytes 4 64 ++ [3, 0, 0, 0] ++ leBytes 4 1 ++ leBytes 4 0 ++ leBytes 4 4096 ++ List.replicate 32 0

theorem nth_zeros (n i : Nat) : nth 0 (List.replicate n 0) i = 0 := by
  by_cases h : i < n <;> simp [nth, h]

/-- Its source rows. -/
theorem publish_source (s : State) (hk : s.stk = stkOf 0x1000 layout) (hm : s.stkMark = []) (hf : s.fld (SFAIL_FAILMAP 0) = 0) (k : Nat) (h : k ≤ 64) :
    s.pbSource 0 0x10000 layout k = (List.replicate k (List.replicate 32 (0, false)), s) := by
  induction k with
  | zero => rfl
  | succ k ih =>
    have hr := stkOf_holds s 0x1000 layout (by decide) hk hm hf (0xF000 + k * 64) (List.replicate 64 0)
      (fun i hi => by
        have h1 : layout.length = 64 := by decide
        rw [nth_zeros, nth, List.getElem?_eq_none (show layout.length ≤ 0xF000 + k * 64 + i by omega), Option.getD_none]) (by rw [List.length_replicate]; omega)
    have e : stackBase 0 + 0x10000 + k * pbStride layout = stackBase 0 + (0x1000 + (0xF000 + k * 64)) := by
      have : pbStride layout = 64 := by decide
      rw [this]; omega
    have hn : pbNdim layout * pbEsz layout = (List.replicate 64 0).length := by decide
    have hz : splitElems (8 * pbEsz layout) (pbNdim layout) ((List.replicate 64 0).map fun b => (b, false)) = List.replicate 32 (0, false) := by decide
    rw [State.pbSource, ih (by omega)]
    simp only [e, hn]
    unfold State.stkHolds at hr
    rw [hr, hz, List.replicate_succ' (n := k)]

theorem wit_publish :
    let s := eng up .running (bd 4 0 0 9 0x10000 0 0x1000 4096 0 0) layout
    (s.engRun 0 0 4 = some (bd 4 0 0 9 0x10000 0 0x1000 4096 0 0) ∧ layout.length = 64 ∧ pbReserved layout = false ∧ pbBroken 9 4096 layout = false
      ∧ pubBlocks 9 layout = 1 ∧ s.pubTargetOk 0 0 (bd 4 0 0 9 0x10000 0 0x1000 4096 0 0) layout = true ∧ s.pbPlacesOk 0 0 9 layout = true
      ∧ s.flag (TFLIP_PEND (le layout 16 2)) = false ∧ le layout 24 4 + pbSize 9 layout ≤ 0x1F0000 ∧ (pbVal layout 0).nonFinite = false)
    ∧ s.stkHolds (stackBase 0 + (0x1000 + 0)) layout ∧ s.pbSource 0 0x10000 layout (pbKdim layout) = (List.replicate 64 (List.replicate 32 (0, false)), s) := by
  refine ⟨by decide, stkOf_holds _ _ _ (by decide) rfl rfl (by decide) _ _ (by decide) (by decide), ?_⟩
  exact publish_source _ rfl rfl (by decide) 64 (by decide)

/-- Argument block of a far RUN of one fragment: round 1, its STATE word. -/
def farArg (st : Nat) : List Nat := [1, 0, 0, 0, 1, 0, 0, 0] ++ leBytes 8 65536 ++ List.replicate 96 0 ++ leBytes 8 st ++ List.replicate 8 0

/-- Done, in progress, and of an earlier round. -/
theorem wit_far : ([(0x10, false, 3), (0x11, true, 4)].all fun r => [1 + 2 ^ 52, 1, 0].all fun w =>
    let s := eng up .running (bd 1 0 r.2.2 0 0 0 0x1000 0 0 0) (farArg w)
    s.engRunKind 0 0 r.1 == some (bd 1 0 r.2.2 0 0 0 0x1000 0 0 0) && (farArg w).length == 128 && (xArrays r.2.1 (farArg w)).all
      (fun x => le (farArg w) x.1 8 % 64 == 0 && s.inTop 0 (le (farArg w) x.1 8) x.2) && xFault r.2.1 (farArg w) (le (farArg w) 112 8) == []
      && le (farArg w) 112 8 == w && xaRound (farArg w) == 1 && !s.hitsFailed (stackBase 0 + 0x1040) 64) = true
  ∧ (let s := { up with engines := [(0, { Engine.reset with stage := .running, aux := [6, 3, 0, 0] ++ farArg 1, chunk := 1 })] };
      (s.engine 0 0).aux = [6, 3, 0, 0] ++ farArg 1 ∧ xaFrags (farArg 1) ≤ (s.engine 0 0).chunk ∧ (s.engine 0 0).media = false) := by decide

theorem wit_farReads (w : Nat) (hw : w = 0 ∨ w = 1) : (eng up .running (bd 1 0 3 0 0 0 0x1000 0 0 0) (farArg w)).stkHolds (stackBase 0 + (0x1000 + 0)) (farArg w) := by
  rcases hw with rfl | rfl <;> exact stkOf_holds _ _ _ (by decide) rfl rfl (by decide) _ _ (by decide) (by decide)

/-! ## Ports, training step, ledger -/

/-- Port 0 in a state, of an image that enables it. -/
def porting (st : Nat) (x : Port) : State := { up.setFld (FPSTAT_STATE 0) st with ports := [(0, x)], img := { img with mports := [(0, ⟨true, 0, 0, 100, 5⟩)] } }

/-- HELLO runs. -/
def hi : Port := { Port.reset with inHello := true, good := 255 }

theorem wit_training :
    ([2, 5].all fun st => (porting st .reset).fld (FPSTAT_STATE 0) == st && !((porting st .reset).port 0).inHello && !((porting st .reset).port 0).fallback) = true
  ∧ lanesOfMask 255 = 255 ∧ lanesOfMask 0 = 0 ∧ up.colls = [] ∧ up.collWait = []
  ∧ (let x := (porting 3 hi).port 0; x.inHello = true ∧ x.heard = false ∧ x.retraining = false ∧ x.ackRecv = false ∧ x.ackSent = false
      ∧ lanesOfMask (x.good &&& 255) = 255)
  ∧ ((porting 3 { hi with ackSent := true }).port 0).ackSent = true
  ∧ (porting 6 .reset).fld (FPSTAT_STATE 0) = 6 ∧ (porting 6 .reset).pinsOff = false ∧ (porting 4 .reset).portUp 0 = true
  ∧ (let s := (porting 0 .reset).setFld (FPCTL_DISABLE 0) 1; s.flag (FPCTL_DISABLE 0) = true ∧ s.fld (FPSTAT_STATE 0) = 0 ∧ s.parked = false
      ∧ s.img.mports.find? (fun q => q.1 == 0) = some (0, ⟨true, 0, 0, 100, 5⟩)) := by decide

/-- A flit of a type with a packet's bytes. -/
def flit (nak : Bool) (ftype seq : Nat) (body : List Nat) : Flit := ⟨seq, ftype, 1, 0, false, nak, 1, 2, 3, body⟩

/-- A READ of 8 bytes of tile 3, in a flit. -/
def readPkt : Pkt := { mkPkt 1 2 0 (own 256) 8 9 0 with srank := 1, hops := 4 }

theorem wit_flits :
    (let s := porting 4 { Port.reset with unacked := [(5, flit false 1 5 [])] };
      s.portUp 0 = true ∧ (s.port 0).txq = [] ∧ (s.port 0).nakHold = false ∧ (s.port 0).accepted < 255 ∧ (s.port 0).rxSeq = 0 ∧ (s.port 0).naks < 7
        ∧ (s.port 0).unacked ≠ [] ∧ ((s.port 0).replays ≤ 5) ∧ (s.port 0).warned = false)
  ∧ (let q := pktParse 1 (pktHeader readPkt ++ List.replicate 212 0); q = readPkt ∧ pktMalformed q = false ∧ q.drank = up.rank ∧ q.opc = 2)
  ∧ ((porting 4 { Port.reset with ackDue := true }).port 0).ackDue = true ∧ 5 < ((porting 4 { Port.reset with replays := 6 }).port 0).replays := by decide

/-- A flit out of sequence, one in sequence with the READ, an IDLE flit and a NAK are read back from their bytes. -/
theorem wit_flitBytes : flitParse [] = none
  ∧ ([flit false 1 5 (List.replicate 244 0), flit false 1 0 (pktHeader readPkt ++ List.replicate 212 0), flit false 0 0 (List.replicate 244 0),
      flit true 0 0 (List.replicate 244 0)].all fun f => flitParse f.bytes == some f) = true := by decide +kernel

/-- A packet of an operation for this device, about tile 3's offset 256. -/
def pk (vc opc len : Nat) (data : List Nat) : Pkt := { mkPkt vc opc 0 (own 256) len 9 0 with srank := 1, hops := 4, data := data }

theorem wit_served :
    (let p := pk 0 1 8 (List.range 8); let s := run (regs 7 9 0);
      pktMalformed p = false ∧ p.drank = s.rank ∧ (p.opc = 1 ∧ s.rxTurn 0 p = true) ∧ inTileWindow p.addr = true ∧ p.addr < 2 ^ 48 ∧ p.data.length = p.len ∧ s.isMem p.addr p.len = true
        ∧ winOff p.addr + p.len ≤ 0x1F0000 ∧ (s.tile (winTile p.addr)).marking = false ∧ s.flag (TFLIP_PEND (winTile p.addr)) = false)
  ∧ (let s := run { regs 7 9 0 with bank := bank 256 (List.range 8) }; winTile readPkt.addr = 3 ∧ winOff readPkt.addr = 256
      ∧ (∀ k < 8, (s.tile 3).clean (256 + k) = true) ∧ pktMalformed readPkt = false ∧ readPkt.drank = s.rank ∧ (readPkt.opc = 2 ∧ s.rxTurn 0 readPkt = true)
      ∧ s.isMem readPkt.addr 8 = true)
  ∧ (let p := { pk 2 5 24 (List.replicate 24 1) with addr := own 0x300478 }; pktMalformed p = false ∧ mboxAt p.addr = some (3, 15)
      ∧ p.opc = 5 ∧ up.rxTurn 0 p = true ∧ p.drank = up.rank ∧ (up.tile 3).marking = false)
  ∧ (let p := pk 1 8 56 (List.replicate 56 0); pktMalformed p = false ∧ up.rrFail p ≠ 0 ∧ p.opc = 8 ∧ up.rxTurn 0 p = true ∧ p.drank = up.rank)
  ∧ ([(0, 1), (1, 2), (0, 3), (1, 4), (2, 5), (2, 6), (1, 8)].all fun r =>
      let p := { pk r.1 r.2 0 [] with drank := 1 }
      let s := withR (withF (porting 4 .reset) [(FPSTAT_VER 0, 3)]) [(aFROUTE 0, 8 * 256)]
      p.opc == r.2 && !s.mesh.contains p && s.rxTurn 0 p && !pktMalformed p && p.drank != s.rank && p.hops != 0 && s.routePort 1 == some 0 && decide (pktMinor p ≤ s.fld (FPSTAT_VER 0))) = true := by decide

/-- A remote reset with a sound tag, under a key of zeros. -/
theorem wit_remoteReset :
    let s := { up with keys := [(0, some ⟨List.replicate 32 0, 2⟩)], img := { img with params := [(2, 0)] } }
    let p := { mkPkt 1 8 0 0 56 0 0 with data := leBytes 8 1 ++ leBytes 8 0 ++ [1] ++ List.replicate 23 0 ++ [105, 110, 168, 12, 59, 204, 212, 168, 8, 184, 39, 3, 118, 131, 75, 105] }
    s.rrFail p = 0 ∧ le p.data 16 1 = 1 ∧ p.data.length = 56 ∧ pktMalformed p = false ∧ p.drank = s.rank ∧ s.boot = .up ∧ p.opc = 8 ∧ s.rxTurn 0 p = true := by decide

/-- A read and a scalar store outstanding to rank 1. -/
def out1 : State :=
  { up with reads := [⟨4, 9, 0, 1, own 256, 8, 0, 0, [], 0⟩], writes := [⟨5, 1, 9, 3, 0, own 256, 0, 0⟩] }

theorem wit_replies :
    (let p := pk 0 3 8 (List.range 8); (out1.readFor p).isSome = true ∧ (out1.readFor { p with tag := 8 }).isNone = true ∧ pktMalformed p = false
      ∧ (up.readFor p).isNone = true ∧ (p.opc = 3 ∧ out1.rxTurn 0 p = true ∧ p.drank = out1.rank)
      ∧ ∀ w ∈ out1.writes, w.from { p with tag := 8 } = false ∨ w.tag ≠ 8 ∨ w.gen ≠ p.tgen)
  ∧ (let p := pk 1 4 0 []; (out1.writes.find? (fun w => w.from p && w.tag == p.tag && w.gen == p.tgen && w.addr == p.addr && w.kind != 5)).any (·.kind == 0) = true
      ∧ out1.routeWait = [] ∧ p.opc = 4 ∧ out1.rxTurn 0 p = true ∧ pktMalformed p = false ∧ p.drank = out1.rank)
  ∧ (out1.reads.find? (fun r => r.rid == 4 && r.st == 0)).isSome = true ∧ (out1.writes.find? (fun w => w.wid == 5)).isSome = true
  ∧ up.pfOrFw 0 = true ∧ up.writes = [] := by decide

theorem wit_packets : (okPkt readPkt && !readPkt.rsv && okPkt (pk 0 1 8 (List.range 8))) = true
    ∧ (flit false 1 5 (List.replicate 244 0)).body.length = 244 := by decide

/-- A decision of step 1: a norm within its bounds, an exponent overflow, and a clean count at the interval. -/
theorem wit_step :
    (up.trainMay 0 = true ∧ up.decision = none ∧ up.fld GSTEP_LAST = 0 ∧ up.fld GLEDCTL_MODE = 0)
  ∧ (let s := { up with img := { img with ctxs := [(1, { fwCtx with fw := false, training := false })] } }; s.trainMay 1 = false ∧ s.pfOrFw 1 = false)
  ∧ (decideStep 256 0 0 0 0).skip = true ∧ (decideStep 142 0 0 0 0).skip = false
  ∧ up.fld GLSCALE_CLEAN + 1 < (up.setFld GLSCFG_INTERVAL 9).fld GLSCFG_INTERVAL
  ∧ (up.setFld GLSCFG_INTERVAL 1).fld GLSCFG_INTERVAL ≤ up.fld GLSCALE_CLEAN + 1
  ∧ (up.fld GNFPTR_WP + 16 - up.fld GNFPTR_RP) % 16 ≠ 8 ∧ ((up.setFld GNFPTR_WP 8).fld GNFPTR_WP + 16 - up.fld GNFPTR_RP) % 16 = 8
  ∧ up.shardBusy 0 5 = false
  ∧ { up with engines := [(0, { Engine.reset with stage := .running, aux := [1, 5, 0] ++ List.replicate 192 0 })] }.shardBusy 0 5 = true := by decide

theorem wit_ledger :
    (let s := withF up [(GLEDBASE_SIZE, 1)]; s.ringBytes ≠ 0 ∧ s.ledGap = 0 ∧ s.ledFits 128 = true ∧ s.ledPad (s.fld GLEDWP_WP) 128 = 0)
  ∧ (let s := { withF up [(GLEDBASE_SIZE, 1), (GLEDCTL_MODE, 1), (GCTL_DETM, 0), (GCTL_DETMF, 0)] with ledGap := 3 };
      s.ledGap ≠ 0 ∧ s.ledFits 64 = true ∧ s.ledPad (s.fld GLEDWP_WP) 64 = 0 ∧ s.detm = false ∧ s.isMem (s.ringAddr 0) 64 = true
        ∧ s.ringAddr 0 % 64 = 0 ∧ s.hitsFailed (s.ringAddr 0) 64 = false ∧ s.fld GLEDCTL_MODE = 1)
  ∧ up.phaseOpen 3 = false ∧ (up.setFld GPHOPEN_OPEN 8).phaseOpen 3 = true := by decide

/-! ## The far exchange -/

/-- Site 0's device with far port 0 up, a far key of zeros, a quorum of 1, and site 1 as its partner with an entry word. -/
def farSt (e : Nat) : State :=
  let s := { up with keys := [(0, some ⟨List.replicate 32 0, 4⟩)], img := { img with fports := [(0, ⟨true, 0, 64, 9000, 49700, 0, 0, 0, 0, 10⟩)] } };
  withR (withF s [(XCFG_MAXVER, 2), (XCFG_QUORUM, 1), (XPSTAT_UP 0, 1), (XPRATE_BURST 0, 64), (XAREA_COUNT 0, 1), (XAREA_COUNT 4, 1)])
    [(aXPART 8, e), (aXPART 9, 11)]

/-- Site 1 ACTIVE from round 0, at version 1. -/
def farUp1 : State := farSt (256 + 2 ^ 16)

/-- A FRAG descriptor for site 1 of two folios at tile 3's offset 512, and its first folio. -/
def fragDesc : List Nat :=
  [1, 1, 2, 0] ++ leBytes 4 1 ++ leBytes 8 (own 512) ++ leBytes 8 64 ++ leBytes 4 2 ++ List.replicate 24 0 ++ [1] ++ List.replicate 11 0

/-- Tile 3 holds the descriptor at 320 and the folio at 512. -/
def farTile : Tile := { regs 7 9 0 with bank := bank 320 fragDesc ++ bank 512 zeroFolio }

theorem wit_farSend :
    (let s := farUp1.setTile 3 farTile; let a := own 320; let d := (s.tile (winTile a)).bytesAt (winOff a) 64;
      s.trainMay 0 = true ∧ s.trainMay 1 = true ∧ ({ s with img := Image.empty } : State).trainMay 1 = false ∧ s.far.jobs = [] ∧ s.ctxMay 0 a 64 = true ∧ a % 64 = 0 ∧ s.isLocal a = true ∧ inTileWindow a = true
        ∧ s.isMem (addrDev a) 64 = true ∧ fdType d = 1 ∧ fdWrong d = false ∧ fdNfrag d ≠ 0 ∧ winOff a = 320) ∧ fragDesc.length = 64
  ∧ (let d := [4, 0x21] ++ fragDesc.drop 2; fdType d = 4 ∧ fdWrong d = false ∧ fdNfrag d ≠ 0) := by decide

/-- The descriptor's bytes read clean. -/
theorem wit_farSend_clean : (farUp1.setTile 3 farTile).tile 3 = farTile ∧ farTile.cleanRange 320 64 := by
  refine ⟨by decide, by decide, fun k hk => ?_⟩
  have h : ∀ k < 64, farTile.clean (320 + k) = true := by decide
  exact h k hk

/-- The descriptor is at the head of port 0's list; site 1 is due. -/
def farJob : State := { farUp1 with far := { Far.reset with jobs := [⟨fragDesc, own 320, 0, 0, 0, none⟩] } }.setTile 3 farTile

theorem wit_farTransmit :
    (let s := farUp1.farCtl 0 [1]; s.farQueue 0 = [[1]] ∧ s.farUp 0 = true ∧ farCost [1] ≤ s.farLevel 0 ∧ s.replay = false)
  ∧ (let s := farJob; s.farQueue 0 = [] ∧ s.frozen = false ∧ s.replay = false ∧ s.far.repairs = [] ∧ fdType fragDesc = 1 ∧ (s.folioAt fragDesc 0).1 = some zeroFolio
      ∧ ((((List.range 16).filter fun n => bitOf (fdMask fragDesc) n)).filter fun n => s.pState n == 1 || s.pState n == 3) = [1]
      ∧ s.farRoute fragDesc (fdFbase fragDesc + 0) = (0, some 0) ∧ 0 + 1 < fdNfrag fragDesc) := by decide

/-- Reading a clean folio leaves the state as it was. -/
theorem wit_farTransmit_folio : (farJob.folioAt fragDesc 0).2 = farJob := by rfl

theorem wit_farTransmit_frame :
    ((farJob.farFrame 1 0 (farData fragDesc 0 zeroFolio)).any fun f => decide (farCost f ≤ farJob.farLevel 0)) = true := by decide

/-- Frames of site 1 to site 0 under the key of zeros, built outside this file: bytes, VER, message. -/
def frames : List (List Nat × Nat × FarMsg) :=
  [(leBytes 130 0x69f4e8ab75add9397637016e61ec66cd9a7b06b60000000000000000000000000000000000000000000000000000000000000000000000000000000000000100020258a1894a480024c224c20000000000000000000000000000000a0000000000000000000000000000000b4011480001000060dd86000000000000000000000000, 2, ⟨ftHello, 0, 0, 0, 0, 0, []⟩),
   (leBytes 130 0x4efa9683780b351095c67d62d4080196d2c05a930000000000000000000000000000000000000000000100000000000000000000000000000000000000000100030158a1f58a480024c224c20000000000000000000000000000000a0000000000000000000000000000000b4011480001000060dd86000000000000000000000000, 1, ⟨ftJoin, 0, 0, 0, 1, 0, []⟩),
   (leBytes 130 0xeb9c63ff3751a66318a5e078fdac1d917f7d387b0000000000000000000000010000000000000000000000000000000000000000000000000000000000000100050158a10cb9480024c224c20000000000000000000000000000000a0000000000000000000000000000000b4011480001000060dd86000000000000000000000000, 1, ⟨ftEnter, 0, 0, 0, 0, 1, []⟩),
   (leBytes 131 0xd8faa3216e43f9a46d1af90b3ef9b79c1c74025090000000000000000000000000000000000000000000000010000000100000000000000010000000000000100010158a18219490024c224c20000000000000000000000000000000a0000000000000000000000000000000b4011490001000060dd86000000000000000000000000, 1, ⟨ftFrag, 1, 0, 1, 0, 0, [9]⟩),
   (leBytes 131 0x75012e8504013db279855d4b3737f61e9f7e133c090000000000000000000000000000000000000000000c00010000000100000000000000010000000000000100040158a120b3490024c224c20000000000000000000000000000000a0000000000000000000000000000000b4011490001000060dd86000000000000000000000000, 1, ⟨ftCatch, 1, 0, 1, 12, 0, [9]⟩)]

theorem wit_farOk : (frames.all fun f => farUp1.farCheck 0 f.1 == .ok 1 f.2.1 f.2.2) = true := by decide

theorem wit_farBad :
    farUp1.farUp 0 = true ∧ farUp1.replay = false ∧ farUp1.farCheck 0 [] = .drop
  ∧ farUp1.farCheck 0 (leBytes 76 0x166a6254000000000000000000008167120024c224c20000000000000000000000000000000a0000000000000000000000000000000a4011120000000060dd86000000000000000000000000) = .malform
  ∧ ({ farUp1 with keys := [] }).farCheck 0 (leBytes 130 0x69f4e8ab75add9397637016e61ec66cd9a7b06b60000000000000000000000000000000000000000000000000000000000000000000000000000000000000100020258a1894a480024c224c20000000000000000000000000000000a0000000000000000000000000000000b4011480001000060dd86000000000000000000000000) = .tag 1 0 := by decide

theorem wit_farIn :
    (let s := farUp1; s.pCounts 1 1 = true ∧ s.fld XRSTAT_SEALED + 1 ≤ 1 + s.fld XCFG_STALE ∧ 1 ≤ s.fld XRSTAT_SEALED + 3 ∧ (s.nfragOf 1 1).getD 1 = 1
      ∧ s.far.seen.contains (1, 1, 0) = false ∧ s.flag XRSTAT_WAITING = false ∧ s.freeSlot 0 = some 0)
  ∧ (let s := { farUp1 with far := { Far.reset with seen := [(1, 1, 0)] } }; s.far.seen.contains (1, 1, 0) = true)
  ∧ (farSt (256 * 3)).pState 1 = 3 ∧ (farSt (256 * 3)).fld XRSTAT_SEALED < 1
  ∧ (let x : Catch := ⟨1, 3, [], []⟩; let s := { farUp1 with far := { Far.reset with accession := 1, catch_ := some x } };
      s.far.accession = 1 ∧ 2 ≤ bitsOf 12 2 2 ∧ bitsOf 12 0 2 < bitsOf 12 2 2 ∧ x.got.contains (bitsOf 12 0 2, 0) = false ∧ 0 < s.fld (XAREA_COUNT (4 + bitsOf 12 0 2)))
  ∧ (let y : Catch := ⟨1, 3, [(0, 1)], [(0, 0)]⟩; let z : Catch := ⟨1, 2, [(0, 1), (1, 1)], [(1, 0), (0, 0)]⟩; y.whole = false ∧ z.whole = true) := by decide

theorem wit_neighbor :
    (nsSource (farUp1.fport 0) (leBytes 82 0xa5bd3ba80000000000000000000000000000000a00000000ad5900870000000000000000000000000000000a0000000000000000000000000000000bff3a180000000060dd86000000000000000000000000)).isSome = true
  ∧ nsSource (farUp1.fport 0) [] = none := by decide

theorem wit_rounds :
    (farUp1.trainMay 0 = true ∧ farUp1.fld GLEDCTL_MODE = 0 ∧ farUp1.fld XRSTAT_SEALED = 0 ∧ farUp1.flag XRSTAT_WAITING = false
      ∧ ((List.range 16).filter fun n => farUp1.meets n 1).length < min (farUp1.fld XCFG_QUORUM) (farUp1.counting 1).length)
  ∧ (let s := farUp1.setFld XCFG_QUORUM 0; min (s.fld XCFG_QUORUM) (s.counting 1).length ≤ ((List.range 16).filter fun n => s.meets n 1).length ∧ s.far.manifests = [])
  ∧ (let s := farUp1.setFld XRSTAT_WAITING 1; s.flag XRSTAT_WAITING = true ∧ s.far.deadline ≤ s.now ∧ s.far.manifests = [] ∧ s.fld XRSTAT_SEALED + 1 < 2 ^ 32)
  ∧ (let s := { farUp1 with far := { Far.reset with deadline := farUp1.now + 1 } }; s.now < s.far.deadline)
  ∧ (let s := { farUp1 with far := { Far.reset with manifests := [(1, [])] } }; s.far.manifests.any (fun m => m.1 == 1) = true ∧ s.flag XRSTAT_WAITING = false)
  ∧ (let s := farUp1.setFld XRSTAT_CATCHING 1; s.flag XRSTAT_CATCHING = true ∧ s.flag XRSTAT_WAITING = false) := by decide

theorem wit_accession :
    (let x : Catch := ⟨1, 2, [], []⟩; let s := { farSt (256 + 2 ^ 10 + 2 ^ 16) with far := { Far.reset with accession := 1, catch_ := some x } };
      s.sponsor = some 1 ∧ s.far.accession = 1 ∧ x.whole = false ∧ s.replay = false ∧ s.farUp 0 = true
        ∧ (s.farFrame 1 0 ⟨ftJoin, x.base, 0, 0, 2, 0, x.missing.flatMap fun q => leBytes 4 (q.2 % 2 ^ 30 + q.1 * 2 ^ 30)⟩).isSome = true)
  ∧ (let s := farUp1; s.replay = false ∧ s.partners = [1] ∧ s.farUp (s.far.hello % 2) = true ∧ s.pVer 1 = 1
      ∧ (s.farFrame 1 (s.far.hello % 2) ⟨ftHello, 0, 0, 0, s.fld XRSTAT_CATCHING, s.fld XRSTAT_SEALED, []⟩).isSome = true)
  ∧ (farUp1.boot = .up ∧ farUp1.parked = false ∧ farUp1.pinsOff = false ∧ (farUp1.fport 0).en = true ∧ (farUp1.setFld (XPSTAT_UP 0) 0).farUp 0 = false)
  ∧ up.pfOrFw 0 = true ∧ up.fld XRSTAT_SEALED = 0 ∧ up.flag XRSTAT_CATCHING = false := by decide

/-! ## The host -/

/-- A command of an operation with arguments. -/
def cmd (opc : Nat) (args : List Nat) : Cmd := ⟨[opc, 0, 0, 0] ++ leBytes 4 7 ++ args.flatMap (leBytes 8) ++ List.replicate (56 - 8 * args.length) 0, 1, 0, 0, 0⟩

/-- Context c runs in partition 0 with its queue enabled (one unfetched entry) and commands fetched. -/
def hq (c : Nat) (cmds : List Cmd) : State :=
  withF { up with
    occup := [(0, some c)]
    ctxs := [(c, { Ctx.reset with cmds := cmds, hasRun := true, vfEnabled := true })] }
    [(HQCFG_EN c, 1), (HQCFG_VER c, 1), (HQSQTAIL_TAIL c, 1), (HPSTAT_CUR 0, c)]

/-- Every context and partition of the small image is in range. -/
theorem img_numbers : up.numbersOk := ⟨by decide, by decide⟩

theorem wit_queues :
    (let s := hq 0 []; s.boot = .up ∧ (s.ctx 0).resetDue = none ∧ s.img = up.img
      ∧ (∀ v ∈ [0, 1], (v + 2 * ringSize (s.fld (HQCFG_SQLOG 0)) - s.fld (HQSQHEAD_HEAD 0) % (2 * ringSize (s.fld (HQCFG_SQLOG 0)))) % (2 * ringSize (s.fld (HQCFG_SQLOG 0)))
          ≤ ringSize (s.fld (HQCFG_SQLOG 0)) ∧ v < 2 * ringSize (s.fld (HQCFG_SQLOG 0)))
      ∧ 2 * ringSize (s.fld (HQCFG_SQLOG 0)) ≤ 2 ^ 17 - 1 ∧ s.flag (HCTXSTAT_FAULT 0) = false)
  ∧ ([(1, 10, true), (2, 0, true), (1, 11, false), (3, 0, false), (0, 0, false)].all fun x =>
      let v := BitVec.ofNat 64 (2 ^ (HQCFG_EN 0).lo + x.1 * 2 ^ (HQCFG_VER 0).lo + x.2.1 * 2 ^ (HQCFG_SQLOG 0).lo)
      v &&& 0x3FF000FFF07 == v && bitsOf v.toNat (HQCFG_VER 0).lo (HQCFG_VER 0).w == x.1 && bitsOf v.toNat (HQCFG_SQLOG 0).lo (HQCFG_SQLOG 0).w == x.2.1
        && decide (x.2.1 ≤ 10 ∧ (x.1 = 1 ∨ x.1 = 2)) == x.2.2) = true := by decide

theorem wit_hostFetch :
    (let s := hq 0 []; s.queueLive 0 = true ∧ s.unfetched 0 = true ∧ s.flag HLINK_UP = true ∧ s.frozen = false ∧ s.cqRoom 0 = true ∧ s.ctxPart 0 = some 0
      ∧ s.curCtx 0 = some 0 ∧ s.switchAt 0 = .none ∧ s.dmas = [] ∧ (s.ctx 0).cmds = [] ∧ s.fld (HQCFG_SQLOG 0) ≤ 10)
  ∧ (let d : Dma := ⟨4, 0, 4096, 64, .fetch, 1⟩; let s := { hq 0 [] with dmas := [d] }; let bs := (cmd 9 []).bytes;
      s.dmas.find? (fun e => e.id == d.id) = some d ∧ bs.length = d.len ∧ le bs 0 1 ≤ 9 ∧ s.flag (HCTXSTAT_FAULT d.ctx) = false ∧ d.ctx < 512)
  ∧ (let d : Dma := ⟨4, 0, 4096, 64, .data, 1⟩; let x := { cmd 1 [4096, own 256, 64] with stage := 1 }; let s := { hq 0 [x] with dmas := [d] };
      s.dmas.find? (fun e => e.id == d.id) = some d ∧ d.len = 64 ∧ (s.ctx d.ctx).cmds = [x] ∧ x.head = d.head ∧ x.stage = 1 ∧ x.opc = 1 ∧ x.status = 0
        ∧ s.fld GLEDCTL_MODE = 0 ∧ x.arg 1 < 2 ^ 48 ∧ inTileWindow (x.arg 1) = true ∧ winOff (x.arg 1) + 64 ≤ 0x1F0000 ∧ s.flag (TFLIP_PEND (winTile (x.arg 1))) = false
        ∧ (s.tile (winTile (x.arg 1))).marking = false)
  ∧ (let x := { cmd 0 [] with stage := 2 }; let s := hq 0 [x]; (s.ctx 0).cmds[0]? = some x ∧ x.stage = 2 ∧ s.queueLive 0 = true ∧ s.cqRoom 0 = true) := by decide

/-- Commands of every operation, sound, with the contexts they are for. -/
def cmds : List (Nat × Cmd) :=
  [(0, cmd 0 []), (0, cmd 1 [4096, own 256, 64]), (0, cmd 2 [4096, own 256, 64]), (0, cmd 3 [3, 9]), (0, cmd 3 [8, 9]), (0, cmd 4 [3]), (0, cmd 5 [own 256]),
   (0, cmd 6 [4096, 1]), (0, cmd 6 [4096, 64]), (0, cmd 7 [aTTOK 3 2, 1]), (0, cmd 8 [aTTOK 3 2, 1]), (0, cmd 9 [1 + 2 ^ 16]), (1, cmd 1 [4096, tileBase 8, 64])]

theorem wit_cmds :
    (cmds.all fun e => let s := hq e.1 [e.2]; (s.ctx e.1).cmds[0]? == some e.2 && s.cmdMayStart e.1 0 e.2 && !e.2.reserved (s.fld (HQCFG_VER e.1)))
  ∧ ((List.range 10).all fun o => let x := cmd o [0, 0, 0, 0, 1]; (hq 0 [x]).cmdMayStart 0 0 x && x.reserved 1 && x.opc == o)
  ∧ (hq 0 []).frozen = false ∧ (hq 0 []).colls.length < 16 := by decide

theorem wit_cmdCases :
    (let s := hq 0 []; s.copyStatus 0 (own 256) 64 true = 0 ∧ s.copyStatus 0 (own 256) 0 true = 1 ∧ (hq 1 []).copyStatus 1 (tileBase 8) 64 true = 2
      ∧ s.copyStatus 0 (own 256) 64 false = 0 ∧ 4096 % 512 + 64 ≤ 512)
  ∧ (let s := hq 0 []; s.cmdTile 0 3 = true ∧ s.cmdTile 0 8 = false ∧ s.fld (TSQSTAT_STATE 3) = stIdle ∧ (s.tile 3).marking = false ∧ (s.tile 3).trap = none)
  ∧ (let s := hq 0 []; s.srCtxIs 1 (some 0) = true ∧ s.srCtxIs 2 (some 0) = false ∧ (match s.cmdToken 0 (aTTOK 3 2) with
      | .ok r => r == (3, 2)
      | .error _ => false) = true
      ∧ 1 ≤ (s.setFld (TTOK_COUNT 3 2) 1).fld (TTOK_COUNT 3 2) ∧ s.fld (TTOK_COUNT 3 2) < 1)
  ∧ (let s := withR (withF { hq 0 [] with keys := [(0, some ⟨List.replicate 32 0, 2⟩)], img := { img with params := [(2, 0)] } } [(FPSTAT_VER 0, 1), (FPSTAT_STATE 0, 4)]) [(aFROUTE 0, 8 * 256)];
      s.rrKey.isSome = true ∧ s.pfOrFw 0 = true ∧ bitsOf ((cmd 9 [1 + 2 ^ 16]).arg 0) 16 8 = 1 ∧ s.routePort 1 = some 0 ∧ 1 ≤ s.fld (FPSTAT_VER 0))
  ∧ (hq 0 []).rrKey = none := by decide

/-- Tile 3 with 64 zero bytes at 256. -/
def zero64 : Tile := { Tile.reset with bank := zeros 256 64 }

/-- What READ sends and what a host read of the bank answers is clean. -/
theorem wit_hostBytes : ((hq 0 []).setTile 3 zero64).tile 3 = zero64 ∧ zero64.cleanRange 256 64 := ⟨by decide, zeros_clean _ _ _ rfl (by decide)⟩

theorem wit_accesses :
    (up.boot = .up ∧ up.flag HLINK_UP = true ∧ own 256 < 2 ^ 42 ∧ inTileWindow (own 256) = true ∧ up.isMem (own 256) 64 = true
      ∧ (up.tile 3).marking = false ∧ up.flag (TFLIP_PEND 3) = false ∧ winOff (own 256) + 64 + 63 ≤ up.scBase 3)
  ∧ up.barAddr 0 1 0 = none ∧ up.barAddr 1 2 (2 ^ 34) = none ∧ up.barAddr 0 2 (2 ^ 42) = none ∧ ({ up with boot := .hold } : State).boot = .hold
  ∧ ([0, 1, 2].all fun b => b != barConfig) = true
  ∧ (let x := tileBase 3 + 0x300208; up.goneTile x = false ∧ beatCounter x = true ∧ up.beatsRun x = false ∧ accessOk x 8 = true ∧ (regSpecAt x).isSome = true ∧ up.regReads (some 0) x = true ∧ mboxAt x = none ∧ x ≠ aARFP)
  ∧ regSpecAt (tileBase 3 + 0x300FF8) = none
  ∧ (let x := tileBase 3 + 0x300228; accessOk x 1 = true ∧ (regSpecAt (x - x % 8)).isSome = true ∧ tileBase 3 ≤ x ∧ x < tileBase 4 ∧ mboxAt (x - x % 8) = none
      ∧ x ≠ aTSQCTL 3 ∧ x ≠ aTFLIP 3 ∧ x ≠ aTSCCTL 3 ∧ up.goneTile x = false) := by decide

/-- Partition 0 holds context c; its other context has work. -/
def two (w : Switch) : State :=
  let s := hq 0 [];
  withF { s with
    ctxs := [(0, { Ctx.reset with hasRun := true }), (1, { Ctx.reset with vfEnabled := true })]
    switches := [(0, w)] } [(HQCFG_EN 1, 1), (HQSQTAIL_TAIL 1, 1)]

theorem wit_switch :
    (let s := two .none; s.curCtx 0 = some 0 ∧ s.nextReady 0 = some 1 ∧ s.switchAt 0 = .none)
  ∧ (let s := two (.draining 1); s.switchAt 0 = .draining 1 ∧ s.occupant 0 = some 0 ∧ s.partDrained 0 0 = true
      ∧ (s.setTile 3 { Tile.reset with loads := [ld false true] }).partDrained 0 0 = false
      ∧ ∀ t ∈ s.tilesOf 0, (s.tile t).posted = [])
  ∧ (let s := two (.saving 1); s.switchAt 0 = .saving 1 ∧ s.occupant 0 = some 0)
  ∧ (let s := two (.restoring 1); s.switchAt 0 = .restoring 1 ∧ (s.ctx 1).startDue = false ∧ s.halted = false ∧ (s.ctx 1).hasRun = false)
  ∧ (let s := two (.restoring 0); (s.ctx 0).hasRun = true ∧ (s.ctx 0).saved = []) := by decide

/-- No reset is due of any context. -/
theorem wit_noReset (w : Switch) (c : Nat) : ((two w).ctx c).resetDue = none := by
  have h : (two w).ctxs = [(0, { Ctx.reset with hasRun := true }), (1, { Ctx.reset with vfEnabled := true })] := rfl
  simp only [State.ctx, h, SMap.get]
  split <;> [rfl; (split <;> [rfl; rfl])]

theorem wit_ctxResets :
    (let s := two .none; s.pfOrFw 0 = true ∧ s.ctxPart 0 = some 0 ∧ s.inSwitch 0 0 = false ∧ s.img = up.img)
  ∧ (let s := two (.saving 1); s.inSwitch 0 0 = true ∧ (s.ctx 0).resetDue = none) ∧ (two .none).pfOrFw 1 = false
  ∧ (let s := up.setFld HLINK_UP 0; s.flag HLINK_UP = false ∧ s.boot = .up ∧ s.pinsOff = false)
  ∧ (hq 0 []).flag (HQCFG_EN 0) = true ∧ (hq 0 []).flag (HCTXSTAT_FAULT 0) = false := by decide

/-! ## Flash, power, halt, resets, start-up -/

theorem wit_flash :
    (up.pfOrFw 0 = true ∧ up.pfOrFw 1 = false ∧ up.flashOp = none ∧ up.flashQ = [] ∧ up.boot ≠ .reading ∧ 65536 % 65536 = 0 ∧ 65537 % 256 ≠ 0)
  ∧ (let s := { up with flashOp := some (2, 256) }; s.flashOp = some (2, 256) ∧ s.flashQ = [])
  ∧ (let s := { up with flashOp := some (2, 256), flashQ := [(1, 0)] }; s.flashOp = some (2, 256) ∧ s.flashQ = (1, 0) :: [] ∧ s.boot ≠ .reading) := by decide

/-- A load of slot 3 from stack 0's start. -/
def loading : State := { up with keyLoad := some (3, 0) }

theorem wit_keys :
    (up.keyLoad = none ∧ ({ up with keyLoad := some (3, 2 ^ 48) } : State).isLocal (2 ^ 48) = false) ∧ loading.keyLoad.isSome = true ∧ loading.isLocal 0 = true ∧ addrDev 0 < 0x8000000000 ∧ loading.isMem (addrDev 0) 56 = true
  ∧ loading.stkHolds (addrDev 0) (List.replicate 56 0) := ⟨by decide, by decide, by decide, by decide, by decide, zeros_hold loading rfl rfl (by decide) 0 56 (by decide)⟩

/-- Every blob meets one of the two clauses of a load's end. -/
theorem wit_blob (b : List Nat) : (∃ k, openBlob b = .ok k) ∨ ∃ e, openBlob b = .error e := by
  cases h : openBlob b with
  | ok k => exact .inl ⟨k, rfl⟩
  | error e => exact .inr ⟨e, rfl⟩

theorem wit_watchdog :
    (let s := { up.setFld CWDOG_LIMIT 1 with clk := 1000000 }; s.boot = .up ∧ s.fld CWDOG_LIMIT ≠ 0 ∧ s.dogAt + s.fld CWDOG_LIMIT * 1000000 ≤ s.clk)
  ∧ (let s := up.setFld CWDOG_LIMIT 1; s.clk < s.dogAt + s.fld CWDOG_LIMIT * 1000000) ∧ (up.setFld CWDOG_LIMIT 0).fld CWDOG_LIMIT = 0 := by decide

/-- The life budget is spent after 5,000 hours whatever the grade. -/
theorem wit_spent : peakBudget ≤ ({ up with hoursBurnt := 5000 } : State).peakHours := by
  simp only [State.peakHours, peakBudget]
  split <;> omega

theorem wit_power :
    (up.parked = false ∧ up.parkBar = 0 ∧ up.colls = [] ∧ up.collWait = [] ∧ (up.setFld (HCTXSTAT_STATE 0) 2).parkBar ≠ 0)
  ∧ (let s := up.setFld PCTL_PARK 1; s.parked = true ∧ s.halt.runs = [] ∧ s.img.mports = [] ∧ s.occup = []) := by decide

theorem wit_governor :
    up.pow.credit ≤ 200000 ∧ (up.setFld PSTAT_WINDOW 1).flag PSTAT_WINDOW = true ∧ up.flag PSTAT_WINDOW = false ∧ up.fld PLIFE_SECS < 3599
  ∧ 3599 ≤ (up.setFld PLIFE_SECS 3599).fld PLIFE_SECS ∧ (up.setFld GCTL_PACED 1).modeNow = 3 ∧ up.flag PSTAT_PACELOST = false
  ∧ (let s := up.setFld PSTAT_THROT 1; s.flag PSTAT_THROT = true ∧ s.pow.hot = false ∧ s.fld PSTAT_VCORE < 65000)
  ∧ ({ up.setFld PSTAT_THROT 1 with pow := { Power.reset with hot := true } } : State).pow.hot = true
  ∧ (let s := withF up [(PSTAT_THROT, 1), (PCFG_THROTT, 110)]; s.tj ≤ ((s.fld PCFG_THROTT * 16 : Nat) : Int) - 48)
  ∧ up.pow.trip = false ∧ ({ up with pow := { Power.reset with trip := true }, held := [5], boot := .inReset } : State).held = [5] := by decide

theorem wit_halt :
    (let s := { up with halt := { HaltIn.reset with a := true, b := true } }; s.pinsOff = false ∧ s.haltOverdue = false ∧ s.boot = .up ∧ s.halted = false)
  ∧ (let s := { up with halt := { HaltIn.reset with since := some 0 } }; s.halt.since = some 0 ∧ (s.setFld PCFG_TD 0).fld PCFG_TD * 1000 ≤ s.now - 0 + 20000
      ∧ s.now - 0 + 20000 < (s.setFld PCFG_TD 5000).fld PCFG_TD * 1000)
  ∧ (let s := { up.setFld TBTIME_TIME 60000000 with halt := { HaltIn.reset with since := some 0 } }; s.boot = .up ∧ s.pinsOff = false
      ∧ s.fld PCFG_TD * 1000 + 20000 < s.now - 0)
  ∧ (let s := { up.setFld PHALT_HALTED 1 with halt := { HaltIn.reset with tiles := [3] } };
      s.halted = true ∧ s.pinsHigh = true ∧ s.flag PHALT_FAULT = false ∧ s.halt.runs = [] ∧ s.halt.pkts = [] ∧ (∀ t ∈ s.halt.tiles, t < 2048))
  ∧ (let s := up.setFld PHALT_INA 1; s.pinsHigh = false) ∧ (let s := up.setTile 3 (regs 7 9 0); s.partOfTile 3 = some 0 ∧ s.switching 0 = false) := by decide

theorem wit_resets :
    (up.boot ≠ .hold ∧ up.pinsOff = false ∧ up.engines = [] ∧ up.stageWait = [] ∧ (∀ st < 8, up.flag (SSTAT_TEST st) = false) ∧ 1 ∉ up.held)
  ∧ (let s := { up with held := [1], boot := .inReset }; 1 ∈ s.held ∧ s.held = [1] ∧ s.boot = .inReset)
  ∧ (let s := { up with held := [1, 3], boot := .inReset }; 1 ∈ s.held ∧ 3 ∈ s.held.erase 1) := by decide

/-- A configuration image with no records: header, END, and its CRC. -/
def emptyImage : List Nat :=
  leBytes 4 0x4746434B ++ [1, 0, 0, 0] ++ leBytes 4 72 ++ leBytes 4 1 ++ List.replicate 12 0 ++ [0x48, 0x20] ++ List.replicate 34 0 ++ [255, 255, 0, 0, 0, 0, 0, 0] ++ leBytes 4 3746045050

/-- The device reads slot 0, which holds that image. -/
def reading : State := { State.reset with boot := .reading, imgSlot := some 0, flash := (emptyImage.zipIdx).map fun b => (b.2, b.1) }

/-- Slot 0 passes every check, unless the fuses ask for a tag. -/
theorem wit_image (h : Config.cmacReq = false) : reading.boot = .reading ∧ reading.imgSlot = some 0 ∧ ∃ im, reading.imageCheck 0 = .ok im := by
  have hc : crc32c (reading.slotBytes 0 0 72) = 3746045050 := by decide
  have hb : (reading.slotBytes 0 0 72).drop 64 = [255, 255, 0, 0, 0, 0, 0, 0] := by decide
  refine ⟨by decide, by decide, Image.start 1 0, ?_⟩
  simp only [State.imageCheck, h]
  rw [show le (reading.slotBytes 0 0 64) 8 4 = 72 by decide, hc, hb, show le (reading.slotBytes 0 0 64) 4 1 = 1 by decide, show le (reading.slotBytes 0 0 64) 5 1 = 0 by decide]
  decide

/-- A rejection of the first slot read, and of the second. -/
theorem wit_reject : reading.fld CSTAT_TRIED = 0 ∧ (reading.setFld CSTAT_TRIED 2).fld CSTAT_TRIED ≠ 0 := by decide

theorem wit_apply :
    (let s := { State.reset.setFld GBRIDGE_LINKOK (2 ^ 32 - 1) with boot := .accepted, bridgeDone := true, imgNext := some Image.factory };
      s.half1Gone = false ∧ (∀ e ∈ Image.factory.ctxs, e.1 < 512) ∧ Image.factory.keys = [] ∧ Image.factory.fields = [] ∧ Image.factory.tables = []
      ∧ s.tiles = [])
  ∧ (let s := { (State.reset.setFld GBRIDGE_LINKOK 0) with boot := .accepted, bridgeDone := true, imgNext := some Image.factory }; s.half1Gone = true)
  ∧ (let s := { up with boot := .applying }; s.boot = .applying ∧ s.applyBusy = false ∧ s.img.mports = [] ∧ s.occup = [])
  ∧ (let s := { porting 0 .reset with boot := .applying }; s.applyBusy = false ∧ s.img.mports.find? (fun e => e.1 == 0) = some (0, ⟨true, 0, 0, 100, 5⟩)
      ∧ s.flag (FPCTL_DISABLE 0) = false ∧ s.pinsOff = false ∧ s.img.mports.find? (fun e => e.1 == 1) = none)
  ∧ ({ State.reset with boot := .reading } : State).bridgeDone = false := by decide

/-! ## Arbitration, site time, the whole machine -/

/-- The halves in given phases and a message waiting. -/
def arb (a b : Half) (m : List (Nat × Mgmt)) : State := { State.reset with boot := .arbitrating, held := [], h0 := a, h1 := b, mgmt := m }

/-- A half in a phase. -/
def hp (p : ArbPhase) : Half := { Half.reset with phase := p }

theorem wit_claims :
    (let s := arb (hp .idle) (hp .idle) []; s.boot = .arbitrating ∧ s.attempt < 3)
  ∧ (let s := arb (hp .converting) (hp .waitStrap) []; s.h0.phase = .converting ∧ s.h0.role ≠ .hold ∧ s.h1.phase = .waitStrap ∧ s.h1.role ≠ .hold)
  ∧ (let s := arb (hp .waitAck) (hp .waitStrap) [(1, .strap (some 7))]; s.h1.phase = .waitStrap ∧ s.mgmt = (1, .strap (some 7)) :: [])
  ∧ (let s := arb (hp .waitAck) (hp .claimed) [(0, .strapAck)]; s.h0.phase = .waitAck ∧ s.mgmt = (0, .strapAck) :: [])
  ∧ (let s := arb { hp .claimed with sampled := some true } (hp .claimed) [(0, .claim true)];
      s.mgmt = (0, .claim true) :: [] ∧ (s.half 0).phase = .claimed ∧ (s.half 0).sampled = some true ∧ (s.half 0).peerVerdict = none)
  ∧ (let s := arb (hp .claimed) { hp .claimed with peerClaim := some true } [(0, .claim true)];
      (s.half 0).sampled = none ∧ (s.half 0).peerClaim = none ∧ (s.half 1).peerClaim = some true ∧ (s.half 1).sampled = none ∧ (s.half 1).peerVerdict = none) := by decide

theorem wit_ends :
    ([true, false].all fun v => let s := arb { hp .judged with verdict := some v } (hp .judged) [(0, .verdict true)];
      s.mgmt == [(0, .verdict true)] && (s.half 0).phase == .judged && (s.half 0).verdict == some v && (s.half 0).role != .hold)
  ∧ (let s := arb (hp .committing) (hp .waitCommit) [(1, .commit)]; s.mgmt = (1, .commit) :: [] ∧ (s.half 1).phase = .waitCommit)
  ∧ (let s := arb (hp .waitCommit) (hp .committing) [(1, .ack)]; s.mgmt = (1, .ack) :: [] ∧ (s.half 1).phase = .committing ∧ s.h0.phase ≠ .committing)
  ∧ (let s := arb (hp .idle) { hp .idle with role := .secondary } [(1, .abort)]; s.mgmt = (1, .abort) :: [] ∧ (s.half 1).role = .secondary)
  ∧ (let s := arb (hp .idle) (hp .idle) [(1, .hold)]; s.mgmt = (1, .hold) :: [] ∧ (s.half 1).role ≠ .hold)
  ∧ ((arb (hp .judged) (hp .waitCommit) []).half 0).phase = .judged ∧ ((arb (hp .claimed) (hp .idle) []).half 0).peerVerdict = none
  ∧ ((arb (hp .committing) (hp .idle) []).half 0).resends < 3 ∧ 3 ≤ ((arb { hp .committing with resends := 3 } (hp .idle) []).half 0).resends
  ∧ (let s := { arb { hp .idle with role := .primary } (hp .idle) [] with boot := .accepted }; (s.half 0).role = .primary ∧ s.boot ≠ .up ∧ s.boot ≠ .inReset ∧ s.boot ≠ .released)
  ∧ (arb (hp .judged) (hp .idle) []).attempt ≠ 3 ∧ ({ arb (hp .judged) (hp .idle) [] with attempt := 3 } : State).attempt = 3 := by decide

/-- A follower with port 0 up and a request sent at 100. -/
def following : State :=
  { up.setFld (FPSTAT_STATE 0) 4 with ports := [(0, { Port.reset with treq := some (7, 100) })], tsync := { up.tsync with good := 3, missed := 2 } }

theorem wit_time :
    (1 ∉ up.held ∧ 1 ∈ State.reset.held ∧ following.boot = .up ∧ following.img.timeRef = false ∧ following.fld (FPSTAT_STATE (following.fld TBSTAT_SRCPORT)) = 4
      ∧ following.fld TBSTAT_SRCPORT = 0 ∧ (following.port 0).treq = some (7, 100))
  ∧ (following.follows = true ∧ up.tiles = [] ∧ following.flag TBSTAT_LOCK = false ∧ following.flag TBSTAT_STEPPED = false ∧ up.tsync.leak = []
      ∧ (up.port 0).treq = none ∧ up.fld (FPSTAT_STATE 0) ≠ 4 ∧ State.reset.follows = false)
  ∧ ({ following with img := { img with lockN := 4 } } : State).img.lockN ≤ following.tsync.good + 1
  ∧ ({ following with img := { img with missN := 3 } } : State).img.missN ≤ following.tsync.missed + 1
  ∧ following.tsync.missed + 1 < ({ following with img := { img with missN := 4 } } : State).img.missN := by decide

/-- Whatever the delays of a port make of the time a response came at, the other three times can give an offset of 0 and one beyond 20 ns. -/
theorem wit_offsets (t4 : Int) : (∃ t1 t2 t3 : Nat, (((t1 : Int) - t2) + (t4 - t3)) / 2 = 0)
    ∧ ∃ t1 t2 t3 : Nat, 320 < ((((t1 : Int) - t2) + (t4 - t3)) / 2).natAbs :=
  ⟨⟨(-t4).toNat, 0, t4.toNat, by omega⟩, (-t4).toNat, 2000, t4.toNat, by omega⟩

/-- A step from a canonical state answers a next state that is canonical. -/
theorem wit_canonical : State.reset.canonical = true ∧ (match step { State.reset with pending := [.siteTimeTick] } with
    | .next u => u.canonical && u.clk == 1
    | _ => false) = true := by decide

/-! ## Examples of the manual -/

/-- R38: the ends of the strap's windows and the codes between them. -/
theorem test_strap : ([1, 3, 5, 57, 59, 61, 62].map strapDecode = [some 0, some 0, some 1, some 14, some 14, some 15, some 15])
    ∧ [0, 4, 60, 63].all (fun c => strapDecode c == none) = true := by decide

/-! ## Ill-formed commands are refused -/

/-- A packet within its fields, and one beyond them. -/
def okP : Pkt := mkPkt 0 0 0 0 0 0 0
/-- Beyond VC. -/
def badP : Pkt := { okP with vc := 3 }
/-- The bytes of a flit. -/
def okF : List Nat := List.replicate 256 0

/-- Every field's bound of a packet. -/
theorem test_ill_packet :
    okPkt okP && ([badP, { okP with opc := 256 }, { okP with cst := 16 }, { okP with drank := 65536 }, { okP with srank := 65536 }, { okP with hops := 64 },
      { okP with tgen := 256 }, { okP with addr := 2 ^ 48 }, { okP with len := 4097 }, { okP with tag := 4096 }, { okP with dtk := 32 },
      { okP with pmask := 2 ^ 64 }, { okP with data := [256] }].all fun p => !okPkt p) := by
  decide

theorem test_ill_1 :
    (([.claim, .verdict, .hold, .arbitrationTimeout, .configurationTrafficTimeout, .leakTick, .farPacketTransmit] : List (Nat → Instr)).all fun
    f => !(f 2).wellFormed)
    && (([.markingDone, .spillPassComplete, .accRoundComplete, .chainTokenAcquire, .chainAddComplete, .vectorComplete, .fenceGComplete,
    .fenceIComplete, .tokenWaitRelease, .waitTimeRelease, .waitUnitRelease, .mailboxResult, .trapped, .tsqctlStop, .streamCacheInvalidate] :
    List (Nat → Instr)).all fun f => !(f 2048).wellFormed)
    && (([.nop, .br, .brl, .bri, .loopS, .loopI, .haltI, .trapI, .add, .sub, .mul, .andR, .orR, .xorR, .shl, .shr, .sra, .mins, .maxs, .minu,
    .maxu, .addi, .andi, .ori, .xori, .shli, .shri, .srai, .li, .lih, .cmpeq, .cmpne, .cmplt, .cmple, .cmpltu, .cmpleu, .pand, .por, .pxor,
    .pnot, .timerd, .rankrd, .tilerd, .ld1, .ld2, .ld4, .ld8, .lds1, .lds2, .lds4, .st1, .st2, .st4, .st8, .mova, .movs, .adda, .addai, .mxMul,
    .accBind, .accSpill, .accRound, .accDrop, .accChain, .vecAdd, .vecMul, .vecFma, .vecMax, .vecMin, .vecCmp, .vecSel, .vecRed, .vecExp2,
    .vecLog2, .vecRcp, .vecRsq, .vecCvt, .vecIcvt, .vecPhx, .vecTopk, .vecMov, .plainCopy, .skewedWrite, .folioCompression, .folioExpansion,
    .fp32ToE48, .fenceG, .fenceI, .tokWait, .tokAdd, .tokRd, .waitTime, .waitUnit, .sigBar, .sigRed, .mbxSt, .mbxLd, .mbxFadd, .mbxCas,
    .fuseCirc, .fuseDisp, .dispSend, .dispEnd, .dispCnt] : List (Nat → BitVec 54 → Instr)).all fun f => !(f 2048 0).wellFormed)
    && (([.loadReturn, .stationaryLoadDone, .portExpansionDone, .resultRowWrite, .productComplete, .transferComplete, .tsqctlRun, .lineFill] : List
    (Nat → Nat → Instr)).all fun f => !(f 2048 0).wellFormed)
    && (([.stationaryLoadDone, .portExpansionDone, .resultRowWrite, .productComplete] : List (Nat → Nat → Instr)).all fun f => !(f 0 4).wellFormed)
    && (([.channelRetrainTimeout, .descriptorFetch, .binderyNop, .copy, .fill, .publish, .pack, .binderyFence, .adamw, .adamL2, .scan, .xsel,
    .xout, .unpack, .chunkComplete, .fragmentComplete, .semaphoreAcquire, .semaphoreTimeout, .descriptorComplete, .binderyAbort,
    .pmdTrainingDone, .helloack, .channelTrainingLost] : List (Nat → Nat → Instr)).all fun f => !(f 8 0).wellFormed) := by decide

theorem test_ill_2 :
    (([.channelRetrainTimeout, .keyLoad, .keyClear, .channelTrainingLost] : List (Nat → Nat → Instr)).all fun f => !(f 0 32).wellFormed)
    && (([.sctlTestRequest, .testStateEntry, .sctlTestExit, .helloResend, .helloTimeout, .downWaitEnd, .ackTimer, .nakHoldEnd, .ackTimeout,
    .fpctlRetrain, .replayWindowEnd] : List (Nat → Instr)).all fun f => !(f 8).wellFormed)
    && (([.piWrite, .rel, .hostRead] : List (Nat → Nat → Nat → Nat → Instr)).all fun f => !(f 512 0 0 0).wellFormed)
    && (([.descriptorFetch, .binderyNop, .copy, .fill, .publish, .pack, .binderyFence, .adamw, .adamL2, .scan, .xsel, .xout, .unpack,
    .chunkComplete, .fragmentComplete, .semaphoreAcquire, .semaphoreTimeout, .descriptorComplete, .binderyAbort] : List (Nat → Nat → Instr)).all
    fun f => !(f 0 8).wellFormed)
    && (([.bsemAdd, .reorderDone, .post, .planDoorbell, .dispatchTimeout] : List (Nat → Nat → Nat → Instr)).all fun f => !(f 0 64 0).wellFormed)
    && (([.writePacket, .readPacket, .rdcpl, .wrack, .mbxPacket, .mbxrsp, .rresetPacket, .collPacket, .forwardRow, .backwardRow, .endPacket,
    .returnRow] : List (Nat → Pkt → Instr)).all fun f => !(f 8 okP).wellFormed) := by decide

theorem test_ill_3 :
    (([.writePacket, .readPacket, .rdcpl, .wrack, .mbxPacket, .mbxrsp, .rresetPacket, .collPacket, .forwardRow, .backwardRow, .endPacket,
    .returnRow] : List (Nat → Pkt → Instr)).all fun f => !(f 0 badP).wellFormed)
    && (([.routeEntryWrite, .post, .planDoorbell, .gstepinGo] : List (Nat → Nat → Nat → Instr)).all fun f => !(f 512 0 0).wellFormed)
    && (([.upRecord, .downRecord, .abandonRecord, .preRoundRecord] : List (Nat → List Nat → Instr)).all fun f => !(f 65536 []).wellFormed)
    && (([.upRecord, .downRecord, .abandonRecord, .preRoundRecord, .fragPacket, .farHello, .joinPacket, .catchPacket, .enterPacket,
    .neighborSolicitation] : List (Nat → List Nat → Instr)).all fun f => !(f 0 [256]).wellFormed)
    && (([.circ, .agather, .bcast, .permute, .openBuf, .closeRound, .ledgerModeWrite, .tokwait] : List (Nat → Nat → Bool → Instr)).all fun f => !(f
    512 0 true).wellFormed)
    && (([.circ, .agather, .bcast, .permute] : List (Nat → Nat → Bool → Instr)).all fun f => !(f 0 (2 ^ 64) true).wellFormed) := by decide

theorem test_ill_4 :
    (([.adopt, .fdsctlAbort, .phaseStart, .phaseEnd, .phaseClear, .farSendFrag, .farSendCatch, .freeRound, .grstrndWrite, .sqDoorbell,
    .nopCommand, .writeCommand, .readCommand, .startCommand, .stopCommand, .collCommand, .planCommand, .tokadd, .rresetCommand,
    .commandComplete, .completionHeadWrite, .eventHeadWrite, .contextReset, .partitionReset, .flashRead, .flashProgram, .flashErase, .keyLoad,
    .keyClear] : List (Nat → Nat → Instr)).all fun f => !(f 512 0).wellFormed)
    && (([.planDeadline, .quantumEnd, .drainDone, .saveDone, .restoreDone] : List (Nat → Instr)).all fun f => !(f 64).wellFormed)
    && (([.phaseStart, .phaseEnd, .phaseClear] : List (Nat → Nat → Instr)).all fun f => !(f 0 6).wellFormed)
    && (([.fragPacket, .farHello, .joinPacket, .catchPacket, .enterPacket, .neighborSolicitation] : List (Nat → List Nat → Instr)).all fun f => !(f
    2 []).wellFormed)
    && (([.sealRound, .joinRound, .enterRound, .commandFetch, .flr, .busMasterDisable, .vfEnable, .moderationDelayEnd, .watchdogKick, .park,
    .unpark, .resume, .faultClear] : List (Nat → Instr)).all fun f => !(f 512).wellFormed)
    && (([.sqDoorbell, .completionHeadWrite, .eventHeadWrite] : List (Nat → Nat → Instr)).all fun f => !(f 0 (2 ^ 17)).wellFormed) := by decide

theorem test_ill_5 :
    (([.flashRead, .flashProgram, .flashErase] : List (Nat → Nat → Instr)).all fun f => !(f 0 (2 ^ 27)).wellFormed)
    && (([.peakRequest, .pacedSelect, .efficientSelect] : List (Nat → Bool → Instr)).all fun f => !(f 512 true).wellFormed) := by decide

theorem test_ill_each_1 :
    ([.resetRelease 0, .resetRelease 7, .strapConversionDone 64 true, .claimSample 2 true, .farLinkChange 2 true, .stackInitDone 8 0,
     .timingExchange 16, .tsyncReq 8 0 0 0, .tsyncReq 0 65536 0 0, .tsyncReq 0 0 16 0, .tsyncRsp 65536 true 0 0 0 0, .tsyncRsp 0 true (2 ^ 64) 0
     0 0, .tsyncRsp 0 true 0 (2 ^ 64) 0 0, .tsyncRsp 0 true 0 0 65536 0, .tsyncRsp 0 true 0 0 0 16, .waitTimeout 2048 true, .mailboxAccess 2048 0
     true 0, .mailboxAccess 0 16 true 0, .tsqctlRun 0 8192, .tflipArm 2048 0, .lineFill 0 1, .lineFill 0 (0x8000000000), .errorLogRpWrite 2 0,
     .errorLogRpWrite 0 1024, .rpStage 0 (2 ^ 48) true, .rpFuseDone 8 true, .fpctlDisable 8 true, .mbRunDone 8 0 0, .mbRunDone 0 0 (2 ^ 48),
     .piWrite 0 8 0 0, .piWrite 0 0 8 0, .piWrite 0 0 0 512, .bsemAdd 8 0 0, .bcqptrTailWrite 8 0 0, .bsemAdd 0 0 65536, .bcqptrTailWrite 0 8 0,
     .bcqptrTailWrite 0 0 512, .gstepinGo 0 0 512, .pmdTrainingDone 0 256, .hello 8 0 0 0 0 0 0 0 0, .hello 0 256 0 0 0 0 0 0 0, .hello 0 0 (2 ^
     16) 0 0 0 0 0 0, .hello 0 0 0 256 0 0 0 0 0, .hello 0 0 0 0 2 0 0 0 0, .hello 0 0 0 0 0 65536 0 0 0, .hello 0 0 0 0 0 0 65536 0 0, .hello 0
     0 0 0 0 0 0 65536 0, .hello 0 0 0 0 0 0 0 0 256, .helloack 0 4096, .flit 8 okF] : List Instr).all (fun c => !c.wellFormed) := by decide

theorem test_ill_each_2 :
    ([.flit 0 (okF.drop 1), .flit 0 (256 :: okF.drop 1), .tagQuarantineEnd 4096, .routeEntryWrite 0 65536 0, .routeEntryWrite 0 0 256, .signalTimeout 256, .collectiveComplete 65536,
     .collectiveTimeout 65536, .adopt 0 65536, .reorderDone 64 0 0, .dispatchTimeout 64 0 0, .post 0 0 (2 ^ 32), .planDoorbell 0 0 (2 ^ 32),
     .openBuf 0 64 true, .rel 0 64 0 0, .rel 0 0 64 0, .rel 0 0 0 2, .fdsctlAbort 0 64, .partitionReset 0 64, .gstepinGo 0 (2 ^ 32) 0,
     .nonfiniteLog 512 0, .queueEnable 512 0, .sstageWrite 512 0 0 0, .sstageWrite 0 8 0 0, .sstageWrite 0 0 4096 0, .farSendFrag 0 (2 ^ 64),
     .farSendCatch 0 (2 ^ 64), .closeRound 0 (2 ^ 32) true, .freeRound 0 (2 ^ 32), .grstrndWrite 0 (2 ^ 32), .ledgerModeWrite 0 3 true,
     .ledgerRpWrite (2 ^ 64), .hostRead 0 1 0 0, .hostRead 0 0 (2 ^ 48) 0, .hostRead 0 0 0 4097, .hostWrite 512 0 0 [] true, .hostWrite 0 1 0 []
     true, .hostWrite 0 0 (2 ^ 48) [] true, .hostWrite 0 0 0 [256] true, .hostDmaCompletion 0 3 [] [], .hostDmaCompletion 0 0 [256] [],
     .hostDmaCompletion 0 0 [] [0], .contextReset 0 512, .pcieLinkRetrained 0 0, .pcieLinkRetrained 7 0, .pcieLinkRetrained 1 17, .readClear 512
     0 1, .readClear 0 (2 ^ 48) 1, .readClear 0 0 3, .registerWrite 512 0 [], .registerWrite 0 (2 ^ 48) []] : List Instr).all (fun c => !c.wellFormed) := by decide

theorem test_ill_each_3 :
    ([.registerWrite 0 0 [256]] : List Instr).all (fun c => !c.wellFormed) := by decide

theorem test_well_formed :
    ([.resetRelease 1, .arbitrationTimeout 0, .tsyncRsp 0 true 0 0 0 0, .loopI 0 0, .andR 0 0, .mins 0 0, .ori 0 0, .lih 0 0, .cmpleu 0 0,
     .rankrd 0 0, .lds1 0 0, .st8 0 0, .mxMul 0 0, .accSpill 0 0, .chainTokenAcquire 0, .vecMin 0 0, .vecRcp 0 0, .vecMov 0 0, .fp32ToE48 0 0,
     .tokWait 0 0, .waitUnit 0 0, .mbxLd 0 0, .fuseDisp 0 0, .tsqctlStop 0, .channelRetrainTimeout 0 0, .mbRunDone 0 0 0, .publish 0 0, .xsel 0
     0, .semaphoreTimeout 0 0, .helloResend 0, .ackTimer 0, .writePacket 0 okP, .rresetPacket 0 okP, .preRoundRecord 0 [], .collPacket 0 okP,
     .endPacket 0 okP, .fdsctlAbort 0 0, .phaseStart 0 0, .farPacketTransmit 0, .neighborSolicitation 0 [], .farLinkChange 0 true, .nopCommand 0
     0, .planCommand 0 0, .eventHeadWrite 0 0, .drainDone 0, .pcieLinkRetrained 1 0, .flashErase 0 0, .efficientSelect 0 true, .registerWrite 0 0
     [], .flit 0 okF] : List Instr).all Instr.wellFormed := by decide

/-- The examples of R18 to R20 (tile 1,191) and of R84 (corner to corner in 192 beats). -/
theorem test_geometry :
    tileAt ⟨1, 5, 7⟩ = 1191 ∧ coordOf 1191 = ⟨1, 5, 7⟩ ∧ blockAt ⟨1, 5, 7⟩ = 73 ∧ tileBase 1191 = 0x010129C00000
  ∧ (meshPath (2 ^ 32 - 1) ⟨0, 0, 0⟩ ⟨1, 31, 31⟩).map (pathBeats ⟨0, 0, 0⟩) = some 192 := by decide

/-- Table 8.9's exchange, in sixteenths of a nanosecond. -/
theorem test_exchange : tsyncOffset 80000000 80004840 80006440 80011200 = -40 ∧ ofIntW 32 (-40) = 0xFFFFFFD8 := by decide

/-- R222's example: stack 3 without channels 5 and 17, address 0x0030_1234_5678, and the first address above its top. -/
theorem test_channel :
    let s := withF up [(SCHMAP_LIVEMAP 3, 2 ^ 32 - 1 - 2 ^ 5 - 2 ^ 17), (SSTAT_INITD 3, 1), (SSTAT_LIVE 3, 30)];
    s.channelOf 3 0x12345678 = 16 ∧ s.isMem 0x003EFFFFFFC0 64 = true ∧ s.isMem 0x003F00000040 64 = false := by decide

/-- The block example of R96 to R98: 400, 2^-10, -0.75, -2^-11 and zeros as MXFP8 E4M3; and with 4.0 first. -/
theorem test_mx_block :
    (let b := encodeMX 5 ([0x43C80000, 0x3A800000, 0xBF400000, 0xBA000000].map fv ++ List.replicate 28 Val.zero) [];
      b.sc = 0x7F ∧ b.elems.take 4 = [0x7C, 0, 0xB4, 0x80] ∧ b.flushes = 2)
  ∧ (let b := encodeMX 5 ([0x40800000, 0x3A800000, 0xBF400000, 0xBA000000].map fv ++ List.replicate 28 Val.zero) [];
      b.sc = 0x79 ∧ b.elems.take 4 = [0x78, 0x18, 0xE4, 0x90] ∧ b.flushes = 0) := by decide

/-- The G16 and FX32 example of R100 and R101. -/
theorem test_g16 :
    (let b := encodeG16 ([0x40400000, 0x3DCCCCCD].map fv ++ List.replicate 30 Val.zero); b.ex = 129 ∧ b.elems.take 2 = [24576, 819])
  ∧ (let b := encodeG16 ([0x3F000000, 0x3DCCCCCD].map fv ++ List.replicate 30 Val.zero); b.ex = 127 ∧ b.elems.take 2 = [16384, 3277])
  ∧ (g16ToFX 127 129 [16384, 3277]).1.map (toIntW 32) = [4096, 819] ∧ (fxToG16 129 [28672, 1638]).ex = 129 ∧ (fxToG16 129 [36864, 1638]).ex = 130
  ∧ (fxToG16 129 [36864, 1638]).elems = [18432, 819] := by decide

/-- The checker's example of R212: 0xA5 has check field 3; one bit in error is corrected, two are not. -/
theorem test_checker :
    codeWord 0xA5 0 = 0x3A5 ∧ classify 0x3AD = .corrected 0xA5 ∧ classify 0x3AC = .uncorrectable 4 ∧ classify 0x3A5 = .good 0xA5 := by decide

/-- The decision of step 812 (R368). -/
theorem test_decision : decideStep 140 209715200 16 0x3F800000 0x49800000 = ⟨false, 0, true, 0x3ECCCCCD, 0x40C80000, 0x40200000⟩ := by decide

/-- The quotas of the plan example of R341. -/
theorem test_quota : quota 336 32 0 = 11 ∧ quota 336 32 15 = 11 ∧ quota 336 32 16 = 10 ∧ quota 336 32 31 = 10 := by decide

/-- The random example of R424: element 3 of BASE 5,000,000 takes bits 31:16 of lane 1 of block 625,000. -/
theorem test_random : srValue 7 812 0x4C4B4000A31 3 = bitsOf (nth 0 (philoxBlock 7 0x98968 0 0xA31 0x32C) 1) 16 16 := by decide

/-- Published check values: Philox-4x32-10 of zeros, CRC-32C and the Ethernet check sequence of "123456789", AES-256-CMAC of nothing. -/
theorem test_known_answers :
    philoxBlock 0 0 0 0 0 = [0x6627e8d5, 0xe169c58d, 0xbc57ac4c, 0x9b00dbd8] ∧ crc32c [49, 50, 51, 52, 53, 54, 55, 56, 57] = 0xE3069283
  ∧ fcs [49, 50, 51, 52, 53, 54, 55, 56, 57] = 0xCBF43926
  ∧ cmac (leBytes 32 0xf4df1409a310982dd708613b072c351f81777d85f0ae732bbe71ca1510eb3d60) [] =
      [0x02, 0x89, 0x62, 0xf6, 0x1b, 0x7b, 0xf8, 0x9e, 0xfc, 0x6b, 0x55, 0x1f, 0x46, 0x67, 0xd9, 0x83] := by decide

/-- The folio example of R319 to R322: the pattern's code lengths, and the header, catalogue and first body bytes of a section with them. -/
theorem test_folio :
    let plane := [0, 0x38, 0, 0xB8, 0, 0x38, 0, 0x30, 0, 0x38, 0, 0xB8, 0, 0x38, 0, 0x40];
    let lens := codeLengths plane;
    [0, 0x38, 0xB8, 0x30, 0x40].map (fun v => nth 0 lens v) = [1, 2, 3, 4, 4]
  ∧ packNibbles (catItems lens 0) = [1, 15, 15, 78, 96, 2, 70, 240, 240, 240, 240, 240, 240, 240, 96, 3, 15, 15, 15, 15, 6]
  ∧ (planeBody lens plane).take 3 = [0x4C, 0x9C, 0x99] := by decide

end Sys2Proof.Tests
end

section
/-! SUPPORT. Register layouts: the fields of every register of the device map rise without sharing a bit, so that a mask of fields holds
exactly their bits, and what a write and a clearing read do to a register is said bit by bit (R12, R14, R542). -/

namespace Sys2Proof.Machine

/-- Fields that rise from bit lo and share no bit. -/
def laidFrom : Nat → List FSpec → Bool
  | _, [] => true
  | lo, f :: fs => decide (lo ≤ f.lo) && laidFrom (f.lo + f.w) fs

theorem regBlocks_laid : (regBlocks.all fun b => b.regs.all fun r => laidFrom 0 r.fs) = true := by decide

/-- A register's layout is one of the device map's, whose fields share no bit. -/
theorem laidFrom_of_regSpecAt {a : Nat} {r : RSpec} (h : regSpecAt a = some r) : laidFrom 0 r.fs = true := by
  unfold regSpecAt at h
  split at h
  · cases h
  · next b hb =>
    have hregs := List.all_eq_true.mp regBlocks_laid b (List.mem_of_find?_eq_some hb)
    exact List.all_eq_true.mp hregs r (List.mem_of_find?_eq_some h)

/-- A sum of field masks over laid-out fields, begun with bits below them, has the bits of both. -/
theorem testBit_foldl_fieldMasks (p : FSpec → Bool) (i : Nat) {fs : List FSpec} {lo m : Nat} (h : laidFrom lo fs = true) (hm : m < 2 ^ lo) :
    ((fs.filter p).foldl (fun m f => m + (2 ^ f.w - 1) * 2 ^ f.lo) m).testBit i = true ↔
      m.testBit i = true ∨ ∃ f ∈ fs, p f = true ∧ f.lo ≤ i ∧ i < f.lo + f.w := by
  induction fs generalizing lo m with
  | nil => simp
  | cons f fs ih =>
    simp only [laidFrom, Bool.and_eq_true, decide_eq_true_eq] at h
    obtain ⟨hlo, hfs⟩ := h
    have hm' : m < 2 ^ f.lo := hm.trans_le (Nat.pow_le_pow_right (by omega) hlo)
    by_cases hp : p f = true
    · have hsum : m + (2 ^ f.w - 1) * 2 ^ f.lo = 2 ^ f.lo * (2 ^ f.w - 1) + m := by ring
      have hlt : m + (2 ^ f.w - 1) * 2 ^ f.lo < 2 ^ (f.lo + f.w) := by
        have hw : 0 < 2 ^ f.w := by positivity
        calc m + (2 ^ f.w - 1) * 2 ^ f.lo < 2 ^ f.lo + (2 ^ f.w - 1) * 2 ^ f.lo := by omega
          _ = (2 ^ f.w - 1 + 1) * 2 ^ f.lo := by ring
          _ = 2 ^ (f.lo + f.w) := by rw [Nat.sub_add_cancel hw, Nat.pow_add, Nat.mul_comm]
      have hbit : (m + (2 ^ f.w - 1) * 2 ^ f.lo).testBit i = true ↔ m.testBit i = true ∨ f.lo ≤ i ∧ i < f.lo + f.w := by
        rw [hsum, Nat.testBit_two_pow_mul_add _ hm']
        by_cases hi : i < f.lo
        · simp [hi]
        · have hmi : m.testBit i = false := Nat.testBit_lt_two_pow (hm'.trans_le (Nat.pow_le_pow_right (by omega) (by omega)))
          rw [if_neg hi, Nat.testBit_two_pow_sub_one, hmi]
          simp only [decide_eq_true_eq, Bool.false_eq_true, false_or]
          omega
      rw [List.filter_cons_of_pos hp, List.foldl_cons, ih hfs hlt, hbit, or_assoc]
      simp [hp]
    · rw [List.filter_cons_of_neg hp, ih hfs (hm'.trans_le (Nat.pow_le_pow_right (by omega) (by omega)))]
      simp [hp]

/-- A register's mask of the fields that satisfy p holds exactly their bits. -/
theorem RSpec.testBit_mask {r : RSpec} (h : laidFrom 0 r.fs = true) (p : FSpec → Bool) (i : Nat) :
    (r.mask p).testBit i = true ↔ ∃ f ∈ r.fs, p f = true ∧ f.lo ≤ i ∧ i < f.lo + f.w := by
  rw [RSpec.mask, testBit_foldl_fieldMasks p i h (Nat.two_pow_pos 0)]
  simp

/-- The bits of the lanes of an access. -/
theorem testBit_laneMask (b n i : Nat) : (laneMask b n).testBit i = true ↔ 8 * b ≤ i ∧ i < 8 * b + 8 * n := by
  rw [laneMask, Nat.testBit_mul_two_pow, Nat.testBit_two_pow_sub_one]
  simp only [Bool.and_eq_true, decide_eq_true_eq]
  omega

/-- A register after a write, bit by bit: in the lanes written RW bits take the value and W1C bits clear on a one. -/
theorem RSpec.getLsbD_written (r : RSpec) (old : BitVec 64) (m v : Nat) {i : Nat} (hi : i < 64) :
    (r.written old m v).getLsbD i =
      ((if (r.mask fun f => f.kind == .rw).testBit i && m.testBit i then v.testBit i else old.getLsbD i) &&
        !(v.testBit i && (r.mask fun f => f.kind == .w1c).testBit i && m.testBit i)) := by
  simp only [RSpec.written, BitVec.getLsbD_and, BitVec.getLsbD_or, BitVec.getLsbD_not, BitVec.getLsbD_ofNat, hi, decide_true, Bool.true_and,
    Nat.testBit_and]
  cases (r.mask fun f => f.kind == .rw).testBit i <;> cases m.testBit i <;> simp

/-- The fields that a read of bytes b to b + n - 1 of a register clears: RC, and covered whole (R542). -/
def clearedBy (b n : Nat) (f : FSpec) : Bool := f.kind == .rc && (f.lo / 8 ≥ b && (f.lo + f.w + 7) / 8 ≤ b + n)

/-- The bits that such a read clears. -/
theorem RSpec.testBit_mask_clearedBy {r : RSpec} (h : laidFrom 0 r.fs = true) (b n i : Nat) :
    (r.mask (clearedBy b n)).testBit i = true ↔
      ∃ f ∈ r.fs, f.kind = .rc ∧ b ≤ f.lo / 8 ∧ (f.lo + f.w + 7) / 8 ≤ b + n ∧ f.lo ≤ i ∧ i < f.lo + f.w := by
  rw [RSpec.testBit_mask h]
  simp only [clearedBy, Bool.and_eq_true, beq_iff_eq, decide_eq_true_eq, ge_iff_le, and_assoc]

/-- A word without the bits of a mask, bit by bit. -/
theorem getLsbD_andNot (v : BitVec 64) (m : Nat) {i : Nat} (hi : i < 64) :
    (v &&& ~~~ BitVec.ofNat 64 m).getLsbD i = (v.getLsbD i && !m.testBit i) := by
  simp only [BitVec.getLsbD_and, BitVec.getLsbD_not, BitVec.getLsbD_ofNat, hi, decide_true, Bool.true_and]

/-- A clearing read of a register whose counting stands still changes that register only, to itself without the cleared bits. -/
theorem State.reg_rcClear (s : State) {a : Nat} {r : RSpec} (hr : regSpecAt a = some r) (hb : beatCounter a = true → s.beatsRun a = false)
    (b n k : Nat) :
    (s.rcClear a b n).reg k = if k = a then s.reg a &&& ~~~ BitVec.ofNat 64 (r.mask (clearedBy b n)) else s.reg k := by
  have hbeat : (beatCounter a && s.beatsRun a) = false := by
    cases h : beatCounter a with
    | false => rfl
    | true => simp [hb h]
  have hclr : (r.mask fun f => f.kind == .rc && (f.lo / 8 ≥ b && (f.lo + f.w + 7) / 8 ≤ b + n)) = r.mask (clearedBy b n) := rfl
  simp only [State.rcClear, hr, hbeat, hclr, Bool.or_false, decide_eq_true_eq]
  by_cases h0 : r.mask (clearedBy b n) = 0
  · rw [if_pos h0, h0]
    split
    · next hk => rw [hk]; exact (BitVec.and_allOnes).symm
    · rfl
  · rw [if_neg h0, State.reg_setReg]

/-- A clearing read writes at most a register. -/
theorem State.rcClear_cases (s : State) (a b n : Nat) : s.rcClear a b n = s ∨ ∃ v, s.rcClear a b n = s.setReg a v := by
  unfold State.rcClear
  split
  · exact .inl rfl
  · dsimp only
    split
    · exact .inl rfl
    · exact .inr ⟨_, rfl⟩

@[simp] theorem State.rcClear_sent (s : State) (a b n : Nat) : (s.rcClear a b n).sent = s.sent := by
  obtain h | ⟨v, h⟩ := s.rcClear_cases a b n <;> simp [h]
@[simp] theorem State.rcClear_tiles (s : State) (a b n : Nat) : (s.rcClear a b n).tiles = s.tiles := by
  obtain h | ⟨v, h⟩ := s.rcClear_cases a b n <;> simp [h]
@[simp] theorem State.rcClear_stk (s : State) (a b n : Nat) : (s.rcClear a b n).stk = s.stk := by
  obtain h | ⟨v, h⟩ := s.rcClear_cases a b n <;> simp [h]
@[simp] theorem State.rcClear_stkMark (s : State) (a b n : Nat) : (s.rcClear a b n).stkMark = s.stkMark := by
  obtain h | ⟨v, h⟩ := s.rcClear_cases a b n <;> simp [h]

/-! ## What an operation that leaves a store alone leaves unchanged -/

theorem State.sameRegs_of_regs {s u : State} (h : u.regs = s.regs) (but : List Nat) : s.sameRegs u but :=
  fun a _ => State.reg_congr h a

theorem State.sameMem_of_stores {s u : State} (ht : u.tiles = s.tiles) (hs : u.stk = s.stk) (hm : u.stkMark = s.stkMark) : s.sameMem u := by
  refine ⟨fun t => ?_, fun d => ?_, fun d => ?_⟩
  · rw [State.tile_congr ht t]; exact ⟨fun _ => rfl, fun _ => rfl, fun _ => rfl⟩
  · simp only [State.stkByte, hs]
  · simp only [State.markOf, hm]

end Sys2Proof.Machine
end

section
/-! SUPPORT. Writes of a tile's bank: bytes written while no checker test is armed stand in the bank with their check fields, poisoned
ones under the poison marker, and nothing else of the device changes (R199, R200, R212). -/

namespace Sys2Proof.Machine

theorem SMap.del_ins {α : Type} (k : Nat) (v : α) (m : SMap α) : SMap.del (SMap.ins k v m) k = SMap.del m k := by
  induction m with
  | nil => simp [SMap.ins, SMap.del]
  | cons e m ih =>
    by_cases h : k < e.1
    · simp [SMap.ins, h, SMap.del]
    · simp only [SMap.ins, h, if_false]
      simp only [SMap.del, List.filter_cons] at ih ⊢
      rw [ih]

/-- The last of two writes of a key stands. -/
theorem SMap.set_set {α : Type} [DecidableEq α] (d : Nat → α) (m : SMap α) (k : Nat) (v w : α) :
    SMap.set d (SMap.set d m k v) k w = SMap.set d m k w := by
  have hdel : SMap.del (SMap.set d m k v) k = SMap.del m k := by
    unfold SMap.set
    split
    · simp [SMap.del]
    · rw [SMap.del_ins]; simp [SMap.del]
  rw [SMap.set, hdel]; rfl

theorem State.modTile_modTile (s : State) (t : Nat) (f g : Tile → Tile) : (s.modTile t f).modTile t g = s.modTile t fun x => g (f x) := by
  simp [State.modTile, State.setTile, State.tile, SMap.set_set]

/-- The code word of a byte and its poison mark (R197, R199). -/
def byteCode (b : Nat × Bool) : Code13 := codeWord b.1 (if b.2 then 0x1E else 0)

/-- A tile with bytes and their check fields put into its bank from an offset. -/
def Tile.putBank (x : Tile) (off : Nat) (bs : List (Nat × Bool)) : Tile :=
  { x with bank := SMap.setList (fun _ => none) x.bank off (bs.map fun b => some (byteCode b)) }

theorem Tile.code_putBank (x : Tile) (off : Nat) (bs : List (Nat × Bool)) {k : Nat} (hk : k < bs.length) :
    (x.putBank off bs).code (off + k) = some (byteCode bs[k]) := by
  simp [Tile.code, Tile.putBank, SMap.get_setList, hk]

theorem Tile.code_putBank_outside (x : Tile) (off : Nat) (bs : List (Nat × Bool)) {o : Nat} (ho : o < off ∨ off + bs.length ≤ o) :
    (x.putBank off bs).code o = x.code o := by
  unfold Tile.code Tile.putBank
  rw [SMap.get_setList]
  split
  · next h =>
    have : bs.length ≤ o - off := by omega
    simp [this]
  · rfl

@[simp] theorem Tile.code_dropBufs (x : Tile) (off n o : Nat) : (x.dropBufs off n).code o = x.code o := by
  unfold Tile.dropBufs; split <;> rfl

@[simp] theorem Tile.code_noteWords (x : Tile) (off n o : Nat) : (x.noteWords off n).code o = x.code o := by
  simp only [Tile.noteWords, Tile.code]
  split
  · rfl
  · dsimp only

theorem State.bankPut_unarmed (s : State) {t : Nat} (h : s.flag (TFLIP_PEND t) = false) (off : Nat) (b : Nat × Bool) :
    s.bankPut t off b = s.modTile t fun x => x.putBank off [b] := by
  simp only [State.bankPut, h, Bool.false_and, Bool.false_eq_true, if_false]
  rfl

theorem State.foldl_bankPut_unarmed (s : State) {t : Nat} (h : s.flag (TFLIP_PEND t) = false) (off : Nat) (bs : List (Nat × Bool)) (k : Nat)
    (f : Tile → Tile) :
    (bs.zipIdx k).foldl (fun s b => State.bankPut s t (off + b.2) b.1) (s.modTile t f) = s.modTile t fun x => (f x).putBank (off + k) bs := by
  induction bs generalizing k f with
  | nil => rfl
  | cons b bs ih =>
    have hput := (s.modTile t f).bankPut_unarmed (t := t) h (off + k) b
    rw [State.modTile_modTile] at hput
    rw [List.zipIdx_cons, List.foldl_cons]
    dsimp only
    rw [hput, ih]
    rfl

/-- A state with bytes and their check fields put into a tile's bank, as a write from outside does. -/
def State.putBank (s : State) (t off : Nat) (bs : List (Nat × Bool)) : State :=
  s.modTile t fun x => ((x.dropBufs off bs.length).noteWords off bs.length).putBank off bs

/-- A write of the bank with no checker test armed: expansion buffers and old instruction words aside, the bytes stand in the bank. -/
theorem State.winWrite_bank (s : State) {t off : Nat} (h : s.flag (TFLIP_PEND t) = false) (hoff : off < 0x200000) (bs : List (Nat × Bool)) :
    s.winWrite t off bs = s.putBank t off bs := by
  rw [State.winWrite, if_pos hoff]
  exact s.foldl_bankPut_unarmed h off bs 0 _

/-- A byte with its check field reads good, without error. -/
theorem classify_byteCode_good (d : Nat) : classify (byteCode (d, false)) = .good (d % 256) := by
  have hnibbles : ∀ h < 16, ∀ l < 16, classify (codeWord (16 * h + l) 0) = .good (16 * h + l) := by decide
  have hmod : byteCode (d, false) = codeWord (d % 256) 0 := by simp [byteCode, codeWord]
  have hd := hnibbles (d % 256 / 16) (by omega) (d % 16) (by omega)
  rw [hmod]
  rwa [show 16 * (d % 256 / 16) + d % 16 = d % 256 by omega] at hd

theorem classify_byteCode_poison : classify (byteCode (0, true)) = .poison := by decide

/-- Bytes put into a bank are what it reads there. -/
theorem State.classOf_putBank (s : State) (t o : Nat) (bs : List (Nat × Bool)) {k : Nat} (hk : k < bs.length) :
    ((s.putBank t o bs).tile t).classOf (o + k) = classify (byteCode bs[k]) := by
  rw [State.putBank, State.tile_modTile_same, Tile.classOf, Tile.code_putBank _ _ _ hk]

/-- Every other bank byte stands as before. -/
theorem State.code_putBank_outside (s : State) (t o : Nat) (bs : List (Nat × Bool)) {j off : Nat}
    (h : j = t → off < o ∨ o + bs.length ≤ off) : ((s.putBank t o bs).tile j).code off = (s.tile j).code off := by
  by_cases hj : j = t
  · subst hj
    rw [State.putBank, State.tile_modTile_same, Tile.code_putBank_outside _ _ _ (h rfl), Tile.code_noteWords, Tile.code_dropBufs]
  · rw [State.putBank, State.tile_modTile_other _ _ _ _ hj]

theorem State.putBank_regs (s : State) (t o : Nat) (bs : List (Nat × Bool)) : (s.putBank t o bs).regs = s.regs := rfl

/-! ## A tile's window by device address -/

/-- An address of a tile's window is its tile's base and its offset. -/
theorem inTileWindow_split {x : Nat} (hx : x < 2 ^ 48) (hw : inTileWindow x = true) :
    x = tileBase 0 + winTile x * 0x400000 + winOff x ∧ winTile x < 2048 ∧ winOff x < 0x400000 := by
  simp only [inTileWindow, winTile, winOff, addrDev, tileBase, Nat.mod_eq_of_lt hx, Bool.and_eq_true, decide_eq_true_eq] at *
  omega

/-- The tile and the offset that an address is made of. -/
theorem inTileWindow_join {t o : Nat} (ht : t < 2048) (ho : o < 0x400000) :
    inTileWindow (tileBase 0 + t * 0x400000 + o) = true ∧ winTile (tileBase 0 + t * 0x400000 + o) = t
      ∧ winOff (tileBase 0 + t * 0x400000 + o) = o := by
  have hx : tileBase 0 + t * 0x400000 + o < 2 ^ 48 := by simp only [tileBase]; omega
  simp only [inTileWindow, winTile, winOff, addrDev, Nat.mod_eq_of_lt hx, Bool.and_eq_true, decide_eq_true_eq]
  simp only [tileBase]
  omega

end Sys2Proof.Machine
end

section
/-! SUPPORT. Accesses of the host: when they reach the device, where PF 0's BAR 2 leads, and what an access of memory and of a register
comes to (R46, R451, R454, R456, R542). -/

namespace Sys2Proof.Machine

/-! ## Reaching the device -/

theorem State.barAccess_of_hostIn {s : State} {c : Nat} (h : s.hostIn c) (ones : Option Nat) (f : State → State) : s.barAccess c ones f = f s := by
  obtain ⟨hboot, hlink, hc, hvf⟩ := h
  simp [State.barAccess, hboot, hlink, hc, hvf]

theorem State.barAccess_read_of_inHold {s : State} (h : s.inHold) (c n : Nat) (f : State → State) :
    s.barAccess c (some n) f = s.emit (.hostData (List.replicate n 255) false) := by
  have h : s.boot = .hold := h
  simp [State.barAccess, h]

theorem State.barAccess_write_of_inHold {s : State} (h : s.inHold) (c : Nat) (f : State → State) : s.barAccess c none f = s := by
  have h : s.boot = .hold := h
  simp [State.barAccess, h]

/-- BAR 2 of PF 0 is the device map. -/
theorem State.barAddr_pf0 (s : State) {x : Nat} (hx : x < 2 ^ 42) : s.barAddr 0 2 x = some x := by
  rw [State.barAddr, if_neg (by decide), if_pos rfl, if_pos rfl, if_pos hx]

theorem State.hostMay_pf0 (s : State) (d n : Nat) : s.hostMay 0 d n = true := rfl

theorem ne_barConfig_two : (2 : Nat) ≠ barConfig := by decide

/-! ## Reports -/

/-- A host access that faults is reported (type 0x05), and changes nothing else. -/
theorem State.hostFault_spec (s : State) (c d : Nat) :
    (s.hostFault c d).sent = s.sent ∧ (∃ r, (s.hostFault c d).reports = s.reports ++ [r] ∧ r.typ = 0x05) ∧ s.sameRegs (s.hostFault c d) []
      ∧ s.sameMem (s.hostFault c d) :=
  ⟨rfl, ⟨_, rfl, rfl⟩, State.sameRegs_of_regs rfl _, State.sameMem_of_stores rfl rfl rfl⟩

/-- What the device sends changes no register and no memory. -/
theorem State.emit_spec (s : State) (o : Out) : (s.emit o).sent = s.sent ++ [o] ∧ s.sameRegs (s.emit o) [] ∧ s.sameMem (s.emit o) :=
  ⟨rfl, State.sameRegs_of_regs rfl _, State.sameMem_of_stores rfl rfl rfl⟩

/-! ## A tile's bank -/

/-- A clean byte's value is read without poison. -/
theorem Tile.value_of_clean {x : Tile} {off : Nat} (h : x.clean off = true) : (x.classOf off).value = ((x.classOf off).value.1, false) := by
  unfold Tile.clean at h
  split at h
  · next d hd => rw [hd]; rfl
  · cases h

/-- Clean bytes of a bank, read by their device addresses, are read as they are and leave no trace. -/
theorem State.memRead_clean (s : State) {t o n : Nat} (ht : t < 2048) (h : (s.tile t).cleanRange o n) (ho : o < 0x400000) (unit : Nat) :
    s.memRead (tileBase 0 + t * 0x400000 + o) n unit = (((s.tile t).bytesAt o n).map fun b => (b, false), s) := by
  obtain ⟨hbank, hclean⟩ := h
  have hhigh : ¬ tileBase 0 + t * 0x400000 + o < 0x8000000000 := by simp only [tileBase]; omega
  rw [State.memRead, if_neg hhigh, readMany_pure _ fun a => (((s.tile t).classOf (a - (tileBase 0 + t * 0x400000))).value.1, false)]
  · have hback : ∀ k, tileBase 0 + t * 0x400000 + o + k - (tileBase 0 + t * 0x400000) = o + k := fun k => by omega
    simp only [Tile.bytesAt, List.map_map, Function.comp_def, hback]
  · intro a ha
    obtain ⟨k, hk, rfl⟩ := List.mem_map.mp ha
    have hk := List.mem_range.mp hk
    obtain ⟨-, htile, hoff⟩ := inTileWindow_join (o := o + k) ht (by omega)
    have hlt : tileBase 0 + t * 0x400000 + o + k < 2 ^ 48 := by simp only [tileBase]; omega
    simp only [winTile, winOff, addrDev, ← Nat.add_assoc, Nat.mod_eq_of_lt hlt] at htile hoff
    have hsub : tileBase 0 + t * 0x400000 + o + k - (tileBase 0 + t * 0x400000) = o + k := by omega
    have hbyte : o + k < 0x200000 := by omega
    rw [htile, hoff, hsub, State.winByte, if_pos hbyte, State.bankByte_clean _ _ _ _ (hclean k hk), Tile.value_of_clean (hclean k hk)]

/-- A range of a tile's window is memory when the tile can be reached and the range lies in the file's or the bank's addressable part. -/
theorem State.isMem_window (s : State) {t o : Nat} (ht : t < 2048) (ho : o < 0x400000) (n : Nat) :
    s.isMem (tileBase 0 + t * 0x400000 + o) n = true ↔
      (s.half1Gone && decide (1024 ≤ t)) = false ∧ o + max n 1 ≤ 0x208000 ∧ (o + max n 1 ≤ s.scBase t ∨ 0x1F0000 ≤ o) := by
  have hhigh : ¬ tileBase 0 + t * 0x400000 + o < 0x8000000000 := by simp only [tileBase]; omega
  have hin : tileBase 0 ≤ tileBase 0 + t * 0x400000 + o ∧ tileBase 0 + t * 0x400000 + o < tileBase 2048 := by simp only [tileBase]; omega
  have htile : (tileBase 0 + t * 0x400000 + o - tileBase 0) / 0x400000 = t := by omega
  have hoff : (tileBase 0 + t * 0x400000 + o - tileBase 0) % 0x400000 = o := by omega
  rw [State.isMem, if_neg hhigh, if_pos hin, htile, hoff]
  simp only [Bool.and_eq_true, Bool.not_eq_true', Bool.or_eq_true, decide_eq_true_eq, and_assoc]

/-- A write from outside into a tile's bank, neither marked nor under an armed checker test, puts the bytes there. -/
theorem State.outWrite_bank (s : State) {t o : Nat} {bs : List (Nat × Bool)} (c : Option Nat) (host : Bool) (ht : t < 2048) (ho : o < 0x200000)
    (hn : o + bs.length ≤ 0x200000) (hmem : s.isMem (tileBase 0 + t * 0x400000 + o) bs.length = true) (hmark : (s.tile t).marking = false)
    (hpend : s.flag (TFLIP_PEND t) = false) :
    s.outWrite c host (tileBase 0 + t * 0x400000 + o) bs =
      .ok (s.putBank t o bs) := by
  have hhigh : ¬ tileBase 0 + t * 0x400000 + o < 0x8000000000 := by simp only [tileBase]; omega
  have htile : (tileBase 0 + t * 0x400000 + o - tileBase 0) / 0x400000 = t := by omega
  have hoff : (tileBase 0 + t * 0x400000 + o - tileBase 0) % 0x400000 = o := by omega
  have htakes : s.refusesWrite (tileBase 0 + t * 0x400000 + o) = false := by simp [State.refusesWrite, htile, hmark]
  have hone : ¬ (o < 0x200000 ∧ 0x200000 < o + bs.length) := by omega
  rw [State.outWrite, if_pos hmem, htakes, if_neg Bool.false_ne_true, if_neg hhigh, State.memWrite, if_neg hhigh, htile, hoff]
  dsimp only
  rw [if_neg hone, State.winWrite_bank _ hpend ho]

/-- A host write of PF 0 into a tile's bank through BAR 2 is the write of its bytes, or of poisoned granules when EP is set (R451). -/
theorem exec_hostWrite_bank {s : State} {x : Nat} {bs : List Nat} (ep : Bool) (hin : s.hostIn 0) (hx : x < 2 ^ 42) (hhigh : ¬ x < 0x8000000000)
    (hmem : s.isMem x bs.length = true) {u : State}
    (hw : s.outWrite (some 0) true (if ep then epRange x bs.length else (x, bs.map fun b => (b, false))).1
      (if ep then epRange x bs.length else (x, bs.map fun b => (b, false))).2 = .ok u) :
    exec (.hostWrite 0 2 x bs ep) s = .next u := by
  simp only [exec, execHostWrite, State.barAccess_of_hostIn hin, State.barAddr_pf0 s hx, hmem, State.hostMay_pf0, Bool.and_self, if_true, hhigh,
    false_and, if_false, hw]

/-- The granules that a poisoned write covers, in the window of its tile. -/
theorem epRange_window (t o n : Nat) :
    epRange (tileBase 0 + t * 0x400000 + o) n =
      (tileBase 0 + t * 0x400000 + o / 64 * 64, List.replicate ((o + n + 63) / 64 * 64 - o / 64 * 64) (0, true)) := by
  simp only [epRange, tileBase, Prod.mk.injEq]
  exact ⟨by omega, by congr 1; omega⟩

/-! ## Registers -/

theorem goneTile_of_word (s : State) (x : Nat) : s.goneTile (x - x % 8) = s.goneTile x := by
  have hlow : tileBase 1024 ≤ x - x % 8 ↔ tileBase 1024 ≤ x := by simp only [tileBase]; omega
  have hhigh : x - x % 8 < tileBase 2048 ↔ x < tileBase 2048 := by simp only [tileBase]; omega
  simp only [State.goneTile, hlow, hhigh]

/-- A host read of a register that nothing bars answers its bytes and leaves the state of the clearing read. -/
theorem State.hostRegRead_open (s : State) {x n : Nat} {r : RSpec} (hok : accessOk x n = true) (hr : regSpecAt (x - x % 8) = some r)
    (hmay : s.regReads (some 0) (x - x % 8) = true) (hmbox : mboxAt (x - x % 8) = none ∨ n = 8) (harfp : x - x % 8 ≠ aARFP)
    (hgone : s.goneTile x = false) :
    s.hostRegRead 0 x n = (s.regRead x n).2.emit (.hostData (leBytes n (s.regRead x n).1) false) := by
  have hbox : ((mboxAt (x - x % 8)).isSome && n != 8) = false := by
    obtain h | h := hmbox <;> simp [h]
  have hopen : s.regGet (some 0) x n = some (s.regRead x n) := by
    simp only [State.regGet, hok, hr, hmay, hbox, goneTile_of_word, hgone, Option.isNone_some, Bool.not_true, Bool.or_self, Bool.false_eq_true,
      if_false, harfp]
  rw [State.hostRegRead, State.hostMay_pf0, if_pos rfl, hopen]

/-- A host write where no register lies is a fault. -/
theorem State.hostRegWrite_unmapped (s : State) {x : Nat} (bs : List Nat) (hr : regSpecAt (x - x % 8) = none) :
    s.hostRegWrite 0 x bs = s.hostFault 0 x := by
  have hnone : s.regSet (some 0) true x bs = none := by
    simp only [State.regSet, hr, ite_self]
  rw [State.hostRegWrite, State.hostMay_pf0, if_pos rfl, hnone]
  rfl

/-- A host write of a tile's plain register writes its RW and W1C bits in the lanes of the bytes. -/
theorem State.hostRegWrite_tile (s : State) {x t : Nat} {bs : List Nat} {r : RSpec} (hok : accessOk x bs.length = true)
    (hr : regSpecAt (x - x % 8) = some r) (hlow : tileBase t ≤ x) (hhigh : x < tileBase (t + 1)) (ht : t < 2048)
    (hmark : (s.tile t).marking = false) (hgone : s.goneTile x = false) (hmbox : mboxAt (x - x % 8) = none ∨ bs.length = 8)
    (hctl : x - x % 8 ≠ aTSQCTL t) (hflip : x - x % 8 ≠ aTFLIP t) (hsc : x - x % 8 ≠ aTSCCTL t) :
    s.hostRegWrite 0 x bs = s.setReg (x - x % 8)
      (r.written (s.reg (x - x % 8)) (laneMask (x % 8) bs.length) (ofLE bs * 2 ^ (8 * (x % 8)))) := by
  simp only [tileBase] at hlow hhigh
  have hbox : ((mboxAt (x - x % 8)).isSome && bs.length != 8) = false := by
    obtain h | h := hmbox <;> simp [h]
  have htile : (x - tileBase 0) / 0x400000 = t := by simp only [tileBase]; omega
  have hword : (x - x % 8 - tileBase 0) / 0x400000 = t := by simp only [tileBase]; omega
  have htakes : s.refusesWrite x = false := by simp [State.refusesWrite, htile, hmark]
  have hblock : x - x % 8 < 0x020000000000 := by omega
  have hset : s.regSet (some 0) true x bs = some (s.setReg (x - x % 8)
      (r.written (s.reg (x - x % 8)) (laneMask (x % 8) bs.length) (ofLE bs * 2 ^ (8 * (x % 8))))) := by
    simp only [State.regSet, hok, hbox, htakes, hgone, hr, Bool.not_true, Bool.or_self, Bool.false_eq_true, if_false, State.regWrites, hblock,
      if_true, State.regAct, State.tileRegPut, hword, hctl, hflip, hsc, RegW.put, RegW.plain]
  rw [State.hostRegWrite, State.hostMay_pf0, if_pos rfl, hset]
  rfl

end Sys2Proof.Machine
end

section
/-! The statements on host accesses and on the state after a power-on reset. -/

namespace Sys2Proof.Proofs
open Sys2Proof Sys2Proof.Machine

/-- R451, R454: PF 0 reads a clean range of a tile's bank. -/
theorem exec_hostRead_bank {s : State} {x n : Nat} (hin : s.hostIn 0) (hx : x < 2 ^ 42) (hw : inTileWindow x = true) (hmem : s.isMem x n = true)
    (hclean : (s.tile (winTile x)).cleanRange (winOff x) n) :
    exec (.hostRead 0 2 x n) s = .next (s.emit (.hostData ((s.tile (winTile x)).bytesAt (winOff x) n) false)) := by
  obtain ⟨hsplit, ht, ho⟩ := inTileWindow_split (by omega) hw
  have hhigh : ¬ x < 0x8000000000 := by rw [hsplit]; simp only [tileBase]; omega
  have hread := s.memRead_clean ht hclean ho uExternal
  rw [← hsplit] at hread
  have hpois : anyPois (((s.tile (winTile x)).bytesAt (winOff x) n).map fun b => (b, false)) = false := by simp [anyPois]
  simp only [exec, execHostRead, if_neg ne_barConfig_two, State.barAccess_of_hostIn hin, State.barAddr_pf0 s hx, hmem, State.hostMay_pf0,
    Bool.and_self, if_true, State.hostMemRead, if_neg hhigh, hread, hpois, List.map_map, Function.comp_def, List.map_id']

/-- R451: a host write without EP into a tile's bank leaves its bytes good there and touches no other byte. -/
theorem hostWrite_bytes {s : State} {x : Nat} {bs : List Nat} (hin : s.hostIn 0) (hx : x < 2 ^ 42) (hw : inTileWindow x = true)
    (hmem : s.isMem x bs.length = true) (hmark : (s.tile (winTile x)).marking = false) (hpend : s.flag (TFLIP_PEND (winTile x)) = false)
    (hend : winOff x + bs.length ≤ 0x1F0000) :
    Gives (exec (.hostWrite 0 2 x bs false) s) fun u =>
      (∀ k < bs.length, (u.tile (winTile x)).classOf (winOff x + k) = .good (nth 0 bs k % 256)) ∧
      (∀ j off, (j = winTile x → off < winOff x ∨ winOff x + bs.length ≤ off) → (u.tile j).code off = (s.tile j).code off) ∧ s.sameRegs u [] := by
  obtain ⟨hsplit, ht, -⟩ := inTileWindow_split (by omega) hw
  have hhigh : ¬ x < 0x8000000000 := by rw [hsplit]; simp only [tileBase]; omega
  have hput := s.outWrite_bank (o := winOff x) (bs := bs.map fun b => (b, false)) (some 0) true ht (by omega)
    (by rw [List.length_map]; omega) (by rw [← hsplit, List.length_map]; exact hmem) hmark hpend
  rw [← hsplit] at hput
  refine ⟨_, exec_hostWrite_bank false hin hx hhigh hmem hput, ?_⟩
  refine ⟨fun k hk => ?_, fun j off hj => ?_, State.sameRegs_of_regs (s.putBank_regs _ _ _) _⟩
  · rw [s.classOf_putBank _ _ _ (by simpa using hk), List.getElem_map, classify_byteCode_good]
    simp [nth, hk]
  · exact s.code_putBank_outside _ _ _ (by rwa [List.length_map])

/-- R451: a host write with EP into a tile's bank poisons every 64-byte granule it covers and touches no other byte. -/
theorem hostWrite_poison {s : State} {x lo hi : Nat} {bs : List Nat} (hin : s.hostIn 0) (hx : x < 2 ^ 42) (hw : inTileWindow x = true)
    (hmem : s.isMem x bs.length = true) (hmark : (s.tile (winTile x)).marking = false) (hpend : s.flag (TFLIP_PEND (winTile x)) = false)
    (hend : winOff x + bs.length + 63 ≤ s.scBase (winTile x)) (hpos : 0 < bs.length)
    (hlo : lo = winOff x / 64 * 64) (hhi : hi = (winOff x + bs.length + 63) / 64 * 64) :
    Gives (exec (.hostWrite 0 2 x bs true) s) fun u =>
      (∀ off, lo ≤ off → off < hi → (u.tile (winTile x)).classOf off = .poison) ∧
      (∀ j off, (j = winTile x → off < lo ∨ hi ≤ off) → (u.tile j).code off = (s.tile j).code off) ∧ s.sameRegs u [] := by
  obtain ⟨hsplit, ht, ho⟩ := inTileWindow_split (by omega) hw
  have hhigh : ¬ x < 0x8000000000 := by rw [hsplit]; simp only [tileBase]; omega
  have hbase : s.scBase (winTile x) ≤ 0x1F0000 := by simp only [State.scBase]; omega
  have hlen : (List.replicate (hi - lo) ((0, true) : Nat × Bool)).length = hi - lo := List.length_replicate
  have hcover : lo + (hi - lo) = hi ∧ lo < hi ∧ hi ≤ s.scBase (winTile x) := by omega
  have hgran : s.isMem (tileBase 0 + winTile x * 0x400000 + lo) (hi - lo) = true := by
    rw [hsplit, State.isMem_window s ht ho] at hmem
    exact (State.isMem_window s ht (by omega) _).mpr ⟨hmem.1, by omega, by omega⟩
  have hrange := epRange_window (winTile x) (winOff x) bs.length
  rw [← hsplit, ← hlo, ← hhi] at hrange
  have hput := s.outWrite_bank (o := lo) (bs := List.replicate (hi - lo) (0, true)) (some 0) true ht (by omega) (by rw [hlen]; omega)
    (by rw [hlen]; exact hgran) hmark hpend
  refine ⟨_, exec_hostWrite_bank true hin hx hhigh hmem (by rw [if_pos rfl, hrange]; exact hput), ?_⟩
  refine ⟨fun off h1 h2 => ?_, fun j off hj => ?_, State.sameRegs_of_regs (s.putBank_regs _ _ _) _⟩
  · have hoff : off = lo + (off - lo) := by omega
    rw [hoff, s.classOf_putBank _ _ _ (by rw [hlen]; omega), List.getElem_replicate, classify_byteCode_poison]
  · exact s.code_putBank_outside _ _ _ (by rwa [hlen, hcover.1])

/-- R456: an access outside a BAR's contents is reported; a read is aborted and a write discarded. -/
theorem exec_host_outside {s : State} {c bar x : Nat} (hin : s.hostIn c) (hout : s.barAddr c bar x = none) :
    (∀ n, bar ≠ barConfig → exec (.hostRead c bar x n) s = .next ((s.hostFault c x).emit .hostAbort)) ∧
    ∀ bs ep, exec (.hostWrite c bar x bs ep) s = .next (s.hostFault c x) := by
  refine ⟨fun n hbar => ?_, fun bs ep => ?_⟩
  · simp only [exec, execHostRead, if_neg hbar, State.barAccess_of_hostIn hin, hout]
  · simp only [exec, execHostWrite, State.barAccess_of_hostIn hin, hout]

/-- R46: in arbitration hold a read returns all ones and a write is discarded. -/
theorem exec_host_inHold {s : State} (h : s.inHold) (c bar x : Nat) :
    (∀ n, bar ≠ barConfig → exec (.hostRead c bar x n) s = .next (s.emit (.hostData (List.replicate n 255) false))) ∧
    ∀ bs ep, exec (.hostWrite c bar x bs ep) s = .next s := by
  refine ⟨fun n hbar => ?_, fun bs ep => ?_⟩
  · simp only [exec, execHostRead, if_neg hbar, State.barAccess_read_of_inHold h]
  · simp only [exec, execHostWrite, State.barAccess_write_of_inHold h]

/-- R46: PF 0's vendor-specific capability is read in arbitration hold and under an image. -/
theorem exec_hostRead_vendorCap {s : State} (h : s.inHold ∨ s.boot = .up ∧ s.flag HLINK_UP = true) (x n : Nat) :
    exec (.hostRead 0 barConfig x n) s = .next (s.emit (.hostData ((s.vendorCap.drop x).take n) false)) := by
  have hup : s.configUp = true := by
    simp only [State.configUp, Bool.or_eq_true, Bool.and_eq_true, beq_iff_eq]
    exact h
  simp [exec, execHostRead, hup]

/-- R12, R542: a read of an open register answers its bytes and clears the RC fields that it covers whole. -/
theorem readClear_spec {s : State} {x n : Nat} {r : RSpec} (hin : s.hostIn 0) (hok : accessOk x n = true) (hr : regSpecAt (x - x % 8) = some r)
    (hmay : s.regReads (some 0) (x - x % 8) = true) (hmbox : mboxAt (x - x % 8) = none ∨ n = 8) (harfp : x - x % 8 ≠ aARFP)
    (hgone : s.goneTile x = false) (hbeat : beatCounter (x - x % 8) = true → s.beatsRun (x - x % 8) = false) :
    Gives (exec (.readClear 0 x n) s) fun u =>
      u.sent = s.sent ++ [.hostData (leBytes n (bitsOf (s.readReg (x - x % 8)).toNat (8 * (x % 8)) (8 * n))) false] ∧
      (∀ k, u.reg k = if k = x - x % 8 then s.reg k &&& ~~~ BitVec.ofNat 64 (r.mask (clearedBy (x % 8) n)) else s.reg k) ∧ s.sameMem u := by
  have hexec : exec (.readClear 0 x n) s = .next ((s.regRead x n).2.emit (.hostData (leBytes n (s.regRead x n).1) false)) := by
    simp only [exec, execReadClear, State.barAccess_of_hostIn hin, s.hostRegRead_open hok hr hmay hmbox harfp hgone]
  have hstate : (s.regRead x n).2 = s.rcClear (x - x % 8) (x % 8) n ∨ (s.regRead x n).2 = (s.rcClear (x - x % 8) (x % 8) n).freshen := by
    simp only [State.regRead]
    split
    · exact .inr rfl
    · exact .inl rfl
  have hclear := s.reg_rcClear hr hbeat (x % 8) n
  refine ⟨_, hexec, ?_⟩
  obtain h | h := hstate
  all_goals
    rw [h]
    refine ⟨?_, fun k => ?_, State.sameMem_of_stores ?_ ?_ ?_⟩
    · simp [State.regRead]
    · have hk := hclear k
      split at hk
      · next e => rw [if_pos e, e]; exact e ▸ hk
      · next e => rw [if_neg e]; exact hk
    all_goals simp

/-- R12, R542: a write of a plain tile register by PF 0 writes its RW and W1C bits in the lanes of the bytes. -/
theorem exec_registerWrite_tile {s : State} {x t : Nat} {bs : List Nat} {r : RSpec} (hin : s.hostIn 0) (hok : accessOk x bs.length = true)
    (hr : regSpecAt (x - x % 8) = some r) (hlow : tileBase t ≤ x) (hhigh : x < tileBase (t + 1)) (ht : t < 2048)
    (hmark : (s.tile t).marking = false) (hgone : s.goneTile x = false) (hmbox : mboxAt (x - x % 8) = none ∨ bs.length = 8)
    (hctl : x - x % 8 ≠ aTSQCTL t) (hflip : x - x % 8 ≠ aTFLIP t) (hsc : x - x % 8 ≠ aTSCCTL t) :
    exec (.registerWrite 0 x bs) s = .next (s.setReg (x - x % 8)
      (r.written (s.reg (x - x % 8)) (laneMask (x % 8) bs.length) (ofLE bs * 2 ^ (8 * (x % 8))))) := by
  simp only [exec, execRegisterWrite, State.barAccess_of_hostIn hin,
    s.hostRegWrite_tile hok hr hlow hhigh ht hmark hgone hmbox hctl hflip hsc]

theorem exec_registerWrite_unmapped {s : State} {x : Nat} (bs : List Nat) (hin : s.hostIn 0) (hr : regSpecAt (x - x % 8) = none) :
    exec (.registerWrite 0 x bs) s = .next (s.hostFault 0 x) := by
  simp only [exec, execRegisterWrite, State.barAccess_of_hostIn hin, s.hostRegWrite_unmapped bs hr]

/-- Settles O49: each kind of host access comes to one known next state, whose registers and bytes are then read off: a poisoned or plain
write of a bank is the bytes put there, a clearing read and a plain write of a register are a mask of its layout's fields. -/
theorem hostAccesses : Obligations.HostAccesses := by
  unfold Obligations.HostAccesses
  refine ⟨?bankRead, ?bankWrite, ?outside, ?hold, ?vendorCap, ?readClear, ?unmapped, ?plainWrite⟩
  case bankRead =>
    intro s x n hin hx hw hmem hclean
    exact ⟨_, exec_hostRead_bank hin hx hw hmem hclean, s.emit_spec _⟩
  case bankWrite =>
    intro s x bs hin hx hw hmem hmark hpend
    exact ⟨hostWrite_bytes hin hx hw hmem hmark hpend, fun hend hpos => hostWrite_poison hin hx hw hmem hmark hpend hend hpos rfl rfl⟩
  case outside =>
    intro s c bar x n bs ep hin hout
    obtain ⟨hread, hwrite⟩ := exec_host_outside hin hout
    exact ⟨fun hbar => ⟨_, hread n hbar, rfl, ⟨_, rfl, rfl⟩, State.sameRegs_of_regs rfl _, State.sameMem_of_stores rfl rfl rfl⟩,
      _, hwrite bs ep, s.hostFault_spec c x⟩
  case hold =>
    intro s c bar x n bs ep h
    obtain ⟨hread, hwrite⟩ := exec_host_inHold h c bar x
    exact ⟨fun hbar => ⟨_, hread n hbar, s.emit_spec _⟩, hwrite bs ep⟩
  case vendorCap =>
    intro s x n h
    obtain ⟨hsent, hregs, hmem⟩ := s.emit_spec (.hostData ((s.vendorCap.drop x).take n) false)
    exact ⟨_, exec_hostRead_vendorCap h x n, hsent, hregs, hmem, rfl⟩
  case readClear =>
    intro s x n r hin hok hr hmay hmbox harfp hgone hbeat
    obtain ⟨u, hexec, hsent, hreg, hmem⟩ := readClear_spec hin hok hr hmay hmbox harfp hgone hbeat
    refine ⟨u, hexec, hsent, fun i hi => ?_, fun k hk => ?_, hmem⟩
    · have hbit := RSpec.testBit_mask_clearedBy (laidFrom_of_regSpecAt hr) (x % 8) n i
      beta_reduce
      rw [hreg, if_pos rfl, getLsbD_andNot _ _ hi, ← hbit]
      exact ⟨fun h => by simp [h], fun h => by simp [h]⟩
    · rw [hreg, if_neg (by simpa using hk)]
  case unmapped =>
    intro s x bs hin hr
    obtain ⟨-, hreport, hregs, hmem⟩ := s.hostFault_spec 0 x
    exact ⟨_, exec_registerWrite_unmapped bs hin hr, hreport, hregs, hmem⟩
  case plainWrite =>
    intro s x t bs r hin hok hbs hr hlow hhigh ht hmark hgone hmbox hctl hflip hsc
    have hlaid := laidFrom_of_regSpecAt hr
    refine ⟨_, exec_registerWrite_tile hin hok hr hlow hhigh ht hmark hgone hmbox hctl hflip hsc, fun i hi => ?_,
      fun k hk => State.reg_setReg_other _ _ _ _ (by simpa using hk), State.sameMem_of_stores rfl rfl rfl, fun k => rfl⟩
    have hlane := testBit_laneMask (x % 8) bs.length i
    have hrw : (r.mask fun f => f.kind == .rw).testBit i = true ↔ r.inField (· == .rw) i := RSpec.testBit_mask hlaid _ i
    have hw1c : (r.mask fun f => f.kind == .w1c).testBit i = true ↔ r.inField (· == .w1c) i := RSpec.testBit_mask hlaid _ i
    beta_reduce
    rw [State.reg_setReg_same, RSpec.getLsbD_written _ _ _ _ hi, ← hlane, ← hrw, ← hw1c]
    refine ⟨fun h => ?_, fun h1 h2 h3 => ?_, fun h1 h2 h3 => ?_⟩
    · obtain h | ⟨h2, h3⟩ := h
      · simp [h]
      · simp [h2, h3]
    · simp [h1, h2, h3]
    · simp [h1, h2, h3]

end Sys2Proof.Proofs
end

section
/-! The state right after a power-on reset (R13, R502, R503). -/

namespace Sys2Proof.Proofs
open Sys2Proof Sys2Proof.Machine

/-- The layout of a tile's register is the one its offset has in the tile map. -/
theorem regSpecAt_tile {t o : Nat} (ht : t < 2048) (ho : o < 0x100000) :
    regSpecAt (0x010000300000 + o + t * 0x400000) =
      regs_tile.find? fun r => decide (r.off ≤ o) && decide (o < r.off + r.cnt * r.stride) && (o - r.off) % r.stride == 0 := by
  have hlow : 0x010000300000 ≤ 0x010000300000 + o + t * 0x400000 := by omega
  have hhigh : 0x010000300000 + o + t * 0x400000 < 0x010000300000 + 2048 * 0x400000 := by omega
  have hoff : (0x010000300000 + o + t * 0x400000 - 0x010000300000) % 0x400000 = o := by omega
  rw [regSpecAt, regBlocks, List.find?_cons_of_pos]
  · simp only [hoff]
  · simp only [hlow, hhigh, hoff, ho, decide_true, Bool.and_self]

/-- Every register holds its Reset column. -/
theorem reset_reg (a : Nat) : State.reset.reg a = regReset a := rfl

/-- A tile's sequencer status is 0 after reset: IDLE, at instruction 0. -/
theorem regReset_TSQSTAT {t : Nat} (ht : t < 2048) : regReset (aTSQSTAT t) = 0 := by
  have hspec : regSpecAt (aTSQSTAT t) = some ⟨0x108, 1, 8, [⟨0, 2, .ro, 0⟩, ⟨2, 1, .w1c, 0⟩, ⟨16, 13, .ro, 0⟩, ⟨32, 16, .ro, 0⟩]⟩ :=
    (regSpecAt_tile ht (o := 0x108) (by omega)).trans (by decide)
  rw [regReset, hspec]
  rfl

/-- Settles O59: no store of the reset state lists anything, so each register reads its Reset column; what the columns show is read off. -/
theorem resetState : Obligations.ResetState := by
  unfold Obligations.ResetState
  refine ⟨reset_reg, rfl, rfl, rfl, rfl, fun t ht => ⟨?idle, rfl⟩, by decide, fun _ => rfl, by decide, fun _ => rfl, by decide, by decide,
    by decide, by decide, by decide, by decide, by decide⟩
  case idle =>
    have hreg : State.reset.reg (aTSQSTAT t) = 0 := (reset_reg _).trans (regReset_TSQSTAT ht)
    rw [State.fld, TSQSTAT_STATE, hreg]
    rfl

end Sys2Proof.Proofs
end

section
/-! SUPPORT. Chains of updates: what a fold of updates keeps, which registers a chain of field writes leaves alone, and how a field reads
after writes of fields that share no bit with it. -/

namespace Sys2Proof.Machine

/-! ## Folds -/

/-- A reflexive and transitive relation that every update of a fold meets holds of the fold. -/
theorem foldl_rel {α : Type} {R : State → State → Prop} (refl : ∀ s, R s s) (trans : ∀ {s u v}, R s u → R u v → R s v)
    {f : State → α → State} {l : List α} (step : ∀ s, ∀ x ∈ l, R s (f s x)) (s : State) : R s (l.foldl f s) := by
  induction l generalizing s with
  | nil => exact refl s
  | cons x xs ih =>
    exact trans (step s x List.mem_cons_self) (ih (fun s y hy => step s y (List.mem_cons_of_mem _ hy)) (f s x))

/-- What no update of a loop changes, the loop leaves unchanged. -/
theorem State.each_same {α β : Type} (g : State → β) {f : State → α → State} {l : List α} (step : ∀ s, ∀ x ∈ l, g (f s x) = g s) (s : State) :
    g (s.each l f) = g s :=
  foldl_rel (R := fun s u => g u = g s) (fun _ => rfl) (fun h k => k.trans h) step s

/-! ## Registers left alone -/

theorem State.sameRegs_refl (s : State) (but : List Nat) : s.sameRegs s but := fun _ _ => rfl

theorem State.sameRegs_trans {s u v : State} {but : List Nat} (h : s.sameRegs u but) (k : u.sameRegs v but) : s.sameRegs v but :=
  fun a ha => (k a ha).trans (h a ha)

theorem State.sameRegs_mono {s u : State} {but but' : List Nat} (h : s.sameRegs u but) (hsub : but ⊆ but') : s.sameRegs u but' :=
  fun a ha => h a fun hin => ha (hsub hin)

theorem State.sameRegs_setFld {s u : State} {but : List Nat} (h : s.sameRegs u but) {f : Fld} (hf : f.addr ∈ but) (v : Nat) :
    s.sameRegs (u.setFld f v) but :=
  fun a ha => (u.reg_setFld_other f v a fun e => ha (e ▸ hf)).trans (h a ha)

/-- A field reads alike where its register does. -/
theorem State.fld_of_reg {s u : State} {f : Fld} (h : u.reg f.addr = s.reg f.addr) : u.fld f = s.fld f := by
  rw [State.fld, State.fld, h]

theorem State.flag_of_fld {s u : State} {f : Fld} (h : u.fld f = s.fld f) : u.flag f = s.flag f := by
  rw [State.flag, State.flag, h]

theorem State.flag_of_reg {s u : State} {f : Fld} (h : u.reg f.addr = s.reg f.addr) : u.flag f = s.flag f :=
  State.flag_of_fld (State.fld_of_reg h)

theorem State.fld_of_sameRegs {s u : State} {but : List Nat} (h : s.sameRegs u but) {f : Fld} (hf : f.addr ∉ but) : u.fld f = s.fld f :=
  State.fld_of_reg (h _ hf)

theorem State.flag_of_sameRegs {s u : State} {but : List Nat} (h : s.sameRegs u but) {f : Fld} (hf : f.addr ∉ but) : u.flag f = s.flag f :=
  State.flag_of_reg (h _ hf)

theorem State.fld_congr {s u : State} (h : s.regs = u.regs) (f : Fld) : s.fld f = u.fld f := State.fld_of_reg (State.reg_congr h _)

theorem State.flag_congr {s u : State} (h : s.regs = u.regs) (f : Fld) : s.flag f = u.flag f := State.flag_of_reg (State.reg_congr h _)

/-! ## Memory left alone -/

theorem State.sameMem_refl (s : State) : s.sameMem s := State.sameMem_of_stores rfl rfl rfl

theorem State.sameMem.trans {s u v : State} (h : s.sameMem u) (k : u.sameMem v) : s.sameMem v := by
  obtain ⟨htile, hbyte, hmark⟩ := h
  obtain ⟨htile', hbyte', hmark'⟩ := k
  refine ⟨fun t => ?_, fun d => (hbyte' d).trans (hbyte d), fun d => (hmark' d).trans (hmark d)⟩
  obtain ⟨hcode, hacc, hpois⟩ := htile t
  obtain ⟨hcode', hacc', hpois'⟩ := htile' t
  exact ⟨fun o => (hcode' o).trans (hcode o), fun w => (hacc' w).trans (hacc w), fun r => (hpois' r).trans (hpois r)⟩

/-! ## Fields that share no bit -/

/-- Field f lies within its register and shares no bit with g: Fld.disjoint as a check that decides. -/
def Fld.apart (f g : Fld) : Bool :=
  decide (f.lo + f.w ≤ 64) && (f.addr != g.addr || decide (f.lo + f.w ≤ g.lo) || decide (g.lo + g.w ≤ f.lo))

theorem State.fld_setFld_apart (s : State) {f g : Fld} (v : Nat) (h : f.apart g = true) : (s.setFld f v).fld g = s.fld g := by
  simp only [Fld.apart, Bool.and_eq_true, Bool.or_eq_true, decide_eq_true_eq, bne_iff_ne, or_assoc] at h
  exact s.fld_setFld_other f g v h.1 h.2

theorem State.flag_setFld_apart (s : State) {f g : Fld} (v : Nat) (h : f.apart g = true) : (s.setFld f v).flag g = s.flag g :=
  State.flag_of_fld (s.fld_setFld_apart v h)

theorem State.flag_setFld_same (s : State) (f : Fld) (v : Nat) (hf : f.lo + f.w ≤ 64) : (s.setFld f v).flag f = (v % 2 ^ f.w != 0) := by
  rw [State.flag, State.fld_setFld_same s f v hf]

/-- A field's value fits its width. -/
theorem State.fld_lt (s : State) (f : Fld) : s.fld f < 2 ^ f.w := Nat.mod_lt _ (Nat.two_pow_pos _)

/-! ## Bytes of numbers -/

theorem leBytes_succ (n x : Nat) : leBytes (n + 1) x = x % 256 :: leBytes n (x / 256) := by
  simp only [leBytes, List.range_succ_eq_map, List.map_cons, List.map_map, Function.comp_def]
  congr 1
  refine List.map_congr_left fun i _ => ?_
  simp only [bitsOf, Nat.shiftRight_eq_div_pow, Nat.div_div_eq_div_mul]
  rw [show 8 * i.succ = 8 + 8 * i by omega, Nat.pow_add]

/-- A number is read back from its bytes, cut to their count. -/
theorem ofLE_leBytes (n x : Nat) : ofLE (leBytes n x) = x % 2 ^ (8 * n) := by
  induction n generalizing x with
  | zero => simp [leBytes, ofLE, Nat.mod_one]
  | succ n ih =>
    have hcons : ofLE (leBytes (n + 1) x) = x % 256 % 256 + 256 * ofLE (leBytes n (x / 256)) := by rw [leBytes_succ]; rfl
    rw [hcons, ih, Nat.mod_mod, show 8 * (n + 1) = 8 + 8 * n by omega, Nat.pow_add, Nat.mod_mul]

end Sys2Proof.Machine
end

section
/-! SUPPORT. Site time: what counting, leak ticks, the lock's loss and its taking do to the registers, and what an exchange sends (R32, R35
to R37, R210, R275). -/

namespace Sys2Proof.Machine

/-! ## What an operation on site time may change -/

/-- u is s but for registers among a list and the leak ticks that have fallen. -/
def State.OnlyTime (but : List Nat) (s u : State) : Prop :=
  (∃ rs lk, u = { s with regs := rs, tsync := { s.tsync with leak := lk } }) ∧ s.sameRegs u but

theorem State.OnlyTime.refl (but : List Nat) (s : State) : State.OnlyTime but s s := ⟨⟨s.regs, s.tsync.leak, rfl⟩, s.sameRegs_refl but⟩

theorem State.OnlyTime.trans {but : List Nat} {s u v : State} (h : State.OnlyTime but s u) (k : State.OnlyTime but u v) :
    State.OnlyTime but s v := by
  obtain ⟨⟨rs, lk, rfl⟩, hregs⟩ := h
  obtain ⟨⟨rs', lk', rfl⟩, hregs'⟩ := k
  exact ⟨⟨rs', lk', rfl⟩, State.sameRegs_trans hregs hregs'⟩

theorem State.OnlyTime.mono {but but' : List Nat} {s u : State} (h : State.OnlyTime but s u) (hsub : but ⊆ but') : State.OnlyTime but' s u :=
  ⟨h.1, State.sameRegs_mono h.2 hsub⟩

theorem State.onlyTime_setFld (s : State) {but : List Nat} {f : Fld} (hf : f.addr ∈ but) (v : Nat) : State.OnlyTime but s (s.setFld f v) :=
  ⟨⟨_, s.tsync.leak, rfl⟩, State.sameRegs_setFld (s.sameRegs_refl but) hf v⟩

theorem State.OnlyTime.sameMem {but : List Nat} {s u : State} (h : State.OnlyTime but s u) : s.sameMem u := by
  obtain ⟨⟨rs, lk, rfl⟩, -⟩ := h
  exact State.sameMem_of_stores rfl rfl rfl

/-! ## Leak ticks (R210) -/

/-- The registers of the buckets. -/
def bucketRegs : List Nat := (List.range 10).map aGECCBKT

theorem State.onlyTime_leakOne (s : State) (k : Nat) : State.OnlyTime bucketRegs s (s.leakOne k) := by
  refine foldl_rel (State.OnlyTime.refl _) State.OnlyTime.trans (fun s n hn => s.onlyTime_setFld ?_ _) s
  have hlt : n < 10 := by
    split at hn <;> simp only [List.mem_cons, List.not_mem_nil, or_false] at hn <;> omega
  exact List.mem_map.mpr ⟨n, List.mem_range.mpr hlt, rfl⟩

theorem State.onlyTime_leakDue (s : State) (k : Nat) : State.OnlyTime bucketRegs s (s.leakDue k) := by
  unfold State.leakDue
  split
  · exact State.OnlyTime.trans ⟨⟨s.regs, _, rfl⟩, s.sameRegs_refl _⟩ (State.onlyTime_leakOne _ k)
  · exact State.OnlyTime.refl _ s

theorem State.onlyTime_leakFall (s : State) (a b : Nat) : State.OnlyTime bucketRegs s (s.leakFall a b) := by
  refine foldl_rel (State.OnlyTime.refl _) State.OnlyTime.trans (fun s k _ => ?_) s
  dsimp only
  split
  · exact (s.onlyTime_leakDue k).trans ⟨⟨_, _, rfl⟩, State.sameRegs_refl _ _⟩
  · exact State.OnlyTime.refl _ s

/-- Site time going from a to b crosses a multiple of class k's leak interval. -/
def State.crosses (s : State) (a b k : Nat) : Bool :=
  let n := s.fld (GECCCFG_LEAK k) * 1000
  decide (n ≠ 0 ∧ a / n < b / n)

/-- The leak ticks of s are l. -/
def State.withLeak (s : State) (l : List Nat) : State := { s with tsync := { s.tsync with leak := l } }

/-- TBTIME's step for one class (R210). -/
def State.leakStep (a b : Nat) (s : State) (k : Nat) : State :=
  if s.fld (GECCCFG_LEAK k) * 1000 ≠ 0 ∧ a / (s.fld (GECCCFG_LEAK k) * 1000) < b / (s.fld (GECCCFG_LEAK k) * 1000) then
    (s.leakDue k).withLeak ((s.leakDue k).tsync.leak ++ [k])
  else s

theorem State.leakFall_eq (s : State) (a b : Nat) : s.leakFall a b = State.leakStep a b (State.leakStep a b s 0) 1 := rfl

/-- A class whose tick does not wait: one falls where its interval is crossed. -/
theorem State.leakStep_withLeak (s : State) (a b : Nat) {l : List Nat} {k : Nat} (hk : k ∉ l) :
    State.leakStep a b (s.withLeak l) k = s.withLeak (l ++ [k].filter (s.crosses a b)) := by
  have hdue : (s.withLeak l).leakDue k = s.withLeak l := if_neg (by simpa [State.withLeak] using hk)
  by_cases hc : s.crosses a b k = true
  · rw [List.filter_cons_of_pos hc, State.leakStep, hdue]
    exact if_pos (of_decide_eq_true hc)
  · rw [List.filter_cons_of_neg hc, List.filter_nil, List.append_nil, State.leakStep]
    exact if_neg fun h => hc (decide_eq_true h)

/-- Where no tick waits, one falls for each class whose interval is crossed, and no bucket leaks yet. -/
theorem State.leakFall_none {s : State} (h : s.tsync.leak = []) (a b : Nat) :
    s.leakFall a b = s.withLeak ([0, 1].filter (s.crosses a b)) := by
  have hs : s = s.withLeak [] := by rw [State.withLeak, ← h]
  rw [State.leakFall_eq, show State.leakStep a b s 0 = State.leakStep a b (s.withLeak []) 0 from congrArg (State.leakStep a b · 0) hs,
    State.leakStep_withLeak _ _ _ (by simp), State.leakStep_withLeak _ _ _ (by simp), List.nil_append, ← List.filter_append]
  rfl

/-! ## A nanosecond (R32) -/

/-- A nanosecond has been counted. -/
def State.ticked (s : State) : State := { s with clk := s.clk + 1 }

/-- Stores are performed in a nanosecond only where some are posted. -/
theorem State.landSome_of_noPosted {s : State} (h : ∀ e ∈ s.tiles, e.2.posted = []) : s.landSome = s := by
  have hnone : s.tiles.filter (fun e => !e.2.posted.isEmpty) = [] := List.filter_eq_nil_iff.mpr fun e he => by simp [h e he]
  simp only [State.landSome, hnone, List.map_nil, List.isEmpty_nil, if_true]

theorem exec_siteTimeTick_counts {s : State} (hposted : ∀ e ∈ s.tiles, e.2.posted = []) (hheld : 1 ∉ s.held) :
    exec .siteTimeTick s =
      .next ((s.ticked.leakFall s.now (s.now + 1)).setReg aTBTIME (s.reg aTBTIME + 1)) := by
  have hcontains : ¬ s.ticked.held.contains 1 = true := fun h => hheld (List.contains_iff_mem.mp h)
  change execSiteTimeTick s = _
  rw [execSiteTimeTick, State.landSome_of_noPosted hposted]
  exact congrArg Host.Outcome.next (if_neg hcontains)

theorem exec_siteTimeTick_held {s : State} (hposted : ∀ e ∈ s.tiles, e.2.posted = []) (hheld : 1 ∈ s.held) :
    exec .siteTimeTick s = .next s.ticked := by
  have hcontains : s.ticked.held.contains 1 = true := List.contains_iff_mem.mpr hheld
  change execSiteTimeTick s = _
  rw [execSiteTimeTick, State.landSome_of_noPosted hposted]
  exact congrArg Host.Outcome.next (if_pos hcontains)

/-! ## Messages of an exchange (R275) -/

theorem State.txLink_sent (s : State) (p : Nat) (body : List Nat) :
    (s.txLink p body).sent = s.sent ++ [.flit p ((s.port p).flit (s.port p).txSeq 3 0 false body).bytes] := rfl

theorem State.txLink_tsync (s : State) (p : Nat) (body : List Nat) : (s.txLink p body).tsync = s.tsync := by
  simp only [State.txLink, State.txFlit, State.modPort, State.emit]

theorem State.txLink_frame (s : State) (p : Nat) (body : List Nat) : s.sameRegs (s.txLink p body) [] ∧ s.sameMem (s.txLink p body) :=
  ⟨State.sameRegs_of_regs rfl _, State.sameMem_of_stores rfl rfl rfl⟩

/-- What a flit takes along leaves the request that waits for its answer. -/
theorem State.txLink_treq (s : State) (p : Nat) (body : List Nat) : ((s.txLink p body).port p).treq = (s.port p).treq := by
  have hport : (s.txLink p body).port p = Port.flitSent (s.port p) := State.port_modPort_same _ _ _
  rw [hport]
  rfl

/-- A request notes its time of departure, and departs where the port is UP. -/
def State.requested (s : State) (p : Nat) (t1 : Int) : State :=
  { s.modPort p fun x => { x with treq := some (s.tsync.seq, ofIntW 68 t1) } with tsync := { s.tsync with seq := (s.tsync.seq + 1) % 65536 } }

theorem State.requested_port (s : State) (p : Nat) (t1 : Int) :
    (s.requested p t1).port p = { s.port p with treq := some (s.tsync.seq, ofIntW 68 t1) } :=
  State.port_modPort_same s p fun x => { x with treq := some (s.tsync.seq, ofIntW 68 t1) }

theorem State.requested_treq (s : State) (p : Nat) (t1 : Int) : ((s.requested p t1).port p).treq = some (s.tsync.seq, ofIntW 68 t1) := by
  rw [State.requested_port]

/-- The flit of a request is the one its port would have sent before. -/
theorem State.requested_flit (s : State) (p : Nat) (t1 : Int) (body : List Nat) :
    ((s.requested p t1).port p).flit ((s.requested p t1).port p).txSeq 3 0 false body = (s.port p).flit (s.port p).txSeq 3 0 false body := by
  rw [State.requested_port]
  rfl

/-- A request departs on port p where that is UP, and waits for its answer either way. -/
def State.requests (s : State) (p : Nat) (t1 : Int) : State :=
  if s.fld (FPSTAT_STATE p) = 4 then (s.requested p t1).txLink p (tsyncReqBody s.tsync.seq t1) else s.requested p t1

theorem State.requests_spec (s : State) (p : Nat) (t1 : Int) :
    (s.requests p t1).sent = s.sent ++ (if s.fld (FPSTAT_STATE p) = 4 then
        [.flit p ((s.port p).flit (s.port p).txSeq 3 0 false (tsyncReqBody s.tsync.seq t1)).bytes] else [])
      ∧ ((s.requests p t1).port p).treq = some (s.tsync.seq, ofIntW 68 t1)
      ∧ (s.requests p t1).tsync = { s.tsync with seq := (s.tsync.seq + 1) % 65536 }
      ∧ s.sameRegs (s.requests p t1) [] ∧ s.sameMem (s.requests p t1) := by
  unfold State.requests
  split
  · obtain ⟨hregs, hmem⟩ := (s.requested p t1).txLink_frame p (tsyncReqBody s.tsync.seq t1)
    refine ⟨?_, ?_, State.txLink_tsync _ _ _, hregs, hmem⟩
    · rw [State.txLink_sent, State.requested_flit]; rfl
    · rw [State.txLink_treq, State.requested_treq]
  · exact ⟨(List.append_nil _).symm, s.requested_treq p t1, rfl, State.sameRegs_of_regs rfl _, State.sameMem_of_stores rfl rfl rfl⟩

theorem exec_timingExchange_follows {s : State} (h : s.follows = true) (frac : Nat) :
    exec (.timingExchange frac) s =
      .next (s.requests (s.fld TBSTAT_SRCPORT) (s.stamp (s.fld TBSTAT_SRCPORT) true (s.now * 16 + frac % 16))) := by
  change execTimingExchange frac s = _
  simp only [execTimingExchange, h, if_true]
  rfl

/-- A timestamp fits its nine bytes. -/
theorem ofIntW_div_lt (t : Int) : ofIntW 68 t / 16 < 2 ^ 64 := by
  have : ofIntW 68 t < 2 ^ 68 := by simp only [ofIntW]; omega
  omega

theorem tsyncRspBody_fields (locked : Bool) {seq : Nat} (hseq : seq < 65536) (t2 t3 : Int) (errb : Nat) :
    let b := tsyncRspBody locked seq t2 t3 errb
    b.length = 24 ∧ nth 0 b 0 = 0x11 ∧ nth 0 b 1 = (if locked then 1 else 0) ∧ le b 2 2 = seq ∧ le b 4 8 = ofIntW 68 t2 / 16
      ∧ le b 13 8 = ofIntW 68 t3 / 16 ∧ le b 22 2 = errb % 65536 := by
  refine ⟨rfl, rfl, rfl, ?_, ?_, ?_, ?_⟩
  · exact (ofLE_leBytes 2 seq).trans (Nat.mod_eq_of_lt hseq)
  · exact (ofLE_leBytes 8 _).trans (Nat.mod_eq_of_lt (ofIntW_div_lt t2))
  · exact (ofLE_leBytes 8 _).trans (Nat.mod_eq_of_lt (ofIntW_div_lt t3))
  · exact ofLE_leBytes 2 errb

theorem exec_tsyncReq_up {s : State} {p : Nat} (hboot : s.boot = .up) (hp : p < 8) (hup : s.fld (FPSTAT_STATE p) = 4) (seq frac turn : Nat) :
    exec (.tsyncReq p seq frac turn) s =
      .next (s.txLink p (tsyncRspBody (s.flag TBSTAT_LOCK || s.flag TBSTAT_REF) (seq % 65536) (s.stamp p false (s.now * 16 + frac % 16))
        (s.stamp p true (s.now * 16 + frac % 16 + turn))
        (if s.flag TBSTAT_REF || decide (s.fld (FPSTAT_VER p) < 2) then 0 else min 65535 s.tsync.bound))) := by
  change execTsyncReq p seq frac turn s = _
  rw [execTsyncReq, if_pos ⟨hboot, hp, hup⟩]
  rfl

/-! ## The lock (R35 to R37) -/

theorem State.onlyTime_lockLost (s : State) : State.OnlyTime [aTBSTAT, aGSTAT] s s.lockLost := by
  unfold State.lockLost
  split
  · exact ((s.onlyTime_setFld (by decide) 0).trans (State.onlyTime_setFld _ (f := TBSTAT_LOSSCNT) (by decide) _)).trans
      (State.onlyTime_setFld _ (f := GSTAT_TBLOCK) (by decide) _)
  · exact State.OnlyTime.refl _ s

/-- Once lost the lock is not shown. -/
theorem State.lockLost_flags (s : State) :
    s.lockLost.flag TBSTAT_LOCK = false ∧ s.lockLost.flag GSTAT_TBLOCK = (if s.flag TBSTAT_LOCK then false else s.flag GSTAT_TBLOCK) := by
  unfold State.lockLost
  split
  · next h =>
    have hlock : ((s.setFld TBSTAT_LOCK 0).bump TBSTAT_LOSSCNT 1).fld TBSTAT_LOCK = 0 := by
      rw [State.bump, State.fld_setFld_apart _ _ (by decide), State.fld_setFld_same _ _ _ (by decide)]; rfl
    refine ⟨?_, ?_⟩
    · rw [State.showLock, State.flag_setFld_apart _ _ (by decide), State.flag, hlock]; rfl
    · rw [State.showLock, State.flag_setFld_same _ _ _ (by decide), hlock]; rfl
  · next h => exact ⟨by simpa using h, rfl⟩

/-- The registers that the taking of the lock may write. -/
def lockRegs : List Nat := [aTBOFS, aTBSTAT, aGSTAT, aTBTIME] ++ bucketRegs

theorem State.onlyTime_lockTaken (s : State) (t4 off : Int) : State.OnlyTime (lockRegs.erase aTBOFS) s (s.lockTaken t4 off) := by
  have hlock : State.OnlyTime (lockRegs.erase aTBOFS) s (s.setFld TBSTAT_LOCK 1).showLock :=
    (s.onlyTime_setFld (by decide) 1).trans (State.onlyTime_setFld _ (f := GSTAT_TBLOCK) (by decide) _)
  unfold State.lockTaken
  dsimp only
  split
  · exact hlock
  · exact ((hlock.trans ((State.onlyTime_leakFall _ _ _).mono (by decide))).trans
      (State.onlyTime_setFld _ (f := TBSTAT_STEPPED) (by decide) 1)).trans (State.onlyTime_setFld _ (f := TBTIME_TIME) (by decide) _)

/-- Taking the lock sets it; the first lock steps TBTIME. -/
theorem State.lockTaken_flags (s : State) (t4 off : Int) :
    (s.lockTaken t4 off).flag TBSTAT_LOCK = true ∧
      (s.flag TBSTAT_STEPPED = false → (s.lockTaken t4 off).flag TBSTAT_STEPPED = true ∧
        (s.lockTaken t4 off).fld TBTIME_TIME = ofIntW 68 (t4 - off) / 16) := by
  have hlock : (s.setFld TBSTAT_LOCK 1).showLock.flag TBSTAT_LOCK = true := by
    rw [State.showLock, State.flag_setFld_apart _ _ (by decide), State.flag_setFld_same _ _ _ (by decide)]; rfl
  have hstepped : (s.setFld TBSTAT_LOCK 1).showLock.flag TBSTAT_STEPPED = s.flag TBSTAT_STEPPED := by
    rw [State.showLock, State.flag_setFld_apart _ _ (by decide), State.flag_setFld_apart _ _ (by decide)]
  unfold State.lockTaken
  dsimp only
  rw [hstepped]
  split
  · next h => exact ⟨hlock, fun h' => by simp [h] at h'⟩
  · refine ⟨?_, fun _ => ⟨?_, ?_⟩⟩
    · rw [State.flag_setFld_apart _ _ (by decide), State.flag_setFld_apart _ _ (by decide),
        State.flag_of_sameRegs (State.onlyTime_leakFall _ _ _).2 (by decide), hlock]
    · rw [State.flag_setFld_apart _ _ (by decide), State.flag_setFld_same _ _ _ (by decide)]; rfl
    · rw [State.fld_setFld_same _ _ _ (by decide)]
      exact Nat.mod_eq_of_lt (ofIntW_div_lt _)

/-! ## Responses (R275) -/

/-- A response's offset and bound are taken: the request is answered, TBOFS shows the offset, and the exchange counts. -/
def State.offsetTaken (s : State) (p : Nat) (off : Int) (good bound : Nat) : State :=
  let s := (s.modPort p fun x => { x with treq := none }).setFld TBOFS_OFFSET (ofIntW 32 off)
  { s with tsync := { s.tsync with good := good, missed := 0, bound := bound } }

theorem State.offsetTaken_spec (s : State) (p : Nat) (off : Int) (good bound : Nat) :
    (s.offsetTaken p off good bound).fld TBOFS_OFFSET = ofIntW 32 off ∧ ((s.offsetTaken p off good bound).port p).treq = none
      ∧ s.sameRegs (s.offsetTaken p off good bound) [aTBOFS] ∧ s.sameMem (s.offsetTaken p off good bound) := by
  refine ⟨?_, ?_, ?_, State.sameMem_of_stores rfl rfl rfl⟩
  · have hfld := State.fld_setFld_same (s.modPort p fun x => { x with treq := none }) TBOFS_OFFSET (ofIntW 32 off) (by decide)
    refine hfld.trans (Nat.mod_eq_of_lt ?_)
    simp only [ofIntW, TBOFS_OFFSET]
    omega
  · exact congrArg Port.treq (State.port_modPort_same s p fun x => { x with treq := none })
  · exact State.sameRegs_setFld (f := TBOFS_OFFSET) (State.sameRegs_refl s _) (by decide) _

/-- An offset far out of tolerance loses the lock (R37). -/
def State.farLost (s : State) (off : Int) : State := if 320 < off.natAbs then s.lockLost else s

/-- The lock is taken without it when the exchange is good and n good ones are enough (R36). -/
def State.enoughTaken (s : State) (t4 off : Int) (tol : Bool) (n : Nat) : State :=
  if tol && !s.flag TBSTAT_LOCK && decide (s.img.lockN ≤ n) then s.lockTaken t4 off else s

/-- The lock after a response with offset off, of an exchange that is or is not good, the n-th good one in a row. -/
def State.locked (s : State) (t4 off : Int) (tol : Bool) (n : Nat) : State := (s.farLost off).enoughTaken t4 off tol n

theorem State.onlyTime_locked (s : State) (t4 off : Int) (tol : Bool) (n : Nat) :
    State.OnlyTime (lockRegs.erase aTBOFS) s (s.locked t4 off tol n) := by
  have hlost : State.OnlyTime (lockRegs.erase aTBOFS) s (s.farLost off) := by
    unfold State.farLost
    split
    · exact s.onlyTime_lockLost.mono (by decide)
    · exact State.OnlyTime.refl _ s
  refine hlost.trans ?_
  unfold State.locked State.enoughTaken
  split
  · exact State.onlyTime_lockTaken _ t4 off
  · exact State.OnlyTime.refl _ _

/-- A good exchange, of which enough have come, holds or takes the lock. -/
theorem State.locked_good {s : State} {off : Int} {n : Nat} (t4 : Int) (hoff : off.natAbs ≤ 320) (hn : s.img.lockN ≤ n) :
    (s.locked t4 off true n).flag TBSTAT_LOCK = true ∧ (s.flag TBSTAT_LOCK = false → s.flag TBSTAT_STEPPED = false →
      (s.locked t4 off true n).flag TBSTAT_STEPPED = true ∧ (s.locked t4 off true n).fld TBTIME_TIME = ofIntW 68 (t4 - off) / 16) := by
  have hnear : s.farLost off = s := if_neg (by omega)
  rw [State.locked, hnear, State.enoughTaken]
  cases hlock : s.flag TBSTAT_LOCK with
  | true => simp [hlock]
  | false =>
    obtain ⟨htaken, hstep⟩ := s.lockTaken_flags t4 off
    rw [if_pos (by simp [hn])]
    exact ⟨htaken, fun _ => hstep⟩

/-- An offset far out of tolerance loses the lock. -/
theorem State.locked_far {s : State} {off : Int} (t4 : Int) (hoff : 320 < off.natAbs) (n : Nat) :
    (s.locked t4 off false n).flag TBSTAT_LOCK = false := by
  have hlost : s.farLost off = s.lockLost := if_pos hoff
  rw [State.locked, hlost, State.enoughTaken, Bool.false_and, Bool.false_and, if_neg Bool.false_ne_true]
  exact s.lockLost_flags.1

/-- All that an answered request comes to: an exchange is good when the responder is locked and offset and bound stay within tolerance. -/
theorem State.locked_offsetTaken_spec (s : State) (p : Nat) (t4 off : Int) (bound : Nat) (locked : Bool) :
    let tol := locked && decide (off.natAbs + bound ≤ 64)
    let good := locked = true ∧ off.natAbs + bound ≤ 64
    let n := if tol then s.tsync.good + 1 else 0
    let u := (s.offsetTaken p off n bound).locked t4 off tol n
    u.fld TBOFS_OFFSET = ofIntW 32 off ∧ (u.port p).treq = none ∧ u.tsync.missed = 0 ∧ u.tsync.bound = bound
      ∧ (good → u.tsync.good = s.tsync.good + 1) ∧ (¬ good → u.tsync.good = 0) ∧ s.sameRegs u lockRegs ∧ s.sameMem u
      ∧ (good → s.img.lockN ≤ s.tsync.good + 1 → u.flag TBSTAT_LOCK = true)
      ∧ (good → s.img.lockN ≤ s.tsync.good + 1 → s.flag TBSTAT_LOCK = false → s.flag TBSTAT_STEPPED = false →
          u.flag TBSTAT_STEPPED = true ∧ u.fld TBTIME_TIME = ofIntW 68 (t4 - off) / 16)
      ∧ (320 < off.natAbs → u.flag TBSTAT_LOCK = false) := by
  intro tol good n u
  have htol : tol = true ↔ good := by simp [tol, good]
  obtain ⟨hofs, hport, hregs, hmem⟩ := s.offsetTaken_spec p off n bound
  have hlock := State.onlyTime_locked (s.offsetTaken p off n bound) t4 off tol n
  have hmem' := hlock.sameMem
  obtain ⟨⟨rs, lk, hu⟩, hregs'⟩ := hlock
  have hcount : u.tsync.good = n := by rw [show u = _ from hu]; rfl
  have htaken : good → s.img.lockN ≤ s.tsync.good + 1 → u.flag TBSTAT_LOCK = true ∧ (s.flag TBSTAT_LOCK = false →
      s.flag TBSTAT_STEPPED = false → u.flag TBSTAT_STEPPED = true ∧ u.fld TBTIME_TIME = ofIntW 68 (t4 - off) / 16) := by
    intro hg hn
    have hoff : off.natAbs ≤ 320 := by have := hg.2; omega
    have hcount : n = s.tsync.good + 1 := if_pos (htol.mpr hg)
    have hgood := State.locked_good (s := s.offsetTaken p off n bound) (n := n) t4 hoff (hcount ▸ hn)
    rw [State.flag_of_sameRegs hregs (f := TBSTAT_LOCK) (by decide), State.flag_of_sameRegs hregs (f := TBSTAT_STEPPED) (by decide)] at hgood
    simp only [u, htol.mpr hg]
    exact hgood
  refine ⟨?_, ?_, ?_, ?_, fun hg => ?_, fun hg => ?_, ?_, ?_, fun hg hn => (htaken hg hn).1, fun hg hn => (htaken hg hn).2, fun hfar => ?_⟩
  · exact (State.fld_of_sameRegs hregs' (by decide)).trans hofs
  · rw [show u = _ from hu]; exact hport
  · rw [show u = _ from hu]; rfl
  · rw [show u = _ from hu]; rfl
  · exact hcount.trans (if_pos (htol.mpr hg))
  · exact hcount.trans (if_neg (mt htol.mp hg))
  · exact State.sameRegs_trans (State.sameRegs_mono hregs (by decide)) (State.sameRegs_mono hregs' (by decide))
  · exact hmem.trans hmem'
  · have hbad : tol = false := Bool.eq_false_iff.mpr fun h => by have := (htol.mp h).2; omega
    simp only [u, hbad]
    exact State.locked_far t4 hfar _

theorem exec_tsyncRsp_answered {s : State} {seq t1 : Nat} (hf : s.follows = true) (hup : s.fld (FPSTAT_STATE (s.fld TBSTAT_SRCPORT)) = 4)
    (hreq : (s.port (s.fld TBSTAT_SRCPORT)).treq = some (seq, t1)) (locked : Bool) (t2 t3 errb frac : Nat) :
    exec (.tsyncRsp seq locked t2 t3 errb frac) s =
      let p := s.fld TBSTAT_SRCPORT
      let t4 := s.stamp p false (s.now * 16 + frac % 16)
      let off := tsyncOffset t1 t2 t3 t4
      let bound := (if s.fld (FPSTAT_VER p) < 2 then 32 else errb) + 4
      let tol := locked && decide (off.natAbs + bound ≤ 64)
      let n := if tol then s.tsync.good + 1 else 0
      .next ((s.offsetTaken p off n bound).locked t4 off tol n) := by
  change execTsyncRsp seq locked t2 t3 errb frac s = _
  simp only [execTsyncRsp, hreq]
  rw [if_neg (by simp [hf, hup])]
  rfl

theorem exec_tsyncRsp_ignored {s : State} {seq : Nat} (h : ∀ q t1, (s.port (s.fld TBSTAT_SRCPORT)).treq = some (q, t1) →
      q ≠ seq ∨ s.fld (FPSTAT_STATE (s.fld TBSTAT_SRCPORT)) ≠ 4) (locked : Bool) (t2 t3 errb frac : Nat) :
    exec (.tsyncRsp seq locked t2 t3 errb frac) s = .next s := by
  change execTsyncRsp seq locked t2 t3 errb frac s = _
  unfold execTsyncRsp
  dsimp only
  split
  · rfl
  · next q t1 hreq => rw [if_pos (.inr (h q t1 hreq))]

/-! ## Missed exchanges (R37) -/

/-- An exchange is missed: nothing waits for an answer any more, and the count of good ones starts again. -/
def State.exchangeMissed (s : State) (p : Nat) : State :=
  { s.modPort p fun x => { x with treq := none } with tsync := { s.tsync with good := 0, missed := s.tsync.missed + 1 } }

theorem State.exchangeMissed_treq (s : State) (p : Nat) : ((s.exchangeMissed p).port p).treq = none :=
  congrArg Port.treq (State.port_modPort_same s p fun x => { x with treq := none })

theorem exec_timingResponseTimeout_missed {s : State} (hf : s.follows = true) (hreq : (s.port (s.fld TBSTAT_SRCPORT)).treq.isSome = true) :
    exec .timingResponseTimeout s =
      let u := s.exchangeMissed (s.fld TBSTAT_SRCPORT)
      .next (if s.img.missN ≤ s.tsync.missed + 1 then u.lockLost else u) := by
  change execTimingResponseTimeout s = _
  simp only [execTimingResponseTimeout]
  rw [if_pos ⟨hreq, hf⟩]
  rfl

theorem exec_timingResponseTimeout_none {s : State} (h : s.follows = false ∨ (s.port (s.fld TBSTAT_SRCPORT)).treq = none) :
    exec .timingResponseTimeout s = .next s := by
  change execTimingResponseTimeout s = _
  simp only [execTimingResponseTimeout]
  rw [if_neg]
  rintro ⟨hreq, hf⟩
  obtain h | h := h
  · simp [h] at hf
  · simp [h] at hreq

end Sys2Proof.Machine
end

section
/-! The statement on site time. -/

namespace Sys2Proof.Proofs
open Sys2Proof Sys2Proof.Machine

/-- Settles O58: each event of site time comes to one known next state, whose registers are those that OnlyTime lets it write. -/
theorem siteTime : Obligations.SiteTime := by
  unfold Obligations.SiteTime
  refine ⟨?tick, ?exchange, ?request, ?response, ?timeout⟩
  case tick =>
    intro s hposted
    refine ⟨fun hheld => ⟨_, exec_siteTimeTick_counts hposted hheld, ?_⟩, exec_siteTimeTick_held hposted⟩
    obtain ⟨⟨rs, lk, hu⟩, hregs⟩ := s.ticked.onlyTime_leakFall s.now (s.now + 1)
    refine ⟨State.reg_setReg_same _ _ _, ?_, fun a ha => ?_, ?_, ?_, fun hleak => ⟨fun a ha => ?_, fun k hk => ?_⟩⟩
    · rw [hu]; rfl
    · rw [State.reg_setReg_other _ _ _ _ fun e => ha (List.mem_cons.mpr (.inl e))]
      exact hregs a fun hin => ha (List.mem_cons_of_mem _ hin)
    · rw [hu]; exact State.sameMem_of_stores rfl rfl rfl
    · rw [hu]; rfl
    · rw [State.reg_setReg_other _ _ _ _ (by simpa using ha), State.leakFall_none (s := s.ticked) hleak]; rfl
    · rw [State.setReg_tsync, State.leakFall_none (s := s.ticked) hleak]
      have hlist : k ∈ [0, 1] := by simp only [List.mem_cons, List.not_mem_nil, or_false]; omega
      exact List.mem_filter.trans ((and_iff_right hlist).trans decide_eq_true_iff)
  case exchange =>
    intro s frac
    refine ⟨fun h => ⟨_, exec_timingExchange_follows h frac, s.requests_spec _ _⟩, fun h => ?_⟩
    change execTimingExchange frac s = _
    rw [execTimingExchange, h, if_neg Bool.false_ne_true]
  case request =>
    intro s p seq frac turn hp hseq
    refine ⟨fun hboot hup => ⟨_, exec_tsyncReq_up hboot hp hup seq frac turn, ?_⟩, fun h => ?_⟩
    · obtain ⟨hregs, hmem⟩ := s.txLink_frame p _
      rw [Nat.mod_eq_of_lt hseq]
      obtain ⟨hlen, hop, hlock, hs, h2, h3, herr⟩ := tsyncRspBody_fields (s.flag TBSTAT_LOCK || s.flag TBSTAT_REF) hseq
        (s.stamp p false (s.now * 16 + frac % 16)) (s.stamp p true (s.now * 16 + frac % 16 + turn))
        (if s.flag TBSTAT_REF || decide (s.fld (FPSTAT_VER p) < 2) then 0 else min 65535 s.tsync.bound)
      refine ⟨hregs, hmem, _, s.txLink_sent p _, hlen, hop, hs, h2, h3, ?_, fun href => ?_⟩
      · rw [hlock, ← Bool.or_eq_true]
        split <;> simp_all
      · rw [herr, href]; rfl
    · change execTsyncReq p seq frac turn s = _
      rw [execTsyncReq, if_neg]
      rintro ⟨hboot, -, hup⟩
      exact h.elim (· hboot) (· hup)
  case response =>
    intro s seq locked t2 t3 errb frac t1 hf
    refine ⟨fun hup hreq => ⟨_, exec_tsyncRsp_answered hf hup hreq locked t2 t3 errb frac, ?_⟩, fun h => ?_⟩
    · exact s.locked_offsetTaken_spec _ _ _ _ locked
    · refine exec_tsyncRsp_ignored (fun q t hq => ?_) _ _ _ _ _
      obtain h | h | ⟨q', h, hne⟩ := h
      · rw [h] at hq; cases hq
      · exact .inr h
      · rw [h] at hq; cases hq; exact .inl hne
  case timeout =>
    intro s
    refine ⟨fun hf hreq => ⟨_, exec_timingResponseTimeout_missed hf hreq, ?_⟩, exec_timingResponseTimeout_none⟩
    have htreq := s.exchangeMissed_treq (s.fld TBSTAT_SRCPORT)
    dsimp only
    split
    · next hn =>
      obtain ⟨hlock, hshown⟩ := (s.exchangeMissed (s.fld TBSTAT_SRCPORT)).lockLost_flags
      have honly := (s.exchangeMissed (s.fld TBSTAT_SRCPORT)).onlyTime_lockLost
      have hmem := honly.sameMem
      obtain ⟨⟨rs, lk, hu⟩, -⟩ := honly
      refine ⟨?_, ?_, ?_, hmem, fun _ => ⟨hlock, hshown⟩, fun hlt => absurd hn (by omega)⟩
      · rw [hu]; rfl
      · rw [hu]; rfl
      · rw [hu]; exact htreq
    · next hn => exact ⟨rfl, rfl, htreq, State.sameMem_of_stores rfl rfl rfl, fun h => absurd h hn, fun _ => State.sameRegs_of_regs rfl _⟩

end Sys2Proof.Proofs
end

section
/-! SUPPORT. Arbitration: messages of the management channel, and what judging, failing, holding and settling an attempt come to (R39 to
R45, R486, R496). -/

namespace Sys2Proof.Machine

/-! ## Halves and messages -/

@[simp] theorem State.half_modHalf_same (s : State) (h : Nat) (f : Half → Half) : (s.modHalf h f).half h = f (s.half h) := by
  unfold State.modHalf State.half
  split <;> rfl

/-- The messages in flight are l. -/
def State.withMgmt (s : State) (l : List (Nat × Mgmt)) : State := { s with mgmt := l }

@[simp] theorem State.withMgmt_mgmt (s : State) (l : List (Nat × Mgmt)) : (s.withMgmt l).mgmt = l := rfl
@[simp] theorem State.half_withMgmt (s : State) (l : List (Nat × Mgmt)) (h : Nat) : (s.withMgmt l).half h = s.half h := rfl
@[simp] theorem State.mgmtSend_mgmt (s : State) (h : Nat) (m : Mgmt) : (s.mgmtSend h m).mgmt = s.mgmt ++ [(h, m)] := rfl
@[simp] theorem State.half_mgmtSend (s : State) (h k : Nat) (m : Mgmt) : (s.mgmtSend h m).half k = s.half k := rfl

/-- The oldest message in flight is taken by the half it is for. -/
theorem State.mgmtTake_front {s : State} {h : Nat} {m : Mgmt} {rest : List (Nat × Mgmt)} (hm : s.mgmt = (h, m) :: rest) {f : Mgmt → Bool}
    (hf : f m = true) : s.mgmtTake h f = some (m, s.withMgmt rest) := by
  have hfind : s.mgmt.find? (fun m => m.1 == h && f m.2) = some (h, m) := by rw [hm, List.find?_cons_of_pos (by simp [hf])]
  rw [State.mgmtTake, hfind]
  simp only [hm, List.erase_cons_head]
  rfl

/-- u is s but for the halves and the messages in flight. -/
def State.OnlyHalves (s u : State) : Prop := ∃ h0 h1 m, u = { s with h0 := h0, h1 := h1, mgmt := m }

theorem State.OnlyHalves.trans {s u v : State} (h : s.OnlyHalves u) (k : u.OnlyHalves v) : s.OnlyHalves v := by
  obtain ⟨_, _, _, rfl⟩ := h
  obtain ⟨h0, h1, m, rfl⟩ := k
  exact ⟨h0, h1, m, rfl⟩

theorem State.onlyHalves_modHalf (s : State) (h : Nat) (f : Half → Half) : s.OnlyHalves (s.modHalf h f) := by
  unfold State.modHalf
  split
  · exact ⟨_, s.h1, s.mgmt, rfl⟩
  · exact ⟨s.h0, _, s.mgmt, rfl⟩

theorem State.onlyHalves_mgmtSend (s : State) (h : Nat) (m : Mgmt) : s.OnlyHalves (s.mgmtSend h m) := ⟨s.h0, s.h1, _, rfl⟩
theorem State.onlyHalves_withMgmt (s : State) (l : List (Nat × Mgmt)) : s.OnlyHalves (s.withMgmt l) := ⟨s.h0, s.h1, l, rfl⟩

theorem State.OnlyHalves.boot {s u : State} (h : s.OnlyHalves u) : u.boot = s.boot := by obtain ⟨_, _, _, rfl⟩ := h; rfl
theorem State.OnlyHalves.attempt {s u : State} (h : s.OnlyHalves u) : u.attempt = s.attempt := by obtain ⟨_, _, _, rfl⟩ := h; rfl
theorem State.OnlyHalves.sameRegs {s u : State} (h : s.OnlyHalves u) (but : List Nat) : s.sameRegs u but := by
  obtain ⟨_, _, _, rfl⟩ := h; exact State.sameRegs_of_regs rfl _
theorem State.OnlyHalves.sameMem {s u : State} (h : s.OnlyHalves u) : s.sameMem u := by
  obtain ⟨_, _, _, rfl⟩ := h; exact State.sameMem_of_stores rfl rfl rfl

/-! ## Hold (R42, R45) -/

/-- A half in arbitration hold. -/
def Half.inHold (x : Half) : Half := { x with role := .hold, phase := .idle }

/-- Half h is in hold and has said so. -/
def State.saidHold (s : State) (h : Nat) : State := (s.modHalf h Half.inHold).mgmtSend (1 - h) .hold

/-- GSTAT and GARB show the hold, and ALERT_N is driven. -/
def State.holdShown (s : State) : State :=
  { ((s.setFld GSTAT_ARBHOLD 1).setFld GARB_ATTEMPT s.attempt).setFld GARB_CAUSE s.h0.cause with alert := true, boot := .hold }

theorem State.enterHold_eq {s : State} {h : Nat} (hrole : (s.half h).role ≠ .hold) :
    s.enterHold h = (s.saidHold h).holdShown :=
  if_neg hrole

theorem State.onlyHalves_saidHold (s : State) (h : Nat) : s.OnlyHalves (s.saidHold h) :=
  (s.onlyHalves_modHalf h _).trans (State.onlyHalves_mgmtSend _ _ _)

@[simp] theorem State.half_holdShown (s : State) (h : Nat) : s.holdShown.half h = s.half h := by
  unfold State.half
  split
  · rfl
  · rfl

theorem State.holdShown_fields (s : State) :
    s.holdShown.flag GSTAT_ARBHOLD = true ∧ s.holdShown.fld GARB_ATTEMPT = s.attempt % 4 ∧ s.sameRegs s.holdShown [aGSTAT, aGARB]
      ∧ s.sameMem s.holdShown := by
  have hregs : s.holdShown.regs = (((s.setFld GSTAT_ARBHOLD 1).setFld GARB_ATTEMPT s.attempt).setFld GARB_CAUSE s.h0.cause).regs := rfl
  refine ⟨?_, ?_, fun a ha => ?_, State.sameMem_of_stores rfl rfl rfl⟩
  · rw [State.flag_congr hregs, State.flag_setFld_apart _ _ (by decide), State.flag_setFld_apart _ _ (by decide),
      State.flag_setFld_same _ _ _ (by decide)]
    rfl
  · rw [State.fld_congr hregs, State.fld_setFld_apart _ _ (by decide), State.fld_setFld_same _ _ _ (by decide)]
    rfl
  · rw [State.reg_congr hregs]
    exact State.sameRegs_setFld (State.sameRegs_setFld (State.sameRegs_setFld (s.sameRegs_refl _) (by decide) _) (by decide) _) (by decide) _ a ha

theorem State.half_enterHold {s : State} {h : Nat} (hrole : (s.half h).role ≠ .hold) :
    (s.enterHold h).half h = (s.half h).inHold := by
  rw [State.enterHold_eq hrole, State.half_holdShown, State.saidHold, State.half_mgmtSend, State.half_modHalf_same]

/-- A half that enters hold does all that R42 and R45 say, seen from any state that differs in halves and messages only. -/
theorem State.enterHold_spec {s y : State} {h : Nat} (hy : s.OnlyHalves y) (hrole : (y.half h).role ≠ .hold) :
    holdsNow h y.mgmt s (y.enterHold h) := by
  have hhalf := State.half_enterHold hrole
  have honly := hy.trans (y.onlyHalves_saidHold h)
  rw [State.enterHold_eq hrole] at hhalf ⊢
  obtain ⟨hshown, hattempt, hregs, hmem⟩ := (y.saidHold h).holdShown_fields
  refine ⟨?_, rfl, rfl, hshown, ?_, ?_, State.sameRegs_trans (honly.sameRegs _) hregs, honly.sameMem.trans hmem⟩
  · rw [hhalf]; rfl
  · rw [hattempt, honly.attempt]
  · exact congrArg (· ++ [(1 - h, Mgmt.hold)]) (y.modHalf_mgmt h _)

/-! ## A failed attempt (R41, R45) -/

/-- Half h has found its cause and goes idle. -/
def State.blamed (s : State) (h cause : Nat) : State := s.modHalf h fun x => { x.blame cause with phase := .idle }

theorem State.half_blamed (s : State) (h cause : Nat) : (s.blamed h cause).half h = { (s.half h).blame cause with phase := .idle } :=
  s.half_modHalf_same h _

theorem State.arbFail_eq (s : State) (h cause : Nat) :
    s.arbFail h cause = if (s.blamed h cause).attempt = 3 then (s.blamed h cause).enterHold h else s.blamed h cause := rfl

/-- What the failure of an attempt comes to, seen from any state that differs in halves and messages only. -/
theorem State.arbFail_spec {s y : State} {h : Nat} (cause : Nat) (hy : s.OnlyHalves y) (hrole : (y.half h).role ≠ .hold)
    (hsame : (y.half h).role = (s.half h).role) (hcause : (y.half h).cause = (s.half h).cause) :
    failsAttempt h cause y.mgmt s (y.arbFail h cause) := by
  have honly : s.OnlyHalves (y.blamed h cause) := hy.trans (y.onlyHalves_modHalf h _)
  have hhalf := y.half_blamed h cause
  have hmgmt : (y.blamed h cause).mgmt = y.mgmt := y.modHalf_mgmt h _
  have hrole' : ((y.blamed h cause).half h).role ≠ .hold := by rw [hhalf]; exact hrole
  rw [State.arbFail_eq, honly.attempt]
  split
  · next h3 =>
    have hhold := State.enterHold_spec honly hrole'
    rw [hmgmt] at hhold
    refine ⟨?_, ?_, fun _ => hhold, fun hn => absurd h3 hn⟩
    · rw [State.half_enterHold hrole']; rfl
    · rw [State.half_enterHold hrole', hhalf, ← hcause]; rfl
  · next h3 =>
    refine ⟨by rw [hhalf], ?_, fun h => absurd h h3, fun _ => ⟨hmgmt, honly.boot, ?_, honly.sameRegs _, honly.sameMem⟩⟩
    · rw [hhalf, ← hcause]; rfl
    · rw [hhalf, ← hsame]; rfl

/-- u goes on from s for half h: its verdict stands, what was sent stays sent, and memory is as it was. -/
def State.GoesOn (h : Nat) (s u : State) : Prop := (u.half h).verdict = (s.half h).verdict ∧ s.mgmt <+: u.mgmt ∧ s.sameMem u

theorem State.GoesOn.refl (h : Nat) (s : State) : State.GoesOn h s s := ⟨rfl, List.prefix_rfl, s.sameMem_refl⟩

theorem State.GoesOn.trans {h : Nat} {s u v : State} (a : State.GoesOn h s u) (b : State.GoesOn h u v) : State.GoesOn h s v := by
  obtain ⟨hv, hm, hmem⟩ := a
  obtain ⟨hv', hm', hmem'⟩ := b
  exact ⟨hv'.trans hv, hm.trans hm', hmem.trans hmem'⟩

theorem State.goesOn_mgmtSend (s : State) (h k : Nat) (m : Mgmt) : State.GoesOn h s (s.mgmtSend k m) :=
  ⟨rfl, List.prefix_append _ _, (s.onlyHalves_mgmtSend k m).sameMem⟩

theorem State.goesOn_modHalf (s : State) (h : Nat) {f : Half → Half} (hf : (f (s.half h)).verdict = (s.half h).verdict) :
    State.GoesOn h s (s.modHalf h f) :=
  ⟨by rw [State.half_modHalf_same, hf], by rw [State.modHalf_mgmt], (s.onlyHalves_modHalf h f).sameMem⟩

theorem State.goesOn_enterHold (s : State) (h : Nat) : State.GoesOn h s (s.enterHold h) := by
  by_cases hrole : (s.half h).role = .hold
  · rw [State.enterHold, if_pos hrole]
    exact State.GoesOn.refl h s
  · obtain ⟨-, -, -, -, -, hm, -, hmem⟩ := State.enterHold_spec (s := s) ⟨s.h0, s.h1, s.mgmt, rfl⟩ hrole
    exact ⟨by rw [State.half_enterHold hrole]; rfl, hm ▸ List.prefix_append _ _, hmem⟩

theorem State.goesOn_arbFail (s : State) (h cause : Nat) : State.GoesOn h s (s.arbFail h cause) := by
  have hblamed : State.GoesOn h s (s.blamed h cause) := s.goesOn_modHalf h rfl
  rw [State.arbFail_eq]
  split
  · exact hblamed.trans (State.goesOn_enterHold _ h)
  · exact hblamed

/-! ## Verdicts (R40, R41) -/

theorem State.conclude_waits {s : State} {h : Nat} (hp : (s.half h).peerVerdict = none) : s.conclude h = s := by
  unfold State.conclude
  rw [hp]
  split <;> simp_all

/-- Two success verdicts commit the half that intends, and make the other wait for it. -/
theorem State.conclude_success {s : State} {h : Nat} (hv : (s.half h).verdict = some true) (hp : (s.half h).peerVerdict = some true) :
    s.conclude h = if (s.half h).intent then (s.modHalf h fun x => { x with phase := .committing }).mgmtSend (1 - h) .commit
      else s.modHalf h fun x => { x with phase := .waitCommit } := by
  unfold State.conclude
  rw [hv, hp]

theorem State.conclude_failure {s : State} {h : Nat} {mine theirs : Bool} (hv : (s.half h).verdict = some mine)
    (hp : (s.half h).peerVerdict = some theirs) (hbad : mine = false ∨ theirs = false) : s.conclude h = s.arbFail h 5 := by
  unfold State.conclude
  rw [hv, hp]
  obtain rfl | rfl := hbad
  · rfl
  · cases mine <;> rfl

theorem State.goesOn_conclude (s : State) (h : Nat) : State.GoesOn h s (s.conclude h) := by
  unfold State.conclude
  split
  · split
    · exact (s.goesOn_modHalf h rfl).trans (State.goesOn_mgmtSend _ h _ _)
    · exact s.goesOn_modHalf h rfl
  · exact s.goesOn_arbFail h 5
  · exact State.GoesOn.refl h s

/-- A half's verdict for a cause, 0 being success. -/
def Half.judged (x : Half) (cause : Nat) : Half := { (if cause = 0 then x else x.blame cause) with phase := .judged, verdict := some (cause == 0) }

theorem State.judge_eq (s : State) (h cause : Nat) :
    s.judge h cause = ((s.modHalf h fun x => x.judged cause).mgmtSend (1 - h) (.verdict (cause == 0))).conclude h := rfl

theorem State.judge_waits {s : State} {h : Nat} (cause : Nat) (hp : (s.half h).peerVerdict = none) :
    s.judge h cause = (s.modHalf h fun x => x.judged cause).mgmtSend (1 - h) (.verdict (cause == 0)) := by
  rw [State.judge_eq]
  refine State.conclude_waits ?_
  rw [State.half_mgmtSend, State.half_modHalf_same, Half.judged]
  split <;> exact hp

/-- A verdict reached is kept and sent, whatever follows from it. -/
theorem State.judge_verdict (s : State) (h cause : Nat) :
    ((s.judge h cause).half h).verdict = some (cause == 0) ∧ (1 - h, .verdict (cause == 0)) ∈ (s.judge h cause).mgmt
      ∧ s.sameMem (s.judge h cause) := by
  obtain ⟨hv, hm, hmem⟩ := ((s.modHalf h fun x => x.judged cause).mgmtSend (1 - h) (.verdict (cause == 0))).goesOn_conclude h
  rw [State.half_mgmtSend, State.half_modHalf_same] at hv
  refine ⟨hv, hm.subset ?_, ((s.onlyHalves_modHalf h _).trans (State.onlyHalves_mgmtSend _ _ _)).sameMem.trans hmem⟩
  rw [State.mgmtSend_mgmt]
  exact List.mem_append_right _ (List.mem_singleton.mpr rfl)

/-- The cause of a failed claim pair, in the order of log entry 46: the wire disagrees, both intend, neither does. -/
def claimCause (own wire claim : Bool) : Nat :=
  if wire ≠ claim then 3 else if own && claim then 1 else if !own && !claim then 2 else 0

theorem claimCause_zero (own wire claim : Bool) : (claimCause own wire claim == 0) = (wire == claim && own != claim) := by
  revert own wire claim
  decide

theorem State.judgeIf_both {s : State} {h : Nat} {w c : Bool} (hphase : (s.half h).phase = .claimed) (hw : (s.half h).sampled = some w)
    (hc : (s.half h).peerClaim = some c) : s.judgeIf h = s.judge h (claimCause (s.half h).intent w c) := by
  simp only [State.judgeIf, hphase, hw, hc, claimCause, bne_iff_ne]

/-- A half whose sample or whose partner's CLAIM has not come judges nothing. -/
theorem State.judgeIf_waits {s : State} {h : Nat} (hnone : (s.half h).sampled = none ∨ (s.half h).peerClaim = none) : s.judgeIf h = s := by
  unfold State.judgeIf
  dsimp only
  split
  · simp_all
  · rfl

/-- The verdict on a claim pair, seen from the state before its last half was known. -/
theorem State.judges_spec {s y : State} {h : Nat} {w c : Bool} (hy : s.OnlyHalves y) (hphase : (y.half h).phase = .claimed)
    (hw : (y.half h).sampled = some w) (hc : (y.half h).peerClaim = some c) (hp : (y.half h).peerVerdict = none)
    (hintent : (y.half h).intent = (s.half h).intent) (hcause : (y.half h).cause = (s.half h).cause) :
    judges h w c y.mgmt s (y.judgeIf h) := by
  have hu : y.judgeIf h = (y.modHalf h fun x => x.judged (claimCause (s.half h).intent w c)).mgmtSend (1 - h)
      (.verdict (claimCause (s.half h).intent w c == 0)) := by
    rw [State.judgeIf_both hphase hw hc, State.judge_waits _ hp, hintent]
  have hhalf : (y.judgeIf h).half h = (y.half h).judged (claimCause (s.half h).intent w c) := by
    rw [hu, State.half_mgmtSend, State.half_modHalf_same]
  have honly : s.OnlyHalves (y.judgeIf h) := by
    rw [hu]
    exact hy.trans ((y.onlyHalves_modHalf h _).trans (State.onlyHalves_mgmtSend _ _ _))
  refine ⟨by rw [hhalf]; rfl, by rw [hhalf]; rfl, ?_, fun hne h0 => ?_, honly.boot, honly.sameRegs _, honly.sameMem⟩
  · rw [hu, State.mgmtSend_mgmt, State.modHalf_mgmt]; rfl
  · have hne : claimCause (s.half h).intent w c ≠ 0 := hne
    have hblame : ((y.half h).blame (claimCause (s.half h).intent w c)).cause = claimCause (s.half h).intent w c :=
      if_pos (hcause.trans h0)
    rw [hhalf, Half.judged, if_neg hne]
    exact hblame

/-- A verdict on a claim pair, whatever the partner's has been. -/
theorem State.judgeIf_verdict {s y : State} {h : Nat} {w c : Bool} (hy : s.OnlyHalves y) (hphase : (y.half h).phase = .claimed)
    (hw : (y.half h).sampled = some w) (hc : (y.half h).peerClaim = some c) (hintent : (y.half h).intent = (s.half h).intent) :
    ((y.judgeIf h).half h).verdict = some (w == c && (s.half h).intent != c)
      ∧ (1 - h, .verdict (w == c && (s.half h).intent != c)) ∈ (y.judgeIf h).mgmt ∧ s.sameMem (y.judgeIf h) := by
  obtain ⟨hv, hm, hmem⟩ := y.judge_verdict h (claimCause (s.half h).intent w c)
  rw [claimCause_zero] at hv hm
  rw [State.judgeIf_both hphase hw hc, hintent]
  exact ⟨hv, hm, hy.sameMem.trans hmem⟩

/-! ## Primacy settled (R40, R43, R44) -/

/-- A half with the primary role. -/
def Half.asPrimary (x : Half) : Half := { x with role := .primary, phase := .idle }

/-- Half h takes primacy, and GSTAT and GARB show it. -/
def State.primTaken (s : State) (h : Nat) : State :=
  let s := s.modHalf h Half.asPrimary
  ((s.setFld GSTAT_PRIM h).setFld GARB_ATTEMPT s.attempt).setFld GARB_CAUSE 0

/-- An unreadable strap is shown and logged (R44). -/
def State.strapLogged (s : State) : State :=
  if s.strap.isNone then (s.setFld GSTAT_STRAPBAD 1).primReport 0xA5 1 0 (s.fld GARB_STRAPADC) else s

/-- Failed attempts are logged. -/
def State.failsLogged (s : State) : State := s.each s.arbFails fun s f => s.primReport 0xA6 1 0 (f.1 + 4 * f.2)

theorem State.settle_eq (s : State) (h : Nat) :
    s.settle h =
      let u := (s.primTaken h).strapLogged.failsLogged
      { u with boot := .reading, arbFails := [], imgSlot := some (strapSlot (u.strap.getD 0)) } := rfl

/-- u is s but for registers and reports. -/
def State.OnlyShown (s u : State) : Prop := ∃ rs l, u = { s with regs := rs, reports := l }

theorem State.OnlyShown.trans {s u v : State} (h : s.OnlyShown u) (k : u.OnlyShown v) : s.OnlyShown v := by
  obtain ⟨_, _, rfl⟩ := h
  obtain ⟨rs, l, rfl⟩ := k
  exact ⟨rs, l, rfl⟩

theorem State.onlyShown_setFld (s : State) (f : Fld) (v : Nat) : s.OnlyShown (s.setFld f v) := ⟨_, s.reports, rfl⟩
theorem State.onlyShown_primReport (s : State) (typ sev addr detail : Nat) : s.OnlyShown (s.primReport typ sev addr detail) := ⟨s.regs, _, rfl⟩

theorem State.onlyShown_strapLogged (s : State) : s.OnlyShown s.strapLogged := by
  unfold State.strapLogged
  split
  · exact (s.onlyShown_setFld _ _).trans (State.onlyShown_primReport _ _ _ _ _)
  · exact ⟨s.regs, s.reports, rfl⟩

/-- Reports alone grow, by one for each. -/
theorem State.each_primReport {α : Type} (s : State) (l : List α) (typ sev : Nat) (d : α → Nat) :
    ∃ r, s.each l (fun s x => s.primReport typ sev 0 (d x)) = { s with reports := r } ∧ r.length = s.reports.length + l.length := by
  induction l generalizing s with
  | nil => exact ⟨s.reports, rfl, rfl⟩
  | cons x xs ih =>
    obtain ⟨r, hu, hlen⟩ := ih (s.primReport typ sev 0 (d x))
    refine ⟨r, hu, ?_⟩
    rw [hlen, State.primReport, State.globReport, State.report_reports]
    simp only [List.length_append, List.length_cons, List.length_nil]
    omega

theorem State.primTaken_spec (s : State) {h : Nat} (hh : h < 2) :
    (s.primTaken h).half h = (s.half h).asPrimary ∧ (s.primTaken h).fld GSTAT_PRIM = h
      ∧ (s.primTaken h).fld GARB_ATTEMPT = s.attempt % 4 ∧ s.sameRegs (s.primTaken h) [aGSTAT, aGARB] ∧ s.sameMem (s.primTaken h) := by
  have honly := s.onlyHalves_modHalf h Half.asPrimary
  refine ⟨s.half_modHalf_same h _, ?_, ?_, ?_, ?_⟩
  · rw [State.primTaken, State.fld_setFld_apart _ _ (by decide), State.fld_setFld_apart _ _ (by decide), State.fld_setFld_same _ _ _ (by decide)]
    exact Nat.mod_eq_of_lt hh
  · rw [State.primTaken, State.fld_setFld_apart _ _ (by decide), State.fld_setFld_same _ _ _ (by decide)]
    rw [honly.attempt]; rfl
  · exact State.sameRegs_setFld (State.sameRegs_setFld (State.sameRegs_setFld (honly.sameRegs _) (by decide) _) (by decide) _) (by decide) _
  · exact honly.sameMem.trans (State.sameMem_of_stores rfl rfl rfl)

theorem State.strapLogged_spec (s : State) :
    (∀ f : Fld, f = GSTAT_PRIM ∨ f = GARB_ATTEMPT → s.strapLogged.fld f = s.fld f) ∧ (s.strap = none → s.strapLogged.flag GSTAT_STRAPBAD = true)
      ∧ s.strapLogged.reports.length = s.reports.length + (if s.strap = none then 1 else 0) ∧ s.sameRegs s.strapLogged [aGSTAT, aGARB] := by
  unfold State.strapLogged
  cases hs : s.strap with
  | some v => exact ⟨fun _ _ => rfl, nofun, rfl, s.sameRegs_refl _⟩
  | none =>
    have hregs : ((s.setFld GSTAT_STRAPBAD 1).primReport 0xA5 1 0 (s.fld GARB_STRAPADC)).regs = (s.setFld GSTAT_STRAPBAD 1).regs := rfl
    simp only [Option.isNone_none, if_true]
    refine ⟨fun f hf => ?_, fun _ => ?_, ?_, fun a ha => ?_⟩
    · rw [State.fld_congr hregs]
      obtain rfl | rfl := hf <;> exact State.fld_setFld_apart _ _ (by decide)
    · rw [State.flag_congr hregs, State.flag_setFld_same _ _ _ (by decide)]; rfl
    · rw [State.primReport, State.globReport, State.report_reports, List.length_append]; rfl
    · rw [State.reg_congr hregs]
      exact State.sameRegs_setFld (s.sameRegs_refl _) (by decide) _ a ha

/-- Half h settles primacy: what the device shows, logs and does next. -/
theorem State.settle_spec (s : State) {h : Nat} (hh : h < 2) :
    (s.settle h).half h = (s.half h).asPrimary ∧ (s.settle h).mgmt = s.mgmt ∧ (s.settle h).fld GSTAT_PRIM = h
      ∧ (s.settle h).fld GARB_ATTEMPT = s.attempt % 4 ∧ (s.settle h).boot = .reading ∧ (s.settle h).imgSlot = some (s.strap.getD 0 / 2 % 2)
      ∧ (s.strap = none → (s.settle h).flag GSTAT_STRAPBAD = true)
      ∧ (s.settle h).reports.length = s.reports.length + (if s.strap = none then 1 else 0) + s.arbFails.length
      ∧ s.sameRegs (s.settle h) [aGSTAT, aGARB] ∧ s.sameMem (s.settle h) := by
  obtain ⟨hhalf, hprim, hattempt, hregs, hmem⟩ := s.primTaken_spec hh
  obtain ⟨hkept, hbad, hlen, hregs'⟩ := (s.primTaken h).strapLogged_spec
  obtain ⟨rs, l, hlogged⟩ := (s.primTaken h).onlyShown_strapLogged
  obtain ⟨r, hfails, hlen'⟩ := (s.primTaken h).strapLogged.each_primReport (s.primTaken h).strapLogged.arbFails 0xA6 1 (fun f => f.1 + 4 * f.2)
  obtain ⟨h0, h1, m, hhalves⟩ := s.onlyHalves_modHalf h Half.asPrimary
  have hstrap : (s.primTaken h).strap = s.strap := by simp only [State.primTaken, State.setFld_strap, hhalves]
  have hmgmt : (s.primTaken h).mgmt = s.mgmt := by simp only [State.primTaken, State.setFld_mgmt, State.modHalf_mgmt]
  have hreports : (s.primTaken h).reports = s.reports := by simp only [State.primTaken, State.setFld_reports, State.modHalf_reports]
  have harb : (s.primTaken h).strapLogged.arbFails = s.arbFails := by
    rw [hlogged]; simp only [State.primTaken, State.setFld_arbFails, hhalves]
  have hsettle : s.settle h = { (s.primTaken h).strapLogged with
      reports := r, boot := .reading, arbFails := [], imgSlot := some (strapSlot (s.strap.getD 0)) } := by
    rw [State.settle_eq, State.failsLogged, hfails]
    simp only [hlogged, hstrap]
  have hsregs : (s.settle h).regs = (s.primTaken h).strapLogged.regs := by rw [hsettle]
  rw [hstrap] at hbad hlen
  refine ⟨?_, ?_, ?_, ?_, ?_, ?_, fun hn => ?_, ?_, fun a ha => ?_, ?_⟩
  · rw [hsettle, hlogged]; exact hhalf
  · rw [hsettle, hlogged]; exact hmgmt
  · rw [State.fld_congr hsregs, hkept _ (.inl rfl), hprim]
  · rw [State.fld_congr hsregs, hkept _ (.inr rfl), hattempt]
  · rw [hsettle]
  · rw [hsettle]; rfl
  · rw [State.flag_congr hsregs, hbad hn]
  · rw [hsettle]
    dsimp only
    rw [hlen', hlen, hreports, harb]
  · rw [State.reg_congr hsregs]
    exact State.sameRegs_trans hregs hregs' a ha
  · rw [hsettle, hlogged]
    exact hmem.trans (State.sameMem_of_stores rfl rfl rfl)

end Sys2Proof.Machine
end

section
/-! The statement on arbitration. -/

namespace Sys2Proof.Proofs
open Sys2Proof Sys2Proof.Machine

/-- Table 16.10: windows of three codes, and one of two for the value 15. -/
theorem strapDecode_eq_some {code v : Nat} (hv : v < 16) :
    strapDecode code = some v ↔ (v < 15 ∧ 4 * v + 1 ≤ code ∧ code ≤ 4 * v + 3) ∨ (v = 15 ∧ (code = 61 ∨ code = 62)) := by
  rw [strapDecode, List.find?_range_eq_some]
  by_cases h15 : v = 15
  · subst h15
    simp only [if_true, Bool.or_eq_true, beq_iff_eq, List.mem_range, true_and]
    constructor
    · rintro ⟨h, -, -⟩
      exact .inr h
    · rintro (⟨h, -⟩ | h)
      · omega
      · refine ⟨h, hv, fun j hj => ?_⟩
        have hj15 : j ≠ 15 := by omega
        simp only [hj15, if_false, Bool.not_eq_true', Bool.and_eq_false_iff, decide_eq_false_iff_not]
        omega
  · simp only [h15, if_false, Bool.and_eq_true, decide_eq_true_eq, List.mem_range, false_and, or_false]
    constructor
    · rintro ⟨h, -, -⟩
      exact ⟨by omega, h⟩
    · rintro ⟨-, h⟩
      refine ⟨h, hv, fun j hj => ?_⟩
      have hj15 : j ≠ 15 := by omega
      simp only [hj15, if_false, Bool.not_eq_true', Bool.and_eq_false_iff, decide_eq_false_iff_not]
      omega

/-! ## Rows (R39, R40) -/

theorem exec_arbitrationAttempt {s : State} (hboot : s.boot = .arbitrating) (hn : s.attempt < 3) :
    exec .arbitrationAttempt s = .next (({ s with arbFails := s.arbFails ++ [(s.attempt, s.h0.cause)] } : State).attemptStart (s.attempt + 1)) :=
  congrArg Host.Outcome.next (if_pos ⟨hboot, hn⟩)

/-- The strap's value is noted, and Half 0 waits for STRAP's acknowledgement. -/
def strapNoted (s : State) (v : Option Nat) : State := ({ s with strap := v } : State).modHalf 0 fun x => { x with phase := .waitAck }

/-- GARB shows a conversion. -/
def strapShown (s : State) (code : Nat) (v : Option Nat) : State :=
  ((s.setFld GARB_STRAPADC code).setFld GARB_STRAPVAL (v.getD 0)).setFld GARB_STRAPHALF (strapHalf (v.getD 0))

theorem exec_strapConversionDone {s : State} {code : Nat} (ok : Bool) (hphase : s.h0.phase = .converting) (hrole : s.h0.role ≠ .hold)
    (hcode : code < 64) :
    exec (.strapConversionDone code ok) s =
      .next ((strapShown (strapNoted s (if ok then strapDecode code else none)) code (if ok then strapDecode code else none)).mgmtSend 1
        (.strap (if ok then strapDecode code else none))) := by
  have h : ¬ (s.h0.phase ≠ .converting ∨ s.h0.role = .hold) := by simp [hphase, hrole]
  change execStrapConversionDone code ok s = _
  rw [execStrapConversionDone, if_neg h, Nat.mod_eq_of_lt hcode]
  rfl

theorem strapShown_spec (s : State) {code : Nat} {v : Option Nat} (hcode : code < 64) (hv : v.getD 0 < 16) :
    (strapShown s code v).fld GARB_STRAPADC = code ∧ (strapShown s code v).fld GARB_STRAPVAL = v.getD 0
      ∧ (strapShown s code v).fld GARB_STRAPHALF = v.getD 0 % 2 ∧ s.sameRegs (strapShown s code v) [aGARB] := by
  refine ⟨?_, ?_, ?_, ?_⟩
  · rw [strapShown, State.fld_setFld_apart _ _ (by decide), State.fld_setFld_apart _ _ (by decide), State.fld_setFld_same _ _ _ (by decide)]
    exact Nat.mod_eq_of_lt hcode
  · rw [strapShown, State.fld_setFld_apart _ _ (by decide), State.fld_setFld_same _ _ _ (by decide)]
    exact Nat.mod_eq_of_lt hv
  · rw [strapShown, State.fld_setFld_same _ _ _ (by decide)]
    exact Nat.mod_mod _ 2
  · exact State.sameRegs_setFld (State.sameRegs_setFld (State.sameRegs_setFld (s.sameRegs_refl _) (by decide) _) (by decide) _) (by decide) _

theorem strapDecode_lt (code : Nat) : (strapDecode code).getD 0 < 16 := by
  cases h : strapDecode code with
  | none => decide
  | some v => exact List.mem_range.mp (List.mem_of_find?_eq_some h)

theorem exec_strap {s : State} {v : Option Nat} {rest : List (Nat × Mgmt)} (hphase : s.h1.phase = .waitStrap) (hrole : s.h1.role ≠ .hold)
    (hm : s.mgmt = (1, .strap v) :: rest) :
    exec .strap s = .next (((s.withMgmt rest).mgmtSend 0 .strapAck).claim 1 (v.isSome && strapHalf (v.getD 0) == 1)) := by
  have h : ¬ (s.h1.phase ≠ .waitStrap ∨ s.h1.role = .hold) := by simp [hphase, hrole]
  change execStrap s = _
  rw [execStrap, if_neg h, State.mgmtTake_front hm rfl]

theorem exec_strapAck {s : State} {rest : List (Nat × Mgmt)} (hphase : s.h0.phase = .waitAck) (hrole : s.h0.role ≠ .hold)
    (hm : s.mgmt = (0, .strapAck) :: rest) :
    exec .strapAck s = .next ((s.withMgmt rest).claim 0 ((s.strap.getD 0) % 2 == 0)) := by
  have h : ¬ (s.h0.phase ≠ .waitAck ∨ s.h0.role = .hold) := by simp [hphase, hrole]
  change execStrapAck s = _
  rw [execStrapAck, if_neg h, State.mgmtTake_front hm rfl]
  cases hs : s.strap <;> simp [State.withMgmt, hs, strapHalf]

theorem exec_claim {s : State} {h : Nat} {c : Bool} {rest : List (Nat × Mgmt)} (hh : h < 2) (hrole : (s.half h).role ≠ .hold)
    (hm : s.mgmt = (h, .claim c) :: rest) :
    exec (.claim h) s = .next (((s.withMgmt rest).modHalf h fun x => { x with peerClaim := some c }).judgeIf h) := by
  have hno : ¬ (2 ≤ h ∨ (s.half h).role = .hold) := by simp [hrole]; omega
  change execClaim h s = _
  rw [execClaim, if_neg hno, State.mgmtTake_front hm rfl]

theorem exec_claimSample {s : State} {h : Nat} (w : Bool) (hh : h < 2) (hrole : (s.half h).role ≠ .hold) (hphase : (s.half h).phase = .claimed)
    (hnone : (s.half h).sampled = none) :
    exec (.claimSample h w) s = .next ((s.modHalf h fun x => { x with sampled := some w }).judgeIf h) := by
  have hno : ¬ (2 ≤ h ∨ (s.half h).role = .hold ∨ (s.half h).phase ≠ .claimed ∨ (s.half h).sampled.isSome) := by
    simp [hrole, hphase, hnone]; omega
  change execClaimSample h w s = _
  rw [execClaimSample, if_neg hno]

theorem exec_verdict {s : State} {h : Nat} {theirs : Bool} {rest : List (Nat × Mgmt)} (hh : h < 2) (hrole : (s.half h).role ≠ .hold)
    (hm : s.mgmt = (h, .verdict theirs) :: rest) (hphase : (s.half h).phase = .judged) :
    exec (.verdict h) s = .next (((s.withMgmt rest).modHalf h fun x => { x with peerVerdict := some theirs }).conclude h) := by
  have hno : ¬ (2 ≤ h ∨ (s.half h).role = .hold) := by simp [hrole]; omega
  change execVerdict h s = _
  rw [execVerdict, if_neg hno, State.mgmtTake_front hm rfl]
  exact congrArg Host.Outcome.next (if_pos (by rw [State.half_modHalf_same]; exact hphase))

/-- The half that a message is for, by whether one for Half 0 is in flight. -/
theorem anyFor0 {s : State} {h : Nat} {m : Mgmt} {rest : List (Nat × Mgmt)} (hh : h < 2) (hm : s.mgmt = (h, m) :: rest)
    (hfirst : h = 1 → ∀ x ∈ rest, x ≠ (0, m)) : (if (s.mgmt.any fun x => x.1 == 0 && x.2 == m) then 0 else 1) = h := by
  obtain rfl | rfl : h = 0 ∨ h = 1 := by omega
  · rw [hm]; simp
  · have hany : s.mgmt.any (fun x => x.1 == 0 && x.2 == m) = false := by
      rw [hm, List.any_eq_false]
      intro x hx
      obtain rfl | hx := List.mem_cons.mp hx
      · simp
      · intro heq
        simp only [Bool.and_eq_true, beq_iff_eq] at heq
        exact hfirst rfl x hx (Prod.ext heq.1 heq.2)
    rw [hany]; rfl

theorem exec_commit {s : State} {h : Nat} {rest : List (Nat × Mgmt)} (hh : h < 2) (hrole : (s.half h).role ≠ .hold)
    (hm : s.mgmt = (h, .commit) :: rest) (hfirst : h = 1 → ∀ m ∈ rest, m ≠ (0, .commit))
    (hwait : (s.half h).phase = .waitCommit ∨ (s.half h).role = .secondary) :
    exec .commit s = .next (((s.withMgmt rest).modHalf h fun x => { x with role := .secondary, phase := .idle }).mgmtSend (1 - h) .ack) := by
  have hhalf : s.commitHalf = h := anyFor0 hh hm hfirst
  change execCommit s = _
  simp only [execCommit, hhalf, if_neg hrole, State.mgmtTake_front hm (f := fun m => m == .commit) rfl]
  exact congrArg Host.Outcome.next (if_pos hwait)

theorem exec_ack {s : State} {h : Nat} {rest : List (Nat × Mgmt)} (hh : h < 2) (hrole : (s.half h).role ≠ .hold)
    (hphase : (s.half h).phase = .committing) (hother : h = 1 → s.h0.phase ≠ .committing) (hm : s.mgmt = (h, .ack) :: rest) :
    exec .ack s = .next ((s.withMgmt rest).settle h) := by
  have hhalf : (if s.h0.phase = .committing then 0 else 1) = h := by
    obtain rfl | rfl : h = 0 ∨ h = 1 := by omega
    · exact if_pos hphase
    · exact if_neg (hother rfl)
  have hno : ¬ ((s.half h).phase ≠ .committing ∨ (s.half h).role = .hold) := by simp [hphase, hrole]
  change execAck s = _
  simp only [execAck, hhalf, if_neg hno, State.mgmtTake_front hm (f := fun m => m == .ack) rfl]

theorem exec_abort {s : State} {h : Nat} {rest : List (Nat × Mgmt)} (hh : h < 2) (hrole : (s.half h).role ≠ .hold)
    (hm : s.mgmt = (h, .abort) :: rest) (hfirst : h = 1 → ∀ m ∈ rest, m ≠ (0, .abort)) :
    exec .abort s = .next ((s.withMgmt rest).modHalf h fun x => { x with role := if x.role = .secondary then .arbitrating else x.role, phase := .idle }) := by
  have hhalf := anyFor0 hh hm hfirst
  change execAbort s = _
  simp only [execAbort, hhalf, if_neg hrole, State.mgmtTake_front hm (f := fun m => m == .abort) rfl]

theorem exec_hold {s : State} {h : Nat} {rest : List (Nat × Mgmt)} (hh : h < 2) (hm : s.mgmt = (h, .hold) :: rest) :
    exec (.hold h) s = .next ((s.withMgmt rest).enterHold h) := by
  change execHold h s = _
  rw [execHold, if_neg (by omega), State.mgmtTake_front hm rfl]

/-- What the arrival of no message comes to, phase by phase (R40 to R42). -/
theorem exec_arbitrationTimeout {s : State} {h : Nat} (hh : h < 2) (hrole : (s.half h).role ≠ .hold) :
    ((s.half h).phase = .judged ∨ (s.half h).phase = .waitCommit ∨ (s.half h).phase = .waitAck →
      exec (.arbitrationTimeout h) s = .next (s.arbFail h 4)) ∧
    ((s.half h).phase = .claimed → exec (.arbitrationTimeout h) s = .next (s.judge h 4)) ∧
    ((s.half h).phase = .committing → exec (.arbitrationTimeout h) s =
      .next (if (s.half h).resends < 3 then (s.modHalf h fun x => { x with resends := x.resends + 1 }).mgmtSend (1 - h) .commit
        else (s.arbFail h 4).mgmtSend (1 - h) .abort)) := by
  have hno : ¬ (2 ≤ h ∨ (s.half h).role = .hold) := by simp [hrole]; omega
  have hexec : exec (.arbitrationTimeout h) s = execArbitrationTimeout h s := rfl
  rw [hexec, execArbitrationTimeout, if_neg hno]
  refine ⟨fun hp => ?_, fun hp => ?_, fun hp => ?_⟩
  · obtain hp | hp | hp := hp <;> rw [hp]
  · rw [hp]
  · rw [hp]

/-- Settles O57: each row comes to one known next state, whose judging, failing, holding and settling the lemmas on halves say. -/
theorem arbitration : Obligations.Arbitration := by
  unfold Obligations.Arbitration
  refine ⟨⟨fun _ _ _ hv => strapDecode_eq_some hv, ?attempt, ?conversion, ?strap, ?strapAck, ?claim, ?sample⟩,
    ?verdict, ?commit, ?ack, ?abortAndHold, ?timeouts, ?strapTimeout⟩
  case attempt =>
    intro s hboot hn
    exact ⟨_, exec_arbitrationAttempt hboot hn, rfl, rfl, rfl, rfl, rfl, rfl, rfl, rfl, State.sameRegs_of_regs rfl _,
      State.sameMem_of_stores rfl rfl rfl⟩
  case conversion =>
    intro s code ok hphase hrole hcode
    have hv : (if ok then strapDecode code else none).getD 0 < 16 := by
      split
      · exact strapDecode_lt code
      · exact Nat.zero_lt_succ 15
    obtain ⟨hadc, hval, hhalf, hregs⟩ := strapShown_spec (strapNoted s (if ok then strapDecode code else none)) hcode hv
    exact ⟨_, exec_strapConversionDone ok hphase hrole hcode, rfl, rfl, rfl, hadc, hval, hhalf, hregs, State.sameMem_of_stores rfl rfl rfl⟩
  case strap =>
    intro s v rest hphase hrole hm
    have hintent : (v.isSome && strapHalf (v.getD 0) == 1) = ((v.map (· % 2)) == some 1) := by cases v <;> rfl
    refine ⟨_, exec_strap hphase hrole hm, ?_, ?_, rfl, State.sameRegs_of_regs rfl _, State.sameMem_of_stores rfl rfl rfl⟩
    · rw [hintent]; rfl
    · rw [hintent]; exact List.append_assoc _ _ _
  case strapAck =>
    intro s rest hphase hrole hm
    exact ⟨_, exec_strapAck hphase hrole hm, rfl, rfl, rfl, State.sameRegs_of_regs rfl _, State.sameMem_of_stores rfl rfl rfl⟩
  case claim =>
    intro s h c rest hh hrole hm
    have honly : s.OnlyHalves ((s.withMgmt rest).modHalf h fun x => { x with peerClaim := some c }) :=
      (s.onlyHalves_withMgmt rest).trans (State.onlyHalves_modHalf _ h _)
    have hhalf : ((s.withMgmt rest).modHalf h fun x => { x with peerClaim := some c }).half h = { s.half h with peerClaim := some c } :=
      State.half_modHalf_same _ h _
    have hmgmt : ((s.withMgmt rest).modHalf h fun x => { x with peerClaim := some c }).mgmt = rest := State.modHalf_mgmt _ h _
    refine ⟨fun w hphase hw hp => ⟨_, exec_claim hh hrole hm, ?_⟩, fun w hphase hw => ⟨_, exec_claim hh hrole hm, ?_⟩,
      fun hnone => ⟨_, exec_claim hh hrole hm, ?_⟩⟩
    · have hjudges := State.judges_spec (w := w) (c := c) honly (by rw [hhalf]; exact hphase) (by rw [hhalf]; exact hw) (by rw [hhalf])
        (by rw [hhalf]; exact hp) (by rw [hhalf]) (by rw [hhalf])
      rwa [hmgmt] at hjudges
    · exact State.judgeIf_verdict honly (by rw [hhalf]; exact hphase) (by rw [hhalf]; exact hw) (by rw [hhalf]) (by rw [hhalf])
    · rw [State.judgeIf_waits (.inl (by rw [hhalf]; exact hnone))]
      exact ⟨hhalf, hmgmt, honly.sameRegs _, honly.sameMem⟩
  case sample =>
    intro s h w hh hrole hphase hnone
    have honly : s.OnlyHalves (s.modHalf h fun x => { x with sampled := some w }) := s.onlyHalves_modHalf h _
    have hhalf : (s.modHalf h fun x => { x with sampled := some w }).half h = { s.half h with sampled := some w } :=
      s.half_modHalf_same h _
    have hmgmt : (s.modHalf h fun x => { x with sampled := some w }).mgmt = s.mgmt := s.modHalf_mgmt h _
    refine ⟨fun c hc hp => ⟨_, exec_claimSample w hh hrole hphase hnone, ?_⟩, fun c hc => ⟨_, exec_claimSample w hh hrole hphase hnone, ?_⟩,
      fun hc => ⟨_, exec_claimSample w hh hrole hphase hnone, ?_⟩⟩
    · have hjudges := State.judges_spec (w := w) (c := c) honly (by rw [hhalf]; exact hphase) (by rw [hhalf]) (by rw [hhalf]; exact hc)
        (by rw [hhalf]; exact hp) (by rw [hhalf]) (by rw [hhalf])
      rwa [hmgmt] at hjudges
    · exact State.judgeIf_verdict honly (by rw [hhalf]; exact hphase) (by rw [hhalf]) (by rw [hhalf]; exact hc) (by rw [hhalf])
    · rw [State.judgeIf_waits (.inr (by rw [hhalf]; exact hc))]
      exact ⟨hhalf, hmgmt, honly.sameRegs _, honly.sameMem⟩
  case verdict =>
    intro s h mine theirs rest hh hrole hm hphase hv
    have honly : s.OnlyHalves ((s.withMgmt rest).modHalf h fun x => { x with peerVerdict := some theirs }) :=
      (s.onlyHalves_withMgmt rest).trans (State.onlyHalves_modHalf _ h _)
    have hhalf : ((s.withMgmt rest).modHalf h fun x => { x with peerVerdict := some theirs }).half h
        = { s.half h with peerVerdict := some theirs } := State.half_modHalf_same _ h _
    have hmgmt : ((s.withMgmt rest).modHalf h fun x => { x with peerVerdict := some theirs }).mgmt = rest := State.modHalf_mgmt _ h _
    have hmine : (((s.withMgmt rest).modHalf h fun x => { x with peerVerdict := some theirs }).half h).verdict = some mine := by
      rw [hhalf]; exact hv
    have htheirs : (((s.withMgmt rest).modHalf h fun x => { x with peerVerdict := some theirs }).half h).peerVerdict = some theirs := by
      rw [hhalf]
    refine ⟨fun hm' ht => ⟨_, exec_verdict hh hrole hm hphase, ?_⟩, fun hbad => ⟨_, exec_verdict hh hrole hm hphase, ?_⟩⟩
    · subst hm' ht
      rw [State.conclude_success hmine htheirs, hhalf]
      dsimp only
      split
      · have honly' := honly.trans ((State.onlyHalves_modHalf _ h fun x => { x with phase := .committing }).trans
          (State.onlyHalves_mgmtSend _ (1 - h) .commit))
        refine ⟨?_, ?_, honly'.boot, honly'.sameRegs _, honly'.sameMem⟩
        · rw [State.half_mgmtSend, State.half_modHalf_same]
        · rw [State.mgmtSend_mgmt, State.modHalf_mgmt, hmgmt]
      · have honly' := honly.trans (State.onlyHalves_modHalf _ h fun x => { x with phase := .waitCommit })
        refine ⟨?_, ?_, honly'.boot, honly'.sameRegs _, honly'.sameMem⟩
        · rw [State.half_modHalf_same]
        · rw [State.modHalf_mgmt, hmgmt]
    · have hfail := State.arbFail_spec (h := h) 5 honly (by rw [hhalf]; exact hrole) (by rw [hhalf]) (by rw [hhalf])
      rwa [hmgmt, ← State.conclude_failure hmine htheirs hbad] at hfail
  case commit =>
    intro s h rest hh hrole hm hfirst hwait
    have honly := (s.onlyHalves_withMgmt rest).trans ((State.onlyHalves_modHalf _ h fun x => { x with role := .secondary, phase := .idle }).trans
      (State.onlyHalves_mgmtSend _ (1 - h) .ack))
    refine ⟨_, exec_commit hh hrole hm hfirst hwait, ?_, ?_, honly.boot, honly.sameRegs _, honly.sameMem⟩
    · rw [State.half_mgmtSend, State.half_modHalf_same, State.half_withMgmt]
    · rw [State.mgmtSend_mgmt, State.modHalf_mgmt, State.withMgmt_mgmt]
  case ack =>
    intro s h rest hh hrole hphase hother hm
    exact ⟨_, exec_ack hh hrole hphase hother hm, (s.withMgmt rest).settle_spec hh⟩
  case abortAndHold =>
    intro s h rest hh hrole
    refine ⟨fun hm hfirst hsec => ⟨_, exec_abort hh hrole hm hfirst, ?_⟩, fun hm => ⟨_, exec_hold hh hm, ?_⟩⟩
    · have honly := (s.onlyHalves_withMgmt rest).trans (State.onlyHalves_modHalf _ h fun x =>
        { x with role := if x.role = .secondary then .arbitrating else x.role, phase := .idle })
      refine ⟨?_, ?_, honly.sameRegs _, honly.sameMem⟩
      · rw [State.half_modHalf_same, State.half_withMgmt, hsec]; rfl
      · rw [State.modHalf_mgmt, State.withMgmt_mgmt]
    · exact State.enterHold_spec (s.onlyHalves_withMgmt rest) hrole
  case timeouts =>
    intro s h hh hrole
    have hself : s.OnlyHalves s := ⟨s.h0, s.h1, s.mgmt, rfl⟩
    obtain ⟨hfails, hjudges, hcommits⟩ := exec_arbitrationTimeout hh hrole
    refine ⟨fun hp => ⟨_, hfails hp, State.arbFail_spec 4 hself hrole rfl rfl⟩, fun hp => ⟨_, hjudges hp, s.judge_verdict h 4⟩,
      fun hp hnone => ⟨_, hjudges hp, ?_⟩, fun hp hlt => ⟨_, hcommits hp, ?_⟩, fun hp hge => ⟨_, hcommits hp, ?_⟩, fun hr hup hin hrel => ?_⟩
    · have honly := (s.onlyHalves_modHalf h fun x => x.judged 4).trans (State.onlyHalves_mgmtSend _ (1 - h) (.verdict false))
      rw [State.judge_waits 4 hnone]
      refine ⟨?_, ?_, ?_, honly.sameRegs _, honly.sameMem⟩
      · rw [State.half_mgmtSend, State.half_modHalf_same]; rfl
      · rw [State.half_mgmtSend, State.half_modHalf_same]; rfl
      · rw [State.mgmtSend_mgmt, State.modHalf_mgmt]; rfl
    · have honly := (s.onlyHalves_modHalf h fun x => { x with resends := x.resends + 1 }).trans (State.onlyHalves_mgmtSend _ (1 - h) .commit)
      rw [if_pos hlt]
      refine ⟨?_, ?_, honly.sameRegs _, honly.sameMem⟩
      · rw [State.half_mgmtSend, State.half_modHalf_same]
      · rw [State.mgmtSend_mgmt, State.modHalf_mgmt]
    · obtain ⟨hidle, -, hlast, -⟩ := State.arbFail_spec 4 hself hrole rfl rfl
      obtain ⟨-, -, hmem⟩ := s.goesOn_arbFail h 4
      rw [if_neg (by omega)]
      refine ⟨hidle, ?_, fun h3 => ?_, hmem.trans (State.onlyHalves_mgmtSend _ _ _).sameMem⟩
      · rw [State.mgmtSend_mgmt]; exact List.mem_append_right _ (List.mem_singleton.mpr rfl)
      · obtain ⟨-, hboot, -⟩ := hlast h3
        exact hboot
    · have hsettled : ((s.half h).role == .primary || (s.half h).role == .secondary) = true := by simpa using hr
      have hstarting : (s.boot == .reading || s.boot == .accepted || s.boot == .applying || s.boot == .arbitrating || s.boot == .hold) = true := by
        cases hb : s.boot <;> simp_all
      have hno : ¬ 2 ≤ h := by omega
      have hexec : exec (.configurationTrafficTimeout h) s = .next (s.enterHold h) := by
        change execConfigurationTrafficTimeout h s = _
        rw [execConfigurationTrafficTimeout, hsettled, hstarting]
        simp [hno]
      exact ⟨_, hexec, State.enterHold_spec hself hrole⟩
  case strapTimeout =>
    intro s hphase hrole
    have hexec : exec .strapTimeout s = .next (s.arbFail 1 4) := congrArg Host.Outcome.next (if_pos ⟨hphase, hrole⟩)
    exact ⟨_, hexec, State.arbFail_spec 4 ⟨s.h0, s.h1, s.mgmt, rfl⟩ hrole rfl rfl⟩

end Sys2Proof.Proofs
end

section
/-! SUPPORT. Start-up: what the release, the bridge's test and the read of a slot come to, which registers the records of an image write,
and what the resets of the tiles leave (R24, R25, R427, R485, R486, R493, R502). -/

namespace Sys2Proof.Machine

/-! ## Release, bridge and slots (R24, R25, R39, R427, R485, R486) -/

theorem exec_mgcLeaveReset {s : State} (hboot : s.boot = .released) :
    exec .mgcLeaveReset s =
      .next ({ ({ s with boot := .arbitrating, detHold := true } : State).attemptStart 0 with arbFails := [] } : State).syncDetm :=
  congrArg Host.Outcome.next (if_pos hboot)

/-- Determinism is forced while it is held. -/
theorem State.syncDetm_held {s : State} (h : s.detHold = true) : s.syncDetm.flag GCTL_DETMF = true := by
  rw [State.syncDetm, State.flag_setFld_same _ _ _ (by decide), h]
  rfl

theorem State.sameRegs_syncDetm (s : State) : s.sameRegs s.syncDetm [aGCTL] := State.sameRegs_setFld (s.sameRegs_refl _) (by decide) _

/-- The links that passed the bridge's test are shown. -/
def State.bridgeShown (s : State) (ok : BitVec 32) : State :=
  { s.setFld GBRIDGE_LINKOK ok.toNat with bridgeDone := true }.setFld GSTAT_BRDEG (if ok = BitVec.allOnes 32 then 0 else 1)

theorem exec_bridgeTestDone {s : State} (ok : BitVec 32) (hdone : s.bridgeDone = false) (hboot : s.boot = .reading ∨ s.boot = .accepted) :
    exec (.bridgeTestDone ok) s = .next (if ok = 0 then ((s.bridgeShown ok).primReport (Config.freeByte (s.bridgeShown ok).fresh 0).toNat 2 0 0).freshen
      else s.bridgeShown ok) := by
  have hno : ¬ (s.bridgeDone || !(s.boot == .reading || s.boot == .accepted)) = true := by
    obtain h | h := hboot <;> simp [hdone, h]
  exact congrArg Host.Outcome.next (if_neg hno)

theorem State.bridgeShown_spec (s : State) (ok : BitVec 32) :
    (s.bridgeShown ok).fld GBRIDGE_LINKOK = ok.toNat ∧ ((s.bridgeShown ok).flag GSTAT_BRDEG = false ↔ ok = BitVec.allOnes 32) := by
  have hregs : ({ s.setFld GBRIDGE_LINKOK ok.toNat with bridgeDone := true } : State).regs = (s.setFld GBRIDGE_LINKOK ok.toNat).regs := rfl
  refine ⟨?_, ?_⟩
  · rw [State.bridgeShown, State.fld_setFld_apart _ _ (by decide), State.fld_congr hregs, State.fld_setFld_same _ _ _ (by decide)]
    exact Nat.mod_eq_of_lt ok.isLt
  · rw [State.bridgeShown, State.flag_setFld_same _ _ _ (by decide)]
    split
    · next h => exact ⟨fun _ => h, fun _ => rfl⟩
    · next h => exact ⟨nofun, fun h' => absurd h' h⟩

theorem State.fld_orFld_apart (s : State) {f g : Fld} (v : Nat) (h : f.apart g = true) : (s.orFld f v).fld g = s.fld g :=
  s.fld_setFld_apart _ h

/-- A slot is tried (R486). -/
def State.slotTried (s : State) (k : Nat) : State := s.orFld CSTAT_TRIED (2 ^ k)

/-- What a slot holds does not hang on which slots have been tried. -/
theorem State.imageCheck_slotTried (s : State) (k j : Nat) : (s.slotTried k).imageCheck j = s.imageCheck j := by
  have hstep : (s.slotTried k).stepc = s.stepc := s.fld_orFld_apart _ (by decide)
  have hbytes : ∀ o n, (s.slotTried k).slotBytes j o n = s.slotBytes j o n := fun _ _ => rfl
  simp only [State.imageCheck, hstep, hbytes]

/-- An accepted slot's image waits to be applied. -/
def State.slotTaken (s : State) (k : Nat) (im : Image) : State :=
  { (s.setFld CSTAT_SLOT k).setFld CSTAT_SRC 0 with boot := .accepted, imgNext := some im, imgSlot := none }

/-- The factory defaults wait to be applied (R486). -/
def State.defaultsTaken (s : State) : State :=
  { ((s.setFld GSTAT_CFGDEF 1).setFld CSTAT_SRC 1).primReport 0xA1 3 0 0 with boot := .accepted, imgNext := some Image.factory, imgSlot := none }

theorem exec_imageReadDone_ok {s : State} {k : Nat} {e : Bool} {im : Image} (hboot : s.boot = .reading) (hslot : s.imgSlot = some k)
    (hread : (if e then Except.error 11 else s.imageCheck k) = .ok im) :
    exec (.imageReadDone e) s = .next ((s.slotTried k).slotTaken k im) := by
  have hcheck : (if e then Except.error 11 else (s.slotTried k).imageCheck k) = .ok im := by rw [State.imageCheck_slotTried]; exact hread
  have hno : ¬ s.boot ≠ .reading := fun h => h hboot
  change execImageReadDone e s = _
  simp only [execImageReadDone, if_neg hno, hslot]
  change Host.Outcome.next (match (if e then Except.error 11 else (s.slotTried k).imageCheck k) with | .ok _ => _ | .error _ => _) = _
  rw [hcheck]
  rfl

theorem exec_imageReadDone_error {s : State} {k code : Nat} {e : Bool} (hboot : s.boot = .reading) (hslot : s.imgSlot = some k)
    (hread : (if e then Except.error 11 else s.imageCheck k) = .error code) :
    exec (.imageReadDone e) s = .next (if s.fld CSTAT_TRIED == 0 then { (s.slotTried k).rejectSlot k code with imgSlot := some (1 - k) }
      else ((s.slotTried k).rejectSlot k code).defaultsTaken) := by
  have hcheck : (if e then Except.error 11 else (s.slotTried k).imageCheck k) = .error code := by
    rw [State.imageCheck_slotTried]; exact hread
  have hno : ¬ s.boot ≠ .reading := fun h => h hboot
  change execImageReadDone e s = _
  simp only [execImageReadDone, if_neg hno, hslot]
  change Host.Outcome.next (match (if e then Except.error 11 else (s.slotTried k).imageCheck k) with | .ok _ => _ | .error _ => _) = _
  rw [hcheck]
  rfl

theorem State.slotTaken_spec (s : State) {k : Nat} (hk : k < 2) (im : Image) :
    (s.slotTaken k im).fld CSTAT_SLOT = k ∧ (s.slotTaken k im).fld CSTAT_SRC = 0 ∧ s.sameRegs (s.slotTaken k im) [aCSTAT] := by
  have hregs : (s.slotTaken k im).regs = ((s.setFld CSTAT_SLOT k).setFld CSTAT_SRC 0).regs := rfl
  refine ⟨?_, ?_, fun a ha => ?_⟩
  · rw [State.fld_congr hregs, State.fld_setFld_apart _ _ (by decide), State.fld_setFld_same _ _ _ (by decide)]
    exact Nat.mod_eq_of_lt hk
  · rw [State.fld_congr hregs, State.fld_setFld_same _ _ _ (by decide)]; rfl
  · rw [State.reg_congr hregs]
    exact State.sameRegs_setFld (State.sameRegs_setFld (s.sameRegs_refl _) (by decide) _) (by decide) _ a ha

/-- A slot's field of rejection codes (Table 16.3). -/
def rejField (k : Nat) : Fld := if k = 0 then CSTAT_REJ0 else CSTAT_REJ1

theorem rejField_w (k : Nat) : (rejField k).w = 4 ∧ (rejField k).lo + (rejField k).w ≤ 64 := by
  unfold rejField
  split <;> decide

theorem State.rejectSlot_eq (s : State) (k code : Nat) :
    s.rejectSlot k code = (s.setFld (rejField k) code).primReport 0xA0 2 (slotBase k) (k + 16 * code) := by
  unfold State.rejectSlot rejField
  split <;> rfl

theorem State.rejectSlot_fld (s : State) (k code : Nat) : (s.rejectSlot k code).fld (rejField k) = code % 16 := by
  obtain ⟨hw, hfit⟩ := rejField_w k
  have hregs : (s.rejectSlot k code).regs = (s.setFld (rejField k) code).regs := by rw [State.rejectSlot_eq]; rfl
  rw [State.fld_congr hregs, State.fld_setFld_same _ _ _ hfit, hw]
  rfl

theorem State.defaultsTaken_spec (s : State) (k : Nat) :
    s.defaultsTaken.fld (rejField k) = s.fld (rejField k) ∧ s.defaultsTaken.flag GSTAT_CFGDEF = true ∧ s.defaultsTaken.fld CSTAT_SRC = 1 := by
  have hregs : s.defaultsTaken.regs = ((s.setFld GSTAT_CFGDEF 1).setFld CSTAT_SRC 1).regs := rfl
  refine ⟨?_, ?_, ?_⟩
  · rw [State.fld_congr hregs]
    unfold rejField
    split <;> rw [State.fld_setFld_apart _ _ (by decide), State.fld_setFld_apart _ _ (by decide)]
  · rw [State.flag_congr hregs, State.flag_setFld_apart _ _ (by decide), State.flag_setFld_same _ _ _ (by decide)]; rfl
  · rw [State.fld_congr hregs, State.fld_setFld_same _ _ _ (by decide)]; rfl

/-! ## What the records of an image write (R485, R493) -/

/-- u is s but for contexts, keys, stack units, reports and registers at addresses that p holds of. -/
def State.OnlyLoaded (p : Nat → Prop) (s u : State) : Prop :=
  (∃ rs cx ks sx l, u = { s with regs := rs, ctxs := cx, keys := ks, stx := sx, reports := l }) ∧ ∀ a, ¬ p a → u.reg a = s.reg a

section
variable {p q : Nat → Prop} {s u v : State}

theorem State.OnlyLoaded.refl (p : Nat → Prop) (s : State) : State.OnlyLoaded p s s :=
  ⟨⟨s.regs, s.ctxs, s.keys, s.stx, s.reports, rfl⟩, fun _ _ => rfl⟩

theorem State.OnlyLoaded.trans (h : State.OnlyLoaded p s u) (k : State.OnlyLoaded p u v) : State.OnlyLoaded p s v := by
  obtain ⟨⟨_, _, _, _, _, rfl⟩, hregs⟩ := h
  obtain ⟨⟨rs, cx, ks, sx, l, rfl⟩, hregs'⟩ := k
  exact ⟨⟨rs, cx, ks, sx, l, rfl⟩, fun a ha => (hregs' a ha).trans (hregs a ha)⟩

theorem State.OnlyLoaded.mono (h : State.OnlyLoaded p s u) (hpq : ∀ a, p a → q a) : State.OnlyLoaded q s u :=
  ⟨h.1, fun a ha => h.2 a fun hp => ha (hpq a hp)⟩

theorem State.OnlyLoaded.fld (h : State.OnlyLoaded p s u) {f : Fld} (hf : ¬ p f.addr) : u.fld f = s.fld f :=
  State.fld_of_reg (h.2 _ hf)

/-- What a load of an image leaves alone. -/
theorem State.OnlyLoaded.rest (h : State.OnlyLoaded p s u) :
    u.boot = s.boot ∧ u.img = s.img ∧ u.imgNext = s.imgNext ∧ u.bridgeDone = s.bridgeDone ∧ u.tiles = s.tiles ∧ u.stk = s.stk := by
  obtain ⟨⟨_, _, _, _, _, rfl⟩, -⟩ := h
  exact ⟨rfl, rfl, rfl, rfl, rfl, rfl⟩

theorem State.onlyLoaded_setReg (s : State) {a : Nat} (ha : p a) (w : BitVec 64) : State.OnlyLoaded p s (s.setReg a w) :=
  ⟨⟨_, s.ctxs, s.keys, s.stx, s.reports, rfl⟩, fun b hb => s.reg_setReg_other a b w fun e => hb (e ▸ ha)⟩

theorem State.onlyLoaded_setFld (s : State) {f : Fld} (hf : p f.addr) (n : Nat) : State.OnlyLoaded p s (s.setFld f n) :=
  s.onlyLoaded_setReg hf _

/-- Two writes in a row. -/
theorem State.OnlyLoaded.setFld (h : State.OnlyLoaded p s u) {f : Fld} (hf : p f.addr) (n : Nat) : State.OnlyLoaded p s (u.setFld f n) :=
  h.trans (u.onlyLoaded_setFld hf n)

theorem State.onlyLoaded_modCtx (s : State) (c : Nat) (f : Ctx → Ctx) : State.OnlyLoaded p s (s.modCtx c f) :=
  ⟨⟨s.regs, _, s.keys, s.stx, s.reports, rfl⟩, fun _ _ => rfl⟩

theorem State.onlyLoaded_primReport (s : State) (typ sev addr detail : Nat) : State.OnlyLoaded p s (s.primReport typ sev addr detail) :=
  ⟨⟨s.regs, s.ctxs, s.keys, s.stx, _, rfl⟩, fun _ _ => rfl⟩

theorem State.onlyLoaded_each {α : Type} {f : State → α → State} {l : List α} (step : ∀ s, ∀ x ∈ l, State.OnlyLoaded p s (f s x)) (s : State) :
    State.OnlyLoaded p s (s.each l f) :=
  foldl_rel (State.OnlyLoaded.refl p) State.OnlyLoaded.trans step s

theorem State.onlyLoaded_applyFields (s : State) {im : Image} (hf : ∀ f ∈ im.fields, p f.addr) (hscale : p aGLSCALE) :
    State.OnlyLoaded p s (s.applyFields im) := by
  have hfields := State.onlyLoaded_each (p := p) (f := fun s (f : FieldSet) => s.setFld ⟨f.addr, f.lo, f.w⟩ f.v)
    (fun s f h => s.onlyLoaded_setFld (f := ⟨f.addr, f.lo, f.w⟩) (hf f h) f.v) s
  unfold State.applyFields
  dsimp only
  split
  · exact hfields
  · exact hfields.setFld hscale _

theorem State.onlyLoaded_applyTables (s : State) {im : Image}
    (ht : ∀ e ∈ im.tables, ∀ k < e.2.length, p (e.1 + k - (e.1 + k) % 8)) (hpart : ∀ n < 16, p (aXPART (n * 8 + 0))) :
    State.OnlyLoaded p s (s.applyTables im) := by
  refine (State.onlyLoaded_each (fun s e he => State.onlyLoaded_each (fun s b hb => ?byte) s) s).trans
    (State.onlyLoaded_each (fun s n hn => ?ver) _)
  case byte =>
    have hlt : b.2 < e.2.length := by
      have := List.snd_lt_of_mem_zipIdx hb
      omega
    exact s.onlyLoaded_setFld (f := ⟨_, _, 8⟩) (ht e he b.2 hlt) _
  case ver =>
    split
    · exact State.OnlyLoaded.refl p s
    · exact s.onlyLoaded_setReg (hpart n (List.mem_range.mp hn)) _

theorem State.onlyLoaded_applyPlans (s : State) (hplan : ∀ a, aFPLAN 0 ≤ a → a < aFPLAN 8192 → p a) : State.OnlyLoaded p s s.applyPlans := by
  refine State.onlyLoaded_each (fun s q hq => ?_) s
  have hq := List.mem_range.mp hq
  dsimp only
  split
  · exact State.OnlyLoaded.refl p s
  · refine State.onlyLoaded_each (fun s i hi => s.onlyLoaded_setReg (hplan _ ?_ ?_) _) s
    all_goals
      have hi := List.mem_range.mp hi
      simp only [List.length_append, List.length_flatten, List.map_replicate, List.sum_replicate, List.length_replicate, leBytes, List.length_map,
        List.length_range, List.length_cons, List.length_nil, smul_eq_mul] at hi
      simp only [aFPLAN]
      omega

theorem State.onlyLoaded_applyParams (s : State) (im : Image) (hctl : p aPCTL) (hcfg : p aPCFG) : State.OnlyLoaded p s (s.applyParams im) := by
  have heff : State.OnlyLoaded p s (if im.params.any fun e => e.1 == 0x0100 then s.setFld PCTL_EFF (im.param 0x0100 0) else s) := by
    split
    · exact s.onlyLoaded_setFld hctl _
    · exact State.OnlyLoaded.refl p s
  exact ((((heff.setFld (f := PCFG_PSUST) hcfg _).setFld (f := PCFG_PPEAK) hcfg _).setFld (f := PCFG_CREDMIN) hcfg _).setFld
    (f := PCFG_THROTT) hcfg _).setFld (f := PCFG_TD) hcfg _

/-- The parameters of Table 17.9 that the power unit takes. -/
theorem State.applyParams_fld (s : State) (im : Image) :
    (s.applyParams im).fld PCFG_PSUST = im.param 0x0101 2600 % 65536 ∧ (s.applyParams im).fld PCFG_TD = im.param 0x0105 5000 % 65536 := by
  unfold State.applyParams
  dsimp only
  refine ⟨?_, State.fld_setFld_same _ _ _ (by decide)⟩
  rw [State.fld_setFld_apart _ _ (by decide), State.fld_setFld_apart _ _ (by decide), State.fld_setFld_apart _ _ (by decide),
    State.fld_setFld_apart _ _ (by decide), State.fld_setFld_same _ _ _ (by decide)]
  rfl

theorem State.onlyLoaded_applyCtxs (s : State) {im : Image} (hc : ∀ e ∈ im.ctxs, p (aHCTXSTAT e.1)) : State.OnlyLoaded p s (s.applyCtxs im) := by
  refine State.onlyLoaded_each (fun s e he => ?_) s
  have h := hc e he
  exact ((((s.onlyLoaded_setFld (f := HCTXSTAT_PART e.1) h _).setFld (f := HCTXSTAT_FW e.1) h _).setFld (f := HCTXSTAT_TRAIN e.1) h _).setFld
    (f := HCTXSTAT_IMPL e.1) h _).trans (State.onlyLoaded_modCtx _ _ _)

/-- CSTAT shows the image. -/
def State.statShown (s : State) (im : Image) : State :=
  ((s.setFld CSTAT_VER im.ver).setFld CSTAT_SEQ im.seq).setFld CSTAT_SUBST (min 65535 im.subst.length)

theorem State.onlyLoaded_statReports (s : State) (im : Image) : State.OnlyLoaded p (s.statShown im) (s.applyStat im) :=
  State.onlyLoaded_each (fun s _ _ => s.onlyLoaded_primReport _ _ _ _) _

theorem State.onlyLoaded_applyStat (s : State) (im : Image) (hstat : p aCSTAT) : State.OnlyLoaded p s (s.applyStat im) :=
  (((s.onlyLoaded_setFld (f := CSTAT_VER) hstat _).setFld (f := CSTAT_SEQ) hstat _).setFld (f := CSTAT_SUBST) hstat _).trans
    (s.onlyLoaded_statReports im)

theorem State.applyStat_ver (s : State) (im : Image) : (s.applyStat im).fld CSTAT_VER = im.ver % 4 := by
  rw [(s.onlyLoaded_statReports (p := fun _ => False) im).fld (f := CSTAT_VER) (fun h => h), State.statShown,
    State.fld_setFld_apart _ _ (by decide), State.fld_setFld_apart _ _ (by decide), State.fld_setFld_same _ _ _ (by decide)]
  rfl

theorem State.onlyLoaded_setKey (s : State) (n : Nat) (k : Option KeySlot) (src : Nat) (hslot : p (aKSLOT n)) :
    State.OnlyLoaded p s (s.setKey n k src) := by
  have hkey : State.OnlyLoaded p s { s with keys := SMap.set (fun _ => none) s.keys n k } :=
    ⟨⟨s.regs, s.ctxs, _, s.stx, s.reports, rfl⟩, fun _ _ => rfl⟩
  cases k with
  | some k => exact ((hkey.setFld (f := KSLOT_LOADED n) hslot _).setFld (f := KSLOT_USE n) hslot _).setFld (f := KSLOT_SRC n) hslot _
  | none => exact ((hkey.setFld (f := KSLOT_LOADED n) hslot _).setFld (f := KSLOT_USE n) hslot _).setFld (f := KSLOT_SRC n) hslot _

theorem State.onlyLoaded_imageKey (s : State) (n : Nat) (blob : List Nat) (hstat : p aKSTAT) (hslot : p (aKSLOT n)) :
    State.OnlyLoaded p s (s.imageKey n blob) := by
  unfold State.imageKey
  split
  · exact (s.onlyLoaded_setFld (f := KSTAT_RES) hstat 0).trans (State.onlyLoaded_setKey _ n _ 0 hslot)
  · exact (s.onlyLoaded_setFld (f := KSTAT_RES) hstat _).trans (State.onlyLoaded_primReport _ _ _ _ _)

theorem State.onlyLoaded_stackInit (s : State) (st : Nat) (hstat : p (aSSTAT st)) : State.OnlyLoaded p s (s.stackInit st) :=
  (s.onlyLoaded_setFld (f := SSTAT_INITD st) hstat 0).trans ⟨⟨_, _, _, _, _, rfl⟩, fun _ _ => rfl⟩

end

/-! ## The accepted image (R493, R502) -/

/-- The records that set up the tables, the fields and the power unit. -/
def State.tablesLoaded (s : State) (im : Image) : State := (((s.applyFields im).applyTables im).applyPlans).applyParams im

/-- The keys of an image. -/
def State.keysLoaded (s : State) (im : Image) : State := s.each im.keys fun s e => s.imageKey e.1 e.2

/-- All that an image's records write. -/
def State.loaded (s : State) (im : Image) : State := (((s.tablesLoaded im).applyCtxs im).applyStat im).keysLoaded im

/-- Addresses that the contexts, CSTAT and keys of an image write. -/
def shownAddr (a : Nat) : Prop := (aHCTXSTAT 0 ≤ a ∧ a ≤ aHCTXSTAT 511) ∨ a = aCSTAT ∨ (aKSTAT ≤ a ∧ a ≤ aKSLOT 31)

/-- Addresses that an image's records write. -/
def loadedAddr (im : Image) (a : Nat) : Prop :=
  (∃ f ∈ im.fields, f.addr = a) ∨ (∃ w ∈ tableWindows, w.1 ≤ a ∧ a < w.2) ∨ (aFPLAN 0 ≤ a ∧ a < aFPLAN 8192) ∨ a = aGLSCALE ∨ a = aPCTL
    ∨ a = aPCFG ∨ shownAddr a

/-- An image whose contexts, keys and tables lie where every image's do. -/
structure Image.InRange (im : Image) : Prop where
  ctxs : ∀ e ∈ im.ctxs, e.1 < 512
  keys : ∀ e ∈ im.keys, e.1 < 32
  tables : ∀ e ∈ im.tables, ∃ w ∈ tableWindows, w.1 ≤ e.1 ∧ e.1 + e.2.length ≤ w.2

theorem tableWindows_aligned : ∀ w ∈ tableWindows, w.1 % 8 = 0 := by decide

section
variable {im : Image}

theorem State.onlyLoaded_tablesLoaded (him : im.InRange) (s : State) : State.OnlyLoaded (loadedAddr im) s (s.tablesLoaded im) := by
  refine (((s.onlyLoaded_applyFields (fun f hf => .inl ⟨f, hf, rfl⟩) ?scale).trans (State.onlyLoaded_applyTables _ ?table ?partner)).trans
    (State.onlyLoaded_applyPlans _ fun a hlo hhi => .inr (.inr (.inl ⟨hlo, hhi⟩)))).trans (State.onlyLoaded_applyParams _ im ?ctl ?cfg)
  case table =>
    intro e he k hk
    obtain ⟨w, hw, hlo, hhi⟩ := him.tables e he
    have halign := tableWindows_aligned w hw
    exact .inr (.inl ⟨w, hw, by omega, by omega⟩)
  case partner =>
    intro n hn
    refine .inr (.inl ⟨(aXPART 0, aXPART 0 + 0x400), by decide, ?_, ?_⟩) <;> simp only [aXPART] <;> omega
  all_goals simp only [loadedAddr, true_or, or_true]

theorem State.onlyLoaded_ctxs (him : im.InRange) (s : State) : State.OnlyLoaded shownAddr s (s.applyCtxs im) := by
  refine s.onlyLoaded_applyCtxs fun e he => .inl ?_
  have := him.ctxs e he
  simp only [aHCTXSTAT]
  omega

theorem State.onlyLoaded_keysLoaded (him : im.InRange) (s : State) :
    State.OnlyLoaded (fun a => aKSTAT ≤ a ∧ a ≤ aKSLOT 31) s (s.keysLoaded im) := by
  refine State.onlyLoaded_each (fun s e he => s.onlyLoaded_imageKey _ _ ?_ ?_) s
  · decide
  · have := him.keys e he
    simp only [aKSTAT, aKSLOT]
    omega

/-- After its tables an image writes what shows it, and its keys. -/
theorem State.onlyLoaded_shown (him : im.InRange) (s : State) : State.OnlyLoaded shownAddr (s.tablesLoaded im) (s.loaded im) :=
  ((State.onlyLoaded_ctxs him _).trans (State.onlyLoaded_applyStat _ im (.inr (.inl rfl)))).trans
    ((State.onlyLoaded_keysLoaded him _).mono fun _ h => .inr (.inr h))

theorem State.onlyLoaded_loaded (him : im.InRange) (s : State) : State.OnlyLoaded (loadedAddr im) s (s.loaded im) :=
  (State.onlyLoaded_tablesLoaded him s).trans ((State.onlyLoaded_shown him s).mono fun _ h => .inr (.inr (.inr (.inr (.inr (.inr h))))))

/-- What a loaded image shows of itself. -/
theorem State.loaded_fld (him : im.InRange) (s : State) :
    (s.loaded im).fld CSTAT_VER = im.ver % 4 ∧ (s.loaded im).fld PCFG_PSUST = im.param 0x0101 2600 % 65536
      ∧ (s.loaded im).fld PCFG_TD = im.param 0x0105 5000 % 65536 := by
  obtain ⟨hsust, htd⟩ := State.applyParams_fld (((s.applyFields im).applyTables im).applyPlans) im
  have hcfg : ¬ shownAddr aPCFG := by simp only [shownAddr, aHCTXSTAT, aPCFG, aCSTAT, aKSTAT, aKSLOT]; omega
  have hstat : ¬ (aKSTAT ≤ aCSTAT ∧ aCSTAT ≤ aKSLOT 31) := by decide
  refine ⟨?_, ?_, ?_⟩
  · exact ((State.onlyLoaded_keysLoaded him _).fld (f := CSTAT_VER) hstat).trans (State.applyStat_ver _ im)
  · exact ((State.onlyLoaded_shown him s).fld (f := PCFG_PSUST) hcfg).trans hsust
  · exact ((State.onlyLoaded_shown him s).fld (f := PCFG_TD) hcfg).trans htd

/-- Whatever it holds, an image's load leaves the start-up where it is. -/
theorem State.loaded_rest (s : State) (im : Image) :
    (s.loaded im).boot = s.boot ∧ (s.loaded im).img = s.img ∧ (s.loaded im).imgNext = s.imgNext := by
  have hall : State.OnlyLoaded (fun _ => True) s (s.loaded im) := by
    refine ((((((s.onlyLoaded_applyFields ?_ ?_).trans (State.onlyLoaded_applyTables _ ?_ ?_)).trans (State.onlyLoaded_applyPlans _ ?_)).trans
      (State.onlyLoaded_applyParams _ im ?_ ?_)).trans (State.onlyLoaded_applyCtxs _ ?_)).trans (State.onlyLoaded_applyStat _ im ?_)).trans
      (State.onlyLoaded_each (fun s e _ => s.onlyLoaded_imageKey _ _ ?_ ?_) _)
    all_goals intros; trivial
  obtain ⟨hboot, himg, hnext, -⟩ := hall.rest
  exact ⟨hboot, himg, hnext⟩

end

end Sys2Proof.Machine
end

section
/-! SUPPORT. The application of an image: stacks begin to be initialised, and every tile is reset and marked (R25, R202, R228, R493, R502). -/

namespace Sys2Proof.Machine

/-! ## Stacks begin to be initialised (R228) -/

/-- A stack not initialised begins to be. -/
def State.initStep (s : State) (st : Nat) : State := if s.flag (SSTAT_INITD st) then s else s.stackInit st

/-- A stack unit as an initialisation begins. -/
def Stack.begun (x : Stack) : Stack := { x with initing := true, ue := [], lost := [], semq := [], mbrun := none }

theorem State.stackU_stackInit (s : State) (st k : Nat) : (s.stackInit st).stackU k = if k = st then (s.stackU st).begun else s.stackU k :=
  SMap.get_set (fun _ => Stack.reset) s.stx st k (s.stackU st).begun

theorem State.flag_stackInit {s : State} {k : Nat} (st : Nat) (h : s.flag (SSTAT_INITD k) = false) : (s.stackInit st).flag (SSTAT_INITD k) = false := by
  have hregs : (s.stackInit st).regs = (s.setFld (SSTAT_INITD st) 0).regs := rfl
  rw [State.flag_congr hregs]
  by_cases hk : k = st
  · rw [hk, State.flag_setFld_same _ _ _ (by decide : 6 + 1 ≤ 64)]; rfl
  · rw [State.flag, State.fld_setFld_other _ _ _ _ (by decide : 6 + 1 ≤ 64) (.inl (by simp only [SSTAT_INITD, aSSTAT]; omega))]
    exact h

/-- Every stack of a list that was not initialised is being so, and none stops being so. -/
theorem State.initing_each (l : List Nat) (s : State) :
    (∀ st ∈ l, s.flag (SSTAT_INITD st) = false → ((s.each l State.initStep).stackU st).initing = true) ∧
      ∀ st, (s.stackU st).initing = true → ((s.each l State.initStep).stackU st).initing = true := by
  induction l generalizing s with
  | nil => exact ⟨nofun, fun _ h => h⟩
  | cons k ks ih =>
    obtain ⟨hnew, hold⟩ := ih (s.initStep k)
    have hkeep : ∀ st, (s.stackU st).initing = true → ((s.initStep k).stackU st).initing = true := by
      intro st h
      unfold State.initStep
      split
      · exact h
      · rw [State.stackU_stackInit]
        split
        · rfl
        · exact h
    refine ⟨fun st hst hflag => ?_, fun st h => hold st (hkeep st h)⟩
    by_cases hk : st = k
    · refine hold st ?_
      rw [State.initStep, ← hk, hflag, if_neg Bool.false_ne_true, State.stackU_stackInit, if_pos rfl]
      rfl
    · refine hnew st ((List.mem_cons.mp hst).resolve_left hk) ?_
      unfold State.initStep
      split
      · exact hflag
      · exact State.flag_stackInit k hflag

/-! ## A tile's reset leaves the start-up where it is -/

/-- Where the start-up stands: its step, the image in force and the image that waits. -/
def State.startUp (s : State) : BootStep × Image × Option Image := (s.boot, s.img, s.imgNext)

theorem State.startUp_setFld (s : State) (f : Fld) (n : Nat) : (s.setFld f n).startUp = s.startUp := rfl

theorem State.startUp_setTile (s : State) (t : Nat) (x : Tile) : (s.setTile t x).startUp = s.startUp := rfl

theorem State.startUp_freshen (s : State) : s.freshen.startUp = s.startUp := rfl

theorem State.startUp_ite {v : BootStep × Image × Option Image} {a b : State} {c : Prop} [Decidable c] (ha : a.startUp = v) (hb : b.startUp = v) :
    (if c then a else b).startUp = v := by
  split
  · exact ha
  · exact hb

theorem State.startUp_txPump (s : State) (p n : Nat) : (s.txPump p n).startUp = s.startUp := by
  induction n generalizing s with
  | zero => rfl
  | succ n ih =>
    unfold State.txPump
    dsimp only
    split
    · rfl
    · split
      · rfl
      · exact ih _

theorem State.startUp_txPacket (s : State) (port : Nat) (p : Pkt) : (s.txPacket port p).startUp = s.startUp := State.startUp_txPump _ _ _

theorem State.startUp_routeOut (s : State) (p : Pkt) : (s.routeOut p).startUp = s.startUp := by
  unfold State.routeOut
  split
  · split
    · exact s.startUp_txPacket _ p
    · rfl
  · rfl

theorem State.startUp_sendPkt (s : State) (p : Pkt) : (s.sendPkt p).startUp = s.startUp := by
  unfold State.sendPkt
  dsimp only
  split
  · rfl
  · exact s.startUp_routeOut _

theorem State.startUp_collOut (s : State) (port : Option Nat) (p : Pkt) : (s.collOut port p).startUp = s.startUp := by
  unfold State.collOut
  split
  · rfl
  · split
    · exact s.startUp_txPacket _ p
    · exact s.startUp_sendPkt p

theorem State.startUp_farWrite (s : State) (src tile kind dst addr : Nat) (bs : List (Nat × Bool)) (dtk : Nat) (dtken : Bool) :
    (s.farWrite src tile kind dst addr bs dtk dtken).2.startUp = s.startUp := by
  unfold State.farWrite
  dsimp only
  split
  · dsimp only
    split
    · exact State.startUp_collOut _ none _
    · exact State.startUp_sendPkt _ _
  · exact State.startUp_sendPkt _ _

theorem State.startUp_farWrites (s : State) (src tile kind dst dtk : Nat) (dtken : Bool) (ps : List (Nat × Nat)) (bs : List (Nat × Bool)) :
    (s.farWrites src tile kind dst dtk dtken ps bs).2.startUp = s.startUp := by
  induction ps generalizing s bs with
  | nil => rfl
  | cons p ps ih => exact (ih _ _).trans (s.startUp_farWrite src tile kind dst p.1 _ dtk _)

theorem State.startUp_bankPut (s : State) (t off : Nat) (b : Nat × Bool) : (s.bankPut t off b).startUp = s.startUp := by
  unfold State.bankPut
  exact State.startUp_ite ((State.startUp_setFld _ _ _).trans (State.startUp_setTile _ _ _)) (State.startUp_setTile _ _ _)

theorem State.startUp_syncPois (s : State) (t : Nat) : (s.syncPois t).startUp = s.startUp := s.startUp_setFld _ _

theorem State.startUp_accWrite (s : State) (t off : Nat) (bs : List (Nat × Bool)) : (s.accWrite t off bs).startUp = s.startUp := by
  unfold State.accWrite
  exact State.startUp_ite rfl ((State.startUp_syncPois _ _).trans (State.startUp_setTile _ _ _))

theorem State.startUp_winWrite (s : State) (t off : Nat) (bs : List (Nat × Bool)) : (s.winWrite t off bs).startUp = s.startUp := by
  unfold State.winWrite
  split
  · exact State.each_same State.startUp (fun s b _ => s.startUp_bankPut t (off + b.2) b.1) _
  · exact s.startUp_accWrite t _ bs

theorem State.startUp_stkPut (s : State) (d n : Nat) (bs : List (Nat × Bool)) : (s.stkPut d n bs).startUp = s.startUp := by
  induction n generalizing s d bs with
  | zero => rfl
  | succ n ih =>
    refine (ih _ _ _).trans ?_
    unfold State.stkPutHalf
    split
    · rfl
    · split <;> rfl

theorem State.startUp_memWrite (s : State) (d : Nat) (bs : List (Nat × Bool)) : (s.memWrite d bs).startUp = s.startUp := by
  unfold State.memWrite
  split
  · exact s.startUp_stkPut d _ bs
  · dsimp only
    split
    · exact (State.startUp_winWrite _ _ _ _).trans (s.startUp_winWrite _ _ _)
    · exact s.startUp_winWrite _ _ _

theorem State.startUp_foliosCut (s : State) (t : Nat) : (s.foliosCut t).startUp = s.startUp :=
  State.each_same State.startUp (fun s _ _ => State.startUp_ite s.startUp_freshen (State.startUp_ite
    (State.startUp_farWrites s.freshen _ _ _ _ _ _ _ _) (State.startUp_ite (State.startUp_memWrite s.freshen _ _) s.startUp_freshen))) s

theorem State.each_onlyPorts {α : Type} {f : State → α → State} {l : List α} (step : ∀ s : State, ∀ x ∈ l, ∃ ps, f s x = { s with ports := ps })
    (s : State) : ∃ ps, s.each l f = { s with ports := ps } := by
  refine foldl_rel (R := fun (s u : State) => ∃ ps, u = { s with ports := ps }) (fun s => ⟨s.ports, rfl⟩) ?_ step s
  rintro s _ _ ⟨_, rfl⟩ ⟨ps, rfl⟩
  exact ⟨ps, rfl⟩

/-- Of posted writes that are dropped, ports and writes alone know (R193). -/
theorem State.dropPosted_eq (s : State) (t : Nat) : ∃ ps ws, s.dropPosted t = { s with ports := ps, writes := ws } := by
  unfold State.dropPosted
  dsimp only
  refine Exists.elim (State.each_onlyPorts (fun s k _ => ?_) s) fun ps h => ⟨ps, _, by rw [h]⟩
  split
  · exact ⟨s.ports, rfl⟩
  · exact ⟨_, rfl⟩

/-- The tile's posted writes and dispatch rows are dropped (R193, R360): ports, writes and streams alone change. -/
theorem State.dropped_eq (s : State) (t : Nat) : ∃ ps ws qs, (s.dropPosted t).dispReset t = { s with ports := ps, writes := ws, streams := qs } := by
  obtain ⟨ps, ws, h⟩ := s.dropPosted_eq t
  exact ⟨ps, ws, _, by rw [h]; rfl⟩

/-- A tile all of whose bytes are being marked. -/
def markedTile : Tile := { Tile.reset with marking := true }

theorem markedTile_xfers : markedTile.xfers = [] := rfl

/-- The tile's registers are at reset, its reads and its place in a halt are gone, and its bank is marked. -/
def State.wiped (s : State) (t : Nat) : State :=
  ({ s with
    regs := SMap.keep (fun a => decide (a < tileBase t + 0x300000) || decide (tileBase (t + 1) ≤ a)) s.regs
    reads := s.reads.filter fun r => r.src != srcOf 0 t
    halt := { s.halt with tiles := s.halt.tiles.filter (· != t), runs := s.halt.runs.filter fun r => r.1 != t } } : State).setTile t
      markedTile

theorem State.tileReset_eq (s : State) (t : Nat) :
    ∃ c, s.tileReset t = ((((s.foliosCut t).dropPosted t).dispReset t).wiped t).tileImage t c := by
  unfold State.tileReset
  generalize ((s.foliosCut t).dropPosted t).dispReset t = v
  exact ⟨_, rfl⟩

/-- The registers of a tile that its partition and its context set. -/
def imageRegs (t : Nat) : List Nat := [aTSCSTAT t, aTSQWTO t, aTSPILL t, aVCTL t]

/-- The settings that a tile takes from its partition. -/
def State.partImage (s : State) (t : Nat) : Option PartCfg → State
  | some p => (s.setFld (TSCSTAT_SIZE t) p.scn).setFld (TSCSTAT_DEPTH t) p.depth
  | none => s

theorem State.tileImage_none (s : State) (t : Nat) : s.tileImage t none = s.partImage t ((s.partOfTile t).bind s.partCfg) := by
  unfold State.tileImage
  cases (s.partOfTile t).bind s.partCfg <;> rfl

theorem State.tileImage_some (s : State) (t : Nat) (k : CtxCfg) : s.tileImage t (some k) =
    (((s.partImage t ((s.partOfTile t).bind s.partCfg)).setFld (TSQWTO_LIMIT t) k.waitTo).setFld (TSPILL_INTERVAL t) k.spill).setFld (VCTL_FTZ t)
      (if k.ftz then 1 else 0) := by
  unfold State.tileImage
  cases (s.partOfTile t).bind s.partCfg <;> rfl

/-- u is s but for registers, and those at addresses in l. -/
def State.OnlySet (l : List Nat) (s u : State) : Prop := (∃ rs, u = { s with regs := rs }) ∧ s.sameRegs u l

theorem State.OnlySet.refl (l : List Nat) (s : State) : State.OnlySet l s s := ⟨⟨s.regs, rfl⟩, s.sameRegs_refl l⟩

theorem State.OnlySet.setFld {l : List Nat} {s u : State} (h : State.OnlySet l s u) {f : Fld} (hf : f.addr ∈ l) (n : Nat) :
    State.OnlySet l s (u.setFld f n) := by
  obtain ⟨⟨rs, rfl⟩, hregs⟩ := h
  exact ⟨⟨_, rfl⟩, State.sameRegs_setFld hregs hf n⟩

theorem imageRegs_mem (t : Nat) : aTSCSTAT t ∈ imageRegs t ∧ aTSQWTO t ∈ imageRegs t ∧ aTSPILL t ∈ imageRegs t ∧ aVCTL t ∈ imageRegs t := by
  simp [imageRegs]

/-- The settings of a tile are registers. -/
theorem State.onlySet_tileImage (s : State) (t : Nat) (c : Option CtxCfg) : State.OnlySet (imageRegs t) s (s.tileImage t c) := by
  obtain ⟨hsc, hwait, hspill, hctl⟩ := imageRegs_mem t
  have hpart : ∀ o, State.OnlySet (imageRegs t) s (s.partImage t o)
    | none => State.OnlySet.refl _ s
    | some _ => ((State.OnlySet.refl _ s).setFld (f := TSCSTAT_SIZE t) hsc _).setFld (f := TSCSTAT_DEPTH t) hsc _
  cases c with
  | none => rw [State.tileImage_none]; exact hpart _
  | some k =>
    rw [State.tileImage_some]
    exact (((hpart _).setFld (f := TSQWTO_LIMIT t) hwait _).setFld (f := TSPILL_INTERVAL t) hspill _).setFld (f := VCTL_FTZ t) hctl _

theorem State.startUp_tileReset (s : State) (t : Nat) : (s.tileReset t).startUp = s.startUp := by
  obtain ⟨c, hc⟩ := s.tileReset_eq t
  obtain ⟨⟨rs, himage⟩, -⟩ := State.onlySet_tileImage ((((s.foliosCut t).dropPosted t).dispReset t).wiped t) t c
  obtain ⟨ps, ws, qs, hdrop⟩ := (s.foliosCut t).dropped_eq t
  rw [hc, himage, hdrop]
  exact s.startUp_foliosCut t

/-! ## What a tile's reset leaves (R77, R145, R202) -/

/-- Address a is one of tile t's registers. -/
def tileReg (t a : Nat) : Prop := tileBase t + 0x300000 ≤ a ∧ a < tileBase (t + 1)

theorem imageRegs_tileReg {t a : Nat} (h : a ∈ imageRegs t) : tileReg t a ∧ a ≠ aTSQSTAT t := by
  simp only [imageRegs, List.mem_cons, List.not_mem_nil, or_false] at h
  simp only [tileReg, tileBase, aTSQSTAT]
  obtain rfl | rfl | rfl | rfl := h <;> simp only [aTSCSTAT, aTSQWTO, aTSPILL, aVCTL] <;> omega

theorem State.reg_wiped (s : State) (t a : Nat) :
    (s.wiped t).reg a = if (decide (a < tileBase t + 0x300000) || decide (tileBase (t + 1) ≤ a)) = true then s.reg a else regReset a :=
  SMap.get_keep regReset (fun a => decide (a < tileBase t + 0x300000) || decide (tileBase (t + 1) ≤ a)) s.regs a

theorem State.reg_wiped_other (s : State) {t a : Nat} (ha : ¬ tileReg t a) : (s.wiped t).reg a = s.reg a := by
  refine (s.reg_wiped t a).trans (if_pos ?_)
  simp only [tileReg] at ha
  simp only [Bool.or_eq_true, decide_eq_true_eq]
  omega

theorem State.reg_wiped_own (s : State) {t a : Nat} (ha : tileReg t a) : (s.wiped t).reg a = regReset a := by
  refine (s.reg_wiped t a).trans (if_neg ?_)
  simp only [tileReg] at ha
  simp only [Bool.or_eq_true, decide_eq_true_eq]
  omega

theorem State.tile_wiped (s : State) (t k : Nat) : (s.wiped t).tile k = if k = t then markedTile else s.tile k := State.tile_setTile _ t k _

/-- The reset of a tile with no transfer in flight: it alone is changed, and it is IDLE. -/
theorem State.tileReset_spec {s : State} {t : Nat} (hx : (s.tile t).xfers = []) :
    (∀ k, (s.tileReset t).tile k = if k = t then markedTile else s.tile k) ∧ (∀ a, ¬ tileReg t a → (s.tileReset t).reg a = s.reg a)
      ∧ (s.tileReset t).reg (aTSQSTAT t) = regReset (aTSQSTAT t) ∧ (s.tileReset t).stk = s.stk ∧ (s.tileReset t).stx = s.stx := by
  have hcut : s.foliosCut t = s := by simp only [State.foliosCut, hx, List.filter_nil]; rfl
  obtain ⟨c, hc⟩ := s.tileReset_eq t
  obtain ⟨ps, ws, qs, hdrop⟩ := s.dropped_eq t
  obtain ⟨⟨rs, himage⟩, hregs⟩ := State.onlySet_tileImage ((((s.foliosCut t).dropPosted t).dispReset t).wiped t) t c
  rw [hcut, hdrop] at himage hregs hc
  have hstat : tileReg t (aTSQSTAT t) := by simp only [tileReg, tileBase, aTSQSTAT]; omega
  refine ⟨fun k => ?_, fun a ha => ?_, ?_, ?_, ?_⟩
  · rw [hc, himage]; exact State.tile_wiped _ t k
  · rw [hc, hregs a fun h => ha (imageRegs_tileReg h).1]; exact State.reg_wiped_other _ ha
  · rw [hc, hregs _ fun h => (imageRegs_tileReg h).2 rfl]; exact State.reg_wiped_own _ hstat
  · rw [hc, himage]; rfl
  · rw [hc, himage]; rfl

theorem State.each_cons {α : Type} (s : State) (x : α) (xs : List α) (f : State → α → State) : s.each (x :: xs) f = (f s x).each xs f := rfl

/-- The resets of a list of tiles: each of them is marked and IDLE, and nothing else is changed. -/
theorem State.tileResets_spec (l : List Nat) {s : State} (hx : ∀ t, (s.tile t).xfers = []) :
    (∀ t, (s.each l State.tileReset).tile t = if t ∈ l then markedTile else s.tile t)
      ∧ (∀ a, (∀ t ∈ l, ¬ tileReg t a) → (s.each l State.tileReset).reg a = s.reg a)
      ∧ (∀ t ∈ l, (s.each l State.tileReset).reg (aTSQSTAT t) = regReset (aTSQSTAT t))
      ∧ (s.each l State.tileReset).stk = s.stk ∧ (s.each l State.tileReset).stx = s.stx := by
  induction l generalizing s with
  | nil => exact ⟨fun _ => rfl, fun _ _ => rfl, nofun, rfl, rfl⟩
  | cons k ks ih =>
    obtain ⟨htile, hregs, hstat, hstk, hstx⟩ := State.tileReset_spec (hx k)
    have hx' : ∀ t, ((s.tileReset k).tile t).xfers = [] := by
      intro t
      rw [htile]
      split
      · exact markedTile_xfers
      · exact hx t
    obtain ⟨htile', hregs', hstat', hstk', hstx'⟩ := ih hx'
    rw [State.each_cons]
    refine ⟨fun t => ?_, fun a ha => ?_, fun t ht => ?_, hstk'.trans hstk, hstx'.trans hstx⟩
    · refine (htile' t).trans ?_
      by_cases hks : t ∈ ks
      · rw [if_pos hks, if_pos (List.mem_cons_of_mem _ hks)]
      · rw [if_neg hks, htile]
        simp only [List.mem_cons, hks, or_false]
    · exact (hregs' a fun t ht => ha t (List.mem_cons_of_mem _ ht)).trans (hregs a (ha k List.mem_cons_self))
    · by_cases hks : t ∈ ks
      · exact hstat' t hks
      · obtain rfl : t = k := (List.mem_cons.mp ht).resolve_right hks
        refine (hregs' _ fun j hj hreg => ?_).trans hstat
        have hne : j ≠ t := fun e => hks (e ▸ hj)
        simp only [tileReg, tileBase, aTSQSTAT] at hreg
        omega

/-! ## The application (R493, R502) -/

/-- The image takes effect. -/
def State.applyBegun (s : State) (im : Image) : State := { s with img := im, imgNext := none, boot := .applying }

/-- Every stack there is and that is not initialised begins to be. -/
def State.stacksBegun (s : State) : State := s.each (List.range (if s.half1Gone then 4 else 8)) State.initStep

/-- Every tile there is is reset. -/
def State.tilesReset (s : State) : State := s.each (List.range (if s.half1Gone then 1024 else 2048)) State.tileReset

theorem exec_imageApply {s : State} {im : Image} (hboot : s.boot = .accepted) (hdone : s.bridgeDone = true) (hnext : s.imgNext = some im) :
    exec .imageApply s = .next (((s.applyBegun (if s.half1Gone then im.half0 else im)).loaded
      (if s.half1Gone then im.half0 else im)).stacksBegun).tilesReset := by
  change execImageApply s = _
  unfold execImageApply State.tilesReset State.stacksBegun State.loaded State.keysLoaded State.tablesLoaded State.applyBegun State.initStep
  rw [hboot, hdone, hnext]

theorem State.startUp_stacksBegun (s : State) : s.stacksBegun.startUp = s.startUp := by
  refine State.each_same State.startUp (fun s st _ => ?_) s
  unfold State.initStep
  split <;> rfl

theorem State.startUp_tilesReset (s : State) : s.tilesReset.startUp = s.startUp :=
  State.each_same State.startUp (fun s t _ => s.startUp_tileReset t) s

/-- After an image's application it is in force, and none waits. -/
theorem State.applied_startUp (s : State) (im : Image) :
    (((s.applyBegun im).loaded im).stacksBegun.tilesReset).startUp = (.applying, im, none) := by
  obtain ⟨hboot, himg, hnext⟩ := (s.applyBegun im).loaded_rest im
  rw [State.startUp_tilesReset, State.startUp_stacksBegun, State.startUp, hboot, himg, hnext]
  rfl

/-- The addresses of SSTAT. -/
def stackStat (a : Nat) : Prop := ∃ st < 8, a = aSSTAT st

theorem State.onlyLoaded_stacksBegun (s : State) : State.OnlyLoaded stackStat s s.stacksBegun := by
  refine State.onlyLoaded_each (fun s st hst => ?_) s
  have hst : st < 8 := by
    have := List.mem_range.mp hst
    split at this <;> omega
  unfold State.initStep
  split
  · exact State.OnlyLoaded.refl _ s
  · exact s.onlyLoaded_stackInit st ⟨st, hst, rfl⟩

/-- A register of the device, above every tile's window. -/
theorem not_tileReg_of_high {t a : Nat} (ht : t < 2048) (ha : 0x020000000000 ≤ a) : ¬ tileReg t a := by
  simp only [tileReg, tileBase]
  omega

end Sys2Proof.Machine
end

section
/-! SUPPORT. The end of an image's application: ports train, the reference locks, the governor leaves Boot, and the first contexts take their
partitions (R37, R253, R427, R458, R467, R504, R521). -/

namespace Sys2Proof.Machine

/-! ## Contexts take their partitions (R458, R467, R468) -/

/-- Registers that the scheduler writes: tiles' settings, GCTL, and what HCTXSTAT and HPSTAT show. -/
def takenAddr (a : Nat) : Prop :=
  a < 0x020000000000 ∨ a = aGCTL ∨ (aHCTXSTAT 0 ≤ a ∧ a ≤ aHCTXSTAT 511) ∨ (aHPSTAT 0 ≤ a ∧ a ≤ aHPSTAT 63)

/-- u is s but for switches, occupants, the hold of determinism and registers that the scheduler writes; of GCTL it leaves the modes. -/
def State.OnlyTaken (s u : State) : Prop :=
  (∃ rs sw oc dh, u = { s with regs := rs, switches := sw, occup := oc, detHold := dh }) ∧ (∀ a, ¬ takenAddr a → u.reg a = s.reg a)
    ∧ u.flag GCTL_PACED = s.flag GCTL_PACED ∧ u.flag GCTL_PEAKEN = s.flag GCTL_PEAKEN

/-- Every partition's occupant is a context there can be. -/
def State.occupOk (s : State) : Prop := ∀ p o, s.occupant p = some o → o < 512

/-- From a state whose numbers are those of an image, contexts alone take partitions, and the occupants stay contexts there can be. -/
def State.Takes (s u : State) : Prop := s.numbersOk → s.occupOk → State.OnlyTaken s u ∧ u.occupOk

section
variable {s u v : State}

theorem State.OnlyTaken.refl (s : State) : State.OnlyTaken s s := ⟨⟨s.regs, s.switches, s.occup, s.detHold, rfl⟩, fun _ _ => rfl, rfl, rfl⟩

theorem State.OnlyTaken.trans (h : State.OnlyTaken s u) (k : State.OnlyTaken u v) : State.OnlyTaken s v := by
  obtain ⟨⟨_, _, _, _, rfl⟩, hregs, hpaced, hpeak⟩ := h
  obtain ⟨⟨rs, sw, oc, dh, rfl⟩, hregs', hpaced', hpeak'⟩ := k
  exact ⟨⟨rs, sw, oc, dh, rfl⟩, fun a ha => (hregs' a ha).trans (hregs a ha), hpaced'.trans hpaced, hpeak'.trans hpeak⟩

theorem State.OnlyTaken.numbersOk (h : State.OnlyTaken s u) (hs : s.numbersOk) : u.numbersOk := by
  obtain ⟨⟨_, _, _, _, rfl⟩, -⟩ := h
  exact hs

theorem State.onlyTaken_setFld (s : State) {f : Fld} (hf : takenAddr f.addr) (hctl : f.addr ≠ aGCTL) (n : Nat) :
    State.OnlyTaken s (s.setFld f n) := by
  have hflag : ∀ g : Fld, g.addr = aGCTL → (s.setFld f n).flag g = s.flag g := fun g hg =>
    State.flag_of_reg (s.reg_setFld_other f n _ (by rw [hg]; exact fun e => hctl e.symm))
  exact ⟨⟨_, s.switches, s.occup, s.detHold, rfl⟩, fun a ha => s.reg_setFld_other f n a fun e => ha (e ▸ hf), hflag _ rfl, hflag _ rfl⟩

theorem State.onlyTaken_syncDetm (s : State) : State.OnlyTaken s s.syncDetm :=
  ⟨⟨_, s.switches, s.occup, s.detHold, rfl⟩, fun a ha => s.reg_setFld_other _ _ a fun e => ha (.inr (.inl e)),
    s.flag_setFld_apart _ (by decide), s.flag_setFld_apart _ (by decide)⟩

theorem State.onlyTaken_setSwitch (s : State) (part : Nat) (w : Switch) : State.OnlyTaken s (s.setSwitch part w) :=
  ⟨⟨s.regs, _, s.occup, s.detHold, rfl⟩, fun _ _ => rfl, rfl, rfl⟩

theorem State.occup_setFld (s : State) (f : Fld) (n : Nat) : (s.setFld f n).occup = s.occup := rfl

theorem State.occup_ctxShow (s : State) (c : Nat) : (s.ctxShow c).occup = s.occup := s.occup_setFld _ _

theorem State.onlyTaken_ctxShow (s : State) {c : Nat} (hc : c < 512) : State.OnlyTaken s (s.ctxShow c) := by
  refine s.onlyTaken_setFld (f := HCTXSTAT_STATE c) ?_ ?_ _ <;>
    simp only [HCTXSTAT_STATE, takenAddr, aHCTXSTAT, aHPSTAT, aGCTL] <;> omega

/-- A partition's holder is shown. -/
def State.heldBy (s : State) (part n : Nat) : State := (s.setFld (HPSTAT_HELD part) 1).setFld (HPSTAT_CUR part) n

theorem State.occup_heldBy (s : State) (part n : Nat) : (s.heldBy part n).occup = s.occup := (State.occup_setFld _ _ _).trans (s.occup_setFld _ _)

theorem takenAddr_HPSTAT {part : Nat} (hp : part < 64) : takenAddr (aHPSTAT part) ∧ aHPSTAT part ≠ aGCTL := by
  simp only [takenAddr, aHPSTAT, aHCTXSTAT, aGCTL]
  omega

theorem State.onlyTaken_heldBy (s : State) {part : Nat} (hp : part < 64) (n : Nat) : State.OnlyTaken s (s.heldBy part n) := by
  obtain ⟨htaken, hctl⟩ := takenAddr_HPSTAT hp
  exact (s.onlyTaken_setFld (f := HPSTAT_HELD part) htaken hctl 1).trans (State.onlyTaken_setFld _ (f := HPSTAT_CUR part) htaken hctl n)

theorem State.onlyTaken_tileImage (s : State) {t : Nat} (ht : t < 2048) (c : Option CtxCfg) : State.OnlyTaken s (s.tileImage t c) := by
  obtain ⟨⟨rs, hrs⟩, hregs⟩ := s.onlySet_tileImage t c
  have hlow : ∀ a ∈ imageRegs t, a < 0x020000000000 := by
    intro a ha
    have := (imageRegs_tileReg ha).1
    simp only [tileReg, tileBase] at this
    omega
  have hctl : aGCTL ∉ imageRegs t := fun h => absurd (hlow _ h) (by decide)
  exact ⟨⟨rs, s.switches, s.occup, s.detHold, hrs⟩, fun a ha => hregs a fun h => ha (.inl (hlow a h)),
    State.flag_of_sameRegs hregs (f := GCTL_PACED) hctl, State.flag_of_sameRegs hregs (f := GCTL_PEAKEN) hctl⟩

/-- The first context takes a partition whose tiles wait for it. -/
def State.firstTakes (s : State) (part n : Nat) : State :=
  { s with occup := SMap.set (fun _ => none) s.occup part (some n), detHold := false }

theorem State.ctxTake_eq (s : State) (part n : Nat) : s.ctxTake part n = match s.occupant part with
    | none => if s.tilesReady part n then (((s.firstTakes part n).heldBy part n).syncDetm).ctxShow n else (s.setSwitch part (.restoring n)).ctxShow n
    | some o => if o = n then (s.heldBy part n).ctxShow n else ((s.setSwitch part (.draining n)).ctxShow o).ctxShow n := by
  unfold State.ctxTake
  cases s.occupant part <;> rfl

theorem State.firstTakes_occupOk {part n : Nat} (hn : n < 512) (h : s.occupOk) : (s.firstTakes part n).occupOk := by
  intro p o ho
  have hget : (s.firstTakes part n).occupant p = if p = part then some n else s.occupant p := SMap.get_set (fun _ => none) s.occup part p (some n)
  rw [hget] at ho
  split at ho
  · obtain rfl := Option.some.inj ho
    exact hn
  · exact h p o ho

theorem State.occupOk_congr (hocc : u.occup = s.occup) (hok : s.occupOk) : u.occupOk :=
  fun p o ho => hok p o (by rw [State.occupant, ← hocc]; exact ho)

/-- A step that leaves the occupants. -/
theorem State.OnlyTaken.takes (h : State.OnlyTaken s u) (hocc : u.occup = s.occup) : State.Takes s u :=
  fun _ hok => ⟨h, State.occupOk_congr hocc hok⟩

theorem State.Takes.refl (s : State) : State.Takes s s := (State.OnlyTaken.refl s).takes rfl

theorem State.Takes.trans (h : State.Takes s u) (k : State.Takes u v) : State.Takes s v := by
  intro hnum hok
  obtain ⟨honly, hok'⟩ := h hnum hok
  obtain ⟨honly', hok''⟩ := k (honly.numbersOk hnum) hok'
  exact ⟨honly.trans honly', hok''⟩

theorem State.takes_each {α : Type} {f : State → α → State} {l : List α} (step : ∀ s, ∀ x ∈ l, State.Takes s (f s x)) (s : State) :
    State.Takes s (s.each l f) :=
  foldl_rel State.Takes.refl State.Takes.trans step s

theorem State.takes_ctxTake (s : State) {part n : Nat} (hp : part < 64) (hn : n < 512) : State.Takes s (s.ctxTake part n) := by
  rw [State.ctxTake_eq]
  cases hocc : s.occupant part with
  | none =>
    dsimp only
    split
    · have hocc : ((((s.firstTakes part n).heldBy part n).syncDetm).ctxShow n).occup = (s.firstTakes part n).occup :=
        ((State.occup_ctxShow _ _).trans (State.occup_setFld _ GCTL_DETMF _)).trans (State.occup_heldBy _ _ _)
      refine fun _ hok => ⟨?_, State.occupOk_congr hocc (State.firstTakes_occupOk hn hok)⟩
      have hfirst : State.OnlyTaken s (s.firstTakes part n) := 
        ⟨⟨s.regs, s.switches, _, _, rfl⟩, fun _ _ => rfl, State.flag_congr rfl _, State.flag_congr rfl _⟩
      exact ((hfirst.trans (State.onlyTaken_heldBy _ hp n)).trans (State.onlyTaken_syncDetm _)).trans (State.onlyTaken_ctxShow _ hn)
    · exact ((s.onlyTaken_setSwitch part _).trans (State.onlyTaken_ctxShow _ hn)).takes (State.occup_ctxShow (s.setSwitch part _) n)
  | some o =>
    dsimp only
    split
    · exact ((s.onlyTaken_heldBy hp n).trans (State.onlyTaken_ctxShow _ hn)).takes ((State.occup_ctxShow _ _).trans (s.occup_heldBy part n))
    · intro hnum hok
      exact (((s.onlyTaken_setSwitch part _).trans (State.onlyTaken_ctxShow _ (hok part o hocc))).trans (State.onlyTaken_ctxShow _ hn)).takes
        ((State.occup_ctxShow _ _).trans (State.occup_ctxShow _ _)) hnum hok

theorem State.ctx_of_nextReady {part n : Nat} (hnum : s.numbersOk) (h : s.nextReady part = some n) : n < 512 := by
  have hmem : n ∈ s.ctxsOf part := by
    have := List.mem_of_find?_eq_some h
    simp only [List.mem_append, List.mem_filter] at this
    obtain h | h := this <;> exact h.1
  simp only [State.ctxsOf, List.mem_map, List.mem_filter] at hmem
  obtain ⟨e, ⟨he, -⟩, rfl⟩ := hmem
  exact hnum.2 e he

theorem State.ctx_of_curCtx {part c : Nat} (h : s.curCtx part = some c) : c < 512 := by
  unfold State.curCtx at h
  split at h
  · obtain rfl := Option.some.inj h
    exact s.fld_lt (HPSTAT_CUR part)
  · cases h

/-- A partition whose holder is no longer ready loses it (R467). -/
def State.yields (s : State) (part : Nat) : State := match s.curCtx part with
  | some c => if s.ctxReady c then s else (s.setFld (HPSTAT_HELD part) 0).ctxShow c
  | none => s

theorem State.sched_eq (s : State) (part : Nat) : s.sched part =
    if s.switchAt part != .none || s.parked then s
    else if (s.yields part).flag (HPSTAT_HELD part) then s.yields part
    else match (s.yields part).nextReady part with
      | some n => (s.yields part).ctxTake part n
      | none => s.yields part := by
  unfold State.sched State.yields
  rfl

theorem State.takes_yields (s : State) {part : Nat} (hp : part < 64) : State.Takes s (s.yields part) := by
  obtain ⟨htaken, hctl⟩ := takenAddr_HPSTAT hp
  unfold State.yields
  split
  next c hc =>
    split
    · exact State.Takes.refl s
    · exact ((s.onlyTaken_setFld (f := HPSTAT_HELD part) htaken hctl 0).trans (State.onlyTaken_ctxShow _ (State.ctx_of_curCtx hc))).takes
        ((State.occup_ctxShow _ _).trans (s.occup_setFld _ _))
  next => exact State.Takes.refl s

theorem State.takes_sched (s : State) {part : Nat} (hp : part < 64) : State.Takes s (s.sched part) := by
  rw [State.sched_eq]
  split
  · exact State.Takes.refl s
  · split
    · exact s.takes_yields hp
    · split
      next n hn =>
        refine (s.takes_yields hp).trans fun hnum hok => ?_
        exact State.takes_ctxTake _ hp (State.ctx_of_nextReady hnum hn) hnum hok
      next => exact s.takes_yields hp

theorem State.takes_ownTiles (s : State) (part : Nat) : State.Takes s (s.ownTiles part) := by
  unfold State.ownTiles
  split
  · exact State.Takes.refl s
  · split
    next k hk =>
      refine State.takes_each (fun s t ht => ?_) s
      have ht := of_decide_eq_true (List.mem_filter.mp ht).2
      refine (s.onlyTaken_tileImage ht (some k)).takes ?_
      obtain ⟨⟨rs, hrs⟩, -⟩ := s.onlySet_tileImage t (some k)
      rw [hrs]
    next => exact State.Takes.refl s

end

/-- Tiles take their owners' settings, contexts are shown, and ready ones take their partitions. -/
def State.ctxsStarted (s : State) : State :=
  let s := s.each s.img.parts fun s e => s.ownTiles e.1
  let s := s.each s.img.ctxs fun s e => s.ctxShow e.1
  s.each s.img.parts fun s e => s.sched e.1

theorem State.onlyTaken_ctxsStarted {s : State} (hnum : s.numbersOk) (hok : s.occupOk) : State.OnlyTaken s s.ctxsStarted := by
  obtain ⟨h1, hok1⟩ := s.takes_each (l := s.img.parts) (f := fun s e => s.ownTiles e.1) (fun s e _ => s.takes_ownTiles e.1) hnum hok
  have hnum1 := h1.numbersOk hnum
  obtain ⟨h2, hok2⟩ := State.takes_each (f := fun s (e : Nat × CtxCfg) => s.ctxShow e.1)
    (fun s e he => (s.onlyTaken_ctxShow (hnum1.2 e he)).takes (s.occup_ctxShow _)) _ hnum1 hok1
  have hnum2 := h2.numbersOk hnum1
  obtain ⟨h3, -⟩ := State.takes_each (f := fun s (e : Nat × PartCfg) => s.sched e.1) (fun s e he => s.takes_sched (hnum2.1 e he)) _ hnum2 hok2
  exact (h1.trans h2).trans h3

/-! ## Ports train (R253, R525) -/

/-- The image enables port p. -/
def State.portEn (s : State) (p : Nat) : Bool := ((s.img.mports.find? fun e => e.1 == p).map fun e => (e.2 : MPortCfg).en).getD false

/-- One port trains, or is DISABLED. -/
def State.trainStep (s : State) (p : Nat) : State :=
  if s.portEn p && !s.flag (FPCTL_DISABLE p) then s.portElec p else s.setFld (FPSTAT_STATE p) 0

/-- The state that a port is shown in. -/
def State.trainState (s : State) (p : Nat) : Nat := if s.portEn p && !s.flag (FPCTL_DISABLE p) then (if s.pinsOff then 6 else 2) else 0

/-- The addresses of FPSTAT. -/
def portStats : List Nat := (List.range 8).map aFPSTAT

/-- u is s but for ports and what FPSTAT shows. -/
def State.OnlyTrained (s u : State) : Prop := (∃ rs ps, u = { s with regs := rs, ports := ps }) ∧ s.sameRegs u portStats

section
variable {s u v : State} {p q : Nat}

theorem State.OnlyTrained.refl (s : State) : State.OnlyTrained s s := ⟨⟨s.regs, s.ports, rfl⟩, s.sameRegs_refl _⟩

theorem State.OnlyTrained.trans (h : State.OnlyTrained s u) (k : State.OnlyTrained u v) : State.OnlyTrained s v := by
  obtain ⟨⟨_, _, rfl⟩, hregs⟩ := h
  obtain ⟨⟨rs, ps, rfl⟩, hregs'⟩ := k
  exact ⟨⟨rs, ps, rfl⟩, State.sameRegs_trans hregs hregs'⟩

theorem State.onlyTrained_setFld (s : State) {f : Fld} (hp : p < 8) (hf : f.addr = aFPSTAT p) (n : Nat) : State.OnlyTrained s (s.setFld f n) :=
  ⟨⟨_, s.ports, rfl⟩, State.sameRegs_setFld (s.sameRegs_refl _) (by rw [hf]; exact List.mem_map_of_mem (List.mem_range.mpr hp)) n⟩

theorem State.OnlyTrained.modPort (h : State.OnlyTrained s u) (p : Nat) (f : Port → Port) : State.OnlyTrained s (u.modPort p f) :=
  h.trans ⟨⟨u.regs, _, rfl⟩, u.sameRegs_refl _⟩

/-- The port's speed, where a fallback is selected. -/
def State.speedShown (s : State) (p : Nat) : State := if (s.port p).fallback then s.setFld (FPSTAT_SPEED p) 1 else s

theorem State.portElec_eq (s : State) (p : Nat) : s.portElec p =
    ((s.speedShown p).setFld (FPSTAT_STATE p) (if (s.speedShown p).pinsOff then 6 else 2)).modPort p Port.clear := rfl

theorem State.onlyTrained_speedShown (s : State) (hp : p < 8) : State.OnlyTrained s (s.speedShown p) := by
  unfold State.speedShown
  split
  · exact s.onlyTrained_setFld (f := FPSTAT_SPEED p) hp rfl 1
  · exact State.OnlyTrained.refl s

theorem State.onlyTrained_trainStep (s : State) (hp : p < 8) : State.OnlyTrained s (s.trainStep p) := by
  unfold State.trainStep
  split
  · rw [State.portElec_eq]
    exact ((s.onlyTrained_speedShown hp).trans (State.onlyTrained_setFld _ (f := FPSTAT_STATE p) hp rfl _)).modPort p _
  · exact s.onlyTrained_setFld (f := FPSTAT_STATE p) hp rfl 0

theorem not_portStat_FPCTL (p : Nat) : aFPCTL p ∉ portStats := by
  simp only [portStats, List.mem_map, List.mem_range, aFPSTAT, aFPCTL]
  omega

/-- How a port is to be trained does not hang on what other ports show. -/
theorem State.OnlyTrained.trainState (h : State.OnlyTrained s u) (p : Nat) : u.trainState p = s.trainState p := by
  obtain ⟨⟨rs, ps, hu⟩, hregs⟩ := h
  have hen : u.portEn p = s.portEn p := by rw [hu]; rfl
  have hpins : u.pinsOff = s.pinsOff := by rw [hu]; rfl
  rw [State.trainState, State.trainState, hen, hpins, State.flag_of_sameRegs hregs (f := FPCTL_DISABLE p) (not_portStat_FPCTL p)]

theorem State.trainStep_same (s : State) (hp : p < 8) : (s.trainStep p).fld (FPSTAT_STATE p) = s.trainState p := by
  have hw : ∀ v < 8, v % 2 ^ (FPSTAT_STATE p).w = v := fun v hv => Nat.mod_eq_of_lt hv
  have hfit : (FPSTAT_STATE p).lo + (FPSTAT_STATE p).w ≤ 64 := by decide +revert
  unfold State.trainStep State.trainState
  split
  · have hpins : (s.speedShown p).pinsOff = s.pinsOff := by
      obtain ⟨⟨rs, ps, hu⟩, -⟩ := s.onlyTrained_speedShown hp
      rw [hu]; rfl
    rw [State.portElec_eq, hpins]
    refine (State.fld_setFld_same _ (FPSTAT_STATE p) _ hfit).trans (hw _ ?_)
    split <;> omega
  · exact (State.fld_setFld_same _ (FPSTAT_STATE p) _ hfit).trans (hw _ (by omega))

theorem State.trainStep_other (s : State) (h : p ≠ q) : (s.trainStep q).fld (FPSTAT_STATE p) = s.fld (FPSTAT_STATE p) := by
  have haddr : aFPSTAT p ≠ aFPSTAT q := by simp only [aFPSTAT]; omega
  have hset : ∀ (v : State) (f : Fld) n, f.addr = aFPSTAT q → (v.setFld f n).fld (FPSTAT_STATE p) = v.fld (FPSTAT_STATE p) := fun v f n hf =>
    State.fld_of_reg (f := FPSTAT_STATE p) (v.reg_setFld_other f n _ (by rw [hf]; exact haddr))
  unfold State.trainStep
  split
  · rw [State.portElec_eq]
    refine (hset _ (FPSTAT_STATE q) _ rfl).trans ?_
    unfold State.speedShown
    split
    · exact hset _ (FPSTAT_SPEED q) _ rfl
    · rfl
  · exact hset _ (FPSTAT_STATE q) _ rfl

/-- Ports of a list train: each of them is shown as the image and FPCTL direct. -/
theorem State.train_each (l : List Nat) (hl : ∀ p ∈ l, p < 8) (s : State) :
    State.OnlyTrained s (s.each l State.trainStep) ∧ (∀ p ∈ l, (s.each l State.trainStep).fld (FPSTAT_STATE p) = s.trainState p)
      ∧ ∀ p, p ∉ l → (s.each l State.trainStep).fld (FPSTAT_STATE p) = s.fld (FPSTAT_STATE p) := by
  induction l generalizing s with
  | nil => exact ⟨State.OnlyTrained.refl s, nofun, fun _ _ => rfl⟩
  | cons k ks ih =>
    obtain ⟨honly, hin, hout⟩ := ih (fun p hp => hl p (List.mem_cons_of_mem _ hp)) (s.trainStep k)
    have hstep := s.onlyTrained_trainStep (hl k List.mem_cons_self)
    rw [State.each_cons]
    refine ⟨hstep.trans honly, fun p hp => ?_, fun p hp => ?_⟩
    · by_cases hks : p ∈ ks
      · rw [hin p hks, hstep.trainState]
      · obtain rfl : p = k := (List.mem_cons.mp hp).resolve_right hks
        rw [hout p hks, s.trainStep_same (hl p List.mem_cons_self)]
    · obtain ⟨hne, hks⟩ := not_or.mp (List.mem_cons.not.mp hp)
      rw [hout p hks, s.trainStep_other hne]

theorem State.portsTrain_spec (s : State) :
    State.OnlyTrained s s.portsTrain ∧ ∀ p < 8, s.portsTrain.fld (FPSTAT_STATE p) = s.trainState p := by
  obtain ⟨honly, hin, -⟩ := State.train_each (List.range 8) (fun p hp => List.mem_range.mp hp) s
  exact ⟨honly, fun p hp => hin p (List.mem_range.mpr hp)⟩

/-- A port that the image enables trains, unless FPCTL disables it or its pins are the TAP's. -/
theorem State.trainState_enabled {k : MPortCfg} (hk : s.img.mports.find? (fun e => e.1 == p) = some (p, k)) (hen : k.en = true)
    (hdis : s.flag (FPCTL_DISABLE p) = false) (hpins : s.pinsOff = false) : s.trainState p = 2 := by
  simp [State.trainState, State.portEn, hk, hen, hdis, hpins]

/-- Any other port is DISABLED. -/
theorem State.trainState_disabled (h : (∀ k, s.img.mports.find? (fun e => e.1 == p) = some (p, k) → k.en = false) ∨ s.flag (FPCTL_DISABLE p) = true) :
    s.trainState p = 0 := by
  refine if_neg ?_
  simp only [Bool.and_eq_true, Bool.not_eq_true', not_and, Bool.not_eq_false]
  intro hen
  refine h.resolve_left fun hno => ?_
  unfold State.portEn at hen
  cases hfind : s.img.mports.find? fun e => e.1 == p with
  | none => rw [hfind] at hen; cases hen
  | some e =>
    obtain ⟨n, k⟩ := e
    have hn : n = p := by simpa using List.find?_some hfind
    rw [hfind] at hen
    have hk := hno k (by rw [hfind, hn])
    exact Bool.false_ne_true (hk.symm.trans hen)

end

/-! ## The reference's lock, the governor and the inputs of the halt (R37, R521) -/

/-- A reference takes its lock; any other device has its source port. -/
def State.timeTaken (s : State) : State :=
  (if s.img.timeRef then (s.setFld TBSTAT_REF 1).setFld TBSTAT_LOCK 1 else s.sourcePort).showLock

/-- The governor leaves Boot with full credit. -/
def State.governed (s : State) : State :=
  let s := { s with pow := { s.pow with credit := 200000 } }.setFld PCREDIT_CREDIT 2000
  s.setFld PSTAT_MODE s.modeNow

/-- Inputs of the halt that differ are noted. -/
def State.inputsNoted (s : State) : State :=
  if s.fld PHALT_INA != s.fld PHALT_INB then { s with halt := { s.halt with since := some s.now } } else s

theorem exec_imageApplied {s : State} (hboot : s.boot = .applying) (hbusy : s.applyBusy = false) :
    exec .imageApplied s =
      .next ({ s with boot := .up, dogAt := s.clk } : State).portsTrain.timeTaken.governed.inputsNoted.ctxsStarted := by
  have hno : ¬ (s.boot ≠ .applying ∨ s.applyBusy = true) := by simp [hboot, hbusy]
  change execImageApplied s = _
  unfold execImageApplied
  rw [if_neg hno]
  refine congrArg Host.Outcome.next ?_
  dsimp only
  generalize State.portsTrain _ = v
  unfold State.ctxsStarted State.inputsNoted State.governed State.timeTaken
  dsimp only

end Sys2Proof.Machine
end

section
/-! SUPPORT. What the parts of an image's application keep, and O56. -/

namespace Sys2Proof.Machine

/-! ## The stages of the end of the application -/

theorem State.modeNow_lt (s : State) : s.modeNow < 8 := by
  unfold State.modeNow
  split_ifs <;> omega

theorem State.modeNow_congr {s u : State} (hboot : u.boot = s.boot) (hpark : u.flag PCTL_PARK = s.flag PCTL_PARK)
    (hpaced : u.flag GCTL_PACED = s.flag GCTL_PACED) (hpeak : u.flag GCTL_PEAKEN = s.flag GCTL_PEAKEN) (heff : u.flag PCTL_EFF = s.flag PCTL_EFF) :
    u.modeNow = s.modeNow := by
  rw [State.modeNow, State.modeNow, hboot, hpark, hpaced, hpeak, heff]

theorem State.timeTaken_only (s : State) :
    (∃ rs fr, s.timeTaken = { s with regs := rs, fresh := fr }) ∧ s.sameRegs s.timeTaken [aTBSTAT, aGSTAT] := by
  have hshow : ∀ v : State, (∃ rs fr, v = { s with regs := rs, fresh := fr }) → s.sameRegs v [aTBSTAT, aGSTAT] →
      (∃ rs fr, v.showLock = { s with regs := rs, fresh := fr }) ∧ s.sameRegs v.showLock [aTBSTAT, aGSTAT] := by
    rintro v ⟨rs, fr, rfl⟩ hregs
    exact ⟨⟨_, fr, rfl⟩, State.sameRegs_setFld hregs (by decide) _⟩
  unfold State.timeTaken
  split
  · exact hshow _ ⟨_, s.fresh, rfl⟩ (State.sameRegs_setFld (State.sameRegs_setFld (s.sameRegs_refl _) (by decide) _) (by decide) _)
  · unfold State.sourcePort
    split
    · exact hshow s ⟨s.regs, s.fresh, rfl⟩ (s.sameRegs_refl _)
    · exact hshow _ ⟨_, _, rfl⟩ (State.sameRegs_setFld (f := TBSTAT_SRCPORT) (s.sameRegs_refl _) (by decide) _)

/-- GSTAT.TBLOCK copies TBSTAT.LOCK. -/
theorem State.showLock_spec (s : State) :
    s.showLock.flag TBSTAT_LOCK = s.flag TBSTAT_LOCK ∧ s.showLock.flag TBSTAT_REF = s.flag TBSTAT_REF
      ∧ s.showLock.flag GSTAT_TBLOCK = s.flag TBSTAT_LOCK := by
  refine ⟨s.flag_setFld_apart _ (by decide), s.flag_setFld_apart _ (by decide), ?_⟩
  rw [State.showLock, State.flag_setFld_same _ _ _ (by decide)]
  exact congrArg (· != 0) (Nat.mod_eq_of_lt (s.fld_lt TBSTAT_LOCK))

theorem State.timeTaken_ref {s : State} (href : s.img.timeRef = true) :
    s.timeTaken.flag TBSTAT_LOCK = true ∧ s.timeTaken.flag TBSTAT_REF = true ∧ s.timeTaken.flag GSTAT_TBLOCK = true := by
  obtain ⟨hlock, href', htb⟩ := ((s.setFld TBSTAT_REF 1).setFld TBSTAT_LOCK 1).showLock_spec
  have hset : ((s.setFld TBSTAT_REF 1).setFld TBSTAT_LOCK 1).flag TBSTAT_LOCK = true := State.flag_setFld_same _ _ _ (by decide)
  rw [State.timeTaken, if_pos href, hlock, href', htb]
  refine ⟨hset, ?_, hset⟩
  rw [State.flag_setFld_apart _ _ (by decide), State.flag_setFld_same _ _ _ (by decide)]
  rfl

theorem State.timeTaken_follower {s : State} (href : s.img.timeRef = false) :
    s.timeTaken.flag TBSTAT_LOCK = s.flag TBSTAT_LOCK ∧ s.timeTaken.flag GSTAT_TBLOCK = s.flag TBSTAT_LOCK := by
  have hsource : s.sourcePort.flag TBSTAT_LOCK = s.flag TBSTAT_LOCK := by
    unfold State.sourcePort
    split
    · rfl
    · exact s.flag_setFld_apart _ (by decide)
  obtain ⟨hlock, -, htb⟩ := s.sourcePort.showLock_spec
  rw [State.timeTaken, if_neg (by rw [href]; decide), hlock, htb]
  exact ⟨hsource, hsource⟩

/-- The governor has full credit. -/
def State.fullCredit (s : State) : State := { s with pow := { s.pow with credit := 200000 } }

/-- The credit is shown. -/
def State.credited (s : State) : State := s.fullCredit.setFld PCREDIT_CREDIT 2000

theorem State.governed_eq (s : State) : s.governed = s.credited.setFld PSTAT_MODE s.credited.modeNow := rfl

theorem State.governed_only (s : State) : State.OnlySet [aPCREDIT, aPSTAT] s.fullCredit s.governed := by
  rw [State.governed_eq, State.credited]
  exact ((State.OnlySet.refl _ _).setFld (f := PCREDIT_CREDIT) (by decide) _).setFld (f := PSTAT_MODE) (by decide) _

theorem State.governed_spec (s : State) : s.governed.fld PCREDIT_CREDIT = 2000 ∧ s.governed.fld PSTAT_MODE = s.governed.modeNow := by
  have hmode : s.governed.modeNow = s.credited.modeNow := by
    rw [State.governed_eq]
    generalize s.credited = v
    exact State.modeNow_congr (s := v) rfl (State.flag_setFld_apart _ _ (by decide)) (State.flag_setFld_apart _ _ (by decide))
      (State.flag_setFld_apart _ _ (by decide)) (State.flag_setFld_apart _ _ (by decide))
  refine ⟨?_, ?_⟩
  · rw [State.governed_eq, State.fld_setFld_apart _ _ (by decide), State.credited, State.fld_setFld_same _ _ _ (by decide)]
    rfl
  · rw [hmode, State.governed_eq, State.fld_setFld_same _ _ _ (by decide)]
    exact Nat.mod_eq_of_lt s.credited.modeNow_lt

theorem State.inputsNoted_only (s : State) : ∃ h, s.inputsNoted = { s with halt := h } := by
  unfold State.inputsNoted
  split
  · exact ⟨_, rfl⟩
  · exact ⟨s.halt, rfl⟩

theorem State.inputsNoted_fld (s : State) (f : Fld) : s.inputsNoted.fld f = s.fld f := by
  obtain ⟨h, hnote⟩ := s.inputsNoted_only
  rw [hnote]
  exact State.fld_congr rfl f

theorem State.inputsNoted_modeNow (s : State) : s.inputsNoted.modeNow = s.modeNow := by
  have hboot : s.inputsNoted.boot = s.boot := by
    obtain ⟨h, hnote⟩ := s.inputsNoted_only
    rw [hnote]
  have hflag : ∀ f, s.inputsNoted.flag f = s.flag f := fun f => State.flag_of_fld (s.inputsNoted_fld f)
  exact State.modeNow_congr hboot (hflag _) (hflag _) (hflag _) (hflag _)

theorem State.governed_fld (s : State) {f : Fld} (hcredit : f.addr ≠ aPCREDIT) (hstat : f.addr ≠ aPSTAT) : s.governed.fld f = s.fld f := by
  obtain ⟨-, hregs⟩ := s.governed_only
  have hfull : s.fullCredit.fld f = s.fld f := State.fld_congr rfl f
  rw [State.fld_of_sameRegs hregs (by simp [hcredit, hstat]), hfull]

/-- The device is up, and the watchdog counts. -/
def State.upBegun (s : State) : State := { s with boot := .up, dogAt := s.clk }

/-- The device has come up from s: what every stage before the contexts' start keeps. -/
def State.cameUp (s : State) : State := s.upBegun.portsTrain.timeTaken.governed.inputsNoted

theorem State.cameUp_only (s : State) :
    ∃ rs ps fr h, s.cameUp = { s with
      boot := .up, dogAt := s.clk, regs := rs, ports := ps, fresh := fr, pow := { s.pow with credit := 200000 }, halt := h } := by
  obtain ⟨⟨⟨rs, ps, htrain⟩, -⟩, -⟩ := s.upBegun.portsTrain_spec
  obtain ⟨⟨rs', fr, htime⟩, -⟩ := s.upBegun.portsTrain.timeTaken_only
  obtain ⟨⟨rs'', hgov⟩, -⟩ := s.upBegun.portsTrain.timeTaken.governed_only
  obtain ⟨h, hnote⟩ := s.upBegun.portsTrain.timeTaken.governed.inputsNoted_only
  refine ⟨rs'', ps, fr, h, ?_⟩
  rw [State.cameUp, hnote, hgov, htime, htrain]
  rfl

section
variable (s : State)

/-- A field that neither the governor nor the halt writes reads as the stages before them left it. -/
theorem State.cameUp_fld {f : Fld} (hcredit : f.addr ≠ aPCREDIT) (hstat : f.addr ≠ aPSTAT) :
    s.cameUp.fld f = s.upBegun.portsTrain.timeTaken.fld f := by
  rw [State.cameUp, State.inputsNoted_fld, State.governed_fld _ hcredit hstat]

theorem State.cameUp_power : s.cameUp.fld PCREDIT_CREDIT = 2000 ∧ s.cameUp.fld PSTAT_MODE = s.cameUp.modeNow := by
  rw [State.cameUp, State.inputsNoted_fld, State.inputsNoted_fld, State.inputsNoted_modeNow]
  exact State.governed_spec _

theorem State.cameUp_flag {f : Fld} (hcredit : f.addr ≠ aPCREDIT) (hstat : f.addr ≠ aPSTAT) :
    s.cameUp.flag f = s.upBegun.portsTrain.timeTaken.flag f :=
  State.flag_of_fld (s.cameUp_fld hcredit hstat)

theorem State.cameUp_port {p : Nat} (hp : p < 8) : s.cameUp.fld (FPSTAT_STATE p) = s.trainState p := by
  have hup : s.upBegun.trainState p = s.trainState p := rfl
  obtain ⟨-, hport⟩ := s.upBegun.portsTrain_spec
  obtain ⟨-, htime⟩ := s.upBegun.portsTrain.timeTaken_only
  have hne : aFPSTAT p ≠ aPCREDIT ∧ aFPSTAT p ≠ aPSTAT ∧ aFPSTAT p ∉ [aTBSTAT, aGSTAT] := by
    simp only [aFPSTAT, aPCREDIT, aPSTAT, aTBSTAT, aGSTAT, List.mem_cons, List.not_mem_nil, or_false]
    omega
  obtain ⟨hcredit, hstat, htb⟩ := hne
  rw [s.cameUp_fld (f := FPSTAT_STATE p) hcredit hstat, State.fld_of_sameRegs htime (f := FPSTAT_STATE p) htb, hport p hp, hup]

theorem State.cameUp_ref (href : s.img.timeRef = true) :
    s.cameUp.flag TBSTAT_LOCK = true ∧ s.cameUp.flag TBSTAT_REF = true ∧ s.cameUp.flag GSTAT_TBLOCK = true := by
  obtain ⟨⟨⟨rs, ps, htrain⟩, -⟩, -⟩ := s.upBegun.portsTrain_spec
  have himg : s.upBegun.portsTrain.img.timeRef = true := by rw [htrain]; exact href
  rw [s.cameUp_flag (by decide) (by decide), s.cameUp_flag (by decide) (by decide), s.cameUp_flag (by decide) (by decide)]
  exact State.timeTaken_ref himg

theorem State.cameUp_follower (href : s.img.timeRef = false) :
    s.cameUp.flag TBSTAT_LOCK = s.flag TBSTAT_LOCK ∧ s.cameUp.flag GSTAT_TBLOCK = s.flag TBSTAT_LOCK := by
  obtain ⟨⟨⟨rs, ps, htrain⟩, hregs⟩, -⟩ := s.upBegun.portsTrain_spec
  have himg : s.upBegun.portsTrain.img.timeRef = false := by rw [htrain]; exact href
  have hlock : s.upBegun.portsTrain.flag TBSTAT_LOCK = s.flag TBSTAT_LOCK :=
    (State.flag_of_sameRegs hregs (by decide)).trans (State.flag_congr rfl _)
  rw [s.cameUp_flag (by decide) (by decide), s.cameUp_flag (by decide) (by decide), ← hlock]
  exact State.timeTaken_follower himg

end

/-! ## What an image's load keeps -/

theorem not_loadedAddr_GBRIDGE {im : Image} (h : ∀ f ∈ im.fields, f.addr ≠ aGBRIDGE) : ¬ loadedAddr im aGBRIDGE := by
  have hwin : ∀ w ∈ tableWindows, ¬ (w.1 ≤ aGBRIDGE ∧ aGBRIDGE < w.2) := by decide
  rintro (⟨f, hf, ha⟩ | ⟨w, hw, hin⟩ | hrest)
  · exact h f hf ha
  · exact hwin w hw hin
  · simp only [shownAddr, aGBRIDGE, aFPLAN, aGLSCALE, aPCTL, aPCFG, aHCTXSTAT, aCSTAT, aKSTAT, aKSLOT] at hrest
    omega

theorem not_loadedAddr_SSTAT {im : Image} {st : Nat} (hst : st < 8) (h : ∀ f ∈ im.fields, f.addr ≠ aSSTAT st) : ¬ loadedAddr im (aSSTAT st) := by
  have hwin : ∀ st < 8, ∀ w ∈ tableWindows, ¬ (w.1 ≤ aSSTAT st ∧ aSSTAT st < w.2) := by decide
  rintro (⟨f, hf, ha⟩ | ⟨w, hw, hin⟩ | hrest)
  · exact h f hf ha
  · exact hwin st hst w hw hin
  · simp only [shownAddr, aSSTAT, aFPLAN, aGLSCALE, aPCTL, aPCFG, aHCTXSTAT, aCSTAT, aKSTAT, aKSLOT] at hrest
    omega

theorem State.half1Gone_congr {s u : State} (hdone : u.bridgeDone = s.bridgeDone) (hlink : u.fld GBRIDGE_LINKOK = s.fld GBRIDGE_LINKOK) :
    u.half1Gone = s.half1Gone := by
  rw [State.half1Gone, State.half1Gone, hdone, hlink]

section
variable {s : State} {im : Image}

/-- An image that leaves GBRIDGE alone leaves Half 1 where it is. -/
theorem State.loaded_half1Gone (him : im.InRange) (hbridge : ∀ f ∈ im.fields, f.addr ≠ aGBRIDGE) (s : State) :
    ((s.applyBegun im).loaded im).half1Gone = s.half1Gone := by
  have honly := State.onlyLoaded_loaded him (s.applyBegun im)
  obtain ⟨-, -, -, hdone, -⟩ := honly.rest
  exact State.half1Gone_congr hdone (honly.fld (f := GBRIDGE_LINKOK) (not_loadedAddr_GBRIDGE hbridge))

theorem State.stacksBegun_half1Gone (s : State) : s.stacksBegun.half1Gone = s.half1Gone := by
  have honly := s.onlyLoaded_stacksBegun
  obtain ⟨-, -, -, hdone, -⟩ := honly.rest
  refine State.half1Gone_congr hdone (honly.fld (f := GBRIDGE_LINKOK) ?_)
  rintro ⟨st, -, h⟩
  simp only [GBRIDGE_LINKOK, aGBRIDGE, aSSTAT] at h
  omega

/-- Every stack that was not initialised is being so. -/
theorem State.stacksBegun_initing {st : Nat} (hgone : s.half1Gone = false) (hst : st < 8) (hflag : s.flag (SSTAT_INITD st) = false) :
    (s.stacksBegun.stackU st).initing = true := by
  unfold State.stacksBegun
  rw [hgone]
  exact (State.initing_each (List.range 8) s).1 st (List.mem_range.mpr hst) hflag

theorem State.tilesReset_whole (hgone : s.half1Gone = false) : s.tilesReset = s.each (List.range 2048) State.tileReset := by
  rw [State.tilesReset, hgone]
  rfl

end

theorem State.rejectSlot_rest (s : State) (k code : Nat) :
    (s.rejectSlot k code).boot = s.boot ∧ (s.rejectSlot k code).imgNext = s.imgNext := by
  rw [State.rejectSlot_eq]
  exact ⟨rfl, rfl⟩

end Sys2Proof.Machine

namespace Sys2Proof.Proofs
open Sys2Proof Sys2Proof.Machine

/-- The release starts attempt 0. -/
theorem startUp_release {s : State} (hboot : s.boot = .released) : Gives (exec .mgcLeaveReset s) fun u =>
    u.boot = .arbitrating ∧ u.attempt = 0 ∧ u.h0.phase = .converting ∧ u.h1.phase = .waitStrap ∧ u.flag GCTL_DETMF = true ∧ s.sameRegs u [aGCTL]
      ∧ s.sameMem u := by
  refine ⟨_, exec_mgcLeaveReset hboot, rfl, rfl, rfl, rfl, State.syncDetm_held rfl, ?_, State.sameMem_of_stores rfl rfl rfl⟩
  exact State.sameRegs_trans (State.sameRegs_of_regs rfl _) (State.sameRegs_syncDetm _)

/-- The bridge's test sets GBRIDGE and GSTAT.BRDEG. -/
theorem startUp_bridge {s : State} (ok : BitVec 32) (hdone : s.bridgeDone = false) (hboot : s.boot = .reading ∨ s.boot = .accepted) :
    Gives (exec (.bridgeTestDone ok) s) fun u =>
      u.bridgeDone = true ∧ u.fld GBRIDGE_LINKOK = ok.toNat ∧ (u.flag GSTAT_BRDEG = false ↔ ok = BitVec.allOnes 32) ∧ (u.half1Gone = true ↔ ok = 0)
        ∧ u.boot = s.boot ∧ s.sameMem u := by
  refine ⟨_, exec_bridgeTestDone ok hdone hboot, ?_⟩
  have hshown : ∀ u : State, u.regs = (s.bridgeShown ok).regs → u.bridgeDone = true → u.boot = s.boot → u.tiles = s.tiles → u.stk = s.stk →
      u.stkMark = s.stkMark → u.bridgeDone = true ∧ u.fld GBRIDGE_LINKOK = ok.toNat ∧ (u.flag GSTAT_BRDEG = false ↔ ok = BitVec.allOnes 32)
        ∧ (u.half1Gone = true ↔ ok = 0) ∧ u.boot = s.boot ∧ s.sameMem u := by
    intro u hregs hd hb ht hs hm
    obtain ⟨hlink, hdeg⟩ := s.bridgeShown_spec ok
    rw [← State.fld_congr hregs] at hlink
    rw [← State.flag_congr hregs] at hdeg
    refine ⟨hd, hlink, hdeg, ?_, hb, State.sameMem_of_stores ht hs hm⟩
    rw [State.half1Gone, hd, hlink, Bool.true_and, beq_iff_eq]
    exact ⟨fun h => BitVec.eq_of_toNat_eq h, fun h => by rw [h]; rfl⟩
  split
  · exact hshown _ rfl rfl rfl rfl rfl rfl
  · exact hshown _ rfl rfl rfl rfl rfl rfl

/-- A slot's read ends (R486). -/
theorem startUp_read {s : State} {k : Nat} (e : Bool) (hboot : s.boot = .reading) (hslot : s.imgSlot = some k) (hk : k < 2) :
    let read := if e then Except.error 11 else s.imageCheck k
    (∀ im, read = .ok im → Gives (exec (.imageReadDone e) s) fun u =>
      u.boot = .accepted ∧ u.imgNext = some im ∧ u.imgSlot = none ∧ u.fld CSTAT_SLOT = k ∧ u.fld CSTAT_SRC = 0 ∧ s.sameRegs u [aCSTAT]
        ∧ u.reports = s.reports) ∧
    (∀ code, read = .error code → Gives (exec (.imageReadDone e) s) fun u =>
      u.fld (if k = 0 then CSTAT_REJ0 else CSTAT_REJ1) = code % 16 ∧
      (s.fld CSTAT_TRIED = 0 → u.boot = .reading ∧ u.imgSlot = some (1 - k) ∧ u.imgNext = s.imgNext) ∧
      (s.fld CSTAT_TRIED ≠ 0 → u.boot = .accepted ∧ u.imgNext = some Image.factory ∧ u.flag GSTAT_CFGDEF = true ∧ u.fld CSTAT_SRC = 1)) := by
  refine ⟨fun im him => ?_, fun code hcode => ?_⟩
  · obtain ⟨hslot', hsrc, hregs⟩ := (s.slotTried k).slotTaken_spec hk im
    have htried : s.sameRegs (s.slotTried k) [aCSTAT] := State.sameRegs_setFld (s.sameRegs_refl _) (by decide) _
    exact ⟨_, exec_imageReadDone_ok hboot hslot him, rfl, rfl, rfl, hslot', hsrc, State.sameRegs_trans htried hregs, rfl⟩
  · have hrej := (s.slotTried k).rejectSlot_fld k code
    refine ⟨_, exec_imageReadDone_error hboot hslot hcode, ?_⟩
    split
    · next hfirst =>
      obtain ⟨hb, hn⟩ := (s.slotTried k).rejectSlot_rest k code
      exact ⟨hrej, fun _ => ⟨hb.trans hboot, rfl, hn⟩, fun h => absurd (beq_iff_eq.mp hfirst) h⟩
    · next hsecond =>
      obtain ⟨hkeep, hdef, hsrc⟩ := ((s.slotTried k).rejectSlot k code).defaultsTaken_spec k
      exact ⟨hkeep.trans hrej, fun h => absurd (beq_iff_eq.mpr h) hsecond, fun _ => ⟨rfl, rfl, hdef, hsrc⟩⟩

/-- The accepted image is applied to a whole device. -/
theorem startUp_apply {s : State} {im : Image} (hboot : s.boot = .accepted) (hdone : s.bridgeDone = true) (hgone : s.half1Gone = false)
    (hnext : s.imgNext = some im) (him : im.InRange) (hxfers : ∀ t, (s.tile t).xfers = []) (hbridge : ∀ f ∈ im.fields, f.addr ≠ aGBRIDGE)
    (hstack : ∀ st < 8, ∀ f ∈ im.fields, f.addr ≠ aSSTAT st) :
    Gives (exec .imageApply s) fun u =>
      u.boot = .applying ∧ u.img = im ∧ u.imgNext = none ∧ u.fld CSTAT_VER = im.ver % 4 ∧ u.fld PCFG_PSUST = im.param 0x0101 2600 % 65536
        ∧ u.fld PCFG_TD = im.param 0x0105 5000 % 65536
        ∧ (∀ t < 2048, u.tile t = { Tile.reset with marking := true } ∧ u.fld (TSQSTAT_STATE t) = stIdle)
        ∧ (∀ st < 8, s.flag (SSTAT_INITD st) = false → (u.stackU st).initing = true) ∧ ∀ d, u.stkByte d = s.stkByte d := by
  have hexec := exec_imageApply hboot hdone hnext
  rw [if_neg (by rw [hgone]; decide)] at hexec
  refine ⟨_, hexec, ?_⟩
  have hload := State.onlyLoaded_loaded him (s.applyBegun im)
  have hloaded := State.loaded_half1Gone him hbridge s
  have hfld := State.loaded_fld him (s.applyBegun im)
  have hstart := s.applied_startUp im
  obtain ⟨-, -, -, -, htiles, hstk⟩ := hload.rest
  have hinitd : ∀ st < 8, s.flag (SSTAT_INITD st) = false → ((s.applyBegun im).loaded im).flag (SSTAT_INITD st) = false := fun st hst h => by
    rw [State.flag, hload.fld (f := SSTAT_INITD st) (not_loadedAddr_SSTAT hst (hstack st hst))]
    exact h
  generalize (s.applyBegun im).loaded im = v at hload hloaded hfld hstart htiles hstk hinitd ⊢
  rw [hgone] at hloaded
  have hbegun := v.onlyLoaded_stacksBegun
  have hiniting := fun st hst h => State.stacksBegun_initing (st := st) hloaded hst (hinitd st hst h)
  have hgone' := (v.stacksBegun_half1Gone).trans hloaded
  obtain ⟨-, -, -, -, htiles', hstk'⟩ := hbegun.rest
  generalize v.stacksBegun = w at hbegun hiniting hgone' hstart htiles' hstk' ⊢
  have hx : ∀ t, (w.tile t).xfers = [] := fun t => by rw [State.tile, htiles', htiles]; exact hxfers t
  obtain ⟨htile, hregs, hstat, hustk, hustx⟩ := State.tileResets_spec (List.range 2048) hx
  rw [State.tilesReset_whole hgone'] at hstart ⊢
  generalize w.each (List.range 2048) State.tileReset = u at hstart htile hregs hstat hustk hustx ⊢
  have hkeep : ∀ f : Fld, 0x020000000000 ≤ f.addr → ¬ stackStat f.addr → u.fld f = v.fld f := fun f hhigh hno => by
    have hreg : u.reg f.addr = w.reg f.addr := hregs _ fun t ht => not_tileReg_of_high (List.mem_range.mp ht) hhigh
    rw [State.fld, hreg]
    exact hbegun.fld hno
  have hcstat : ¬ stackStat aCSTAT := by rintro ⟨st, -, h⟩; simp only [aCSTAT, aSSTAT] at h; omega
  have hpcfg : ¬ stackStat aPCFG := by rintro ⟨st, -, h⟩; simp only [aPCFG, aSSTAT] at h; omega
  obtain ⟨hver, hsust, htd⟩ := hfld
  obtain ⟨hb, hi⟩ := Prod.mk.inj hstart
  obtain ⟨himg, hn⟩ := Prod.mk.inj hi
  refine ⟨hb, himg, hn, ?_, ?_, ?_, fun t ht => ⟨?_, ?_⟩, fun st hst h => ?_, fun d => ?_⟩
  · exact (hkeep CSTAT_VER (by decide) hcstat).trans hver
  · exact (hkeep PCFG_PSUST (by decide) hpcfg).trans hsust
  · exact (hkeep PCFG_TD (by decide) hpcfg).trans htd
  · exact (htile t).trans (if_pos (List.mem_range.mpr ht))
  · rw [State.fld, TSQSTAT_STATE, hstat t (List.mem_range.mpr ht), regReset_TSQSTAT ht]
    rfl
  · rw [State.stackU, hustx]
    exact hiniting st hst h
  · rw [State.stkByte, hustk, hstk', hstk]
    rfl

/-- The device comes up. -/
theorem startUp_up {s : State} (hboot : s.boot = .applying) (hbusy : s.applyBusy = false) (hnum : s.numbersOk) (hocc : s.occupOk) :
    Gives (exec .imageApplied s) fun u =>
      u.boot = .up ∧ u.dogAt = s.clk ∧ u.pow.credit = 200000 ∧ u.fld PCREDIT_CREDIT = 2000 ∧ u.fld PSTAT_MODE = u.modeNow
        ∧ (s.img.timeRef = true → u.flag TBSTAT_LOCK = true ∧ u.flag TBSTAT_REF = true ∧ u.flag GSTAT_TBLOCK = true)
        ∧ (s.img.timeRef = false → u.flag TBSTAT_LOCK = s.flag TBSTAT_LOCK ∧ u.flag GSTAT_TBLOCK = s.flag TBSTAT_LOCK)
        ∧ (∀ p < 8,
          (∀ k, s.img.mports.find? (fun e => e.1 == p) = some (p, k) → k.en = true → s.flag (FPCTL_DISABLE p) = false → s.pinsOff = false →
            u.fld (FPSTAT_STATE p) = 2) ∧
          ((∀ k, s.img.mports.find? (fun e => e.1 == p) = some (p, k) → k.en = false) ∨ s.flag (FPCTL_DISABLE p) = true →
            u.fld (FPSTAT_STATE p) = 0))
        ∧ s.sameMem u := by
  refine ⟨s.cameUp.ctxsStarted, exec_imageApplied hboot hbusy, ?_⟩
  obtain ⟨rs, ps, fr, h, hup⟩ := s.cameUp_only
  have hnum' : s.cameUp.numbersOk := by rw [hup]; exact hnum
  have hocc' : s.cameUp.occupOk := by rw [hup]; exact hocc
  obtain ⟨⟨rs', sw, oc, dh, hu⟩, hregs, hpaced, hpeak⟩ := State.onlyTaken_ctxsStarted hnum' hocc'
  have hflag : ∀ f : Fld, ¬ takenAddr f.addr → s.cameUp.ctxsStarted.flag f = s.cameUp.flag f := fun f hf =>
    State.flag_of_reg (hregs _ hf)
  have hfld : ∀ f : Fld, ¬ takenAddr f.addr → s.cameUp.ctxsStarted.fld f = s.cameUp.fld f := fun f hf =>
    State.fld_of_reg (hregs _ hf)
  have hfree : ∀ a ∈ [aPCREDIT, aPSTAT, aPCTL, aTBSTAT, aGSTAT], ¬ takenAddr a := by
    intro a ha
    simp only [List.mem_cons, List.not_mem_nil, or_false] at ha
    obtain rfl | rfl | rfl | rfl | rfl := ha <;>
      simp only [takenAddr, aPCREDIT, aPSTAT, aPCTL, aTBSTAT, aGSTAT, aGCTL, aHCTXSTAT, aHPSTAT] <;> omega
  have hport : ∀ p < 8, s.cameUp.ctxsStarted.fld (FPSTAT_STATE p) = s.trainState p := fun p hp => by
    rw [hfld (FPSTAT_STATE p) (by simp only [FPSTAT_STATE, takenAddr, aFPSTAT, aGCTL, aHCTXSTAT, aHPSTAT]; omega), s.cameUp_port hp]
  obtain ⟨hcredit, hmode⟩ := s.cameUp_power
  have hmodeNow : s.cameUp.ctxsStarted.modeNow = s.cameUp.modeNow :=
    State.modeNow_congr (by rw [hu]) (hflag PCTL_PARK (hfree _ (by decide))) hpaced hpeak (hflag PCTL_EFF (hfree _ (by decide)))
  refine ⟨?_, ?_, ?_, ?_, ?_, fun href => ?_, fun href => ?_, fun p hp => ⟨fun k hk hen hdis hpins => ?_, fun hno => ?_⟩, ?_⟩
  · rw [hu, hup]
  · rw [hu, hup]
  · rw [hu, hup]
  · exact (hfld PCREDIT_CREDIT (hfree _ (by decide))).trans hcredit
  · rw [hmodeNow]
    exact (hfld PSTAT_MODE (hfree _ (by decide))).trans hmode
  · rw [hflag TBSTAT_LOCK (hfree _ (by decide)), hflag TBSTAT_REF (hfree _ (by decide)), hflag GSTAT_TBLOCK (hfree _ (by decide))]
    exact s.cameUp_ref href
  · rw [hflag TBSTAT_LOCK (hfree _ (by decide)), hflag GSTAT_TBLOCK (hfree _ (by decide))]
    exact s.cameUp_follower href
  · exact (hport p hp).trans (State.trainState_enabled hk hen hdis hpins)
  · exact (hport p hp).trans (State.trainState_disabled hno)
  · rw [hu, hup]
    exact State.sameMem_of_stores rfl rfl rfl

/-- Settles O56: the release starts attempt 0, and the bridge's test, the reads of the slots, the application and its end follow one by one, each
through what its stages write. -/
theorem startUp : Obligations.StartUp := by
  unfold Obligations.StartUp
  refine ⟨fun s => startUp_release, fun s ok => startUp_bridge ok, fun s k e => startUp_read e, ?apply, ?half, fun s => startUp_up⟩
  case apply =>
    intro s im hboot hdone hgone hnext hctxs hkeys hxfers hfields htables
    refine startUp_apply hboot hdone hgone hnext ⟨hctxs, hkeys, htables⟩ hxfers (fun f hf => ?_) fun st hst f hf => ?_
    · obtain ⟨h, -⟩ := hfields f hf
      omega
    · obtain ⟨-, h⟩ := hfields f hf
      simp only [aSSTAT] at h ⊢
      omega
  case half =>
    intro s im hboot hdone hgone hnext
    have hexec := exec_imageApply hboot hdone hnext
    rw [if_pos hgone] at hexec
    obtain ⟨hb, hi⟩ := Prod.mk.inj (s.applied_startUp im.half0)
    exact ⟨_, hexec, hb, Prod.mk.inj hi⟩

end Sys2Proof.Proofs
end

section
/-! SUPPORT. Device resets: what stops, which registers stay, and what a source taken leaves (R392, R498, R499, R502, R503, R511, R516). -/

namespace Sys2Proof.Machine

/-! ## Descriptors and flash stop (R392, R511) -/

/-- u is s but for free values, registers, tiles, stacks, their units and engines, and stage writes that wait. -/
def State.OnlyStopped (s u : State) : Prop :=
  ∃ fr rs tl sk sm sx en sw, u = { s with
    fresh := fr, regs := rs, tiles := tl, stk := sk, stkMark := sm, stx := sx, engines := en, stageWait := sw }

section
variable {s u v : State}

theorem State.OnlyStopped.refl (s : State) : State.OnlyStopped s s :=
  ⟨s.fresh, s.regs, s.tiles, s.stk, s.stkMark, s.stx, s.engines, s.stageWait, rfl⟩

theorem State.OnlyStopped.trans (h : State.OnlyStopped s u) (k : State.OnlyStopped u v) : State.OnlyStopped s v := by
  obtain ⟨_, _, _, _, _, _, _, _, rfl⟩ := h
  obtain ⟨fr, rs, tl, sk, sm, sx, en, sw, rfl⟩ := k
  exact ⟨fr, rs, tl, sk, sm, sx, en, sw, rfl⟩

theorem State.onlyStopped_each {α : Type} {f : State → α → State} {l : List α} (step : ∀ s, ∀ x ∈ l, State.OnlyStopped s (f s x)) (s : State) :
    State.OnlyStopped s (s.each l f) :=
  foldl_rel State.OnlyStopped.refl State.OnlyStopped.trans step s

theorem State.onlyStopped_setReg (s : State) (a : Nat) (w : BitVec 64) : State.OnlyStopped s (s.setReg a w) :=
  ⟨s.fresh, _, s.tiles, s.stk, s.stkMark, s.stx, s.engines, s.stageWait, rfl⟩

theorem State.onlyStopped_setFld (s : State) (f : Fld) (n : Nat) : State.OnlyStopped s (s.setFld f n) := s.onlyStopped_setReg _ _

theorem State.onlyStopped_modTile (s : State) (t : Nat) (f : Tile → Tile) : State.OnlyStopped s (s.modTile t f) :=
  ⟨s.fresh, s.regs, _, s.stk, s.stkMark, s.stx, s.engines, s.stageWait, rfl⟩

theorem State.onlyStopped_modStack (s : State) (st : Nat) (f : Stack → Stack) : State.OnlyStopped s (s.modStack st f) :=
  ⟨s.fresh, s.regs, s.tiles, s.stk, s.stkMark, _, s.engines, s.stageWait, rfl⟩

theorem State.onlyStopped_modEngine (s : State) (st e : Nat) (f : Engine → Engine) : State.OnlyStopped s (s.modEngine st e f) :=
  ⟨s.fresh, s.regs, s.tiles, s.stk, s.stkMark, s.stx, _, s.stageWait, rfl⟩

theorem State.onlyStopped_engEnd (s : State) (st e status detail : Nat) : State.OnlyStopped s (s.engEnd st e status detail) :=
  (((s.onlyStopped_modStack st _).trans (State.onlyStopped_modEngine _ st e _)).trans (State.onlyStopped_setFld _ (BESTAT_BUSY st e) _)).trans
    (State.onlyStopped_setFld _ (BESTAT_WAITSEM st e) _)

/-- Some of the writes of a descriptor are made. -/
theorem State.onlyStopped_someOf (s u : State) : State.OnlyStopped s (s.someOf u) := by
  unfold State.someOf
  refine State.OnlyStopped.trans ?_ (State.onlyStopped_each (fun s x _ => s.onlyStopped_modTile _ _) _)
  exact ⟨_, s.regs, s.tiles, _, _, s.stx, s.engines, s.stageWait, rfl⟩

theorem State.onlyStopped_engStop (s : State) (st e : Nat) : State.OnlyStopped s (s.engStop st e) := by
  unfold State.engStop
  split
  · exact s.onlyStopped_engEnd st e _ _
  · refine State.OnlyStopped.trans ?_ (State.onlyStopped_engEnd _ st e _ _)
    split
    · exact s.onlyStopped_someOf _
    · exact State.OnlyStopped.refl s
  · exact State.OnlyStopped.refl s

/-- The stage writes that still wait. -/
def State.stageKept (s : State) : State := { s with stageWait := s.stageWait.filter fun x => s.shardBusy x.1 x.2.1 }

theorem State.stageSettle_eq (s : State) : s.stageSettle =
    s.stageKept.each (s.stageWait.filter fun x => !s.stageKept.shardBusy x.1 x.2.1) fun s x => s.stagePut x.1 x.2.1 x.2.2.1 x.2.2.2 := rfl

theorem State.onlyStopped_stageSettle (s : State) : State.OnlyStopped s s.stageSettle := by
  have hkept : State.OnlyStopped s s.stageKept := ⟨s.fresh, s.regs, s.tiles, s.stk, s.stkMark, s.stx, s.engines, _, rfl⟩
  rw [State.stageSettle_eq]
  refine hkept.trans (State.onlyStopped_each (fun s x _ => ?_) _)
  unfold State.stagePut
  split
  · exact s.onlyStopped_setReg _ _
  · exact State.OnlyStopped.refl s

theorem State.stageSettle_none (h : s.stageWait = []) : s.stageSettle.regs = s.regs := by
  rw [State.stageSettle_eq, h]
  rfl

/-- The flash where an operation broke off is free; without one it is as it was. -/
theorem State.flashBreak_spec (s : State) :
    ∃ fl fr, s.flashBreak = { s with flash := fl, fresh := fr } ∧ (s.flashOp = none → fl = s.flash) := by
  unfold State.flashBreak
  split
  next h => exact ⟨_, _, rfl, fun hno => absurd (h.symm.trans hno) nofun⟩
  next h => exact ⟨_, _, rfl, fun hno => absurd (h.symm.trans hno) nofun⟩
  next => exact ⟨s.flash, s.fresh, rfl, fun _ => rfl⟩

/-! ## Which registers stay (R503) -/

/-- The stages of a warm reset: everything stops. -/
def State.warmStopped (s : State) : State := (s.flashBreak.each s.flashBreak.engines fun s e => s.engStop (e.1 / 8) (e.1 % 8)).stageSettle

/-- Stack units and registers keep what outlasts the reset. -/
def State.warmKept (s : State) : State :=
  { s with stx := s.stx.map fun (e : Nat × Stack) => (e.1, e.2.warm), regs := SMap.keep keptWarm s.regs }

/-- A stack in test state leaves it, and is no longer initialised. -/
def State.testStep (s : State) (st : Nat) : State :=
  if s.flag (SSTAT_TEST st) then (s.setFld (SSTAT_TEST st) 0).setFld (SSTAT_INITD st) 0 else s

/-- Every test state ends. -/
def State.testsEnded (s : State) : State := s.each (List.range 8) State.testStep

theorem State.resetWarm_eq (s : State) : s.resetWarm = s.warmStopped.warmKept.testsEnded.resetCore.showLock := rfl

theorem State.reg_resetCore (s : State) (a : Nat) : s.resetCore.reg a = s.reg a := State.reg_congr rfl a

theorem State.reg_warmKept (s : State) (a : Nat) : s.warmKept.reg a = if keptWarm a then s.reg a else regReset a :=
  SMap.get_keep regReset keptWarm s.regs a

theorem keptWarm_SSTAT : ∀ st < 8, keptWarm (aSSTAT st) = true := by decide

theorem State.onlyStopped_testStep (s : State) (st : Nat) : State.OnlyStopped s (s.testStep st) := by
  unfold State.testStep
  split
  · exact (s.onlyStopped_setFld _ _).trans (State.onlyStopped_setFld _ _ _)
  · exact State.OnlyStopped.refl s

theorem State.testStep_other (s : State) {st a : Nat} (h : a ≠ aSSTAT st) : (s.testStep st).reg a = s.reg a := by
  unfold State.testStep
  split
  · rw [State.reg_setFld_other _ (SSTAT_INITD st) 0 a h, State.reg_setFld_other _ (SSTAT_TEST st) 0 a h]
  · rfl

theorem State.testsEnded_other (s : State) {a : Nat} (h : keptWarm a = false) : s.testsEnded.reg a = s.reg a := by
  refine State.each_same (State.reg · a) (fun s st hst => s.testStep_other fun e => ?_) s
  exact absurd ((keptWarm_SSTAT st (List.mem_range.mp hst)).symm.trans (congrArg keptWarm e.symm)) (by rw [h]; decide)

theorem State.each_id {α : Type} {s : State} {f : State → α → State} {l : List α} (h : ∀ x ∈ l, f s x = s) : s.each l f = s := by
  induction l with
  | nil => rfl
  | cons x xs ih =>
    rw [State.each_cons, h x List.mem_cons_self]
    exact ih fun y hy => h y (List.mem_cons_of_mem _ hy)

theorem State.testsEnded_none (h : ∀ st < 8, s.flag (SSTAT_TEST st) = false) : s.testsEnded = s :=
  State.each_id fun st hst => by rw [State.testStep, h st (List.mem_range.mp hst)]; rfl

/-- A register that no warm reset keeps is at its reset value. -/
theorem State.reg_resetWarm_lost (s : State) {a : Nat} (h : keptWarm a = false) (hstat : a ≠ aGSTAT) : s.resetWarm.reg a = regReset a := by
  rw [State.resetWarm_eq, State.showLock, State.reg_setFld_other _ GSTAT_TBLOCK _ a hstat, State.reg_resetCore, State.testsEnded_other _ h,
    State.reg_warmKept, h]
  rfl

/-- With nothing to stop and no stack in test state, the kept registers are as they were, and GSTAT.TBLOCK copies the lock. -/
theorem State.reg_resetWarm_kept (heng : s.engines = []) (hstage : s.stageWait = []) (htest : ∀ st < 8, s.flag (SSTAT_TEST st) = false) :
    (∀ a, keptWarm a = true → s.resetWarm.reg a = s.reg a) ∧ s.resetWarm.flag GSTAT_TBLOCK = s.flag TBSTAT_LOCK := by
  obtain ⟨fl, fr, hflash, -⟩ := s.flashBreak_spec
  have hstopped : s.warmStopped.regs = s.regs := by
    rw [State.warmStopped, hflash, State.stageSettle_none]
    · rw [heng]; rfl
    · rw [heng]; exact hstage
  have hkept : ∀ a, keptWarm a = true → s.warmStopped.warmKept.reg a = s.reg a := fun a ha => by
    rw [State.reg_warmKept, if_pos ha, State.reg_congr hstopped]
  have htest' : ∀ st < 8, s.warmStopped.warmKept.flag (SSTAT_TEST st) = false := fun st hst =>
    (State.flag_of_reg (f := SSTAT_TEST st) (hkept _ (keptWarm_SSTAT st hst))).trans (htest st hst)
  have hcore : ∀ a, keptWarm a = true → s.warmStopped.warmKept.testsEnded.resetCore.reg a = s.reg a := fun a ha => by
    rw [State.reg_resetCore, State.testsEnded_none htest', hkept a ha]
  refine ⟨fun a ha => ?_, ?_⟩
  · have hne : a ≠ aGSTAT := fun e => absurd (e ▸ ha) (by decide)
    rw [State.resetWarm_eq, State.showLock, State.reg_setFld_other _ GSTAT_TBLOCK _ a hne, hcore a ha]
  · obtain ⟨-, -, hshow⟩ := s.warmStopped.warmKept.testsEnded.resetCore.showLock_spec
    rw [State.resetWarm_eq, hshow]
    exact State.flag_of_reg (f := TBSTAT_LOCK) (hcore aTBSTAT (by decide))

/-! ## What a reset leaves beside its registers (R502, R503) -/

/-- What resetDone states hangs neither on registers nor on sources that hold, nor on reports. -/
theorem resetDone_shown {w : State} (h : resetDone s w) (rs : SMap (BitVec 64)) (hd : List Nat) (l : List Report) :
    resetDone s { w with regs := rs, held := hd, reports := l } := h

/-- A state that holds what a reset keeps, once the rest is restored. -/
theorem resetDone_resetCore (hhours : v.hoursBurnt = s.hoursBurnt) (hclk : v.clk = s.clk) (hpend : v.pending = s.pending)
    (hflash : s.flashOp = none → v.flash = s.flash) : resetDone s v.resetCore :=
  ⟨rfl, rfl, rfl, rfl, rfl, rfl, rfl, rfl, hhours, hclk, hpend, hflash⟩

theorem State.resetWarm_done (s : State) : resetDone s s.resetWarm := by
  obtain ⟨fl, fr, hbreak, hflash⟩ := s.flashBreak_spec
  have hstop : State.OnlyStopped s.flashBreak s.warmStopped :=
    (State.onlyStopped_each (fun s e _ => s.onlyStopped_engStop _ _) _).trans (State.onlyStopped_stageSettle _)
  obtain ⟨_, _, _, _, _, _, _, _, hstopped⟩ := hstop
  have htest := State.onlyStopped_each (l := List.range 8) (fun s st _ => s.onlyStopped_testStep st) s.warmStopped.warmKept
  obtain ⟨_, _, _, _, _, _, _, _, hended⟩ := htest
  rw [State.resetWarm_eq, State.showLock]
  refine resetDone_shown (w := s.warmStopped.warmKept.testsEnded.resetCore) (resetDone_resetCore ?_ ?_ ?_ fun hno => ?_) _ _ _
  all_goals rw [State.testsEnded, hended, State.warmKept, hstopped, hbreak]
  exact hflash hno

/-- What a power-on reset restores the rest of. -/
def State.powerKept (s : State) : State :=
  { s with
    regs := SMap.keep (fun a => a == aPLIFE) s.regs
    stx := s.stx.map fun (e : Nat × Stack) => (e.1, e.2.warm)
    engines := [], reports := [], tsync := ⟨0, 0, 0, 0, []⟩ }

theorem State.resetPower_eq (s : State) : s.resetPower = s.flashBreak.powerKept.resetCore := rfl

theorem State.resetPower_done (s : State) : resetDone s s.resetPower := by
  obtain ⟨fl, fr, hbreak, hflash⟩ := s.flashBreak_spec
  rw [State.resetPower_eq]
  refine resetDone_resetCore ?_ ?_ ?_ fun hno => ?_
  all_goals rw [State.powerKept, hbreak]
  exact hflash hno

theorem State.reg_resetPower (s : State) {a : Nat} (h : a ≠ aPLIFE) : s.resetPower.reg a = regReset a := by
  rw [State.resetPower_eq, State.reg_resetCore]
  refine (SMap.get_keep regReset (fun a => a == aPLIFE) s.flashBreak.regs a).trans (if_neg ?_)
  simpa using h

/-! ## A source is taken (R498) -/

/-- The sources that hold the device once src does. -/
def State.heldWith (s : State) (src : Nat) : List Nat := if s.held.contains src then s.held else s.held ++ [src]

theorem State.mem_heldWith (s : State) (src : Nat) : src ∈ s.heldWith src := by
  unfold State.heldWith
  split
  next h => exact List.contains_iff_mem.mp h
  next => exact List.mem_append_right _ (List.mem_singleton_self _)

/-- A power-on reset shows its cause. -/
def State.powerCaused (s : State) (hd : List Nat) : State := (({ s with held := hd } : State).setFld CRSTCAUSE_LAST 1).primReport 0xA3 0 0 1

/-- A reset that comes while another is in progress leaves the cause shown. -/
def State.mergeCaused (s : State) (hd : List Nat) (last : Nat) : State := ({ s with held := hd } : State).setFld CRSTCAUSE_LAST last

/-- A warm reset shows its cause, and is counted. -/
def State.warmCaused (s : State) (hd : List Nat) (src : Nat) : State :=
  ((({ s with held := hd } : State).setFld CRSTCAUSE_LAST src).bump CRSTCAUSE_DEVRST 1).primReport 0xA3 0 0 src

theorem State.deviceReset_power (hboot : s.boot ≠ .hold) : s.deviceReset 1 = s.resetPower.powerCaused (s.heldWith 1) := by
  rw [State.deviceReset, if_neg hboot]
  rfl

theorem State.deviceReset_warm {src : Nat} (hboot : s.boot ≠ .hold) (hsrc : src ≠ 1) : s.deviceReset src =
    if s.inResetNow then s.resetWarm.mergeCaused (s.heldWith src) (s.fld CRSTCAUSE_LAST) else s.resetWarm.warmCaused (s.heldWith src) src := by
  unfold State.deviceReset
  rw [if_neg hboot]
  dsimp only
  rw [if_neg hsrc]
  rfl

theorem State.deviceReset_hold (hboot : s.boot = .hold) (src : Nat) : s.deviceReset src = s := if_pos hboot

/-- What a source shows of itself: u is w but for CRSTCAUSE, the sources that hold, and reports. -/
def State.OnlyCaused (w : State) (hd : List Nat) (u : State) : Prop :=
  (∃ rs l, u = { w with regs := rs, held := hd, reports := l }) ∧ w.sameRegs u [aCRSTCAUSE]

theorem State.powerCaused_spec (w : State) (hd : List Nat) :
    State.OnlyCaused w hd (w.powerCaused hd) ∧ (w.powerCaused hd).fld CRSTCAUSE_LAST = 1 := by
  have hregs : (w.powerCaused hd).regs = (w.setFld CRSTCAUSE_LAST 1).regs := rfl
  refine ⟨⟨⟨_, _, rfl⟩, fun a ha => ?_⟩, ?_⟩
  · rw [State.reg_congr hregs]
    exact State.sameRegs_setFld (w.sameRegs_refl _) (by decide) _ a ha
  · rw [State.fld_congr hregs, State.fld_setFld_same _ _ _ (by decide)]
    rfl

theorem State.mergeCaused_spec (w : State) (hd : List Nat) {last : Nat} (hlast : last < 16) :
    State.OnlyCaused w hd (w.mergeCaused hd last) ∧ (w.mergeCaused hd last).fld CRSTCAUSE_LAST = last := by
  have hregs : (w.mergeCaused hd last).regs = (w.setFld CRSTCAUSE_LAST last).regs := rfl
  refine ⟨⟨⟨_, w.reports, rfl⟩, fun a ha => ?_⟩, ?_⟩
  · rw [State.reg_congr hregs]
    exact State.sameRegs_setFld (w.sameRegs_refl _) (by decide) _ a ha
  · rw [State.fld_congr hregs, State.fld_setFld_same _ _ _ (by decide)]
    exact Nat.mod_eq_of_lt hlast

theorem State.warmCaused_spec (w : State) (hd : List Nat) {src : Nat} (hsrc : src < 16) :
    State.OnlyCaused w hd (w.warmCaused hd src) ∧ (w.warmCaused hd src).fld CRSTCAUSE_LAST = src := by
  have hregs : (w.warmCaused hd src).regs = ((w.setFld CRSTCAUSE_LAST src).bump CRSTCAUSE_DEVRST 1).regs := rfl
  refine ⟨⟨⟨_, _, rfl⟩, fun a ha => ?_⟩, ?_⟩
  · rw [State.reg_congr hregs]
    exact State.sameRegs_setFld (State.sameRegs_setFld (w.sameRegs_refl _) (by decide) _) (by decide) _ a ha
  · rw [State.fld_congr hregs, State.bump, State.fld_setFld_apart _ _ (by decide), State.fld_setFld_same _ _ _ (by decide)]
    exact Nat.mod_eq_of_lt hsrc

/-- Source src has been taken from s (R498, R503). -/
structure ResetTaken (s : State) (src : Nat) (u : State) : Prop where
  done : resetDone s u
  held : src ∈ u.held
  last : src = 1 ∨ s.boot = .up → u.fld CRSTCAUSE_LAST = src
  merged : src ≠ 1 → s.boot ≠ .up → u.fld CRSTCAUSE_LAST = s.fld CRSTCAUSE_LAST
  lost : ∀ a, a ≠ aCRSTCAUSE → (src = 1 → a ≠ aPLIFE) → (src ≠ 1 → keptWarm a = false ∧ a ≠ aGSTAT) → u.reg a = regReset a
  kept : src ≠ 1 → s.engines = [] → s.stageWait = [] → (∀ st < 8, s.flag (SSTAT_TEST st) = false) →
    (∀ a, keptWarm a = true → a ≠ aCRSTCAUSE → u.reg a = s.reg a) ∧ u.flag GSTAT_TBLOCK = s.flag TBSTAT_LOCK

theorem State.OnlyCaused.done {w : State} {hd : List Nat} (h : State.OnlyCaused w hd u) (hw : resetDone s w) : resetDone s u := by
  obtain ⟨⟨rs, l, rfl⟩, -⟩ := h
  exact resetDone_shown hw rs hd l

theorem State.OnlyCaused.held {w : State} {hd : List Nat} (h : State.OnlyCaused w hd u) : u.held = hd := by
  obtain ⟨⟨rs, l, rfl⟩, -⟩ := h
  rfl

theorem State.OnlyCaused.reg {w : State} {hd : List Nat} (h : State.OnlyCaused w hd u) {a : Nat} (ha : a ≠ aCRSTCAUSE) : u.reg a = w.reg a :=
  h.2 a (by simpa using ha)

/-- The power-on reset. -/
theorem State.deviceReset_power_taken (hboot : s.boot ≠ .hold) : ResetTaken s 1 (s.deviceReset 1) := by
  rw [State.deviceReset_power hboot]
  obtain ⟨honly, hlast⟩ := s.resetPower.powerCaused_spec (s.heldWith 1)
  exact {
    done := honly.done s.resetPower_done
    held := by rw [honly.held]; exact s.mem_heldWith 1
    last := fun _ => hlast
    merged := fun h => absurd rfl h
    lost := fun a ha hlife _ => (honly.reg ha).trans (s.reg_resetPower (hlife rfl))
    kept := fun h => absurd rfl h }

/-- Any other source. -/
theorem State.deviceReset_warm_taken {src : Nat} (hboot : s.boot ≠ .hold) (hsrc : src ≠ 1) (hlt : src < 16) :
    ResetTaken s src (s.deviceReset src) := by
  have htaken : ∀ u, State.OnlyCaused s.resetWarm (s.heldWith src) u → (src = 1 ∨ s.boot = .up → u.fld CRSTCAUSE_LAST = src) →
      (src ≠ 1 → s.boot ≠ .up → u.fld CRSTCAUSE_LAST = s.fld CRSTCAUSE_LAST) → ResetTaken s src u := fun u honly hlast hmerged => {
    done := honly.done s.resetWarm_done
    held := by rw [honly.held]; exact s.mem_heldWith src
    last := hlast
    merged := hmerged
    lost := fun a ha _ hno => (honly.reg ha).trans (s.reg_resetWarm_lost (hno hsrc).1 (hno hsrc).2)
    kept := fun _ heng hstage htest => by
      obtain ⟨hregs, hlock⟩ := State.reg_resetWarm_kept heng hstage htest
      exact ⟨fun a ha hne => (honly.reg hne).trans (hregs a ha), (State.flag_of_reg (f := GSTAT_TBLOCK) (honly.reg (by decide))).trans hlock⟩ }
  rw [State.deviceReset_warm hboot hsrc]
  by_cases hup : s.boot = .up
  · obtain ⟨honly, hlast⟩ := s.resetWarm.warmCaused_spec (s.heldWith src) hlt
    rw [if_neg (by simp [State.inResetNow, hup])]
    exact htaken _ honly (fun _ => hlast) fun _ h => absurd hup h
  · obtain ⟨honly, hlast⟩ := s.resetWarm.mergeCaused_spec (s.heldWith src) (s.fld_lt CRSTCAUSE_LAST)
    rw [if_pos (by simp [State.inResetNow, hup])]
    exact htaken _ honly (fun h => absurd (h.resolve_left hsrc) hup) fun _ _ => hlast

theorem State.deviceReset_taken {src : Nat} (hboot : s.boot ≠ .hold) (hlt : src < 16) : ResetTaken s src (s.deviceReset src) := by
  by_cases hsrc : src = 1
  · rw [hsrc]; exact State.deviceReset_power_taken hboot
  · exact State.deviceReset_warm_taken hboot hsrc hlt

/-! ## The pin filter (R499) -/

theorem State.pinReset_ignored {us : Nat} (src : Nat) (h : us < 10 ∨ s.boot = .hold ∨ s.pinsOff = true) : s.pinReset us src = s :=
  if_pos (by tauto)

theorem State.pinReset_taken {us : Nat} (src : Nat) (hus : 100 ≤ us) (hboot : s.boot ≠ .hold) (hpins : s.pinsOff = false) :
    s.pinReset us src = s.deviceReset src := by
  rw [State.pinReset, if_neg (by rw [hpins]; simp only [Bool.false_eq_true, or_false]; rintro (h | h); exacts [hboot h, by omega]), if_pos hus]

theorem State.pinReset_between {us : Nat} (src : Nat) (hlo : 10 ≤ us) (hhi : us < 100) (hboot : s.boot ≠ .hold) (hpins : s.pinsOff = false) :
    s.pinReset us src = if Config.coin s.fresh then s.freshen.deviceReset src else s.freshen.bump CRSTCAUSE_IGNORED 1 := by
  rw [State.pinReset, if_neg (by rw [hpins]; simp only [Bool.false_eq_true, or_false]; rintro (h | h); exacts [hboot h, by omega]),
    if_neg (by omega)]

/-- An assertion that is ignored is counted. -/
theorem State.ignored_spec (s : State) :
    (s.freshen.bump CRSTCAUSE_IGNORED 1).fld CRSTCAUSE_IGNORED = min (2 ^ CRSTCAUSE_IGNORED.w - 1) (s.fld CRSTCAUSE_IGNORED + 1)
      ∧ s.sameRegs (s.freshen.bump CRSTCAUSE_IGNORED 1) [aCRSTCAUSE] ∧ s.sameMem (s.freshen.bump CRSTCAUSE_IGNORED 1) := by
  refine ⟨State.fld_bump _ _ _ (by decide), ?_, State.sameMem_of_stores rfl rfl rfl⟩
  exact State.sameRegs_setFld (u := s.freshen) (State.sameRegs_of_regs rfl _) (by decide) _

/-! ## The release, and the hold (R45, R47, R502) -/

/-- Source src holds the device no longer. -/
def State.unheld (s : State) (src : Nat) : State :=
  if src = 1 then ({ s with held := s.held.erase src } : State).setFld TBTIME_TIME 0 else { s with held := s.held.erase src }

theorem State.resetOut_eq {src : Nat} (h : src ∈ s.held) : s.resetOut src =
    if (s.unheld src).held.isEmpty && (s.unheld src).boot == .inReset then { s.unheld src with boot := .released } else s.unheld src := by
  rw [State.resetOut, if_pos (List.contains_iff_mem.mpr h)]
  rfl

/-- The start of site time where PORST_N is released. -/
theorem State.unheld_spec (s : State) (src : Nat) :
    (∃ rs, s.unheld src = { s with regs := rs, held := s.held.erase src }) ∧ (src = 1 → (s.unheld src).fld TBTIME_TIME = 0)
      ∧ s.sameRegs (s.unheld src) (if src = 1 then [aTBTIME] else []) := by
  have hsame : ∀ l, s.sameRegs ({ s with held := s.held.erase src } : State) l := State.sameRegs_of_regs rfl
  unfold State.unheld
  by_cases hsrc : src = 1
  · rw [if_pos hsrc, if_pos hsrc]
    exact ⟨⟨_, rfl⟩, fun _ => (State.fld_setFld_same _ _ _ (by decide)).trans (Nat.zero_mod _),
      State.sameRegs_setFld (f := TBTIME_TIME) (hsame _) List.mem_cons_self _⟩
  · rw [if_neg hsrc, if_neg hsrc]
    exact ⟨⟨s.regs, rfl⟩, fun h => absurd h hsrc, hsame _⟩

/-- A release ends no step but the reset itself. -/
theorem State.resetOut_boot {src : Nat} (h : s.boot ≠ .inReset) : (s.resetOut src).boot = s.boot := by
  by_cases hmem : src ∈ s.held
  · obtain ⟨⟨rs, hun⟩, -⟩ := s.unheld_spec src
    rw [State.resetOut_eq hmem, if_neg (by rw [hun]; simp [h]), hun]
  · rw [State.resetOut, if_neg (by simpa using hmem)]

end

end Sys2Proof.Machine

namespace Sys2Proof.Proofs
open Sys2Proof Sys2Proof.Machine

/-- A pin of Table 16.12 and its source number. -/
theorem deviceResets_pin (s : State) (us : Nat) {i : Instr} {src : Nat} (hexec : exec i s = .next (s.pinReset us src)) (hlt : src < 16) :
    (us < 10 ∨ s.boot = .hold ∨ s.pinsOff = true → exec i s = .next s) ∧
    (100 ≤ us → s.boot ≠ .hold → s.pinsOff = false → Gives (exec i s) fun u => resetDone s u ∧ src ∈ u.held ∧
      (src = 1 ∨ s.boot = .up → u.fld CRSTCAUSE_LAST = src) ∧ (src ≠ 1 → s.boot ≠ .up → u.fld CRSTCAUSE_LAST = s.fld CRSTCAUSE_LAST) ∧
      (∀ a, a ≠ aCRSTCAUSE → (src = 1 → a ≠ aPLIFE) → (src ≠ 1 → keptWarm a = false ∧ a ≠ aGSTAT) → u.reg a = regReset a) ∧
      (src ≠ 1 → s.engines = [] → s.stageWait = [] → (∀ st < 8, s.flag (SSTAT_TEST st) = false) →
        (∀ a, keptWarm a = true → a ≠ aCRSTCAUSE → u.reg a = s.reg a) ∧ u.flag GSTAT_TBLOCK = s.flag TBSTAT_LOCK)) ∧
    (10 ≤ us → us < 100 → s.boot ≠ .hold → s.pinsOff = false → Gives (exec i s) fun u =>
      (resetDone s u ∧ src ∈ u.held) ∨
      (u.boot = s.boot ∧ u.held = s.held ∧ u.fld CRSTCAUSE_IGNORED = min (2 ^ CRSTCAUSE_IGNORED.w - 1) (s.fld CRSTCAUSE_IGNORED + 1)
        ∧ s.sameRegs u [aCRSTCAUSE] ∧ s.sameMem u ∧ u.sent = s.sent)) := by
  rw [hexec]
  refine ⟨fun hno => ?_, fun hus hboot hpins => ⟨_, rfl, ?_⟩, fun hlo hhi hboot hpins => ⟨_, rfl, ?_⟩⟩
  · rw [State.pinReset_ignored src hno]
  · rw [State.pinReset_taken src hus hboot hpins]
    have h := State.deviceReset_taken hboot hlt
    exact ⟨h.done, h.held, h.last, h.merged, h.lost, h.kept⟩
  · rw [State.pinReset_between src hlo hhi hboot hpins]
    split
    · have h := State.deviceReset_taken (s := s.freshen) hboot hlt
      exact .inl ⟨h.done, h.held⟩
    · obtain ⟨hcount, hregs, hmem⟩ := s.ignored_spec
      exact .inr ⟨rfl, rfl, hcount, hregs, hmem, rfl⟩

/-- A brownout is PORST_N's assertion, and a power cycle clears all but the flash. -/
theorem deviceResets_power (s : State) :
    (1 ∉ s.held → s.boot ≠ .hold → Gives (exec .vin48Brownout s) fun u => resetDone s u ∧ 1 ∈ u.held ∧ u.fld CRSTCAUSE_LAST = 1) ∧
    (1 ∈ s.held → exec .vin48Brownout s = .next s) ∧
    (Gives (exec .powerCycle s) fun u => resetDone s u ∧ u.held = [1] ∧ u.regs = [] ∧ u.stk = [] ∧ u.alert = false) := by
  have hexec : exec .vin48Brownout s = .next (if s.held.contains 1 then s else s.deviceReset 1) := rfl
  refine ⟨fun hno hboot => ⟨_, hexec, ?_⟩, fun hin => ?_, ⟨_, rfl, ?_, rfl, rfl, rfl, rfl⟩⟩
  · rw [if_neg (by simpa using hno)]
    have h := State.deviceReset_power_taken hboot
    exact ⟨h.done, h.held, h.last (.inl rfl)⟩
  · rw [hexec, if_pos (List.contains_iff_mem.mpr hin)]
  · obtain ⟨fl, fr, hbreak, hflash⟩ := s.flashBreak_spec
    refine ⟨rfl, rfl, rfl, rfl, rfl, rfl, rfl, rfl, rfl, rfl, rfl, fun hno => ?_⟩
    rw [hbreak]
    exact hflash hno

theorem exec_resetRelease {s : State} {src : Nat} (h : src = 5 → s.pow.trip = false) : exec (.resetRelease src) s = .next (s.resetOut src) := by
  refine congrArg Host.Outcome.next (if_neg ?_)
  rintro ⟨hsrc, htrip⟩
  rw [h hsrc] at htrip
  cases htrip

/-- The last source's release. -/
theorem deviceResets_last {s : State} {src : Nat} (hheld : s.held = [src]) (hboot : s.boot = .inReset) (htrip : src = 5 → s.pow.trip = false) :
    Gives (exec (.resetRelease src) s) fun u =>
      u.held = [] ∧ u.boot = .released ∧ (src = 1 → u.fld TBTIME_TIME = 0) ∧ s.sameRegs u (if src = 1 then [aTBTIME] else []) ∧ s.sameMem u := by
  refine ⟨_, exec_resetRelease htrip, ?_⟩
  obtain ⟨⟨rs, hun⟩, htime, hregs⟩ := s.unheld_spec src
  have hempty : s.held.erase src = [] := by rw [hheld, List.erase_cons_head]
  rw [State.resetOut_eq (by rw [hheld]; exact List.mem_singleton_self _), if_pos (by rw [hun, hempty]; simp [hboot])]
  refine ⟨by rw [hun]; exact hempty, rfl, fun h => (State.fld_congr rfl _).trans (htime h), fun a ha => ?_, ?_⟩
  · exact (State.reg_congr rfl a).trans (hregs a ha)
  · rw [hun]
    exact State.sameMem_of_stores rfl rfl rfl

/-- Any other release leaves the device held. -/
theorem deviceResets_others {s : State} {src k : Nat} (hsrc : src ∈ s.held) (hk : k ∈ s.held.erase src) (htrip : src = 5 → s.pow.trip = false) :
    Gives (exec (.resetRelease src) s) fun u => u.held = s.held.erase src ∧ u.boot = s.boot := by
  refine ⟨_, exec_resetRelease htrip, ?_⟩
  obtain ⟨⟨rs, hun⟩, -⟩ := s.unheld_spec src
  have hsome : (s.held.erase src).isEmpty = false := List.isEmpty_eq_false_iff_exists_mem.mpr ⟨k, hk⟩
  rw [State.resetOut_eq hsrc, if_neg (by rw [hun]; simp [hsome]), hun]
  exact ⟨rfl, rfl⟩

theorem exec_imageApply_hold {s : State} (hboot : s.boot = .hold) : exec .imageApply s = .next s := by
  change execImageApply s = _
  rw [execImageApply, hboot]

/-- In arbitration hold neither a reset's source nor the start-up goes on. -/
theorem deviceResets_hold {s : State} (us n : Nat) (hboot : s.boot = .hold) :
    ∀ i ∈ ([.porstNAssert us, .perstAssert us, .warmrstNAssert us, .vin48Brownout, .watchdogExpiry, .thermalTrip n, .thermtripRelease,
      .resetRelease n, .mgcLeaveReset, .imageReadDone false, .imageApply, .imageApplied, .arbitrationAttempt] : List Instr),
      Gives (exec i s) fun u => u.boot = .hold := by
  have hpin : ∀ src, (s.pinReset us src).boot = .hold := fun src => by rw [State.pinReset_ignored src (.inr (.inl hboot))]; exact hboot
  have hreset : ∀ (u : State) src, u.boot = .hold → (u.deviceReset src).boot = .hold := fun u src hu => by rw [State.deviceReset_hold hu]; exact hu
  have hout : ∀ (u : State) src, u.boot = .hold → (u.resetOut src).boot = .hold := fun u src hu => by
    rw [State.resetOut_boot (by rw [hu]; decide)]; exact hu
  have hif : ∀ {c : Prop} [Decidable c] {a b : State}, (c → a.boot = .hold) → (¬ c → b.boot = .hold) → (if c then a else b).boot = .hold := by
    intro c _ a b ha hb
    split
    · next h => exact ha h
    · next h => exact hb h
  intro i hi
  simp only [List.mem_cons, List.not_mem_nil, or_false] at hi
  obtain rfl | rfl | rfl | rfl | rfl | rfl | rfl | rfl | rfl | rfl | rfl | rfl | rfl := hi
  · exact ⟨_, rfl, hpin 1⟩
  · exact ⟨_, rfl, hpin 2⟩
  · exact ⟨_, rfl, hpin 3⟩
  · exact ⟨_, rfl, hif (fun _ => hboot) fun _ => hreset s 1 hboot⟩
  · exact ⟨_, rfl, hif (fun h => absurd (hboot.symm.trans h.1) nofun) fun _ => hboot⟩
  · refine ⟨_, rfl, hif (fun _ => hboot) fun _ => hif (fun _ => hreset _ 5 hboot) fun h => absurd (beq_iff_eq.mpr hboot) h⟩
  · exact ⟨_, rfl, hif (fun _ => hout _ 5 hboot) fun _ => hboot⟩
  · exact ⟨_, rfl, hif (fun _ => hboot) fun _ => hout s n hboot⟩
  · exact ⟨_, rfl, hif (fun h => absurd (hboot.symm.trans h) nofun) fun _ => hboot⟩
  · exact ⟨_, rfl, hif (fun _ => hboot) fun h => absurd (by rw [hboot]; nofun) h⟩
  · exact ⟨s, exec_imageApply_hold hboot, hboot⟩
  · exact ⟨_, rfl, hif (fun _ => hboot) fun h => absurd (.inl (by rw [hboot]; nofun)) h⟩
  · exact ⟨_, rfl, hif (fun h => absurd (hboot.symm.trans h.1) nofun) fun _ => hboot⟩

/-- Settles O55: a source that passes the pin filter is taken, and of the rest each step of the release and of the hold says what it does. -/
theorem deviceResets : Obligations.DeviceResets := by
  unfold Obligations.DeviceResets
  refine ⟨fun r hr s us => ?pins, deviceResets_power, fun s src => deviceResets_last, fun s src k => deviceResets_others,
    fun s us n hboot => deviceResets_hold us n hboot⟩
  case pins =>
    simp only [List.mem_cons, List.not_mem_nil, or_false] at hr
    obtain rfl | rfl | rfl := hr
    · exact deviceResets_pin s us rfl (by decide)
    · exact deviceResets_pin s us rfl (by decide)
    · exact deviceResets_pin s us rfl (by decide)

end Sys2Proof.Proofs
end

section
/-! SUPPORT. Commands of one tile's own units: what an instruction that issues, or finds a trap, leaves alone, and what reads of clean bytes
answer (R151, R152, R184, R203). -/

namespace Sys2Proof.Machine

/-! ## Registers shown -/

theorem State.OnlySet.trans {l : List Nat} {s u v : State} (h : State.OnlySet l s u) (k : State.OnlySet l u v) : State.OnlySet l s v := by
  obtain ⟨⟨rs, rfl⟩, hregs⟩ := h
  obtain ⟨⟨rs', rfl⟩, hregs'⟩ := k
  exact ⟨⟨rs', rfl⟩, State.sameRegs_trans hregs hregs'⟩

theorem State.OnlySet.mono {l l' : List Nat} {s u : State} (h : State.OnlySet l s u) (hsub : l ⊆ l') : State.OnlySet l' s u :=
  ⟨h.1, State.sameRegs_mono h.2 hsub⟩

theorem State.OnlySet.setReg {l : List Nat} {s u : State} (h : State.OnlySet l s u) {a : Nat} (ha : a ∈ l) (w : BitVec 64) :
    State.OnlySet l s (u.setReg a w) := by
  obtain ⟨⟨rs, rfl⟩, hregs⟩ := h
  exact ⟨⟨_, rfl⟩, fun b hb => (State.reg_setReg_other _ a b w fun e => hb (e ▸ ha)).trans (hregs b hb)⟩

theorem State.OnlySet.tile {l : List Nat} {s u : State} (h : State.OnlySet l s u) (t : Nat) : u.tile t = s.tile t := by
  obtain ⟨⟨rs, rfl⟩, -⟩ := h
  rfl

theorem State.OnlySet.fld {l : List Nat} {s u : State} (h : State.OnlySet l s u) {f : Fld} (hf : f.addr ∉ l) : u.fld f = s.fld f :=
  State.fld_of_sameRegs h.2 hf

theorem State.onlySet_syncMx (s : State) (t : Nat) : State.OnlySet [aTMXSTAT t] s (s.syncMx t) :=
  ((State.OnlySet.refl _ s).setFld (f := TMXSTAT_BUSY t) List.mem_cons_self _).setFld (f := TMXSTAT_STAVAL t) List.mem_cons_self _

theorem State.onlySet_syncPois (s : State) (t : Nat) : State.OnlySet [aTMXSTAT t] s (s.syncPois t) :=
  (State.OnlySet.refl _ s).setFld (f := TMXSTAT_ACCPOIS t) List.mem_cons_self _

/-- The shown mode is not among the fields that follow the products in flight. -/
theorem State.qmode_syncMx (s : State) (t : Nat) : (s.syncMx t).fld (TMXSTAT_QMODE t) = s.fld (TMXSTAT_QMODE t) := by
  have hbusy : (TMXSTAT_BUSY t).apart (TMXSTAT_QMODE t) = true := by simp [Fld.apart, TMXSTAT_BUSY, TMXSTAT_QMODE]
  have hsta : (TMXSTAT_STAVAL t).apart (TMXSTAT_QMODE t) = true := by simp [Fld.apart, TMXSTAT_STAVAL, TMXSTAT_QMODE]
  exact (State.fld_setFld_apart _ _ hsta).trans (State.fld_setFld_apart _ _ hbusy)

theorem State.onlySet_beatsOpen (s : State) (t : Nat) : State.OnlySet [aTMXBUSY t, aTMXWAIT t] s (s.beatsOpen t) :=
  ((State.OnlySet.refl _ s).setReg List.mem_cons_self _).setReg (by simp) _

/-! ## The device but one tile -/

/-- u is s but for tile t and the registers at addresses in l. -/
def State.OnlyUnit (t : Nat) (l : List Nat) (s u : State) : Prop := s.sameTilesBut u t ∧ s.sameRegs u l ∧ s.sameRest u

theorem State.OnlyUnit.trans {t : Nat} {l : List Nat} {s u v : State} (h : State.OnlyUnit t l s u) (k : State.OnlyUnit t l u v) :
    State.OnlyUnit t l s v := by
  obtain ⟨htiles, hregs, hrest⟩ := h
  obtain ⟨htiles', hregs', hrest'⟩ := k
  refine ⟨fun i hi => (htiles' i hi).trans (htiles i hi), State.sameRegs_trans hregs hregs', ?_⟩
  simp only [State.sameRest] at hrest hrest' ⊢
  simp only [hrest', hrest, and_self]

theorem State.OnlyUnit.mono {t : Nat} {l l' : List Nat} {s u : State} (h : State.OnlyUnit t l s u) (hsub : l ⊆ l') : State.OnlyUnit t l' s u :=
  ⟨h.1, State.sameRegs_mono h.2.1 hsub, h.2.2⟩

theorem State.OnlyTile.onlyUnit {t : Nat} {s u : State} (h : State.OnlyTile t s u) : State.OnlyUnit t [aTSQSTAT t] s u :=
  ⟨h.tiles, h.regs, h.rest⟩

theorem State.OnlySet.onlyUnit {l : List Nat} {s u : State} (h : State.OnlySet l s u) (t : Nat) : State.OnlyUnit t l s u := by
  obtain ⟨⟨rs, rfl⟩, hregs⟩ := h
  exact ⟨fun _ _ => rfl, hregs, by simp [State.sameRest]⟩

theorem State.onlyUnit_setTile (s : State) (t : Nat) (x : Tile) (l : List Nat) : State.OnlyUnit t l s (s.setTile t x) :=
  ⟨fun k hk => s.tile_setTile_other t k x hk, fun _ _ => rfl, by simp [State.sameRest]⟩

theorem State.onlyUnit_modTile (s : State) (t : Nat) (f : Tile → Tile) (l : List Nat) : State.OnlyUnit t l s (s.modTile t f) :=
  s.onlyUnit_setTile t _ l

/-- Memory is left alone where the one tile that changes keeps its bank and its accumulator file. -/
theorem State.OnlyUnit.sameMem {t : Nat} {l : List Nat} {s u : State} (h : State.OnlyUnit t l s u) (ht : (s.tile t).sameMem (u.tile t)) :
    s.sameMem u := by
  obtain ⟨htiles, -, hstk, hmark, -⟩ := h
  refine ⟨fun k => ?_, fun d => by rw [State.stkByte, State.stkByte, hstk], fun d => by rw [State.markOf, State.markOf, hmark]⟩
  by_cases hk : k = t
  · exact hk ▸ ht
  · rw [htiles k hk]; exact ⟨fun _ => rfl, fun _ => rfl, fun _ => rfl⟩

theorem State.sameMem_modTile (s : State) (t : Nat) {f : Tile → Tile} (h : (s.tile t).sameMem (f (s.tile t))) : s.sameMem (s.modTile t f) :=
  (s.onlyUnit_modTile t f []).sameMem (by rwa [State.tile_modTile_same])

/-! ## What a tile's program computes with -/

/-- Registers, predicates, bank and accumulator file of a tile are as before. -/
structure Tile.Keeps (x y : Tile) : Prop where
  s : y.s = x.s
  a : y.a = x.a
  p : y.p = x.p
  bank : y.bank = x.bank
  acc : y.acc = x.acc
  accPois : y.accPois = x.accPois

theorem Tile.Keeps.trans {x y z : Tile} (h : x.Keeps y) (k : y.Keeps z) : x.Keeps z :=
  ⟨k.s.trans h.s, k.a.trans h.a, k.p.trans h.p, k.bank.trans h.bank, k.acc.trans h.acc, k.accPois.trans h.accPois⟩

theorem Tile.Keeps.sameMem {x y : Tile} (h : x.Keeps y) : x.sameMem y :=
  ⟨fun off => by rw [Tile.code, Tile.code, h.bank], fun w => by rw [Tile.accWord, Tile.accWord, h.acc],
    fun r => by rw [Tile.rowPois, Tile.rowPois, h.accPois]⟩

theorem Tile.Keeps.sameS {x y : Tile} (h : x.Keeps y) (but : List Nat) : x.sameS y but := fun i _ => by rw [Tile.sreg, Tile.sreg, h.s]
theorem Tile.Keeps.sameA {x y : Tile} (h : x.Keeps y) (but : List Nat) : x.sameA y but := fun i _ => by rw [Tile.areg, Tile.areg, h.a]
theorem Tile.Keeps.sameP {x y : Tile} (h : x.Keeps y) (but : List Nat) : x.sameP y but := fun i _ _ => by rw [Tile.preg, Tile.preg, h.p]

/-- A step of one tile that keeps what its program computes with, and only moves its sequencer, has the frame of a scalar instruction. -/
theorem State.OnlyUnit.scalarFrame {t : Nat} {s u : State} (h : State.OnlyUnit t [aTSQSTAT t] s u) (ht : (s.tile t).Keeps (u.tile t)) :
    scalarFrame t [] [] [] s u :=
  ⟨ht.sameS _, ht.sameA _, ht.sameP _, h.sameMem ht.sameMem, h.1, h.2.1, h.2.2⟩

/-! ## Issue -/

/-- An instruction that issues finds its tile able to, with no trap found and nothing fused before it. -/
theorem State.issues_tile {s : State} {t cls op : Nat} {b : BitVec 54} {rsv : Nat} {regs : List Nat} (h : s.issues t cls op b rsv regs = true) :
    (s.tile t).trap = none ∧ (s.tile t).fuse = none := by
  simp only [State.issues, State.due, State.canIssue, Bool.and_eq_true, Option.isNone_iff_eq_none] at h
  obtain ⟨⟨⟨⟨⟨⟨⟨⟨⟨-, htrap⟩, -⟩, -⟩, -⟩, -⟩, -⟩, hfuse⟩, -⟩, -⟩ := h
  exact ⟨htrap, hfuse⟩

/-- What an instruction that issues leaves: s' is the state with its effects, in which its sequencer stands where it did. -/
theorem State.perform_fall {s s' : State} {t : Nat} (f : State) (hpc : s'.pc t = s.pc t) (hlc : (s'.tile t).lc = (s.tile t).lc) :
    movesOn t s (s.perform t f (.fall s')) ∧ State.OnlyTile t s' (s.perform t f (.fall s'))
      ∧ ∃ l, (s.perform t f (.fall s')).tile t = { (s'.tile t).issued with lc := l } := by
  obtain ⟨honly, htile, hmove⟩ := (s'.modTile t Tile.issued).advance_spec t
  refine ⟨fun hno => ?_, (s'.onlyTile_modTile t _).trans honly, ?_⟩
  · have hloop : (s'.modTile t Tile.issued).noLoopEnd t := by
      rw [State.noLoopEnd, State.pc_modTile, hpc, State.tile_modTile_same]
      rw [State.noLoopEnd] at hno
      simpa only [Tile.loopAt, Tile.loop, Tile.issued, hlc] using hno
    have hnext := (hmove hloop).1
    rwa [State.seqPc, State.pc_modTile, hpc] at hnext
  · rwa [State.tile_modTile_same] at htile

theorem Tile.keeps_issued (x : Tile) (l : SMap LoopC) : x.Keeps { x.issued with lc := l } := ⟨rfl, rfl, rfl, rfl, rfl, rfl⟩

/-- A precise trap found by the instruction at PC is recorded, and nothing else changes. -/
theorem State.raise_trapsHere {s : State} {t : Nat} (h : (s.tile t).trap = none) (cause code : Nat) :
    trapsHere t cause code s (s.raise t cause false (s.pc t) code) := by
  have htile : (s.raise t cause false (s.pc t) code).tile t = { s.tile t with trap := some ⟨cause, false, s.pc t, code, s.pc t⟩ } := by
    simp [State.raise, h]
  have honly : State.OnlyUnit t [aTSQSTAT t] s (s.raise t cause false (s.pc t) code) := s.onlyUnit_modTile t _ _
  refine ⟨by rw [htile], State.pc_modTile _ _ _ _, honly.scalarFrame ?_⟩
  rw [htile]
  exact ⟨rfl, rfl, rfl, rfl, rfl, rfl⟩

/-! ## Reads of clean bytes -/

/-- Clean bytes of a bank are read as they are, and leave no trace. -/
theorem State.winRead_cleanRange {s : State} {t off n : Nat} (unit : Nat) (h : (s.tile t).cleanRange off n) :
    s.winRead t off n unit = (((s.tile t).bytesAt off n).map fun b => (b, false), s) := by
  obtain ⟨hbank, hclean⟩ := h
  rw [State.winRead_clean s t off n unit hbank hclean, Tile.bytesAt, List.map_map]
  congr 1
  exact List.map_congr_left fun k hk => Tile.value_of_clean (hclean k (List.mem_range.mp hk))

theorem anyPois_unmarked (bs : List Nat) : anyPois (bs.map fun b => (b, false)) = false := by simp [anyPois]

theorem map_fst_unmarked (bs : List Nat) : (bs.map fun b => (b, false)).map (·.1) = bs := by simp [Function.comp_def]

theorem valOf_unmarked (bs : List Nat) : valOf (bs.map fun b => (b, false)) = ofLE bs := by rw [valOf, map_fst_unmarked]

theorem nth_map_range {α : Type} (d : α) (f : Nat → α) {i n : Nat} (h : i < n) : nth d ((List.range n).map f) i = f i := by simp [nth, h]

end Sys2Proof.Machine
end

section
/-! SUPPORT. The stationary loaders and the operand port: what each event of theirs comes to (R55, R65, R74, R327, R328, R331 to R333). -/

namespace Sys2Proof.Machine

variable {s : State} {t q i : Nat} {p : Product}

/-! ## Blocks (R55, R65) -/

/-- A stationary block of product p, the i-th of tile t, has gone into the shadow of its unit. -/
def State.blockLoaded (s : State) (t q i : Nat) (p : Product) (bs : List Nat) (pois : Bool) : State :=
  (s.modTile t fun x => (x.setProd i { p with loaded := true }).setShadow q
    (some ⟨p.fw, mixedCodes p.fa p.fw, blockCells p bs, pois⟩)).syncMx t

theorem State.tile_blockLoaded (s : State) (t q i : Nat) (p : Product) (bs : List Nat) (pois : Bool) :
    (s.blockLoaded t q i p bs pois).tile t =
      ((s.tile t).setProd i { p with loaded := true }).setShadow q (some ⟨p.fw, mixedCodes p.fa p.fw, blockCells p bs, pois⟩) := by
  rw [State.blockLoaded, (State.onlySet_syncMx _ t).tile, State.tile_modTile_same]

@[simp] theorem Tile.shadowOf_setShadow (x : Tile) (q : Nat) (b : Option Stat) : (x.setShadow q b).shadowOf q = b :=
  SMap.get_set_same _ _ _ _

theorem State.onlyUnit_blockLoaded (s : State) (t q i : Nat) (p : Product) (bs : List Nat) (pois : Bool) :
    State.OnlyUnit t [aTMXSTAT t] s (s.blockLoaded t q i p bs pois) :=
  (s.onlyUnit_modTile t _ _).trans ((State.onlySet_syncMx _ t).onlyUnit t)

/-- What a block's load leaves, wherever its bytes came from: u is the state that it was loaded in, in which only the expansion buffers may differ. -/
theorem State.blockLoaded_spec {u : State} (hu : State.OnlyUnit t [aTMXSTAT t] s u) (hkeep : (s.tile t).Keeps (u.tile t))
    (hprods : (u.tile t).prods = (s.tile t).prods) (bs : List Nat) (pois : Bool) :
    let v := u.blockLoaded t q i p bs pois
    (v.tile t).shadowOf q = some ⟨p.fw, mixedCodes p.fa p.fw, blockCells p bs, pois⟩ ∧
      (v.tile t).prods = (s.tile t).prods.set i { p with loaded := true } ∧ s.sameMem v ∧ s.sameRegs v [aTMXSTAT t] := by
  have honly := hu.trans (u.onlyUnit_blockLoaded t q i p bs pois)
  have htile := u.tile_blockLoaded t q i p bs pois
  refine ⟨by rw [htile, Tile.shadowOf_setShadow], ?_, honly.sameMem ?_, honly.2.1⟩
  · rw [htile, ← hprods]; rfl
  · rw [htile]
    exact (hkeep.trans ⟨rfl, rfl, rfl, rfl, rfl, rfl⟩).sameMem

/-- A block's folios become the most recently used (R332). -/
def Tile.touchBlock (x : Tile) (p : Product) : Tile :=
  match (x.touchBuf p.folio).bufAt p.folio with
  | some a => if p.spans then (x.touchBuf p.folio).touchBuf (p.folio + a.len) else x.touchBuf p.folio
  | none => x.touchBuf p.folio

theorem Tile.touchBlock_spec (x : Tile) (p : Product) : x.Keeps (x.touchBlock p) ∧ (x.touchBlock p).prods = x.prods := by
  unfold Tile.touchBlock
  split
  · split <;> exact ⟨⟨rfl, rfl, rfl, rfl, rfl, rfl⟩, rfl⟩
  · exact ⟨⟨rfl, rfl, rfl, rfl, rfl, rfl⟩, rfl⟩

/-- The bytes of a product's block and whether they are poisoned, once they can be had, with the state that their reading leaves (R65, R328, R333). -/
def State.blockSource (s : State) (t : Nat) (p : Product) : Option ((List Nat × Bool) × State) :=
  let n := blockBytes p.qm p.fa p.fw
  if p.fo then
    if p.fpois then some ((List.replicate n 0, true), s)
    else ((s.tile t).foldedBlock p).map fun bs => ((bs.take n, false), s.modTile t (Tile.touchBlock · p))
  else some (((s.winRead t p.wBase n uPort).1.map (·.1), anyPois (s.winRead t p.wBase n uPort).1), (s.winRead t p.wBase n uPort).2)

theorem State.blockSource_plain (hfo : p.fo = false) (hclean : (s.tile t).cleanRange p.wBase (blockBytes p.qm p.fa p.fw)) :
    s.blockSource t p = some (((s.tile t).bytesAt p.wBase (blockBytes p.qm p.fa p.fw), false), s) := by
  simp only [State.blockSource, hfo, Bool.false_eq_true, if_false, State.winRead_cleanRange uPort hclean, map_fst_unmarked, anyPois_unmarked]

theorem State.blockSource_poisoned (hfo : p.fo = true) (hpois : p.fpois = true) :
    s.blockSource t p = some ((List.replicate (blockBytes p.qm p.fa p.fw) 0, true), s) := by
  simp only [State.blockSource, hfo, hpois, if_true]

theorem State.blockSource_folio {bs : List Nat} (hfo : p.fo = true) (hpois : p.fpois = false) (hheld : (s.tile t).foldedBlock p = some bs) :
    s.blockSource t p = some ((bs.take (blockBytes p.qm p.fa p.fw), false), s.modTile t (Tile.touchBlock · p)) := by
  simp only [State.blockSource, hfo, hpois, hheld, if_true, Bool.false_eq_true, if_false, Option.map_some]

/-- The oldest product with a block to load loads it once its bytes can be had. -/
theorem exec_stationaryLoadDone {u : State} {bs : List Nat} {pois : Bool} (hp : s.prodIs t q (fun p => !p.loaded && !p.failed) i p)
    (hfree : (s.tile t).shadowOf q = none) (hsource : s.blockSource t p = some ((bs, pois), u)) :
    exec (.stationaryLoadDone t q) s = .next (u.blockLoaded t q i p bs pois) := by
  have hexec : exec (.stationaryLoadDone t q) s = match s.blockSource t p with
      | none => .next s
      | some (d, u) => .next (u.blockLoaded t q i p d.1 d.2) := by
    rw [State.prodIs] at hp
    change execStationaryLoadDone t q s = _
    simp only [execStationaryLoadDone, hp, hfree, Option.isSome_none, Bool.false_eq_true, if_false]
    rfl
  rw [hexec, hsource]

/-! ## The operand port (R74, R327, R328, R332) -/

/-- Bytes of the folio at an offset that the port reads: as many as its length byte says, within its region. -/
def State.folioLen (s : State) (t off : Nat) : Nat := min (s.regionEnd t off - off) (max 16 ((s.tile t).peekLen off))

/-- The port has found folio off of product p to fail its check (R74). -/
def State.folioFailed (s : State) (t i : Nat) (p : Product) : State :=
  ((s.modTile t fun x => x.setProd i { p with failed := true }).bump (TFOLERR_CHKFAIL t) 1).raise t 6 true p.idx 0

/-- Touching a folio that no buffer holds changes nothing. -/
theorem Tile.touchBuf_of_not_held {x : Tile} {off : Nat} (h : x.bufAt off = none) : x.touchBuf off = x := by
  have hne : ∀ b ∈ x.exb, ¬ (b.off == off) = true := List.find?_eq_none.mp h
  have hnone : x.exb.filter (fun b => b.off == off) = [] := List.filter_eq_nil_iff.mpr hne
  have hall : x.exb.filter (fun b => b.off != off) = x.exb := List.filter_eq_self.mpr fun b hb => by simpa using hne b hb
  rw [Tile.touchBuf, hnone, hall, List.append_nil]

section
variable (hp : s.prodIs t q (fun p => p.fo && !p.loaded && !p.failed && !p.fpois) i p) (hnone : (s.tile t).bufAt p.folio = none)
include hp hnone

theorem exec_portExpansionDone_plain {plain : List Nat} (hclean : (s.tile t).cleanRange p.folio (s.folioLen t p.folio))
    (hdec : folioDecode ((s.tile t).bytesAt p.folio (s.folioLen t p.folio)) = some plain) :
    exec (.portExpansionDone t q) s = .next (s.modTile t fun x => (x.touchBuf p.folio).holdBuf ⟨p.folio, s.folioLen t p.folio, plain⟩) := by
  rw [State.prodIs] at hp
  rw [State.folioLen] at hclean hdec
  change execPortExpansionDone t q s = _
  simp only [execPortExpansionDone, hp, hnone, State.winRead_cleanRange uPort hclean, anyPois_unmarked, Bool.false_eq_true, if_false,
    map_fst_unmarked, hdec, State.folioLen]

theorem exec_portExpansionDone_failed (hclean : (s.tile t).cleanRange p.folio (s.folioLen t p.folio))
    (hdec : folioDecode ((s.tile t).bytesAt p.folio (s.folioLen t p.folio)) = none) :
    exec (.portExpansionDone t q) s = .next (s.folioFailed t i p) := by
  rw [State.prodIs] at hp
  rw [State.folioLen] at hclean hdec
  change execPortExpansionDone t q s = _
  simp only [execPortExpansionDone, hp, hnone, State.winRead_cleanRange uPort hclean, anyPois_unmarked, Bool.false_eq_true, if_false,
    map_fst_unmarked, hdec, State.folioFailed]

theorem exec_portExpansionDone_poisoned {bs : List (Nat × Bool)} (hread : s.winRead t p.folio (s.folioLen t p.folio) uPort = (bs, s))
    (hpois : anyPois bs = true) :
    exec (.portExpansionDone t q) s = .next (s.modTile t fun x => x.setProd i { p with fpois := true }) := by
  rw [State.prodIs] at hp
  rw [State.folioLen] at hread
  change execPortExpansionDone t q s = _
  simp only [execPortExpansionDone, hp, hnone, hread, hpois, if_true]

end

/-- Bytes each clean or under the poison marker are read without a trace. -/
theorem State.winRead_cleanOrPoison {off n : Nat} (unit : Nat) (hbank : off + n ≤ 0x200000)
    (h : ∀ k < n, (s.tile t).clean (off + k) = true ∨ (s.tile t).classOf (off + k) = .poison) :
    s.winRead t off n unit = ((List.range n).map fun k => ((s.tile t).classOf (off + k)).value, s) := by
  unfold State.winRead
  rw [readMany_pure _ fun o => ((s.tile t).classOf o).value]
  · simp only [List.map_map, Function.comp_def]
  · intro o ho
    obtain ⟨k, hk, rfl⟩ := List.mem_map.mp ho
    have hk := List.mem_range.mp hk
    have hlt : off + k < 0x200000 := by omega
    rw [State.winByte, if_pos hlt]
    rcases h k hk with hclean | hpois
    · exact s.bankByte_clean t _ unit hclean
    · simp [State.bankByte, hpois, State.noteByte]

/-- A failed check is trapped, counted and marked in the product, and no memory changes. -/
theorem State.folioFailed_spec (htrap : (s.tile t).trap = none) :
    ((s.folioFailed t i p).tile t).trap = some ⟨6, true, p.idx, 0, s.pc t⟩ ∧
      (s.folioFailed t i p).fld (TFOLERR_CHKFAIL t) = min (2 ^ (TFOLERR_CHKFAIL t).w - 1) (s.fld (TFOLERR_CHKFAIL t) + 1) ∧
      ((s.folioFailed t i p).tile t).prods = (s.tile t).prods.set i { p with failed := true } ∧ s.sameMem (s.folioFailed t i p) := by
  let marked := s.modTile t fun x => x.setProd i { p with failed := true }
  let counted := marked.bump (TFOLERR_CHKFAIL t) 1
  have hcounted : State.OnlySet [aTFOLERR t] marked counted := (State.OnlySet.refl _ marked).setFld (f := TFOLERR_CHKFAIL t) List.mem_cons_self _
  have hpc : counted.pc t = s.pc t :=
    hcounted.fld (f := TSQSTAT_PC t) (by simp only [TSQSTAT_PC, aTSQSTAT, aTFOLERR, List.mem_singleton]; omega)
  have htile : (s.folioFailed t i p).tile t =
      { (s.tile t).setProd i { p with failed := true } with trap := some ⟨6, true, p.idx, 0, s.pc t⟩ } := by
    have hmarked : marked.tile t = (s.tile t).setProd i { p with failed := true } := State.tile_modTile_same _ _ _
    have hnone : (counted.tile t).trap = none := by rw [hcounted.tile, hmarked]; exact htrap
    change (counted.raise t 6 true p.idx 0).tile t = _
    rw [State.raise, State.tile_modTile_same, hnone, hcounted.tile, hmarked, hpc]
    rfl
  have honly : State.OnlyUnit t [aTFOLERR t] s (s.folioFailed t i p) :=
    ((s.onlyUnit_modTile t _ _).trans (hcounted.onlyUnit t)).trans (counted.onlyUnit_modTile t _ _)
  refine ⟨by rw [htile], ?_, by rw [htile]; rfl, honly.sameMem ?_⟩
  · exact (State.fld_modTile counted _ _ _).trans (marked.fld_bump (TFOLERR_CHKFAIL t) 1 (by simp [TFOLERR_CHKFAIL]))
  · rw [htile]
    exact ⟨fun _ => rfl, fun _ => rfl, fun _ => rfl⟩

end Sys2Proof.Machine

namespace Sys2Proof.Proofs
open Sys2Proof Sys2Proof.Machine

/-- Settles O10: each event of the loaders and of the port comes to one state, by where the block's bytes are and by how the folio reads. -/
theorem stationaryLoadsAndFolioPort : Obligations.StationaryLoadsAndFolioPort := by
  unfold Obligations.StationaryLoadsAndFolioPort
  refine ⟨fun s t q i p hp hfree => ⟨fun hfo hclean => ?plain, fun hfo hpois => ?poisoned, fun bs hfo hpois hheld => ?folio⟩,
    fun s t q i p hp hnone hfolio => ?port⟩
  case plain =>
    exact ⟨_, exec_stationaryLoadDone hp hfree (State.blockSource_plain hfo hclean),
      State.blockLoaded_spec ((State.OnlySet.refl _ s).onlyUnit t) ⟨rfl, rfl, rfl, rfl, rfl, rfl⟩ rfl _ _⟩
  case poisoned =>
    obtain ⟨hshadow, hrest⟩ := State.blockLoaded_spec (q := q) (i := i) (p := p) ((State.OnlySet.refl _ s).onlyUnit t)
      ⟨rfl, rfl, rfl, rfl, rfl, rfl⟩ rfl (List.replicate (blockBytes p.qm p.fa p.fw) 0) true
    exact ⟨_, exec_stationaryLoadDone hp hfree (State.blockSource_poisoned hfo hpois), ⟨_, hshadow⟩, hrest⟩
  case folio =>
    obtain ⟨hkeep, hprods⟩ := (s.tile t).touchBlock_spec p
    refine ⟨_, exec_stationaryLoadDone hp hfree (State.blockSource_folio hfo hpois hheld), State.blockLoaded_spec (s.onlyUnit_modTile t _ _) ?_ ?_ _ _⟩
    · rwa [State.tile_modTile_same]
    · rwa [State.tile_modTile_same]
  case port =>
    refine fun hroom => ⟨fun plain hclean hdec => ?_, fun hclean hdec htrap => ?_, fun hread ⟨k, hk, hpois⟩ => ?_⟩
    · refine ⟨_, exec_portExpansionDone_plain hp hnone hclean hdec, ?_, ?_, (s.onlyUnit_modTile t _ []).2.1⟩
      · rw [State.tile_modTile_same, Tile.touchBuf_of_not_held hnone]; rfl
      · exact s.sameMem_modTile t ⟨fun _ => rfl, fun _ => rfl, fun _ => rfl⟩
    · exact ⟨_, exec_portExpansionDone_failed hp hnone hclean hdec, State.folioFailed_spec htrap⟩
    · refine ⟨_, exec_portExpansionDone_poisoned hp hnone (State.winRead_cleanOrPoison uPort hroom hread) ?_, ?_, ?_, ?_⟩
      · simp only [anyPois, List.any_map, List.any_eq_true, List.mem_range, Function.comp_def]
        exact ⟨k, hk, by rw [hpois]; rfl⟩
      · rw [State.tile_modTile_same]; rfl
      · rw [State.tile_modTile_same]; rfl
      · exact s.sameMem_modTile t ⟨fun _ => rfl, fun _ => rfl, fun _ => rfl⟩

end Sys2Proof.Proofs
end

section
/-! SUPPORT. Vectors of 32-bit words: how words are taken from clean bytes and put into bytes, and what their write leaves in a bank (R59,
R90, R170). -/

namespace Sys2Proof.Machine

/-! ## Words of bytes -/

theorem ofLE_lt (bs : List Nat) : ofLE bs < 2 ^ (8 * bs.length) := by
  induction bs with
  | nil => simp [ofLE]
  | cons b bs ih =>
    have hcons : ofLE (b :: bs) = b % 256 + 256 * ofLE bs := rfl
    have hpow : 2 ^ (8 * (b :: bs).length) = 256 * 2 ^ (8 * bs.length) := by
      rw [List.length_cons, Nat.mul_succ, Nat.add_comm, Nat.pow_add]
    omega

/-- A number that fits a field is the field's value. -/
theorem bitsOf_zero_of_lt {x w : Nat} (h : x < 2 ^ w) : bitsOf x 0 w = x := Nat.mod_eq_of_lt h

@[simp] theorem Tile.length_bytesAt (x : Tile) (off n : Nat) : (x.bytesAt off n).length = n := by simp [Tile.bytesAt]

theorem Tile.bytesAt_add (x : Tile) (off m n : Nat) : x.bytesAt off (m + n) = x.bytesAt off m ++ x.bytesAt (off + m) n := by
  simp only [Tile.bytesAt, List.range_add, List.map_append, List.map_map, Function.comp_def, Nat.add_assoc]

theorem ceilDiv_one (n : Nat) : ceilDiv n 1 = n := by simp [ceilDiv]

theorem groupOf_word : groupOf 32 = (4, 1) := rfl

theorem nth_unmarked_snd (bs : List Nat) (j : Nat) : (nth (0, false) (bs.map fun b => (b, false)) j).2 = false := by
  rw [nth, List.getElem?_map]
  cases bs[j]? <;> rfl

/-- One more word of four bytes. -/
theorem splitGroups_word_succ (n : Nat) {w bs : List (Nat × Bool)} (hw : w.length = 4) :
    splitGroups 32 (n + 1) (w ++ bs) = (bitsOf (valOf w) 0 32, (List.range 4).any fun j => (nth (0, false) w j).2) :: splitGroups 32 n bs := by
  have htake : (w ++ bs).take 4 = w := by rw [← hw]; exact List.take_left
  have hdrop : (w ++ bs).drop 4 = bs := by rw [← hw]; exact List.drop_left
  have hfirst : ∀ j < 4, nth (0, false) (w ++ bs) j = nth (0, false) w j := fun j hj => by
    rw [nth, nth, List.getElem?_append_left (by omega)]
  rw [splitGroups, groupOf_word]
  simp only [htake, hdrop, List.range_one, List.map_cons, List.map_nil, List.singleton_append, Nat.zero_mul]
  congr 2
  simp [List.range_succ, hfirst]

theorem splitGroups_bytesAt (x : Tile) (off n : Nat) :
    splitGroups 32 n ((x.bytesAt off (4 * n)).map fun b => (b, false)) = (List.range n).map fun i => (x.elemAt off 4 i, false) := by
  induction n generalizing off with
  | zero => rfl
  | succ n ih =>
    have hhead : bitsOf (ofLE (x.bytesAt off 4)) 0 32 = x.elemAt off 4 0 := by
      have hlt := ofLE_lt (x.bytesAt off 4)
      rw [Tile.length_bytesAt] at hlt
      rw [bitsOf_zero_of_lt hlt, Tile.elemAt, Nat.zero_mul, Nat.add_zero]
    have htail : ∀ i, x.elemAt (off + 4) 4 i = x.elemAt off 4 (i + 1) := fun i => by
      rw [Tile.elemAt, Tile.elemAt, show off + 4 + i * 4 = off + (i + 1) * 4 by omega]
    have hmark : ((List.range 4).any fun j => (nth (0, false) ((x.bytesAt off 4).map fun b => (b, false)) j).2) = false :=
      List.any_eq_false.mpr fun j _ => by rw [nth_unmarked_snd]; exact Bool.false_ne_true
    rw [show 4 * (n + 1) = 4 + 4 * n by omega, Tile.bytesAt_add, List.map_append, splitGroups_word_succ n (by simp), hmark, valOf_unmarked, hhead, ih,
      List.range_succ_eq_map]
    simp only [htail, List.map_cons, List.map_map, Function.comp_def]

/-- The words that clean bytes hold. -/
theorem splitElems_bytesAt (x : Tile) (off n : Nat) :
    splitElems 32 n ((x.bytesAt off (4 * n)).map fun b => (b, false)) = (List.range n).map fun i => (x.elemAt off 4 i, false) := by
  rw [splitElems, groupOf_word, ceilDiv_one, splitGroups_bytesAt, List.take_of_length_le (by simp)]

/-- The bytes of 32-bit words, none poisoned. -/
def bytesOfWords (vs : List Nat) : List (Nat × Bool) := vs.flatMap fun v => (leBytes 4 (v % 2 ^ 32)).map fun b => (b, false)

theorem length_leBytes (n x : Nat) : (leBytes n x).length = n := by simp [leBytes]

theorem length_bytesOfWords (vs : List Nat) : (bytesOfWords vs).length = 4 * vs.length := by
  induction vs with
  | nil => rfl
  | cons v vs ih =>
    rw [bytesOfWords] at ih ⊢
    rw [List.flatMap_cons, List.length_append, ih, List.length_map, length_leBytes, List.length_cons]
    omega

theorem packGroups_words (vs : List Nat) : packGroups 32 vs.length (vs.map fun v => (v, false)) = bytesOfWords vs := by
  induction vs with
  | nil => rfl
  | cons v vs ih =>
    rw [List.length_cons, packGroups, groupOf_word]
    simp only [List.map_cons, List.take_succ_cons, List.take_zero, List.drop_succ_cons, List.drop_zero, ih]
    simp [bytesOfWords, leBytes]

theorem packElems_words (vs : List Nat) : packElems 32 (vs.map fun v => (v, false)) = bytesOfWords vs := by
  rw [packElems, List.length_map, groupOf_word, ceilDiv_one, packGroups_words]

/-- Byte k of word i. -/
theorem getElem_bytesOfWords {vs : List Nat} {i k : Nat} (hi : i < vs.length) (hk : k < 4) (h : 4 * i + k < (bytesOfWords vs).length) :
    (bytesOfWords vs)[4 * i + k] = (bitsOf (vs[i] % 2 ^ 32) (8 * k) 8, false) := by
  induction vs generalizing i with
  | nil => simp at hi
  | cons v vs ih =>
    have hcons : bytesOfWords (v :: vs) = (leBytes 4 (v % 2 ^ 32)).map (fun b => (b, false)) ++ bytesOfWords vs := List.flatMap_cons
    have hlen : ((leBytes 4 (v % 2 ^ 32)).map fun b => (b, false)).length = 4 := by rw [List.length_map, length_leBytes]
    simp only [hcons]
    cases i with
    | zero =>
      rw [List.getElem_append_left (by omega)]
      simp [leBytes]
    | succ i =>
      have hi := Nat.lt_of_succ_lt_succ hi
      rw [List.getElem_append_right (by omega), List.getElem_cons_succ]
      simp only [hlen, show 4 * (i + 1) + k - 4 = 4 * i + k by omega]
      exact ih hi (by rw [length_bytesOfWords]; omega)

/-! ## Words in a bank -/

/-- Good bytes of a number spell it, cut to their count. -/
theorem Tile.holds_of_good {x : Tile} {off n v : Nat} (h : ∀ k < n, x.classOf (off + k) = .good (bitsOf v (8 * k) 8)) :
    x.holds off n (v % 2 ^ (8 * n)) = true := by
  have hclean : ∀ k < n, x.clean (off + k) = true := fun k hk => by rw [Tile.clean, h k hk]
  have hval : (List.range n).map (fun k => (x.classOf (off + k)).value) = (leBytes n v).map fun b => (b, false) := by
    rw [leBytes, List.map_map]
    exact List.map_congr_left fun k hk => by rw [h k (List.mem_range.mp hk)]; rfl
  rw [Tile.holds, hval, valOf_unmarked, ofLE_leBytes]
  simpa using hclean

/-- A write of words leaves each of them in the bank. -/
theorem State.holds_putBank_words (s : State) (t o : Nat) {vs : List Nat} {i : Nat} (hi : i < vs.length) :
    ((s.putBank t o (bytesOfWords vs)).tile t).holds (o + 4 * i) 4 (vs[i] % 2 ^ 32) = true := by
  have hgood : ∀ k < 4, ((s.putBank t o (bytesOfWords vs)).tile t).classOf (o + 4 * i + k) = .good (bitsOf (vs[i] % 2 ^ 32) (8 * k) 8) := by
    intro k hk
    have hlt : 4 * i + k < (bytesOfWords vs).length := by rw [length_bytesOfWords]; omega
    rw [Nat.add_assoc, s.classOf_putBank t o _ hlt, getElem_bytesOfWords hi hk, classify_byteCode_good,
      Nat.mod_eq_of_lt (show bitsOf (vs[i] % 2 ^ 32) (8 * k) 8 < 256 from Nat.mod_lt _ (by decide))]
  have hholds := Tile.holds_of_good hgood
  rwa [Nat.mod_mod] at hholds

/-- A write of a bank touches the bank, the expansion buffers and the instruction words noted as old. -/
theorem State.tile_putBank (s : State) (t o : Nat) (bs : List (Nat × Bool)) :
    ∃ b e l, (s.putBank t o bs).tile t = { s.tile t with bank := b, exb := e, olds := l } := by
  have hdrop : ∃ e, (s.tile t).dropBufs o bs.length = { s.tile t with exb := e } := by
    unfold Tile.dropBufs; split <;> exact ⟨_, rfl⟩
  have hnote : ∀ x : Tile, ∃ l, x.noteWords o bs.length = { x with olds := l } := fun x => by
    unfold Tile.noteWords; split <;> exact ⟨_, rfl⟩
  obtain ⟨e, he⟩ := hdrop
  obtain ⟨l, hl⟩ := hnote ((s.tile t).dropBufs o bs.length)
  refine ⟨SMap.setList (fun _ => none) (s.tile t).bank o (bs.map fun b => some (byteCode b)), e, l, ?_⟩
  rw [State.putBank, State.tile_modTile_same, hl, he]
  rfl

end Sys2Proof.Machine
end

section
/-! SUPPORT. The vector unit: what issue does with an instruction, and what FP32 element operations and PHX write when they complete (R80, R112,
R152, R166 to R171, R424). -/

namespace Sys2Proof.Machine

variable {s : State} {t : Nat} {j : VecJob}

/-! ## Issue (R152, R166 to R170) -/

section
variable {op : Nat} {b : BitVec 54} (hi : s.issues t 5 op b (span 3 0) (vecRegs op b) = true)
  (hfree : s.vFree t (vecFields op t b s).rd (vecFields op t b s).wr) (hspill : (s.tile t).noSpill)
include hi hfree hspill

/-- With no hazard, what a vector instruction does depends on its operands alone. -/
theorem vecInstr_free : vecInstr op t b s = s.perform t s
    (if (vecFields op t b s).invalid s t then .trap 2 0
     else if (vecFields op t b s).n = 0 then .fall s
     else .fall (s.setTile t { s.tile t with vq := (s.tile t).vq ++ [.vec (vecFields op t b s)] })) := by
  obtain ⟨-, hfuse⟩ := State.issues_tile hi
  obtain ⟨hrange, hfull, htracker⟩ := hfree
  have hnone : ((s.tile t).vq.any fun v => match v with
      | .spill _ => true
      | _ => false) = false := by
    refine List.any_eq_false.mpr fun v hv => ?_
    split
    · exact absurd hv (hspill _)
    · exact Bool.false_ne_true
  rw [vecInstr, State.issue_issues hi]
  congr 1
  simp only [vecIssue, hfuse, Option.any_none, Bool.false_eq_true, if_false, List.append_nil, Tile.fuseRng, hrange, hfull, htracker, Bool.false_or]
  exact if_neg (Bool.eq_false_iff.mp hnone)

theorem vecInstr_queues (hvalid : (vecFields op t b s).invalid s t = false) (hn : (vecFields op t b s).n ≠ 0) :
    queuesV t (.vec (vecFields op t b s)) s (vecInstr op t b s) := by
  rw [vecInstr_free hi hfree hspill, hvalid, if_neg Bool.false_ne_true, if_neg hn]
  let x : Tile := { s.tile t with vq := (s.tile t).vq ++ [.vec (vecFields op t b s)] }
  have hx : (s.setTile t x).tile t = x := s.tile_setTile_same t x
  obtain ⟨hmoves, honly, l, htile⟩ := State.perform_fall (s' := s.setTile t x) s (State.pc_setTile _ _ _ _) (by rw [hx])
  rw [hx] at htile
  refine ⟨by rw [htile]; rfl, hmoves, ((s.onlyUnit_setTile t x _).trans honly.onlyUnit).scalarFrame ?_⟩
  rw [htile]
  exact ⟨rfl, rfl, rfl, rfl, rfl, rfl⟩

theorem vecInstr_empty (hvalid : (vecFields op t b s).invalid s t = false) (hn : (vecFields op t b s).n = 0) :
    ((vecInstr op t b s).tile t).vq = (s.tile t).vq ∧ movesOn t s (vecInstr op t b s) ∧ scalarFrame t [] [] [] s (vecInstr op t b s) := by
  rw [vecInstr_free hi hfree hspill, hvalid, if_neg Bool.false_ne_true, if_pos hn]
  obtain ⟨hmoves, honly, l, htile⟩ := State.perform_fall (t := t) (s := s) (s' := s) s rfl rfl
  refine ⟨by rw [htile]; rfl, hmoves, honly.onlyUnit.scalarFrame ?_⟩
  rw [htile]
  exact (s.tile t).keeps_issued l

theorem vecInstr_invalid (hinvalid : (vecFields op t b s).invalid s t = true) : trapsHere t 2 0 s (vecInstr op t b s) := by
  rw [vecInstr_free hi hfree hspill, hinvalid, if_pos rfl]
  exact State.raise_trapsHere (State.issues_tile hi).1 2 0

end

/-- Each row of Table 5.11 is a vector instruction of its operation code. -/
theorem exec_vecRows {r : (Nat → BitVec 54 → Instr) × Nat} (hr : r ∈ vecRows) (t : Nat) (b : BitVec 54) (s : State) :
    exec (r.1 t b) s = .next (vecInstr r.2 t b s) := by
  simp only [vecRows, List.mem_cons, List.not_mem_nil, or_false] at hr
  obtain rfl | rfl | rfl | rfl | rfl | rfl | rfl | rfl | rfl | rfl | rfl | rfl | rfl | rfl | rfl | rfl | rfl := hr <;> rfl

/-! ## Completion (R80, R112, R167, R424) -/

/-- The job at the head of the datapath is performed and leaves the queue, when nothing is fused with it. -/
theorem exec_vectorComplete {rest : List VJob} (hvq : (s.tile t).vq = .vec j :: rest) (hfuse : j.fuse = none) :
    exec (.vectorComplete t) s = .next ((s.modTile t Tile.popV).vecRun t j) := by
  change execVectorComplete t s = _
  simp only [execVectorComplete, hvq, hfuse]

/-- Words that a job writes plainly at its destination, no checker test being armed. -/
theorem VecJob.store_words {es : List VE} (hskw : j.skw = false) (hfo : j.fo = 0) (hpend : s.flag (TFLIP_PEND t) = false) (hoff : j.aD < 0x200000)
    (hclean : ∀ e ∈ es, e.p = false) : j.store s t es = s.putBank t j.aD (bytesOfWords (es.map (·.v))) := by
  have hmarks : es.map (fun e => (e.v, e.p)) = (es.map (·.v)).map fun v => (v, false) := by
    rw [List.map_map]
    exact List.map_congr_left fun e he => by rw [hclean e he]; rfl
  rw [VecJob.store, hskw, if_neg Bool.false_ne_true, veBytes, hfo, hmarks]
  exact (congrArg _ (packElems_words _)).trans (s.winWrite_bank hpend hoff _)

theorem State.onlySet_noteFlags (s : State) (t : Nat) (es : List VE) : State.OnlySet [aVSTAT t] s (s.noteFlags t es) := by
  unfold State.noteFlags State.vflags
  split
  · exact State.OnlySet.refl _ s
  · exact (State.OnlySet.refl _ s).setReg List.mem_cons_self _

/-- Element i of a plain FP32 job, from the words of its operands in tile x. -/
def VecJob.result (j : VecJob) (x : Tile) (i : Nat) : VE :=
  j.elem i (x.elemAt j.aA 4 i, false) (if j.readsB then x.elemAt j.aB 4 i else 0, false) (if j.op = 2 ∨ j.op = 6 then x.elemAt j.aC 4 i else 0, false)

/-- An element is poisoned by its operands alone. -/
theorem VecJob.elem_p (j : VecJob) (i : Nat) (a b c : Nat × Bool) :
    (j.elem i a b c).p = (a.2 || (j.readsB && b.2) || ((j.op == 2 || j.op == 6) && c.2)) := by
  unfold VecJob.elem
  split_ifs <;> rfl

theorem VecJob.result_p (j : VecJob) (x : Tile) (i : Nat) : (j.result x i).p = false := by
  rw [VecJob.result, VecJob.elem_p]; simp

/-- An operand array that is read when c holds. -/
theorem State.winRead_operand {c : Bool} {off n : Nat} (unit : Nat) (h : c = true → (s.tile t).cleanRange off n) :
    s.winRead t off (if c then n else 0) unit = (((s.tile t).bytesAt off (if c then n else 0)).map fun b => (b, false), s) := by
  cases c with
  | false => rfl
  | true => exact State.winRead_cleanRange unit (h rfl)

theorem elemBytes_word (n : Nat) : elemBytes 32 n = 4 * n := by rw [elemBytes, ceilDiv]; omega

/-- The elements of a plain FP32 job, from its operands' words. -/
def VecJob.results (j : VecJob) (x : Tile) : List VE := (List.range j.n).map (j.result x)

/-- The element operations of FP32 to FP32 that are no function of several elements and need no format but FP32 (R167). -/
def plainOps : List Nat := [0, 1, 2, 3, 4, 5, 6, 8, 9, 0xA, 0xB, 0x10]

theorem plainOps_ne {op : Nat} (h : op ∈ plainOps) : op ≠ 7 ∧ op ≠ 0xC ∧ op ≠ 0xD ∧ op ≠ 0xE ∧ op ≠ 0xF := by
  simp only [plainOps, List.mem_cons, List.not_mem_nil, or_false] at h
  omega

/-- The operation takes an array of words at C: the addend of FMA, the mask of SEL. -/
def VecJob.takesC (j : VecJob) : Bool := decide (j.op = 2 ∨ j.op = 6)

theorem VecJob.takesC_iff (j : VecJob) : j.takesC = true ↔ j.op = 2 ∨ j.op = 6 := decide_eq_true_iff

/-- A plain FP32 job reads words at A, and at C where it takes an operand there; it reads no exponents. -/
theorem VecJob.plain_widths (hfi : j.fi = 0) (hop : j.op ∈ plainOps) :
    j.srcBits = 32 ∧ j.readsA = true ∧ j.expB = 0 ∧ j.rdC = if j.takesC then 4 * j.n else 0 := by
  obtain ⟨-, hcvt, hicvt, hphx, htopk⟩ := plainOps_ne hop
  refine ⟨by rw [VecJob.srcBits, if_neg hicvt, if_neg htopk, hfi]; rfl, by simpa [VecJob.readsA] using hphx, if_neg fun h => hcvt h.1, ?_⟩
  by_cases h2 : j.op = 2
  · simp [VecJob.rdC, VecJob.takesC, h2, hfi, show elemBits 0 = 32 from rfl, elemBytes_word]
  · by_cases h6 : j.op = 6 <;> simp [VecJob.rdC, VecJob.takesC, h2, h6, hcvt]

/-- The words of an operand array that is read when c holds, out of its bytes. -/
def Tile.operand (x : Tile) (c : Bool) (off n : Nat) : List (Nat × Bool) :=
  if c then splitElems 32 n ((x.bytesAt off (if c then 4 * n else 0)).map fun b => (b, false)) else []

theorem Tile.nth_operand (x : Tile) (c : Bool) (off : Nat) {i n : Nat} (hi : i < n) :
    nth (0, false) (x.operand c off n) i = (if c then x.elemAt off 4 i else 0, false) := by
  cases c with
  | false => rfl
  | true =>
    simp only [Tile.operand, if_true]
    rw [splitElems_bytesAt, nth_map_range _ _ hi]

/-- The element results that the operands' words give. -/
theorem VecJob.map_elem_operands (j : VecJob) (x : Tile) :
    ((List.range j.n).map fun i => j.elem i (nth (0, false) (x.operand true j.aA j.n) i) (nth (0, false) (x.operand j.readsB j.aB j.n) i)
      (nth (0, false) (x.operand j.takesC j.aC j.n) i)) = j.results x := by
  refine List.map_congr_left fun i hi => ?_
  have hi := List.mem_range.mp hi
  rw [x.nth_operand _ _ hi, x.nth_operand _ _ hi, x.nth_operand _ _ hi, VecJob.result]
  simp only [if_true, VecJob.takesC_iff]

/-- A plain FP32 job reads its operands, and then writes its results and their flags (R80, R167). -/
theorem State.vecRun_plain (hskw : j.skw = false) (hfi : j.fi = 0) (hfo : j.fo = 0) (hop : j.op ∈ plainOps)
    (hpend : s.flag (TFLIP_PEND t) = false) (hA : (s.tile t).cleanRange j.aA (4 * j.n))
    (hB : j.readsB = true → (s.tile t).cleanRange j.aB (4 * j.n)) (hC : j.op = 2 ∨ j.op = 6 → (s.tile t).cleanRange j.aC (4 * j.n))
    (hD : j.aD < 0x200000) :
    s.vecRun t j = (s.putBank t j.aD (bytesOfWords ((j.results (s.tile t)).map (·.v)))).noteFlags t (j.results (s.tile t)) := by
  obtain ⟨h7, hcvt, -, hphx, htopk⟩ := plainOps_ne hop
  obtain ⟨hbits, hreadsA, hexp, hrdC⟩ := VecJob.plain_widths hfi hop
  have hword : elemBits j.fi = 32 := by rw [hfi]; rfl
  have hreadA := State.winRead_cleanRange uVector hA
  have hreadB := State.winRead_operand uVector hB
  have hreadC := State.winRead_operand uVector fun h => hC (j.takesC_iff.mp h)
  have hthird : ∀ bs : List (Nat × Bool), (if j.op = 6 then splitElems 32 j.n bs else if j.op = 2 then splitElems 32 j.n bs else []) =
      if j.takesC then splitElems 32 j.n bs else [] := fun bs => by
    by_cases h6 : j.op = 6 <;> by_cases h2 : j.op = 2 <;> simp [VecJob.takesC, h6, h2]
  have hes := j.map_elem_operands (s.tile t)
  simp only [Tile.operand, if_true] at hes
  have hclean : ∀ e ∈ j.results (s.tile t), e.p = false := fun e he => by
    obtain ⟨i, -, rfl⟩ := List.mem_map.mp he
    exact j.result_p _ i
  simp only [State.vecRun, hreadsA, if_true, hbits, hword, elemBytes_word, hexp, hrdC, hreadA, hreadB, hreadC, h7, hcvt, hphx, htopk, if_false, hthird,
    hes]
  rw [VecJob.store_words hskw hfo hpend hD hclean]

/-- PHX reads nothing and writes words of its stream (R424). -/
theorem State.vecRun_phx (hskw : j.skw = false) (hop : j.op = 0xE) (hfo : j.fo = 0) (hpend : s.flag (TFLIP_PEND t) = false) (hD : j.aD < 0x200000) :
    s.vecRun t j = s.putBank t j.aD (bytesOfWords ((List.range j.n).map (phxWord j.seed.toNat j.step j.gen.toNat))) := by
  have hreadsA : j.readsA = false := by rw [VecJob.readsA, hop]; rfl
  have hreadsB : j.readsB = false := by simp [VecJob.readsB, hop]
  have hexp : j.expB = 0 := by simp [VecJob.expB, hop]
  have hrdC : j.rdC = 0 := by simp [VecJob.rdC, hop]
  have hnone : ∀ off, s.winRead t off 0 uVector = ([], s) := fun _ => rfl
  have hclean : ∀ e ∈ (List.range j.n).map fun i => (⟨phxWord j.seed.toNat j.step j.gen.toNat i, false, 0⟩ : VE), e.p = false := fun e he => by
    obtain ⟨i, -, rfl⟩ := List.mem_map.mp he
    rfl
  simp only [State.vecRun, hreadsA, hreadsB, hexp, hrdC, Bool.false_eq_true, if_false, hnone, hop, if_true]
  rw [VecJob.store_words hskw hfo hpend hD hclean, List.map_map]
  rfl

/-- Words written at a destination below the instruction region, as a job that leaves the queue writes them. -/
theorem State.popped_putBank_spec (s : State) (t o : Nat) (vs : List Nat) :
    let u := (s.modTile t Tile.popV).putBank t o (bytesOfWords vs)
    (u.tile t).vq = (s.tile t).vq.drop 1 ∧ (∀ i, ∀ h : i < vs.length, (u.tile t).holds (o + 4 * i) 4 (vs[i] % 2 ^ 32) = true) ∧
      (∀ off, off < o ∨ o + 4 * vs.length ≤ off → (u.tile t).code off = (s.tile t).code off) ∧
      (∀ w, (u.tile t).accWord w = (s.tile t).accWord w) ∧ s.sameTilesBut u t ∧ s.sameRegs u [] := by
  let p := s.modTile t Tile.popV
  have hp : p.tile t = (s.tile t).popV := State.tile_modTile_same _ _ _
  obtain ⟨b, e, l, htile⟩ := p.tile_putBank t o (bytesOfWords vs)
  have honly : State.OnlyUnit t [] s (p.putBank t o (bytesOfWords vs)) := (s.onlyUnit_modTile t _ _).trans (p.onlyUnit_modTile t _ _)
  refine ⟨?_, fun i h => p.holds_putBank_words t o h, fun off hoff => ?_, fun w => ?_, honly.1, honly.2.1⟩
  · rw [htile, hp]; rfl
  · rw [p.code_putBank_outside t o _ fun _ => by rwa [length_bytesOfWords], hp]; rfl
  · rw [htile, hp]; rfl

end Sys2Proof.Machine

namespace Sys2Proof.Proofs
open Sys2Proof Sys2Proof.Machine

/-- A plain FP32 job at the head of the datapath writes each element's result, all operands read before any is written (R80, R112, R167). -/
theorem vectorComplete_plain {s : State} {t : Nat} {j : VecJob} {rest : List VJob} (hvq : (s.tile t).vq = .vec j :: rest) (hfuse : j.fuse = none)
    (hskw : j.skw = false) (hfi : j.fi = 0) (hfo : j.fo = 0) (hop : j.op ∈ plainOps)
    (hpend : s.flag (TFLIP_PEND t) = false) (hA : (s.tile t).cleanRange j.aA (4 * j.n))
    (hB : j.readsB = true → (s.tile t).cleanRange j.aB (4 * j.n)) (hC : j.op = 2 ∨ j.op = 6 → (s.tile t).cleanRange j.aC (4 * j.n))
    (hD : j.aD + 4 * j.n ≤ 0x1F0000) :
    Gives (exec (.vectorComplete t) s) fun u =>
      (u.tile t).vq = rest ∧ (∀ i < j.n, (u.tile t).holds (j.aD + 4 * i) 4 ((j.result (s.tile t) i).v % 2 ^ 32) = true) ∧
      (∀ off, off < j.aD ∨ j.aD + 4 * j.n ≤ off → (u.tile t).code off = (s.tile t).code off) ∧
      (∀ w, (u.tile t).accWord w = (s.tile t).accWord w) ∧ s.sameTilesBut u t ∧ s.sameRegs u [aVSTAT t] := by
  have hpopped : (s.modTile t Tile.popV).tile t = (s.tile t).popV := State.tile_modTile_same _ _ _
  have hresults : j.results (s.tile t).popV = j.results (s.tile t) := rfl
  have hrun := State.vecRun_plain (s := s.modTile t Tile.popV) (t := t) hskw hfi hfo hop hpend (by rw [hpopped]; exact hA)
    (fun h => by rw [hpopped]; exact hB h) (fun h => by rw [hpopped]; exact hC h) (by omega)
  rw [hpopped, hresults] at hrun
  have hlen : ((j.results (s.tile t)).map (·.v)).length = j.n := by simp [VecJob.results]
  obtain ⟨hq, hholds, hout, hacc, htiles, hregs⟩ := s.popped_putBank_spec t j.aD ((j.results (s.tile t)).map (·.v))
  have hflags := State.onlySet_noteFlags ((s.modTile t Tile.popV).putBank t j.aD (bytesOfWords ((j.results (s.tile t)).map (·.v)))) t
    (j.results (s.tile t))
  refine ⟨_, (exec_vectorComplete hvq hfuse).trans (congrArg _ hrun), ?_, fun i hi => ?_, fun off hoff => ?_, fun w => ?_,
    fun k hk => (hflags.tile k).trans (htiles k hk), State.sameRegs_trans (State.sameRegs_mono hregs (List.nil_subset _)) hflags.2⟩
  · rw [hflags.tile, hq, hvq]; rfl
  · have hi' := hholds i (by rwa [hlen])
    rw [hflags.tile]
    simpa only [VecJob.results, List.getElem_map, List.getElem_range] using hi'
  · rw [hflags.tile]; exact hout off (by rwa [hlen])
  · rw [hflags.tile]; exact hacc w

/-- PHX at the head of the datapath writes words of its stream in counter order (R424). -/
theorem vectorComplete_phx {s : State} {t : Nat} {j : VecJob} {rest : List VJob} (hvq : (s.tile t).vq = .vec j :: rest) (hfuse : j.fuse = none)
    (hskw : j.skw = false) (hop : j.op = 0xE) (hfo : j.fo = 0) (hpend : s.flag (TFLIP_PEND t) = false) (hD : j.aD + 4 * j.n ≤ 0x1F0000) :
    Gives (exec (.vectorComplete t) s) fun u =>
      (∀ i < j.n, (u.tile t).holds (j.aD + 4 * i) 4 (phxWord j.seed.toNat j.step j.gen.toNat i % 2 ^ 32) = true) ∧
      (∀ off, off < j.aD ∨ j.aD + 4 * j.n ≤ off → (u.tile t).code off = (s.tile t).code off) ∧ s.sameRegs u [] := by
  have hlen : ((List.range j.n).map (phxWord j.seed.toNat j.step j.gen.toNat)).length = j.n := by simp
  obtain ⟨-, hholds, hout, -, -, hregs⟩ := s.popped_putBank_spec t j.aD ((List.range j.n).map (phxWord j.seed.toNat j.step j.gen.toNat))
  have hrun := State.vecRun_phx (s := s.modTile t Tile.popV) (t := t) hskw hop hfo hpend (by omega)
  refine ⟨_, (exec_vectorComplete hvq hfuse).trans (congrArg _ hrun), fun i hi => ?_, fun off hoff => hout off (by rwa [hlen]), hregs⟩
  have hi' := hholds i (by rwa [hlen])
  simpa only [List.getElem_map, List.getElem_range] using hi'

/-- Settles O14: a row's issue by its operands, and what a plain FP32 job and a PHX job write. -/
theorem vectorInstructions : Obligations.VectorInstructions := by
  unfold Obligations.VectorInstructions
  refine ⟨fun r hr s t b hi => ?issue, ?plain, ?phx⟩
  case issue =>
    refine fun hfree hspill => ⟨fun hvalid hn => ?_, fun hvalid hn => ?_, fun hinvalid => ?_⟩
    · exact ⟨_, exec_vecRows hr t b s, vecInstr_queues hi hfree hspill hvalid hn⟩
    · exact ⟨_, exec_vecRows hr t b s, vecInstr_empty hi hfree hspill hvalid hn⟩
    · exact ⟨_, exec_vecRows hr t b s, vecInstr_invalid hi hfree hspill hinvalid⟩
  case plain =>
    exact fun s t j rest hvq hfuse hskw hfi hfo hop hpend hA hB hC hD => vectorComplete_plain hvq hfuse hskw hfi hfo hop hpend hA hB hC hD
  case phx =>
    exact fun s t j rest hvq hfuse hskw hop hfo hpend hD => vectorComplete_phx hvq hfuse hskw hop hfo hpend hD

end Sys2Proof.Proofs
end

section
/-! SUPPORT. Products: the issue of MX.MUL, one result row, and the end of a product (R53, R69, R78, R87, R105, R107, R119, R123, R124, R162,
R163, R181). -/

namespace Sys2Proof.Machine

variable {s : State} {t q i : Nat} {p : Product} {b : BitVec 54}

/-! ## Issue (R53, R56, R162, R163) -/

/-- The product that MX.MUL makes where nothing fused stands before it, its ranges known (R153). -/
def mxProduct (s : State) (t : Nat) (b : BitVec 54) : Product :=
  { mxFields s t b with
    rd := productReads (s.tile t) (mxFields s t b), wr := (mxFields s t b).targets.map fun h => accTileRng h.1, fuse := none }

/-- A product joins its tile's products; one of the other mode makes the unit's blocks unusable (R56). -/
def Tile.withProduct (x : Tile) (swap : Bool) (p : Product) : Tile :=
  let y := if swap then { x with act := [], shadow := [] } else x
  { y with prods := y.prods ++ [p] }

/-- The state after a product has joined tile t, which is x at issue, before the sequencer moves on. -/
def State.productIssued (s : State) (t : Nat) (x : Tile) (p : Product) : State :=
  (((s.setTile t (x.withProduct (s.flag (TMXSTAT_QMODE t) != p.qm) p)).setFld (TMXSTAT_QMODE t) (if p.qm then 1 else 0)).syncMx t).beatsOpen t

theorem Tile.withProduct_spec (x : Tile) (swap : Bool) (p : Product) :
    x.Keeps (x.withProduct swap p) ∧ (x.withProduct swap p).prods = x.prods ++ [p] ∧ (x.withProduct swap p).lc = x.lc := by
  cases swap <;> exact ⟨⟨rfl, rfl, rfl, rfl, rfl, rfl⟩, rfl, rfl⟩

/-- The registers that the issue of a product shows it in (R89). -/
def mxRegs (t : Nat) : List Nat := [aTMXSTAT t, aTMXBUSY t, aTMXWAIT t]

theorem mxRegs_apart (t : Nat) : aTSQSTAT t ∉ mxRegs t ∧ aTMXSTAT t ∉ [aTMXBUSY t, aTMXWAIT t] ∧ aTMXSTAT t ≠ aTSQSTAT t := by
  simp only [mxRegs, List.mem_cons, List.not_mem_nil, or_false, aTSQSTAT, aTMXSTAT, aTMXBUSY, aTMXWAIT]
  omega

theorem State.productIssued_spec (s : State) (t : Nat) (p : Product) :
    State.OnlyUnit t (mxRegs t) s (s.productIssued t (s.tile t) p) ∧
      (s.productIssued t (s.tile t) p).tile t = (s.tile t).withProduct (s.flag (TMXSTAT_QMODE t) != p.qm) p ∧
      (s.productIssued t (s.tile t) p).fld (TMXSTAT_QMODE t) = if p.qm then 1 else 0 := by
  let joined := s.setTile t ((s.tile t).withProduct (s.flag (TMXSTAT_QMODE t) != p.qm) p)
  let moded := joined.setFld (TMXSTAT_QMODE t) (if p.qm then 1 else 0)
  have hmoded : State.OnlySet (mxRegs t) joined moded := (State.OnlySet.refl _ joined).setFld (f := TMXSTAT_QMODE t) List.mem_cons_self _
  have hshown : State.OnlySet (mxRegs t) moded (moded.syncMx t) := (moded.onlySet_syncMx t).mono (by simp [mxRegs])
  have hbeats := (moded.syncMx t).onlySet_beatsOpen t
  have hset : State.OnlySet (mxRegs t) joined (s.productIssued t (s.tile t) p) := (hmoded.trans hshown).trans (hbeats.mono (by simp [mxRegs]))
  refine ⟨(s.onlyUnit_setTile t _ _).trans (hset.onlyUnit t), (hset.tile t).trans (s.tile_setTile_same t _), ?_⟩
  have hmode : moded.fld (TMXSTAT_QMODE t) = if p.qm then 1 else 0 := by
    refine (joined.fld_setFld_same _ _ (by simp [TMXSTAT_QMODE])).trans ?_
    cases p.qm <;> rfl
  exact (hbeats.fld (f := TMXSTAT_QMODE t) (mxRegs_apart t).2.1).trans ((moded.qmode_syncMx t).trans hmode)

section
variable (hi : s.issues t 3 0 b (span 5 0) [] = true) (hfree : mxHeld s t (mxFields s t b) = false)
include hi hfree

/-- With no hazard, what MX.MUL does depends on its operands alone. -/
theorem exec_mxMul_free : exec (.mxMul t b) s = .next (s.perform t s
    (if mxInvalid s t (mxFields s t b) then .trap 2 0 else .fall (s.productIssued t (s.tile t) (mxProduct s t b)))) := by
  obtain ⟨-, hfuse⟩ := State.issues_tile hi
  change execMxMul t b s = _
  rw [execMxMul, State.issue_issues hi]
  change Host.Outcome.next (s.perform t s (if _ || _ then .hold else if _ then .trap 2 0 else if _ then .trapAt _ 2 0
    else .fall ((s.fuseRead t 64).2.productIssued t (s.tile t) _))) = _
  simp only [hfree, hfuse, State.fuseRead, Option.isSome_none, Bool.false_and, Bool.or_false, Bool.false_eq_true, if_false, List.append_nil,
    Option.map_none]
  rfl

/-- A valid product joins, and nothing that the program computes with changes. -/
theorem exec_mxMul_valid (hvalid : mxInvalid s t (mxFields s t b) = false) :
    Gives (exec (.mxMul t b) s) fun u => movesOn t s u ∧ State.OnlyUnit t (aTSQSTAT t :: mxRegs t) s u ∧ (s.tile t).Keeps (u.tile t) ∧
      u.fld (TMXSTAT_QMODE t) = fb b 23 1 ∧ (u.tile t).prods = (s.tile t).prods ++ [mxProduct s t b] := by
  refine ⟨_, exec_mxMul_free hi hfree, ?_⟩
  rw [hvalid, if_neg Bool.false_ne_true]
  obtain ⟨honly, htile, hmode⟩ := s.productIssued_spec t (mxProduct s t b)
  obtain ⟨hkeep, hprods, hlc⟩ := (s.tile t).withProduct_spec (s.flag (TMXSTAT_QMODE t) != (mxProduct s t b).qm) (mxProduct s t b)
  have hpc : (s.productIssued t (s.tile t) (mxProduct s t b)).pc t = s.pc t :=
    State.fld_of_sameRegs (f := TSQSTAT_PC t) honly.2.1 (mxRegs_apart t).1
  obtain ⟨hmoves, hafter, l, hdone⟩ := State.perform_fall s hpc (by rw [htile, hlc])
  rw [htile] at hdone
  refine ⟨hmoves, (honly.mono (List.subset_cons_self _ _)).trans (hafter.onlyUnit.mono (by simp)), ?_, ?_, ?_⟩
  · rw [hdone]; exact hkeep.trans (Tile.keeps_issued _ l)
  · rw [State.fld_of_sameRegs (f := TMXSTAT_QMODE t) hafter.regs (mt List.mem_singleton.mp (mxRegs_apart t).2.2), hmode]
    have hbit : fb b 23 1 < 2 := Nat.mod_lt _ (by decide)
    change (if fb b 23 1 == 1 then 1 else 0) = fb b 23 1
    rcases Nat.lt_succ_iff_lt_or_eq.mp hbit with h | h
    · rw [Nat.lt_one_iff.mp h]; rfl
    · rw [h]; rfl
  · rw [hdone]; exact hprods

theorem exec_mxMul_invalid (hinvalid : mxInvalid s t (mxFields s t b) = true) : Gives (exec (.mxMul t b) s) (trapsHere t 2 0 s) := by
  refine ⟨_, exec_mxMul_free hi hfree, ?_⟩
  rw [hinvalid, if_pos rfl]
  exact State.raise_trapsHere (State.issues_tile hi).1 2 0

end

/-! ## The elements of a streamed row (R61, R62, R66) -/

section
variable (r : Nat)

/-- The elements at whose lanes a row is read: one of each lane. -/
def Product.rowLanes (p : Product) : List Nat :=
  if denseCodes p.fa p.fw then (List.range (lanesOf p.qm)).map fun j => 2 * j else List.range (lanesOf p.qm)

theorem kpOf_dense (h : denseCodes p.fa p.fw = true) : kpOf p.qm p.fa p.fw = 2 * lanesOf p.qm := by rw [kpOf, h, if_pos rfl, Nat.mul_comm]
theorem kpOf_plain (h : denseCodes p.fa p.fw = false) : kpOf p.qm p.fa p.fw = lanesOf p.qm := by
  rw [kpOf, h, if_neg Bool.false_ne_true, Nat.mul_one]

theorem Product.lt_kpOf_of_mem_rowLanes {k : Nat} (h : k ∈ p.rowLanes) : k < kpOf p.qm p.fa p.fw := by
  cases hd : denseCodes p.fa p.fw with
  | true =>
    rw [Product.rowLanes, hd, if_pos rfl] at h
    obtain ⟨j, hj, rfl⟩ := List.mem_map.mp h
    have hj := List.mem_range.mp hj
    rw [kpOf_dense hd]; omega
  | false =>
    rw [Product.rowLanes, hd, if_neg Bool.false_ne_true] at h
    rw [kpOf_plain hd]; exact List.mem_range.mp h

/-- The lane of element k is read, at the bytes that carry k. -/
theorem Product.rowLanes_laneAt {k : Nat} (hk : k < kpOf p.qm p.fa p.fw) :
    ∃ k', p.rowLanes[p.laneAt k]? = some k' ∧ elemOff p r k' = elemOff p r k := by
  cases hd : denseCodes p.fa p.fw with
  | true =>
    rw [kpOf_dense hd] at hk
    have hlane : k / 2 < lanesOf p.qm := by omega
    refine ⟨2 * (k / 2), by simp [Product.rowLanes, Product.laneAt, hd, hlane], ?_⟩
    simp only [elemOff, hd, if_true, show 2 * (k / 2) / 2 = k / 2 by omega]
  | false =>
    rw [kpOf_plain hd] at hk
    exact ⟨k, by simp [Product.rowLanes, Product.laneAt, hd, hk], rfl⟩

/-- Format code 9 is the code of both operands of its products, and its lanes hold two elements (R54, R58). -/
theorem kpOf_nine (hcodes : codesOk p.fa p.fw = true) (h9 : p.fa = 9) (hqm : p.qm = false) : kpOf p.qm p.fa p.fw = 64 := by
  have hfw : p.fw = 9 := by
    simp only [codesOk, mixedCodes, h9, Bool.or_eq_true, Bool.and_eq_true, beq_iff_eq] at hcodes
    omega
  rw [h9, hfw, hqm]; rfl

/-- A transposed panel has one scale for each element. -/
theorem Product.scales_transposed (ht : p.ta = true) (hmx : isMX p.fa = true) :
    p.rowScales r = (List.range (lanesOf p.qm)).map (p.xBase + ·) ∧ ∀ k, p.scaleAt k = k ∧ scaleOff p r k = p.xBase + k := by
  simp [Product.rowScales, Product.scaleAt, scaleOff, ht, hmx]

/-- A full-width row of code 9 has a scale for each 32 elements. -/
theorem Product.scales_nine (ht : p.ta = false) (h9 : p.fa = 9) (hqm : p.qm = false) :
    p.rowScales r = [p.xBase + 2 * r, p.xBase + 2 * r + 1] ∧ ∀ k, p.scaleAt k = k / 32 ∧ scaleOff p r k = p.xBase + 2 * r + k / 32 := by
  simp [Product.rowScales, Product.scaleAt, scaleOff, ht, h9, hqm, show isMX 9 = true from rfl]

/-- Every other row has one scale. -/
theorem Product.scales_row (ht : p.ta = false) (h9 : ¬ (p.fa = 9 ∧ (!p.qm) = true)) (hmx : isMX p.fa = true) :
    p.rowScales r = [p.xBase + r] ∧ ∀ k, p.scaleAt k = 0 ∧ scaleOff p r k = p.xBase + r := by
  unfold Product.rowScales Product.scaleAt scaleOff
  rw [ht, hmx, if_neg h9]
  exact ⟨rfl, fun k => ⟨if_neg h9, if_neg h9⟩⟩

section
variable (hcodes : codesOk p.fa p.fw = true) (hta : p.ta = true → denseCodes p.fa p.fw = false) (hmx : isMX p.fa = true)
include hcodes hta hmx

/-- The scale of element k is among those that the row reads. -/
theorem Product.rowScales_scaleAt {k : Nat} (hk : k < kpOf p.qm p.fa p.fw) : (p.rowScales r)[p.scaleAt k]? = some (scaleOff p r k) := by
  cases ht : p.ta with
  | true =>
    obtain ⟨hall, hat⟩ := p.scales_transposed r ht hmx
    rw [kpOf_plain (hta ht)] at hk
    rw [hall, (hat k).1, (hat k).2]
    simp [hk]
  | false =>
    by_cases h9 : p.fa = 9 ∧ (!p.qm) = true
    · have hqm : p.qm = false := by simpa using h9.2
      obtain ⟨hall, hat⟩ := p.scales_nine r ht h9.1 hqm
      rw [kpOf_nine hcodes h9.1 hqm] at hk
      have hhalf : k / 32 = 0 ∨ k / 32 = 1 := by omega
      rw [hall, (hat k).1, (hat k).2]
      rcases hhalf with h | h <;> rw [h] <;> rfl
    · obtain ⟨hall, hat⟩ := p.scales_row r ht h9 hmx
      rw [hall, (hat k).1, (hat k).2]
      rfl

/-- Every scale that the row reads is an element's. -/
theorem Product.exists_of_mem_rowScales {o : Nat} (h : o ∈ p.rowScales r) : ∃ k < kpOf p.qm p.fa p.fw, scaleOff p r k = o := by
  cases ht : p.ta with
  | true =>
    obtain ⟨hall, hat⟩ := p.scales_transposed r ht hmx
    rw [hall] at h
    obtain ⟨k, hk, rfl⟩ := List.mem_map.mp h
    exact ⟨k, by rw [kpOf_plain (hta ht)]; exact List.mem_range.mp hk, (hat k).2⟩
  | false =>
    by_cases h9 : p.fa = 9 ∧ (!p.qm) = true
    · have hqm : p.qm = false := by simpa using h9.2
      obtain ⟨hall, hat⟩ := p.scales_nine r ht h9.1 hqm
      rw [hall] at h
      rw [kpOf_nine hcodes h9.1 hqm]
      simp only [List.mem_cons, List.not_mem_nil, or_false] at h
      rcases h with rfl | rfl
      · exact ⟨0, by decide, (hat 0).2⟩
      · exact ⟨32, by decide, (hat 32).2⟩
    · obtain ⟨hall, hat⟩ := p.scales_row r ht h9 hmx
      rw [hall, List.mem_singleton] at h
      have hpos : 0 < kpOf p.qm p.fa p.fw := by unfold kpOf lanesOf; split <;> split <;> decide
      exact ⟨0, hpos, (hat 0).2.trans h.symm⟩

end
end

end Sys2Proof.Machine
end

section
/-! SUPPORT. Result rows: what the write stage reads of a clean row, and what it leaves in the accumulator file (R69, R78, R105, R107, R119, R203). -/

namespace Sys2Proof.Machine

variable {s : State} {t q i : Nat} {p : Product} {st : Stat}

/-! ## What a tile's bank is read through -/

section
variable {x y : Tile} (h : x.Keeps y)
include h

theorem Tile.Keeps.classOf (off : Nat) : y.classOf off = x.classOf off := by
  rw [Tile.classOf, Tile.classOf, Tile.code, Tile.code, h.bank]

theorem Tile.Keeps.cleanRange (off n : Nat) : y.cleanRange off n ↔ x.cleanRange off n := by
  simp only [Tile.cleanRange, Tile.clean, h.classOf]

theorem Tile.Keeps.bytesAt (off n : Nat) : y.bytesAt off n = x.bytesAt off n := by
  simp only [Tile.bytesAt, h.classOf]

theorem Tile.Keeps.rowClean (p : Product) (r : Nat) : y.rowClean p r ↔ x.rowClean p r := by
  simp only [Tile.rowClean, h.cleanRange]

theorem Tile.Keeps.rowElems (p : Product) (r : Nat) : y.rowElems p r = x.rowElems p r := by
  simp only [Tile.rowElems, h.bytesAt, h.classOf]

theorem Tile.Keeps.accWord (w : Nat) : y.accWord w = x.accWord w := h.sameMem.2.1 w
theorem Tile.Keeps.rowPois (r : Nat) : y.rowPois r = x.rowPois r := h.sameMem.2.2 r

end

/-! ## Words of the accumulator file -/

/-- Consecutive words of the accumulator file, with fresh parity. -/
def Tile.putAcc (x : Tile) (w : Nat) (vs : List Nat) : Tile := { x with acc := SMap.setList (fun _ => 0) x.acc w (vs.map accCode) }

theorem Tile.foldl_accSet (x : Tile) (w k : Nat) (vs : List Nat) :
    (vs.zipIdx k).foldl (fun x e => Tile.accSet x (w + e.2) e.1) x = x.putAcc (w + k) vs := by
  induction vs generalizing x k with
  | nil => rfl
  | cons v vs ih => rw [List.zipIdx_cons, List.foldl_cons, ih]; rfl

theorem Tile.accWord_putAcc (x : Tile) (w : Nat) {vs : List Nat} {n : Nat} (hn : n < vs.length) :
    (x.putAcc w vs).accWord (w + n) = accCode vs[n] := by
  simp [Tile.accWord, Tile.putAcc, SMap.get_setList, hn]

theorem Tile.accWord_putAcc_outside (x : Tile) {w : Nat} {vs : List Nat} {k : Nat} (hk : k < w ∨ w + vs.length ≤ k) :
    (x.putAcc w vs).accWord k = x.accWord k := by
  unfold Tile.accWord Tile.putAcc
  rw [SMap.get_setList]
  split
  · have hlen : vs.length ≤ k - w := by omega
    simp [hlen]
  · rfl

theorem Tile.rowPois_setRowPois (x : Tile) (r k : Nat) (v : Bool) : (x.setRowPois r v).rowPois k = if k = r then v else x.rowPois k :=
  SMap.get_set _ _ _ _ _

theorem lanesOf_pos (qm : Bool) : 0 < lanesOf qm := by cases qm <;> decide

/-- The words of a result row lie in one row of the accumulator file (R69). -/
theorem Product.rowWord_row (p : Product) (r : Nat) {n : Nat} (hn : n < lanesOf p.qm) : (p.rowWord r + n) / 32 = p.rowWord r / 32 := by
  unfold Product.rowWord
  cases hq : p.qm with
  | true =>
    rw [hq] at hn
    have hn : n < 16 := hn
    simp only [if_true]
    omega
  | false =>
    rw [hq] at hn
    have hn : n < 32 := hn
    simp only [Bool.false_eq_true, if_false]
    omega

/-! ## Reads of a row -/

section
variable {r : Nat}

/-- The lanes of a clean row are read as they are. -/
theorem State.readMany_lanes (hclean : (s.tile t).rowClean p r) :
    readMany (fun s k => let b := s.winRead t (elemOff p r k) (laneBytes p.fa) uPort; ((valOf b.1, anyPois b.1), b.2)) s p.rowLanes =
      (p.rowLanes.map fun k => (ofLE ((s.tile t).bytesAt (elemOff p r k) (laneBytes p.fa)), false), s) := by
  refine readMany_pure _ _ s _ fun k hk => ?_
  have hlane := (hclean k (p.lt_kpOf_of_mem_rowLanes hk)).1
  simp only [State.winRead_cleanRange uPort hlane, valOf_unmarked, anyPois_unmarked]

/-- A row of a format without scales reads none. -/
theorem Product.rowScales_none (hmx : isMX p.fa = false) : p.rowScales r = [] := by rw [Product.rowScales, hmx]; rfl

theorem State.readMany_scales (hcodes : codesOk p.fa p.fw = true) (hta : p.ta = true → denseCodes p.fa p.fw = false)
    (hclean : (s.tile t).rowClean p r) :
    readMany (fun s o => s.winByte t o uPort) s (p.rowScales r) = ((p.rowScales r).map fun o => (((s.tile t).classOf o).value.1, false), s) := by
  refine readMany_pure _ _ s _ fun o ho => ?_
  cases hmx : isMX p.fa with
  | false => rw [Product.rowScales_none hmx] at ho; cases ho
  | true =>
    obtain ⟨k, hk, rfl⟩ := p.exists_of_mem_rowScales r hcodes hta hmx ho
    obtain ⟨hbank, hbyte⟩ := (hclean k hk).2 hmx
    have hscale : (s.tile t).clean (scaleOff p r k) = true := hbyte 0 (by decide)
    have hlt : scaleOff p r k < 0x200000 := by omega
    rw [State.winByte, if_pos hlt, s.bankByte_clean t _ uPort hscale]
    exact congrArg (·, s) (Tile.value_of_clean hscale)

/-- What the write stage makes of its reads is the row's elements. -/
theorem Product.rowElems_of_reads (x : Tile) (hcodes : codesOk p.fa p.fw = true) (hta : p.ta = true → denseCodes p.fa p.fw = false) :
    ((List.range (kpOf p.qm p.fa p.fw)).map fun k =>
      (laneElem p k (nth (0, false) (p.rowLanes.map fun k => (ofLE (x.bytesAt (elemOff p r k) (laneBytes p.fa)), false)) (p.laneAt k)).1,
        (nth (0, false) ((p.rowScales r).map fun o => ((x.classOf o).value.1, false)) (p.scaleAt k)).1)) = x.rowElems p r := by
  refine List.map_congr_left fun k hk => ?_
  have hk := List.mem_range.mp hk
  obtain ⟨k', hlane, hoff⟩ := p.rowLanes_laneAt r hk
  congr 1
  · simp only [nth, List.getElem?_map, hlane, Option.map_some, Option.getD_some, hoff]
  · cases hmx : isMX p.fa with
    | false => rw [Product.rowScales_none hmx]; rfl
    | true => simp only [nth, List.getElem?_map, p.rowScales_scaleAt r hcodes hta hmx hk, Option.map_some, Option.getD_some, if_true]

/-- A word of good parity is read without a trace. -/
theorem State.accRead_good {w : Nat} (h : accBad ((s.tile t).accWord w) = false) :
    s.accRead t w = ((bitsOf ((s.tile t).accWord w).toNat 0 32, (s.tile t).rowPois (w / 32)), s) := by
  simp only [State.accRead, h, Bool.false_or, Bool.false_eq_true, if_false]

/-- The old word of column n that a product adds to. -/
def Tile.oldWord (x : Tile) (p : Product) (r n : Nat) : Nat := if p.ow then 0 else bitsOf (x.accWord (p.rowWord r + n)).toNat 0 32

/-- The old words of a row, which an overwriting product does not read. -/
theorem State.readMany_old (hacc : ∀ n < lanesOf p.qm, accBad ((s.tile t).accWord (p.rowWord r + n)) = false) :
    readMany (fun s n => s.accRead t (p.rowWord r + n)) s (if p.ow then [] else List.range (lanesOf p.qm)) =
      ((if p.ow then [] else List.range (lanesOf p.qm)).map fun n =>
        ((s.tile t).oldWord p r n, (s.tile t).rowPois (p.rowWord r / 32)), s) := by
  refine readMany_pure _ _ s _ fun n hn => ?_
  cases how : p.ow with
  | true => rw [how] at hn; cases hn
  | false =>
    rw [how] at hn
    have hn := List.mem_range.mp hn
    rw [State.accRead_good (hacc n hn), p.rowWord_row r hn, Tile.oldWord, how]
    rfl

theorem Product.nth_old (x : Tile) {n : Nat} (hn : n < lanesOf p.qm) (v : Bool) :
    (nth (0, false) ((if p.ow then [] else List.range (lanesOf p.qm)).map fun n => (x.oldWord p r n, v)) n).1 = x.oldWord p r n := by
  cases how : p.ow with
  | true => simp [nth, Tile.oldWord, how]
  | false => simp [nth, hn]

theorem Product.anyPois_old (f : Nat → Nat) (v : Bool) :
    anyPois ((if p.ow then [] else List.range (lanesOf p.qm)).map fun n => (f n, v)) = (!p.ow && v) := by
  cases how : p.ow with
  | true => rfl
  | false =>
    rw [Bool.eq_iff_iff]
    simp only [anyPois, Bool.false_eq_true, if_false, List.any_map, List.any_eq_true, List.mem_range, Function.comp_def, Bool.not_false, Bool.true_and]
    exact ⟨fun ⟨_, _, hv⟩ => hv, fun hv => ⟨0, lanesOf_pos _, hv⟩⟩

/-! ## The write -/

/-- The words that row r of a product writes, from the tile's row and the block (R105, R107, R119). -/
def Tile.rowResults (x : Tile) (p : Product) (st : Stat) (r : Nat) : List Nat :=
  (List.range (lanesOf p.qm)).map fun n =>
    resultWord p (x.oldWord p r n) (x.rowElems p r) (st.column n (lanesOf p.qm) (kpOf p.qm p.fa p.fw))

/-- A tile with row r of a product written (R78). -/
def Tile.rowWritten (x : Tile) (p : Product) (st : Stat) (r : Nat) : Tile :=
  (x.putAcc (p.rowWord r) (x.rowResults p st r)).setRowPois (p.rowWord r / 32)
    (rowPoisAfter (x.rowPois (p.rowWord r / 32)) (st.poisoned || (!p.ow && x.rowPois (p.rowWord r / 32))) (!p.qm) p.ow)

/-- A clean row passes the write stage. -/
theorem State.writeRow_clean (hclean : (s.tile t).rowClean p r) (hcodes : codesOk p.fa p.fw = true)
    (hta : p.ta = true → denseCodes p.fa p.fw = false)
    (hacc : ∀ n < lanesOf p.qm, accBad ((s.tile t).accWord (p.rowWord r + n)) = false) :
    s.writeRow t p st r = (s.setTile t ((s.tile t).rowWritten p st r)).syncPois t := by
  have hlanes := State.readMany_lanes (s := s) hclean
  have hscales := State.readMany_scales (s := s) hcodes hta hclean
  have hold := State.readMany_old (s := s) hacc
  rw [Product.rowLanes] at hlanes
  have helems := p.rowElems_of_reads (r := r) (s.tile t) hcodes hta
  rw [Product.rowLanes] at helems
  have hpois : ∀ (l : List Nat) (f : Nat → Nat), anyPois (l.map fun k => (f k, false)) = false := fun l f => by simp [anyPois]
  have hwords : ((List.range (lanesOf p.qm)).map fun n => resultWord p
      (nth (0, false) ((if p.ow then [] else List.range (lanesOf p.qm)).map fun n =>
        ((s.tile t).oldWord p r n, (s.tile t).rowPois (p.rowWord r / 32))) n).1
      ((s.tile t).rowElems p r) (st.column n (lanesOf p.qm) (kpOf p.qm p.fa p.fw))) = (s.tile t).rowResults p st r :=
    List.map_congr_left fun n hn => by rw [p.nth_old _ (List.mem_range.mp hn)]
  simp only [State.writeRow, hlanes, hscales, hold, helems, hwords, hpois, p.anyPois_old, Tile.foldl_accSet, Bool.false_or, Nat.add_zero]
  rfl

end

end Sys2Proof.Machine
end

section
/-! SUPPORT. The rows of the oldest product, and its completion (R54, R69, R78, R87, R123, R124, R181), and O9. -/

namespace Sys2Proof.Machine

variable {s : State} {t q i : Nat} {p : Product} {st : Stat}

/-! ## The write stage's event (R54, R78, R181) -/

/-- The tile with the product's block in the cells: its first row finds the shadow swapped in (R54). -/
def Tile.inCells (x : Tile) (q : Nat) (p : Product) : Tile := if p.swapped ∨ p.ru then x else x.swapIn q

theorem Tile.inCells_spec (x : Tile) (q : Nat) (p : Product) :
    x.Keeps (x.inCells q p) ∧ (x.inCells q p).prods = x.prods ∧
      (x.inCells q p).actOf q = if p.swapped ∨ p.ru then x.actOf q else x.shadowOf q := by
  unfold Tile.inCells
  split
  · exact ⟨⟨rfl, rfl, rfl, rfl, rfl, rfl⟩, rfl, rfl⟩
  · exact ⟨⟨rfl, rfl, rfl, rfl, rfl, rfl⟩, rfl, SMap.get_set_same _ _ _ _⟩

/-- The product as its next row passes the write stage. -/
def Product.nextRow (p : Product) : Product := { p with rows := p.rows + 1, swapped := true }

/-- The state in which that row is read and written. -/
def State.rowTaken (s : State) (t q i : Nat) (p : Product) : State := s.setTile t (((s.tile t).inCells q p).setProd i p.nextRow)

/-- The tile that a row is read from keeps what the program computes with. -/
theorem State.tile_rowTaken (s : State) (t q i : Nat) (p : Product) :
    (s.tile t).Keeps ((s.rowTaken t q i p).tile t) ∧ ((s.rowTaken t q i p).tile t).prods = (s.tile t).prods.set i p.nextRow ∧
      ((s.rowTaken t q i p).tile t).actOf q = if p.swapped ∨ p.ru then (s.tile t).actOf q else (s.tile t).shadowOf q := by
  have htile : (s.rowTaken t q i p).tile t = ((s.tile t).inCells q p).setProd i p.nextRow := s.tile_setTile_same t _
  obtain ⟨hkeep, hprods, hact⟩ := (s.tile t).inCells_spec q p
  rw [htile]
  exact ⟨hkeep.trans ⟨rfl, rfl, rfl, rfl, rfl, rfl⟩, congrArg (List.set · i p.nextRow) hprods, hact⟩

section
variable (hp : s.prodIs t q (fun p => decide (p.rows < p.v) && !p.failed) i p) (hload : p.loaded = true)
include hp hload

theorem exec_resultRowWrite_block (hst : (if p.swapped ∨ p.ru then (s.tile t).actOf q else (s.tile t).shadowOf q) = some st) :
    exec (.resultRowWrite t q) s = .next (match p.fuse with
      | some d => (((s.rowTaken t q i p).writeRow t p st p.rows).syncMx t).fuseDisp t d ((p.groupEnd p.rows).map p.rowRng)
      | none => ((s.rowTaken t q i p).writeRow t p st p.rows).syncMx t) := by
  have hact : (if p.swapped ∨ p.ru then s.tile t else (s.tile t).swapIn q).actOf q = some st := ((s.tile t).inCells_spec q p).2.2.trans hst
  rw [State.prodIs] at hp
  change execResultRowWrite t q s = _
  simp only [execResultRowWrite, hp]
  have hgo : ¬ (!p.loaded) = true := by simp [hload]
  rw [if_neg hgo, hact]
  rfl

theorem exec_resultRowWrite_none (hst : (if p.swapped ∨ p.ru then (s.tile t).actOf q else (s.tile t).shadowOf q) = none) :
    exec (.resultRowWrite t q) s = .next (s.modTile t fun x => x.setProd i { p with failed := true }) := by
  have hact : (if p.swapped ∨ p.ru then s.tile t else (s.tile t).swapIn q).actOf q = none := ((s.tile t).inCells_spec q p).2.2.trans hst
  rw [State.prodIs] at hp
  change execResultRowWrite t q s = _
  simp only [execResultRowWrite, hp]
  have hgo : ¬ (!p.loaded) = true := by simp [hload]
  rw [if_neg hgo, hact]

end

/-- What a written row leaves: its words, its poison bit and the product's progress, and every other word, row and byte. -/
theorem State.rowTaken_written (hst : (if p.swapped ∨ p.ru then (s.tile t).actOf q else (s.tile t).shadowOf q) = some st)
    (hclean : (s.tile t).rowClean p p.rows) (hcodes : codesOk p.fa p.fw = true) (hta : p.ta = true → denseCodes p.fa p.fw = false)
    (hacc : ∀ n < lanesOf p.qm, accBad ((s.tile t).accWord (p.rowWord p.rows + n)) = false) :
    let u := ((s.rowTaken t q i p).writeRow t p st p.rows).syncMx t
    let w0 := p.rowWord p.rows
    (∀ n < lanesOf p.qm, (u.tile t).accWord (w0 + n) = accCode (resultWord p ((s.tile t).oldWord p p.rows n) ((s.tile t).rowElems p p.rows)
        (st.column n (lanesOf p.qm) (kpOf p.qm p.fa p.fw)))) ∧
      (∀ w, w < w0 ∨ w0 + lanesOf p.qm ≤ w → (u.tile t).accWord w = (s.tile t).accWord w) ∧
      (u.tile t).rowPois (w0 / 32) = rowPoisAfter ((s.tile t).rowPois (w0 / 32)) (st.poisoned || (!p.ow && (s.tile t).rowPois (w0 / 32))) (!p.qm) p.ow ∧
      (∀ r, r ≠ w0 / 32 → (u.tile t).rowPois r = (s.tile t).rowPois r) ∧ (∀ off, (u.tile t).code off = (s.tile t).code off) ∧
      (u.tile t).prods = (s.tile t).prods.set i p.nextRow ∧ (u.tile t).actOf q = some st := by
  obtain ⟨hkeep, hprods, hact⟩ := s.tile_rowTaken t q i p
  let y := (s.rowTaken t q i p).tile t
  have htile : ((((s.rowTaken t q i p).writeRow t p st p.rows).syncMx t).tile t) = y.rowWritten p st p.rows := by
    rw [(State.onlySet_syncMx _ t).tile, State.writeRow_clean ((hkeep.rowClean p _).mpr hclean) hcodes hta fun n hn => by
      rw [hkeep.accWord]; exact hacc n hn, (State.onlySet_syncPois _ t).tile, State.tile_setTile_same]
  have hlen : (y.rowResults p st p.rows).length = lanesOf p.qm := by simp [Tile.rowResults]
  have hword : ∀ n (hn : n < (y.rowResults p st p.rows).length), (y.rowResults p st p.rows)[n] =
      resultWord p ((s.tile t).oldWord p p.rows n) ((s.tile t).rowElems p p.rows) (st.column n (lanesOf p.qm) (kpOf p.qm p.fa p.fw)) := fun n hn => by
    have hold : y.oldWord p p.rows n = (s.tile t).oldWord p p.rows n := by rw [Tile.oldWord, Tile.oldWord, hkeep.accWord]
    have helems : y.rowElems p p.rows = (s.tile t).rowElems p p.rows := hkeep.rowElems p p.rows
    simp only [Tile.rowResults, List.getElem_map, List.getElem_range, hold, helems]
  refine ⟨fun n hn => ?_, fun w hw => ?_, ?_, fun r hr => ?_, fun off => ?_, ?_, ?_⟩
  · rw [htile, ← hword n (by rwa [hlen])]
    exact y.accWord_putAcc _ (by rwa [hlen])
  · rw [htile, ← hkeep.accWord]
    exact y.accWord_putAcc_outside (by rwa [hlen])
  · rw [htile, ← hkeep.rowPois]
    exact (Tile.rowPois_setRowPois _ _ _ _).trans (if_pos rfl)
  · rw [htile, ← hkeep.rowPois]
    exact (Tile.rowPois_setRowPois _ _ _ _).trans (if_neg hr)
  · rw [htile, ← hkeep.sameMem.1]; rfl
  · rw [htile]; exact hprods
  · rw [htile]; exact hact.trans hst

/-! ## Completion (R87, R123, R124) -/

theorem Product.targets_nodup (p : Product) : p.targets.Nodup := by
  unfold Product.targets
  split
  · refine List.Nodup.map (fun a b h => ?_) List.nodup_range
    have hfst := congrArg Prod.fst h
    dsimp only at hfst
    omega
  · refine List.nodup_flatMap.mpr ⟨fun a _ => by simp, ?_⟩
    refine List.Pairwise.imp (fun {a b} hab => ?_) List.nodup_range
    simp only [Function.onFun, List.disjoint_left, List.mem_cons, List.not_mem_nil, or_false]
    rintro h (rfl | rfl) <;> simp [hab]

theorem Product.targets_half (hc : p.c < 2) {h : Nat × Nat} (hh : h ∈ p.targets) : h.2 < 2 := by
  unfold Product.targets at hh
  split at hh
  · obtain ⟨a, -, rfl⟩ := List.mem_map.mp hh
    exact hc
  · obtain ⟨a, -, ha⟩ := List.mem_flatMap.mp hh
    simp only [List.mem_cons, List.not_mem_nil, or_false] at ha
    rcases ha with rfl | rfl
    · exact Nat.zero_lt_two
    · exact Nat.one_lt_two

theorem bndCount_addr (t a c : Nat) : (bndCount t a c).addr = aTSPBND t a := by unfold bndCount; split <;> rfl
theorem bndCount_w (t a c : Nat) : (bndCount t a c).w = 11 := by unfold bndCount; split <;> rfl
theorem bndCount_fits (t a c : Nat) : (bndCount t a c).lo + (bndCount t a c).w ≤ 64 := by
  unfold bndCount; split <;> simp [TSPBND_COUNT0, TSPBND_COUNT1]

/-- The counts of two halves share no bit. -/
theorem bndCount_disjoint (t : Nat) {g h : Nat × Nat} (hg : g.2 < 2) (hh : h.2 < 2) (hne : g ≠ h) :
    (bndCount t g.1 g.2).disjoint (bndCount t h.1 h.2) := by
  by_cases ha : g.1 = h.1
  · have hcols : g.2 = 0 ∧ h.2 = 1 ∨ g.2 = 1 ∧ h.2 = 0 := by
      have : g.2 ≠ h.2 := fun e => hne (Prod.ext ha e)
      omega
    refine .inr ?_
    rcases hcols with ⟨hl, hr⟩ | ⟨hl, hr⟩ <;> rw [hl, hr] <;> simp [bndCount, TSPBND_COUNT0, TSPBND_COUNT1]
  · refine .inl ?_
    rw [bndCount_addr, bndCount_addr, aTSPBND, aTSPBND]
    omega

/-- Each of the halves counts n more beats of depth. -/
def State.countUp (s : State) (t n : Nat) (hs : List (Nat × Nat)) : State := s.each hs fun s h => s.bump (bndCount t h.1 h.2) n

/-- The registers of a tile's bindings. -/
def bndRegs (t : Nat) (hs : List (Nat × Nat)) : List Nat := hs.map fun h => aTSPBND t h.1

theorem State.onlySet_countUp (s : State) (t n : Nat) (hs : List (Nat × Nat)) : State.OnlySet (bndRegs t hs) s (s.countUp t n hs) :=
  foldl_rel (R := State.OnlySet (bndRegs t hs)) (State.OnlySet.refl _) State.OnlySet.trans
    (fun s h hh => (State.OnlySet.refl _ s).setFld (f := bndCount t h.1 h.2) (bndCount_addr t h.1 h.2 ▸ List.mem_map_of_mem hh) _) s

theorem State.fld_countUp (s : State) (t n : Nat) {hs : List (Nat × Nat)} (hnodup : hs.Nodup) (hhalf : ∀ h ∈ hs, h.2 < 2) {h : Nat × Nat}
    (hh : h.2 < 2) : (s.countUp t n hs).fld (bndCount t h.1 h.2) =
      if h ∈ hs then min 2047 (s.fld (bndCount t h.1 h.2) + n) else s.fld (bndCount t h.1 h.2) := by
  induction hs generalizing s with
  | nil => rfl
  | cons g gs ih =>
    obtain ⟨hg, hgs⟩ := List.nodup_cons.mp hnodup
    have hrest := ih (s.bump (bndCount t g.1 g.2) n) hgs fun x hx => hhalf x (List.mem_cons_of_mem _ hx)
    rw [State.countUp, State.each_cons, ← State.countUp, hrest]
    by_cases heq : h = g
    · subst heq
      rw [if_neg hg, if_pos List.mem_cons_self, State.fld_bump _ _ _ (bndCount_fits t _ _), bndCount_w]
      rfl
    · have hother : (s.bump (bndCount t g.1 g.2) n).fld (bndCount t h.1 h.2) = s.fld (bndCount t h.1 h.2) :=
        s.fld_setFld_other _ _ _ (bndCount_fits t _ _) (bndCount_disjoint t (hhalf g List.mem_cons_self) hh (Ne.symm heq))
      rw [hother]
      simp only [List.mem_cons, heq, false_or]

/-- The bound halves that a product targets. -/
def State.boundHalves (s : State) (t : Nat) (p : Product) : List (Nat × Nat) := p.targets.filter fun h => s.flag (TSPBND_BOUND t h.1)

/-- The counts after product p: one that overwrites, an integer one or a failed one counts nothing (R123, log entry 88). -/
def State.counted (s : State) (t : Nat) (p : Product) : State :=
  if p.ow ∨ intCode p.fa ∨ p.failed then s else s.countUp t (kpOf p.qm p.fa p.fw / 16) (s.boundHalves t p)

theorem State.onlySet_counted (s : State) (t : Nat) (p : Product) : State.OnlySet (bndRegs t (s.boundHalves t p)) s (s.counted t p) := by
  unfold State.counted
  split
  · exact State.OnlySet.refl _ s
  · exact s.onlySet_countUp t _ _

theorem State.fld_counted (s : State) (t : Nat) (hc : p.c < 2) {h : Nat × Nat} (hh : h.2 < 2) :
    (s.counted t p).fld (bndCount t h.1 h.2) =
      if h ∈ p.targets ∧ s.flag (TSPBND_BOUND t h.1) = true ∧ p.ow = false ∧ intCode p.fa = false ∧ p.failed = false
      then min 2047 (s.fld (bndCount t h.1 h.2) + kpOf p.qm p.fa p.fw / 16) else s.fld (bndCount t h.1 h.2) := by
  unfold State.counted
  by_cases hskip : p.ow ∨ intCode p.fa ∨ p.failed
  · rw [if_pos hskip, if_neg]
    rintro ⟨-, -, how, hint, hfail⟩
    simp [how, hint, hfail] at hskip
  · have hcount : p.ow = false ∧ intCode p.fa = false ∧ p.failed = false := by simpa using hskip
    have hmem : h ∈ s.boundHalves t p ↔ h ∈ p.targets ∧ s.flag (TSPBND_BOUND t h.1) = true := by rw [State.boundHalves, List.mem_filter]
    have hnodup : (s.boundHalves t p).Nodup := p.targets_nodup.filter _
    have hhalf : ∀ x ∈ s.boundHalves t p, x.2 < 2 := fun x hx => Product.targets_half hc (List.mem_of_mem_filter hx)
    rw [if_neg hskip, s.fld_countUp t _ hnodup hhalf hh]
    simp only [hmem, hcount, and_true]

theorem Tile.queueSpill_spec (x : Tile) (hs : List (Nat × Nat)) : x.Keeps (x.queueSpill hs) ∧ (x.queueSpill hs).prods = x.prods := by
  unfold Tile.queueSpill
  split <;> exact ⟨⟨rfl, rfl, rfl, rfl, rfl, rfl⟩, rfl⟩

/-- The state in which product i has left its unit. -/
def State.productLeft (s : State) (t i : Nat) : State := s.setTile t { s.tile t with prods := (s.tile t).prods.eraseIdx i }

/-- The halves whose count reaches the automatic spill's interval, with no product left that targets them (R124). -/
def State.dueHalves (s : State) (t : Nat) (bound : List (Nat × Nat)) : List (Nat × Nat) :=
  bound.filter fun h =>
    decide (s.fld (TSPILL_INTERVAL t) ≤ s.fld (bndCount t h.1 h.2) * 16) && !(s.tile t).prods.any fun r => r.targets.contains h

theorem exec_productComplete (hp : s.prodIs t q (fun _ => true) i p) (hdone : p.v ≤ p.rows ∨ p.failed = true) :
    let u := (s.productLeft t i).counted t p
    exec (.productComplete t q) s =
      .next ((u.modTile t fun x => x.queueSpill (u.dueHalves t ((s.productLeft t i).boundHalves t p))).syncMx t) := by
  have hgo : ¬ (p.rows < p.v ∧ (!p.failed) = true) := by
    rintro ⟨hrows, hfail⟩
    rcases hdone with h | h
    · omega
    · rw [h] at hfail; cases hfail
  rw [State.prodIs] at hp
  change execProductComplete t q s = _
  simp only [execProductComplete, hp]
  exact if_neg hgo

/-- What a product's end leaves. -/
theorem State.productLeft_spec (s : State) (t i : Nat) (hc : p.c < 2) (due : List (Nat × Nat)) :
    let u := (((s.productLeft t i).counted t p).modTile t fun x => x.queueSpill due).syncMx t
    (u.tile t).prods = (s.tile t).prods.eraseIdx i ∧ s.sameMem u ∧ ∀ h : Nat × Nat, h.2 < 2 →
      u.fld (bndCount t h.1 h.2) =
        if h ∈ p.targets ∧ s.flag (TSPBND_BOUND t h.1) = true ∧ p.ow = false ∧ intCode p.fa = false ∧ p.failed = false
        then min 2047 (s.fld (bndCount t h.1 h.2) + kpOf p.qm p.fa p.fw / 16) else s.fld (bndCount t h.1 h.2) := by
  let left := s.productLeft t i
  let counted := left.counted t p
  let queued := counted.modTile t fun x => x.queueSpill due
  have hcounted : State.OnlySet (bndRegs t (left.boundHalves t p)) left counted := left.onlySet_counted t p
  have hshown : State.OnlySet [aTMXSTAT t] queued (queued.syncMx t) := queued.onlySet_syncMx t
  obtain ⟨hkeep, hprods⟩ := (counted.tile t).queueSpill_spec due
  have hleft : left.tile t = { s.tile t with prods := (s.tile t).prods.eraseIdx i } := s.tile_setTile_same t _
  have htile : (queued.syncMx t).tile t = (counted.tile t).queueSpill due := (hshown.tile t).trans (State.tile_modTile_same _ _ _)
  let all := bndRegs t (left.boundHalves t p) ++ [aTMXSTAT t]
  have honly : State.OnlyUnit t all s (queued.syncMx t) :=
    (((s.onlyUnit_setTile t _ all).trans ((hcounted.mono (List.subset_append_left _ _)).onlyUnit t)).trans (counted.onlyUnit_modTile t _ all)).trans
      ((hshown.mono (List.subset_append_right _ _)).onlyUnit t)
  refine ⟨?_, honly.sameMem ?_, fun h hh => ?_⟩
  · rw [htile, hprods, hcounted.tile, hleft]
  · rw [htile]
    rw [hcounted.tile, hleft] at hkeep ⊢
    exact (Tile.Keeps.trans ⟨rfl, rfl, rfl, rfl, rfl, rfl⟩ hkeep).sameMem
  · have hcount : (queued.syncMx t).fld (bndCount t h.1 h.2) = counted.fld (bndCount t h.1 h.2) :=
      hshown.fld (by rw [bndCount_addr, List.mem_singleton, aTSPBND, aTMXSTAT]; omega)
    exact hcount.trans (left.fld_counted t hc hh)

end Sys2Proof.Machine

namespace Sys2Proof.Proofs
open Sys2Proof Sys2Proof.Machine

/-- Settles O9: MX.MUL's issue by its operands, a result row with and without a block to run on, and a product's completion. -/
theorem matrixProducts : Obligations.MatrixProducts := by
  unfold Obligations.MatrixProducts
  refine ⟨fun s t b hi hfree => ⟨fun hvalid => ?joins, exec_mxMul_invalid hi hfree⟩,
    fun s t q i p st hp hload hst hclean hcodes hta hacc => ?row, fun s t q i p hp hload hst => ?noBlock, fun s t q i p hp hdone hc => ?ends⟩
  case joins =>
    obtain ⟨u, hexec, hmoves, ⟨htiles, hregs, hrest⟩, hkeep, hmode, hprods⟩ := exec_mxMul_valid hi hfree hvalid
    exact ⟨u, hexec, hmoves, State.OnlyUnit.sameMem ⟨htiles, hregs, hrest⟩ hkeep.sameMem, htiles, hkeep.sameS _, hkeep.sameA _, hkeep.sameP _, hregs,
      hmode, mxProduct s t b, hprods, rfl, rfl, rfl, rfl⟩
  case row =>
    refine ⟨_, exec_resultRowWrite_block hp hload hst, _, ?_, State.rowTaken_written hst hclean hcodes hta hacc⟩
    cases p.fuse <;> rfl
  case noBlock =>
    refine ⟨_, exec_resultRowWrite_none hp hload hst, ?_, ?_, (s.onlyUnit_modTile t _ []).1, (s.onlyUnit_modTile t _ []).2.1⟩
    · rw [State.tile_modTile_same]; rfl
    · exact s.sameMem_modTile t ⟨fun _ => rfl, fun _ => rfl, fun _ => rfl⟩
  case ends =>
    obtain ⟨hprods, hmem, hcounts⟩ := s.productLeft_spec (p := p) t i hc _
    exact ⟨_, exec_productComplete hp hdone, hprods, hmem, fun h _ hh => hcounts h hh⟩

end Sys2Proof.Proofs
end

section
/-! SUPPORT. The running sum of a circulation, taken four bytes at a time (R138, R140), and O24. -/

namespace Sys2Proof.Machine

/-- The bytes of FX32 integers, none poisoned. -/
def bytesOfFX (xs : List Int) : List (Nat × Bool) := xs.flatMap fun i => asBytes 4 (ofIntW 32 i) false

theorem bytesOfFX_cons (i : Int) (xs : List Int) : bytesOfFX (i :: xs) = asBytes 4 (ofIntW 32 i) false ++ bytesOfFX xs := List.flatMap_cons

theorem length_asBytes (n v : Nat) (p : Bool) : (asBytes n v p).length = n := by rw [asBytes, List.length_map, length_leBytes]

theorem anyPois_asBytes_clean (n v : Nat) : anyPois (asBytes n v false) = false := anyPois_unmarked _

/-- A 32-bit integer is read back from its bytes. -/
theorem toIntW_valOf_asBytes {i : Int} (hi : -2147483648 ≤ i ∧ i ≤ 2147483647) : toIntW 32 (valOf (asBytes 4 (ofIntW 32 i) false)) = i := by
  rw [asBytes, valOf_unmarked, ofLE_leBytes]
  simp only [toIntW, ofIntW]
  split <;> omega

/-- A sum within the 32-bit range stands as it is. -/
theorem satFX_of_range {i : Int} (hi : -2147483648 ≤ i ∧ i ≤ 2147483647) : satFX i = (i, false) := by
  obtain ⟨hlo, hhi⟩ := hi
  rw [satFX, if_neg (by omega), if_neg (by omega)]

theorem addFX_nil (k : Nat) (b : List (Nat × Bool)) : addFX k [] b = ([], 0) := by
  cases k <;> rfl

/-- One element of a running sum, whose bytes stand in front. -/
theorem addFX_words (k : Nat) {x y : List (Nat × Bool)} (a b : List (Nat × Bool)) (hx : x.length = 4) (hy : y.length = 4) :
    addFX (k + 1) (x ++ a) (y ++ b) =
      let r := satFX (toIntW 32 (valOf x) + toIntW 32 (valOf y))
      (asBytes 4 (ofIntW 32 r.1) (anyPois x || anyPois y) ++ (addFX k a b).1, (addFX k a b).2 + if r.2 then 1 else 0) := by
  have hne : (x ++ a).isEmpty = false := by
    cases x with
    | nil => cases hx
    | cons => rfl
  have htake : ∀ {w : List (Nat × Bool)} (c : List (Nat × Bool)), w.length = 4 → (w ++ c).take 4 = w ∧ (w ++ c).drop 4 = c :=
    fun c hw => ⟨List.take_left' hw, List.drop_left' hw⟩
  rw [addFX, hne, if_neg Bool.false_ne_true, (htake a hx).1, (htake a hx).2, (htake b hy).1, (htake b hy).2]

/-- The running sum of integers whose sums stay in range is their element-by-element sum, and saturates nowhere. -/
theorem addFX_bytesOfFX (k : Nat) (a b : List Int) (hlen : a.length = b.length) (hk : a.length ≤ k)
    (hsum : ∀ p ∈ a.zip b, -2147483647 ≤ p.1 + p.2 ∧ p.1 + p.2 ≤ 2147483647)
    (ha : ∀ x ∈ a, -2147483648 ≤ x ∧ x ≤ 2147483647) (hb : ∀ x ∈ b, -2147483648 ≤ x ∧ x ≤ 2147483647) :
    addFX k (bytesOfFX a) (bytesOfFX b) = (bytesOfFX ((a.zip b).map fun p => p.1 + p.2), 0) := by
  induction a generalizing b k with
  | nil => exact addFX_nil k _
  | cons x a ih =>
    obtain ⟨k, rfl⟩ : ∃ j, k = j + 1 := ⟨k - 1, by rw [List.length_cons] at hk; omega⟩
    obtain _ | ⟨y, b⟩ := b
    · cases hlen
    obtain ⟨hlo, hhi⟩ := hsum (x, y) List.mem_cons_self
    have hrest := ih k b (Nat.succ.inj hlen) (Nat.le_of_succ_le_succ hk) (fun p hp => hsum p (List.mem_cons_of_mem _ hp))
      (fun z hz => ha z (List.mem_cons_of_mem _ hz)) fun z hz => hb z (List.mem_cons_of_mem _ hz)
    rw [bytesOfFX_cons, bytesOfFX_cons, addFX_words k _ _ (length_asBytes _ _ _) (length_asBytes _ _ _), hrest,
      toIntW_valOf_asBytes (ha x List.mem_cons_self), toIntW_valOf_asBytes (hb y List.mem_cons_self),
      satFX_of_range ⟨by omega, hhi⟩, anyPois_asBytes_clean, anyPois_asBytes_clean]
    rfl

/-- Which of the two addends is the running sum does not matter. -/
theorem addFX_comm (k : Nat) (x y : List (Nat × Bool)) (hlen : x.length = y.length) : addFX k x y = addFX k y x := by
  induction k generalizing x y with
  | zero => rfl
  | succ k ih =>
    have hempty : x.isEmpty = y.isEmpty := by rw [Bool.eq_iff_iff, List.isEmpty_iff_length_eq_zero, List.isEmpty_iff_length_eq_zero, hlen]
    have hrest := ih (x.drop 4) (y.drop 4) (by rw [List.length_drop, List.length_drop, hlen])
    simp only [addFX, hempty, hrest, Int.add_comm (toIntW 32 (valOf (x.take 4))), Bool.or_comm (anyPois (x.take 4))]

end Sys2Proof.Machine

namespace Sys2Proof.Proofs
open Sys2Proof Sys2Proof.Machine

/-- Settles O24: by induction over the elements, each of which is four bytes. -/
theorem circulationSumIsExact : Obligations.CirculationSumIsExact := by
  unfold Obligations.CirculationSumIsExact
  refine ⟨fun a b hlen hk hsum ha hb => ?_, fun x y hlen _ => addFX_comm 1024 x y hlen⟩
  have hadd := addFX_bytesOfFX 1024 a b hlen hk hsum ha hb
  simpa only [bytesOfFX, List.flatMap_map] using hadd

end Sys2Proof.Proofs
end

section
/-! SUPPORT. Fills of the accumulator file: consecutive words, and the poison bits of consecutive rows (R76, R78). -/

namespace Sys2Proof.Machine

/-- Words set one after the other from w are a list of words put there. -/
theorem Tile.foldl_range_accSet (x : Tile) (w n : Nat) (f : Nat → Nat) :
    (List.range n).foldl (fun x i => Tile.accSet x (w + i) (f i)) x = x.putAcc w ((List.range n).map f) := by
  have hzip : ((List.range n).map f).zipIdx 0 = (List.range n).map fun i => (f i, i) := by
    refine List.ext_getElem (by simp) fun i _ _ => ?_
    simp
  have hput := x.foldl_accSet w 0 ((List.range n).map f)
  rwa [hzip, List.foldl_map] at hput

/-- A list of words put at w, read back wherever. -/
theorem Tile.accWord_putAcc_map (x : Tile) (w n k : Nat) (f : Nat → Nat) :
    (x.putAcc w ((List.range n).map f)).accWord k = if w ≤ k ∧ k < w + n then accCode (f (k - w)) else x.accWord k := by
  split
  · next h =>
    obtain ⟨i, rfl⟩ : ∃ i, k = w + i := ⟨k - w, by omega⟩
    have hi : i < ((List.range n).map f).length := by rw [List.length_map, List.length_range]; omega
    rw [x.accWord_putAcc w hi, List.getElem_map, List.getElem_range, Nat.add_sub_cancel_left]
  · next h => exact x.accWord_putAcc_outside (by rw [List.length_map, List.length_range]; omega)

/-- The poison bits of consecutive rows are cleared; nothing else of the tile changes. -/
theorem Tile.foldl_clearRowPois (x : Tile) (r n : Nat) :
    ∃ p, (List.range n).foldl (fun x i => Tile.setRowPois x (r + i) false) x = { x with accPois := p } ∧
      ∀ k, Tile.rowPois { x with accPois := p } k = (x.rowPois k && !decide (r ≤ k ∧ k < r + n)) := by
  induction n with
  | zero => exact ⟨x.accPois, rfl, fun k => by rw [show ¬ (r ≤ k ∧ k < r + 0) by omega |> decide_eq_false, Bool.not_false, Bool.and_true]⟩
  | succ n ih =>
    obtain ⟨p, hfold, hrow⟩ := ih
    refine ⟨_, by rw [List.range_succ, List.foldl_append, hfold]; rfl, fun k => ?_⟩
    refine (Tile.rowPois_setRowPois { x with accPois := p } (r + n) k false).trans ?_
    rw [hrow]
    by_cases hk : k = r + n
    · rw [if_pos hk, decide_eq_true (show r ≤ k ∧ k < r + (n + 1) by omega), Bool.not_true, Bool.and_false]
    · have hsame : (r ≤ k ∧ k < r + n) ↔ (r ≤ k ∧ k < r + (n + 1)) := by omega
      rw [if_neg hk, decide_eq_decide.mpr hsame]

/-- A fill of words with 0 and of poison bits with false. -/
theorem Tile.foldl_clear (x : Tile) (w n r m : Nat) :
    ∃ l p, (List.range m).foldl (fun x i => Tile.setRowPois x (r + i) false) ((List.range n).foldl (fun x i => Tile.accSet x (w + i) 0) x) =
        { x with acc := l, accPois := p } ∧
      (∀ k, Tile.accWord { x with acc := l, accPois := p } k = if w ≤ k ∧ k < w + n then accCode 0 else x.accWord k) ∧
      ∀ k, Tile.rowPois { x with acc := l, accPois := p } k = (x.rowPois k && !decide (r ≤ k ∧ k < r + m)) := by
  obtain ⟨p, hrows, hpois⟩ := (x.putAcc w ((List.range n).map fun _ => 0)).foldl_clearRowPois r m
  rw [x.foldl_range_accSet w n fun _ => 0, hrows]
  exact ⟨_, p, rfl, fun k => x.accWord_putAcc_map w n k fun _ => 0, hpois⟩

/-- An accumulator tile all of whose words are 0 and none of whose rows is poisoned (R121). -/
def Tile.accCleared (x : Tile) (a : Nat) : Tile :=
  (List.range 32).foldl (fun x r => Tile.setRowPois x (a * 32 + r) false) ((List.range 1024).foldl (fun x w => Tile.accSet x (a * 1024 + w) 0) x)

theorem Tile.accCleared_spec (x : Tile) (a : Nat) :
    ∃ l p, x.accCleared a = { x with acc := l, accPois := p } ∧
      (∀ w, Tile.accWord { x with acc := l, accPois := p } w = if a * 1024 ≤ w ∧ w < a * 1024 + 1024 then accCode 0 else x.accWord w) ∧
      ∀ r, Tile.rowPois { x with acc := l, accPois := p } r = (x.rowPois r && !decide (a * 32 ≤ r ∧ r < a * 32 + 32)) :=
  x.foldl_clear (a * 1024) 1024 (a * 32) 32

end Sys2Proof.Machine
end

section
/-! SUPPORT. The issue of the accumulator instructions (R121, R127 to R130, R165). -/

namespace Sys2Proof.Machine

variable {s : State} {t : Nat} {b : BitVec 54}

/-! ## Joining the vector datapath (R152, R165) -/

/-- An instruction whose whole effect is on the vector datapath's queue moves on. -/
theorem State.perform_vq (s : State) (t : Nat) {f : Tile → Tile} {l : List VJob} (hf : f (s.tile t) = { s.tile t with vq := l }) :
    let u := s.perform t s (.fall (s.modTile t f))
    (u.tile t).vq = l ∧ movesOn t s u ∧ scalarFrame t [] [] [] s u := by
  have htile : (s.modTile t f).tile t = { s.tile t with vq := l } := by rw [State.tile_modTile_same, hf]
  obtain ⟨hmoves, honly, lc, hdone⟩ := State.perform_fall (s' := s.modTile t f) s (State.pc_modTile _ _ _ _) (by rw [htile])
  rw [htile] at hdone
  refine ⟨by rw [hdone]; rfl, hmoves, ((s.onlyUnit_modTile t f _).trans honly.onlyUnit).scalarFrame ?_⟩
  rw [hdone]
  exact ⟨rfl, rfl, rfl, rfl, rfl, rfl⟩

/-- A trap found at issue. -/
theorem State.issues_trapsHere {cls op rsv : Nat} {regs : List Nat} (hi : s.issues t cls op b rsv regs = true) (cause code : Nat) :
    trapsHere t cause code s (s.perform t s (.trap cause code)) :=
  State.raise_trapsHere (State.issues_tile hi).1 cause code

/-! ## ACC.BIND (R121, R130) -/

/-- What TSPBND shows of a tile bound to a buffer: both halves empty, no counts. -/
def bindWord (base : Nat) : BitVec 64 := BitVec.ofNat 64 (base / 64 + 2 ^ 15 + 2 ^ 16 + 2 ^ 17)

/-- The state in which tile a is bound to a buffer, x being its tile with it cleared. -/
def State.accBound (s : State) (t a base : Nat) (x : Tile) : State := ((s.setReg (aTSPBND t a) (bindWord base)).setTile t x).syncPois t

theorem exec_accBind_free (hi : s.issues t 4 0 b (rsvOut [(49, 47), (46, 43)]) [] = true)
    (hfree : s.rangeHold t [] [accTileRng (fb b 47 3)] = false) :
    let a := fb b 47 3
    let base := ((s.tile t).areg (fb b 43 4)).toNat
    exec (.accBind t b) s = .next (s.perform t s
      (if s.flag (TSPBND_BOUND t a) || base % 64 != 0 || !s.inScratch t base 6144 then .trap 2 0
       else .fall (s.accBound t a base ((s.tile t).accCleared a)))) := by
  change execAccBind t b s = _
  rw [execAccBind, State.issue_issues hi]
  simp only [hfree, Bool.false_eq_true, if_false]
  rfl

theorem aTSPBND_apart {t a : Nat} (ha : a < 8) : aTSPBND t a ≠ aTMXSTAT t ∧ aTSPBND t a ≠ aTSQSTAT t := by
  simp only [aTSPBND, aTMXSTAT, aTSQSTAT]
  omega

theorem fb_lt (b : BitVec 54) (lo w : Nat) : fb b lo w < 2 ^ w := Nat.mod_lt _ (Nat.two_pow_pos w)

/-- The fields of a bound tile's TSPBND. -/
theorem State.fields_of_bindWord {u : State} {a base : Nat} (hbase : base < 0x200000) (h : u.reg (aTSPBND t a) = bindWord base) :
    u.flag (TSPBND_BOUND t a) = true ∧ u.fld (TSPBND_BASE t a) = base / 64 ∧ u.flag (TSPBND_EMPTY0 t a) = true ∧
      u.flag (TSPBND_EMPTY1 t a) = true ∧ u.fld (TSPBND_COUNT0 t a) = 0 ∧ u.fld (TSPBND_COUNT1 t a) = 0 ∧ u.fld (TSPBND_SPILLS t a) = 0 := by
  have hword : (u.reg (aTSPBND t a)).toNat = base / 64 + 229376 := by rw [h, bindWord, BitVec.toNat_ofNat]; omega
  simp only [State.flag, State.fld, TSPBND_BOUND, TSPBND_BASE, TSPBND_EMPTY0, TSPBND_EMPTY1, TSPBND_COUNT0, TSPBND_COUNT1, TSPBND_SPILLS, hword,
    bitsOf, Nat.shiftRight_eq_div_pow, bne_iff_ne]
  omega

theorem State.accBound_spec (s : State) {t a : Nat} (base : Nat) (x : Tile) (ha : a < 8) :
    (s.accBound t a base x).tile t = x ∧ (s.accBound t a base x).pc t = s.pc t ∧ (s.accBound t a base x).reg (aTSPBND t a) = bindWord base := by
  unfold State.accBound
  generalize bindWord base = w
  have hshown := ((s.setReg (aTSPBND t a) w).setTile t x).onlySet_syncPois t
  obtain ⟨hmx, hsq⟩ := aTSPBND_apart (t := t) ha
  refine ⟨(hshown.tile t).trans (State.tile_setTile_same _ t _), ?_, ?_⟩
  · have hpc : aTSQSTAT t ∉ [aTMXSTAT t] := by rw [List.mem_singleton, aTSQSTAT, aTMXSTAT]; omega
    rw [State.pc, hshown.fld (f := TSQSTAT_PC t) hpc, State.fld_setTile, State.fld_setReg_other _ _ _ _ hsq.symm, State.pc]
  · rw [hshown.2 _ (mt List.mem_singleton.mp hmx), State.reg_setTile, State.reg_setReg_same]

/-- What a binding leaves. -/
theorem State.perform_accBound (s : State) {t a base : Nat} (ha : a < 8) (hbase : base < 0x200000) :
    let u := s.perform t s (.fall (s.accBound t a base ((s.tile t).accCleared a)))
    movesOn t s u ∧ u.flag (TSPBND_BOUND t a) = true ∧ u.fld (TSPBND_BASE t a) = base / 64 ∧ u.flag (TSPBND_EMPTY0 t a) = true ∧
      u.flag (TSPBND_EMPTY1 t a) = true ∧ u.fld (TSPBND_COUNT0 t a) = 0 ∧ u.fld (TSPBND_COUNT1 t a) = 0 ∧ u.fld (TSPBND_SPILLS t a) = 0 ∧
      (∀ w, (u.tile t).accWord w = if a * 1024 ≤ w ∧ w < a * 1024 + 1024 then accCode 0 else (s.tile t).accWord w) ∧
      (∀ r, (u.tile t).rowPois r = ((s.tile t).rowPois r && !decide (a * 32 ≤ r ∧ r < a * 32 + 32))) ∧
      ∀ off, (u.tile t).code off = (s.tile t).code off := by
  obtain ⟨l, p, hcleared, hwords, hrows⟩ := (s.tile t).accCleared_spec a
  rw [hcleared]
  obtain ⟨htile, hpc, hreg⟩ := s.accBound_spec (t := t) base { s.tile t with acc := l, accPois := p } ha
  obtain ⟨hmoves, honly, lc, hdone⟩ := State.perform_fall s hpc (by rw [htile])
  obtain ⟨hbound, hshow, hempty0, hempty1, hcount0, hcount1, hspills⟩ :=
    State.fields_of_bindWord hbase ((honly.regs _ (mt List.mem_singleton.mp (aTSPBND_apart ha).2)).trans hreg)
  rw [htile] at hdone
  refine ⟨hmoves, hbound, hshow, hempty0, hempty1, hcount0, hcount1, hspills, fun w => ?_, fun r => ?_, fun off => ?_⟩
  · rw [hdone]; exact hwords w
  · rw [hdone]; exact hrows r
  · rw [hdone]; rfl

/-! ## ACC.DROP (R129, R130) -/

theorem exec_accDrop_free (hi : s.issues t 4 3 b (rsvOut [(49, 47)]) [] = true) (hfree : s.rangeHold t [] [accTileRng (fb b 47 3)] = false) :
    exec (.accDrop t b) s = .next (s.perform t s
      (if !s.flag (TSPBND_BOUND t (fb b 47 3)) then .trap 2 0 else .fall (s.setFld (TSPBND_BOUND t (fb b 47 3)) 0))) := by
  change execAccDrop t b s = _
  rw [execAccDrop, State.issue_issues hi]
  simp only [hfree, Bool.false_eq_true, if_false]

/-- A tile let go: its register alone shows it. -/
theorem State.perform_unbound (s : State) {t a : Nat} (ha : a < 8) :
    let u := s.perform t s (.fall (s.setFld (TSPBND_BOUND t a) 0))
    movesOn t s u ∧ u.flag (TSPBND_BOUND t a) = false ∧ s.sameMem u ∧ s.sameRegs u [aTSQSTAT t, aTSPBND t a] := by
  have hapart := (aTSPBND_apart (t := t) ha).2
  have hset : State.OnlySet [aTSPBND t a] s (s.setFld (TSPBND_BOUND t a) 0) := (State.OnlySet.refl _ s).setFld List.mem_cons_self 0
  have hpc : (s.setFld (TSPBND_BOUND t a) 0).pc t = s.pc t := hset.fld (f := TSQSTAT_PC t) (mt List.mem_singleton.mp hapart.symm)
  obtain ⟨hmoves, honly, l, hdone⟩ := State.perform_fall s hpc (by rw [hset.tile])
  have hunit : State.OnlyUnit t [aTSQSTAT t, aTSPBND t a] s (s.perform t s (.fall (s.setFld (TSPBND_BOUND t a) 0))) :=
    ((hset.onlyUnit t).mono (by simp)).trans (honly.onlyUnit.mono (by simp))
  refine ⟨hmoves, ?_, hunit.sameMem ?_, hunit.2.1⟩
  · have hflag := s.flag_setFld_same (TSPBND_BOUND t a) 0 (by simp [TSPBND_BOUND])
    rw [State.flag_of_sameRegs (f := TSPBND_BOUND t a) honly.regs (mt List.mem_singleton.mp hapart), hflag]
    rfl
  · rw [hdone, hset.tile]
    exact (Tile.keeps_issued _ l).sameMem

/-! ## ACC.SPILL (R127, R130) -/

theorem accTileRng_meets (a : Nat) : (accTileRng a).meets (accTileRng a) = true := by
  have hend : (0x200000 + a * 0x1000) / 64 ≤ (0x200000 + a * 0x1000 + 0x1000 - 1) / 64 := Nat.div_le_div_right (by omega)
  simp only [Rng.meets, accTileRng, Bool.and_eq_true]
  exact ⟨⟨⟨rfl, rfl⟩, decide_eq_true hend⟩, decide_eq_true hend⟩

/-- A job in the datapath's queue that writes an accumulator tile holds every instruction that writes it too (R152, R153). -/
theorem State.rangeHold_of_vq {v : VJob} {a : Nat} {rd wr : List Rng} (hv : v ∈ (s.tile t).vq) (hjob : accTileRng a ∈ (v.ranges (s.bufBase t)).2)
    (hwr : accTileRng a ∈ wr) : s.rangeHold t rd wr = true := by
  have hflight : v.ranges (s.bufBase t) ∈ s.inFlight t := by
    simp only [State.inFlight, List.mem_append, List.mem_map]
    exact .inl (.inl (.inr ⟨v, hv, rfl⟩))
  refine List.any_eq_true.mpr ⟨_, hflight, ?_⟩
  rw [Bool.or_eq_true]
  exact .inl (List.any_eq_true.mpr ⟨_, hjob, List.any_eq_true.mpr ⟨_, List.mem_append_right _ hwr, accTileRng_meets a⟩⟩)

/-- With no hazard on an accumulator tile, no pass that spills it is queued. -/
theorem State.no_spills_of_free {a : Nat} {rd wr : List Rng} (hfree : s.rangeHold t rd wr = false) (hwr : accTileRng a ∈ wr) :
    (s.tile t).vq.any (VJob.spills a) = false := by
  refine List.any_eq_false.mpr fun v hv hspills => ?_
  cases v with
  | spill w =>
    obtain ⟨h, hmem, ha⟩ := List.any_eq_true.mp hspills
    have hjob : accTileRng a ∈ ((VJob.spill w).ranges (s.bufBase t)).2 :=
      List.mem_append_right _ (List.mem_map.mpr ⟨h, hmem, by rw [beq_iff_eq.mp ha]⟩)
    rw [State.rangeHold_of_vq hv hjob hwr] at hfree
    cases hfree
  | _ => cases hspills

/-- Where no pass that spills tile a is queued, the hazards of the other jobs are all hazards (R127). -/
theorem State.rangeHold_withoutSpills {a : Nat} (hnone : (s.tile t).vq.any (VJob.spills a) = false) (rd wr : List Rng) :
    (s.modTile t fun x => { x with vq := x.vq.filter fun v => !v.spills a }).rangeHold t rd wr = s.rangeHold t rd wr := by
  have hall : (s.tile t).vq.filter (fun v => !v.spills a) = (s.tile t).vq :=
    List.filter_eq_self.mpr fun v hv => by rw [Bool.eq_false_iff.mpr (List.any_eq_false.mp hnone v hv)]; rfl
  simp only [State.rangeHold, State.inFlight, State.tile_modTile_same, hall]
  rfl

/-- The halves of tile a with a non-zero count (R127). -/
def State.countedHalves (s : State) (t a : Nat) : List (Nat × Nat) :=
  (([0, 1] : List Nat).filter fun c => s.fld (bndCount t a c) != 0).map fun c => (a, c)

theorem State.countedHalves_eq (s : State) (t a : Nat) :
    s.countedHalves t a = (if s.fld (TSPBND_COUNT0 t a) ≠ 0 then [(a, 0)] else []) ++ if s.fld (TSPBND_COUNT1 t a) ≠ 0 then [(a, 1)] else [] := by
  have h0 : bndCount t a 0 = TSPBND_COUNT0 t a := rfl
  have h1 : bndCount t a 1 = TSPBND_COUNT1 t a := rfl
  simp only [State.countedHalves, List.filter_cons, List.filter_nil, h0, h1, bne_iff_ne]
  split <;> split <;> rfl

section
variable (hi : s.issues t 4 1 b (rsvOut [(49, 47)]) [] = true)
  (hfree : s.vFree t [⟨s.bufBase t (fb b 47 3), 6144⟩] [⟨s.bufBase t (fb b 47 3), 6144⟩, accTileRng (fb b 47 3)])
include hi hfree

/-- With no hazard, ACC.SPILL queues the halves with a count as a pass of their own. -/
theorem exec_accSpill_free : exec (.accSpill t b) s = .next (s.perform t s
    (if !s.flag (TSPBND_BOUND t (fb b 47 3)) then .trap 2 0
     else .fall (s.modTile t fun x => x.queueSpill (s.countedHalves t (fb b 47 3))))) := by
  obtain ⟨hrange, hfull, htracker⟩ := hfree
  have hnone := State.no_spills_of_free hrange (a := fb b 47 3) (by simp)
  change execAccSpill t b s = _
  rw [execAccSpill, State.issue_issues hi]
  simp only [hnone, hfull, htracker, State.rangeHold_withoutSpills hnone, hrange, Bool.or_false, Bool.and_false, Bool.false_eq_true, if_false]
  rfl

/-- The halves with a count join the queue. -/
theorem exec_accSpill_queues {hs : List (Nat × Nat)} (hbound : s.flag (TSPBND_BOUND t (fb b 47 3)) = true)
    (hdue : s.countedHalves t (fb b 47 3) = hs) (hne : hs ≠ []) : Gives (exec (.accSpill t b) s) (queuesV t (.spill hs) s) := by
  refine ⟨_, exec_accSpill_free hi hfree, ?_⟩
  rw [hbound, hdue]
  exact s.perform_vq t (if_neg (mt List.isEmpty_iff.mp hne))

/-- A tile without counts queues nothing. -/
theorem exec_accSpill_nothing (hbound : s.flag (TSPBND_BOUND t (fb b 47 3)) = true) (hdue : s.countedHalves t (fb b 47 3) = []) :
    Gives (exec (.accSpill t b) s) fun u => movesOn t s u ∧ scalarFrame t [] [] [] s u ∧ (u.tile t).vq = (s.tile t).vq := by
  refine ⟨_, exec_accSpill_free hi hfree, ?_⟩
  rw [hbound, hdue]
  obtain ⟨hvq, hmoves, hframe⟩ := s.perform_vq t (f := fun x => x.queueSpill []) (l := (s.tile t).vq) rfl
  exact ⟨hmoves, hframe, hvq⟩

end

/-! ## ACC.ROUND and ACC.CHAIN (R128, R130, R133, R165) -/

theorem exec_accRound_free (hi : s.issues t 4 2 b (rsvOut [(49, 47)]) [] = true)
    (hfree : s.vFree t [⟨s.bufBase t (fb b 47 3), 6144⟩] [accTileRng (fb b 47 3)]) :
    exec (.accRound t b) s = .next (s.perform t s
      (if !s.flag (TSPBND_BOUND t (fb b 47 3)) then .trap 2 0
       else .fall (s.modTile t fun x => { x with vq := x.vq ++ [.round (fb b 47 3)] }))) := by
  obtain ⟨hrange, hfull, htracker⟩ := hfree
  change execAccRound t b s = _
  rw [execAccRound, State.issue_issues hi]
  simp only [hrange, hfull, htracker, Bool.or_false, Bool.false_eq_true, if_false]

/-- The chain-add that ACC.CHAIN asks for, its registers captured at issue. -/
def chainJob (s : State) (t : Nat) (b : BitVec 54) : VJob :=
  let off := fun lo => ((s.tile t).areg (fb b lo 4)).toNat
  .chain (fb b 47 3) (fb b 46 1) (fb b 44 2) (off 40) (off 36) (off 32) (fb b 27 5) (s.pc t) false

/-- With no hazard and with valid operands, ACC.CHAIN joins the queue. -/
theorem exec_accChain_valid
    (hi : s.issues t 4 4 b (rsvOut [(49, 47), (46, 46), (45, 44), (43, 40), (39, 36), (35, 32), (31, 27)]) [] = true)
    (hfree : s.vFree t ((chainJob s t b).ranges (s.bufBase t)).1 ((chainJob s t b).ranges (s.bufBase t)).2) :
    let off := fun lo => ((s.tile t).areg (fb b lo 4)).toNat
    let n := if fb b 44 2 = 0 then 6144 else 3072
    fb b 44 2 ≠ 3 → s.inScratch t (off 40) n = true → (fb b 46 1 = 0 → s.inScratch t (off 36) 6144 = true) →
    s.inScratch t (off 32) (if fb b 46 1 = 0 ∧ off 32 = off 36 then 6144 else n) = true →
    Gives (exec (.accChain t b) s) (queuesV t (chainJob s t b) s) := by
  intro off n hspan hinc hloc hout
  obtain ⟨hrange, hfull, htracker⟩ := hfree
  have hlocal : (fb b 46 1 == 0 && !s.inScratch t (off 36) 6144) = false := by
    by_cases h : fb b 46 1 = 0
    · rw [hloc h]; exact Bool.and_false _
    · rw [beq_eq_false_iff_ne.mpr h]; rfl
  have hexec : exec (.accChain t b) s =
      .next (s.perform t s (.fall (s.setTile t { s.tile t with vq := (s.tile t).vq ++ [chainJob s t b] }))) := by
    change execAccChain t b s = _
    rw [execAccChain, State.issue_issues hi]
    congr 2
    refine (if_neg ?_).trans (if_neg ?_)
    · rw [Bool.or_eq_true, Bool.or_eq_true, not_or, not_or]
      exact ⟨⟨Bool.eq_false_iff.mp hrange, Bool.eq_false_iff.mp hfull⟩, Bool.eq_false_iff.mp htracker⟩
    · rw [hinc, hlocal, hout, beq_eq_false_iff_ne.mpr hspan]
      exact Bool.false_ne_true
  exact ⟨_, hexec, s.perform_vq t (f := fun x => { x with vq := x.vq ++ [chainJob s t b] }) rfl⟩

end Sys2Proof.Machine

namespace Sys2Proof.Proofs
open Sys2Proof Sys2Proof.Machine

/-- Settles O11: each instruction's issue by its operands and by what TSPBND shows. -/
theorem accumulatorControl : Obligations.AccumulatorControl := by
  unfold Obligations.AccumulatorControl
  refine ⟨fun s t b hi => ?bind, fun s t b hi hfree => ?drop, fun s t b hi => ?spill, fun s t b hi hfree => ?round, fun s t b hi => ?chain⟩
  case bind =>
    refine fun hfree => ⟨fun hbound halign hfits => ⟨_, exec_accBind_free hi hfree, ?_⟩, fun hbad => ⟨_, exec_accBind_free hi hfree, ?_⟩⟩
    · have hscratch : s.inScratch t ((s.tile t).areg (fb b 43 4)).toNat 6144 = true := by
        simp only [State.inScratch, Bool.and_eq_true, decide_eq_true_eq]; omega
      have hbase : ((s.tile t).areg (fb b 43 4)).toNat < 0x200000 := by rw [State.scBase] at hfits; omega
      rw [hbound, halign, hscratch]
      exact s.perform_accBound (fb_lt b 47 3) hbase
    · rw [if_pos (by simpa [or_assoc] using hbad)]
      exact State.issues_trapsHere hi 2 0
  case drop =>
    refine ⟨fun hbound => ⟨_, exec_accDrop_free hi hfree, ?_⟩, fun hbound => ⟨_, exec_accDrop_free hi hfree, ?_⟩⟩
    · rw [hbound]
      exact s.perform_unbound (fb_lt b 47 3)
    · rw [hbound]
      exact State.issues_trapsHere hi 2 0
  case spill =>
    intro a hfree
    have hdue := s.countedHalves_eq t a
    refine ⟨fun hbound h0 h1 => ?_, fun hbound h0 h1 => ?_, fun hbound h0 h1 => ?_, fun hbound h0 h1 => ?_,
      fun hbound => ⟨_, exec_accSpill_free hi hfree, ?_⟩⟩
    · exact exec_accSpill_queues hi hfree hbound (hdue.trans (by rw [if_pos h0, if_pos h1]; rfl)) (List.cons_ne_nil _ _)
    · exact exec_accSpill_queues hi hfree hbound (hdue.trans (by rw [if_pos h0, if_neg (not_not.mpr h1)]; rfl)) (List.cons_ne_nil _ _)
    · exact exec_accSpill_queues hi hfree hbound (hdue.trans (by rw [if_neg (not_not.mpr h0), if_pos h1]; rfl)) (List.cons_ne_nil _ _)
    · exact exec_accSpill_nothing hi hfree hbound (hdue.trans (by rw [if_neg (not_not.mpr h0), if_neg (not_not.mpr h1)]; rfl))
    · rw [hbound]
      exact State.issues_trapsHere hi 2 0
  case round =>
    refine ⟨fun hbound => ⟨_, exec_accRound_free hi hfree, ?_⟩, fun hbound => ⟨_, exec_accRound_free hi hfree, ?_⟩⟩
    · rw [hbound]
      exact s.perform_vq t rfl
    · rw [hbound]
      exact State.issues_trapsHere hi 2 0
  case chain =>
    exact fun hfree hspan hinc hloc hout => exec_accChain_valid hi hfree hspan hinc hloc hout

end Sys2Proof.Proofs
end

section
/-! SUPPORT. Reads of E48 values and of accumulator words that leave no trace, and bytes that stay readable (R79, R122, R203). -/

namespace Sys2Proof.Machine

/-- Bytes cut out of a longer range of bytes. -/
theorem Tile.valOf_bytesAt_cut (x : Tile) (off : Nat) {m k n : Nat} (h : m + k ≤ n) :
    valOf ((((x.bytesAt off n).map fun b => (b, false)).drop m).take k) = ofLE (x.bytesAt (off + m) k) := by
  obtain ⟨j, rfl⟩ : ∃ j, n = m + (k + j) := ⟨n - m - k, by omega⟩
  rw [← List.map_drop, ← List.map_take, valOf_unmarked, x.bytesAt_add off m, List.drop_left' (x.length_bytesAt _ _), x.bytesAt_add _ k,
    List.take_left' (x.length_bytesAt _ _)]

/-- A part of a clean range is clean. -/
theorem Tile.cleanRange.part {x : Tile} {off n o m : Nat} (h : x.cleanRange off n) (hlo : off ≤ o) (hhi : o + m ≤ off + n) : x.cleanRange o m := by
  obtain ⟨hbank, hclean⟩ := h
  refine ⟨by omega, fun k hk => ?_⟩
  have hbyte := hclean (o - off + k) (by omega)
  rwa [show off + (o - off + k) = o + k by omega] at hbyte

/-- Words of good parity are read without a trace. -/
theorem State.readMany_acc {s : State} {t w n : Nat} (h : ∀ i < n, accBad ((s.tile t).accWord (w + i)) = false) :
    readMany (fun s i => s.accRead t (w + i)) s (List.range n) =
      ((List.range n).map fun i => (bitsOf ((s.tile t).accWord (w + i)).toNat 0 32, (s.tile t).rowPois ((w + i) / 32)), s) :=
  readMany_pure _ _ s _ fun i hi => State.accRead_good (h i (List.mem_range.mp hi))

/-- A byte that is read without a trace: it has no error, or is under the poison marker. -/
def Tile.readable (x : Tile) (off : Nat) : Prop := x.clean off = true ∨ x.classOf off = .poison

/-- Every byte with its check field, poisoned or not, is so. -/
theorem classify_byteCode (b : Nat × Bool) : classify (byteCode b) = .good (b.1 % 256) ∨ classify (byteCode b) = .poison := by
  obtain ⟨d, _ | _⟩ := b
  · exact .inl (classify_byteCode_good d)
  · have hnibbles : ∀ h < 16, ∀ l < 16, classify (codeWord (16 * h + l) 0x1E) = .poison := by decide
    have hmod : byteCode (d, true) = codeWord (d % 256) 0x1E := by simp [byteCode, codeWord]
    have hd := hnibbles (d % 256 / 16) (by omega) (d % 16) (by omega)
    rw [show 16 * (d % 256 / 16) + d % 16 = d % 256 by omega] at hd
    exact .inr (hmod ▸ hd)

theorem Tile.classOf_congr {x y : Tile} {off : Nat} (h : y.code off = x.code off) : y.classOf off = x.classOf off := by
  rw [Tile.classOf, Tile.classOf, h]

theorem Tile.readable_congr {x y : Tile} {off : Nat} (h : y.code off = x.code off) (hr : x.readable off) : y.readable off := by
  rwa [Tile.readable, Tile.clean, Tile.classOf_congr h]

/-- A write of a bank leaves every readable byte readable. -/
theorem State.readable_putBank (s : State) (t o : Nat) (bs : List (Nat × Bool)) {off : Nat} (h : (s.tile t).readable off) :
    ((s.putBank t o bs).tile t).readable off := by
  by_cases hin : off < o ∨ o + bs.length ≤ off
  · exact Tile.readable_congr (s.code_putBank_outside t o bs fun _ => hin) h
  · obtain ⟨k, rfl⟩ : ∃ k, off = o + k := ⟨off - o, by omega⟩
    have hclass := s.classOf_putBank t o bs (k := k) (by omega)
    rcases classify_byteCode bs[k] with hgood | hpois
    · exact .inl (by rw [Tile.clean, hclass, hgood])
    · exact .inr (hclass.trans hpois)

end Sys2Proof.Machine
end

section
/-! SUPPORT. ACC.ROUND's completion, word by word (R128). -/

namespace Sys2Proof.Machine

variable {s u : State} {t a k r c : Nat}

/-- The FP32 value that word i of a tile gets: its buffer element, with the word added where its half has a count (R128). -/
def State.roundedValue (s : State) (t a c i : Nat) : Nat :=
  let e := e48F.decArray (ofLE ((s.tile t).bytesAt (s.bufBase t a + 6 * i) 6))
  e48ToFp32 (if s.fld (bndCount t a c) = 0 then e48F.encArray e
    else e48Add e (fp32F.decArray (bitsOf ((s.tile t).accWord (a * 1024 + i)).toNat 0 32)))

/-- Word i of a tile after rounding: a half that was never spilled keeps its words. -/
def State.roundedWord (s : State) (t a i : Nat) : BitVec 33 :=
  if s.flag (bndEmpty t a (i / 16 % 2)) then (s.tile t).accWord (a * 1024 + i) else accCode (s.roundedValue t a (i / 16 % 2) i)

theorem halfOf_word {i : Nat} (hc : c < 2) (hlo : 32 * r + 16 * c ≤ i) (hhi : i < 32 * r + 16 * c + 16) : i / 16 % 2 = c := by omega

/-- y is x but for its accumulator file. -/
def Tile.AccOnly (x y : Tile) : Prop := ∃ l p, y = { x with acc := l, accPois := p }

/-- u is s with the first k words of tile a rounded, and with its poison bits as they may be. -/
structure State.RoundedTo (s : State) (t a k : Nat) (u : State) : Prop where
  only : State.OnlyUnit t [] s u
  tile : (s.tile t).AccOnly (u.tile t)
  words : ∀ w, (u.tile t).accWord w =
    if a * 1024 ≤ w ∧ w < a * 1024 + k then s.roundedWord t a (w - a * 1024) else (s.tile t).accWord w

theorem State.RoundedTo.refl (s : State) (t a : Nat) : State.RoundedTo s t a 0 s where
  only := (State.OnlySet.refl [] s).onlyUnit t
  tile := ⟨(s.tile t).acc, (s.tile t).accPois, rfl⟩
  words w := by
    have hnone : ¬ (a * 1024 ≤ w ∧ w < a * 1024 + 0) := by omega
    rw [if_neg hnone]

section
variable (h : State.RoundedTo s t a k u)
include h

theorem State.RoundedTo.fld (f : Fld) : u.fld f = s.fld f := State.fld_of_sameRegs h.only.2.1 List.not_mem_nil

theorem State.RoundedTo.flag (f : Fld) : u.flag f = s.flag f := State.flag_of_fld (h.fld f)

theorem State.RoundedTo.bufBase : u.bufBase t a = s.bufBase t a := congrArg (· * 64) (h.fld _)

theorem State.RoundedTo.bytesAt (off n : Nat) : (u.tile t).bytesAt off n = (s.tile t).bytesAt off n := by
  obtain ⟨l, p, htile⟩ := h.tile
  rw [htile]; rfl

theorem State.RoundedTo.cleanRange {off n : Nat} (hclean : (s.tile t).cleanRange off n) : (u.tile t).cleanRange off n := by
  obtain ⟨l, p, htile⟩ := h.tile
  rw [htile]; exact hclean

/-- Words still to be rounded are as before. -/
theorem State.RoundedTo.word_later {i : Nat} (hi : k ≤ i) : (u.tile t).accWord (a * 1024 + i) = (s.tile t).accWord (a * 1024 + i) := by
  rw [h.words, if_neg (by omega)]

theorem State.RoundedTo.roundedValue {i : Nat} (hi : k ≤ i) : u.roundedValue t a c i = s.roundedValue t a c i := by
  simp only [State.roundedValue, h.fld, h.bufBase, h.bytesAt, h.word_later hi]

/-- Setting poison bits rounds nothing. -/
theorem State.RoundedTo.setRowPois (f : Tile → Bool) : State.RoundedTo s t a k (u.modTile t fun x => x.setRowPois r (f x)) := by
  obtain ⟨l, p, htile⟩ := h.tile
  refine ⟨h.only.trans (u.onlyUnit_modTile t _ []), ?_, fun w => ?_⟩
  · rw [State.tile_modTile_same, htile]; exact ⟨l, _, rfl⟩
  · rw [State.tile_modTile_same]; exact h.words w

end

/-- Rounding a half row that was spilled, from clean bytes and words, puts the values of its words. -/
theorem State.roundHalf_spilled (hspilled : u.flag (bndEmpty t a c) = false) (hclean : (u.tile t).cleanRange (u.bufBase t a + r * 192 + c * 96) 96)
    (hacc : ∀ n < 16, accBad ((u.tile t).accWord (a * 1024 + r * 32 + 16 * c + n)) = false) :
    (u.roundHalf t a r c).2 = u.setTile t ((u.tile t).putAcc (a * 1024 + r * 32 + 16 * c)
      ((List.range 16).map fun n => u.roundedValue t a c (32 * r + 16 * c + n))) := by
  have hread := State.winRead_cleanRange uVector hclean
  have hwords := State.readMany_acc (s := u) (t := t) hacc
  have helem : ∀ n < 16, valOf (((((u.tile t).bytesAt (u.bufBase t a + r * 192 + c * 96) 96).map fun b => (b, false)).drop (6 * n)).take 6) =
      ofLE ((u.tile t).bytesAt (u.bufBase t a + 6 * (32 * r + 16 * c + n)) 6) := fun n hn => by
    rw [Tile.valOf_bytesAt_cut _ _ (by omega)]
    congr 2
    omega
  have hword : ∀ n, a * 1024 + (32 * r + 16 * c + n) = a * 1024 + r * 32 + 16 * c + n := fun n => by omega
  simp only [State.roundHalf, hspilled, Bool.false_eq_true, if_false, hread, hwords, Tile.foldl_range_accSet]
  by_cases hcount : u.fld (bndCount t a c) = 0
  · simp only [hcount, bne_self_eq_false, Bool.false_eq_true, if_false]
    congr 2
    refine List.map_congr_left fun n hn => ?_
    rw [State.roundedValue, if_pos hcount, helem n (List.mem_range.mp hn)]
  · simp only [bne_iff_ne.mpr hcount, if_true]
    congr 2
    refine List.map_congr_left fun n hn => ?_
    have hn := List.mem_range.mp hn
    rw [State.roundedValue, if_neg hcount, helem n hn, nth_map_range _ _ hn, hword]

section
variable (hbuf : s.flag (TSPBND_EMPTY0 t a) = true ∧ s.flag (TSPBND_EMPTY1 t a) = true ∨ (s.tile t).cleanRange (s.bufBase t a) 6144)
  (hacc : ∀ w, a * 1024 ≤ w → w < a * 1024 + 1024 → accBad ((s.tile t).accWord w) = false)

include hbuf in
/-- The buffer of a tile with a half that was spilled is clean. -/
theorem State.cleanRange_of_spilled (hc : c < 2) (hspilled : s.flag (bndEmpty t a c) = false) : (s.tile t).cleanRange (s.bufBase t a) 6144 := by
  rcases hbuf with ⟨h0, h1⟩ | hclean
  · obtain rfl | rfl : c = 0 ∨ c = 1 := by omega
    · exact absurd (h0.symm.trans hspilled) (by decide)
    · exact absurd (h1.symm.trans hspilled) (by decide)
  · exact hclean

include hbuf hacc

/-- One half row more. -/
theorem State.RoundedTo.roundHalf (h : State.RoundedTo s t a (32 * r + 16 * c) u) (hr : r < 32) (hc : c < 2) :
    State.RoundedTo s t a (32 * r + 16 * c + 16) (u.roundHalf t a r c).2 := by
  cases hempty : s.flag (bndEmpty t a c) with
  | true =>
    have hsame : (u.roundHalf t a r c).2 = u := by rw [State.roundHalf, h.flag, hempty, if_pos rfl]
    rw [hsame]
    refine ⟨h.only, h.tile, fun w => ?_⟩
    by_cases hw : a * 1024 + (32 * r + 16 * c) ≤ w ∧ w < a * 1024 + (32 * r + 16 * c + 16)
    · obtain ⟨i, rfl⟩ : ∃ i, w = a * 1024 + i := ⟨w - a * 1024, by omega⟩
      have hin : a * 1024 ≤ a * 1024 + i ∧ a * 1024 + i < a * 1024 + (32 * r + 16 * c + 16) := ⟨Nat.le_add_right _ _, by omega⟩
      rw [h.word_later (by omega), if_pos hin, Nat.add_sub_cancel_left, State.roundedWord,
        halfOf_word (i := i) (r := r) hc (by omega) (by omega), hempty, if_pos rfl]
    · have hsplit : (a * 1024 ≤ w ∧ w < a * 1024 + (32 * r + 16 * c)) ↔ (a * 1024 ≤ w ∧ w < a * 1024 + (32 * r + 16 * c + 16)) := by omega
      simp only [h.words, hsplit]
  | false =>
    have hclean := (State.cleanRange_of_spilled hbuf hc hempty).part (o := s.bufBase t a + r * 192 + c * 96) (m := 96) (by omega) (by omega)
    have hgood : ∀ n < 16, accBad ((u.tile t).accWord (a * 1024 + r * 32 + 16 * c + n)) = false := fun n hn => by
      rw [show a * 1024 + r * 32 + 16 * c + n = a * 1024 + (32 * r + 16 * c + n) by omega, h.word_later (by omega)]
      exact hacc _ (by omega) (by omega)
    have hput := State.roundHalf_spilled (u := u) (r := r) (by rw [h.flag]; exact hempty) (by rw [h.bufBase]; exact h.cleanRange hclean) hgood
    obtain ⟨l, p, htile⟩ := h.tile
    rw [hput]
    refine ⟨h.only.trans (u.onlyUnit_setTile t _ []), ⟨_, p, by rw [State.tile_setTile_same, htile]; rfl⟩, fun w => ?_⟩
    rw [State.tile_setTile_same, Tile.accWord_putAcc_map]
    by_cases hw : a * 1024 + r * 32 + 16 * c ≤ w ∧ w < a * 1024 + r * 32 + 16 * c + 16
    · obtain ⟨i, rfl⟩ : ∃ i, w = a * 1024 + i := ⟨w - a * 1024, by omega⟩
      have hin : a * 1024 ≤ a * 1024 + i ∧ a * 1024 + i < a * 1024 + (32 * r + 16 * c + 16) := ⟨Nat.le_add_right _ _, by omega⟩
      rw [if_pos hw, if_pos hin, h.roundedValue (by omega), Nat.add_sub_cancel_left, State.roundedWord,
        halfOf_word (i := i) (r := r) hc (by omega) (by omega), hempty, if_neg Bool.false_ne_true,
        show 32 * r + 16 * c + (a * 1024 + i - (a * 1024 + r * 32 + 16 * c)) = i by omega]
    · have hsplit : (a * 1024 ≤ w ∧ w < a * 1024 + (32 * r + 16 * c)) ↔ (a * 1024 ≤ w ∧ w < a * 1024 + (32 * r + 16 * c + 16)) := by omega
      rw [if_neg hw]
      simp only [h.words, hsplit]

/-- One row more: its two halves. -/
theorem State.RoundedTo.roundRow (h : State.RoundedTo s t a (32 * r) u) (hr : r < 32) : State.RoundedTo s t a (32 * (r + 1)) (u.roundRow t a r) := by
  have hfirst := State.RoundedTo.roundHalf (c := 0) hbuf hacc h hr (by decide)
  have hsecond := State.RoundedTo.roundHalf (c := 1) hbuf hacc hfirst hr (by decide)
  exact hsecond.setRowPois fun x => rowPoisAfter (x.rowPois (a * 32 + r)) ((u.roundHalf t a r 0).1.2 || ((u.roundHalf t a r 0).2.roundHalf t a r 1).1.2)
    ((u.roundHalf t a r 0).1.1 && ((u.roundHalf t a r 0).2.roundHalf t a r 1).1.1) true

theorem State.roundedTo_rows {n : Nat} (hn : n ≤ 32) : State.RoundedTo s t a (32 * n) (s.each (List.range n) fun s r => s.roundRow t a r) := by
  induction n with
  | zero => exact State.RoundedTo.refl s t a
  | succ n ih =>
    rw [State.each, List.range_succ, List.foldl_append]
    exact State.RoundedTo.roundRow hbuf hacc (ih (by omega)) (by omega)

end

/-! ## The completion -/

theorem exec_accRoundComplete {rest : List VJob} (hvq : (s.tile t).vq = .round a :: rest) :
    exec (.accRoundComplete t) s = .next ((((s.modTile t Tile.popV).each (List.range 32) fun s r => s.roundRow t a r).setFld
      (TSPBND_BOUND t a) 0).syncPois t) := by
  change execAccRoundComplete t s = _
  simp only [execAccRoundComplete, hvq]

theorem State.roundedWord_popV (s : State) (t a i : Nat) : (s.modTile t Tile.popV).roundedWord t a i = s.roundedWord t a i := by
  simp only [State.roundedWord, State.roundedValue, State.tile_modTile_same]
  rfl

/-- The bank, the words and the register of a tile that has been rounded. -/
theorem accRoundComplete_spec {rest : List VJob} (hvq : (s.tile t).vq = .round a :: rest) (ha : a < 8)
    (hbuf : s.flag (TSPBND_EMPTY0 t a) = true ∧ s.flag (TSPBND_EMPTY1 t a) = true ∨ (s.tile t).cleanRange (s.bufBase t a) 6144)
    (hacc : ∀ w, a * 1024 ≤ w → w < a * 1024 + 1024 → accBad ((s.tile t).accWord w) = false) :
    Gives (exec (.accRoundComplete t) s) fun u =>
      (u.tile t).vq = rest ∧ u.flag (TSPBND_BOUND t a) = false ∧ (∀ off, (u.tile t).code off = (s.tile t).code off) ∧
        ∀ w, (u.tile t).accWord w =
          if a * 1024 ≤ w ∧ w < a * 1024 + 1024 then s.roundedWord t a (w - a * 1024) else (s.tile t).accWord w := by
  have hpop : (s.modTile t Tile.popV).tile t = (s.tile t).popV := State.tile_modTile_same _ _ _
  have hrows := State.roundedTo_rows (s := s.modTile t Tile.popV) (t := t) (a := a) (by rw [hpop]; exact hbuf)
    (by rw [hpop]; exact hacc) (Nat.le_refl 32)
  obtain ⟨l, p, htile⟩ := hrows.tile
  have hwords := hrows.words
  rw [hpop] at htile hwords
  refine ⟨_, exec_accRoundComplete hvq, ?_⟩
  generalize (s.modTile t Tile.popV).each (List.range 32) (fun s r => s.roundRow t a r) = v at htile hwords ⊢
  have hshown := (v.setFld (TSPBND_BOUND t a) 0).onlySet_syncPois t
  have hdone : ((v.setFld (TSPBND_BOUND t a) 0).syncPois t).tile t = v.tile t := (hshown.tile t).trans (State.tile_setFld _ _ _ _)
  refine ⟨?_, ?_, fun off => ?_, fun w => ?_⟩
  · rw [hdone, htile, Tile.popV, hvq]; rfl
  · rw [State.flag_of_sameRegs (f := TSPBND_BOUND t a) hshown.2 (mt List.mem_singleton.mp (aTSPBND_apart ha).1),
      State.flag_setFld_same _ _ _ (by simp [TSPBND_BOUND])]
    rfl
  · rw [hdone, htile]; rfl
  · rw [hdone, hwords, State.roundedWord_popV]; rfl

end Sys2Proof.Machine
end

section
/-! SUPPORT. Chain-adds: the token, and what the rows of one write (R132, R133, R165), and O13. -/

namespace Sys2Proof.Machine

variable {s u : State} {t a src spn inc loc out tok idx : Nat} {rest : List VJob}

/-! ## The token (R165) -/

theorem exec_chainTokenAcquire (hvq : (s.tile t).vq = .chain a src spn inc loc out tok idx false :: rest) (htok : 1 ≤ s.fld (TTOK_COUNT t tok)) :
    exec (.chainTokenAcquire t) s = .next ((s.setTile t { s.tile t with vq := .chain a src spn inc loc out tok idx true :: rest }).setFld
      (TTOK_COUNT t tok) (s.fld (TTOK_COUNT t tok) - 1)) := by
  change execChainTokenAcquire t s = _
  simp only [execChainTokenAcquire, hvq]
  exact if_neg (by omega)

/-- A chain-add that takes its token: its job and the token's count change. -/
theorem State.tokenTaken_spec (s : State) (t tok : Nat) (l : List VJob) :
    let u := (s.setTile t { s.tile t with vq := l }).setFld (TTOK_COUNT t tok) (s.fld (TTOK_COUNT t tok) - 1)
    u.fld (TTOK_COUNT t tok) = s.fld (TTOK_COUNT t tok) - 1 ∧ (u.tile t).vq = l ∧ s.sameMem u ∧ s.sameRegs u [aTTOK t tok] := by
  let v := s.setTile t { s.tile t with vq := l }
  have hv : v.tile t = { s.tile t with vq := l } := s.tile_setTile_same t _
  have hset : State.OnlySet [aTTOK t tok] v (v.setFld (TTOK_COUNT t tok) (s.fld (TTOK_COUNT t tok) - 1)) :=
    (State.OnlySet.refl _ v).setFld List.mem_cons_self _
  have honly := (s.onlyUnit_setTile t { s.tile t with vq := l } [aTTOK t tok]).trans (hset.onlyUnit t)
  have htile := (hset.tile t).trans hv
  refine ⟨?_, by rw [htile], honly.sameMem ?_, honly.2.1⟩
  · have hlt := s.fld_lt (TTOK_COUNT t tok)
    rw [State.fld_setFld_same _ _ _ (by simp [TTOK_COUNT])]
    exact Nat.mod_eq_of_lt (by omega)
  · rw [htile]; exact ⟨fun _ => rfl, fun _ => rfl, fun _ => rfl⟩

/-! ## Rows (R133) -/

/-- y is x but for its bank, its expansion buffers and the instruction words noted as old. -/
def Tile.BankOnly (x y : Tile) : Prop := ∃ b e l, y = { x with bank := b, exb := e, olds := l }

/-- u is s but for bytes put into tile t's bank within a range; what could be read without a trace still can. -/
structure State.WrittenIn (t off n : Nat) (s u : State) : Prop where
  only : State.OnlyUnit t [] s u
  tile : (s.tile t).BankOnly (u.tile t)
  outside : ∀ o, o < off ∨ off + n ≤ o → (u.tile t).code o = (s.tile t).code o
  readable : ∀ o, (s.tile t).readable o → (u.tile t).readable o

theorem State.WrittenIn.refl (t off n : Nat) (s : State) : State.WrittenIn t off n s s :=
  ⟨(State.OnlySet.refl [] s).onlyUnit t, ⟨(s.tile t).bank, (s.tile t).exb, (s.tile t).olds, rfl⟩, fun _ _ => rfl, fun _ h => h⟩

/-- One write more. -/
theorem State.WrittenIn.putBank {off n o : Nat} (h : State.WrittenIn t off n s u) {bs : List (Nat × Bool)} (hlo : off ≤ o)
    (hhi : o + bs.length ≤ off + n) : State.WrittenIn t off n s (u.putBank t o bs) := by
  obtain ⟨b, e, l, htile⟩ := h.tile
  obtain ⟨b', e', l', hput⟩ := u.tile_putBank t o bs
  refine ⟨h.only.trans (u.onlyUnit_modTile t _ []), ⟨b', e', l', by rw [hput, htile]⟩, fun k hk => ?_,
    fun k hk => u.readable_putBank t o bs (h.readable k hk)⟩
  exact (u.code_putBank_outside t o bs fun _ => by omega).trans (h.outside k hk)

theorem length_flatMap_e48Bytes (n : Nat) (p : Bool) (f : Nat → Nat) : ((List.range n).flatMap fun i => e48Bytes p (f i)).length = 6 * n := by
  have hsix : ∀ i, (e48Bytes p (f i)).length = 6 := fun i => length_asBytes 6 _ p
  simp [List.length_flatMap, hsix, Nat.mul_comm]

/-- Where row r of a chain block goes. -/
def chainDst (src loc out n0 nc r : Nat) : Nat := if src = 0 ∧ out = loc then loc + r * 192 + n0 * 6 else out + r * (6 * nc)

/-- A row all of whose operands are read without a trace writes its output bytes and does nothing else. -/
theorem State.chainRow_eq {n0 nc r : Nat} (hpend : u.flag (TFLIP_PEND t) = false) (hdst : chainDst src loc out n0 nc r < 0x200000)
    (hinc : inc + r * (6 * nc) + 6 * nc ≤ 0x200000 ∧ ∀ k < 6 * nc, (u.tile t).readable (inc + r * (6 * nc) + k))
    (hloc : src = 0 → loc + r * 192 + n0 * 6 + 6 * nc ≤ 0x200000 ∧ ∀ k < 6 * nc, (u.tile t).readable (loc + r * 192 + n0 * 6 + k))
    (hacc : src ≠ 0 → ∀ n < nc, accBad ((u.tile t).accWord (a * 1024 + r * 32 + n0 + n)) = false) :
    ∃ bs, bs.length = 6 * nc ∧ u.chainRow t a src inc loc out n0 nc r = u.putBank t (chainDst src loc out n0 nc r) bs := by
  have hin := State.winRead_cleanOrPoison uVector hinc.1 hinc.2
  by_cases hsrc : src = 0
  · obtain ⟨hbank, hread⟩ := hloc hsrc
    have hlocal := State.winRead_cleanOrPoison uVector hbank hread
    simp only [State.chainRow, hin, if_pos hsrc, hlocal]
    exact ⟨_, length_flatMap_e48Bytes nc _ _, u.winWrite_bank hpend hdst _⟩
  · have hwords := State.readMany_acc (hacc hsrc)
    simp only [State.chainRow, hin, if_neg hsrc, hwords]
    exact ⟨_, length_flatMap_e48Bytes nc _ _, u.winWrite_bank hpend hdst _⟩

theorem exec_chainAddComplete (hvq : (s.tile t).vq = .chain a src spn inc loc out tok idx true :: rest) :
    exec (.chainAddComplete t) s = .next ((s.modTile t Tile.popV).each (List.range 32) fun s r =>
      s.chainRow t a src inc loc out (if spn = 2 then 16 else 0) (if spn = 0 then 32 else 16) r) := by
  change execChainAddComplete t s = _
  simp only [execChainAddComplete, hvq]

/-- A chain block whose operands are clean: its rows write within the output range. -/
theorem State.chainRows_writtenIn {n0 nc m : Nat} (hcols : n0 + nc ≤ 32) (hm : m = if src = 0 ∧ out = loc then 6144 else 32 * (6 * nc))
    (hout : out + m ≤ 0x1F0000) (hpend : s.flag (TFLIP_PEND t) = false) (hinc : (s.tile t).cleanRange inc (32 * (6 * nc)))
    (hloc : src = 0 → (s.tile t).cleanRange loc 6144)
    (hacc : src ≠ 0 → ∀ w, a * 1024 ≤ w → w < a * 1024 + 1024 → accBad ((s.tile t).accWord w) = false) :
    State.WrittenIn t out m s (s.each (List.range 32) fun s r => s.chainRow t a src inc loc out n0 nc r) := by
  refine List.foldlRecOn (motive := State.WrittenIn t out m s) _ _ (State.WrittenIn.refl t out m s) fun u h r hr => ?_
  have hr := List.mem_range.mp hr
  have hrow : r * (6 * nc) + 6 * nc ≤ 32 * (6 * nc) := by rw [← Nat.succ_mul]; exact Nat.mul_le_mul_right _ hr
  have hclean : ∀ {off n o k}, (s.tile t).cleanRange off n → off ≤ o → o + k < off + n → (u.tile t).readable (o + k) := by
    intro off n o k hrange hlo hhi
    have hbyte := hrange.2 (o + k - off) (by omega)
    rw [Nat.add_sub_cancel' (by omega)] at hbyte
    exact h.readable _ (.inl hbyte)
  have hdst : out ≤ chainDst src loc out n0 nc r ∧ chainDst src loc out n0 nc r + 6 * nc ≤ out + m := by
    unfold chainDst
    split at hm
    · next hplace => rw [if_pos hplace]; omega
    · next hplace => rw [if_neg hplace]; omega
  obtain ⟨b, e, l, htile⟩ := h.tile
  obtain ⟨bs, hlen, hwrite⟩ := State.chainRow_eq (u := u) (t := t) (a := a) (src := src) (inc := inc) (loc := loc) (out := out)
    (n0 := n0) (nc := nc) (r := r) ((State.flag_of_sameRegs h.only.2.1 List.not_mem_nil).trans hpend) (by omega)
    ⟨by have := hinc.1; omega, fun k hk => hclean hinc (by omega) (by omega)⟩
    (fun hsrc => ⟨by have := (hloc hsrc).1; omega, fun k hk => hclean (hloc hsrc) (by omega) (by omega)⟩)
    (fun hsrc n hn => by rw [htile]; exact hacc hsrc _ (by omega) (by omega))
  rw [hwrite]
  exact h.putBank hdst.1 (by rw [hlen]; exact hdst.2)

/-- A chain-add that ends leaves the queue and writes within its output range. -/
theorem chainAddComplete_spec (hvq : (s.tile t).vq = .chain a src spn inc loc out tok idx true :: rest)
    (hpend : s.flag (TFLIP_PEND t) = false) {n m : Nat} (hn : n = if spn = 0 then 6144 else 3072)
    (hm : m = if src = 0 ∧ out = loc then 6144 else n) (hout : out + m ≤ 0x1F0000) (hinc : (s.tile t).cleanRange inc n)
    (hloc : src = 0 → (s.tile t).cleanRange loc 6144)
    (hacc : src ≠ 0 → ∀ w, a * 1024 ≤ w → w < a * 1024 + 1024 → accBad ((s.tile t).accWord w) = false) :
    Gives (exec (.chainAddComplete t) s) fun u =>
      (u.tile t).vq = rest ∧ (∀ off, off < out ∨ out + m ≤ off → (u.tile t).code off = (s.tile t).code off) ∧
        (∀ w, (u.tile t).accWord w = (s.tile t).accWord w) ∧ s.sameRegs u [] ∧ s.sameTilesBut u t := by
  have hpop : (s.modTile t Tile.popV).tile t = (s.tile t).popV := State.tile_modTile_same _ _ _
  have hblock : n = 32 * (6 * if spn = 0 then 32 else 16) := by rw [hn]; split <;> rfl
  have hcols : (if spn = 2 then 16 else 0) + (if spn = 0 then 32 else 16) ≤ 32 := by split <;> split <;> omega
  rw [hblock] at hm hinc
  have hrows := State.chainRows_writtenIn (s := s.modTile t Tile.popV) (t := t) (a := a) hcols hm hout hpend (by rw [hpop]; exact hinc)
    (fun hsrc => by rw [hpop]; exact hloc hsrc) (fun hsrc => by rw [hpop]; exact hacc hsrc)
  obtain ⟨b, e, l, htile⟩ := hrows.tile
  have honly := (s.onlyUnit_modTile t Tile.popV []).trans hrows.only
  refine ⟨_, exec_chainAddComplete hvq, ?_, fun off hoff => ?_, fun w => ?_, honly.2.1, honly.1⟩
  · rw [htile, hpop, Tile.popV, hvq]; rfl
  · rw [hrows.outside off hoff, hpop]; rfl
  · rw [htile, hpop]; rfl

end Sys2Proof.Machine

namespace Sys2Proof.Proofs
open Sys2Proof Sys2Proof.Machine

/-- Settles O13: a rounding word by word, the token a chain-add takes, and the range that its rows write. -/
theorem roundsAndChainAdds : Obligations.RoundsAndChainAdds := by
  unfold Obligations.RoundsAndChainAdds
  refine ⟨fun s t a rest hvq ha _ _ hbuf hacc => ?round, fun s t a src spn inc loc out tok idx rest hvq htok => ?token,
    fun s t a src spn inc loc out tok idx rest hvq _ hpend => ?add⟩
  case round =>
    obtain ⟨u, hexec, hrest, hbound, hcode, hwords⟩ := accRoundComplete_spec hvq ha hbuf hacc
    refine ⟨u, hexec, hrest, hbound, hcode, fun w hw => ?_, fun r c n hr hc hn => ?_⟩
    · rw [hwords, if_neg (by omega)]
    · have hoff : s.bufBase t a + 6 * (32 * r + 16 * c + n) = s.bufBase t a + r * 192 + c * 96 + 6 * n := by omega
      have hword : a * 1024 + (32 * r + 16 * c + n) = a * 1024 + r * 32 + 16 * c + n := by omega
      have hat := hwords (a * 1024 + (32 * r + 16 * c + n))
      rw [if_pos (by omega), Nat.add_sub_cancel_left, State.roundedWord, State.roundedValue,
        halfOf_word (r := r) hc (by omega) (by omega), hoff, hword] at hat
      exact hat
  case token =>
    exact ⟨_, exec_chainTokenAcquire hvq htok, s.tokenTaken_spec t tok _⟩
  case add =>
    exact fun hout hinc hloc hacc => chainAddComplete_spec hvq hpend rfl rfl hout hinc hloc hacc

end Sys2Proof.Proofs
end

section
/-! SUPPORT. Scalar instructions: what an instruction that changes one register of its tile leaves, and O2 and O3 (R149, R152, R156, R159). -/

namespace Sys2Proof.Machine

variable {s : State} {t : Nat}

/-! ## Registers of a tile -/

/-- A tile but for the scalar registers sd, the address registers ad and the predicates pd computes with what it did. -/
structure Tile.Leaves (sd ad pd : List Nat) (x y : Tile) : Prop where
  s : x.sameS y sd
  a : x.sameA y ad
  p : x.sameP y pd
  mem : x.sameMem y

theorem Tile.Leaves.keeps {sd ad pd : List Nat} {x y z : Tile} (h : Tile.Leaves sd ad pd x y) (k : y.Keeps z) : Tile.Leaves sd ad pd x z where
  s i hi := (k.sameS [] i List.not_mem_nil).trans (h.s i hi)
  a i hi := (k.sameA [] i List.not_mem_nil).trans (h.a i hi)
  p i hlt hi := (k.sameP [] i hlt List.not_mem_nil).trans (h.p i hlt hi)
  mem := ⟨fun o => (k.sameMem.1 o).trans (h.mem.1 o), fun w => (k.sameMem.2.1 w).trans (h.mem.2.1 w),
    fun r => (k.sameMem.2.2 r).trans (h.mem.2.2 r)⟩

theorem Tile.Keeps.refl (x : Tile) : x.Keeps x := ⟨rfl, rfl, rfl, rfl, rfl, rfl⟩

theorem Tile.Keeps.leaves {x y : Tile} (h : x.Keeps y) (sd ad pd : List Nat) : Tile.Leaves sd ad pd x y :=
  ⟨h.sameS sd, h.sameA ad, h.sameP pd, h.sameMem⟩

@[simp] theorem Tile.sreg_setS_same (x : Tile) (i : Nat) (v : BitVec 64) : (x.setS i v).sreg i = v := SMap.get_set_same _ _ _ _

theorem Tile.sreg_setS_other (x : Tile) {i j : Nat} (v : BitVec 64) (h : j ≠ i) : (x.setS i v).sreg j = x.sreg j := SMap.get_set_other _ _ _ _ _ h

@[simp] theorem Tile.areg_setA_same (x : Tile) (i : Nat) (v : BitVec 64) : (x.setA i v).areg i = v := SMap.get_set_same _ _ _ _

theorem Tile.setP_zero (x : Tile) (v : Bool) : x.setP 0 v = x := if_pos rfl

/-- Predicate i after a write of predicate j: p0 reads 1 whatever is written (R156). -/
theorem Tile.preg_setP (x : Tile) {i j : Nat} (v : Bool) (hi : i < 8) : (x.setP j v).preg i = (i == 0 || if i = j then v else x.preg i) := by
  by_cases h0 : i = 0
  · subst h0; rfl
  by_cases hj : j = 0
  · subst hj; rw [Tile.setP_zero, if_neg h0]; simp [Tile.preg]
  · have hbit : (1#8 <<< j).getLsbD i = decide (i = j) := by
      rw [BitVec.getLsbD_shiftLeft, BitVec.getLsbD_one]
      by_cases hij : i = j
      · simp [hij ▸ hi, hij]
      · by_cases hlt : i < j
        · simp [hlt, hij]
        · simp [show i - j ≠ 0 by omega, hij]
    rw [Tile.setP, if_neg hj, Tile.preg]
    cases v
    · simp only [Bool.false_eq_true, if_false, BitVec.getLsbD_and, BitVec.getLsbD_not, hbit, hi, decide_true, Bool.true_and]
      by_cases hij : i = j <;> simp [hij, Tile.preg]
    · simp only [if_true, BitVec.getLsbD_or, hbit]
      by_cases hij : i = j <;> simp [hij, Tile.preg]

theorem Tile.leaves_setS (x : Tile) (i : Nat) (v : BitVec 64) : Tile.Leaves [i] [] [] x (x.setS i v) :=
  ⟨fun _ hj => x.sreg_setS_other v (by simpa using hj), fun _ _ => rfl, fun _ _ _ => rfl, ⟨fun _ => rfl, fun _ => rfl, fun _ => rfl⟩⟩

theorem Tile.leaves_setA (x : Tile) (i : Nat) (v : BitVec 64) : Tile.Leaves [] [i] [] x (x.setA i v) :=
  ⟨fun _ _ => rfl, fun _ hj => SMap.get_set_other _ _ _ _ _ (by simpa using hj), fun _ _ _ => rfl, ⟨fun _ => rfl, fun _ => rfl, fun _ => rfl⟩⟩

theorem Tile.setP_fields (x : Tile) (i : Nat) (v : Bool) : ∃ p, x.setP i v = { x with p := p } := by
  unfold Tile.setP
  split
  · exact ⟨x.p, rfl⟩
  · exact ⟨_, rfl⟩

theorem Tile.leaves_setP (x : Tile) (i : Nat) (v : Bool) : Tile.Leaves [] [] [i] x (x.setP i v) := by
  refine ⟨?_, ?_, fun j hj hne => ?_, ?_⟩
  case refine_3 =>
    rw [x.preg_setP v hj, if_neg (by simpa using hne)]
    by_cases h0 : j = 0 <;> simp [h0, Tile.preg]
  all_goals obtain ⟨p, hp⟩ := x.setP_fields i v; rw [hp]
  exacts [fun _ _ => rfl, fun _ _ => rfl, ⟨fun _ => rfl, fun _ => rfl, fun _ => rfl⟩]

/-! ## An instruction that issues and changes its tile alone -/

/-- A step of tile t's sequencer that leaves all of the tile but some registers has the frame of a scalar instruction. -/
theorem scalarFrame_of_onlyUnit {sd ad pd : List Nat} {u : State} (h : State.OnlyUnit t [aTSQSTAT t] s u)
    (ht : Tile.Leaves sd ad pd (s.tile t) (u.tile t)) : scalarFrame t sd ad pd s u :=
  ⟨ht.s, ht.a, ht.p, h.sameMem ht.mem, h.1, h.2.1, h.2.2⟩

/-- What an instruction leaves that changes its tile by f, its loops standing as they did, and moves on. -/
theorem State.perform_modTile {sd ad pd : List Nat} {f : Tile → Tile} (hlc : (f (s.tile t)).lc = (s.tile t).lc)
    (hf : Tile.Leaves sd ad pd (s.tile t) (f (s.tile t))) :
    let u := s.perform t s (.fall (s.modTile t f))
    movesOn t s u ∧ scalarFrame t sd ad pd s u ∧ ∃ l, u.tile t = { (f (s.tile t)).issued with lc := l } := by
  obtain ⟨hmoves, honly, l, htile⟩ := State.perform_fall (s := s) (t := t) (s' := s.modTile t f) s rfl (by rw [State.tile_modTile_same, hlc])
  rw [State.tile_modTile_same] at htile
  refine ⟨hmoves, scalarFrame_of_onlyUnit ((s.onlyUnit_modTile t f _).trans honly.onlyUnit) ?_, l, htile⟩
  rw [htile]
  exact hf.keeps (Tile.keeps_issued _ _)

theorem State.perform_setS (s : State) (t i : Nat) (v : BitVec 64) :
    let u := s.perform t s (.fall (s.modTile t fun x => x.setS i v))
    (u.tile t).sreg i = v ∧ movesOn t s u ∧ scalarFrame t [i] [] [] s u := by
  obtain ⟨hmoves, hframe, l, htile⟩ := State.perform_modTile (s := s) (t := t) (f := fun x => x.setS i v) rfl ((s.tile t).leaves_setS i v)
  exact ⟨by rw [htile]; exact Tile.sreg_setS_same _ _ _, hmoves, hframe⟩

theorem State.perform_setA (s : State) (t i : Nat) (v : BitVec 64) :
    let u := s.perform t s (.fall (s.modTile t fun x => x.setA i v))
    (u.tile t).areg i = v ∧ movesOn t s u ∧ scalarFrame t [] [i] [] s u := by
  obtain ⟨hmoves, hframe, l, htile⟩ := State.perform_modTile (s := s) (t := t) (f := fun x => x.setA i v) rfl ((s.tile t).leaves_setA i v)
  exact ⟨by rw [htile]; exact Tile.areg_setA_same _ _ _, hmoves, hframe⟩

theorem State.perform_setP (s : State) (t : Nat) {i : Nat} (hi : i < 8) (v : Bool) :
    let u := s.perform t s (.fall (s.modTile t fun x => x.setP i v))
    (u.tile t).preg i = (i == 0 || v) ∧ movesOn t s u ∧ scalarFrame t [] [] [i] s u := by
  have hlc : ((s.tile t).setP i v).lc = (s.tile t).lc := by obtain ⟨p, hp⟩ := (s.tile t).setP_fields i v; rw [hp]
  obtain ⟨hmoves, hframe, l, htile⟩ := State.perform_modTile (s := s) (t := t) (f := fun x => x.setP i v) hlc ((s.tile t).leaves_setP i v)
  refine ⟨?_, hmoves, hframe⟩
  rw [htile]
  exact ((s.tile t).preg_setP v hi).trans (by rw [if_pos rfl])

theorem fb_lt_pow (b : BitVec 54) (lo w : Nat) : fb b lo w < 2 ^ w := Nat.mod_lt _ (Nat.two_pow_pos w)

/-- An instruction that issues does what its body says. -/
theorem Gives.of_issue {s : State} {c : Instr} {t cls op : Nat} {b : BitVec 54} {rsv : Nat} {regs : List Nat} {fuseOk : Nat → Bool}
    {body : State → Act} {P : State → Prop} (hi : s.issues t cls op b rsv regs = true)
    (hexec : exec c s = .next (s.issue t cls op b rsv regs fuseOk body)) (h : P (s.perform t s (body s))) : Gives (exec c s) P :=
  ⟨_, hexec, by rw [State.issue_issues hi]; exact h⟩

/-! ## Rows of Table 5.6 -/

theorem exec_scalarR {r : (Nat → BitVec 54 → Instr) × Nat × (BitVec 64 → BitVec 64 → BitVec 64)} (hr : r ∈ scalarR) (t : Nat) (b : BitVec 54) (s : State) :
    exec (r.1 t b) s = .next (scalR r.2.1 r.2.2 t b s) := by
  have hmins : (fun x y : BitVec 64 => if x.toInt ≤ y.toInt then x else y) = fun x y => if x.slt y then x else y := by
    funext x y
    rcases lt_trichotomy x.toInt y.toInt with h | h | h
    · simp [BitVec.slt, h, h.le]
    · simp [BitVec.slt, BitVec.eq_of_toInt_eq h]
    · simp [BitVec.slt, h.not_gt, h.not_ge]
  have hmaxs : (fun x y : BitVec 64 => if x.toInt ≤ y.toInt then y else x) = fun x y => if x.slt y then y else x := by
    funext x y
    rcases lt_trichotomy x.toInt y.toInt with h | h | h
    · simp [BitVec.slt, h, h.le]
    · simp [BitVec.slt, BitVec.eq_of_toInt_eq h]
    · simp [BitVec.slt, h.not_gt, h.not_ge]
  have hminu : (fun x y : BitVec 64 => if x.toNat ≤ y.toNat then x else y) = fun x y => if x.ult y then x else y := by
    funext x y
    rcases lt_trichotomy x.toNat y.toNat with h | h | h
    · simp [BitVec.ult, h, h.le]
    · simp [BitVec.ult, BitVec.eq_of_toNat_eq h]
    · simp [BitVec.ult, h.not_gt, h.not_ge]
  have hmaxu : (fun x y : BitVec 64 => if x.toNat ≤ y.toNat then y else x) = fun x y => if x.ult y then y else x := by
    funext x y
    rcases lt_trichotomy x.toNat y.toNat with h | h | h
    · simp [BitVec.ult, h, h.le]
    · simp [BitVec.ult, BitVec.eq_of_toNat_eq h]
    · simp [BitVec.ult, h.not_gt, h.not_ge]
  simp only [scalarR, hmins, hmaxs, hminu, hmaxu, List.mem_cons, List.not_mem_nil, or_false] at hr
  obtain rfl | rfl | rfl | rfl | rfl | rfl | rfl | rfl | rfl | rfl | rfl | rfl | rfl := hr <;> rfl

theorem exec_scalarI {r : (Nat → BitVec 54 → Instr) × Nat × (BitVec 64 → BitVec 32 → BitVec 64)} (hr : r ∈ scalarI) (t : Nat) (b : BitVec 54) (s : State) :
    exec (r.1 t b) s = .next (scalI r.2.1 r.2.2 t b s) := by
  simp only [scalarI, List.mem_cons, List.not_mem_nil, or_false] at hr
  obtain rfl | rfl | rfl | rfl | rfl | rfl | rfl := hr <;> rfl

theorem exec_scalarL {r : (Nat → BitVec 54 → Instr) × Nat × (BitVec 64 → BitVec 32 → BitVec 64)} (hr : r ∈ scalarL) (t : Nat) (b : BitVec 54) (s : State) :
    exec (r.1 t b) s = .next (scalLi r.2.1 r.2.2 t b s) := by
  simp only [scalarL, List.mem_cons, List.not_mem_nil, or_false] at hr
  obtain rfl | rfl := hr <;> rfl

theorem exec_scalarC {r : (Nat → BitVec 54 → Instr) × Nat × (BitVec 64 → BitVec 64 → Bool)} (hr : r ∈ scalarC) (t : Nat) (b : BitVec 54) (s : State) :
    exec (r.1 t b) s = .next (scalCmp r.2.1 r.2.2 t b s) := by
  have heq : (fun x y : BitVec 64 => decide (x = y)) = fun x y => x == y := by funext x y; exact (Bool.beq_eq_decide_eq x y).symm
  have hne : (fun x y : BitVec 64 => decide (x ≠ y)) = fun x y => x != y := by funext x y; simp [bne, Bool.beq_eq_decide_eq]
  simp only [scalarC, heq, hne, List.mem_cons, List.not_mem_nil, or_false] at hr
  obtain rfl | rfl | rfl | rfl | rfl | rfl := hr <;> rfl

theorem exec_scalarP {r : (Nat → BitVec 54 → Instr) × Nat × (Bool → Bool → Bool)} (hr : r ∈ scalarP) (t : Nat) (b : BitVec 54) (s : State) :
    exec (r.1 t b) s = .next (scalP r.2.1 r.2.2 t b s) := by
  simp only [scalarP, List.mem_cons, List.not_mem_nil, or_false] at hr
  obtain rfl | rfl | rfl | rfl := hr <;> rfl

end Sys2Proof.Machine

namespace Sys2Proof.Proofs
open Sys2Proof Sys2Proof.Machine

/-- Settles O2: each row is its form's operation, which writes sD of the tile and moves on. -/
theorem scalarArithmeticWritesItsRegister : Obligations.ScalarArithmeticWritesItsRegister := by
  unfold Obligations.ScalarArithmeticWritesItsRegister
  refine ⟨fun r hr s t b hi => ?_, fun r hr s t b hi => ?_, fun r hr s t b hi => ?_⟩
  · exact Gives.of_issue hi (exec_scalarR hr t b s) (s.perform_setS t _ _)
  · exact Gives.of_issue hi (exec_scalarI hr t b s) (s.perform_setS t _ _)
  · exact Gives.of_issue hi (exec_scalarL hr t b s) (s.perform_setS t _ _)

/-- Settles O3: compares and predicate operations write pD, the reads and MOVS a scalar register, the other moves an address register. -/
theorem scalarPredicatesReadsAndAddresses : Obligations.ScalarPredicatesReadsAndAddresses := by
  unfold Obligations.ScalarPredicatesReadsAndAddresses
  refine ⟨⟨fun r hr s t b hi => ?compare, fun r hr s t b hi => ?predicate⟩, fun r hr s t b hi => ?read, fun r hr s t b hi => ?move,
    fun s t b hi => ?addai, fun s t b hi => ?movs⟩
  case compare =>
    exact Gives.of_issue hi (exec_scalarC hr t b s) (s.perform_setP t (fb_lt_pow b 47 3) _)
  case predicate =>
    exact Gives.of_issue hi (exec_scalarP hr t b s) (s.perform_setP t (fb_lt_pow b 47 3) _)
  case read =>
    have hexec : exec (r.1 t b) s = .next (scalRead r.2.1 (fun s => r.2.2 s t) t b s) := by
      simp only [List.mem_cons, List.not_mem_nil, or_false] at hr
      obtain rfl | rfl | rfl := hr <;> rfl
    exact Gives.of_issue hi hexec (s.perform_setS t _ _)
  case move =>
    have hexec : exec (r.1 t b) s = .next (s.issue t 2 r.2.1 b rsvMem [fb b 45 5] noFuse fun s =>
        .fall (s.modTile t fun x => x.setA (fb b 41 4) (r.2.2 x b))) := by
      simp only [List.mem_cons, List.not_mem_nil, or_false] at hr
      obtain rfl | rfl := hr <;> rfl
    exact Gives.of_issue hi hexec (s.perform_setA t _ _)
  case addai =>
    exact Gives.of_issue hi rfl (s.perform_setA t _ _)
  case movs =>
    exact Gives.of_issue hi rfl (s.perform_setS t _ _)

end Sys2Proof.Proofs
end
section
/-! SUPPORT. What the scheduler of a partition may change when a tile's sequencer starts or stops (R459, R467, R468). -/

namespace Sys2Proof.Machine

/-- u is s but for switches, occupants, the hold of determinism and registers above the tiles' windows. -/
def State.OnlySched (s u : State) : Prop :=
  (∃ rs sw oc dh, u = { s with regs := rs, switches := sw, occup := oc, detHold := dh }) ∧ ∀ a < 0x020000000000, u.reg a = s.reg a

section
variable {s u v : State}

theorem State.OnlySched.refl (s : State) : State.OnlySched s s := ⟨⟨s.regs, s.switches, s.occup, s.detHold, rfl⟩, fun _ _ => rfl⟩

theorem State.OnlySched.trans (h : State.OnlySched s u) (k : State.OnlySched u v) : State.OnlySched s v := by
  obtain ⟨⟨_, _, _, _, rfl⟩, hregs⟩ := h
  obtain ⟨⟨rs, sw, oc, dh, rfl⟩, hregs'⟩ := k
  exact ⟨⟨rs, sw, oc, dh, rfl⟩, fun a ha => (hregs' a ha).trans (hregs a ha)⟩

theorem State.onlySched_setFld (s : State) {f : Fld} (hf : 0x020000000000 ≤ f.addr) (n : Nat) : State.OnlySched s (s.setFld f n) :=
  ⟨⟨_, s.switches, s.occup, s.detHold, rfl⟩, fun a ha => s.reg_setFld_other f n a (by omega)⟩

theorem State.onlySched_ctxShow (s : State) (c : Nat) : State.OnlySched s (s.ctxShow c) :=
  s.onlySched_setFld (f := HCTXSTAT_STATE c) (by simp only [HCTXSTAT_STATE, aHCTXSTAT]; omega) _

theorem State.onlySched_setSwitch (s : State) (part : Nat) (w : Switch) : State.OnlySched s (s.setSwitch part w) :=
  ⟨⟨s.regs, _, s.occup, s.detHold, rfl⟩, fun _ _ => rfl⟩

theorem State.onlySched_heldBy (s : State) (part n : Nat) : State.OnlySched s (s.heldBy part n) :=
  (s.onlySched_setFld (f := HPSTAT_HELD part) (by simp only [HPSTAT_HELD, aHPSTAT]; omega) 1).trans
    (State.onlySched_setFld _ (f := HPSTAT_CUR part) (by simp only [HPSTAT_CUR, aHPSTAT]; omega) n)

theorem State.onlySched_ctxTake (s : State) (part n : Nat) : State.OnlySched s (s.ctxTake part n) := by
  rw [State.ctxTake_eq]
  split
  · split
    · have hfirst : State.OnlySched s (s.firstTakes part n) := ⟨⟨s.regs, s.switches, _, _, rfl⟩, fun _ _ => rfl⟩
      have hdetm : State.OnlySched ((s.firstTakes part n).heldBy part n) ((s.firstTakes part n).heldBy part n).syncDetm :=
        State.onlySched_setFld _ (f := GCTL_DETMF) (by decide) _
      exact ((hfirst.trans (State.onlySched_heldBy _ part n)).trans hdetm).trans (State.onlySched_ctxShow _ n)
    · exact (s.onlySched_setSwitch part _).trans (State.onlySched_ctxShow _ n)
  · split
    · exact (s.onlySched_heldBy part n).trans (State.onlySched_ctxShow _ n)
    · exact ((s.onlySched_setSwitch part _).trans (State.onlySched_ctxShow _ _)).trans (State.onlySched_ctxShow _ n)

theorem State.onlySched_yields (s : State) (part : Nat) : State.OnlySched s (s.yields part) := by
  unfold State.yields
  split
  · split
    · exact State.OnlySched.refl s
    · exact (s.onlySched_setFld (f := HPSTAT_HELD part) (by simp only [HPSTAT_HELD, aHPSTAT]; omega) 0).trans (State.onlySched_ctxShow _ _)
  · exact State.OnlySched.refl s

theorem State.onlySched_sched (s : State) (part : Nat) : State.OnlySched s (s.sched part) := by
  rw [State.sched_eq]
  split
  · exact State.OnlySched.refl s
  · split
    · exact s.onlySched_yields part
    · split
      · exact (s.onlySched_yields part).trans (State.onlySched_ctxTake _ part _)
      · exact s.onlySched_yields part

theorem State.onlySched_schedTile (s : State) (t : Nat) : State.OnlySched s (s.schedTile t) := by
  unfold State.schedTile
  split
  · exact s.onlySched_sched _
  · exact State.OnlySched.refl s

theorem State.OnlySched.tile (h : State.OnlySched s u) (t : Nat) : u.tile t = s.tile t := by
  obtain ⟨⟨_, _, _, _, rfl⟩, -⟩ := h
  rfl

theorem State.OnlySched.reports (h : State.OnlySched s u) : u.reports = s.reports := by
  obtain ⟨⟨_, _, _, _, rfl⟩, -⟩ := h
  rfl

theorem State.OnlySet.sameMem {l : List Nat} (h : State.OnlySet l s u) : s.sameMem u := by
  obtain ⟨⟨_, rfl⟩, -⟩ := h
  exact State.sameMem_of_stores rfl rfl rfl

theorem State.OnlySched.sameMem (h : State.OnlySched s u) : s.sameMem u := by
  obtain ⟨⟨_, _, _, _, rfl⟩, -⟩ := h
  exact State.sameMem_of_stores rfl rfl rfl

theorem State.OnlySched.fld (h : State.OnlySched s u) {f : Fld} (hf : f.addr < 0x020000000000) : u.fld f = s.fld f :=
  State.fld_of_reg (h.2 _ hf)

theorem State.OnlySched.sameWork (h : State.OnlySched s u) (t : Nat) : sameWork t s u := by
  have hk : (s.tile t).Keeps (u.tile t) := h.tile t ▸ Tile.Keeps.refl _
  exact ⟨hk.sameS _, hk.sameA _, hk.sameP _, h.sameMem, fun k _ => h.tile k⟩

end

theorem aTSQSTAT_lt {t : Nat} (ht : t < 2048) : aTSQSTAT t < 0x020000000000 := by simp only [aTSQSTAT]; omega

end Sys2Proof.Machine
end

section
/-! SUPPORT. The sequencer: branches, loops, HALT and TRAP, and O4 and O5 (R154, R155). -/

namespace Sys2Proof.Machine

variable {s s' : State} {t : Nat}

theorem State.issues_lt {cls op : Nat} {b : BitVec 54} {rsv : Nat} {regs : List Nat} (h : s.issues t cls op b rsv regs = true) : t < 2048 := by
  simp only [State.issues, State.due, State.canIssue, Bool.and_eq_true, decide_eq_true_eq] at h
  obtain ⟨⟨⟨⟨⟨⟨⟨⟨⟨⟨ht, -⟩, -⟩, -⟩, -⟩, -⟩, -⟩, -⟩, -⟩, -⟩, -⟩ := h
  exact ht

/-! ## Loop counters (R155) -/

/-- A loop counter after a taken branch to g. -/
def LoopC.left (l : LoopC) (g : Nat) : LoopC := if l.active && !l.inBody g then { l with active := false } else l

theorem LoopC.left_left (l : LoopC) (g : Nat) : (l.left g).left g = l.left g := by
  unfold LoopC.left
  by_cases h : (l.active && !l.inBody g) = true
  · simp [h]
  · simp [h]

theorem Tile.loop_setLoop (x : Tile) (c k : Nat) (l : LoopC) : (x.setLoop c l).loop k = if k = c then l else x.loop k := SMap.get_set _ _ _ _ _

theorem Tile.loop_endLoop (x : Tile) (c g k : Nat) : (x.endLoop c g).loop k = if k = c then (x.loop k).left g else x.loop k := by
  unfold Tile.endLoop LoopC.left
  by_cases hk : k = c
  · subst hk
    by_cases h : ((x.loop k).active && !(x.loop k).inBody g) = true <;> simp [h, Tile.loop_setLoop]
  · by_cases h : ((x.loop c).active && !(x.loop c).inBody g) = true <;> simp [h, hk, Tile.loop_setLoop]

theorem Tile.endLoop_lc (x : Tile) (c g : Nat) : ∃ l, x.endLoop c g = { x with lc := l } := by
  unfold Tile.endLoop
  dsimp only
  split
  · exact ⟨_, rfl⟩
  · exact ⟨x.lc, rfl⟩

/-- A taken branch ends, of the loops named, those whose body it leaves. -/
theorem Tile.loop_foldl_endLoop (g k : Nat) (cs : List Nat) (x : Tile) :
    (cs.foldl (fun x c => Tile.endLoop x c g) x).loop k = if k ∈ cs then (x.loop k).left g else x.loop k := by
  induction cs generalizing x with
  | nil => rfl
  | cons c cs ih =>
    rw [List.foldl_cons, ih, Tile.loop_endLoop]
    by_cases hk : k = c <;> by_cases hmem : k ∈ cs <;> simp [hk, hmem, LoopC.left_left]

theorem Tile.foldl_endLoop_lc (g : Nat) (cs : List Nat) (x : Tile) : ∃ l, cs.foldl (fun x c => Tile.endLoop x c g) x = { x with lc := l } := by
  induction cs generalizing x with
  | nil => exact ⟨x.lc, rfl⟩
  | cons c cs ih =>
    obtain ⟨l, hl⟩ := x.endLoop_lc c g
    obtain ⟨l', hl'⟩ := ih (x.endLoop c g)
    exact ⟨l', by rw [List.foldl_cons, hl', hl]⟩

/-- The loop tested at an index is the highest-numbered active one that ends there. -/
theorem Tile.loopAt_eq_some (x : Tile) (pc c : Nat) : x.loopAt pc = some c ↔
    c < 4 ∧ (x.loop c).active = true ∧ (x.loop c).stop.toNat = pc ∧ ∀ k, c < k → k < 4 → (x.loop k).active = true → (x.loop k).stop.toNat ≠ pc := by
  have hends : ∀ k, ((x.loop k).active && (x.loop k).stop.toNat == pc) = true ↔ (x.loop k).active = true ∧ (x.loop k).stop.toNat = pc := fun k => by
    rw [Bool.and_eq_true, beq_iff_eq]
  have hfour : ∀ P : Nat → Prop, (∀ k, c < k → k < 4 → P k) ↔ (c < 1 → P 1) ∧ (c < 2 → P 2) ∧ (c < 3 → P 3) := by
    refine fun P => ⟨fun h => ⟨fun hc => h 1 hc (by omega), fun hc => h 2 hc (by omega), fun hc => h 3 hc (by omega)⟩, fun h k hck hk => ?_⟩
    obtain ⟨h1, h2, h3⟩ := h
    obtain rfl | rfl | rfl : k = 1 ∨ k = 2 ∨ k = 3 := by omega
    exacts [h1 hck, h2 hck, h3 hck]
  rw [Tile.loopAt, hfour fun k => (x.loop k).active = true → (x.loop k).stop.toNat ≠ pc]
  simp only [List.find?_cons, List.find?_nil]
  constructor
  · intro h
    split at h
    next h3 => obtain rfl := Option.some.inj h; exact ⟨by omega, ((hends 3).mp h3).1, ((hends 3).mp h3).2, by omega, by omega, by omega⟩
    next h3 =>
      have h3' : (x.loop 3).active = true → (x.loop 3).stop.toNat ≠ pc := fun ha he => by simp [ha, he] at h3
      split at h
      next h2 => obtain rfl := Option.some.inj h; exact ⟨by omega, ((hends 2).mp h2).1, ((hends 2).mp h2).2, by omega, by omega, fun _ => h3'⟩
      next h2 =>
        have h2' : (x.loop 2).active = true → (x.loop 2).stop.toNat ≠ pc := fun ha he => by simp [ha, he] at h2
        split at h
        next h1 => obtain rfl := Option.some.inj h; exact ⟨by omega, ((hends 1).mp h1).1, ((hends 1).mp h1).2, by omega, fun _ => h2', fun _ => h3'⟩
        next h1 =>
          have h1' : (x.loop 1).active = true → (x.loop 1).stop.toNat ≠ pc := fun ha he => by simp [ha, he] at h1
          split at h
          next h0 =>
            obtain rfl := Option.some.inj h
            exact ⟨by omega, ((hends 0).mp h0).1, ((hends 0).mp h0).2, fun _ => h1', fun _ => h2', fun _ => h3'⟩
          next => cases h
  · rintro ⟨hc, hact, hstop, h1, h2, h3⟩
    have hno : ∀ k, ((x.loop k).active = true → (x.loop k).stop.toNat ≠ pc) → ((x.loop k).active && (x.loop k).stop.toNat == pc) = false := fun k hk =>
      Bool.eq_false_iff.mpr fun h => hk ((hends k).mp h).1 ((hends k).mp h).2
    obtain rfl | rfl | rfl | rfl : c = 0 ∨ c = 1 ∨ c = 2 ∨ c = 3 := by omega
    · rw [hno 3 (h3 (by omega)), hno 2 (h2 (by omega)), hno 1 (h1 (by omega)), (hends 0).mpr ⟨hact, hstop⟩]
    · rw [hno 3 (h3 (by omega)), hno 2 (h2 (by omega)), (hends 1).mpr ⟨hact, hstop⟩]
    · rw [hno 3 (h3 (by omega)), (hends 2).mpr ⟨hact, hstop⟩]
    · rw [(hends 3).mpr ⟨hact, hstop⟩]

/-! ## Branches and the end of a loop -/

/-- What a taken branch does: PC takes its target, and loops that it leaves end. -/
theorem State.perform_jump (s f s' : State) (t g : Nat) :
    let u := s.perform t f (.jump s' g)
    u.pc t = g % 8192 ∧ State.OnlyTile t s' u ∧ (∃ l, u.tile t = { (s'.tile t).issued with lc := l })
      ∧ ∀ c < 4, (u.tile t).loop c = ((s'.tile t).loop c).left (g % 8192) := by
  have htile : (s.perform t f (.jump s' g)).tile t = [0, 1, 2, 3].foldl (fun x c => Tile.endLoop x c (g % 8192)) (s'.tile t).issued := by
    rw [State.perform, State.jumpTo, State.tile_setPc, State.tile_modTile_same, State.tile_modTile_same]
  refine ⟨?_, ((s'.onlyTile_modTile t _).trans (State.onlyTile_modTile _ t _)).trans (State.onlyTile_setPc _ t _), ?_, fun c hc => ?_⟩
  · rw [State.perform, State.jumpTo, State.pc_setPc]; omega
  · rw [htile]; exact Tile.foldl_endLoop_lc _ _ _
  · have hmem : c ∈ [0, 1, 2, 3] := by simp only [List.mem_cons, List.not_mem_nil, or_false]; omega
    rw [htile, Tile.loop_foldl_endLoop, if_pos hmem]
    rfl

theorem branchTarget_eq (s : State) (t : Nat) (b : BitVec 54) : ((branchTarget s t b % 8192 : Nat) : Int) = ((s.pc t : Int) + fbs b 0 14) % 8192 := by
  have hpow : ((2 ^ 13 : Nat) : Int) = 8192 := rfl
  have hlt := Int.emod_lt_of_pos ((s.pc t : Int) + fbs b 0 14) (show (0 : Int) < 8192 by decide)
  have hge := Int.emod_nonneg ((s.pc t : Int) + fbs b 0 14) (show (8192 : Int) ≠ 0 by decide)
  rw [branchTarget, ofIntW, hpow]
  omega

/-- A branch's frame is that of the state it branches in. -/
theorem State.perform_jump_frame {sd : List Nat} (s : State) {f : Tile → Tile} (g : Nat) (hf : Tile.Leaves sd [] [] (s.tile t) (f (s.tile t))) :
    scalarFrame t sd [] [] s (s.perform t s (.jump (s.modTile t f) g)) := by
  obtain ⟨-, honly, ⟨l, htile⟩, -⟩ := s.perform_jump s (s.modTile t f) t g
  refine scalarFrame_of_onlyUnit ((s.onlyUnit_modTile t f _).trans honly.onlyUnit) ?_
  rw [htile, State.tile_modTile_same]
  exact hf.keeps (Tile.keeps_issued _ _)

/-- An instruction that falls through at the end of a loop has that loop tested. -/
theorem State.loopTested_advance {c : Nat} (hpc : s'.pc t = s.pc t) (hlc : (s'.tile t).lc = (s.tile t).lc)
    (hat : (s.tile t).loopAt (s.pc t) = some c) (hcount : 1 ≤ ((s.tile t).loop c).count.toNat) : loopTested t c s (s'.advance t) := by
  have hloop : ∀ k, (s'.tile t).loop k = (s.tile t).loop k := fun k => by rw [Tile.loop, Tile.loop, hlc]
  have hat' : (s'.tile t).loopAt (s'.pc t) = some c := by simpa only [Tile.loopAt, hloop, hpc] using hat
  have hmod : s.seqPc t = (s.pc t + 1) % 8192 := rfl
  by_cases hone : ((s.tile t).loop c).count.toNat = 1
  · have hadv : s'.advance t = (s'.setTile t ((s'.tile t).setLoop c { (s'.tile t).loop c with active := false })).setPc t (s'.pc t + 1) := by
      simp only [State.advance, hat']
      rw [if_neg (by rw [hloop]; omega)]
    rw [hadv]
    refine ⟨fun hne => absurd hone hne, fun _ => ⟨?_, ?_⟩, fun k hk => ?_⟩
    · rw [State.pc_setPc, hpc, hmod]
    · rw [State.tile_setPc, State.tile_setTile_same, Tile.loop_setLoop, if_pos rfl]
    · rw [State.tile_setPc, State.tile_setTile_same, Tile.loop_setLoop, if_neg hk, hloop]
  · have hadv : s'.advance t = (s'.setTile t ((s'.tile t).setLoop c { (s'.tile t).loop c with count := ((s'.tile t).loop c).count - 1 })).setPc t
        ((s'.tile t).loop c).start.toNat := by
      simp only [State.advance, hat']
      rw [if_pos (by rw [hloop]; omega)]
    rw [hadv]
    refine ⟨fun _ => ⟨?_, ?_⟩, fun h1 => absurd h1 hone, fun k hk => ?_⟩
    · rw [State.pc_setPc, hloop]
      exact Nat.mod_eq_of_lt ((s.tile t).loop c).start.isLt
    · rw [State.tile_setPc, State.tile_setTile_same, Tile.loop_setLoop, if_pos rfl, hloop]
    · rw [State.tile_setPc, State.tile_setTile_same, Tile.loop_setLoop, if_neg hk, hloop]

/-! ## An instruction held back by its predicate (R149) -/

theorem State.issue_skipped {cls op : Nat} {b : BitVec 54} {rsv : Nat} (h : s.due t cls op b rsv = true) (hno : (s.tile t).executes b = false)
    (regs : List Nat) (fuseOk : Nat → Bool) (body : State → Act) :
    s.issue t cls op b rsv regs fuseOk body = (s.modTile t Tile.issued).advance t := by
  simp only [State.due, Bool.and_eq_true, beq_iff_eq, Option.isNone_iff_eq_none] at h
  obtain ⟨⟨⟨hcan, hword⟩, hrsv⟩, hfuse⟩ := h
  obtain ⟨hclean, hval, hsame⟩ := State.fetch_wordIs s t _ hword
  simp [State.issue, hcan, hclean, hval, hsame, hrsv, hfuse, hno]

/-! ## LOOP (R155) -/

/-- Instructions that start a loop with what END names, once they issue. -/
theorem State.perform_startLoop (s : State) (t : Nat) {lc stop : Nat} (n : Nat) (htrap : (s.tile t).trap = none) (hstop : stop < 8192) :
    let u := s.perform t s (startLoop t lc stop n s)
    (stop = 0 ∨ ((s.tile t).loop lc).active = true → trapsHere t 1 0 s u) ∧
    (stop ≠ 0 → ((s.tile t).loop lc).active = false → scalarFrame t [] [] [] s u ∧
      if n = 0 then u.pc t = (s.pc t + stop + 1) % 8192 ∧ (u.tile t).lc = (s.tile t).lc
      else movesOn t s u ∧ (s.noLoopEnd t →
        (u.tile t).loop lc = ⟨BitVec.ofNat 32 n, BitVec.ofNat 13 (s.pc t + 1), BitVec.ofNat 13 (s.pc t + stop), true⟩)) := by
  refine ⟨fun hbad => ?_, fun hne hidle => ?_⟩
  · have hact : startLoop t lc stop n s = .trap 1 0 := by
      unfold startLoop
      by_cases h0 : stop = 0
      · rw [if_pos h0]
      · rw [if_neg h0, if_pos (hbad.resolve_left h0)]
    rw [hact]
    exact State.raise_trapsHere htrap 1 0
  · by_cases hn : n = 0
    · have hact : startLoop t lc stop n s = .skip s (s.pc t + stop + 1) := by
        unfold startLoop
        rw [if_neg hne, hidle, if_neg Bool.false_ne_true, if_pos hn]
      rw [hact, if_pos hn]
      have htile : (s.perform t s (.skip s (s.pc t + stop + 1))).tile t = (s.tile t).issued := by
        rw [State.perform, State.tile_setPc, State.tile_modTile_same]
      refine ⟨?_, State.pc_setPc _ _ _, by rw [htile]; rfl⟩
      refine ((s.onlyUnit_modTile t Tile.issued _).trans (State.onlyTile_setPc _ t _).onlyUnit).scalarFrame ?_
      rw [State.tile_setPc, State.tile_modTile_same]
      exact (s.tile t).keeps_issued _
    · let l : LoopC := ⟨BitVec.ofNat 32 n, BitVec.ofNat 13 (s.pc t + 1), BitVec.ofNat 13 (s.pc t + stop), true⟩
      have hact : startLoop t lc stop n s = .fall (s.modTile t fun x => x.setLoop lc l) := by
        unfold startLoop
        rw [if_neg hne, hidle, if_neg Bool.false_ne_true, if_neg hn]
      rw [hact, if_neg hn]
      let v := (s.modTile t fun x => x.setLoop lc l).modTile t Tile.issued
      have hv : v.tile t = ((s.tile t).setLoop lc l).issued := by rw [State.tile_modTile_same, State.tile_modTile_same]
      have hloop : ∀ k, (v.tile t).loop k = if k = lc then l else (s.tile t).loop k := fun k => by rw [hv]; exact Tile.loop_setLoop _ _ _ _
      have hstart : l.stop.toNat ≠ s.pc t := by
        have hpc := s.pc_lt t
        change (BitVec.ofNat 13 (s.pc t + stop)).toNat ≠ s.pc t
        rw [BitVec.toNat_ofNat]
        omega
      have hno : s.noLoopEnd t → v.noLoopEnd t := by
        intro hno
        rw [State.noLoopEnd, Tile.loopAt, List.find?_eq_none] at hno ⊢
        intro k hk
        rw [hloop, State.pc_modTile, State.pc_modTile]
        split
        · simp [hstart]
        · exact hno k hk
      obtain ⟨honly, ⟨lc', htile⟩, hmove⟩ := v.advance_spec t
      have hunit : State.OnlyUnit t [aTSQSTAT t] s v := (s.onlyUnit_modTile t _ _).trans (State.onlyUnit_modTile _ t _ _)
      refine ⟨(hunit.trans honly.onlyUnit).scalarFrame ?_, fun h => (hmove (hno h)).1, fun h => ?_⟩
      · rw [htile, hv]
        exact ⟨rfl, rfl, rfl, rfl, rfl, rfl⟩
      · change ((v.advance t).tile t).loop lc = l
        rw [(hmove (hno h)).2, hloop, if_pos rfl]

/-! ## HALT (R154) -/

/-- A tile's sequencer stopped in HALTED with a code. -/
def State.haltedWith (s : State) (t code : Nat) : State :=
  ((s.setFld (TSQSTAT_STATE t) stHalted).setFld (TSQSTAT_HCODE t) code).schedTile t

theorem State.haltedWith_spec (s : State) {t code : Nat} (ht : t < 2048) (hcode : code < 2 ^ 16) :
    let u := s.haltedWith t code
    u.fld (TSQSTAT_STATE t) = stHalted ∧ u.fld (TSQSTAT_HCODE t) = code ∧ u.pc t = s.pc t ∧ (∀ k, u.tile k = s.tile k) ∧ sameWork t s u := by
  have hlow : aTSQSTAT t < 0x020000000000 := aTSQSTAT_lt ht
  let v := s.setFld (TSQSTAT_STATE t) stHalted
  let w := v.setFld (TSQSTAT_HCODE t) code
  have hsched : State.OnlySched w (s.haltedWith t code) := w.onlySched_schedTile t
  have hstate : (TSQSTAT_HCODE t).apart (TSQSTAT_STATE t) = true := by simp [Fld.apart, TSQSTAT_HCODE, TSQSTAT_STATE]
  have hpc : (TSQSTAT_HCODE t).apart (TSQSTAT_PC t) = true := by simp [Fld.apart, TSQSTAT_HCODE, TSQSTAT_PC]
  have hpc' : (TSQSTAT_STATE t).apart (TSQSTAT_PC t) = true := by simp [Fld.apart, TSQSTAT_STATE, TSQSTAT_PC]
  have hset : State.OnlySet [aTSQSTAT t] s w :=
    ((State.OnlySet.refl _ s).setFld (f := TSQSTAT_STATE t) List.mem_cons_self _).setFld (f := TSQSTAT_HCODE t) List.mem_cons_self _
  have htiles : ∀ k, (s.haltedWith t code).tile k = s.tile k := fun k => (hsched.tile k).trans (hset.tile k)
  have hkeeps : (s.tile t).Keeps ((s.haltedWith t code).tile t) := htiles t ▸ Tile.Keeps.refl _
  refine ⟨?_, ?_, ?_, htiles, hkeeps.sameS _, hkeeps.sameA _, hkeeps.sameP _, hset.sameMem.trans hsched.sameMem, fun k _ => htiles k⟩
  · rw [hsched.fld (f := TSQSTAT_STATE t) hlow, State.fld_setFld_apart _ _ hstate, State.fld_setFld_same _ _ _ (by simp [TSQSTAT_STATE]),
      TSQSTAT_STATE, stHalted]
    exact Nat.mod_eq_of_lt (by norm_num)
  · rw [hsched.fld (f := TSQSTAT_HCODE t) hlow, State.fld_setFld_same _ _ _ (by simp [TSQSTAT_HCODE]), TSQSTAT_HCODE]
    exact Nat.mod_eq_of_lt hcode
  · exact (hsched.fld (f := TSQSTAT_PC t) hlow).trans ((State.fld_setFld_apart _ _ hpc).trans (State.fld_setFld_apart _ _ hpc'))

end Sys2Proof.Machine

namespace Sys2Proof.Proofs
open Sys2Proof Sys2Proof.Machine

/-- HALT stops the tile with its code, and then moves on as any instruction does. -/
theorem exec_haltI_issues {s : State} {t : Nat} {b : BitVec 54} (hi : s.issues t 0 6 b (rsvOut [(15, 0)]) [] = true) :
    exec (.haltI t b) s = .next (((s.haltedWith t (fb b 0 16)).modTile t Tile.issued).advance t) :=
  congrArg Host.Outcome.next (State.issue_issues hi noFuse fun s => .stop (s.haltedWith t (fb b 0 16)))

theorem exec_nop_issues {s : State} {t : Nat} {b : BitVec 54} (hi : s.issues t 0 0 b (rsvOut []) [] = true) :
    exec (.nop t b) s = .next (s.perform t s (.fall s)) :=
  congrArg Host.Outcome.next (State.issue_issues hi noFuse fun s => .fall s)

/-- An instruction that issues and changes nothing only moves on. -/
theorem perform_fall_same (s : State) (t : Nat) : movesOn t s (s.perform t s (.fall s)) ∧ scalarFrame t [] [] [] s (s.perform t s (.fall s)) := by
  obtain ⟨hmoves, honly, l, htile⟩ := State.perform_fall (t := t) (s := s) (s' := s) s rfl rfl
  refine ⟨hmoves, honly.onlyUnit.scalarFrame ?_⟩
  rw [htile]
  exact (s.tile t).keeps_issued l

theorem haltI_stops {s : State} {t : Nat} {b : BitVec 54} (hi : s.issues t 0 6 b (rsvOut [(15, 0)]) [] = true) :
    Gives (exec (.haltI t b) s) fun u =>
      u.fld (TSQSTAT_STATE t) = stHalted ∧ u.fld (TSQSTAT_HCODE t) = fb b 0 16 ∧ movesOn t s u ∧ sameWork t s u := by
  obtain ⟨hstate, hcode, hpc, htiles, -, -, -, hmem, -⟩ := s.haltedWith_spec (code := fb b 0 16) (State.issues_lt hi) (fb_lt_pow b 0 16)
  let v := (s.haltedWith t (fb b 0 16)).modTile t Tile.issued
  have hv : v.tile t = (s.tile t).issued := by rw [State.tile_modTile_same, htiles]
  obtain ⟨honly, ⟨l, htile⟩, hmove⟩ := v.advance_spec t
  have hkeeps : (s.tile t).Keeps ((v.advance t).tile t) := by rw [htile, hv]; exact (s.tile t).keeps_issued l
  have hstateApart : (TSQSTAT_PC t).apart (TSQSTAT_STATE t) = true := by simp [Fld.apart, TSQSTAT_PC, TSQSTAT_STATE]
  have hcodeApart : (TSQSTAT_PC t).apart (TSQSTAT_HCODE t) = true := by simp [Fld.apart, TSQSTAT_PC, TSQSTAT_HCODE]
  have hadv : ∀ f : Fld, (TSQSTAT_PC t).apart f = true → (v.advance t).fld f = v.fld f := by
    intro f hf
    unfold State.advance
    dsimp only
    split
    · exact State.fld_setFld_apart _ _ hf
    · split
      · exact State.fld_setFld_apart _ _ hf
      · exact State.fld_setFld_apart _ _ hf
  refine ⟨_, exec_haltI_issues hi, ?_, ?_, fun hno => ?_, hkeeps.sameS _, hkeeps.sameA _, hkeeps.sameP _, ?_, fun k hk => ?_⟩
  · exact (hadv _ hstateApart).trans hstate
  · exact (hadv _ hcodeApart).trans hcode
  · have hvpc : v.pc t = s.pc t := hpc
    have hno' : v.noLoopEnd t := by
      rw [State.noLoopEnd, hvpc, hv]
      exact hno
    rw [(hmove hno').1, State.seqPc, hvpc, State.seqPc]
  · have hmod : s.sameMem v := hmem.trans (State.sameMem_modTile _ t ((Tile.keeps_issued _ _).sameMem))
    exact hmod.trans (honly.onlyUnit.sameMem (by rw [htile]; exact ⟨fun _ => rfl, fun _ => rfl, fun _ => rfl⟩))
  · rw [honly.tiles k hk, State.tile_modTile_other _ _ _ _ hk, htiles]

/-- Settles O4: NOP moves on, branches take their target, HALT stops the tile and TRAP is found. -/
theorem controlFlow : Obligations.ControlFlow := by
  unfold Obligations.ControlFlow
  refine ⟨⟨fun s t b hi => ?nop, fun s t b hi => ?br, fun s t b hi => ?brl, fun s t b hi => ?bri⟩, fun s t b hi => haltI_stops hi,
    fun s t b hi => ?trap⟩
  case nop => exact ⟨_, exec_nop_issues hi, perform_fall_same s t⟩
  case br =>
    refine Gives.of_issue hi rfl ?_
    obtain ⟨hpc, honly, ⟨l, htile⟩, -⟩ := s.perform_jump s s t (branchTarget s t b)
    refine ⟨by rw [hpc, branchTarget_eq], honly.onlyUnit.scalarFrame ?_⟩
    rw [htile]
    exact (s.tile t).keeps_issued l
  case brl =>
    refine Gives.of_issue hi rfl ?_
    obtain ⟨hpc, -, ⟨l, htile⟩, -⟩ := s.perform_jump s (s.modTile t fun x => x.setS 31 (BitVec.ofNat 64 ((s.pc t + 1) % 8192))) t (branchTarget s t b)
    refine ⟨by rw [hpc, branchTarget_eq], ?_, s.perform_jump_frame _ ((s.tile t).leaves_setS 31 _)⟩
    rw [htile, State.tile_modTile_same]
    exact Tile.sreg_setS_same _ _ _
  case bri =>
    refine Gives.of_issue hi rfl ?_
    obtain ⟨hpc, honly, ⟨l, htile⟩, -⟩ := s.perform_jump s s t (bitsOf ((s.tile t).sreg (fb b 45 5)).toNat 0 13)
    refine ⟨?_, honly.onlyUnit.scalarFrame ?_⟩
    · rw [hpc, bitsOf, Nat.shiftRight_zero]
      exact Nat.mod_mod _ _
    · rw [htile]; exact (s.tile t).keeps_issued l
  case trap =>
    exact Gives.of_issue hi rfl (State.raise_trapsHere (State.issues_tile hi).1 8 _)

/-- Settles O5: what LOOP starts, which loop is tested where an instruction falls through, and what a taken branch ends. -/
theorem loopRules : Obligations.LoopRules := by
  unfold Obligations.LoopRules
  refine ⟨fun r hr s t b hi => ?start, fun x pc c => x.loopAt_eq_some pc c, fun s t c b hat hcount => ⟨fun hi => ?nop, fun hi => ?halt, fun hdue hno => ?held⟩,
    fun r hr s t b hi => ?branch⟩
  case start =>
    have hexec : exec (r.1 t b) s = .next (s.issue t 0 r.2.1 b r.2.2.1 (r.2.2.2.1 b) noFuse fun s =>
        startLoop t (fb b 48 2) (fb b 35 13) (r.2.2.2.2 (s.tile t) b) s) := by
      simp only [List.mem_cons, List.not_mem_nil, or_false] at hr
      obtain rfl | rfl := hr <;> rfl
    rw [State.issue_issues hi] at hexec
    obtain ⟨htraps, hstarts⟩ := s.perform_startLoop t (lc := fb b 48 2) (r.2.2.2.2 (s.tile t) b) (State.issues_tile hi).1 (fb_lt_pow b 35 13)
    exact ⟨fun hbad => ⟨_, hexec, htraps hbad⟩, fun hne hidle => ⟨_, hexec, hstarts hne hidle⟩⟩
  case nop => exact ⟨_, exec_nop_issues hi, State.loopTested_advance (State.pc_modTile _ _ _ _) (by rw [State.tile_modTile_same]; rfl) hat hcount⟩
  case halt =>
    obtain ⟨-, -, hpc, htiles, -⟩ := s.haltedWith_spec (code := fb b 0 16) (State.issues_lt hi) (fb_lt_pow b 0 16)
    exact ⟨_, exec_haltI_issues hi, State.loopTested_advance hpc (by rw [State.tile_modTile_same, htiles]; rfl) hat hcount⟩
  case held =>
    have hexec : exec (.br t b) s = .next ((s.modTile t Tile.issued).advance t) :=
      congrArg Host.Outcome.next (State.issue_skipped hdue hno [] noFuse fun s => .jump s (branchTarget s t b))
    exact ⟨_, hexec, State.loopTested_advance (State.pc_modTile _ _ _ _) (by rw [State.tile_modTile_same]; rfl) hat hcount⟩
  case branch =>
    have hexec : ∃ s' g, (∀ c, (s'.tile t).loop c = (s.tile t).loop c) ∧ exec (r.1 t b) s = .next (s.perform t s (.jump s' g)) := by
      simp only [List.mem_cons, List.not_mem_nil, or_false] at hr
      obtain rfl | rfl | rfl := hr
      · exact ⟨s, branchTarget s t b, fun _ => rfl, congrArg Host.Outcome.next (State.issue_issues hi noFuse fun s => .jump s (branchTarget s t b))⟩
      · exact ⟨s.modTile t fun x => x.setS 31 (BitVec.ofNat 64 ((s.pc t + 1) % 8192)), branchTarget s t b,
          fun c => by rw [State.tile_modTile_same]; rfl, congrArg Host.Outcome.next (State.issue_issues hi noFuse fun s =>
            .jump (s.modTile t fun x => x.setS 31 (BitVec.ofNat 64 ((s.pc t + 1) % 8192))) (branchTarget s t b))⟩
      · exact ⟨s, bitsOf ((s.tile t).sreg (fb b 45 5)).toNat 0 13, fun _ => rfl, congrArg Host.Outcome.next (State.issue_issues hi noFuse fun s =>
            .jump s (bitsOf ((s.tile t).sreg (fb b 45 5)).toNat 0 13))⟩
    obtain ⟨s', g, hloop, hexec⟩ := hexec
    obtain ⟨hpc, -, -, hleft⟩ := s.perform_jump s s' t g
    refine ⟨_, hexec, fun c hc => ?_⟩
    rw [hleft c hc, hpc, hloop]
    rfl

end Sys2Proof.Proofs
end

section
/-! SUPPORT. What sending a packet may change (R261, R269, R270). -/

namespace Sys2Proof.Machine

/-- u is s but for what has been sent, port transmitters, reports and the mesh. -/
def State.OnlySent (s u : State) : Prop := ∃ st ps rp ms, u = { s with sent := s.sent ++ st, ports := ps, reports := rp, mesh := ms }

section
variable {s u v : State}

theorem State.OnlySent.refl (s : State) : State.OnlySent s s := ⟨[], s.ports, s.reports, s.mesh, by rw [List.append_nil]⟩

theorem State.OnlySent.trans (h : State.OnlySent s u) (k : State.OnlySent u v) : State.OnlySent s v := by
  obtain ⟨st, _, _, _, rfl⟩ := h
  obtain ⟨st', ps, rp, ms, rfl⟩ := k
  exact ⟨st ++ st', ps, rp, ms, by rw [List.append_assoc]⟩

theorem State.onlySent_txPump (s : State) (p n : Nat) : State.OnlySent s (s.txPump p n) ∧ (s.txPump p n).reports = s.reports := by
  induction n generalizing s with
  | zero => exact ⟨State.OnlySent.refl s, rfl⟩
  | succ n ih =>
    unfold State.txPump
    dsimp only
    split
    · exact ⟨State.OnlySent.refl s, rfl⟩
    · split
      · exact ⟨State.OnlySent.refl s, rfl⟩
      · refine ⟨State.OnlySent.trans ⟨_, _, s.reports, s.mesh, rfl⟩ (ih _).1, (ih _).2⟩

/-- A packet handed to a port's transmitter is sent. -/
theorem State.txPacket_spec (s : State) (port : Nat) (p : Pkt) :
    State.OnlySent s (s.txPacket port p) ∧ Out.pkt port p ∈ (s.txPacket port p).sent ∧ (s.txPacket port p).reports = s.reports := by
  let v := (s.emit (.pkt port p)).modPort port fun x => { x with txq := x.txq ++ [(p, pktFlits p)] }
  have hv : State.OnlySent s v := ⟨[.pkt port p], _, s.reports, s.mesh, rfl⟩
  obtain ⟨hpump, hreports⟩ := v.onlySent_txPump port ((v.port port).txq.map fun e => e.2.length).sum
  refine ⟨hv.trans hpump, ?_, hreports⟩
  obtain ⟨st, _, _, _, hst⟩ := hpump
  have hsent : (s.txPacket port p).sent = (s.sent ++ [.pkt port p]) ++ st := congrArg State.sent hst
  rw [hsent]
  simp

theorem State.onlySent_noRoute (s : State) (p : Pkt) : State.OnlySent s (s.noRoute p) := ⟨[.drop 1 p], s.ports, _, s.mesh, rfl⟩

theorem State.onlySent_routeOut (s : State) (p : Pkt) : State.OnlySent s (s.routeOut p) := by
  unfold State.routeOut
  split
  · split
    · exact (s.txPacket_spec _ p).1
    · exact ⟨[.drop 2 p], s.ports, _, s.mesh, rfl⟩
  · exact s.onlySent_noRoute p

theorem State.onlySent_sendPkt (s : State) (p : Pkt) : State.OnlySent s (s.sendPkt p) := by
  unfold State.sendPkt
  dsimp only
  split
  · exact ⟨[], s.ports, s.reports, _, by rw [List.append_nil]⟩
  · exact s.onlySent_routeOut _

theorem State.OnlySent.tile (h : State.OnlySent s u) (t : Nat) : u.tile t = s.tile t := by
  obtain ⟨_, _, _, _, rfl⟩ := h
  rfl

theorem State.OnlySent.reg (h : State.OnlySent s u) (a : Nat) : u.reg a = s.reg a := by
  obtain ⟨_, _, _, _, rfl⟩ := h
  rfl

theorem State.OnlySent.sameMem (h : State.OnlySent s u) : s.sameMem u := by
  obtain ⟨_, _, _, _, rfl⟩ := h
  exact State.sameMem_of_stores rfl rfl rfl

end

/-! ## A READ of another device (R268, R272) -/

/-- A READ that finds a tag stands among those outstanding; tiles, registers and memory are as before. -/
theorem State.farRead_spec {s : State} {g : Nat} (hg : s.freeTag = some g) (src dst addr len : Nat) :
    ∃ id u, s.farRead src dst addr len = (some id, u) ∧ (∃ q ∈ u.reads, q.rid = id ∧ q.tag = g ∧ q.dst = dst ∧ q.addr = addr ∧ q.len = len)
      ∧ (∀ k, u.tile k = s.tile k) ∧ (∀ a, u.reg a = s.reg a) ∧ s.sameMem u := by
  let gen := (SMap.get (fun _ => 0) s.tagGen g + 1) % 256
  let v : State := { s with tagGen := SMap.set (fun _ => 0) s.tagGen g gen, nextId := s.nextId + 1 }
  let ok := (v.routePort dst).isSome
  let q : FarRead := ⟨s.nextId, g, gen, dst, addr, len, if ok then 0 else 3, if ok then 0 else 3, [], src⟩
  let w : State := { v with reads := v.reads ++ [q] }
  have hsend := w.onlySent_sendPkt (mkPkt 1 2 dst addr len g gen)
  have hfar : s.farRead src dst addr len = (some s.nextId, w.sendPkt (mkPkt 1 2 dst addr len g gen)) := by
    unfold State.farRead
    rw [hg]
    rfl
  refine ⟨s.nextId, _, hfar, ⟨q, ?_, rfl, rfl, rfl, rfl, rfl⟩, fun k => hsend.tile k, fun a => hsend.reg a,
    (State.sameMem_of_stores rfl rfl rfl : s.sameMem w).trans hsend.sameMem⟩
  obtain ⟨_, _, _, _, hreads⟩ := hsend
  rw [hreads]
  exact List.mem_append_right _ (List.mem_singleton_self q)

end Sys2Proof.Machine
end

section
/-! SUPPORT. Scalar loads: their issue and their return, and O6 (R159, R160, R186, R268, R272, R543). -/

namespace Sys2Proof.Machine

variable {s : State} {t : Nat}

/-! ## Places of a scalar access -/

/-- An address in a tile's window, as its tile and its offset. -/
theorem addrDev_window {a : Nat} (hw : inTileWindow a = true) :
    addrDev a = tileBase 0 + winTile a * 0x400000 + winOff a ∧ winTile a < 2048 ∧ winOff a < 0x400000 := by
  simp only [inTileWindow, Bool.and_eq_true, decide_eq_true_eq] at hw
  simp only [winTile, winOff, tileBase] at hw ⊢
  omega

/-- An address in the tile's own window. -/
theorem State.ownOff_eq_some {a o : Nat} (h : s.ownOff t a = some o) :
    s.isLocal a = true ∧ addrDev a = tileBase 0 + t * 0x400000 + o ∧ o < 0x400000 := by
  unfold State.ownOff at h
  split at h
  next hin =>
    obtain ⟨hloc, hlo, hhi⟩ := hin
    have ho := Option.some.inj h
    refine ⟨hloc, ?_⟩
    simp only [tileBase] at ho hlo hhi ⊢
    omega
  next => cases h

/-- A tile's bank holds no mailbox word. -/
theorem mboxAt_bank {k o : Nat} (ho : o < 0x300000) : mboxAt (tileBase 0 + k * 0x400000 + o) = none := by
  unfold mboxAt
  split
  · have hoff : (tileBase 0 + k * 0x400000 + o - tileBase 0) % 0x400000 = o := by omega
    dsimp only
    rw [hoff, if_neg (by omega)]
  · rfl

theorem isMbox_bank {k o : Nat} (ho : o < 0x300000) : isMbox (tileBase 0 + k * 0x400000 + o) = false := by
  have hword : tileBase 0 + k * 0x400000 + o - (tileBase 0 + k * 0x400000 + o) % 8 = tileBase 0 + k * 0x400000 + (o - o % 8) := by
    simp only [tileBase]; omega
  rw [isMbox, hword, mboxAt_bank (by omega)]
  rfl

/-- Bytes that spell a value are clean, and their values spell it. -/
theorem Tile.holds_spells {x : Tile} {off n v : Nat} (h : x.holds off n v = true) :
    (∀ k < n, x.clean (off + k) = true) ∧ ofLE (x.bytesAt off n) = v := by
  simp only [Tile.holds, Bool.and_eq_true, List.all_eq_true, List.mem_range, beq_iff_eq] at h
  obtain ⟨hclean, hval⟩ := h
  refine ⟨hclean, ?_⟩
  rw [valOf, List.map_map] at hval
  exact hval

/-- A range of a bank that is memory is read as its bytes, and leaves no trace. -/
theorem State.localGet_clean {a k o n : Nat} (hk : k < 2048) (ha : a = tileBase 0 + k * 0x400000 + o) (hmem : s.isMem a n = true)
    (ho : o < 0x400000) (hclean : (s.tile k).cleanRange o n) (t unit : Nat) :
    s.localGet t a n unit = some (((s.tile k).bytesAt o n).map fun b => (b, false), s) := by
  have hhigh : ¬ a < 0x8000000000 := by rw [ha]; simp only [tileBase]; omega
  rw [State.localGet, if_pos hmem]
  dsimp only
  rw [if_neg hhigh, ha, State.memRead_clean s hk hclean ho]

/-! ## Issue (R160, R185, R272) -/

theorem exec_loadRows {r : (Nat → BitVec 54 → Instr) × Nat × Nat × Bool} (hr : r ∈ loadRows) (t : Nat) (b : BitVec 54) (s : State) :
    exec (r.1 t b) s = .next (s.issue t 2 r.2.1 b rsvMem [fb b 45 5] noFuse (loadIssue t r.2.2.1 r.2.2.2 b)) := by
  simp only [loadRows, List.mem_cons, List.not_mem_nil, or_false] at hr
  obtain rfl | rfl | rfl | rfl | rfl | rfl | rfl := hr <;> rfl

/-- A load joins the tile's outstanding ones. -/
def State.putLoad (s : State) (t : Nat) (l : LoadOp) : State := s.modTile t fun x => { x with loads := x.loads ++ [l] }

theorem Tile.keeps_loads (x : Tile) (ls : List LoadOp) : x.Keeps { x with loads := ls } := ⟨rfl, rfl, rfl, rfl, rfl, rfl⟩

theorem State.perform_putLoad (s : State) (t : Nat) (l : LoadOp) :
    let u := s.perform t s (.fall (s.putLoad t l))
    movesOn t s u ∧ scalarFrame t [] [] [] s u ∧ (u.tile t).loads = (s.tile t).loads ++ [l] := by
  obtain ⟨hmoves, hframe, _, htile⟩ := State.perform_modTile (s := s) (t := t) (sd := []) (ad := []) (pd := [])
    (f := fun x => { x with loads := x.loads ++ [l] }) rfl ((Tile.keeps_loads _ _).leaves _ _ _)
  exact ⟨hmoves, hframe, congrArg Tile.loads htile⟩

/-- The load that an instruction of width n issues. -/
def loadOf (s : State) (t n : Nat) (signed : Bool) (b : BitVec 54) : LoadOp := ⟨fb b 45 5, memAddr b (s.tile t), n, signed, s.pc t, none, none⟩

section
variable {n : Nat} {signed : Bool} {b : BitVec 54}

/-- An address that fails the tile's checks is found when the load returns. -/
theorem loadIssue_bad (hbad : s.addrOk t (memAddr b (s.tile t)) n = false) :
    loadIssue t n signed b s = .fall (s.putLoad t (loadOf s t n signed b)) := by
  unfold loadIssue
  dsimp only
  rw [hbad]
  rfl

theorem loadIssue_misaligned (hok : s.addrOk t (memAddr b (s.tile t)) n = true) (hmis : memAddr b (s.tile t) % n ≠ 0) :
    loadIssue t n signed b s = .trap 4 0 := by
  simp only [loadIssue, hok, Bool.not_true, Bool.false_eq_true, if_false, if_pos hmis]

/-- An access of a mailbox word waits for none other, or is none. -/
theorem mbox_free {d : Nat} (h : isMbox d = true → s.mboxPend t = false) : (isMbox d && s.mboxPend t) = false := by
  cases hd : isMbox d with
  | false => rfl
  | true => simp [h hd]

variable (hok : s.addrOk t (memAddr b (s.tile t)) n = true) (hal : memAddr b (s.tile t) % n = 0)
  (hmbx : isMbox (addrDev (memAddr b (s.tile t))) = true → s.mboxPend t = false)
include hok hal hmbx

/-- A load of another place of this device joins the outstanding ones without its bytes. -/
theorem loadIssue_elsewhere (hloc : s.isLocal (memAddr b (s.tile t)) = true) (hown : s.ownOff t (memAddr b (s.tile t)) = none) :
    loadIssue t n signed b s = .fall (s.putLoad t (loadOf s t n signed b)) := by
  simp only [loadIssue, hok, hal, mbox_free hmbx, hloc, hown, State.lineHold, Bool.not_true, Bool.false_and, Bool.or_self, Bool.false_eq_true, ne_eq,
    not_true_eq_false, if_false]
  rfl

omit hmbx in
/-- So does one of a mailbox word of the own tile. -/
theorem loadIssue_ownMbox {o : Nat} (hpend : s.mboxPend t = false) (hown : s.ownOff t (memAddr b (s.tile t)) = some o) (hmb : isMbox (addrDev (memAddr b (s.tile t))) = true)
    (hfree : s.rangeHold t [⟨o, n⟩] [] = false) : loadIssue t n signed b s = .fall (s.putLoad t (loadOf s t n signed b)) := by
  simp only [loadIssue, hok, hal, hpend, (State.ownOff_eq_some hown).1, hown, hmb, hfree, State.lineHold, Bool.not_true, Bool.false_and,
    Bool.and_false, Bool.or_self, Bool.false_eq_true, ne_eq, not_true_eq_false, if_false, if_true]
  rfl

omit hmbx in
/-- A load of the own bank takes its bytes as it issues (R185). -/
theorem loadIssue_own {o v : Nat} (ht : t < 2048) (hown : s.ownOff t (memAddr b (s.tile t)) = some o)
    (hmem : s.isMem (addrDev (memAddr b (s.tile t))) n = true) (hlast : o + n ≤ 0x200000) (hholds : (s.tile t).holds o n v = true)
    (hfree : s.rangeHold t [⟨o, n⟩] [] = false) :
    loadIssue t n signed b s = .fall (s.putLoad t { loadOf s t n signed b with got := some (((s.tile t).bytesAt o n).map fun b => (b, false)) }) := by
  obtain ⟨hloc, haddr, ho⟩ := State.ownOff_eq_some hown
  obtain ⟨hclean, -⟩ := Tile.holds_spells hholds
  have hmb : isMbox (addrDev (memAddr b (s.tile t))) = false := by rw [haddr]; exact isMbox_bank (by omega)
  have hget := State.localGet_clean ht haddr hmem ho ⟨hlast, hclean⟩ t uScalar
  simp only [loadIssue, hok, hal, hloc, hown, hmb, hfree, hget, State.lineHold, Bool.not_true, Bool.false_and, Bool.or_self, Bool.false_eq_true, ne_eq,
    not_true_eq_false, if_false]
  rfl

omit hok hal hmbx in
theorem State.advance_reads (s : State) (t : Nat) : (s.advance t).reads = s.reads := by
  unfold State.advance
  dsimp only
  split
  · exact State.setFld_reads _ _ _
  · split
    · exact State.setFld_reads _ _ _
    · exact State.setFld_reads _ _ _

/-- A load of another device asks for its bytes with a READ. -/
theorem perform_loadIssue_far {g : Nat} (hfar : s.isLocal (memAddr b (s.tile t)) = false) (hg : s.freeTag = some g)
    (hline : s.lineHold t (memAddr b (s.tile t)) false = false) :
    let u := s.perform t s (loadIssue t n signed b s)
    movesOn t s u ∧ sameWork t s u ∧
      ∃ id, (u.tile t).loads = (s.tile t).loads ++ [{ loadOf s t n signed b with rid := some id }] ∧
        ∃ q ∈ u.reads, q.rid = id ∧ q.tag = g ∧ q.dst = addrRank (memAddr b (s.tile t)) ∧ q.addr = addrDev (memAddr b (s.tile t)) ∧ q.len = n := by
  obtain ⟨id, v, hread, ⟨q, hq, hqs⟩, htiles, hregs, hmem⟩ :=
    State.farRead_spec hg (srcOf 0 t) (addrRank (memAddr b (s.tile t))) (addrDev (memAddr b (s.tile t))) n
  let l : LoadOp := { loadOf s t n signed b with rid := some id }
  have hact : loadIssue t n signed b s = .fall (v.putLoad t l) := by
    simp only [loadIssue, hok, hal, mbox_free hmbx, hline, hfar, hread, Bool.not_true, Bool.not_false, Bool.or_self, Bool.false_eq_true, ne_eq,
      not_true_eq_false, if_false, if_true]
    rfl
  rw [hact]
  have hput : (v.putLoad t l).tile t = { s.tile t with loads := (s.tile t).loads ++ [l] } := by
    rw [State.putLoad, State.tile_modTile_same, htiles]
  obtain ⟨hmoves, honly, lc, htile⟩ := State.perform_fall (s := s) (t := t) (s' := v.putLoad t l) s
    ((State.pc_modTile _ _ _ _).trans (State.fld_of_reg (hregs _))) (by rw [hput])
  have hunit : State.OnlyUnit t [aTSQSTAT t] v (s.perform t s (.fall (v.putLoad t l))) := (v.onlyUnit_modTile t _ _).trans honly.onlyUnit
  rw [hput] at htile
  have hkeeps : (s.tile t).Keeps ((s.perform t s (.fall (v.putLoad t l))).tile t) := by rw [htile]; exact ⟨rfl, rfl, rfl, rfl, rfl, rfl⟩
  have hreads : (s.perform t s (.fall (v.putLoad t l))).reads = v.reads :=
    (State.advance_reads _ t).trans (State.modTile_reads _ _ _)
  refine ⟨hmoves, ⟨hkeeps.sameS _, hkeeps.sameA _, hkeeps.sameP _, hmem.trans (hunit.sameMem (by rw [htiles]; exact hkeeps.sameMem)),
    fun k hk => (hunit.1 k hk).trans (htiles k)⟩, id, by rw [htile]; rfl, q, hreads ▸ hq, hqs⟩

end

/-! ## Return (R160, R543) -/

/-- The load at position k is no longer outstanding. -/
def State.loadGone (s : State) (t k : Nat) : State := s.modTile t fun x => { x with loads := x.loads.eraseIdx k }

/-- A load's bytes, none poisoned, go into its register. -/
theorem State.loadEnd_clean (s : State) (t k : Nat) (l : LoadOp) {bs : List (Nat × Bool)} (hclean : anyPois bs = false) :
    let u := (s.loadGone t k).loadEnd t l bs
    (u.tile t).sreg l.sd = loadValue l.width (valOf bs) l.signed ∧ (u.tile t).loads = (s.tile t).loads.eraseIdx k ∧ scalarFrame t [l.sd] [] [] s u := by
  have hend : (s.loadGone t k).loadEnd t l bs = s.modTile t fun x => { x with loads := x.loads.eraseIdx k }.setS l.sd (loadValue l.width (valOf bs) l.signed) := by
    rw [State.loadEnd, hclean, if_neg Bool.false_ne_true, State.loadGone, State.modTile_modTile]
  have htile := s.tile_modTile_same t fun x => { x with loads := x.loads.eraseIdx k }.setS l.sd (loadValue l.width (valOf bs) l.signed)
  have hleaves := ((s.tile t).leaves_setS l.sd (loadValue l.width (valOf bs) l.signed)).keeps (Tile.keeps_loads _ ((s.tile t).loads.eraseIdx k))
  rw [hend]
  refine ⟨by rw [htile]; exact Tile.sreg_setS_same _ _ _, by rw [htile]; rfl, scalarFrame_of_onlyUnit (s.onlyUnit_modTile t _ _) ?_⟩
  rw [htile]
  exact hleaves

/-- A poisoned byte of a load is the imprecise poison trap. -/
theorem State.loadEnd_poisoned (s : State) (t k : Nat) (l : LoadOp) {bs : List (Nat × Bool)} (hpois : anyPois bs = true) (htrap : (s.tile t).trap = none) :
    let u := (s.loadGone t k).loadEnd t l bs
    (u.tile t).trap = some ⟨5, true, l.idx, 0, s.pc t⟩ ∧ (u.tile t).loads = (s.tile t).loads.eraseIdx k ∧ scalarFrame t [] [] [] s u := by
  have htile : ((s.loadGone t k).loadEnd t l bs).tile t =
      { s.tile t with loads := (s.tile t).loads.eraseIdx k, trap := some ⟨5, true, l.idx, 0, s.pc t⟩ } := by
    rw [State.loadEnd, hpois, if_pos rfl, State.raise, State.tile_modTile_same, State.loadGone, State.tile_modTile_same, htrap]
    rfl
  have honly : State.OnlyUnit t [aTSQSTAT t] s ((s.loadGone t k).loadEnd t l bs) := by
    rw [State.loadEnd, hpois, if_pos rfl]
    exact (s.onlyUnit_modTile t _ _).trans (State.onlyUnit_modTile _ t _ _)
  refine ⟨by rw [htile], by rw [htile], honly.scalarFrame ?_⟩
  rw [htile]
  exact ⟨rfl, rfl, rfl, rfl, rfl, rfl⟩

theorem exec_loadReturn_held {k : Nat} {l : LoadOp} {bs : List (Nat × Bool)} (hl : (s.tile t).loads[k]? = some l) (hgot : l.got = some bs) :
    exec (.loadReturn t k) s = .next ((s.loadGone t k).loadEnd t l bs) := by
  change execLoadReturn t k s = _
  simp only [execLoadReturn, hl, hgot]
  rfl

/-- A load of another place of this device is performed when it returns. -/
theorem exec_loadReturn_local {k : Nat} {l : LoadOp} (hl : (s.tile t).loads[k]? = some l) (hgot : l.got = none) (hrid : l.rid = none)
    (hloc : s.isLocal l.addr = true) : exec (.loadReturn t k) s = .next ((s.loadGone t k).loadLocal t l) := by
  change execLoadReturn t k s = _
  simp only [execLoadReturn, hl, hgot, hrid, hloc, if_true]
  rfl

theorem State.land_of_none (h : (s.tile t).posted = []) (f : (Nat × List Nat) → Nat → Bool) : s.land t f = s := by
  rw [State.land, h, List.isEmpty_nil, if_pos rfl]

/-- A load of a bank's bytes ends with them, where the tile has no posted store. -/
theorem State.loadLocal_bank {k o : Nat} {l : LoadOp} (hposted : (s.tile t).posted = []) (hok : s.addrOk t l.addr l.width = true)
    (hal : addrDev l.addr % l.width = 0) (hk : k < 2048) (haddr : addrDev l.addr = tileBase 0 + k * 0x400000 + o)
    (hmem : s.isMem (addrDev l.addr) l.width = true) (hclean : (s.tile k).cleanRange o l.width) (ho : o < 0x300000) :
    s.loadLocal t l = s.loadEnd t l (((s.tile k).bytesAt o l.width).map fun b => (b, false)) := by
  have hget := State.localGet_clean hk haddr hmem (by omega) hclean t uExternal
  have hmb : mboxAt (addrDev l.addr) = none := by rw [haddr]; exact mboxAt_bank ho
  unfold State.loadLocal
  dsimp only
  rw [State.land_of_none hposted, hok, hmb, hget, if_neg (by simp [hal])]

end Sys2Proof.Machine

namespace Sys2Proof.Proofs
open Sys2Proof Sys2Proof.Machine

/-- Settles O6: a load's issue by the place of its address, and its return with the bytes taken at issue or those that stand there now. -/
theorem loadsIssueAndReturn : Obligations.LoadsIssueAndReturn := by
  unfold Obligations.LoadsIssueAndReturn
  refine ⟨fun r hr s t b hi => ?issue, fun s t k l bs hl hgot => ⟨fun hclean hw => ?clean, fun hpois htrap => ?poisoned⟩,
    fun s t k v l hl hgot hrid hloc hok hal hwin hlast hmem hholds hposted => ?there⟩
  case issue =>
    have ht := State.issues_lt hi
    have hexec := exec_loadRows hr t b s
    refine ⟨fun o v hok hal hown hmem hlast hholds hfree _ => ?_, fun hok hal hloc hown hmbx => ?_, fun o hok hal hown hmb hpend hfree => ?_,
      fun g hok hal hfar hg hline hmbx => ?_, fun hbad => ?_⟩
    · refine Gives.of_issue hi hexec ?_
      rw [loadIssue_own hok hal ht hown hmem hlast hholds hfree]
      obtain ⟨hmoves, hframe, hloads⟩ := s.perform_putLoad t { loadOf s t r.2.2.1 r.2.2.2 b with
        got := some (((s.tile t).bytesAt o r.2.2.1).map fun b => (b, false)) }
      exact ⟨hmoves, hframe, _, hloads, by simp, (valOf_unmarked _).trans (Tile.holds_spells hholds).2, anyPois_unmarked _⟩
    · refine Gives.of_issue hi hexec ?_
      rw [loadIssue_elsewhere hok hal hmbx hloc hown]
      exact s.perform_putLoad t _
    · refine Gives.of_issue hi hexec ?_
      rw [loadIssue_ownMbox hok hal hpend hown hmb hfree]
      exact s.perform_putLoad t _
    · exact Gives.of_issue hi hexec (perform_loadIssue_far hok hal hmbx hfar hg hline)
    · refine Gives.of_issue hi hexec ?_
      rw [loadIssue_bad hbad]
      exact s.perform_putLoad t _
  case clean =>
    obtain ⟨hval, hloads, hframe⟩ := s.loadEnd_clean t k l hclean
    exact ⟨_, exec_loadReturn_held hl hgot, fun hs => by rw [hval, loadValue, hs]; rfl, fun hs => by rw [hval, loadValue, hs]; rfl, hloads, hframe⟩
  case poisoned => exact ⟨_, exec_loadReturn_held hl hgot, s.loadEnd_poisoned t k l hpois htrap⟩
  case there =>
    obtain ⟨haddr, hk, ho⟩ := addrDev_window hwin
    obtain ⟨hclean, hval⟩ := Tile.holds_spells hholds
    have htile : ∀ j, (s.tile j).Keeps ((s.loadGone t k).tile j) := fun j => by
      by_cases hj : j = t
      · subst hj; rw [State.loadGone, State.tile_modTile_same]; exact Tile.keeps_loads _ _
      · rw [State.loadGone, State.tile_modTile_other _ _ _ _ hj]; exact Tile.Keeps.refl _
    have hposted' : ((s.loadGone t k).tile t).posted = [] := by rw [State.loadGone, State.tile_modTile_same]; exact hposted
    have hend := State.loadLocal_bank (s := s.loadGone t k) hposted' hok hal hk haddr hmem (((htile _).cleanRange _ _).mpr ⟨hlast, hclean⟩) (by omega)
    rw [(htile _).bytesAt] at hend
    obtain ⟨hreg, hloads, hframe⟩ := s.loadEnd_clean t k l (anyPois_unmarked ((s.tile (winTile l.addr)).bytesAt (winOff l.addr) l.width))
    rw [valOf_unmarked, hval] at hreg
    refine ⟨_, exec_loadReturn_local hl hgot hrid hloc, ?_⟩
    rw [hend]
    exact ⟨hreg, hloads, hframe⟩

end Sys2Proof.Proofs
end

section
/-! SUPPORT. Scalar stores: their checks, what one writes of a bank, and FENCE.G, and O7 (R159, R160, R185, R186, R188). -/

namespace Sys2Proof.Machine

variable {s : State} {t : Nat}

/-! ## A store in a bank -/

/-- u is s but for bytes of tile k's bank at offset o, which are bs (and for the expansion buffers and old words that this touches). -/
structure State.BankWritten (k o : Nat) (bs : List Nat) (s u : State) : Prop where
  only : ∃ ts, u = { s with tiles := ts }
  bytes : ∀ j, ∀ h : j < bs.length, (u.tile k).classOf (o + j) = .good (bs[j] % 256)
  outside : ∀ i off, (i = k → off < o ∨ o + bs.length ≤ off) → (u.tile i).code off = (s.tile i).code off
  others : s.sameTilesBut u k
  rest : ∃ b e l, u.tile k = { s.tile k with bank := b, exb := e, olds := l }

theorem State.bankWritten_putBank (s : State) (k o : Nat) (bs : List Nat) : State.BankWritten k o bs s (s.putBank k o (bs.map fun b => (b, false))) where
  only := ⟨_, rfl⟩
  bytes j h := by
    rw [s.classOf_putBank k o _ (by rwa [List.length_map]), List.getElem_map, classify_byteCode_good]
  outside i off h := s.code_putBank_outside k o _ fun hi => by rw [List.length_map]; exact h hi
  others i hi := s.tile_modTile_other k i _ hi
  rest := s.tile_putBank k o _

theorem State.bankWritten_nil (s : State) (k o : Nat) : State.BankWritten k o [] s s where
  only := ⟨s.tiles, rfl⟩
  bytes j h := absurd h (Nat.not_lt_zero j)
  outside _ _ _ := rfl
  others _ _ := rfl
  rest := ⟨(s.tile k).bank, (s.tile k).exb, (s.tile k).olds, rfl⟩

section
variable {k o : Nat} {bs : List Nat} {u : State} (h : State.BankWritten k o bs s u)
include h

theorem State.BankWritten.reg (a : Nat) : u.reg a = s.reg a := by
  obtain ⟨ts, rfl⟩ := h.only
  rfl

theorem State.BankWritten.stacks (d : Nat) : u.stkByte d = s.stkByte d ∧ u.markOf d = s.markOf d := by
  obtain ⟨ts, rfl⟩ := h.only
  exact ⟨rfl, rfl⟩

/-- A field of tiles that no write of a bank touches. -/
theorem State.BankWritten.tileField {α : Type} (g : Tile → α) (hg : ∀ (x : Tile) b e l, g { x with bank := b, exb := e, olds := l } = g x) (i : Nat) :
    g (u.tile i) = g (s.tile i) := by
  by_cases hi : i = k
  · obtain ⟨b, e, l, hk⟩ := h.rest
    rw [hi, hk, hg]
  · rw [h.others i hi]

end

/-- A write of memory at an address of a bank. -/
theorem State.memWrite_bank {d k o : Nat} {bs : List Nat} (haddr : d = tileBase 0 + k * 0x400000 + o) (ho : o < 0x400000)
    (hlast : o + bs.length ≤ 0x200000) (hpend : s.flag (TFLIP_PEND k) = false) :
    State.BankWritten k o bs s (s.memWrite d (bs.map fun b => (b, false))) := by
  have hhigh : ¬ d < 0x8000000000 := by rw [haddr]; simp only [tileBase]; omega
  have htile : (d - tileBase 0) / 0x400000 = k := by omega
  have hoff : (d - tileBase 0) % 0x400000 = o := by omega
  have hone : ¬ (o < 0x200000 ∧ 0x200000 < o + (bs.map fun b => (b, false)).length) := by rw [List.length_map]; omega
  have hwrite : s.memWrite d (bs.map fun b => (b, false)) = s.winWrite k o (bs.map fun b => (b, false)) := by
    rw [State.memWrite, if_neg hhigh, htile, hoff]
    dsimp only
    rw [if_neg hone]
  rw [hwrite]
  by_cases hin : o < 0x200000
  · rw [State.winWrite_bank s hpend hin]
    exact s.bankWritten_putBank k o bs
  · have hnil : bs = [] := List.eq_nil_of_length_eq_zero (by omega)
    subst hnil
    rw [State.winWrite, if_neg hin]
    exact s.bankWritten_nil k o

/-- A store performed at a bank that takes writes. -/
theorem State.storeLocal_bank {d k o : Nat} {bs : List Nat} (t : Nat) (haddr : d = tileBase 0 + k * 0x400000 + o) (ho : o < 0x400000)
    (hlast : o + bs.length ≤ 0x200000) (hmem : s.isMem d bs.length = true) (hmark : (s.tile k).marking = false)
    (hpend : s.flag (TFLIP_PEND k) = false) : State.BankWritten k o bs s (s.storeLocal t d bs) := by
  have htile : (d - tileBase 0) / 0x400000 = k := by omega
  have htakes : s.refusesWrite d = false := by rw [State.refusesWrite, htile, hmark, Bool.and_false]
  have hstore : s.storeLocal t d bs = s.memWrite d (bs.map fun b => (b, false)) := by
    rw [State.storeLocal, if_pos hmem, State.localPut, htakes, if_neg Bool.false_ne_true]
    rfl
  rw [hstore]
  exact State.memWrite_bank haddr ho hlast hpend

/-! ## Issue (R160, R185, R186) -/

theorem exec_storeRows {r : (Nat → BitVec 54 → Instr) × Nat × Nat} (hr : r ∈ storeRows) (t : Nat) (b : BitVec 54) (s : State) :
    exec (r.1 t b) s = .next (s.issue t 2 r.2.1 b rsvMem [fb b 45 5] noFuse (storeIssue t r.2.2 b)) := by
  simp only [storeRows, List.mem_cons, List.not_mem_nil, or_false] at hr
  obtain rfl | rfl | rfl | rfl := hr <;> rfl

section
variable {n : Nat} {b : BitVec 54}

theorem storeIssue_outside (hloc : s.isLocal (memAddr b (s.tile t)) = true) (hbad : s.addrOk t (memAddr b (s.tile t)) n = false) :
    storeIssue t n b s = .trap 3 0 := by
  simp only [storeIssue, hbad, hloc, Bool.not_false, if_true]

variable (hok : s.addrOk t (memAddr b (s.tile t)) n = true)
include hok

theorem storeIssue_misaligned (hmis : memAddr b (s.tile t) % n ≠ 0) : storeIssue t n b s = .trap 4 0 := by
  simp only [storeIssue, hok, Bool.not_true, Bool.false_eq_true, if_false, if_pos hmis]

variable (hal : memAddr b (s.tile t) % n = 0)
include hal

theorem storeIssue_stack (hstack : addrDev (memAddr b (s.tile t)) < 0x8000000000) : storeIssue t n b s = .trap 9 0 := by
  simp only [storeIssue, hok, hal, hstack, Bool.not_true, Bool.false_eq_true, ne_eq, not_true_eq_false, if_false, if_true]

variable (hloc : s.isLocal (memAddr b (s.tile t)) = true) (hhigh : 0x8000000000 ≤ addrDev (memAddr b (s.tile t)))
  (hline : s.lineHold t (memAddr b (s.tile t)) true = false) (hmb : isMbox (addrDev (memAddr b (s.tile t))) = false)
include hloc hhigh hline hmb

/-- A store to the own window is performed as it issues. -/
theorem storeIssue_own {o : Nat} (hown : s.ownOff t (memAddr b (s.tile t)) = some o) (hfree : s.rangeHold t [] [⟨o, n⟩] = false) :
    storeIssue t n b s = .fall (s.storeLocal t (addrDev (memAddr b (s.tile t))) (leBytes n ((s.tile t).sreg (fb b 45 5)).toNat)) := by
  simp only [storeIssue, hok, hal, hloc, hhigh.not_gt, hline, hmb, hown, hfree, Bool.not_true, Bool.false_and, Bool.or_self, Bool.false_eq_true, ne_eq,
    not_true_eq_false, if_false]

/-- A store to another place of this device is posted. -/
theorem storeIssue_posted (hown : s.ownOff t (memAddr b (s.tile t)) = none) :
    storeIssue t n b s = .fall (s.modTile t fun x =>
      { x with posted := x.posted ++ [(addrDev (memAddr b (s.tile t)), leBytes n ((s.tile t).sreg (fb b 45 5)).toNat)] }) := by
  simp only [storeIssue, hok, hal, hloc, hhigh.not_gt, hline, hmb, hown, Bool.not_true, Bool.false_and, Bool.or_self, Bool.false_eq_true, ne_eq,
    not_true_eq_false, if_false]

end

/-- What a store to the own bank leaves as it issues. -/
theorem State.perform_bankWritten {o : Nat} {bs : List Nat} {v : State} (h : State.BankWritten t o bs s v) :
    let u := s.perform t s (.fall v)
    (∀ j, ∀ hj : j < bs.length, (u.tile t).classOf (o + j) = .good (bs[j] % 256)) ∧
      (∀ off, off < o ∨ o + bs.length ≤ off → (u.tile t).code off = (s.tile t).code off) ∧
      (∀ w, (u.tile t).accWord w = (s.tile t).accWord w) ∧ (∀ d, u.stkByte d = s.stkByte d ∧ u.markOf d = s.markOf d) ∧
      (s.tile t).sameS (u.tile t) [] ∧ (s.tile t).sameA (u.tile t) [] ∧ (s.tile t).sameP (u.tile t) [] ∧
      s.sameTilesBut u t ∧ s.sameRegs u [aTSQSTAT t] ∧ movesOn t s u := by
  obtain ⟨hmoves, honly, lc, htile⟩ := State.perform_fall (s := s) (t := t) (s' := v) s (State.fld_of_reg (h.reg _))
    (h.tileField Tile.lc (fun _ _ _ _ => rfl) t)
  obtain ⟨b, e, l, hrest⟩ := h.rest
  have hstk := honly.rest
  simp only [State.sameRest] at hstk
  obtain ⟨hstk, hmark, -⟩ := hstk
  refine ⟨fun j hj => by rw [htile]; exact h.bytes j hj, fun off hoff => by rw [htile]; exact h.outside t off fun _ => hoff, fun w => ?_, fun d => ?_,
    fun i _ => ?_, fun i _ => ?_, fun i _ _ => ?_, fun i hi => (honly.tiles i hi).trans (h.others i hi),
    fun a ha => (honly.regs a ha).trans (h.reg a), hmoves⟩
  · rw [htile, hrest]; rfl
  · rw [State.stkByte, State.markOf, hstk, hmark]; exact h.stacks d
  · rw [htile, hrest]; rfl
  · rw [htile, hrest]; rfl
  · rw [htile, hrest]; rfl

/-! ## FENCE.G (R188) -/

/-- A posted store, alone, is performed at its place. -/
theorem State.landAll_one {d : Nat} {bs : List Nat} (hposted : (s.tile t).posted = [(d, bs)]) (hmark : (s.tile t).marking = false) {v : State}
    (hv : (s.modTile t fun x => { x with posted := [] }).storeLocal t d bs = v) (hmark' : (v.tile t).marking = false) :
    s.landAll t = v.modTile t fun x => { x with posted := [] } := by
  have hpost : ((s.modTile t fun x => { x with posted := [] }).tile t).marking = false := by rw [State.tile_modTile_same]; exact hmark
  simp only [State.landAll, State.land, hposted, List.isEmpty_cons, State.landEach, hpost, hv, hmark', Bool.not_false, List.any_nil, Bool.and_self,
    Bool.false_eq_true, if_true, if_false]

/-- A wait that is over ends with its event. -/
theorem State.release_over {w : Wait} {i : Nat} {f : Wait → Bool} (hwait : (s.tile t).wait = some ⟨w, i⟩) (hf : f w = true)
    (hlive : s.tileLive t = true) (hfrozen : s.frozen = false) (hover : s.waitOver t w = true) : s.release t f = s.waitEnd t w := by
  simp only [State.release, hwait, hf, hlive, hfrozen, hover, Bool.not_false, Bool.and_self, if_true]

/-- FENCE.G ends with the one posted store performed in the bank that its address names. -/
theorem State.fenceG_lands {a i : Nat} {bs : List Nat} (hwait : (s.tile t).wait = some ⟨.fenceG, i⟩) (hlive : s.tileLive t = true)
    (hfrozen : s.frozen = false) (hdrained : s.drained t = true) (hposted : (s.tile t).posted = [(addrDev a, bs)]) (hmark : (s.tile t).marking = false)
    (hmark' : (s.tile (winTile a)).marking = false) (hwin : inTileWindow a = true) (hlast : winOff a + bs.length ≤ 0x200000)
    (hmem : s.isMem (addrDev a) bs.length = true) (hpend : s.flag (TFLIP_PEND (winTile a)) = false) :
    ∃ v, State.BankWritten (winTile a) (winOff a) bs (s.modTile t fun x => { x with posted := [] }) v ∧
      exec (.fenceGComplete t) s = .next (v.modTile t fun x => { x with posted := [], wait := none }) := by
  obtain ⟨haddr, -, ho⟩ := addrDev_window hwin
  let p := s.modTile t fun x => { x with posted := [] }
  have hmarking : ∀ k, (p.tile k).marking = (s.tile k).marking := fun k => by
    by_cases hk : k = t
    · subst hk; rw [State.tile_modTile_same]
    · rw [State.tile_modTile_other _ _ _ _ hk]
  have hput : State.BankWritten (winTile a) (winOff a) bs p (p.storeLocal t (addrDev a) bs) :=
    State.storeLocal_bank t haddr ho hlast hmem ((hmarking _).trans hmark') hpend
  have hland := State.landAll_one hposted hmark rfl ((hput.tileField Tile.marking (fun _ _ _ _ => rfl) t).trans ((hmarking t).trans hmark))
  refine ⟨_, hput, ?_⟩
  change Host.Outcome.next (s.release t fun w => w == .fenceG) = _
  rw [State.release_over (w := .fenceG) hwait rfl hlive hfrozen hdrained, State.waitEnd, hland, State.modTile_modTile]

end Sys2Proof.Machine

namespace Sys2Proof.Proofs
open Sys2Proof Sys2Proof.Machine

theorem leBytes_getElem (n x : Nat) {j : Nat} (h : j < (leBytes n x).length) : (leBytes n x)[j] = bitsOf x (8 * j) 8 := by simp [leBytes]

/-- Settles O7: a store by the place of its address, FENCE.G with one posted store, and the traps in the order of the checks. -/
theorem storesAndScalarAccessTraps : Obligations.StoresAndScalarAccessTraps := by
  unfold Obligations.StoresAndScalarAccessTraps
  refine ⟨fun r hr s t b hi => ?store,
    fun s t i a bs hwait hlive hfrozen hdrained hposted hmark hmark' hwin hlast hmem hpend hbytes => ?fence,
    fun r hr s t b hi hok hmis => ?load, fun r hr s t b hi => ?trap⟩
  case store =>
    have hexec := exec_storeRows hr t b s
    refine fun hok hal hloc hhigh hline => ⟨fun o hown hlast hmem hmark hpend hfree => ?_, fun hown hmb => ?_⟩
    · obtain ⟨-, haddr, ho⟩ := State.ownOff_eq_some hown
      have hlen := length_leBytes r.2.2 ((s.tile t).sreg (fb b 45 5)).toNat
      have hpos : 0 < r.2.2 := by
        simp only [storeRows, List.mem_cons, List.not_mem_nil, or_false] at hr
        obtain rfl | rfl | rfl | rfl := hr <;> exact Nat.succ_pos _
      have hmb : isMbox (addrDev (memAddr b (s.tile t))) = false := by rw [haddr]; exact isMbox_bank (by omega)
      have hput := State.storeLocal_bank (bs := leBytes r.2.2 ((s.tile t).sreg (fb b 45 5)).toNat) t haddr ho (by rwa [hlen]) (by rwa [hlen]) hmark hpend
      refine Gives.of_issue hi hexec ?_
      rw [storeIssue_own hok hal hloc hhigh hline hmb hown hfree]
      obtain ⟨hgood, hout, hrest⟩ := State.perform_bankWritten hput
      rw [hlen] at hout
      refine ⟨fun j hj => ?_, hout, hrest⟩
      have hbyte := hgood j (by rwa [hlen])
      rw [leBytes_getElem, Nat.mod_eq_of_lt (show bitsOf _ (8 * j) 8 < 256 from Nat.mod_lt _ (by decide))] at hbyte
      exact hbyte
    · refine Gives.of_issue hi hexec ?_
      rw [storeIssue_posted hok hal hloc hhigh hline hmb hown]
      obtain ⟨hmoves, hframe, _, htile⟩ := State.perform_modTile (s := s) (t := t) (sd := []) (ad := []) (pd := [])
        (f := fun x => { x with posted := x.posted ++ [(addrDev (memAddr b (s.tile t)), leBytes r.2.2 ((s.tile t).sreg (fb b 45 5)).toNat)] }) rfl
        ⟨fun _ _ => rfl, fun _ _ => rfl, fun _ _ _ => rfl, fun _ => rfl, fun _ => rfl, fun _ => rfl⟩
      exact ⟨hmoves, hframe, congrArg Tile.posted htile⟩
  case fence =>
    obtain ⟨v, hv, hexec⟩ := State.fenceG_lands hwait hlive hfrozen hdrained hposted hmark hmark' hwin hlast hmem hpend
    have hfirst : ∀ {α : Type} (g : Tile → α) (_ : ∀ (x : Tile) ps, g { x with posted := ps } = g x) (k : Nat),
        g ((s.modTile t fun x => { x with posted := [] }).tile k) = g (s.tile k) := fun g hg k => by
      by_cases hk : k = t
      · subst hk; rw [State.tile_modTile_same, hg]
      · rw [State.tile_modTile_other _ _ _ _ hk]
    have hlater : ∀ {α : Type} (g : Tile → α) (_ : ∀ (x : Tile) ps w, g { x with posted := ps, wait := w } = g x) (k : Nat),
        g ((v.modTile t fun x => { x with posted := [], wait := none }).tile k) = g (v.tile k) := fun g hg k => by
      by_cases hk : k = t
      · subst hk; rw [State.tile_modTile_same, hg]
      · rw [State.tile_modTile_other _ _ _ _ hk]
    refine ⟨_, hexec, by rw [State.tile_modTile_same], by rw [State.tile_modTile_same], fun j hj => ?_, fun k off hoff => ?_, fun k w => ?_, fun d => ?_,
      fun ad _ => ?_⟩
    · rw [hlater (fun x => x.classOf (winOff a + j)) (fun _ _ _ => rfl), hv.bytes j hj]
      rw [Nat.mod_eq_of_lt (hbytes _ (List.getElem_mem hj)), nth, List.getElem?_eq_getElem hj, Option.getD_some]
    · rw [hlater (fun x => x.code off) (fun _ _ _ => rfl), hv.outside k off hoff]
      exact hfirst (fun x => x.code off) (fun _ _ => rfl) k
    · rw [hlater (fun x => x.accWord w) (fun _ _ _ => rfl), hv.tileField (fun x => x.accWord w) (fun _ _ _ _ => rfl)]
      exact hfirst (fun x => x.accWord w) (fun _ _ => rfl) k
    · exact hv.stacks d
    · exact hv.reg ad
  case load =>
    refine Gives.of_issue hi (exec_loadRows hr t b s) ?_
    rw [loadIssue_misaligned hok hmis]
    exact State.raise_trapsHere (State.issues_tile hi).1 4 0
  case trap =>
    have hexec := exec_storeRows hr t b s
    have htrap := (State.issues_tile hi).1
    refine ⟨fun hloc hbad => ?_, fun hok hmis => ?_, fun hok hal hstack => ?_⟩
    · refine Gives.of_issue hi hexec ?_
      rw [storeIssue_outside hloc hbad]
      exact State.raise_trapsHere htrap 3 0
    · refine Gives.of_issue hi hexec ?_
      rw [storeIssue_misaligned hok hmis]
      exact State.raise_trapsHere htrap 4 0
    · refine Gives.of_issue hi hexec ?_
      rw [storeIssue_stack hok hal hstack]
      exact State.raise_trapsHere htrap 9 0

end Sys2Proof.Proofs
end

section
/-! SUPPORT. What every instruction meets at issue, and TRAPPED, and O8 (R149, R150, R151, R183, R184, R213, R465). -/

namespace Sys2Proof.Machine

variable {s u v : State} {t : Nat}

/-! ## Issue -/

theorem State.canIssue_trap (h : s.canIssue t = true) : (s.tile t).trap = none := by
  simp only [State.canIssue, Bool.and_eq_true, Option.isNone_iff_eq_none] at h
  obtain ⟨⟨⟨⟨-, htrap⟩, -⟩, -⟩, -⟩ := h
  exact htrap

/-- A reserved bit that is not 0 is the invalid-instruction trap (R150). -/
theorem State.issue_reserved {cls op : Nat} {b : BitVec 54} {rsv : Nat} (hcan : s.canIssue t = true)
    (hword : (s.tile t).wordIs (s.pc t) (rowWord cls op b) = true) (hrsv : b.toNat &&& rsv ≠ 0) (regs : List Nat) (fuseOk : Nat → Bool)
    (body : State → Act) : s.issue t cls op b rsv regs fuseOk body = s.raise t 1 false (s.pc t) 0 := by
  obtain ⟨hclean, hval, hsame⟩ := State.fetch_wordIs s t _ hword
  simp [State.issue, hcan, hclean, hval, hsame, hrsv]

/-- Bytes that are clean or poisoned are read without a trace. -/
theorem State.winRead_traceless {off n : Nat} (unit : Nat) (hb : off + n ≤ 0x200000)
    (h : ∀ k < n, (s.tile t).classOf (off + k) = .poison ∨ (s.tile t).clean (off + k) = true) :
    s.winRead t off n unit = ((List.range n).map fun k => ((s.tile t).classOf (off + k)).value, s) := by
  unfold State.winRead
  rw [readMany_pure _ fun o => ((s.tile t).classOf o).value]
  · simp [Function.comp_def]
  · intro o ho
    obtain ⟨k, hk, rfl⟩ := List.mem_map.mp ho
    have hk := List.mem_range.mp hk
    have hin : off + k < 0x200000 := by omega
    rw [State.winByte, if_pos hin]
    obtain hpois | hclean := h k hk
    · rw [State.bankByte, hpois]; rfl
    · exact State.bankByte_clean _ _ _ _ hclean

/-- A word with a poisoned byte is the poison trap, whichever row asks (R151, R183). -/
theorem State.issue_poisoned {cls op : Nat} {b : BitVec 54} {rsv : Nat} (hcan : s.canIssue t = true)
    (hpois : ∃ k < 8, (s.tile t).classOf (0x1F0000 + s.pc t * 8 + k) = .poison)
    (hall : ∀ k < 8, (s.tile t).classOf (0x1F0000 + s.pc t * 8 + k) = .poison ∨ (s.tile t).clean (0x1F0000 + s.pc t * 8 + k) = true)
    (holds : (s.tile t).olds = []) (regs : List Nat) (fuseOk : Nat → Bool) (body : State → Act) :
    s.issue t cls op b rsv regs fuseOk body = s.raise t 5 false (s.pc t) 0 := by
  have hpc := s.pc_lt t
  have hfetch := State.winRead_traceless (s := s) (t := t) uFetch (by omega) hall
  have hany : anyPois (s.fetch t).1 = true := by
    obtain ⟨k, hk, hk'⟩ := hpois
    rw [State.fetch, hfetch]
    exact List.any_eq_true.mpr ⟨_, List.mem_map.mpr ⟨k, List.mem_range.mpr hk, rfl⟩, by rw [hk']; rfl⟩
  have hsame : (s.fetch t).2 = s := by rw [State.fetch, hfetch]
  have holds' : (s.tile t).oldWords (s.pc t) = [] := by rw [Tile.oldWords, holds]; rfl
  simp [State.issue, hcan, hany, hsame, holds']

theorem exec_nop (t : Nat) (b : BitVec 54) (s : State) : exec (.nop t b) s = .next (s.issue t 0 0 b (rsvOut []) [] noFuse fun s => .fall s) := rfl

theorem exec_br (t : Nat) (b : BitVec 54) (s : State) :
    exec (.br t b) s = .next (s.issue t 0 1 b (rsvOut [(13, 0)]) [] noFuse fun s => .jump s (branchTarget s t b)) := rfl

/-- Every plain row is an instruction of its class and operation with its reserved bits. -/
theorem exec_plainRows {r : (Nat → BitVec 54 → Instr) × Nat × Nat × Nat} (hr : r ∈ plainRows) (t : Nat) (b : BitVec 54) (s : State) :
    ∃ regs body, exec (r.1 t b) s = .next (s.issue t r.2.1 r.2.2.1 b r.2.2.2 regs noFuse body) := by
  unfold plainRows at hr
  simp only [List.mem_append, List.mem_map, List.mem_cons, List.not_mem_nil, or_false] at hr
  obtain ((⟨r', hr', rfl⟩ | ⟨r', hr', rfl⟩) | ⟨⟨i, o, n⟩, hr', rfl⟩) | rfl | rfl := hr
  · exact ⟨_, _, exec_scalarR hr' t b s⟩
  · exact ⟨_, _, exec_loadRows hr' t b s⟩
  · exact ⟨_, _, exec_storeRows hr' t b s⟩
  · exact ⟨_, _, exec_nop t b s⟩
  · exact ⟨_, _, exec_br t b s⟩

/-! ## What an event and the scheduler may change (R465, R467) -/

/-- u is s but for what the scheduler and the host's events write: reports come behind those of s, and no register of a tile changes. -/
def State.OnlyAbove (s u : State) : Prop :=
  (∃ rs sw oc dh cx st ha more, u =
    { s with regs := rs, switches := sw, occup := oc, detHold := dh, ctxs := cx, sent := st, halt := ha, reports := s.reports ++ more }) ∧ ∀ a < 0x020000000000, u.reg a = s.reg a

theorem State.OnlyAbove.refl (s : State) : State.OnlyAbove s s :=
  ⟨⟨s.regs, s.switches, s.occup, s.detHold, s.ctxs, s.sent, s.halt, [], by rw [List.append_nil]⟩, fun _ _ => rfl⟩

theorem State.OnlyAbove.trans (h : State.OnlyAbove s u) (k : State.OnlyAbove u v) : State.OnlyAbove s v := by
  obtain ⟨⟨_, _, _, _, _, _, _, more, rfl⟩, hregs⟩ := h
  obtain ⟨⟨rs, sw, oc, dh, cx, st, ha, more', rfl⟩, hregs'⟩ := k
  exact ⟨⟨rs, sw, oc, dh, cx, st, ha, more ++ more', by rw [List.append_assoc]⟩, fun a ha => (hregs' a ha).trans (hregs a ha)⟩

theorem State.OnlySched.above (h : State.OnlySched s u) : State.OnlyAbove s u := by
  obtain ⟨⟨rs, sw, oc, dh, rfl⟩, hregs⟩ := h
  exact ⟨⟨rs, sw, oc, dh, s.ctxs, s.sent, s.halt, [], by rw [List.append_nil]⟩, hregs⟩

theorem State.onlyAbove_emit (s : State) (o : Out) : State.OnlyAbove s (s.emit o) :=
  ⟨⟨s.regs, s.switches, s.occup, s.detHold, s.ctxs, _, s.halt, [], by rw [List.append_nil]; rfl⟩, fun _ _ => rfl⟩

theorem State.onlyAbove_modCtx (s : State) (c : Nat) (f : Ctx → Ctx) : State.OnlyAbove s (s.modCtx c f) :=
  ⟨⟨s.regs, s.switches, s.occup, s.detHold, _, s.sent, s.halt, [], by rw [List.append_nil]; rfl⟩, fun _ _ => rfl⟩

theorem State.onlyAbove_report (s : State) (half typ sev src addr detail : Nat) : State.OnlyAbove s (s.report half typ sev src addr detail) :=
  ⟨⟨s.regs, s.switches, s.occup, s.detHold, s.ctxs, s.sent, s.halt, _, rfl⟩, fun _ _ => rfl⟩

theorem State.onlyAbove_halt (s : State) (ha : HaltIn) : State.OnlyAbove s { s with halt := ha } :=
  ⟨⟨s.regs, s.switches, s.occup, s.detHold, s.ctxs, s.sent, ha, [], by rw [List.append_nil]⟩, fun _ _ => rfl⟩

theorem State.onlyAbove_msix (s : State) (fn vec : Nat) : State.OnlyAbove s (s.msix fn vec) := by
  unfold State.msix
  dsimp only
  split
  · split
    · exact s.onlyAbove_modCtx fn _
    · exact (s.onlyAbove_emit _).trans (State.onlyAbove_modCtx _ fn _)
  · exact s.onlyAbove_emit _

theorem State.onlyAbove_event (s : State) (c typ src aux data : Nat) : State.OnlyAbove s (s.event c typ src aux data) := by
  have hlost : State.OnlyAbove s (s.bump (HEVLOST_LOST c) 1) :=
    (s.onlySched_setFld (f := HEVLOST_LOST c) (by simp only [HEVLOST_LOST, aHEVLOST]; omega) _).above
  unfold State.event
  dsimp only
  split
  · exact State.OnlyAbove.refl s
  · split
    · split
      · exact hlost
      · exact (hlost.trans (State.onlyAbove_modCtx _ c _)).trans (State.onlyAbove_report _ _ _ _ _ _ _)
    · exact ((s.onlyAbove_emit _).trans (State.onlyAbove_modCtx _ c _)).trans (State.onlyAbove_msix _ c 1)

theorem State.OnlyAbove.tile (h : State.OnlyAbove s u) (k : Nat) : u.tile k = s.tile k := by
  obtain ⟨⟨_, _, _, _, _, _, _, _, rfl⟩, -⟩ := h
  rfl

theorem State.OnlyAbove.reports (h : State.OnlyAbove s u) : ∃ more, u.reports = s.reports ++ more := by
  obtain ⟨⟨_, _, _, _, _, _, _, more, rfl⟩, -⟩ := h
  exact ⟨more, rfl⟩

theorem State.OnlyAbove.sameMem (h : State.OnlyAbove s u) : s.sameMem u := by
  obtain ⟨⟨_, _, _, _, _, _, _, _, rfl⟩, -⟩ := h
  exact State.sameMem_of_stores rfl rfl rfl

theorem State.OnlyAbove.fld (h : State.OnlyAbove s u) {f : Fld} (hf : f.addr < 0x020000000000) : u.fld f = s.fld f := State.fld_of_reg (h.2 _ hf)

/-! ## TRAPPED (R184) -/

/-- The tile as TRAPPED leaves it: nothing found, held or fused. -/
def Tile.untrapped (x : Tile) : Tile := { x with trap := none, held := none, fuse := none }

/-- A trap shown by the registers of its tile. -/
def State.trapShown (s : State) (t : Nat) (r : TrapRec) : State :=
  let v := (((s.setFld (TSQTRAP_CAUSE t) r.cause).setFld (TSQTRAP_IMPR t) (if r.impr then 1 else 0)).setFld (TSQTRAP_PC t) r.idx).setFld
    (TSQTRAP_CODE t) r.code
  (v.setFld (TSQSTAT_STATE t) stTrapped).setPc t (if r.impr then v.pc t else r.pc)

theorem State.onlySet_trapShown (s : State) (t : Nat) (r : TrapRec) : State.OnlySet [aTSQTRAP t, aTSQSTAT t] s (s.trapShown t r) := by
  have htrap : aTSQTRAP t ∈ [aTSQTRAP t, aTSQSTAT t] := List.mem_cons_self
  have hstat : aTSQSTAT t ∈ [aTSQTRAP t, aTSQSTAT t] := List.mem_cons_of_mem _ List.mem_cons_self
  exact ((((((State.OnlySet.refl _ s).setFld (f := TSQTRAP_CAUSE t) htrap _).setFld (f := TSQTRAP_IMPR t) htrap _).setFld (f := TSQTRAP_PC t) htrap
    _).setFld (f := TSQTRAP_CODE t) htrap _).setFld (f := TSQSTAT_STATE t) hstat _).setFld (f := TSQSTAT_PC t) hstat _

theorem State.trapShown_fields (s : State) (t : Nat) {r : TrapRec} (hcause : r.cause < 32) (hidx : r.idx < 8192) (hcode : r.code < 65536) :
    let u := s.trapShown t r
    u.fld (TSQTRAP_CAUSE t) = r.cause ∧ u.fld (TSQTRAP_IMPR t) = (if r.impr then 1 else 0) ∧ u.fld (TSQTRAP_PC t) = r.idx
      ∧ u.fld (TSQTRAP_CODE t) = r.code ∧ u.fld (TSQSTAT_STATE t) = stTrapped := by
  have himpr : (if r.impr then 1 else 0) % 2 = (if r.impr then 1 else 0) := by cases r.impr <;> rfl
  simp [State.trapShown, State.setPc, State.fld_setFld_apart, State.fld_setFld_same, Fld.apart, TSQTRAP_CAUSE, TSQTRAP_IMPR, TSQTRAP_PC, TSQTRAP_CODE,
    TSQSTAT_STATE, TSQSTAT_PC, aTSQTRAP, aTSQSTAT, stTrapped, Nat.mod_eq_of_lt hcause, Nat.mod_eq_of_lt hidx, Nat.mod_eq_of_lt hcode, himpr]

/-- The end of TRAPPED, after its report: the context has its event, nothing waits for the tile to halt, and the partition is scheduled. -/
def State.trapTold (s : State) (t : Nat) : State :=
  let v := (s.reg (aTSQTRAP t)).toNat
  let e := match s.ctxOfTile t with
    | some c => s.event c 1 t (v % 2 ^ 32) (v / 2 ^ 32)
    | none => s
  ({ e with halt := { e.halt with tiles := e.halt.tiles.filter (· != t) } }).schedTile t

theorem State.onlyAbove_trapTold (s : State) (t : Nat) : State.OnlyAbove s (s.trapTold t) := by
  refine State.OnlyAbove.trans ?_ (State.OnlySched.above (State.onlySched_schedTile _ t))
  refine State.OnlyAbove.trans ?_ (State.onlyAbove_halt _ _)
  split
  · exact State.onlyAbove_event _ _ _ _ _ _
  · exact State.OnlyAbove.refl _

/-- TRAPPED, once everything the tile issued has completed: the trap is shown, reported and told. -/
theorem exec_trapped_drained {r : TrapRec} (htrap : (s.tile t).trap = some r) (hdrained : s.drained t = true) (hwait : (s.tile t).wait = none)
    (hposted : (s.tile t).posted = []) :
    exec (.trapped t) s = .next ((((s.modTile t Tile.untrapped).trapShown t r).tileReport t 0x07 2 0 (r.cause + 32 * r.idx)).trapTold t) := by
  change execTrapped t s = _
  simp only [execTrapped, htrap, hdrained, hwait, State.landAll, State.land_of_none hposted, Bool.not_true, Option.isSome_none, Bool.or_self,
    Bool.false_eq_true, if_false]
  rfl

end Sys2Proof.Machine

namespace Sys2Proof.Proofs
open Sys2Proof Sys2Proof.Machine

/-- What TRAPPED leaves once everything the tile issued has completed (R184, R213). -/
theorem trapped_records {s : State} {t : Nat} {r : TrapRec} (ht : t < 2048) (htrap : (s.tile t).trap = some r) (hdrained : s.drained t = true)
    (hwait : (s.tile t).wait = none) (hposted : (s.tile t).posted = []) (hcause : r.cause < 32) (hidx : r.idx < 8192) (hcode : r.code < 65536) :
    Gives (exec (.trapped t) s) fun u =>
      u.fld (TSQTRAP_CAUSE t) = r.cause ∧ u.fld (TSQTRAP_IMPR t) = (if r.impr then 1 else 0) ∧ u.fld (TSQTRAP_PC t) = r.idx
        ∧ u.fld (TSQTRAP_CODE t) = r.code ∧ u.fld (TSQSTAT_STATE t) = stTrapped ∧ (u.tile t).trap = none
        ∧ (∃ more, u.reports = s.reports ++ [⟨halfOfTile t, 0x07, 2, srcOf 0 t, 0, r.cause + 32 * r.idx, s.now⟩] ++ more)
        ∧ (s.tile t).sameS (u.tile t) [] ∧ (s.tile t).sameA (u.tile t) [] ∧ (s.tile t).sameP (u.tile t) [] ∧ s.sameMem u
        ∧ s.sameTilesBut u t := by
  obtain ⟨p, hp⟩ : ∃ p, p = s.modTile t Tile.untrapped := ⟨_, rfl⟩
  obtain ⟨q, hq⟩ : ∃ q, q = p.trapShown t r := ⟨_, rfl⟩
  obtain ⟨u, hu'⟩ : ∃ u, u = (q.tileReport t 0x07 2 0 (r.cause + 32 * r.idx)).trapTold t := ⟨_, rfl⟩
  have hexec : exec (.trapped t) s = .next u := by rw [hu', hq, hp]; exact exec_trapped_drained htrap hdrained hwait hposted
  have hu : State.OnlyAbove (q.tileReport t 0x07 2 0 (r.cause + 32 * r.idx)) u := hu' ▸ State.onlyAbove_trapTold _ t
  have hset : State.OnlySet [aTSQTRAP t, aTSQSTAT t] p q := hq ▸ p.onlySet_trapShown t r
  have hshown := p.trapShown_fields t hcause hidx hcode
  rw [← hq] at hshown
  obtain ⟨hC, hI, hP, hD, hS⟩ := hshown
  have hlow : aTSQTRAP t < 0x020000000000 ∧ aTSQSTAT t < 0x020000000000 := by simp only [aTSQTRAP, aTSQSTAT]; omega
  have hfld : ∀ f : Fld, f.addr < 0x020000000000 → u.fld f = q.fld f := fun f hf => hu.fld hf
  have htile : ∀ k, u.tile k = p.tile k := fun k => (hu.tile k).trans (hset.tile k)
  have hkeeps : (s.tile t).Keeps (u.tile t) := by
    rw [htile, hp, State.tile_modTile_same]
    exact ⟨rfl, rfl, rfl, rfl, rfl, rfl⟩
  have hnow : q.now = s.now := by
    refine (hset.fld (f := TBTIME_TIME) ?_).trans (hp ▸ State.fld_modTile _ _ _ _)
    simp only [TBTIME_TIME, aTBTIME, List.mem_cons, List.not_mem_nil, or_false]
    omega
  obtain ⟨more, hmore⟩ := hu.reports
  have hreports : (q.tileReport t 0x07 2 0 (r.cause + 32 * r.idx)).reports =
      s.reports ++ [⟨halfOfTile t, 0x07, 2, srcOf 0 t, 0, r.cause + 32 * r.idx, s.now⟩] := by
    obtain ⟨⟨rs, hq⟩, -⟩ := hset
    rw [State.tileReport, State.report_reports, hnow, hq, hp]
    rfl
  have hmem : q.sameMem u := (State.sameMem_of_stores rfl rfl rfl : q.sameMem (q.tileReport t 0x07 2 0 (r.cause + 32 * r.idx))).trans hu.sameMem
  refine ⟨u, hexec, (hfld _ hlow.1).trans hC, (hfld _ hlow.1).trans hI, (hfld _ hlow.1).trans hP, (hfld _ hlow.1).trans hD, (hfld _ hlow.2).trans hS,
    by rw [htile, hp, State.tile_modTile_same]; rfl, ⟨more, by rw [hmore, hreports]⟩, hkeeps.sameS _, hkeeps.sameA _, hkeeps.sameP _,
    ((hp ▸ s.sameMem_modTile t ?_ : s.sameMem p).trans hset.sameMem).trans hmem, fun k hk => ?_⟩
  · exact ⟨fun _ => rfl, fun _ => rfl, fun _ => rfl⟩
  · rw [htile, hp, State.tile_modTile_other _ _ _ _ hk]

/-- Settles O8: the checks that a row meets at issue, and what TRAPPED records. -/
theorem issueChecksAndTraps : Obligations.IssueChecksAndTraps := by
  unfold Obligations.IssueChecksAndTraps
  refine ⟨fun r hr s t b hcan => ?issue,
    fun s t r ht htrap hdrained hwait hposted hcause hidx hcode => trapped_records ht htrap hdrained hwait hposted hcause hidx hcode⟩
  obtain ⟨regs, body, hexec⟩ := exec_plainRows hr t b s
  have htrap := State.canIssue_trap hcan
  refine ⟨fun hword hrsv => ⟨_, hexec, ?_⟩, fun hdue hno => ⟨_, hexec, ?_⟩, fun hpois hall holds => ⟨_, hexec, ?_⟩⟩
  · rw [State.issue_reserved hcan hword hrsv]
    exact State.raise_trapsHere htrap 1 0
  · rw [State.issue_skipped hdue hno]
    exact perform_fall_same s t
  · rw [State.issue_poisoned hcan hpois hall holds]
    exact State.raise_trapsHere htrap 5 0

end Sys2Proof.Proofs
end

section
/-! SUPPORT. Starting, stopping and marking tiles, and the checker test, and O16 (R146, R193, R202, R212, R457, R530). -/

namespace Sys2Proof.Machine

variable {s u : State} {t : Nat}

theorem State.windowPut_open (h : (s.tile t).marking = false) (a : Nat) (f : State → State) : s.windowPut t a f = f s := by
  rw [State.windowPut, h, if_neg Bool.false_ne_true]

/-! ## RUN (R146, R530) -/

@[simp] theorem State.partOfTile_setFld (s : State) (f : Fld) (v k : Nat) : (s.setFld f v).partOfTile k = s.partOfTile k := (rfl)

/-- A tile set running at an instruction. -/
def State.runningAt (s : State) (t start : Nat) : State :=
  ((s.setFld (TSQSTAT_STATE t) stRunning).setPc t start).setReg (aTBKWAIT t) 1

theorem State.tileGo_idle {start : Nat} (hst : s.fld (TSQSTAT_STATE t) = stIdle ∨ s.fld (TSQSTAT_STATE t) = stHalted)
    (hpart : (s.partOfTile t).isSome = true) (hopen : (s.tile t).marking = false) : s.tileGo t start = (s.runningAt t start).schedTile t := by
  rw [State.tileGo, if_pos ⟨hst, hpart, by rw [hopen]; rfl⟩]
  rfl

theorem State.onlySet_runningAt (s : State) (t start : Nat) : State.OnlySet [aTSQSTAT t, aTBKWAIT t] s (s.runningAt t start) :=
  (((State.OnlySet.refl _ s).setFld (f := TSQSTAT_STATE t) List.mem_cons_self _).setFld (f := TSQSTAT_PC t) List.mem_cons_self _).setReg
    (List.mem_cons_of_mem _ List.mem_cons_self) _

theorem State.runningAt_fields (s : State) (t : Nat) {start : Nat} (hstart : start < 8192) :
    (s.runningAt t start).fld (TSQSTAT_STATE t) = stRunning ∧ (s.runningAt t start).pc t = start := by
  have hother : aTSQSTAT t ≠ aTBKWAIT t := by simp only [aTSQSTAT, aTBKWAIT]; omega
  constructor
  · rw [State.runningAt, State.fld_setReg_other _ _ _ _ hother, State.setPc, State.fld_setFld_apart _ _ (by simp [Fld.apart, TSQSTAT_PC, TSQSTAT_STATE]),
      State.fld_setFld_same _ _ _ (by simp [TSQSTAT_STATE])]
    rfl
  · rw [State.pc, State.runningAt, State.fld_setReg_other _ _ _ _ hother, State.setPc, State.fld_setFld_same _ _ _ (by simp [TSQSTAT_PC]), TSQSTAT_PC,
      Nat.mod_eq_of_lt hstart]
    exact Nat.mod_eq_of_lt hstart

theorem State.onlySet_start (s : State) (t start : Nat) : State.OnlySet [aTSQCTL t] s (s.setFld (TSQCTL_START t) start) :=
  (State.OnlySet.refl _ s).setFld (f := TSQCTL_START t) List.mem_cons_self _

theorem State.start_keeps_state (s : State) (t start : Nat) :
    (s.setFld (TSQCTL_START t) start).fld (TSQSTAT_STATE t) = s.fld (TSQSTAT_STATE t) := by
  refine (s.onlySet_start t start).fld (f := TSQSTAT_STATE t) ?_
  simp only [TSQSTAT_STATE, aTSQSTAT, aTSQCTL, List.mem_cons, List.not_mem_nil, or_false]
  omega

theorem State.frozen_of_onlySet {l : List Nat} (h : State.OnlySet l s u) (hlow : ∀ a ∈ l, a < 0x020000000000) : u.frozen = s.frozen := by
  have hhalt : u.flag PHALT_HALTED = s.flag PHALT_HALTED :=
    State.flag_of_sameRegs h.2 fun hin => absurd (hlow _ hin) (by simp only [PHALT_HALTED, aPHALT]; omega)
  have hpark : u.flag PCTL_PARK = s.flag PCTL_PARK :=
    State.flag_of_sameRegs h.2 fun hin => absurd (hlow _ hin) (by simp only [PCTL_PARK, aPCTL]; omega)
  rw [State.frozen, State.halted, State.parked, hhalt, hpark]
  rfl

theorem State.frozen_start (s : State) (start : Nat) (ht : t < 2048) : (s.setFld (TSQCTL_START t) start).frozen = s.frozen :=
  State.frozen_of_onlySet (s.onlySet_start t start) (by simp only [aTSQCTL, List.mem_cons, List.not_mem_nil, or_false, forall_eq]; omega)

/-- RUN of a tile that may run starts it. -/
theorem exec_tsqctlRun_thawed {start : Nat} (ht : t < 2048) (hst : s.fld (TSQSTAT_STATE t) = stIdle ∨ s.fld (TSQSTAT_STATE t) = stHalted)
    (hpart : (s.partOfTile t).isSome = true) (hopen : (s.tile t).marking = false) (hfrozen : s.frozen = false) :
    exec (.tsqctlRun t start) s = .next (((s.setFld (TSQCTL_START t) start).runningAt t start).schedTile t) := by
  change Host.Outcome.next (s.windowPut t (aTSQCTL t) fun s => s.tileRun t start) = _
  rw [State.windowPut_open hopen, State.tileRun, State.frozen_start s start ht, hfrozen, if_neg Bool.false_ne_true,
    State.tileGo_idle (s := s.setFld _ _) (by rwa [State.start_keeps_state]) (by rwa [State.partOfTile_setFld]) (by rwa [State.tile_setFld])]

/-- START written, and the run left until the device is released. -/
def State.runLater (s : State) (t start : Nat) : State :=
  { s.setFld (TSQCTL_START t) start with halt := { s.halt with runs := s.halt.runs ++ [(t, start)] } }

theorem State.reg_runLater (s : State) (t start a : Nat) : (s.runLater t start).reg a = (s.setFld (TSQCTL_START t) start).reg a := by
  rw [State.runLater, State.reg, State.reg]
theorem State.tile_runLater (s : State) (t start k : Nat) : (s.runLater t start).tile k = s.tile k := by
  rw [State.runLater, State.tile, State.tile, State.setFld_tiles]
theorem State.halt_runLater (s : State) (t start : Nat) : (s.runLater t start).halt.runs = s.halt.runs ++ [(t, start)] := rfl

theorem State.sameRegs_runLater (s : State) (t start : Nat) : s.sameRegs (s.runLater t start) [aTSQCTL t] :=
  fun a ha => (s.reg_runLater t start a).trans ((s.onlySet_start t start).2 a ha)

/-- RUN while the device is halted waits. -/
theorem exec_tsqctlRun_frozen {start : Nat} (ht : t < 2048) (hopen : (s.tile t).marking = false) (hfrozen : s.frozen = true) :
    exec (.tsqctlRun t start) s = .next (s.runLater t start) := by
  change Host.Outcome.next (s.windowPut t (aTSQCTL t) fun s => s.tileRun t start) = _
  rw [State.windowPut_open hopen, State.tileRun, State.frozen_start s start ht, hfrozen, if_pos rfl, State.setFld_halt, State.runLater]

/-! ## STOP (R193) -/

/-- A tile that no longer waits, holds or fuses. -/
def Tile.idled (x : Tile) : Tile := { x with wait := none, held := none, fuse := none }

theorem Tile.keeps_idled (x : Tile) : x.Keeps x.idled := ⟨rfl, rfl, rfl, rfl, rfl, rfl⟩

/-- The state of a STOP before the tile shows HALTED. -/
def State.idledTile (s : State) (t : Nat) : State :=
  { s.modTile t Tile.idled with halt := { s.halt with tiles := s.halt.tiles.filter (· != t) } }

theorem exec_tsqctlStop_live (hst : s.fld (TSQSTAT_STATE t) ≠ stTrapped) (htrap : (s.tile t).trap = none) (hopen : (s.tile t).marking = false) :
    exec (.tsqctlStop t) s = .next ((s.idledTile t).haltedWith t 0xFFFF) := by
  change Host.Outcome.next (s.windowPut t (aTSQCTL t) fun s => s.tileStop t) = _
  rw [State.windowPut_open hopen, State.tileStop, if_neg (by simp [hst, htrap, hopen])]
  rfl

theorem State.idledTile_sameMem (s : State) (t : Nat) : s.sameMem (s.idledTile t) := s.sameMem_modTile t (s.tile t).keeps_idled.sameMem

/-! ## Marking and the checker test (R202, R212) -/

/-- A tile whose bank is marked unwritten, and takes writes again. -/
def Tile.marked (x : Tile) : Tile := { x with marking := false, bank := [] }

theorem exec_markingDone (hmark : (s.tile t).marking = true) (hhold : s.boot ≠ .hold) :
    exec (.markingDone t) s = .next (s.modTile t Tile.marked) := by
  change execMarkingDone t s = _
  rw [execMarkingDone, if_pos ⟨hmark, hhold⟩]
  rfl

/-- TFLIP as a write of v leaves its target and masks. -/
def State.flipTarget (s : State) (t v : Nat) : State :=
  ((s.setFld (TFLIP_ADDR t) (bitsOf v 0 21)).setFld (TFLIP_DMASK t) (bitsOf v 21 8)).setFld (TFLIP_CMASK t) (bitsOf v 29 5)

theorem State.onlySet_flipTarget (s : State) (t v : Nat) : State.OnlySet [aTFLIP t] s (s.flipTarget t v) :=
  (((State.OnlySet.refl _ s).setFld (f := TFLIP_ADDR t) List.mem_cons_self _).setFld (f := TFLIP_DMASK t) List.mem_cons_self _).setFld
    (f := TFLIP_CMASK t) List.mem_cons_self _

theorem State.onlySet_tflip (s : State) (t v : Nat) : State.OnlySet [aTFLIP t] s (s.tflip t v) := by
  unfold State.tflip
  split
  · exact (s.onlySet_flipTarget t v).setFld (f := TFLIP_PEND t) List.mem_cons_self _
  · exact s.onlySet_flipTarget t v

theorem exec_tflipArm (ht : t < 2048) (hopen : (s.tile t).marking = false) (v : BitVec 64) :
    exec (.tflipArm t v) s = .next (s.tflip t v.toNat) := by
  change execTflipArm t v s = _
  rw [execTflipArm, if_pos ht, State.windowPut_open hopen]

theorem State.tflip_target (s : State) (t v : Nat) :
    (s.tflip t v).fld (TFLIP_ADDR t) = bitsOf v 0 21 ∧ (s.tflip t v).fld (TFLIP_DMASK t) = bitsOf v 21 8
      ∧ (s.tflip t v).fld (TFLIP_CMASK t) = bitsOf v 29 5 := by
  unfold State.tflip
  split <;> simp [State.fld_setFld_apart, State.fld_setFld_same, Fld.apart, TFLIP_ADDR, TFLIP_DMASK, TFLIP_CMASK, TFLIP_PEND, bitsOf]

theorem State.tflip_pend (s : State) (t v : Nat) :
    (s.tflip t v).flag (TFLIP_PEND t) = (bitOf v 34 || s.flag (TFLIP_PEND t)) := by
  unfold State.tflip
  split <;> simp_all [State.flag_setFld_apart, State.flag_setFld_same, Fld.apart, TFLIP_ADDR, TFLIP_DMASK, TFLIP_CMASK, TFLIP_PEND]

/-- The byte that the armed checker test strikes. -/
def struckCode (s : State) (t v : Nat) : Code13 := codeWord v 0 ^^^ BitVec.ofNat 13 (s.fld (TFLIP_DMASK t) + 256 * s.fld (TFLIP_CMASK t))

theorem State.bankPut_armed {off : Nat} (hoff : off < s.scBase t ∨ 0x1F0000 ≤ off) (hpend : s.flag (TFLIP_PEND t) = true)
    (haddr : s.fld (TFLIP_ADDR t) = off) (v : Nat) :
    s.bankPut t off (v, false) =
      (s.modTile t fun x => { x with bank := SMap.set (fun _ => none) x.bank off (some (struckCode s t v)) }).setFld (TFLIP_PEND t) 0 := by
  have harmed : (s.flag (TFLIP_PEND t) && s.fld (TFLIP_ADDR t) == off && !(decide (s.scBase t ≤ off) && decide (off < 0x1F0000))) = true := by
    simp only [hpend, haddr, beq_self_eq_true, Bool.and_self, Bool.true_and, Bool.not_eq_true', Bool.and_eq_false_iff, decide_eq_false_iff_not]
    omega
  simp only [State.bankPut, harmed, if_true]
  rfl

end Sys2Proof.Machine

namespace Sys2Proof.Proofs
open Sys2Proof Sys2Proof.Machine

variable {s : State} {t : Nat}

theorem run_starts {start : Nat} (ht : t < 2048) (hstart : start < 8192)
    (hst : s.fld (TSQSTAT_STATE t) = stIdle ∨ s.fld (TSQSTAT_STATE t) = stHalted) (hpart : (s.partOfTile t).isSome = true)
    (hopen : (s.tile t).marking = false) (hfrozen : s.frozen = false) :
    Gives (exec (.tsqctlRun t start) s) fun u =>
      u.fld (TSQSTAT_STATE t) = stRunning ∧ u.pc t = start ∧ u.tile t = s.tile t ∧ s.sameMem u ∧ s.sameTilesBut u t := by
  have hexec := exec_tsqctlRun_thawed (start := start) ht hst hpart hopen hfrozen
  let w := s.setFld (TSQCTL_START t) start
  have hset : State.OnlySet [aTSQCTL t] s w := s.onlySet_start t start
  have hrun : State.OnlySet [aTSQSTAT t, aTBKWAIT t] w (w.runningAt t start) := w.onlySet_runningAt t start
  have hsched : State.OnlySched (w.runningAt t start) ((w.runningAt t start).schedTile t) := State.onlySched_schedTile _ t
  obtain ⟨hstate, hpc⟩ := w.runningAt_fields t hstart
  have htile : ∀ k, ((w.runningAt t start).schedTile t).tile k = s.tile k := fun k => (hsched.tile k).trans ((hrun.tile k).trans (hset.tile k))
  exact ⟨_, hexec, (hsched.fld (f := TSQSTAT_STATE t) (aTSQSTAT_lt ht)).trans hstate, (hsched.fld (f := TSQSTAT_PC t) (aTSQSTAT_lt ht)).trans hpc,
    htile t, (hset.sameMem.trans hrun.sameMem).trans hsched.sameMem, fun k _ => htile k⟩

theorem run_waits {start : Nat} (ht : t < 2048) (hopen : (s.tile t).marking = false) (hfrozen : s.frozen = true) :
    Gives (exec (.tsqctlRun t start) s) fun u =>
      u.fld (TSQSTAT_STATE t) = s.fld (TSQSTAT_STATE t) ∧ u.halt.runs = s.halt.runs ++ [(t, start)] ∧ u.tile t = s.tile t
        ∧ s.sameRegs u [aTSQCTL t] :=
  ⟨_, exec_tsqctlRun_frozen ht hopen hfrozen, (State.fld_of_reg (s.reg_runLater t start _)).trans (s.start_keeps_state t start),
    s.halt_runLater t start, s.tile_runLater t start t, s.sameRegs_runLater t start⟩

theorem stop_halts (ht : t < 2048) (hst : s.fld (TSQSTAT_STATE t) ≠ stTrapped) (htrap : (s.tile t).trap = none)
    (hopen : (s.tile t).marking = false) :
    Gives (exec (.tsqctlStop t) s) fun u =>
      u.fld (TSQSTAT_STATE t) = stHalted ∧ u.fld (TSQSTAT_HCODE t) = 0xFFFF ∧ u.pc t = s.pc t ∧ (u.tile t).wait = none
        ∧ (u.tile t).held = none ∧ sameWork t s u := by
  obtain ⟨hstate, hcode, hpc, htiles, -, -, -, hmem, -⟩ := (s.idledTile t).haltedWith_spec (code := 0xFFFF) ht (by norm_num)
  have htile : ((s.idledTile t).haltedWith t 0xFFFF).tile t = (s.tile t).idled := (htiles t).trans (State.tile_modTile_same s t _)
  have hkeeps : (s.tile t).Keeps (((s.idledTile t).haltedWith t 0xFFFF).tile t) := htile ▸ (s.tile t).keeps_idled
  exact ⟨_, exec_tsqctlStop_live hst htrap hopen, hstate, hcode, hpc, by rw [htile]; rfl, by rw [htile]; rfl, hkeeps.sameS _, hkeeps.sameA _,
    hkeeps.sameP _, (s.idledTile_sameMem t).trans hmem, fun k hk => (htiles k).trans (State.tile_modTile_other _ _ _ _ hk)⟩

theorem marking_leaves_unwritten (hmark : (s.tile t).marking = true) (hhold : s.boot ≠ .hold) :
    Gives (exec (.markingDone t) s) fun u =>
      (u.tile t).marking = false ∧ (∀ off, (u.tile t).classOf off = .unwritten) ∧ (∀ w, (u.tile t).accWord w = (s.tile t).accWord w)
        ∧ s.sameRegs u [] ∧ s.sameTilesBut u t := by
  refine ⟨_, exec_markingDone hmark hhold, ?_, fun off => ?_, fun w => ?_, fun _ _ => rfl, fun k hk => State.tile_modTile_other _ _ _ _ hk⟩
  all_goals rw [State.tile_modTile_same]; rfl

theorem tflip_arms (ht : t < 2048) (hopen : (s.tile t).marking = false) (v : BitVec 64) :
    Gives (exec (.tflipArm t v) s) fun u =>
      u.fld (TFLIP_ADDR t) = bitsOf v.toNat 0 21 ∧ u.fld (TFLIP_DMASK t) = bitsOf v.toNat 21 8 ∧ u.fld (TFLIP_CMASK t) = bitsOf v.toNat 29 5
        ∧ (bitOf v.toNat 34 = true → u.flag (TFLIP_PEND t) = true) ∧ (bitOf v.toNat 34 = false → u.flag (TFLIP_PEND t) = s.flag (TFLIP_PEND t))
        ∧ s.sameRegs u [aTFLIP t] ∧ ∀ k, u.tile k = s.tile k := by
  obtain ⟨haddr, hdata, hcheck⟩ := s.tflip_target t v.toNat
  have hset := s.onlySet_tflip t v.toNat
  exact ⟨_, exec_tflipArm ht hopen v, haddr, hdata, hcheck, fun h => by rw [State.tflip_pend, h, Bool.true_or],
    fun h => by rw [State.tflip_pend, h, Bool.false_or], hset.2, hset.tile⟩

theorem armed_write_is_struck {off v : Nat} (hoff : off < s.scBase t ∨ 0x1F0000 ≤ off) (hpend : s.flag (TFLIP_PEND t) = true)
    (haddr : s.fld (TFLIP_ADDR t) = off) :
    let u := s.bankPut t off (v, false)
    (u.tile t).code off = some (struckCode s t v) ∧ u.flag (TFLIP_PEND t) = false ∧ ∀ o, o ≠ off → (u.tile t).code o = (s.tile t).code o := by
  dsimp only
  rw [State.bankPut_armed hoff hpend haddr, State.tile_setFld, State.tile_modTile_same, State.flag_setFld_same _ _ _ (by simp [TFLIP_PEND])]
  simp only [Tile.code]
  exact ⟨SMap.get_set_same _ _ _ _, by simp, fun o ho => SMap.get_set_other _ _ _ _ _ ho⟩

/-- Settles O16: RUN and STOP, the end of a marking, and the checker test. -/
theorem tilesStartStopAndMark : Obligations.TilesStartStopAndMark := by
  unfold Obligations.TilesStartStopAndMark
  exact ⟨⟨fun s t start ht hstart hst hpart hopen => ⟨run_starts ht hstart hst hpart hopen, run_waits ht hopen⟩,
    fun s t ht hst htrap hopen => stop_halts ht hst htrap hopen⟩,
    fun s t hmark hhold => marking_leaves_unwritten hmark hhold, fun s t v ht hopen => tflip_arms ht hopen v,
    fun s t off v _ hoff hpend haddr => armed_write_is_struck hoff hpend haddr⟩

end Sys2Proof.Proofs
end

section
/-! SUPPORT. Waits of a tile, their ends and their timeouts, and O17 (R151, R165, R174, R178, R184, R188, R193). -/

namespace Sys2Proof.Machine

variable {s u : State} {t : Nat}

theorem sameWork_of_keeps {l : List Nat} (h : State.OnlyUnit t l s u) (hk : (s.tile t).Keeps (u.tile t)) : sameWork t s u :=
  ⟨hk.sameS _, hk.sameA _, hk.sameP _, h.sameMem hk.sameMem, h.1⟩

/-! ## SYNC rows that wait (R178) -/

theorem exec_waitRows {r : (Nat → BitVec 54 → Instr) × Nat × Nat × (BitVec 54 → List Nat) × (Tile → BitVec 54 → Wait)} (hr : r ∈ waitRows) (t : Nat)
    (b : BitVec 54) (s : State) :
    exec (r.1 t b) s = .next (s.issue t 7 r.2.1 b r.2.2.1 (r.2.2.2.1 b) noFuse fun s => .fall (s.waitFor t (r.2.2.2.2 (s.tile t) b))) := by
  simp only [waitRows, List.mem_cons, List.not_mem_nil, or_false] at hr
  obtain rfl | rfl | rfl | rfl | rfl := hr <;> rfl

theorem State.canIssue_waiting (h : (s.tile t).wait.isSome = true) : s.canIssue t = false := by
  have hwait : (s.tile t).wait.isNone = false := by rw [← Option.not_isSome, h]; rfl
  simp [State.canIssue, hwait]

theorem Tile.keeps_wait (x : Tile) (w : Option WaitRec) : x.Keeps { x with wait := w } := ⟨rfl, rfl, rfl, rfl, rfl, rfl⟩

/-- An instruction that makes its tile wait. -/
theorem State.perform_waitFor (s : State) (t : Nat) (w : Wait) :
    let u := s.perform t s (.fall (s.waitFor t w))
    (u.tile t).wait = some ⟨w, s.pc t⟩ ∧ u.canIssue t = false ∧ movesOn t s u ∧ scalarFrame t [] [] [] s u := by
  obtain ⟨hmoves, hframe, l, htile⟩ := State.perform_modTile (s := s) (t := t) (sd := []) (ad := []) (pd := [])
    (f := fun x => { x with wait := some ⟨w, s.pc t⟩ }) rfl ((Tile.keeps_wait _ _).leaves _ _ _)
  have hwait : ((s.perform t s (.fall (s.waitFor t w))).tile t).wait = some ⟨w, s.pc t⟩ := by rw [State.waitFor, htile]; rfl
  exact ⟨hwait, State.canIssue_waiting (by rw [hwait]; rfl), hmoves, hframe⟩

/-! ## Tokens (R177, R178) -/

theorem aTTOK_ne_aTSQSTAT (t k : Nat) : aTTOK t k ≠ aTSQSTAT t := by simp only [aTTOK, aTSQSTAT]; omega

theorem State.onlySet_tokAdd (s : State) (t k n : Nat) : State.OnlySet [aTSQSTAT t, aTTOK t k] s (s.tokAdd t k n) := by
  have htok : aTTOK t k ∈ [aTSQSTAT t, aTTOK t k] := List.mem_cons_of_mem _ List.mem_cons_self
  unfold State.tokAdd
  dsimp only
  split
  · exact ((State.OnlySet.refl _ s).setFld (f := TTOK_COUNT t k) htok _).setFld (f := TSQSTAT_TOKOVF t) List.mem_cons_self _
  · exact (State.OnlySet.refl _ s).setFld (f := TTOK_COUNT t k) htok _

/-- A token counts up to its largest value, and shows when it would pass it; the program counter stays. -/
theorem State.tokAdd_spec (s : State) (t k n : Nat) :
    (s.tokAdd t k n).fld (TTOK_COUNT t k) = min 65535 (s.fld (TTOK_COUNT t k) + n)
      ∧ (65535 < s.fld (TTOK_COUNT t k) + n → (s.tokAdd t k n).flag (TSQSTAT_TOKOVF t) = true) ∧ (s.tokAdd t k n).pc t = s.pc t := by
  have hne := aTTOK_ne_aTSQSTAT t k
  have htok : (TSQSTAT_TOKOVF t).apart (TTOK_COUNT t k) = true := by simp [Fld.apart, TSQSTAT_TOKOVF, TTOK_COUNT, hne.symm]
  have hpc : (TTOK_COUNT t k).apart (TSQSTAT_PC t) = true := by simp [Fld.apart, TSQSTAT_PC, TTOK_COUNT]
  have hpc' : (TSQSTAT_TOKOVF t).apart (TSQSTAT_PC t) = true := by simp [Fld.apart, TSQSTAT_PC, TSQSTAT_TOKOVF]
  have hwidth : (TTOK_COUNT t k).lo + (TTOK_COUNT t k).w ≤ 64 := by simp [TTOK_COUNT]
  have hmod : ∀ v < 65536, v % 2 ^ (TTOK_COUNT t k).w = v := fun v hv => Nat.mod_eq_of_lt (by simpa [TTOK_COUNT] using hv)
  unfold State.tokAdd
  dsimp only
  split
  · next hover =>
    refine ⟨?_, fun _ => ?_, ?_⟩
    · rw [State.orFld, State.fld_setFld_apart _ _ htok, State.fld_setFld_same _ _ _ hwidth, hmod _ (by norm_num), Nat.min_eq_left hover.le]
    · rw [State.orFld, State.flag_setFld_same _ _ _ (by simp [TSQSTAT_TOKOVF]), TSQSTAT_TOKOVF]
      simp
    · rw [State.pc, State.orFld, State.fld_setFld_apart _ _ hpc', State.fld_setFld_apart _ _ hpc]
      rfl
  · next hfits =>
    refine ⟨?_, fun hover => absurd hover hfits, State.fld_setFld_apart _ _ hpc⟩
    rw [State.fld_setFld_same _ _ _ hwidth, hmod _ (by omega), Nat.min_eq_right (Nat.le_of_not_lt hfits)]

/-- Moving on writes no field of TSQSTAT but PC. -/
theorem State.fld_advance (s : State) {t : Nat} {f : Fld} (hf : (TSQSTAT_PC t).apart f = true) : (s.advance t).fld f = s.fld f := by
  have hset : ∀ (v : State) n, (v.setPc t n).fld f = v.fld f := fun v n => State.fld_setFld_apart v _ hf
  unfold State.advance
  dsimp only
  split
  · exact hset _ _
  · split
    · rw [hset, State.fld_setTile]
    · rw [hset, State.fld_setTile]

theorem State.fld_perform_fall (s f s' : State) {t : Nat} {g : Fld} (hg : (TSQSTAT_PC t).apart g = true) : (s.perform t f (.fall s')).fld g = s'.fld g :=
  (State.fld_advance _ hg).trans (State.fld_modTile _ _ _ _)

/-! ## The end of a wait (R178, R188) -/

/-- A tile that waits no more. -/
def Tile.awake (x : Tile) : Tile := { x with wait := none }

theorem Tile.keeps_awake (x : Tile) : x.Keeps x.awake := ⟨rfl, rfl, rfl, rfl, rfl, rfl⟩

theorem exec_releaseOf (t : Nat) (w : Wait) (s : State) : ∃ f : Wait → Bool, f w = true ∧ exec (releaseOf t w) s = .next (s.release t f) := by
  cases w
  case fenceG => exact ⟨fun w => w == .fenceG, rfl, rfl⟩
  case fenceI => exact ⟨fun w => w == .fenceI, rfl, rfl⟩
  case tok => exact ⟨_, rfl, (rfl : execTokenWaitRelease t s = _)⟩
  case time => exact ⟨_, rfl, (rfl : execWaitTimeRelease t s = _)⟩
  case unit => exact ⟨_, rfl, (rfl : execWaitUnitRelease t s = _)⟩

theorem State.release_waiting {w : Wait} {i : Nat} (f : Wait → Bool) (hwait : (s.tile t).wait = some ⟨w, i⟩) (hover : s.waitOver t w = false) :
    s.release t f = s := by
  simp only [State.release, hwait, hover, Bool.and_false, Bool.false_eq_true, if_false]

/-- A tile woken in a state where only registers have changed. -/
theorem State.wake_spec {l : List Nat} {v : State} (h : State.OnlySet l s v) (hpc : v.pc t = s.pc t) :
    let u := v.modTile t Tile.awake
    (u.tile t).wait = none ∧ sameWork t s u ∧ u.pc t = s.pc t ∧ (u.tile t).olds = (s.tile t).olds ∧ s.sameRegs u l := by
  have htile : (v.modTile t Tile.awake).tile t = (s.tile t).awake := by rw [State.tile_modTile_same, h.tile]
  have honly : State.OnlyUnit t l s (v.modTile t Tile.awake) := (h.onlyUnit t).trans (v.onlyUnit_modTile t _ l)
  exact ⟨by rw [htile]; rfl, sameWork_of_keeps honly (htile ▸ (s.tile t).keeps_awake), (State.pc_modTile v t t _).trans hpc, by rw [htile]; rfl, honly.2.1⟩

theorem State.waitEnd_fenceG (hposted : (s.tile t).posted = []) : s.waitEnd t .fenceG = s.modTile t Tile.awake := by
  simp only [State.waitEnd, State.landAll, State.land_of_none hposted]
  rfl

theorem State.waitEnd_fenceI (s : State) (t : Nat) :
    s.waitEnd t .fenceI = (s.modTile t fun x => { x with olds := [] }).modTile t Tile.awake := rfl

theorem State.waitEnd_tok (s : State) (t k n : Nat) :
    s.waitEnd t (.tok k n) = (s.setFld (TTOK_COUNT t k) (s.fld (TTOK_COUNT t k) - n)).modTile t Tile.awake := rfl

/-- FENCE.I discards the words that a fetch might return, and nothing else changes. -/
theorem State.waitEnd_fenceI_spec (s : State) (t : Nat) :
    let u := s.waitEnd t .fenceI
    (u.tile t).wait = none ∧ sameWork t s u ∧ u.pc t = s.pc t ∧ (u.tile t).olds = [] ∧ s.sameRegs u [] := by
  have htile : (s.waitEnd t .fenceI).tile t = { (s.tile t).awake with olds := [] } := by
    rw [State.waitEnd_fenceI, State.tile_modTile_same, State.tile_modTile_same]
    rfl
  have honly : State.OnlyUnit t [] s (s.waitEnd t .fenceI) := (s.onlyUnit_modTile t _ []).trans (State.onlyUnit_modTile _ t _ [])
  have hpc : (s.waitEnd t .fenceI).pc t = s.pc t := by rw [State.waitEnd_fenceI, State.pc_modTile, State.pc_modTile]
  exact ⟨by rw [htile]; rfl, sameWork_of_keeps honly (htile ▸ ⟨rfl, rfl, rfl, rfl, rfl, rfl⟩), hpc, by rw [htile], honly.2.1⟩

/-- TOK.WAIT takes its count from the token, and nothing else changes. -/
theorem State.waitEnd_tok_spec {k n : Nat} (hle : n ≤ s.fld (TTOK_COUNT t k)) :
    let u := s.waitEnd t (.tok k n)
    (u.tile t).wait = none ∧ sameWork t s u ∧ u.pc t = s.pc t ∧ u.fld (TTOK_COUNT t k) + n = s.fld (TTOK_COUNT t k)
      ∧ s.sameRegs u [aTTOK t k] := by
  have hset : State.OnlySet [aTTOK t k] s (s.setFld (TTOK_COUNT t k) (s.fld (TTOK_COUNT t k) - n)) :=
    (State.OnlySet.refl _ s).setFld (f := TTOK_COUNT t k) List.mem_cons_self _
  have hapart : (TTOK_COUNT t k).apart (TSQSTAT_PC t) = true := by simp [Fld.apart, TSQSTAT_PC, TTOK_COUNT]
  have hlt : s.fld (TTOK_COUNT t k) < 2 ^ (TTOK_COUNT t k).w := Nat.mod_lt _ (Nat.two_pow_pos _)
  dsimp only
  rw [State.waitEnd_tok]
  obtain ⟨hwait, hwork, hpc, -, hregs⟩ := State.wake_spec (t := t) hset (State.fld_setFld_apart _ _ hapart)
  refine ⟨hwait, hwork, hpc, ?_, hregs⟩
  rw [State.fld_modTile, State.fld_setFld_same _ _ _ (by simp [TTOK_COUNT]), Nat.mod_eq_of_lt (by omega)]
  omega

/-! ## Timeouts (R165, R174, R184) -/

/-- What an imprecise or precise trap leaves in its tile: the first one found stands. -/
theorem State.raise_tile (s : State) (t cause : Nat) (impr : Bool) (idx code : Nat) :
    (s.raise t cause impr idx code).tile t =
      { s.tile t with trap := some ((s.tile t).trap.getD ⟨cause, impr, idx, code, if impr then s.pc t else idx⟩) } := by
  rw [State.raise, State.tile_modTile_same]
  cases h : (s.tile t).trap with
  | none => rfl
  | some r =>
    rw [Option.isSome_some, if_pos rfl, Option.getD_some, ← h]

/-- A trap found at a tile after a change that its program does not see. -/
theorem State.raise_spec {v : State} (hv : State.OnlyUnit t [] s v) (hk : (s.tile t).Keeps (v.tile t)) (cause : Nat) (impr : Bool) (idx code : Nat) :
    let u := v.raise t cause impr idx code
    u.tile t = { v.tile t with trap := some ((v.tile t).trap.getD ⟨cause, impr, idx, code, if impr then s.pc t else idx⟩) }
      ∧ sameWork t s u ∧ s.sameRegs u [] := by
  have hpc : v.pc t = s.pc t := State.fld_of_sameRegs hv.2.1 List.not_mem_nil
  have htile := v.raise_tile t cause impr idx code
  have honly : State.OnlyUnit t [] s (v.raise t cause impr idx code) := hv.trans (v.onlyUnit_modTile t _ [])
  obtain ⟨hs, ha, hp, hbank, hacc, hpois⟩ := hk
  exact ⟨by rw [htile, hpc], sameWork_of_keeps honly (htile ▸ ⟨hs, ha, hp, hbank, hacc, hpois⟩), honly.2.1⟩

theorem exec_waitTimeout_fence {w : Wait} {i : Nat} (hkind : w = .fenceG ∨ ∃ k n, w = .tok k n) (hwait : (s.tile t).wait = some ⟨w, i⟩)
    (hlive : s.tileLive t = true) (hover : s.waitOver t w = false) :
    exec (.waitTimeout t false) s = .next ((s.modTile t Tile.awake).raise t 7 false i 0) := by
  change execWaitTimeout t false s = _
  obtain rfl | ⟨k, n, rfl⟩ := hkind
  all_goals
    simp only [execWaitTimeout, hlive, hwait, hover, Bool.not_true, Bool.false_eq_true, if_false]
    rfl

theorem exec_waitTimeout_regs {i : Nat} {rs : List Nat} (hwait : (s.tile t).wait = none) (hheld : (s.tile t).held = some ⟨i, .regs rs⟩)
    (hlive : s.tileLive t = true) (hregs : ∃ r ∈ rs, r ∈ (s.tile t).opRegs) :
    exec (.waitTimeout t false) s = .next (s.raise t 7 false i 0) := by
  have hstands : s.holdStands t (.regs rs) = true := by simpa [State.holdStands] using hregs
  change execWaitTimeout t false s = _
  simp only [execWaitTimeout, hlive, hwait, hheld, hstands, Bool.not_true, Bool.false_eq_true, if_false, if_true]

theorem exec_waitTimeout_chain {a src spn inc loc out tok idx : Nat} {rest : List VJob}
    (hvq : (s.tile t).vq = .chain a src spn inc loc out tok idx false :: rest) (hlive : s.tileLive t = true) (hnone : s.fld (TTOK_COUNT t tok) = 0) :
    exec (.waitTimeout t true) s = .next ((s.modTile t fun x => { x with vq := rest }).raise t 7 true idx 0) := by
  change execWaitTimeout t true s = _
  simp only [execWaitTimeout, hlive, hvq, hnone, Bool.not_true, Bool.false_eq_true, if_false, if_true]
  rfl

end Sys2Proof.Machine

namespace Sys2Proof.Proofs
open Sys2Proof Sys2Proof.Machine

variable {s : State} {t : Nat} {b : BitVec 54}

theorem tokAdd_adds (hi : s.issues t 7 3 b (rsvOut [(49, 45), (15, 0)]) [] = true) :
    Gives (exec (.tokAdd t b) s) fun u =>
      u.fld (TTOK_COUNT t (fb b 45 5)) = min 65535 (s.fld (TTOK_COUNT t (fb b 45 5)) + fb b 0 16)
        ∧ (65535 < s.fld (TTOK_COUNT t (fb b 45 5)) + fb b 0 16 → u.flag (TSQSTAT_TOKOVF t) = true)
        ∧ movesOn t s u ∧ sameWork t s u ∧ s.sameRegs u [aTSQSTAT t, aTTOK t (fb b 45 5)] := by
  obtain ⟨hcount, hover, hpc⟩ := s.tokAdd_spec t (fb b 45 5) (fb b 0 16)
  have hset := s.onlySet_tokAdd t (fb b 45 5) (fb b 0 16)
  have hstat : aTSQSTAT t ∈ [aTSQSTAT t, aTTOK t (fb b 45 5)] := List.mem_cons_self
  have htok : (TTOK_COUNT t (fb b 45 5)).addr ∉ [aTSQSTAT t] := by simpa [TTOK_COUNT] using aTTOK_ne_aTSQSTAT t _
  refine Gives.of_issue hi rfl ?_
  obtain ⟨hmoves, honly, l, htile⟩ := State.perform_fall (s := s) (t := t) (s' := s.tokAdd t (fb b 45 5) (fb b 0 16)) s hpc (by rw [hset.tile])
  rw [hset.tile] at htile
  have hunit := (hset.onlyUnit t).trans (honly.onlyUnit.mono fun _ h => List.mem_singleton.mp h ▸ hstat)
  refine ⟨(State.fld_of_sameRegs honly.onlyUnit.2.1 htok).trans hcount, fun h => ?_, hmoves,
    sameWork_of_keeps hunit (htile ▸ Tile.keeps_issued _ _), hunit.2.1⟩
  have hovf : (TSQSTAT_PC t).apart (TSQSTAT_TOKOVF t) = true := by simp [Fld.apart, TSQSTAT_PC, TSQSTAT_TOKOVF]
  rw [State.flag_of_fld (State.fld_perform_fall s s _ hovf)]
  exact hover h

theorem tokRd_reads (hi : s.issues t 7 4 b (rsvOut [(49, 45), (44, 40)]) [fb b 40 5] = true) :
    Gives (exec (.tokRd t b) s) fun u =>
      (u.tile t).sreg (fb b 40 5) = BitVec.ofNat 64 (s.fld (TTOK_COUNT t (fb b 45 5))) ∧ movesOn t s u ∧ scalarFrame t [fb b 40 5] [] [] s u :=
  Gives.of_issue hi rfl (State.perform_setS s t _ _)

theorem release_ends {w : Wait} {i : Nat} (hwait : (s.tile t).wait = some ⟨w, i⟩) (hlive : s.tileLive t = true) (hfrozen : s.frozen = false)
    (hover : s.waitOver t w = true) : exec (releaseOf t w) s = .next (s.waitEnd t w) := by
  obtain ⟨f, hf, hexec⟩ := exec_releaseOf t w s
  rw [hexec, State.release_over hwait hf hlive hfrozen hover]

theorem release_changes_nothing {w : Wait} {i : Nat} (hwait : (s.tile t).wait = some ⟨w, i⟩) (hover : s.waitOver t w = false) :
    exec (releaseOf t w) s = .next s := by
  obtain ⟨f, -, hexec⟩ := exec_releaseOf t w s
  rw [hexec, State.release_waiting f hwait hover]

/-- Settles O17: SYNC instructions that wait or read tokens, the ends of waits, and their timeouts. -/
theorem waitsOfATile : Obligations.WaitsOfATile := by
  unfold Obligations.WaitsOfATile
  refine ⟨⟨fun r hr s t b hi => ?rows, fun s t b hi => tokAdd_adds hi, fun s t b hi => tokRd_reads hi⟩,
    fun s t i w hwait hlive hfrozen => ⟨fun hover hposted => ?ends, release_changes_nothing hwait⟩,
    fun s t i w hkind hwait htrap hlive hover => ?fence, fun s t i rs hwait hheld htrap hlive hregs => ?regs,
    fun s t a src spn inc loc out tok idx rest hvq hlive hnone => ?chain⟩
  case rows => exact Gives.of_issue hi (exec_waitRows hr t b s) (State.perform_waitFor s t _)
  case ends =>
    refine ⟨_, release_ends hwait hlive hfrozen hover, ?_⟩
    cases w with
    | fenceG =>
      rw [State.waitEnd_fenceG (hposted rfl)]
      exact State.wake_spec (State.OnlySet.refl [] s) rfl
    | fenceI => exact s.waitEnd_fenceI_spec t
    | tok k n => exact State.waitEnd_tok_spec (of_decide_eq_true hover)
    | time T => exact State.wake_spec (State.OnlySet.refl [] s) rfl
    | unit m => exact State.wake_spec (State.OnlySet.refl [] s) rfl
  case fence =>
    obtain ⟨htile, hwork, hregs⟩ := State.raise_spec (s.onlyUnit_modTile t Tile.awake []) (by rw [State.tile_modTile_same]; exact (s.tile t).keeps_awake)
      7 false i 0
    rw [State.tile_modTile_same] at htile
    refine ⟨_, exec_waitTimeout_fence hkind hwait hlive hover, ?_, ?_, hwork, hregs⟩
    · rw [htile]; rfl
    · rw [htile, Tile.awake, htrap]; rfl
  case regs =>
    obtain ⟨htile, hwork, hregs'⟩ := State.raise_spec ((State.OnlySet.refl [] s).onlyUnit t) (Tile.Keeps.refl _) 7 false i 0
    exact ⟨_, exec_waitTimeout_regs hwait hheld hlive hregs, by rw [htile, htrap]; rfl, hwork, hregs'⟩
  case chain =>
    obtain ⟨htile, hwork, hregs⟩ := State.raise_spec (s.onlyUnit_modTile t (fun x => { x with vq := rest }) [])
      (by rw [State.tile_modTile_same]; exact ⟨rfl, rfl, rfl, rfl, rfl, rfl⟩) 7 true idx 0
    rw [State.tile_modTile_same] at htile
    exact ⟨_, exec_waitTimeout_chain hvq hlive hnone, by rw [htile], by rw [htile]; rfl, hwork, hregs⟩

end Sys2Proof.Proofs
end

section
/-! SUPPORT. Mailbox instructions and operations, and O21 (R179, R180). -/

namespace Sys2Proof.Machine

variable {s u : State} {t : Nat} {b : BitVec 54}

/-! ## At issue (R179) -/

theorem exec_mbxRows {r : (Nat → BitVec 54 → Instr) × Nat × Nat × Nat × (BitVec 54 → List Nat) × (Tile → BitVec 54 → Nat × BitVec 64 × BitVec 64)}
    (hr : r ∈ mbxRows) (t : Nat) (b : BitVec 54) (s : State) :
    exec (r.1 t b) s = .next (s.issue t 8 r.2.1 b r.2.2.2.1 (r.2.2.2.2.1 b) noFuse fun s =>
      mbxIssue t r.2.2.1 ((s.tile t).areg (fb b 46 4)).toNat (r.2.2.2.2.2 (s.tile t) b).1 (r.2.2.2.2.2 (s.tile t) b).2.1
        (r.2.2.2.2.2 (s.tile t) b).2.2 s) := by
  simp only [mbxRows, List.mem_cons, List.not_mem_nil, or_false] at hr
  obtain rfl | rfl | rfl | rfl := hr <;> rfl

/-- A mailbox operation becomes the tile's one operation. -/
def State.putMbx (s : State) (t : Nat) (m : MbxOp) : State := s.modTile t fun x => { x with mbx := some m }

theorem Tile.keeps_mbx (x : Tile) (m : Option MbxOp) : x.Keeps { x with mbx := m } := ⟨rfl, rfl, rfl, rfl, rfl, rfl⟩

theorem State.perform_putMbx (s : State) (t : Nat) (m : MbxOp) :
    let u := s.perform t s (.fall (s.putMbx t m))
    (u.tile t).mbx = some m ∧ movesOn t s u ∧ scalarFrame t [] [] [] s u := by
  obtain ⟨hmoves, hframe, l, htile⟩ := State.perform_modTile (s := s) (t := t) (sd := []) (ad := []) (pd := [])
    (f := fun x => { x with mbx := some m }) rfl ((Tile.keeps_mbx _ _).leaves _ _ _)
  exact ⟨by rw [State.putMbx, htile]; rfl, hmoves, hframe⟩

section
variable {op a sd : Nat} {sv cv : BitVec 64} (hsig : (s.tile t).sig = none) (hpend : s.mboxPend t = false) (hlocal : s.isLocal a = true)
include hsig hpend hlocal

theorem mbxIssue_local (hmay : s.tileMay t a 8 = true) (hbox : (mboxAt (addrDev a)).isSome = true) :
    mbxIssue t op a sd sv cv s = .fall (s.putMbx t ⟨op, a, sd, sv, cv, s.pc t, false, none⟩) := by
  have hbox' : (mboxAt (addrDev a)).isNone = false := by rw [← Option.not_isSome, hbox]; rfl
  simp only [mbxIssue, hsig, hpend, hlocal, hmay, hbox', Option.isSome_none, Bool.or_self, Bool.not_true, Bool.false_and, Bool.false_or,
    Bool.false_eq_true, if_false, if_true]
  rfl

section
variable (hbad : s.tileMay t a 8 = false ∨ mboxAt (addrDev a) = none)
include hbad

theorem mbxIssue_bad_store : mbxIssue t 0 a sd sv cv s = .trap 3 0 := by
  have hbad' : (!s.tileMay t a 8 || (mboxAt (addrDev a)).isNone) = true := by
    obtain h | h := hbad <;> simp [h]
  simp [mbxIssue, hsig, hpend, hlocal, hbad']

theorem mbxIssue_bad (hop : op ≠ 0) :
    mbxIssue t op a sd sv cv s = .fall (s.putMbx t ⟨op, a, sd, sv, cv, s.pc t, true, none⟩) := by
  have hbad' : (!s.tileMay t a 8 || (mboxAt (addrDev a)).isNone) = true := by
    obtain h | h := hbad <;> simp [h]
  have hop' : (op == 0) = false := beq_false_of_ne hop
  simp only [mbxIssue, hsig, hpend, hlocal, hbad', hop', Option.isSome_none, Bool.or_self, Bool.and_false, Bool.false_eq_true, if_false,
    if_true]
  rfl

end
end

/-! ## Its result (R180) -/

/-- The tile's mailbox operation is over. -/
def State.mbxDone (s : State) (t : Nat) : State := s.modTile t fun x => { x with mbx := none }

/-- What a mailbox operation does to its word; no other register changes. -/
theorem State.mboxOp_spec (s : State) (k i op : Nat) (sv cv : BitVec 64) :
    (s.mboxOp k i op sv cv).2.reg (aTMBX k i) = mbxNew op (s.reg (aTMBX k i)) sv cv
      ∧ State.OnlySet [aTMBX k i] s (s.mboxOp k i op sv cv).2 := by
  unfold State.mboxOp
  dsimp only
  split
  · next h => subst h; exact ⟨rfl, State.OnlySet.refl _ s⟩
  · exact ⟨State.reg_setReg_same _ _ _, (State.OnlySet.refl _ s).setReg List.mem_cons_self _⟩

theorem State.tile_dropReads (s : State) (l : List Nat) (k : Nat) : (s.dropReads l).tile k = s.tile k := rfl

theorem State.onlyUnit_dropReads (s : State) (t : Nat) (l : List Nat) : State.OnlyUnit t [] s (s.dropReads l) :=
  ⟨fun _ _ => rfl, fun _ _ => rfl, by simp [State.sameRest, State.dropReads]⟩

/-- A tile's register takes a mailbox word's old value as its operation ends. -/
theorem State.takeOld_spec {l : List Nat} {v : State} (h : State.OnlyUnit t l s v) (htile : v.tile t = { s.tile t with mbx := none }) (sd : Nat)
    (val : BitVec 64) :
    let u := v.modTile t fun x => x.setS sd val
    (u.tile t).mbx = none ∧ (u.tile t).sreg sd = val ∧ (s.tile t).sameS (u.tile t) [sd] ∧ s.sameRegs u l ∧ s.sameMem u ∧ s.sameTilesBut u t := by
  have hput : (v.modTile t fun x => x.setS sd val).tile t = ({ s.tile t with mbx := none } : Tile).setS sd val := by
    rw [State.tile_modTile_same, htile]
  have honly := h.trans (v.onlyUnit_modTile t (fun x => x.setS sd val) l)
  have hmem : (s.tile t).sameMem ((v.modTile t fun x => x.setS sd val).tile t) := by
    rw [hput]
    exact ⟨fun _ => rfl, fun _ => rfl, fun _ => rfl⟩
  refine ⟨by rw [hput]; rfl, by rw [hput, Tile.sreg_setS_same], ?_, honly.2.1, honly.sameMem hmem, honly.1⟩
  rw [hput]
  exact fun i hi => Tile.sreg_setS_other _ _ fun h => hi (List.mem_singleton.mpr h)

theorem exec_mailboxResult_local {m : MbxOp} {k i : Nat} (hmbx : (s.tile t).mbx = some m) (hrid : m.rid = none) (hbad : m.bad = false)
    (hbox : mboxAt (addrDev m.addr) = some (k, i)) (hopen : m.op = 1 ∨ (s.tile k).marking = false) :
    exec (.mailboxResult t) s = .next (if m.op = 0 then (s.mboxOp k i m.op m.sv m.cv).2.mbxDone t
      else ((s.mboxOp k i m.op m.sv m.cv).2.mbxDone t).modTile t fun x => x.setS m.sd (s.reg (aTMBX k i))) := by
  have hopen' : ¬(m.op ≠ 1 ∧ (s.tile k).marking = true) := by
    rintro ⟨hop, hmark⟩
    obtain h | h := hopen
    · exact hop h
    · rw [h] at hmark; exact Bool.false_ne_true hmark
  change execMailboxResult t s = _
  simp only [execMailboxResult, hmbx, hbad, hrid, hbox, if_neg hopen', Bool.false_eq_true, if_false]
  rfl

theorem exec_mailboxResult_bad {m : MbxOp} (hmbx : (s.tile t).mbx = some m) (hbad : m.bad = true) :
    exec (.mailboxResult t) s = .next ((s.mbxDone t).raise t 3 true m.idx 0) := by
  change execMailboxResult t s = _
  simp only [execMailboxResult, hmbx, hbad, if_true]
  rfl

theorem exec_mailboxResult_far {m : MbxOp} {id : Nat} {q : FarRead} (hmbx : (s.tile t).mbx = some m) (hbad : m.bad = false) (hrid : m.rid = some id)
    (hop : m.op ≠ 0) (hq : s.readOf id = some q) (hst : q.st = 1) (hcst : q.cst = 0) :
    exec (.mailboxResult t) s =
      .next (((s.mbxDone t).dropReads [id]).modTile t fun x => x.setS m.sd (BitVec.ofNat 64 (valOf q.bytes))) := by
  change execMailboxResult t s = _
  simp only [execMailboxResult, hmbx, hbad, hrid, hq, hst, hcst, if_neg hop, Bool.false_eq_true, if_false, and_self, if_true, Nat.one_ne_zero]
  rfl

theorem exec_mailboxAccess {i : Nat} {w : Bool} (v : BitVec 64) (ht : t < 2048) (hi : i < 16) (hopen : w = true → (s.tile t).marking = false) :
    exec (.mailboxAccess t i w v) s = .next (s.mboxOp t i (if w then 0 else 1) (if w then v else 0) 0).2 := by
  change execMailboxAccess t i w v s = _
  cases w with
  | false => simp only [execMailboxAccess, ht, hi, and_self, if_true, Bool.false_eq_true, if_false, State.mboxOp]
  | true => simp only [execMailboxAccess, ht, hi, and_self, if_true, State.windowPut_open (hopen rfl)]

end Sys2Proof.Machine

namespace Sys2Proof.Proofs
open Sys2Proof Sys2Proof.Machine

variable {s : State} {t : Nat}

theorem mailboxResult_local {m : MbxOp} {k i : Nat} (hmbx : (s.tile t).mbx = some m) (hrid : m.rid = none) (hbad : m.bad = false)
    (hbox : mboxAt (addrDev m.addr) = some (k, i)) (hopen : m.op = 1 ∨ (s.tile k).marking = false) :
    Gives (exec (.mailboxResult t) s) fun u =>
      u.reg (aTMBX k i) = mbxNew m.op (s.reg (aTMBX k i)) m.sv m.cv ∧ (u.tile t).mbx = none
        ∧ (m.op = 0 → (s.tile t).sameS (u.tile t) [])
        ∧ (m.op ≠ 0 → (u.tile t).sreg m.sd = s.reg (aTMBX k i) ∧ (s.tile t).sameS (u.tile t) [m.sd])
        ∧ s.sameRegs u [aTMBX k i] ∧ s.sameMem u ∧ s.sameTilesBut u t := by
  obtain ⟨hword, hset⟩ := s.mboxOp_spec k i m.op m.sv m.cv
  obtain ⟨v, hv⟩ : ∃ v, v = (s.mboxOp k i m.op m.sv m.cv).2.mbxDone t := ⟨_, rfl⟩
  have hexec := exec_mailboxResult_local hmbx hrid hbad hbox hopen
  have htile : v.tile t = { s.tile t with mbx := none } := by rw [hv, State.mbxDone, State.tile_modTile_same, hset.tile]
  have honly : State.OnlyUnit t [aTMBX k i] s v := hv ▸ (hset.onlyUnit t).trans (State.onlyUnit_modTile _ t _ _)
  have hreg : v.reg (aTMBX k i) = mbxNew m.op (s.reg (aTMBX k i)) m.sv m.cv := by rw [← hword, hv]; rfl
  rw [← hv] at hexec
  by_cases hop : m.op = 0
  · have hkeeps : (s.tile t).Keeps (v.tile t) := htile ▸ Tile.keeps_mbx _ none
    exact ⟨v, by rw [hexec, if_pos hop], hreg, by rw [htile], fun _ => hkeeps.sameS _, fun h => absurd hop h, honly.2.1, honly.sameMem hkeeps.sameMem,
      honly.1⟩
  · obtain ⟨hnone, hsd, hs, hregs, hmem, htiles⟩ := State.takeOld_spec honly htile m.sd (s.reg (aTMBX k i))
    exact ⟨v.modTile t fun x => x.setS m.sd (s.reg (aTMBX k i)), by rw [hexec, if_neg hop], hreg, hnone, fun h => absurd h hop, fun _ => ⟨hsd, hs⟩, hregs, hmem, htiles⟩

theorem mailboxResult_bad {m : MbxOp} (hmbx : (s.tile t).mbx = some m) (hbad : m.bad = true) (htrap : (s.tile t).trap = none) :
    Gives (exec (.mailboxResult t) s) fun u =>
      (u.tile t).mbx = none ∧ (u.tile t).trap = some ⟨3, true, m.idx, 0, s.pc t⟩ ∧ sameWork t s u ∧ s.sameRegs u [] := by
  obtain ⟨htile, hwork, hregs⟩ := State.raise_spec (v := s.mbxDone t) (s.onlyUnit_modTile t _ [])
    (by rw [State.mbxDone, State.tile_modTile_same]; exact Tile.keeps_mbx _ none) 3 true m.idx 0
  rw [State.mbxDone, State.tile_modTile_same] at htile
  exact ⟨_, exec_mailboxResult_bad hmbx hbad, by rw [State.mbxDone, htile], by rw [State.mbxDone, htile, htrap]; rfl, hwork, hregs⟩

theorem mailboxResult_far {m : MbxOp} {id : Nat} {q : FarRead} (hmbx : (s.tile t).mbx = some m) (hbad : m.bad = false) (hrid : m.rid = some id)
    (hop : m.op ≠ 0) (hq : s.readOf id = some q) (hst : q.st = 1) (hcst : q.cst = 0) :
    Gives (exec (.mailboxResult t) s) fun u =>
      (u.tile t).mbx = none ∧ (u.tile t).sreg m.sd = BitVec.ofNat 64 (valOf q.bytes) ∧ (s.tile t).sameS (u.tile t) [m.sd] ∧ s.sameRegs u []
        ∧ s.sameMem u ∧ s.sameTilesBut u t := by
  have honly : State.OnlyUnit t [] s ((s.mbxDone t).dropReads [id]) := (s.onlyUnit_modTile t _ []).trans (State.onlyUnit_dropReads _ t _)
  have htile : ((s.mbxDone t).dropReads [id]).tile t = { s.tile t with mbx := none } :=
    (State.tile_dropReads _ _ _).trans (State.tile_modTile_same s t _)
  exact ⟨_, exec_mailboxResult_far hmbx hbad hrid hop hq hst hcst,
    State.takeOld_spec honly htile m.sd _⟩

theorem mailboxAccess_spec {i : Nat} {w : Bool} (v : BitVec 64) (ht : t < 2048) (hi : i < 16) (hopen : w = true → (s.tile t).marking = false) :
    Gives (exec (.mailboxAccess t i w v) s) fun u =>
      u.reg (aTMBX t i) = (if w then v else s.reg (aTMBX t i)) ∧ s.sameRegs u [aTMBX t i] ∧ ∀ k, u.tile k = s.tile k := by
  obtain ⟨hword, hset⟩ := s.mboxOp_spec t i (if w then 0 else 1) (if w then v else 0) 0
  refine ⟨_, exec_mailboxAccess v ht hi hopen, hword.trans ?_, hset.2, hset.tile⟩
  cases w <;> rfl

/-- Settles O21: mailbox instructions at issue, their results, and plain accesses to a mailbox word. -/
theorem mailboxOperations : Obligations.MailboxOperations := by
  unfold Obligations.MailboxOperations
  refine ⟨fun r hr s t b hi hsig hpend => ?issue,
    fun s t k i m hmbx hrid hbad hbox hopen => mailboxResult_local hmbx hrid hbad hbox hopen,
    fun s t m hmbx hbad htrap => mailboxResult_bad hmbx hbad htrap,
    fun s t id m q hmbx hbad hrid hop hq hst hcst => mailboxResult_far hmbx hbad hrid hop hq hst hcst,
    fun s t i w v ht hi hopen => mailboxAccess_spec v ht hi hopen⟩
  intro a f hlocal
  refine ⟨fun hmay hbox => ?here, fun hbad => ⟨fun hop => ?store, fun hop => ?late⟩⟩
  all_goals refine Gives.of_issue hi (exec_mbxRows hr t b s) ?_
  case here =>
    rw [mbxIssue_local hsig hpend hlocal hmay hbox]
    exact State.perform_putMbx s t _
  case store =>
    rw [hop, mbxIssue_bad_store hsig hpend hlocal hbad]
    exact State.issues_trapsHere hi 3 0
  case late =>
    rw [mbxIssue_bad hsig hpend hlocal hbad hop]
    obtain ⟨hmbx, hmoves, hframe⟩ := State.perform_putMbx s t ⟨r.2.2.1, a, f.1, f.2.1, f.2.2, s.pc t, true, none⟩
    exact ⟨⟨_, hmbx, rfl, rfl⟩, hmoves, hframe⟩

end Sys2Proof.Proofs
end

section
/-! SUPPORT. SIG.BAR and SIG.RED at issue, and O18 (R179, R285, R287, R312). -/

namespace Sys2Proof.Machine

variable {s u : State} {t g : Nat} {b : BitVec 54}

/-! ## Joining a group's operation (R287) -/

/-- A group's pending operation stands, in a state that differs from s only in the group and its tile. -/
def State.inOp (s : State) (g : Nat) (p : SigPend) : State := s.modGrp g fun q => { q with pend := some p }

theorem State.pend_inOp (s : State) (g : Nat) (p : SigPend) : ((s.inOp g p).grp g).pend = some p := by
  rw [State.inOp, State.grp_modGrp_same]

theorem State.tile_inOp (s : State) (g : Nat) (p : SigPend) (k : Nat) : (s.inOp g p).tile k = s.tile k := rfl

theorem State.sameMem_inOp (s : State) (g : Nat) (p : SigPend) : s.sameMem (s.inOp g p) := State.sameMem_of_stores rfl rfl rfl

/-- Whether the group had an operation or not, the one that an instruction joins is then pending. -/
theorem State.sigOpen_pend (s : State) (g : Nat) (bar : Bool) (opk : Nat) (w64 : Bool) :
    ((s.sigOpen g bar opk w64).grp g).pend = some (s.pendOr g bar opk w64) := by
  cases h : (s.grp g).pend <;> simp [State.sigOpen, State.pendOr, h]

/-- Opening and joining an operation writes the group's record once. -/
theorem State.sigOpen_join (s : State) (g : Nat) (bar : Bool) (opk : Nat) (w64 : Bool) (p : SigPend) :
    (s.sigOpen g bar opk w64).inOp g p = s.inOp g p := by
  unfold State.sigOpen
  split
  · rfl
  · simp only [State.inOp, State.modGrp, State.grp, SMap.get_set_same, SMap.set_set]

/-- An operation that is not complete waits. -/
theorem State.sigAdvance_due {p : SigPend} (hp : (s.grp g).pend = some p) (hdue : (p.localIn && p.kidsIn) = false) : s.sigAdvance g = (none, s) := by
  have hdue' : p.up = true ∨ (!p.localIn) = true ∨ (!p.kidsIn) = true := by
    rw [Bool.and_eq_false_iff] at hdue
    obtain h | h := hdue <;> simp [h]
  simp only [State.sigAdvance, hp, if_pos hdue']

theorem State.sigJoin_due {bar : Bool} {opk v : Nat} {w64 : Bool} (hagrees : (s.pendOr g bar opk w64).agrees bar opk w64 = true)
    (hdue : (((s.pendOr g bar opk w64).joined t v s.detm).localIn && ((s.pendOr g bar opk w64).joined t v s.detm).kidsIn) = false) :
    s.sigJoin g t bar opk w64 v = (none, s.inOp g ((s.pendOr g bar opk w64).joined t v s.detm)) := by
  have hdetm : (s.sigOpen g bar opk w64).detm = s.detm := by unfold State.sigOpen; split <;> rfl
  simp only [State.sigJoin, State.sigOpen_pend, hagrees, if_true, hdetm]
  refine (State.sigAdvance_due (State.pend_inOp _ _ _) hdue).trans ?_
  rw [State.sigOpen_join]

/-- With no record held, nothing follows. -/
theorem sigThen_none (h : (s.grp g).held = []) : sigThen g (none, s) = ([], s) := by
  simp [sigThen, State.sigDrain, h]

/-- With no collective waiting for room, nothing starts. -/
theorem State.sigGo_idle (h : s.collWait = []) : State.sigGo ([], s) = s := by
  have hrun : State.sigRun ([], s) = s := rfl
  simp only [State.sigGo, hrun, State.collNext, h]

/-! ## At issue (R179, R285) -/

theorem State.pendOr_modTile (s : State) (t g : Nat) (f : Tile → Tile) (bar : Bool) (opk : Nat) (w64 : Bool) :
    (s.modTile t f).pendOr g bar opk w64 = s.pendOr g bar opk w64 := rfl

/-- A tile's operation on the signal plane stands. -/
def Tile.putSig (x : Tile) (o : SigOp) : Tile := { x with sig := some o }

theorem Tile.keeps_putSig (x : Tile) (o : SigOp) : x.Keeps (x.putSig o) := ⟨rfl, rfl, rfl, rfl, rfl, rfl⟩

/-- A tile's operation on the signal plane stands, in its device. -/
def State.putSig (s : State) (t : Nat) (o : SigOp) : State := s.modTile t fun x => x.putSig o

/-- The state in which a SIG instruction finds the signal trap: an invalid record of a group is reported. -/
def State.sigBadSeen (s : State) (g : Nat) : State := if g < 256 ∧ !gValid (s.grpRec g) then s.primReport 0x54 1 0 g else s

theorem State.onlyAbove_sigBadSeen (s : State) (g : Nat) : State.OnlyAbove s (s.sigBadSeen g) := by
  unfold State.sigBadSeen
  split
  · exact s.onlyAbove_report _ _ _ _ _ _
  · exact State.OnlyAbove.refl s

theorem State.pc_sigBadSeen (s : State) (g t : Nat) : (s.sigBadSeen g).pc t = s.pc t := by
  unfold State.sigBadSeen
  split <;> rfl

section
variable {sd opk v : Nat} {bar w64 : Bool} (hsig : (s.tile t).sig = none) (hmbx : (s.tile t).mbx = none) (hform : ¬(opk = 5 ∧ w64 = true ∧ bar = false))
include hsig hmbx hform

theorem sigIssue_joins (hok : s.sigOk t g = true) (hagrees : (s.pendOr g bar opk w64).agrees bar opk w64 = true)
    (hdue : (((s.pendOr g bar opk w64).joined t v s.detm).localIn && ((s.pendOr g bar opk w64).joined t v s.detm).kidsIn) = false)
    (hheld : (s.grp g).held = []) (hidle : s.collWait = []) :
    sigIssue t g sd bar opk w64 v s =
      .fall ((s.putSig t ⟨g, bar, opk, w64, sd, s.pc t⟩).inOp g ((s.pendOr g bar opk w64).joined t v s.detm)) := by
  have hform' : (opk == 5 && w64 && !bar) = false := by
    rw [Bool.eq_false_iff]
    simpa [and_assoc] using hform
  obtain ⟨v', hv⟩ : ∃ v', v' = s.putSig t ⟨g, bar, opk, w64, sd, s.pc t⟩ := ⟨_, rfl⟩
  have hpend : v'.pendOr g bar opk w64 = s.pendOr g bar opk w64 := hv ▸ s.pendOr_modTile t g _ bar opk w64
  have hdetm : v'.detm = s.detm := hv ▸ rfl
  have hjoin := State.sigJoin_due (s := v') (t := t) (g := g) (v := v) (hpend ▸ hagrees) (by rw [hpend, hdetm]; exact hdue)
  rw [hpend, hdetm] at hjoin
  have hnone : ((v'.inOp g ((s.pendOr g bar opk w64).joined t v s.detm)).grp g).held = [] := by
    rw [State.inOp, State.grp_modGrp_same, hv]
    exact hheld
  have hwait : (v'.inOp g ((s.pendOr g bar opk w64).joined t v s.detm)).collWait = [] := by
    rw [State.inOp, State.modGrp_collWait, hv]
    exact hidle
  simp only [sigIssue, hsig, hmbx, hform', hok, Option.isSome_none, Bool.or_self, Bool.not_true, Bool.false_eq_true, if_false]
  change Act.fall (State.sigGo (sigThen g ((s.putSig t ⟨g, bar, opk, w64, sd, s.pc t⟩).sigJoin g t bar opk w64 v))) = _
  rw [← hv, hjoin, sigThen_none hnone, State.sigGo_idle hwait]

theorem sigIssue_bad (hok : s.sigOk t g = false) (hrec : s.sigOkBy (s.grpRec g) t g = false) :
    sigIssue t g sd bar opk w64 v s = .fall ((s.sigBadSeen g).raise t 11 true (s.pc t) 0) := by
  have hform' : (opk == 5 && w64 && !bar) = false := by
    rw [Bool.eq_false_iff]
    simpa [and_assoc] using hform
  simp only [sigIssue, hsig, hmbx, hform', hok, hrec, Option.isSome_none, Bool.or_self, Bool.not_false, Bool.false_eq_true, if_false, if_true]
  change Act.fall ((s.sigBadSeen g).raise t 11 true ((s.sigBadSeen g).pc t) 0) = _
  rw [State.pc_sigBadSeen]

end

/-! ## What an instruction that issues leaves, where its unit changed more than its tile -/

theorem State.sameRest.groups (h : s.sameRest u) : u.groups = s.groups := by
  simp only [State.sameRest] at h
  simp only [h]

theorem State.sameRest.sent (h : s.sameRest u) : u.sent = s.sent := by
  simp only [State.sameRest] at h
  simp only [h]

theorem sameWork_perform {s' : State} (hpc : s'.pc t = s.pc t) (hlc : (s'.tile t).lc = (s.tile t).lc) (hk : (s.tile t).Keeps (s'.tile t))
    (hmem : s.sameMem s') (hothers : s.sameTilesBut s' t) :
    let u := s.perform t s (.fall s')
    movesOn t s u ∧ sameWork t s u ∧ State.OnlyTile t s' u ∧ ∃ l, u.tile t = { (s'.tile t).issued with lc := l } := by
  obtain ⟨hmoves, honly, l, htile⟩ := State.perform_fall s hpc hlc
  have hkeeps' : (s'.tile t).Keeps ((s.perform t s (.fall s')).tile t) := htile ▸ Tile.keeps_issued _ _
  have hkeeps := hk.trans hkeeps'
  exact ⟨hmoves, ⟨hkeeps.sameS _, hkeeps.sameA _, hkeeps.sameP _, hmem.trans (honly.onlyUnit.sameMem hkeeps'.sameMem),
    fun k hk => (honly.tiles k hk).trans (hothers k hk)⟩, honly, l, htile⟩

end Sys2Proof.Machine

namespace Sys2Proof.Proofs
open Sys2Proof Sys2Proof.Machine

variable {s : State} {t g : Nat}

/-- A SIG instruction that joins its group's operation, for which others are still due. -/
theorem joined_waits (o : SigOp) (p : SigPend) :
    let u := s.perform t s (.fall ((s.putSig t o).inOp g p))
    (u.tile t).sig = some o ∧ (u.grp g).pend = some p ∧ (u.grp g).gen = (s.grp g).gen ∧ movesOn t s u ∧ sameWork t s u
      ∧ s.sameRegs u [aTSQSTAT t] ∧ u.sent = s.sent := by
  have htile : ((s.putSig t o).inOp g p).tile t = (s.tile t).putSig o := (State.tile_inOp _ g p t).trans (State.tile_modTile_same s t _)
  obtain ⟨hmoves, hwork, honly, l, hdone⟩ := sameWork_perform (s := s) (t := t) (s' := (s.putSig t o).inOp g p) rfl (by rw [htile]; rfl)
    (htile ▸ Tile.keeps_putSig _ o) ((s.sameMem_modTile t (Tile.keeps_putSig _ o).sameMem).trans (State.sameMem_inOp _ g p))
    fun k hk => (State.tile_inOp _ g p k).trans (State.tile_modTile_other s _ _ _ hk)
  have hgroup : (s.perform t s (.fall ((s.putSig t o).inOp g p))).grp g = { s.grp g with pend := some p } := by
    rw [State.grp, honly.rest.groups]
    exact State.grp_modGrp_same (s := s.putSig t o) g _
  rw [htile] at hdone
  exact ⟨by rw [hdone]; rfl, by rw [hgroup], by rw [hgroup], hmoves, hwork, honly.regs, honly.rest.sent⟩

/-- A SIG instruction that finds the signal trap. -/
theorem badSig_traps (hsig : (s.tile t).sig = none) (htrap : (s.tile t).trap = none) :
    let u := s.perform t s (.fall ((s.sigBadSeen g).raise t 11 true (s.pc t) 0))
    (u.tile t).trap = some ⟨11, true, s.pc t, 0, s.pc t⟩ ∧ (u.tile t).sig = none ∧ movesOn t s u ∧ sameWork t s u := by
  have hseen := s.onlyAbove_sigBadSeen g
  have htile := (s.sigBadSeen g).raise_tile t 11 true (s.pc t) 0
  rw [hseen.tile, State.pc_sigBadSeen, htrap] at htile
  have hkeeps : (s.tile t).Keeps (((s.sigBadSeen g).raise t 11 true (s.pc t) 0).tile t) := htile ▸ ⟨rfl, rfl, rfl, rfl, rfl, rfl⟩
  have hkeeps' : ((s.sigBadSeen g).tile t).Keeps (((s.sigBadSeen g).raise t 11 true (s.pc t) 0).tile t) := (hseen.tile t).symm ▸ hkeeps
  have honly : State.OnlyUnit t [] (s.sigBadSeen g) ((s.sigBadSeen g).raise t 11 true (s.pc t) 0) := State.onlyUnit_modTile _ t _ []
  obtain ⟨hmoves, hwork, -, l, hdone⟩ := sameWork_perform (s := s) (t := t)
    (s' := (s.sigBadSeen g).raise t 11 true (s.pc t) 0) ((State.pc_modTile _ _ _ _).trans (s.pc_sigBadSeen g t)) (by rw [htile]) hkeeps
    (hseen.sameMem.trans (honly.sameMem hkeeps'.sameMem)) fun k hk => (honly.1 k hk).trans (hseen.tile k)
  rw [htile] at hdone
  exact ⟨by rw [hdone]; rfl, by rw [hdone]; exact hsig, hmoves, hwork⟩

/-- SIG.BAR and SIG.RED as they issue: form and value of the operation. -/
theorem sig_issues {i : Instr} {op rsv g sd opk v : Nat} {regs : List Nat} {bar w64 : Bool} {b : BitVec 54} {body : State → Act}
    (hexec : exec i s = .next (s.issue t 8 op b rsv regs noFuse body)) (hbody : body s = sigIssue t g sd bar opk w64 v s)
    (hi : s.issues t 8 op b rsv regs = true) (hsig : (s.tile t).sig = none) (hmbx : (s.tile t).mbx = none) (hidle : s.collWait = [])
    (hform : ¬(opk = 5 ∧ w64 = true ∧ bar = false)) :
    let p := s.pendOr g bar opk w64
    (s.sigOk t g = true → p.agrees bar opk w64 = true → ((p.joined t v s.detm).localIn && (p.joined t v s.detm).kidsIn) = false →
      (s.grp g).held = [] →
      Gives (exec i s) fun u =>
        (u.tile t).sig = some ⟨g, bar, opk, w64, sd, s.pc t⟩ ∧ (u.grp g).pend = some (p.joined t v s.detm)
          ∧ (u.grp g).gen = (s.grp g).gen ∧ movesOn t s u ∧ sameWork t s u ∧ s.sameRegs u [aTSQSTAT t] ∧ u.sent = s.sent) ∧
    (s.sigOk t g = false → s.sigOkBy (s.grpRec g) t g = false →
      Gives (exec i s) fun u =>
        (u.tile t).trap = some ⟨11, true, s.pc t, 0, s.pc t⟩ ∧ (u.tile t).sig = none ∧ movesOn t s u ∧ sameWork t s u) := by
  refine ⟨fun hok hagrees hdue hheld => Gives.of_issue hi hexec ?_, fun hok hrec => Gives.of_issue hi hexec ?_⟩
  · rw [hbody, sigIssue_joins hsig hmbx hform hok hagrees hdue hheld hidle]
    exact joined_waits _ _
  · rw [hbody, sigIssue_bad hsig hmbx hform hok hrec]
    exact badSig_traps hsig (State.issues_tile hi).1

/-- Settles O18: SIG.BAR and SIG.RED join their group's operation or find the signal trap. -/
theorem signalInstructionsIssue : Obligations.SignalInstructionsIssue := by
  unfold Obligations.SignalInstructionsIssue
  intro r hr s t b hi hsig hmbx hidle g f v p hform
  simp only [List.mem_cons, List.not_mem_nil, or_false] at hr
  obtain rfl | rfl := hr
  case inl => exact sig_issues (i := .sigBar t b) rfl rfl hi hsig hmbx hidle hform
  case inr => exact sig_issues (i := .sigRed t b) rfl rfl hi hsig hmbx hidle hform

end Sys2Proof.Proofs
end

section
/-! SUPPORT. SM.SUB, and transfers that are refused (R172, R175). -/

namespace Sys2Proof.Machine

variable {s u : State} {t : Nat} {b : BitVec 54}

/-! ## SM.SUB (R172) -/

theorem exec_moverRows {r : (Nat → BitVec 54 → Instr) × (Nat → Bool)} (hr : r ∈ moverRows) (t : Nat) (b : BitVec 54) (s : State) :
    exec (r.1 t b) s = .next (smSub r.2 t b s) := by
  simp only [moverRows, List.mem_cons, List.not_mem_nil, or_false] at hr
  obtain rfl | rfl | rfl | rfl | rfl := hr <;> rfl

/-- A descriptor as it is read, before its ranges are known. -/
def Xfer.fresh (desc : List Nat) (tok : Nat) (bad : Bool) : Xfer :=
  { desc := desc, tok := tok, bad := bad, todo := [], reads := [], sent := false, acks := [], st := 0, rd := [], wr := [] }

/-- A descriptor with the parts of its ranges that lie in its tile's own window. -/
def State.ranged (s : State) (t : Nat) (x : Xfer) : Xfer :=
  { x with rd := s.ownRng t x.src (if x.rows = 0 then 0 else (x.rows - 1) * x.sstride + x.rlen), wr := s.ownRng t x.dst x.dstMax }

/-- SM.SUB once its descriptor is read: v is the state after the read. -/
def smJoin (f : Nat → Bool) (t off : Nat) (x : Xfer) (s v : State) : Act :=
  let y := s.ranged t x
  if decide (16 ≤ (s.tile t).xfers.length) || s.trackerFull t || s.rangeHold t (⟨off, 32⟩ :: y.rd) y.wr then .hold
  else if !x.bad && !f x.kind then .hold
  else
    let remote := !y.descBad v t && !v.isLocal y.src && permOk v t y.srcRows && memOk v y.srcRows
    let ps := if remote then y.srcRows.flatMap fun p => pieces p.1 p.2 else []
    let q := if (s.tile t).xfers.all fun f => f.todo.isEmpty then v.startReads (srcOf 0 t) ps else (([], ps), v)
    .fall (q.2.modTile t fun z => { z with xfers := z.xfers ++ [{ y with reads := q.1.1, todo := q.1.2 }] })

/-- What SM.SUB does at its turn. -/
def smSubmit (f : Nat → Bool) (t : Nat) (b : BitVec 54) (s : State) : Act :=
  let off := ((s.tile t).areg (fb b 46 4)).toNat
  if !s.opRange t off 32 then .trap 2 0
  else
    let r := s.winRead t off 32 uMover
    smJoin f t off (Xfer.fresh (r.1.map (·.1)) (fb b 41 5) (anyPois r.1)) s r.2

theorem smSub_issue (f : Nat → Bool) (t : Nat) (b : BitVec 54) (s : State) :
    smSub f t b s = s.issue t 6 0 b (rsvOut [(49, 46), (45, 41)]) [] noFuse (smSubmit f t b) := rfl

theorem smSubmit_outside {f : Nat → Bool} (hrange : s.opRange t ((s.tile t).areg (fb b 46 4)).toNat 32 = false) : smSubmit f t b s = .trap 2 0 := by
  simp only [smSubmit, hrange, Bool.not_false, if_true]

/-- A transfer joins the tile's outstanding ones. -/
def State.putXfer (s : State) (t : Nat) (x : Xfer) : State := s.modTile t fun y => { y with xfers := y.xfers ++ [x] }

/-- A descriptor whose source is on this device joins with nothing left to read elsewhere. -/
theorem smJoin_local {f : Nat → Bool} {off : Nat} {x : Xfer} (hkind : f x.kind = true) (hlocal : s.isLocal x.src = true)
    (hnone : x.reads = [] ∧ x.todo = []) (hroom : (s.tile t).xfers.length < 16) (hfull : s.trackerFull t = false)
    (hhold : s.rangeHold t (⟨off, 32⟩ :: (s.ranged t x).rd) (s.ranged t x).wr = false) :
    smJoin f t off x s s = .fall (s.putXfer t (s.ranged t x)) := by
  obtain ⟨hreads, htodo⟩ := hnone
  have hroom' : decide (16 ≤ (s.tile t).xfers.length) = false := decide_eq_false (by omega)
  have hsrc : s.isLocal (s.ranged t x).src = true := hlocal
  have hstart : (if (s.tile t).xfers.all fun f => f.todo.isEmpty then s.startReads (srcOf 0 t) [] else (([], []), s)) = (([], []), s) := by
    split <;> rfl
  have hsame : ({ s.ranged t x with reads := [], todo := [] } : Xfer) = s.ranged t x := by
    rw [← hreads, ← htodo]
    rfl
  simp only [smJoin, hroom', hfull, hhold, hkind, hsrc, hstart, hsame, Bool.or_self, Bool.not_true, Bool.and_false, Bool.false_and, Bool.false_eq_true,
    if_false]
  rfl

theorem smSubmit_local {f : Nat → Bool} {off : Nat} (hoff : off = ((s.tile t).areg (fb b 46 4)).toNat) (hrange : s.opRange t off 32 = true)
    (hclean : (s.tile t).cleanRange off 32) (hkind : f (s.xferAt t off (fb b 41 5)).kind = true)
    (hlocal : s.isLocal (s.xferAt t off (fb b 41 5)).src = true) (hroom : (s.tile t).xfers.length < 16) (hfull : s.trackerFull t = false)
    (hhold : s.rangeHold t (⟨off, 32⟩ :: (s.xferAt t off (fb b 41 5)).rd) (s.xferAt t off (fb b 41 5)).wr = false) :
    smSubmit f t b s = .fall (s.putXfer t (s.xferAt t off (fb b 41 5))) := by
  have hvals : ((((s.tile t).bytesAt off 32).map fun b => (b, false)).map (·.1)) = (s.tile t).bytesAt off 32 := by simp [Function.comp_def]
  subst hoff
  simp only [smSubmit, hrange, State.winRead_cleanRange uMover hclean, hvals, anyPois_unmarked, Bool.not_true, Bool.false_eq_true, if_false]
  exact smJoin_local hkind hlocal ⟨rfl, rfl⟩ hroom hfull hhold

theorem Tile.keeps_xfers (x : Tile) (l : List Xfer) : x.Keeps { x with xfers := l } := ⟨rfl, rfl, rfl, rfl, rfl, rfl⟩

theorem State.perform_putXfer (s : State) (t : Nat) (x : Xfer) :
    let u := s.perform t s (.fall (s.putXfer t x))
    (u.tile t).xfers = (s.tile t).xfers ++ [x] ∧ movesOn t s u ∧ scalarFrame t [] [] [] s u := by
  obtain ⟨hmoves, hframe, l, htile⟩ := State.perform_modTile (s := s) (t := t) (sd := []) (ad := []) (pd := [])
    (f := fun y => { y with xfers := y.xfers ++ [x] }) rfl ((Tile.keeps_xfers _ _).leaves _ _ _)
  exact ⟨by rw [State.putXfer, htile]; rfl, hmoves, hframe⟩

/-! ## Refusals (R175) -/

theorem nth_mem {α : Type} (d : α) {l : List α} {i : Nat} (h : i < l.length) : nth d l i ∈ l := by
  rw [nth, List.getElem?_eq_getElem h, Option.getD_some]
  exact List.getElem_mem h

/-- A free one of several causes is none only when there is none. -/
theorem State.oneOf_eq_zero {l : List Nat} (h : s.oneOf l = 0) (hpos : 0 ∉ l) : l = [] := by
  match l with
  | [] => rfl
  | [c] => exact absurd (h ▸ List.mem_singleton_self c) hpos
  | c :: d :: l =>
    have hmem : s.oneOf (c :: d :: l) ∈ c :: d :: l := nth_mem 0 (Nat.mod_lt _ (Nat.succ_pos _))
    exact absurd (h ▸ hmem) hpos

theorem bitOf_eq_testBit (x i : Nat) : bitOf x i = x.testBit i := by
  rw [bitOf, bitsOf, Nat.shiftRight_eq_div_pow, Nat.testBit_eq_decide_div_mod_eq]
  rfl

theorem exec_transferComplete_refused {k : Nat} {x : Xfer} (hx : (s.tile t).xfers[k]? = some x) (hturn : (s.tile t).xferWaits k x = false)
    (hsent : x.sent = false) (hst : x.early s t = 6 ∨ x.early s t = 7 ∨ x.early s t = 2) :
    exec (.transferComplete t k) s = .next (s.freshen.endXfer t k x (x.early s t)) := by
  have hone : x.early s t ≠ 1 := by omega
  have hzero : x.early s t ≠ 0 := by omega
  change execTransferComplete t k s = _
  simp only [execTransferComplete, hx, hturn, hsent, Bool.false_eq_true, if_false, hone, hzero, ne_eq, not_false_eq_true, if_true]

/-- A transfer leaves its tile's list. -/
def State.dropXfer (s : State) (t i : Nat) (x : Xfer) : State := (s.dropReads x.reads).modTile t fun y => { y with xfers := y.xfers.eraseIdx i }

/-- A transfer's failure shown by its tile's registers and reported. -/
def State.xferFailed (s : State) (t : Nat) (x : Xfer) (st : Nat) : State :=
  (((s.orFld (TSMERR_ERR t) (2 ^ x.tok)).setFld (TSMSTAT_CODE t) st).setFld (TSMSTAT_TOKEN t) x.tok).tileReport t 0x06 1 x.dst (st + 16 * x.tok)

theorem State.endXfer_failed (i : Nat) {x : Xfer} {st : Nat} (hst : st ≠ 0) :
    s.endXfer t i x st = ((s.dropXfer t i x).xferFailed t x st).tokAdd t x.tok 1 := by
  simp only [State.endXfer, hst, false_and, if_false]
  rfl

theorem State.onlySet_xferShown (s : State) (t tok st : Nat) :
    State.OnlySet [aTSMERR t, aTSMSTAT t] s (((s.orFld (TSMERR_ERR t) (2 ^ tok)).setFld (TSMSTAT_CODE t) st).setFld (TSMSTAT_TOKEN t) tok) := by
  have hstat : aTSMSTAT t ∈ [aTSMERR t, aTSMSTAT t] := List.mem_cons_of_mem _ List.mem_cons_self
  exact (((State.OnlySet.refl _ s).setFld (f := TSMERR_ERR t) List.mem_cons_self _).setFld (f := TSMSTAT_CODE t) hstat _).setFld
    (f := TSMSTAT_TOKEN t) hstat _

theorem State.xferShown_fields (s : State) (t : Nat) {tok st : Nat} (htok : tok < 32) (hst : st < 16) :
    let u := ((s.orFld (TSMERR_ERR t) (2 ^ tok)).setFld (TSMSTAT_CODE t) st).setFld (TSMSTAT_TOKEN t) tok
    u.fld (TSMSTAT_CODE t) = st ∧ u.fld (TSMSTAT_TOKEN t) = tok ∧ bitOf (u.fld (TSMERR_ERR t)) tok = true := by
  have herr : aTSMSTAT t ≠ aTSMERR t := by simp only [aTSMSTAT, aTSMERR]; omega
  refine ⟨?_, ?_, ?_⟩
  · rw [State.fld_setFld_apart _ _ (by simp [Fld.apart, TSMSTAT_CODE, TSMSTAT_TOKEN]), State.fld_setFld_same _ _ _ (by simp [TSMSTAT_CODE]), TSMSTAT_CODE]
    exact Nat.mod_eq_of_lt hst
  · rw [State.fld_setFld_same _ _ _ (by simp [TSMSTAT_TOKEN]), TSMSTAT_TOKEN]
    exact Nat.mod_eq_of_lt htok
  · rw [State.fld_setFld_apart _ _ (by simp [Fld.apart, TSMSTAT_TOKEN, TSMERR_ERR, herr]),
      State.fld_setFld_apart _ _ (by simp [Fld.apart, TSMSTAT_CODE, TSMERR_ERR, herr]), State.orFld, State.fld_setFld_same _ _ _ (by simp [TSMERR_ERR]),
      bitOf_eq_testBit, TSMERR_ERR, Nat.testBit_mod_two_pow, Nat.testBit_or, Nat.testBit_two_pow_self, Bool.or_true, Bool.and_true]
    exact decide_eq_true htok

theorem aTTOK_mover (t k : Nat) : aTTOK t k ≠ aTSMERR t ∧ aTTOK t k ≠ aTSMSTAT t := by
  simp only [aTTOK, aTSMERR, aTSMSTAT]
  omega

/-- What the failure of a transfer shows. -/
theorem State.xferFailed_spec (s : State) (t : Nat) {x : Xfer} {st : Nat} (htok : x.tok < 32) (hst : st < 16) :
    let u := s.xferFailed t x st
    (u.fld (TSMSTAT_CODE t) = st ∧ u.fld (TSMSTAT_TOKEN t) = x.tok ∧ bitOf (u.fld (TSMERR_ERR t)) x.tok = true)
      ∧ u.reports = s.reports ++ [⟨halfOfTile t, 0x06, 1, srcOf 0 t, x.dst, st + 16 * x.tok, s.now⟩] ∧ (∀ k, u.tile k = s.tile k) ∧ s.sameMem u
      ∧ s.sameRegs u [aTSMERR t, aTSMSTAT t] := by
  obtain ⟨w, hw⟩ : ∃ w, w = ((s.orFld (TSMERR_ERR t) (2 ^ x.tok)).setFld (TSMSTAT_CODE t) st).setFld (TSMSTAT_TOKEN t) x.tok := ⟨_, rfl⟩
  have hshown : s.xferFailed t x st = w.tileReport t 0x06 1 x.dst (st + 16 * x.tok) := by rw [hw]; rfl
  have hset : State.OnlySet [aTSMERR t, aTSMSTAT t] s w := hw ▸ s.onlySet_xferShown t x.tok st
  have hclock : aTBTIME ∉ [aTSMERR t, aTSMSTAT t] := by
    simp only [aTBTIME, aTSMERR, aTSMSTAT, List.mem_cons, List.not_mem_nil, or_false]
    omega
  have hnow : w.now = s.now := hset.fld (f := TBTIME_TIME) hclock
  have hfields := s.xferShown_fields t htok hst
  rw [← hw] at hfields
  dsimp only
  rw [hshown]
  refine ⟨hfields, ?_, hset.tile, hset.sameMem.trans (State.sameMem_of_stores rfl rfl rfl), hset.2⟩
  rw [State.tileReport, State.report_reports, hnow]
  obtain ⟨⟨rs, hrs⟩, -⟩ := hset
  rw [hrs]

theorem State.dropXfer_spec (s : State) (t i : Nat) (x : Xfer) :
    (s.dropXfer t i x).tile t = { s.tile t with xfers := (s.tile t).xfers.eraseIdx i } ∧ State.OnlyUnit t [] s (s.dropXfer t i x)
      ∧ (s.dropXfer t i x).reports = s.reports := by
  refine ⟨?_, (State.onlyUnit_dropReads s t x.reads).trans (State.onlyUnit_modTile _ t _ []), rfl⟩
  rw [State.dropXfer, State.tile_modTile_same, State.tile_dropReads]

/-- A refused transfer is shown, reported and gone; its own token still counts. -/
theorem State.endXfer_refused (i : Nat) {x : Xfer} {st : Nat} (htok : x.tok < 32) (hst : st ≠ 0) (hst' : st < 16) :
    let u := s.endXfer t i x st
    s.sameMem u ∧ (u.tile t).xfers = (s.tile t).xfers.eraseIdx i ∧ s.sameTilesBut u t
      ∧ u.fld (TSMSTAT_CODE t) = st ∧ u.fld (TSMSTAT_TOKEN t) = x.tok ∧ bitOf (u.fld (TSMERR_ERR t)) x.tok = true
      ∧ u.reports = s.reports ++ [⟨halfOfTile t, 0x06, 1, srcOf 0 t, x.dst, st + 16 * x.tok, s.now⟩]
      ∧ u.fld (TTOK_COUNT t x.tok) = min 65535 (s.fld (TTOK_COUNT t x.tok) + 1)
      ∧ s.sameRegs u [aTSMERR t, aTSMSTAT t, aTTOK t x.tok, aTSQSTAT t] := by
  obtain ⟨hdropped, hunit, hkept⟩ := s.dropXfer_spec t i x
  obtain ⟨⟨hcode, htoken, herr⟩, hreports, htiles, hmem, hregs⟩ := (s.dropXfer t i x).xferFailed_spec t htok hst'
  rw [State.endXfer_failed i hst]
  generalize (s.dropXfer t i x).xferFailed t x st = y at *
  have hlater : State.OnlySet [aTSQSTAT t, aTTOK t x.tok] y (y.tokAdd t x.tok 1) := y.onlySet_tokAdd t x.tok 1
  obtain ⟨hcount, -, -⟩ := y.tokAdd_spec t x.tok 1
  obtain ⟨hne, hne'⟩ := aTTOK_mover t x.tok
  have hstat : aTSMSTAT t ∉ [aTSQSTAT t, aTTOK t x.tok] := by
    simp only [List.mem_cons, List.not_mem_nil, or_false, not_or]
    exact ⟨by simp only [aTSMSTAT, aTSQSTAT]; omega, hne'.symm⟩
  have herr' : aTSMERR t ∉ [aTSQSTAT t, aTTOK t x.tok] := by
    simp only [List.mem_cons, List.not_mem_nil, or_false, not_or]
    exact ⟨by simp only [aTSMERR, aTSQSTAT]; omega, hne.symm⟩
  have hall : s.sameMem (s.dropXfer t i x) := hunit.sameMem (hdropped ▸ (Tile.keeps_xfers _ _).sameMem)
  have hold : y.fld (TTOK_COUNT t x.tok) = s.fld (TTOK_COUNT t x.tok) :=
    (State.fld_of_sameRegs hregs (f := TTOK_COUNT t x.tok) (by simp [TTOK_COUNT, hne, hne'])).trans
      (State.fld_of_sameRegs hunit.2.1 List.not_mem_nil)
  have hnow : (s.dropXfer t i x).now = s.now := State.fld_of_sameRegs hunit.2.1 List.not_mem_nil
  have hlast : (y.tokAdd t x.tok 1).reports = y.reports := by
    obtain ⟨⟨rs, hrs⟩, -⟩ := hlater
    rw [hrs]
  refine ⟨(hall.trans hmem).trans hlater.sameMem, ?_, fun k hk => ?_, (hlater.fld (f := TSMSTAT_CODE t) hstat).trans hcode,
    (hlater.fld (f := TSMSTAT_TOKEN t) hstat).trans htoken, ?_, ?_, by rw [hcount, hold], fun a ha => ?_⟩
  · rw [hlater.tile, htiles, hdropped]
  · rw [hlater.tile, htiles, hunit.1 k hk]
  · rw [hlater.fld (f := TSMERR_ERR t) herr']
    exact herr
  · rw [hlast, hreports, hkept, hnow]
  · simp only [List.mem_cons, List.not_mem_nil, or_false, not_or] at ha
    obtain ⟨h1, h2, h3, h4⟩ := ha
    exact (hlater.2 a (by simp [h3, h4])).trans ((hregs a (by simp [h1, h2])).trans (hunit.2.1 a List.not_mem_nil))

/-! ## Invalidation (R206) -/

/-- A tile whose stream cache is empty. -/
def Tile.noLines (x : Tile) : Tile := { x with lines := [] }

theorem Tile.keeps_noLines (x : Tile) : x.Keeps x.noLines := ⟨rfl, rfl, rfl, rfl, rfl, rfl⟩

theorem exec_streamCacheInvalidate (s : State) (t : Nat) : exec (.streamCacheInvalidate t) s = .next (s.modTile t Tile.noLines) := rfl

end Sys2Proof.Machine
end

section
/-! SUPPORT. A plain copy between tile windows of this device (R173, R175). -/

namespace Sys2Proof.Machine

variable {s u : State} {t : Nat}

/-! ## A transfer that nothing refuses (R175) -/

theorem Xfer.zero_notMem_causes (x : Xfer) (s : State) (t : Nat) : 0 ∉ x.causes s t := by
  unfold Xfer.causes
  split
  · decide
  · split
    · decide
    · intro h
      obtain ⟨c, hc, hzero⟩ := List.mem_map.mp h
      have hc := List.mem_of_mem_filter hc
      simp only [List.mem_cons, List.not_mem_nil, or_false] at hc
      obtain rfl | rfl | rfl := hc <;> cases hzero

/-- Where nothing refuses a transfer, its ranges are memory. -/
theorem Xfer.memOk_of_early {x : Xfer} (h : x.early s t = 0) : memOk s (x.srcRows ++ [(x.dst, x.dstMin)]) = true := by
  have hnone : x.causes s t = [] := State.oneOf_eq_zero h (x.zero_notMem_causes s t)
  unfold Xfer.causes at hnone
  split at hnone
  · cases hnone
  · split at hnone
    · cases hnone
    · dsimp only at hnone
      simp only [codesOf, List.map_eq_nil_iff, List.filter_eq_nil_iff] at hnone
      have hone := hnone _ (List.mem_cons_of_mem _ List.mem_cons_self)
      simp only [Bool.or_eq_true, Bool.not_eq_true', not_or, Bool.not_eq_false] at hone
      exact hone.1

/-! ## Reading its rows (R173) -/

/-- Memory above the stacks lies in a tile window. -/
theorem inTileWindow_of_isMem {a n : Nat} (hmem : s.isMem (addrDev a) n = true) (hhigh : 0x8000000000 ≤ addrDev a) : inTileWindow a = true := by
  rw [State.isMem, if_neg (Nat.not_lt.mpr hhigh)] at hmem
  split at hmem
  · next h => simpa [inTileWindow] using h
  · cases hmem

/-- A row of clean bytes of a tile's bank. -/
def State.rowAt (s : State) (p : Nat × Nat) : List Nat := (s.tile (winTile p.1)).bytesAt (winOff p.1) p.2

/-- A row that can be read without a trace. -/
def State.rowGood (s : State) (p : Nat × Nat) : Prop :=
  inTileWindow p.1 = true ∧ (s.tile (winTile p.1)).cleanRange (winOff p.1) p.2

theorem State.moverRead_clean {p : Nat × Nat} (h : s.rowGood p) (t : Nat) :
    s.moverRead t (addrDev p.1) p.2 = ((s.rowAt p).map fun b => (b, false), s) := by
  obtain ⟨hwin, hclean⟩ := h
  obtain ⟨haddr, htile, hoff⟩ := addrDev_window hwin
  have hhigh : ¬ addrDev p.1 < 0x8000000000 := by rw [haddr]; simp only [tileBase]; omega
  rw [State.moverRead, if_neg hhigh, haddr]
  exact s.memRead_clean htile hclean hoff uMover

theorem State.localRows_clean {l : List (Nat × Nat)} (h : ∀ p ∈ l, s.rowGood p) (t : Nat) :
    s.localRows t l = (l.map fun p => (s.rowAt p).map fun b => (b, false), s) := by
  induction l with
  | nil => rfl
  | cons p l ih =>
    have hrest := ih fun q hq => h q (List.mem_cons_of_mem _ hq)
    simp only [State.localRows, State.moverRead_clean (h p List.mem_cons_self) t, hrest, List.map_cons]

/-! ## Writing them one after the other -/

/-- Rows of one length, one after the other. -/
theorem getElem?_flatMap_range {α : Type} {f : Nat → List α} {n L : Nat} (hlen : ∀ r < n, (f r).length = L) {r i : Nat} (hr : r < n) (hi : i < L) :
    ((List.range n).flatMap f)[r * L + i]? = (f r)[i]? := by
  induction n with
  | zero => omega
  | succ n ih =>
    have hbefore : ((List.range n).flatMap f).length = n * L := by
      rw [List.length_flatMap, List.map_congr_left fun k hk => hlen k (by have := List.mem_range.mp hk; omega)]
      simp
    rw [List.range_succ, List.flatMap_append, List.flatMap_singleton]
    obtain hlt | heq : r < n ∨ r = n := by omega
    · have hin : r * L + i < n * L := by
        calc r * L + i < r * L + L := by omega
          _ = (r + 1) * L := by ring
          _ ≤ n * L := Nat.mul_le_mul_right L hlt
      rw [List.getElem?_append_left (by rwa [hbefore])]
      exact ih (fun k hk => hlen k (by omega)) hlt
    · subst heq
      rw [List.getElem?_append_right (by rw [hbefore]; omega), hbefore]
      congr 1
      omega

theorem length_flatMap_range {α : Type} {f : Nat → List α} {n L : Nat} (hlen : ∀ r < n, (f r).length = L) :
    ((List.range n).flatMap f).length = n * L := by
  rw [List.length_flatMap, List.map_congr_left fun k hk => hlen k (List.mem_range.mp hk)]
  simp

/-! ## A counter that does not move -/

theorem putBits_bitsOf (x lo w : Nat) : putBits x lo w (bitsOf x lo w) = x := by
  refine Nat.eq_of_testBit_eq fun i => ?_
  rw [testBit_putBits, testBit_bitsOf]
  split
  · next h =>
    have hlo : lo + (i - lo) = i := by omega
    have hw : i - lo < w := by omega
    rw [hlo, decide_eq_true hw, Bool.true_and]
  · rfl

theorem State.reg_bump_zero (s : State) (f : Fld) (a : Nat) : (s.bump f 0).reg a = s.reg a := by
  have hle : s.fld f ≤ 2 ^ f.w - 1 := Nat.le_pred_of_lt (Nat.mod_lt _ (Nat.two_pow_pos _))
  rw [State.bump, satAdd, Nat.add_zero, Nat.min_eq_right hle]
  by_cases ha : a = f.addr
  · subst ha
    rw [State.reg_setFld_same, State.fld, putBits_bitsOf, BitVec.ofNat_toNat, BitVec.setWidth_eq]
  · exact State.reg_setFld_other _ _ _ _ ha

/-! ## The copy -/

/-- The state in which a copy writes: its fresh choice is taken, and no check of a folio has failed. -/
def State.copying (s : State) (t : Nat) : State := s.freshen.bump (TFOLERR_CHKFAIL t) 0

theorem State.reg_copying (s : State) (t a : Nat) : (s.copying t).reg a = s.reg a := State.reg_bump_zero s.freshen _ a
theorem State.tile_copying (s : State) (t k : Nat) : (s.copying t).tile k = s.tile k := State.tile_setFld s.freshen _ _ k

theorem State.performXfer_copy {x : Xfer} (k : Nat) (hkind : x.kind = 0) (hlocal : s.isLocal x.dst = true) (hhigh : ¬ addrDev x.dst < 0x8000000000)
    (rows : List (List Nat)) :
    s.performXfer t k x (rows.map fun bs => bs.map fun b => (b, false)) =
      ((s.copying t).memWrite (addrDev x.dst) (rows.flatten.map fun b => (b, false))).endXfer t k x 0 := by
  have hall : (rows.map fun bs => bs.map fun b => (b, false)).flatten = rows.flatten.map fun b => (b, false) := by rw [List.map_flatten]
  have hlocal' : (s.freshen.bump (TFOLERR_CHKFAIL t) 0).isLocal x.dst = true := by
    change (s.copying t).isLocal x.dst = true
    rw [State.isLocal, State.rank, State.fld_of_reg (s.reg_copying t FCFG_RANK.addr)]
    exact hlocal
  have hout : ∀ j, x.output j (rows.map fun bs => bs.map fun b => (b, false)) = (rows.flatten.map fun b => (b, false), false, false) := by
    intro j
    simp only [Xfer.output, hkind, hall, anyPois_unmarked]
  have hfolio : ∀ (v : State) (out : List (Nat × Bool)), v.countFolios t x (rows.map fun bs => bs.map fun b => (b, false)) out = v := by
    intro v out
    rw [State.countFolios, hkind, if_pos (by decide)]
  have hlate : ((0 : Nat) == 2 || (0 : Nat) == 3) = false := rfl
  simp only [State.performXfer, hout, hfolio, hkind, hlate, hlocal', hhigh, Bool.false_and, Bool.false_eq_true, false_and, and_false, if_false, if_true]
  rfl

theorem exec_transferComplete_copy {k : Nat} {x : Xfer} (hx : (s.tile t).xfers[k]? = some x) (hturn : (s.tile t).xferWaits k x = false)
    (hsent : x.sent = false) (hearly : x.early s t = 0) (hkind : x.kind = 0) (hsrc : s.isLocal x.src = true) (hdst : s.isLocal x.dst = true)
    (hhigh : ¬ addrDev x.dst < 0x8000000000) (hrows : ∀ p ∈ x.srcRows, s.rowGood p) :
    exec (.transferComplete t k) s = .next (((s.copying t).memWrite (addrDev x.dst)
      ((x.srcRows.flatMap s.rowAt).map fun b => (b, false))).endXfer t k x 0) := by
  have hperform := State.performXfer_copy (t := t) k hkind hdst hhigh (x.srcRows.map s.rowAt)
  rw [List.map_map] at hperform
  change execTransferComplete t k s = _
  simp only [execTransferComplete, hx, hturn, hsent, hearly, hsrc, State.localRows_clean hrows, Bool.false_eq_true, if_false, if_true, zero_ne_one,
    ne_eq, not_true_eq_false]
  exact congrArg Host.Outcome.next hperform

theorem State.endXfer_done (i : Nat) {x : Xfer} (hdtk : x.dtken = false) : s.endXfer t i x 0 = (s.dropXfer t i x).tokAdd t x.tok 1 := by
  simp only [State.endXfer, hdtk, Bool.false_eq_true, false_and, and_false, if_false, if_true]
  rfl

/-- A token that has room counts one more, and no other register changes. -/
theorem State.tokAdd_room {k : Nat} (h : s.fld (TTOK_COUNT t k) < 65535) :
    State.OnlySet [aTTOK t k] s (s.tokAdd t k 1) ∧ (s.tokAdd t k 1).fld (TTOK_COUNT t k) = s.fld (TTOK_COUNT t k) + 1 := by
  have hroom : ¬ 65535 < s.fld (TTOK_COUNT t k) + 1 := by omega
  obtain ⟨hcount, -, -⟩ := s.tokAdd_spec t k 1
  refine ⟨?_, by rw [hcount]; omega⟩
  rw [State.tokAdd, if_neg hroom]
  exact (State.OnlySet.refl _ s).setFld (f := TTOK_COUNT t k) List.mem_cons_self _

theorem State.length_rowAt (s : State) (p : Nat × Nat) : (s.rowAt p).length = p.2 := by
  rw [State.rowAt, Tile.bytesAt, List.length_map, List.length_range]

/-- The bytes of a plain copy, row after row. -/
theorem Xfer.copied_spec (x : Xfer) (s : State) :
    (x.srcRows.flatMap s.rowAt).length = x.rows * x.rlen ∧ ∀ r < x.rows, ∀ i < x.rlen, x.src + r * x.sstride < 2 ^ 64 →
      (x.srcRows.flatMap s.rowAt)[r * x.rlen + i]? =
        some ((s.tile (winTile (x.src + r * x.sstride))).classOf (winOff (x.src + r * x.sstride) + i)).value.1 := by
  have hrows : x.srcRows.flatMap s.rowAt = (List.range x.rows).flatMap fun r => s.rowAt ((x.src + r * x.sstride) % 2 ^ 64, x.rlen) :=
    List.flatMap_map _ _ _
  have hlen : ∀ r < x.rows, (s.rowAt ((x.src + r * x.sstride) % 2 ^ 64, x.rlen)).length = x.rlen := fun r _ => s.length_rowAt _
  rw [hrows]
  refine ⟨length_flatMap_range hlen, fun r hr i hi hlt => ?_⟩
  rw [getElem?_flatMap_range hlen hr hi, Nat.mod_eq_of_lt hlt, State.rowAt, Tile.bytesAt]
  simp [hi]

/-- The rows of a transfer's source, as a plain copy needs them. -/
theorem Xfer.rowGood_of_early {x : Xfer} (hearly : x.early s t = 0)
    (hrows : ∀ r < x.rows, 0x8000000000 ≤ addrDev (x.src + r * x.sstride) ∧ s.isLocal ((x.src + r * x.sstride) % 2 ^ 64) = true
      ∧ x.src + r * x.sstride < 2 ^ 64
      ∧ (s.tile (winTile (x.src + r * x.sstride))).cleanRange (winOff (x.src + r * x.sstride)) x.rlen) : ∀ p ∈ x.srcRows, s.rowGood p := by
  intro p hp
  have hmem := Xfer.memOk_of_early hearly
  rw [memOk, List.all_eq_true] at hmem
  have hmemp := hmem p (List.mem_append_left _ hp)
  obtain ⟨r, hr, rfl⟩ := List.mem_map.mp hp
  obtain ⟨hhigh, hlocal, hlt, hclean⟩ := hrows r (List.mem_range.mp hr)
  rw [if_pos hlocal] at hmemp
  rw [Nat.mod_eq_of_lt hlt] at hmemp ⊢
  exact ⟨inTileWindow_of_isMem hmemp hhigh, hclean⟩

end Sys2Proof.Machine

namespace Sys2Proof.Proofs
open Sys2Proof Sys2Proof.Machine

/-- A plain copy between tile windows of this device. -/
theorem copy_completes {s : State} {t k : Nat} {x : Xfer} (hx : (s.tile t).xfers[k]? = some x) (hturn : (s.tile t).xferWaits k x = false)
    (hsent : x.sent = false) (hearly : x.early s t = 0) (hkind : x.kind = 0) (hdtk : x.dtken = false) (hsrc : s.isLocal x.src = true)
    (hdst : s.isLocal x.dst = true) (hwin : inTileWindow x.dst = true) (hlast : winOff x.dst + x.rows * x.rlen ≤ 0x1F0000)
    (hpend : s.flag (TFLIP_PEND (winTile x.dst)) = false) (hroom : s.fld (TTOK_COUNT t x.tok) < 65535)
    (hrows : ∀ r < x.rows, 0x8000000000 ≤ addrDev (x.src + r * x.sstride) ∧ s.isLocal ((x.src + r * x.sstride) % 2 ^ 64) = true
      ∧ x.src + r * x.sstride < 2 ^ 64
      ∧ (s.tile (winTile (x.src + r * x.sstride))).cleanRange (winOff (x.src + r * x.sstride)) x.rlen) :
    Gives (exec (.transferComplete t k) s) fun u =>
      (∀ r < x.rows, ∀ i < x.rlen, (u.tile (winTile x.dst)).classOf (winOff x.dst + r * x.rlen + i)
        = .good (((s.tile (winTile (x.src + r * x.sstride))).classOf (winOff (x.src + r * x.sstride) + i)).value.1 % 256)) ∧
      (∀ j off, (j = winTile x.dst → off < winOff x.dst ∨ winOff x.dst + x.rows * x.rlen ≤ off) → (u.tile j).code off = (s.tile j).code off) ∧
      (∀ j w, (u.tile j).accWord w = (s.tile j).accWord w) ∧ (∀ a, u.stkByte a = s.stkByte a ∧ u.markOf a = s.markOf a) ∧
      (u.tile t).xfers = (s.tile t).xfers.eraseIdx k ∧ u.fld (TTOK_COUNT t x.tok) = s.fld (TTOK_COUNT t x.tok) + 1 ∧
      s.sameRegs u [aTTOK t x.tok] ∧ u.reports = s.reports := by
  obtain ⟨haddr, htile, hoff⟩ := addrDev_window hwin
  obtain ⟨hlen, hbytes⟩ := x.copied_spec s
  have hhigh : ¬ addrDev x.dst < 0x8000000000 := by rw [haddr]; simp only [tileBase]; omega
  have hpend' : (s.copying t).flag (TFLIP_PEND (winTile x.dst)) = false := (State.flag_of_reg (s.reg_copying t _)).trans hpend
  have hwritten := State.memWrite_bank (s := s.copying t) haddr hoff (bs := x.srcRows.flatMap s.rowAt) (by rw [hlen]; omega) hpend'
  have hexec := exec_transferComplete_copy hx hturn hsent hearly hkind hsrc hdst hhigh (Xfer.rowGood_of_early hearly hrows)
  rw [State.endXfer_done k hdtk] at hexec
  generalize (s.copying t).memWrite (addrDev x.dst) ((x.srcRows.flatMap s.rowAt).map fun b => (b, false)) = v at hexec hwritten
  obtain ⟨hdropped, hunit, hreports⟩ := v.dropXfer_spec t k x
  have hold : (v.dropXfer t k x).fld (TTOK_COUNT t x.tok) = s.fld (TTOK_COUNT t x.tok) :=
    State.fld_of_reg ((hunit.2.1 _ List.not_mem_nil).trans ((hwritten.reg _).trans (s.reg_copying t _)))
  obtain ⟨hset, hcount⟩ := State.tokAdd_room (s := v.dropXfer t k x) (t := t) (k := x.tok) (by rw [hold]; exact hroom)
  have hmem : v.sameMem ((v.dropXfer t k x).tokAdd t x.tok 1) := (hunit.sameMem (hdropped ▸ (Tile.keeps_xfers _ _).sameMem)).trans hset.sameMem
  obtain ⟨hbanks, hstk, hmark⟩ := hmem
  have hstacks : ∀ a, v.stkByte a = s.stkByte a ∧ v.markOf a = s.markOf a := hwritten.stacks
  refine ⟨_, hexec, fun r hr i hi => ?_, fun j off hj => ?_, fun j w => ?_, fun a => ⟨(hstk a).trans (hstacks a).1, (hmark a).trans (hstacks a).2⟩, ?_,
    hcount.trans (by rw [hold]), fun a ha => ?_, ?_⟩
  · have hin : r * x.rlen + i < (x.srcRows.flatMap s.rowAt).length := by
      rw [hlen]
      calc r * x.rlen + i < r * x.rlen + x.rlen := by omega
        _ = (r + 1) * x.rlen := by ring
        _ ≤ x.rows * x.rlen := Nat.mul_le_mul_right _ hr
    have hbyte := hbytes r hr i hi (hrows r hr).2.2.1
    rw [List.getElem?_eq_getElem hin, Option.some_inj] at hbyte
    rw [Tile.classOf, (hbanks _).1, ← Tile.classOf, Nat.add_assoc, hwritten.bytes _ hin, hbyte]
  · rw [(hbanks j).1, hwritten.outside j off (by rw [hlen]; exact hj), State.tile_copying]
  · have hacc : (v.tile j).accWord w = ((s.copying t).tile j).accWord w := hwritten.tileField (fun y => y.accWord w) (fun _ _ _ _ => rfl) j
    rw [(hbanks j).2.1, hacc, State.tile_copying]
  · rw [hset.tile, hdropped, hwritten.tileField (·.xfers) (fun _ _ _ _ => rfl), State.tile_copying]
  · exact (hset.2 a ha).trans ((hunit.2.1 a List.not_mem_nil).trans ((hwritten.reg a).trans (s.reg_copying t a)))
  · obtain ⟨⟨rs, hrs⟩, -⟩ := hset
    obtain ⟨ts, hts⟩ := hwritten.only
    rw [hrs]
    change (v.dropXfer t k x).reports = _
    rw [hreports, hts]
    rfl

end Sys2Proof.Proofs
end

section
/-! SUPPORT. The stream cache, and O15 (R172, R173, R175, R205, R206, R207, R208, R219). -/

namespace Sys2Proof.Machine

variable {s u v : State} {t a : Nat}

/-! ## A line of a stack that reads without error (R224, R226, R230) -/

/-- Every half-granule of the 2 KiB at a is free of marks and of failed channels. -/
def State.lineClean (s : State) (a : Nat) : Prop :=
  ∀ k < 64, s.markOf (a + 32 * k) = 0 ∧ s.chanFailed (a / 0x1000000000) ((a + 32 * k) % 0x1000000000) = false

theorem State.checkHalf_clean {d : Nat} (hmark : s.markOf d = 0) (hchan : s.chanFailed (d / 0x1000000000) (d % 0x1000000000) = false) :
    s.checkHalf d = (false, s) := by
  simp only [State.checkHalf, hchan, hmark, Bool.false_eq_true, if_false]

theorem State.lineClean.half (h : s.lineClean a) (ha : a % 2048 = 0) {k : Nat} (hk : k < 64) : s.checkHalf (a + 32 * k) = (false, s) := by
  obtain ⟨hmark, hchan⟩ := h k hk
  have hstack : (a + 32 * k) / 0x1000000000 = a / 0x1000000000 := by omega
  exact State.checkHalf_clean hmark (by rw [hstack]; exact hchan)

/-- Granules that read without error, in order. -/
theorem State.stkGranules_clean (n : Nat) {g : Nat} (h : ∀ j < 2 * n, s.checkHalf (g * 64 + 32 * j) = (false, s)) :
    s.stkGranules g n = ((List.range (64 * n)).map fun i => (s.stkByte (g * 64 + i), false), s) := by
  induction n generalizing g with
  | zero => rfl
  | succ n ih =>
    have hlow : s.checkHalf (g * 64) = (false, s) := h 0 (by omega)
    have hhigh : s.checkHalf (g * 64 + 32) = (false, s) := h 1 (by omega)
    have hrest := ih (g := g + 1) fun j hj => by
      rw [show (g + 1) * 64 + 32 * j = g * 64 + 32 * (j + 2) by ring]
      exact h (j + 2) (by omega)
    have hbytes : ∀ i, (g + 1) * 64 + i = g * 64 + (64 + i) := fun i => by ring
    simp only [State.stkGranules, State.stkGranule, hlow, hhigh, hrest, ite_self]
    rw [show 64 * (n + 1) = 64 + 64 * n by ring, List.range_add, List.map_append, List.map_map]
    simp only [hbytes, Function.comp_def]

theorem State.stkRead_line (h : s.lineClean a) (ha : a % 2048 = 0) :
    s.stkRead a 2048 = ((List.range 2048).map fun i => (s.stkByte (a + i), false), s) := by
  have hfirst : a / 64 * 64 = a := by omega
  have hcount : (a + 2048 - 1) / 64 - a / 64 + 1 = 32 := by omega
  have hstart : a % 64 = 0 := by omega
  have hread := State.stkGranules_clean (s := s) 32 (g := a / 64) fun j hj => by rw [hfirst]; exact h.half ha (by omega)
  rw [State.stkRead, if_neg (by decide)]
  dsimp only
  rw [hcount, hread, hstart, hfirst, List.drop_zero, List.take_of_length_le (by simp)]

/-- Whether a line reads without error depends on the marks and on its stack's channels. -/
theorem State.lineClean.congr (h : s.lineClean a) (hmark : v.stkMark = s.stkMark) (hfail : v.reg (aSFAIL (a / 0x1000000000)) = s.reg (aSFAIL (a / 0x1000000000)))
    (hmap : v.reg (aSCHMAP (a / 0x1000000000)) = s.reg (aSCHMAP (a / 0x1000000000))) : v.lineClean a := by
  have hfail' : v.fld (SFAIL_FAILMAP (a / 0x1000000000)) = s.fld (SFAIL_FAILMAP (a / 0x1000000000)) := State.fld_of_reg hfail
  have hmap' : v.fld (SCHMAP_LIVEMAP (a / 0x1000000000)) = s.fld (SCHMAP_LIVEMAP (a / 0x1000000000)) := State.fld_of_reg hmap
  intro k hk
  obtain ⟨hm, hc⟩ := h k hk
  refine ⟨by rw [State.markOf, hmark]; exact hm, ?_⟩
  rw [State.chanFailed, State.channelOf, State.liveList, hfail', hmap']
  exact hc

/-- The line of a's bytes. -/
def State.cleanLine (s : State) (a : Nat) (due : Bool) : CLine := ⟨a, (List.range 2048).map fun i => codeWord (s.stkByte (a + i)) 0, due⟩

/-! ## Lines of a tile (R205) -/

theorem Tile.installLine_lines (x : Tile) (n : Nat) (l : CLine) :
    (x.installLine n l).lineAt l.addr = some l ∧ ∀ c ∈ (x.installLine n l).lines, c = l ∨ c ∈ x.lines := by
  simp only [Tile.installLine, Tile.lineAt]
  constructor
  · rw [List.find?_append, List.find?_eq_none.mpr, Option.none_or]
    · simp
    · intro c hc
      have hc := List.of_mem_filter hc
      simp only [Bool.and_eq_true, bne_iff_ne] at hc
      simpa using hc.1
  · intro c hc
    obtain hc | hc := List.mem_append.mp hc
    · exact .inr (List.mem_of_mem_filter hc)
    · exact .inl (List.mem_singleton.mp hc)

theorem Tile.keeps_installLine (x : Tile) (n : Nat) (l : CLine) : x.Keeps (x.installLine n l) := ⟨rfl, rfl, rfl, rfl, rfl, rfl⟩

theorem State.cleanLine_congr (h : v.stk = s.stk) (a : Nat) (due : Bool) : v.cleanLine a due = s.cleanLine a due := by
  simp only [State.cleanLine, State.stkByte, h]

/-- The burst of one line. -/
theorem State.countBurst_line (s : State) (ha : a % 2048 = 0) :
    s.countBurst a 2048 = (s.bump (SBURST_BURSTS (a / 0x1000000000)) 1).bump (SBURST_GRANS (a / 0x1000000000)) 32 := by
  have hstack : (a + 2048 - 1) / 0x1000000000 - a / 0x1000000000 + 1 = 1 := by omega
  have hlo : max a (stackBase (a / 0x1000000000 + 0)) = a := by simp only [stackBase]; omega
  have hhi : min (a + 2048) (stackBase (a / 0x1000000000 + 0 + 1)) = a + 2048 := by simp only [stackBase]; omega
  have hbursts : (a + 2048 - 1) / 2048 - a / 2048 + 1 = 1 := by omega
  have hgrans : (a + 2048 - 1) / 64 - a / 64 + 1 = 32 := by omega
  rw [State.countBurst, if_neg (by decide), hstack, State.each, List.range_one, List.foldl_cons, List.foldl_nil]
  dsimp only
  rw [hlo, hhi, hbursts, hgrans]
  rfl

theorem aSBURST_apart (st : Nat) : aSFAIL st ≠ aSBURST st ∧ aSCHMAP st ≠ aSBURST st := by
  simp only [aSFAIL, aSCHMAP, aSBURST]
  omega

/-- A line fetched from a stack that reads without error. -/
theorem State.fetchLine_clean (h : s.lineClean a) (ha : a % 2048 = 0) (t : Nat) (due : Bool) :
    ∃ v, State.OnlySet [aSBURST (a / 0x1000000000)] s v ∧
      v.fld (SBURST_BURSTS (a / 0x1000000000)) = min (2 ^ 32 - 1) (s.fld (SBURST_BURSTS (a / 0x1000000000)) + 1) ∧
      s.fetchLine t a due = (s.cleanLine a due, v.modTile t fun x => x.installLine (s.scn t) (s.cleanLine a due)) := by
  obtain ⟨v, hv⟩ : ∃ v, v = s.countBurst a 2048 := ⟨_, rfl⟩
  have hbump := s.countBurst_line ha
  rw [← hv] at hbump
  have hset : State.OnlySet [aSBURST (a / 0x1000000000)] s v :=
    hbump ▸ ((State.OnlySet.refl _ s).setFld (f := SBURST_BURSTS (a / 0x1000000000)) List.mem_cons_self _).setFld
      (f := SBURST_GRANS (a / 0x1000000000)) List.mem_cons_self _
  have hstores : v.stk = s.stk ∧ v.stkMark = s.stkMark := by
    obtain ⟨⟨rs, hrs⟩, -⟩ := hset
    rw [hrs]
    exact ⟨rfl, rfl⟩
  obtain ⟨hfail, hmap⟩ := aSBURST_apart (a / 0x1000000000)
  have hclean : v.lineClean a := h.congr hstores.2 (hset.2 _ (by simpa using hfail)) (hset.2 _ (by simpa using hmap))
  refine ⟨v, hset, ?_, ?_⟩
  · rw [hbump, State.bump, State.fld_setFld_apart _ _ (by simp [Fld.apart, SBURST_GRANS, SBURST_BURSTS]),
      State.fld_bump _ _ _ (by simp [SBURST_BURSTS])]
    rfl
  · have hline : v.cleanLine a due = s.cleanLine a due := State.cleanLine_congr hstores.1 a due
    have hbytes : (((List.range 2048).map fun i => (v.stkByte (a + i), false)).map fun b => codeWord b.1 (if b.2 then 0x1E else 0)) =
        (List.range 2048).map fun i => codeWord (v.stkByte (a + i)) 0 := by
      rw [List.map_map]
      rfl
    rw [State.fetchLine, ← hv, State.stkRead_line hclean ha]
    dsimp only
    rw [hbytes, ← hline]
    rfl

/-! ## LINE_FILL (R205, R207) -/

theorem aTSCCNT_apart (t st : Nat) : aTSCCNT t ≠ aSBURST st := by
  simp only [aTSCCNT, aSBURST]
  omega

/-- A fetch of a clean line, from a state in which only its tile and the tile's cache counters have changed. -/
theorem State.fetchLine_spec (h : s.lineClean a) (ha : a % 2048 = 0) (hv : State.OnlyUnit t [aTSCCNT t] s v)
    (hkeeps : (s.tile t).Keeps (v.tile t)) (hlines : (v.tile t).lines = (s.tile t).lines) (due : Bool) :
    let u := (v.fetchLine t a due).2
    (u.tile t).lineAt a = some (s.cleanLine a due) ∧ s.sameMem u ∧ s.sameTilesBut u t ∧ (∀ l ∈ (u.tile t).lines, l.addr = a ∨ l ∈ (s.tile t).lines)
      ∧ u.fld (SBURST_BURSTS (a / 0x1000000000)) = min (2 ^ 32 - 1) (s.fld (SBURST_BURSTS (a / 0x1000000000)) + 1)
      ∧ u.fld (TSCCNT_MISSES t) = v.fld (TSCCNT_MISSES t) ∧ s.sameRegs u [aSBURST (a / 0x1000000000), aTSCCNT t] ∧ s.sameRest u := by
  have hstores : v.stk = s.stk ∧ v.stkMark = s.stkMark := ⟨hv.2.2.1, hv.2.2.2.1⟩
  have hburst := aTSCCNT_apart t (a / 0x1000000000)
  have hhigh : ∀ st, aSFAIL st ∉ [aTSCCNT t] ∧ aSCHMAP st ∉ [aTSCCNT t] := by
    intro st
    simp only [aSFAIL, aSCHMAP, aTSCCNT, List.mem_singleton]
    omega
  have hclean : v.lineClean a := h.congr hstores.2 (hv.2.1 _ (hhigh _).1) (hv.2.1 _ (hhigh _).2)
  obtain ⟨w, hset, hcount, hfetch⟩ := State.fetchLine_clean hclean ha t due
  rw [State.cleanLine_congr hstores.1] at hfetch
  have htile : (w.modTile t fun x => x.installLine (v.scn t) (s.cleanLine a due)).tile t = (v.tile t).installLine (v.scn t) (s.cleanLine a due) := by
    rw [State.tile_modTile_same, hset.tile]
  obtain ⟨hline, hall⟩ := (v.tile t).installLine_lines (v.scn t) (s.cleanLine a due)
  have hunit : State.OnlyUnit t [aSBURST (a / 0x1000000000), aTSCCNT t] s (w.modTile t fun x => x.installLine (v.scn t) (s.cleanLine a due)) :=
    ((hv.mono (by simp)).trans ((hset.onlyUnit t).mono (by simp))).trans (w.onlyUnit_modTile t _ _)
  have hold : v.fld (SBURST_BURSTS (a / 0x1000000000)) = s.fld (SBURST_BURSTS (a / 0x1000000000)) :=
    State.fld_of_sameRegs hv.2.1 (f := SBURST_BURSTS _) (mt List.mem_singleton.mp hburst.symm)
  dsimp only
  rw [hfetch]
  refine ⟨by rw [htile]; exact hline, hunit.sameMem (htile ▸ (hkeeps.trans (Tile.keeps_installLine _ _ _)).sameMem), hunit.1, fun l hl => ?_,
    by rw [State.fld_modTile, hcount, hold], ?_, hunit.2.1, hunit.2.2⟩
  · rw [htile] at hl
    obtain rfl | hl := hall l hl
    · exact .inl rfl
    · exact .inr (hlines ▸ hl)
  · rw [State.fld_modTile]
    exact hset.fld (f := TSCCNT_MISSES t) (mt List.mem_singleton.mp hburst)

theorem Tile.trackMiss_keeps (x : Tile) (a : Nat) : x.Keeps (x.trackMiss a) ∧ (x.trackMiss a).lines = x.lines := by
  unfold Tile.trackMiss
  dsimp only
  split <;> exact ⟨⟨rfl, rfl, rfl, rfl, rfl, rfl⟩, rfl⟩

/-- A prefetch of a line that reads without error makes no report. -/
theorem State.prefetchLine_clean (h : s.lineClean a) (ha : a % 2048 = 0) (t : Nat) : s.prefetchLine t a = (s.fetchLine t a false).2 := by
  obtain ⟨w, hset, -, hfetch⟩ := State.fetchLine_clean h ha t false
  have hreports : (s.fetchLine t a false).2.reports = s.reports := by
    obtain ⟨⟨rs, hrs⟩, -⟩ := hset
    rw [hfetch, hrs]
    rfl
  rw [State.prefetchLine, hreports, List.drop_length, List.filter_nil, List.append_nil, ← hreports]

/-- A miss counted and tracked. -/
def State.missed (s : State) (t a : Nat) : State := (s.bump (TSCCNT_MISSES t) 1).modTile t fun x => x.trackMiss a

theorem State.missLine_eq (s : State) (t a : Nat) (due : Bool) : s.missLine t a due = (s.missed t a).fetchLine t a due := rfl

theorem State.missed_spec (s : State) (t a : Nat) :
    State.OnlyUnit t [aTSCCNT t] s (s.missed t a) ∧ (s.missed t a).tile t = (s.tile t).trackMiss a
      ∧ (s.missed t a).fld (TSCCNT_MISSES t) = min (2 ^ 32 - 1) (s.fld (TSCCNT_MISSES t) + 1) := by
  have hset : State.OnlySet [aTSCCNT t] s (s.bump (TSCCNT_MISSES t) 1) :=
    (State.OnlySet.refl _ s).setFld (f := TSCCNT_MISSES t) List.mem_cons_self _
  refine ⟨(hset.onlyUnit t).trans (State.onlyUnit_modTile _ t _ _), ?_, ?_⟩
  · rw [State.missed, State.tile_modTile_same, hset.tile]
  · rw [State.missed, State.fld_modTile, State.fld_bump _ _ _ (by simp [TSCCNT_MISSES])]
    rfl

theorem exec_lineFill_wanted (ha : a % 2048 = 0) (hlow : a < 0x8000000000) (hscn : s.scn t ≠ 0) (hwanted : s.lineWanted t a = true) :
    exec (.lineFill t a) s = .next (if s.lineDemand t a then (s.missLine t a true).2 else s.prefetchLine t a) := by
  change execLineFill t a s = _
  rw [execLineFill, if_pos ⟨ha, hlow, hscn, hwanted⟩]

/-! ## A read that hits (R205) -/

theorem Tile.keeps_touchLine (x : Tile) (a : Nat) : x.Keeps (x.touchLine a) := ⟨rfl, rfl, rfl, rfl, rfl, rfl⟩

/-- The line that is used is found again, no longer awaited. -/
theorem Tile.lineAt_touchLine {x : Tile} {l : CLine} (h : x.lineAt a = some l) : (x.touchLine a).lineAt a = some { l with due := false } := by
  have hfirst : (x.lines.filter fun l => l.addr == a).head? = some l := by rw [List.head?_filter]; exact h
  have haddr : l.addr = a := by simpa using List.find?_some h
  obtain ⟨rest, hrest⟩ : ∃ rest, x.lines.filter (fun l => l.addr == a) = l :: rest := by
    cases hf : x.lines.filter fun l => l.addr == a with
    | nil => rw [hf] at hfirst; cases hfirst
    | cons c rest =>
      rw [hf, List.head?_cons, Option.some_inj] at hfirst
      exact ⟨rest, by rw [hfirst]⟩
  rw [Tile.touchLine, Tile.lineAt, List.find?_append, List.find?_eq_none.mpr, Option.none_or, hrest, List.map_cons, List.find?_cons_of_pos]
  · simpa using haddr
  · intro c hc
    simpa using List.of_mem_filter hc

/-- A hit counted, but for the read that a line was filled for. -/
def State.hitCounted (s : State) (t : Nat) (l : CLine) : State := if l.due then s else s.bump (TSCCNT_HITS t) 1

theorem State.hitCounted_spec (s : State) (t : Nat) (l : CLine) :
    State.OnlySet [aTSCCNT t] s (s.hitCounted t l)
      ∧ (s.hitCounted t l).fld (TSCCNT_HITS t) = (if l.due then s.fld (TSCCNT_HITS t) else min (2 ^ 32 - 1) (s.fld (TSCCNT_HITS t) + 1)) := by
  unfold State.hitCounted
  split
  · exact ⟨State.OnlySet.refl _ s, rfl⟩
  · exact ⟨(State.OnlySet.refl _ s).setFld (f := TSCCNT_HITS t) List.mem_cons_self _, State.fld_bump _ _ _ (by simp [TSCCNT_HITS])⟩

theorem State.cacheRead_hit {l : CLine} {lo n : Nat} (hline : (s.tile t).lineAt a = some l) (hgood : ∀ c ∈ l.classes lo n, ∃ d, c = .good d) :
    s.cacheRead t a lo n = (l.read lo n, (s.hitCounted t l).modTile t fun x => x.touchLine a) := by
  have hclean : anyPois (l.read lo n) = false := by
    rw [anyPois, CLine.read, List.any_map, List.any_eq_false]
    intro c hc
    obtain ⟨d, rfl⟩ := hgood c hc
    exact Bool.false_ne_true
  have hnone : ∀ f : ByteClass → Bool, (∀ d, f (.good d) = false) → (l.classes lo n).filter f = [] := by
    intro f hf
    rw [List.filter_eq_nil_iff]
    intro c hc
    obtain ⟨d, rfl⟩ := hgood c hc
    rw [hf]
    exact Bool.false_ne_true
  simp only [State.cacheRead, hline, hclean, Bool.false_eq_true, if_false]
  rw [hnone _ fun _ => rfl]
  rfl

/-! ## A line that is fetched again (R208): what the bucket of R210 may write -/

/-- A register of the stacks, or the error counter of a tile. -/
def notedApart (a : Nat) : Prop := (0x020000100000 ≤ a ∧ a < 0x020000180000) ∨ ∃ k < 2048, a = aTECCCNT k

/-- u is s but for what the device writes when it tells of an error: no tile, no stack, and none of these registers. -/
structure State.Noted (s u : State) : Prop where
  tiles : u.tiles = s.tiles
  stk : u.stk = s.stk
  stkMark : u.stkMark = s.stkMark
  regs : ∀ a, notedApart a → u.reg a = s.reg a

theorem State.Noted.refl (s : State) : State.Noted s s := ⟨rfl, rfl, rfl, fun _ _ => rfl⟩

theorem State.Noted.trans (h : State.Noted s u) (k : State.Noted u v) : State.Noted s v :=
  ⟨k.tiles.trans h.tiles, k.stk.trans h.stk, k.stkMark.trans h.stkMark, fun a ha => (k.regs a ha).trans (h.regs a ha)⟩

theorem State.OnlySet.noted {l : List Nat} (h : State.OnlySet l s u) (hl : ∀ a ∈ l, ¬ notedApart a) : State.Noted s u := by
  obtain ⟨⟨rs, rfl⟩, hregs⟩ := h
  exact ⟨rfl, rfl, rfl, fun a ha => hregs a fun hin => hl a hin ha⟩

theorem State.noted_setFld (s : State) {f : Fld} (h : ¬ notedApart f.addr) (n : Nat) : State.Noted s (s.setFld f n) :=
  ((State.OnlySet.refl [f.addr] s).setFld List.mem_cons_self n).noted (by simpa using h)

theorem State.OnlySent.noted (h : State.OnlySent s u) : State.Noted s u := by
  obtain ⟨_, _, _, _, rfl⟩ := h
  exact ⟨rfl, rfl, rfl, fun _ _ => rfl⟩

/-- Registers outside the stacks' and the tiles' blocks, and those of a tile below its error counter, are written freely. -/
theorem not_notedApart {a : Nat} (hglobal : a < 0x020000100000 ∨ 0x020000180000 ≤ a)
    (htile : ∀ k < 2048, a ≠ aTECCCNT k) : ¬ notedApart a := by
  rintro (h | ⟨k, hk, rfl⟩)
  · omega
  · exact htile k hk rfl

theorem State.noted_report (s : State) (half typ sev src addr detail : Nat) : State.Noted s (s.report half typ sev src addr detail) :=
  ⟨rfl, rfl, rfl, fun _ _ => rfl⟩

theorem State.noted_msix (s : State) (fn vec : Nat) : State.Noted s (s.msix fn vec) := by
  unfold State.msix
  dsimp only
  split
  · split <;> exact ⟨rfl, rfl, rfl, fun _ _ => rfl⟩
  · exact ⟨rfl, rfl, rfl, fun _ _ => rfl⟩

theorem State.noted_event (s : State) (c typ src aux data : Nat) : State.Noted s (s.event c typ src aux data) := by
  have hlost : State.Noted s (s.bump (HEVLOST_LOST c) 1) := by
    refine s.noted_setFld (f := HEVLOST_LOST c) (not_notedApart ?_ ?_) _ <;> simp only [HEVLOST_LOST, aHEVLOST, aTECCCNT]
    · omega
    · intro k hk; omega
  unfold State.event
  dsimp only
  split
  · exact State.Noted.refl s
  · split
    · split
      · exact hlost
      · exact hlost.trans ⟨rfl, rfl, rfl, fun _ _ => rfl⟩
    · refine State.Noted.trans ?_ (State.noted_msix _ c 1)
      exact ⟨rfl, rfl, rfl, fun _ _ => rfl⟩

theorem tokenAt_spec {d k i : Nat} (h : tokenAt d = some (k, i)) : k < 2048 ∧ i < 32 := by
  unfold tokenAt at h
  split at h
  · next hd =>
    dsimp only at h
    split at h
    · next ho =>
      obtain ⟨rfl, rfl⟩ := Prod.mk.injEq .. ▸ Option.some_inj.mp h
      simp only [tileBase] at hd ho ⊢
      omega
    · cases h
  · cases h

theorem mboxAt_spec {d k i : Nat} (h : mboxAt d = some (k, i)) : k < 2048 ∧ i < 16 := by
  unfold mboxAt at h
  split at h
  · next hd =>
    dsimp only at h
    split at h
    · next ho =>
      obtain ⟨rfl, rfl⟩ := Prod.mk.injEq .. ▸ Option.some_inj.mp h
      simp only [tileBase] at hd ho ⊢
      omega
    · cases h
  · cases h

theorem State.noted_deliverAdd (s : State) (a n : Nat) : State.Noted s (s.deliverAdd a n) := by
  have htok : ∀ k i, k < 2048 → i < 32 → ∀ b ∈ [aTSQSTAT k, aTTOK k i], ¬ notedApart b := by
    intro k i hk hi b hb
    simp only [List.mem_cons, List.not_mem_nil, or_false] at hb
    obtain rfl | rfl := hb <;> refine not_notedApart ?_ ?_ <;> simp only [aTSQSTAT, aTTOK, aTECCCNT] <;> omega
  have hbox : ∀ k i, k < 2048 → i < 16 → ∀ b ∈ [aTMBX k i], ¬ notedApart b := by
    intro k i hk hi b hb
    rw [List.mem_singleton.mp hb]
    refine not_notedApart ?_ ?_ <;> simp only [aTMBX, aTECCCNT] <;> omega
  unfold State.deliverAdd
  split
  · split
    · exact ⟨rfl, rfl, rfl, fun _ _ => rfl⟩
    · split
      · next h => exact (s.onlySet_tokAdd _ _ n).noted (htok _ _ (tokenAt_spec h).1 (tokenAt_spec h).2)
      · next h => exact (s.mboxOp_spec _ _ 2 _ 0).2.noted (hbox _ _ (mboxAt_spec h).1 (mboxAt_spec h).2)
      · exact State.Noted.refl s
  · exact (s.onlySent_sendPkt _).noted

theorem State.noted_told (s : State) (l : List Nat) (typ src aux data fn vec : Nat) :
    State.Noted s ((s.each l fun s c => s.event c typ src aux data).emit (.msix fn vec)) :=
  (foldl_rel (R := State.Noted) State.Noted.refl State.Noted.trans (fun s c _ => s.noted_event c typ src aux data) s).trans
    ⟨rfl, rfl, rfl, fun _ _ => rfl⟩

theorem State.noted_failWarn (s : State) (bit : Nat) : State.Noted s (s.failWarn bit) := by
  have hhint : ¬ notedApart aGCKHINT := by refine not_notedApart ?_ ?_ <;> simp only [aGCKHINT, aTECCCNT] <;> omega
  have hset : State.Noted s (s.orFld ⟨aGCKHINT, 0, 4⟩ (2 ^ bit)) := s.noted_setFld hhint _
  have hcount : ∀ v : State, State.Noted v { v.bump GCKHINT_COUNT 1 with hintHold := true } := fun v =>
    (v.noted_setFld (f := GCKHINT_COUNT) hhint _).trans ⟨rfl, rfl, rfl, fun _ _ => rfl⟩
  unfold State.failWarn
  dsimp only
  split
  · exact hset
  · have htold := fun l aux => (hset.trans (hcount _)).trans (State.noted_told _ l 3 0 aux 0 0 3)
    split
    · exact (htold _ _).trans (State.noted_deliverAdd _ _ 1)
    · exact htold _ _

theorem State.noted_bucket (s : State) {k : Nat} (hk : k < 10) : State.Noted s (s.bucket k) := by
  have hreg : ∀ n, n < 10 → ¬ notedApart (aGECCBKT n) := by
    intro n hn
    refine not_notedApart ?_ ?_ <;> simp only [aGECCBKT, aTECCCNT] <;> omega
  have hleak : ∀ c, State.Noted s (s.leakDue c) := by
    intro c
    obtain ⟨⟨rs, lk, hu⟩, hregs⟩ := s.onlyTime_leakDue c
    refine ⟨by rw [hu], by rw [hu], by rw [hu], fun a ha => hregs a fun hin => ?_⟩
    obtain ⟨n, hn, rfl⟩ := List.mem_map.mp hin
    exact hreg n (List.mem_range.mp hn) ha
  have hfull : ∀ v : State, State.Noted v (((v.setFld (GECCBKT_LEVEL k) 0).bump (GECCBKT_OVFCNT k) 1).setFld (GECCBKT_OVF k) 1) := fun v =>
    ((v.noted_setFld (f := GECCBKT_LEVEL k) (hreg k hk) _).trans (State.noted_setFld _ (f := GECCBKT_OVFCNT k) (hreg k hk) _)).trans
      (State.noted_setFld _ (f := GECCBKT_OVF k) (hreg k hk) _)
  unfold State.bucket
  dsimp only
  generalize (if k < 2 then 0 else 1) = c
  generalize (if k < 2 then k else halfOfStack (k - 2)) = half
  generalize (if (s.leakDue c).fld (GECCCFG_INC c) = 0 then 16 else (s.leakDue c).fld (GECCCFG_INC c)) = inc
  split
  · refine (((hleak c).trans (hfull _)).trans ?_).trans (State.noted_failWarn _ 0)
    exact State.noted_report _ _ _ _ _ _ _
  · exact (hleak _).trans (State.noted_setFld _ (f := GECCBKT_LEVEL k) (hreg k hk) _)

/-- One correctable error counted for a tile. -/
theorem State.noteCe_spec (s : State) (ht : t < 2048) :
    (s.noteCe t).tiles = s.tiles ∧ (s.noteCe t).stk = s.stk ∧ (s.noteCe t).stkMark = s.stkMark
      ∧ (∀ a, notedApart a → a ≠ aTECCCNT t → (s.noteCe t).reg a = s.reg a)
      ∧ (s.noteCe t).fld (TECCCNT_CE t) = min (2 ^ (TECCCNT_CE t).w - 1) (s.fld (TECCCNT_CE t) + 1) := by
  have hhalf : halfOfTile t < 10 := by simp only [halfOfTile]; omega
  have hnote : s.noteCe t = (s.bump (TECCCNT_CE t) 1).bucket (halfOfTile t) := rfl
  obtain ⟨htiles, hstk, hmark, hregs⟩ := (s.bump (TECCCNT_CE t) 1).noted_bucket hhalf
  rw [hnote]
  refine ⟨by rw [htiles, State.bump_tiles], by rw [hstk, State.bump_stk], by rw [hmark, State.bump_stkMark], fun a ha hne => (hregs a ha).trans (State.reg_setFld_other _ _ _ _ hne), ?_⟩
  rw [State.fld_of_reg (hregs _ (.inr ⟨t, ht, rfl⟩)), State.fld_bump _ _ _ (by simp [TECCCNT_CE])]

/-- The state in which a line with an uncorrectable byte is fetched again: a hit and a correctable error counted, the line discarded. -/
def State.lineBad (s : State) (t a : Nat) (l : CLine) : State :=
  ((s.hitCounted t l).noteCe t).modTile t fun x => { x with lines := x.lines.filter fun l => l.addr != a }

theorem State.cacheRead_refetch {l : CLine} {lo n : Nat} (hline : (s.tile t).lineAt a = some l) (hdue : l.due = false)
    (hpois : anyPois (l.read lo n) = true) :
    s.cacheRead t a lo n = (((s.lineBad t a l).fetchLine t a false).1.read lo n, ((s.lineBad t a l).fetchLine t a false).2) := by
  simp only [State.cacheRead, hline, hpois, hdue, Bool.false_eq_true, if_false, if_true, State.lineBad, State.hitCounted]

theorem State.lineBad_spec (ht : t < 2048) (hlow : a < 0x8000000000) (hclean : s.lineClean a) (l : CLine) :
    s.sameMem (s.lineBad t a l) ∧ (s.lineBad t a l).stk = s.stk ∧ (s.lineBad t a l).lineClean a
      ∧ (s.lineBad t a l).fld (TECCCNT_CE t) = min (2 ^ (TECCCNT_CE t).w - 1) (s.fld (TECCCNT_CE t) + 1) := by
  obtain ⟨hset, -⟩ := s.hitCounted_spec t l
  obtain ⟨htiles, hstk, hmark, hregs, hcount⟩ := (s.hitCounted t l).noteCe_spec ht
  have hstores : (s.hitCounted t l).stk = s.stk ∧ (s.hitCounted t l).stkMark = s.stkMark := by
    obtain ⟨⟨rs, hrs⟩, -⟩ := hset
    rw [hrs]
    exact ⟨rfl, rfl⟩
  have hmem : s.sameMem ((s.hitCounted t l).noteCe t) := hset.sameMem.trans (State.sameMem_of_stores htiles hstk hmark)
  have hstackReg : ∀ b, 0x020000100000 ≤ b → b < 0x020000180000 → (s.lineBad t a l).reg b = s.reg b := by
    intro b hb hb'
    have hne : b ≠ aTECCCNT t := by simp only [aTECCCNT]; omega
    have hne' : b ≠ aTSCCNT t := by simp only [aTSCCNT]; omega
    exact (hregs b (.inl ⟨hb, hb'⟩) hne).trans (hset.2 b (mt List.mem_singleton.mp hne'))
  have hold : (s.hitCounted t l).fld (TECCCNT_CE t) = s.fld (TECCCNT_CE t) :=
    hset.fld (f := TECCCNT_CE t) (by simp only [TECCCNT_CE, aTECCCNT, aTSCCNT, List.mem_singleton]; omega)
  refine ⟨hmem.trans (State.sameMem_modTile _ t ⟨fun _ => rfl, fun _ => rfl, fun _ => rfl⟩), hstk.trans hstores.1,
    hclean.congr (hmark.trans hstores.2) (hstackReg _ ?_ ?_) (hstackReg _ ?_ ?_), ?_⟩
  · simp only [aSFAIL]; omega
  · simp only [aSFAIL]; omega
  · simp only [aSCHMAP]; omega
  · simp only [aSCHMAP]; omega
  · rw [State.lineBad, State.fld_modTile, hcount, hold]

/-- A line read from a stack without error gives its bytes. -/
theorem State.read_cleanLine (s : State) (a lo n : Nat) (due : Bool) :
    (s.cleanLine a due).read lo n = (((List.range 2048).map fun i => (s.stkByte (a + i), false)).drop lo).take n := by
  have hgood : ∀ b < 256, (classify (codeWord b 0)).value = (b, false) := by
    intro b hb
    have hbyte : byteCode (b, false) = codeWord b 0 := rfl
    rw [← hbyte, classify_byteCode_good, Nat.mod_eq_of_lt hb]
    rfl
  have hbytes : (((s.cleanLine a due).bytes).map classify).map ByteClass.value = (List.range 2048).map fun i => (s.stkByte (a + i), false) := by
    simp only [State.cleanLine, List.map_map]
    exact List.map_congr_left fun i _ => hgood _ (BitVec.isLt _)
  rw [CLine.read, CLine.classes, List.map_take, List.map_drop, List.map_take, List.map_drop, hbytes]

end Sys2Proof.Machine

namespace Sys2Proof.Proofs
open Sys2Proof Sys2Proof.Machine

variable {s : State} {t a : Nat}

theorem lineFill_fills (ha : a % 2048 = 0) (hlow : a < 0x8000000000) (hscn : s.scn t ≠ 0) (hwanted : s.lineWanted t a = true) (hclean : s.lineClean a) :
    Gives (exec (.lineFill t a) s) fun u =>
      (u.tile t).lineAt a = some ⟨a, (List.range 2048).map fun i => codeWord (s.stkByte (a + i)) 0, s.lineDemand t a⟩ ∧ s.sameMem u ∧ s.sameTilesBut u t
        ∧ (∀ l ∈ (u.tile t).lines, l.addr = a ∨ l ∈ (s.tile t).lines)
        ∧ u.fld (SBURST_BURSTS (a / 0x1000000000)) = min (2 ^ 32 - 1) (s.fld (SBURST_BURSTS (a / 0x1000000000)) + 1)
        ∧ u.fld (TSCCNT_MISSES t) = (if s.lineDemand t a then min (2 ^ 32 - 1) (s.fld (TSCCNT_MISSES t) + 1) else s.fld (TSCCNT_MISSES t))
        ∧ s.sameRegs u [aSBURST (a / 0x1000000000), aTSCCNT t] ∧ s.sameRest u := by
  have hexec := exec_lineFill_wanted ha hlow hscn hwanted
  cases hdemand : s.lineDemand t a with
  | true =>
    rw [hdemand, if_pos rfl, State.missLine_eq] at hexec
    obtain ⟨honly, htile, hmiss⟩ := s.missed_spec t a
    obtain ⟨hkeeps, hlines⟩ := (s.tile t).trackMiss_keeps a
    obtain ⟨hat, hmem, htiles, hall, hburst, hcount, hregs, hrest⟩ := State.fetchLine_spec hclean ha honly (htile ▸ hkeeps) (htile ▸ hlines) true
    exact ⟨_, hexec, hat, hmem, htiles, hall, hburst, hcount.trans hmiss, hregs, hrest⟩
  | false =>
    rw [hdemand, if_neg Bool.false_ne_true, State.prefetchLine_clean hclean ha] at hexec
    obtain ⟨hat, hmem, htiles, hall, hburst, hcount, hregs, hrest⟩ := State.fetchLine_spec hclean ha ((State.OnlySet.refl [aTSCCNT t] s).onlyUnit t)
      (Tile.Keeps.refl _) rfl false
    exact ⟨_, hexec, hat, hmem, htiles, hall, hburst, hcount, hregs, hrest⟩

theorem refetch_reads {lo n : Nat} {l : CLine} (ht : t < 2048) (ha : a % 2048 = 0) (hlow : a < 0x8000000000) (hline : (s.tile t).lineAt a = some l)
    (hdue : l.due = false) (hpois : anyPois (l.read lo n) = true) (hclean : s.lineClean a) :
    let u := (s.cacheRead t a lo n).2
    (s.cacheRead t a lo n).1 = (((List.range 2048).map fun i => (s.stkByte (a + i), false)).drop lo).take n ∧
      u.fld (TECCCNT_CE t) = min (2 ^ (TECCCNT_CE t).w - 1) (s.fld (TECCCNT_CE t) + 1) ∧
      (u.tile t).lineAt a = some ⟨a, (List.range 2048).map fun i => codeWord (s.stkByte (a + i)) 0, false⟩ ∧ s.sameMem u := by
  obtain ⟨hunit, hstk, hlclean, hcount⟩ := State.lineBad_spec ht hlow hclean l
  obtain ⟨w, hset, -, hfetch⟩ := State.fetchLine_clean hlclean ha t false
  have hsame : (s.lineBad t a l).cleanLine a false = s.cleanLine a false := State.cleanLine_congr hstk a false
  rw [hsame] at hfetch
  have hburst : aTECCCNT t ∉ [aSBURST (a / 0x1000000000)] := by
    simp only [aTECCCNT, aSBURST, List.mem_singleton]
    omega
  have hmem : w.sameMem (w.modTile t fun x => x.installLine ((s.lineBad t a l).scn t) (s.cleanLine a false)) :=
    w.sameMem_modTile t (Tile.keeps_installLine _ _ _).sameMem
  dsimp only
  rw [State.cacheRead_refetch hline hdue hpois, hfetch]
  refine ⟨s.read_cleanLine a lo n false, ?_, ?_, (hunit.trans hset.sameMem).trans hmem⟩
  · rw [State.fld_modTile, hset.fld (f := TECCCNT_CE t) hburst, hcount]
  · rw [State.tile_modTile_same]
    exact (Tile.installLine_lines _ _ _).1

theorem hit_reads {lo n : Nat} {l : CLine} (hline : (s.tile t).lineAt a = some l) (hgood : ∀ c ∈ l.classes lo n, ∃ v, c = .good v) :
    (s.cacheRead t a lo n).1 = l.read lo n ∧
      let u := (s.cacheRead t a lo n).2
      u.fld (TSCCNT_HITS t) = (if l.due then s.fld (TSCCNT_HITS t) else min (2 ^ 32 - 1) (s.fld (TSCCNT_HITS t) + 1))
        ∧ (u.tile t).lineAt a = some { l with due := false } ∧ s.sameMem u ∧ s.sameTilesBut u t ∧ s.sameRegs u [aTSCCNT t] := by
  obtain ⟨hset, hcount⟩ := s.hitCounted_spec t l
  have hunit := (hset.onlyUnit t).trans ((s.hitCounted t l).onlyUnit_modTile t (fun x => x.touchLine a) _)
  have htile : ((s.hitCounted t l).modTile t fun x => x.touchLine a).tile t = (s.tile t).touchLine a := by
    rw [State.tile_modTile_same, hset.tile]
  rw [State.cacheRead_hit hline hgood]
  refine ⟨rfl, (State.fld_modTile _ _ _ _).trans hcount, ?_, hunit.sameMem (htile ▸ (Tile.keeps_touchLine _ a).sameMem), hunit.1, hunit.2.1⟩
  rw [htile]
  exact Tile.lineAt_touchLine hline

/-- Settles O15: SM.SUB, plain copies, refusals, and the stream cache. -/
theorem streamMoverAndCache : Obligations.StreamMoverAndCache := by
  unfold Obligations.StreamMoverAndCache
  refine ⟨fun r hr s t b hi => ?submit, fun s t k x hx hturn hsent hearly hkind hdtk hsrc hdst hwin hlast _ hpend _ hroom hrows =>
      copy_completes hx hturn hsent hearly hkind hdtk hsrc hdst hwin hlast hpend hroom hrows,
    fun s t k x _ hx hturn hsent htok hst => ⟨_, exec_transferComplete_refused hx hturn hsent hst, ?refused⟩,
    fun s t a _ ha hlow hscn hwanted hclean => lineFill_fills ha hlow hscn hwanted hclean,
    fun s t a lo n l ht hline => ⟨fun hdue hpois hlow hclean ha => refetch_reads ht ha hlow hline hdue hpois hclean, hit_reads hline⟩,
    fun s t => ⟨_, exec_streamCacheInvalidate s t, ?invalidate⟩⟩
  case submit =>
    intro off x
    refine ⟨fun hrange _ hclean hkind hlocal hroom hfull hhold => ?_, fun hrange => ?_⟩
    · refine Gives.of_issue hi (congrArg Host.Outcome.next (smSub_issue r.2 t b s) ▸ exec_moverRows hr t b s) ?_
      rw [smSubmit_local rfl hrange hclean hkind hlocal hroom hfull hhold]
      exact State.perform_putXfer s t _
    · refine Gives.of_issue hi (congrArg Host.Outcome.next (smSub_issue r.2 t b s) ▸ exec_moverRows hr t b s) ?_
      rw [smSubmit_outside hrange]
      exact State.issues_trapsHere hi 2 0
  case refused => exact State.endXfer_refused (s := s.freshen) k htok (by omega) (by omega)
  case invalidate =>
    have htile := State.tile_modTile_same s t Tile.noLines
    have honly := s.onlyUnit_modTile t Tile.noLines [aTSQSTAT t]
    exact ⟨by rw [htile]; rfl, scalarFrame_of_onlyUnit honly (htile ▸ (s.tile t).keeps_noLines.leaves _ _ _), State.pc_modTile _ _ _ _, by rw [htile]; rfl,
      by rw [htile]; rfl⟩

end Sys2Proof.Proofs
end

section
/-! SUPPORT. Packets that arrive: what is taken, forwarded and answered, and O38 (R180, R257, R267 to R270, R274, R276, R277, R498). -/

namespace Sys2Proof.Machine

variable {s u v : State} {port : Nat} {p : Pkt}

/-! ## Taking what has arrived -/

/-- Taking a packet changes the mesh and the ports alone. -/
theorem State.rxTake_eq (s : State) (port : Nat) (p : Pkt) : ∃ ps ms, s.rxTake port p = { s with ports := ps, mesh := ms } := by
  unfold State.rxTake
  split
  · exact ⟨s.ports, _, rfl⟩
  · split
    · exact ⟨_, s.mesh, rfl⟩
    · exact ⟨s.ports, s.mesh, rfl⟩

theorem State.onlySent_rxTake (s : State) (port : Nat) (p : Pkt) : State.OnlySent s (s.rxTake port p) := by
  obtain ⟨ps, ms, h⟩ := s.rxTake_eq port p
  exact ⟨[], ps, s.reports, ms, by rw [h, List.append_nil]⟩

/-- A packet that arrives for this device is taken, and its operation follows. -/
theorem State.rxPacket_taken {opc : Nat} (h : s.arrives port p opc) (f : State → State) : s.rxPacket port p opc f = f (s.rxTake port p) := by
  obtain ⟨hopc, hmesh | ⟨hturn, hsound, hrank⟩⟩ := h
  · have hmem : p ∈ s.mesh := List.contains_iff_mem.mp hmesh
    simp [State.rxPacket, State.rxPacketIf, hopc, hmem]
  · simp [State.rxPacket, State.rxPacketIf, hopc, hturn, hsound, hrank]

/-- One for another device is taken and forwarded. -/
theorem State.rxPacket_forward {opc : Nat} (hopc : p.opc = opc) (hmesh : s.mesh.contains p = false) (hturn : s.rxTurn port p = true)
    (hsound : pktMalformed p = false) (hrank : p.drank ≠ s.rank) (f : State → State) :
    s.rxPacket port p opc f = (s.rxTake port p).forward port p := by
  have hmesh' : p ∉ s.mesh := by simpa using hmesh
  simp [State.rxPacket, State.rxPacketIf, hopc, hmesh', hturn, hsound, hrank]

/-! ## Routes -/

/-- States whose registers differ only below the device's own have the same rank, hop limit and routes. -/
theorem State.sameRoutes {l : List Nat} (h : s.sameRegs v l) (hl : ∀ a ∈ l, a < 0x020000000000) :
    v.rank = s.rank ∧ v.fld FCFG_HOPLIM = s.fld FCFG_HOPLIM ∧ (∀ r, v.routePort r = s.routePort r) ∧
      ∀ k, v.fld (FPSTAT_VER k) = s.fld (FPSTAT_VER k) := by
  have hreg : ∀ a, 0x020000000000 ≤ a → v.reg a = s.reg a := fun a ha => h a fun hmem => Nat.not_lt.mpr ha (hl a hmem)
  have hport : ∀ k, 0x020000000000 ≤ aFPSTAT k := fun k => by simp only [aFPSTAT]; omega
  have hentry : ∀ i, 0x020000000000 ≤ aFROUTE i := fun i => by simp only [aFROUTE]; omega
  refine ⟨State.fld_of_reg (hreg _ (by decide)), State.fld_of_reg (hreg _ (by decide)), fun r => ?_,
    fun k => State.fld_of_reg (hreg _ (hport k))⟩
  have hup : ∀ k, v.portUp k = s.portUp k := fun k => by
    rw [State.portUp, State.portUp, State.fld_of_reg (f := FPSTAT_STATE k) (hreg _ (hport k))]
  have hsame : v.routeEntry r = s.routeEntry r := by rw [State.routeEntry, State.routeEntry, hreg _ (hentry _)]
  unfold State.routePort
  dsimp only
  rw [hsame, hup, hup]

theorem State.routeOut_eq {q : Pkt} {k : Nat} (hroute : v.routePort q.drank = some k) (hminor : pktMinor q ≤ v.fld (FPSTAT_VER k)) :
    v.routeOut q = v.txPacket k q := by
  rw [State.routeOut, hroute]
  exact if_pos hminor

/-- A packet that every link carries, sent where the routes are those of s, is the answer that s owes. -/
theorem State.answers_sendPkt {l : List Nat} (h : s.sameRegs v l) (hl : ∀ a ∈ l, a < 0x020000000000) {q : Pkt} (hminor : pktMinor q = 0) :
    answers s q (v.sendPkt q) := by
  intro hrank k hk
  obtain ⟨hself, hhops, hroute, -⟩ := State.sameRoutes h hl
  have hsend : v.sendPkt q = v.routeOut { q with srank := s.rank, hops := s.fld FCFG_HOPLIM } := by
    unfold State.sendPkt
    dsimp only
    rw [hself, hhops, if_neg hrank]
  have hleaves : v.routeOut { q with srank := s.rank, hops := s.fld FCFG_HOPLIM } = v.txPacket k { q with srank := s.rank, hops := s.fld FCFG_HOPLIM } :=
    State.routeOut_eq ((hroute _).trans hk) (Nat.le_trans (Nat.le_of_eq hminor) (Nat.zero_le _))
  rw [hsend, hleaves]
  exact (v.txPacket_spec k _).2.1

/-- A packet with hops left leaves on its route's port. -/
theorem State.forward_spec {k : Nat} (hhops : p.hops ≠ 0) (hroute : v.routePort p.drank = some k) (hminor : pktMinor p ≤ v.fld (FPSTAT_VER k))
    (port : Nat) :
    State.OnlySent v (v.forward port p) ∧ Out.pkt k { p with hops := p.hops - 1 } ∈ (v.forward port p).sent
      ∧ (v.forward port p).reports = v.reports := by
  have hforward : v.forward port p = v.txPacket k { p with hops := p.hops - 1 } := by
    unfold State.forward
    dsimp only
    rw [if_neg hhops, hroute]
    exact if_pos hminor
  rw [hforward]
  exact v.txPacket_spec k _

/-! ## WRITE and READ of a bank (R267, R268, R274) -/

theorem pktData_clean (h : p.pmask = 0) : pktData p = p.data.map fun b => (b, false) := by
  have hbit : ∀ i, bitOf 0 i = false := fun i => by simp [bitOf_eq_testBit]
  calc pktData p = p.data.zipIdx.map ((fun b => (b, false)) ∘ Prod.fst) := by simp only [pktData, h, hbit]; rfl
    _ = p.data.map fun b => (b, false) := by rw [← List.map_map, List.zipIdx_map_fst]

theorem pmaskOf_clean (bs : List Nat) : pmaskOf (bs.map fun b => (b, false)) = 0 := by
  have hnone : ∀ g, anyPois (((bs.map fun b => (b, false)).drop (64 * g)).take 64) = false := fun g => by
    rw [← List.map_drop, ← List.map_take, anyPois, List.any_map]
    simp
  simp [pmaskOf, hnone]

/-- What a WRITE for this device comes to, once taken. -/
def State.writeTake (s : State) (port : Nat) (p : Pkt) : State :=
  match s.outWrite none false p.addr (pktData p) with
  | .ok s =>
    let s := if p.dtken ∧ tileBase 0 ≤ p.addr ∧ p.addr < tileBase 2048 then s.tokAdd ((p.addr - tileBase 0) / 0x400000) p.dtk 1 else s
    s.ackPkt p 0
  | .error st => (s.extFault p.addr 3 (srcOf 3 port)).ackPkt p st

theorem exec_writePacket (s : State) (port : Nat) (p : Pkt) :
    exec (.writePacket port p) s = .next (s.rxPacket port p 1 fun s => s.writeTake port p) := rfl

/-- The token that a WRITE raises, if it names one. -/
def State.tokenUp (s : State) (p : Pkt) : State := if p.dtken then s.tokAdd (winTile p.addr) p.dtk 1 else s

/-- A clean WRITE into a bank. -/
theorem State.writeTake_bank (hwin : inTileWindow p.addr = true) (haddr : p.addr < 2 ^ 48) (hlen : p.data.length = p.len) (hmask : p.pmask = 0)
    (hmem : v.isMem p.addr p.len = true) (hlast : winOff p.addr + p.len ≤ 0x1F0000) (hmark : (v.tile (winTile p.addr)).marking = false)
    (hpend : v.flag (TFLIP_PEND (winTile p.addr)) = false) (port : Nat) :
    v.writeTake port p = ((v.putBank (winTile p.addr) (winOff p.addr) (p.data.map fun b => (b, false))).tokenUp p).ackPkt p 0 := by
  obtain ⟨hsplit, ht, ho⟩ := inTileWindow_split haddr hwin
  have hrange : tileBase 0 ≤ p.addr ∧ p.addr < tileBase 2048 := by rw [hsplit]; simp only [tileBase]; omega
  have htile : (p.addr - tileBase 0) / 0x400000 = winTile p.addr := by omega
  have hdata : (p.data.map fun b => (b, false)).length = p.len := (List.length_map _).trans hlen
  have hwrite : v.outWrite none false p.addr (p.data.map fun b => (b, false))
      = .ok (v.putBank (winTile p.addr) (winOff p.addr) (p.data.map fun b => (b, false))) := by
    have hbank := v.outWrite_bank (o := winOff p.addr) (bs := p.data.map fun b => (b, false)) none false ht (by omega) (by omega)
      (by rw [← hsplit, hdata]; exact hmem) hmark hpend
    rwa [← hsplit] at hbank
  unfold State.writeTake State.tokenUp
  rw [pktData_clean hmask, hwrite]
  simp only [hrange, and_true, htile]

theorem State.tokenUp_spec (s : State) (p : Pkt) :
    State.OnlySet [aTTOK (winTile p.addr) p.dtk, aTSQSTAT (winTile p.addr)] s (s.tokenUp p) ∧ (p.dtken = false → s.tokenUp p = s) ∧
      (p.dtken = true → (s.tokenUp p).fld (TTOK_COUNT (winTile p.addr) p.dtk) = min 65535 (s.fld (TTOK_COUNT (winTile p.addr) p.dtk) + 1)) := by
  unfold State.tokenUp
  by_cases htoken : p.dtken = true
  · rw [if_pos htoken]
    exact ⟨(s.onlySet_tokAdd _ _ 1).mono (List.Perm.swap _ _ _).subset, fun h => absurd (htoken.symm.trans h) nofun,
      fun _ => (s.tokAdd_spec _ _ 1).1⟩
  · rw [if_neg htoken]
    exact ⟨State.OnlySet.refl _ s, fun _ => rfl, fun h => absurd h htoken⟩

theorem winTile_lt {x : Nat} (h : inTileWindow x = true) : winTile x < 2048 := (addrDev_window h).2.1

/-- The registers of tiles lie below the device's own. -/
theorem aTTOK_lt {t k : Nat} (ht : t < 2048) (hk : k < 32) : aTTOK t k < 0x020000000000 := by simp only [aTTOK]; omega

theorem aTMBX_lt {t i : Nat} (ht : t < 2048) (hi : i < 16) : aTMBX t i < 0x020000000000 := by simp only [aTMBX]; omega

theorem writePacket_serves (harr : s.arrives port p 1) (hwin : inTileWindow p.addr = true) (haddr : p.addr < 2 ^ 48) (hlen : p.data.length = p.len)
    (hmask : p.pmask = 0) (hmem : s.isMem p.addr p.len = true) (hlast : winOff p.addr + p.len ≤ 0x1F0000)
    (hmark : (s.tile (winTile p.addr)).marking = false) (hpend : s.flag (TFLIP_PEND (winTile p.addr)) = false) (hdtk : p.dtk < 32) :
    Gives (exec (.writePacket port p) s) fun u =>
      (∀ k < p.len, (u.tile (winTile p.addr)).classOf (winOff p.addr + k) = .good (nth 0 p.data k % 256)) ∧
      (∀ j off, (j = winTile p.addr → off < winOff p.addr ∨ winOff p.addr + p.len ≤ off) → (u.tile j).code off = (s.tile j).code off) ∧
      (∀ a, u.stkByte a = s.stkByte a ∧ u.markOf a = s.markOf a) ∧
      (p.dtken = false → s.sameRegs u []) ∧
      (p.dtken = true → u.fld (TTOK_COUNT (winTile p.addr) p.dtk) = min 65535 (s.fld (TTOK_COUNT (winTile p.addr) p.dtk) + 1)
        ∧ s.sameRegs u [aTTOK (winTile p.addr) p.dtk, aTSQSTAT (winTile p.addr)]) ∧
      answers s (mkPkt 1 4 p.srank p.addr 0 p.tag p.tgen) u := by
  obtain ⟨ps, ms, htaken⟩ := s.rxTake_eq port p
  obtain ⟨v, hv⟩ : ∃ v, v = s.rxTake port p := ⟨_, rfl⟩
  rw [← hv] at htaken
  have htile : ∀ i, v.tile i = s.tile i := fun i => by rw [htaken]; rfl
  have hreg : ∀ a, v.reg a = s.reg a := fun a => by rw [htaken]; rfl
  have hstk : ∀ a, v.stkByte a = s.stkByte a ∧ v.markOf a = s.markOf a := fun a => by rw [htaken]; exact ⟨rfl, rfl⟩
  have hmem' : v.isMem p.addr p.len = true := by rw [htaken]; exact hmem
  have hserve := State.writeTake_bank hwin haddr hlen hmask hmem' hlast ((congrArg Tile.marking (htile _)).trans hmark)
    ((State.flag_of_reg (f := TFLIP_PEND _) (hreg _)).trans hpend) port
  refine ⟨_, exec_writePacket s port p, ?_⟩
  rw [State.rxPacket_taken harr, ← hv, hserve]
  obtain ⟨w, hw⟩ : ∃ w, w = v.putBank (winTile p.addr) (winOff p.addr) (p.data.map fun b => (b, false)) := ⟨_, rfl⟩
  have hbank : State.BankWritten (winTile p.addr) (winOff p.addr) p.data v w := hw ▸ v.bankWritten_putBank _ _ _
  rw [← hw]
  obtain ⟨hset, hkeep, hcount⟩ := w.tokenUp_spec p
  have hsent := (w.tokenUp p).onlySent_sendPkt (mkPkt 1 4 p.srank p.addr 0 p.tag p.tgen)
  have hregs : s.sameRegs (w.tokenUp p) [aTTOK (winTile p.addr) p.dtk, aTSQSTAT (winTile p.addr)] := fun a ha =>
    (hset.2 a ha).trans ((hbank.reg a).trans (hreg a))
  have hlow : ∀ a ∈ [aTTOK (winTile p.addr) p.dtk, aTSQSTAT (winTile p.addr)], a < 0x020000000000 := by
    simp only [List.mem_cons, List.not_mem_nil, or_false, forall_eq_or_imp, forall_eq]
    exact ⟨aTTOK_lt (winTile_lt hwin) hdtk, aTSQSTAT_lt (winTile_lt hwin)⟩
  have hends : ∀ i, ((w.tokenUp p).ackPkt p 0).tile i = w.tile i := fun i => (hsent.tile i).trans (hset.tile i)
  refine ⟨fun k hk => ?bytes, fun j off hj => ?outside, fun a => ?stack, fun hno => ?noToken, fun htoken => ⟨?count, ?regs⟩,
    State.answers_sendPkt hregs hlow rfl⟩
  case bytes =>
    have hk' : k < p.data.length := hlen ▸ hk
    rw [hends, hbank.bytes k hk', nth, List.getElem?_eq_getElem hk']
    rfl
  case outside =>
    rw [hends, hbank.outside j off fun h => hlen ▸ hj h, htile]
  case stack =>
    obtain ⟨-, hbyte, hmarks⟩ := hset.sameMem.trans hsent.sameMem
    obtain ⟨hbyte', hmarks'⟩ := hbank.stacks a
    obtain ⟨hbyte'', hmarks''⟩ := hstk a
    exact ⟨(hbyte a).trans (hbyte'.trans hbyte''), (hmarks a).trans (hmarks'.trans hmarks'')⟩
  case noToken => exact fun a _ => (hsent.reg a).trans (by rw [hkeep hno, hbank.reg, hreg])
  case count =>
    have hlast : (w.tokenUp p).fld (TTOK_COUNT (winTile p.addr) p.dtk) = min 65535 (s.fld (TTOK_COUNT (winTile p.addr) p.dtk) + 1) := by
      rw [hcount htoken, State.fld_of_reg (f := TTOK_COUNT _ _) ((hbank.reg _).trans (hreg _))]
    exact (State.fld_of_reg (f := TTOK_COUNT _ _) (hsent.reg _)).trans hlast
  case regs => exact fun a ha => (hsent.reg a).trans (hregs a ha)

/-- What a READ for this device comes to, once taken. -/
def State.readTake (s : State) (port : Nat) (p : Pkt) : State :=
  let r := if s.isMem p.addr p.len then
      some ((if p.addr < 0x8000000000 then s.countBurst p.addr p.len else s).memRead p.addr p.len uExternal)
    else (s.regGet none p.addr p.len).map fun r => (asBytes p.len r.1 false, r.2)
  match r with
  | some r => r.2.sendPkt { mkPkt 0 3 p.srank p.addr p.len p.tag p.tgen with data := r.1.map (·.1), pmask := pmaskOf r.1 }
  | none => (s.extFault p.addr 3 (srcOf 3 port)).answerBad p (s.faultCst none p.addr p.len false)

theorem exec_readPacket (s : State) (port : Nat) (p : Pkt) :
    exec (.readPacket port p) s = .next (s.rxPacket port p 2 fun s => s.readTake port p) := rfl

/-- A READ of clean bytes of a bank. -/
theorem State.readTake_bank (hwin : inTileWindow p.addr = true) (haddr : p.addr < 2 ^ 48) (hmem : v.isMem p.addr p.len = true)
    (hclean : (v.tile (winTile p.addr)).cleanRange (winOff p.addr) p.len) (port : Nat) :
    v.readTake port p
      = v.sendPkt { mkPkt 0 3 p.srank p.addr p.len p.tag p.tgen with data := (v.tile (winTile p.addr)).bytesAt (winOff p.addr) p.len } := by
  obtain ⟨hsplit, ht, ho⟩ := inTileWindow_split haddr hwin
  have hhigh : ¬ p.addr < 0x8000000000 := by rw [hsplit]; simp only [tileBase]; omega
  have hread := v.memRead_clean ht hclean ho uExternal
  rw [← hsplit] at hread
  have hfst : (((v.tile (winTile p.addr)).bytesAt (winOff p.addr) p.len).map fun b => (b, false)).map Prod.fst
      = (v.tile (winTile p.addr)).bytesAt (winOff p.addr) p.len := by rw [List.map_map]; exact List.map_id _
  unfold State.readTake
  rw [if_pos hmem, if_neg hhigh, hread]
  dsimp only
  rw [pmaskOf_clean, hfst]
  rfl

theorem readPacket_answers (harr : s.arrives port p 2) (hwin : inTileWindow p.addr = true) (haddr : p.addr < 2 ^ 48)
    (hmem : s.isMem p.addr p.len = true) (hclean : (s.tile (winTile p.addr)).cleanRange (winOff p.addr) p.len) :
    Gives (exec (.readPacket port p) s) fun u =>
      answers s { mkPkt 0 3 p.srank p.addr p.len p.tag p.tgen with data := (s.tile (winTile p.addr)).bytesAt (winOff p.addr) p.len } u
        ∧ s.sameRegs u [] ∧ s.sameMem u := by
  obtain ⟨ps, ms, htaken⟩ := s.rxTake_eq port p
  have hsent := s.onlySent_rxTake port p
  obtain ⟨v, hv⟩ : ∃ v, v = s.rxTake port p := ⟨_, rfl⟩
  rw [← hv] at htaken hsent
  have hmem' : v.isMem p.addr p.len = true := by rw [htaken]; exact hmem
  have hserve := State.readTake_bank hwin haddr hmem' ((hsent.tile _).symm ▸ hclean) port
  rw [hsent.tile] at hserve
  refine ⟨_, exec_readPacket s port p, ?_⟩
  rw [State.rxPacket_taken harr, ← hv, hserve]
  have hall := hsent.trans (v.onlySent_sendPkt
    { mkPkt 0 3 p.srank p.addr p.len p.tag p.tgen with data := (s.tile (winTile p.addr)).bytesAt (winOff p.addr) p.len })
  exact ⟨State.answers_sendPkt (l := []) (fun a _ => hsent.reg a) nofun rfl, fun a _ => hall.reg a, hall.sameMem⟩

/-! ## Mailbox operations of other devices (R180) -/

/-- What a mailbox operation for this device comes to, once taken. -/
def State.mbxTake (s : State) (port : Nat) (p : Pkt) : State :=
  let op := le p.data 0 1
  match mboxAt p.addr with
  | some w =>
    if op ≠ 1 ∧ (s.tile w.1).marking then (s.extFault p.addr 3 (srcOf 3 port)).answerBad p 1 else
    let r := s.mboxOp w.1 w.2 op (BitVec.ofNat 64 (le p.data 8 8)) (BitVec.ofNat 64 (le p.data 16 8))
    r.2.sendPkt { mkPkt 2 6 p.srank p.addr 8 p.tag p.tgen with data := leBytes 8 (if op = 0 then 0 else r.1.toNat) }
  | none => match tokenAt p.addr with
    | some k => (s.tokAdd k.1 k.2 (if op = 2 then bitsOf (le p.data 8 8) 0 32 else 0)).sendPkt (mkPkt 2 6 p.srank p.addr 0 p.tag p.tgen)
    | none => s.answerBad p 1

theorem exec_mbxPacket (s : State) (port : Nat) (p : Pkt) :
    exec (.mbxPacket port p) s = .next (s.rxPacket port p 5 fun s => s.mbxTake port p) := rfl

/-- The answer to a mailbox operation on word i of tile t's mailboxes, as s holds it. -/
def State.mbxAnswer (s : State) (p : Pkt) (t i : Nat) : Pkt :=
  { mkPkt 2 6 p.srank p.addr 8 p.tag p.tgen with data := leBytes 8 (if le p.data 0 1 = 0 then 0 else (s.reg (aTMBX t i)).toNat) }

theorem State.mbxTake_word {t i : Nat} (hbox : mboxAt p.addr = some (t, i)) (hopen : le p.data 0 1 = 1 ∨ (v.tile t).marking = false) (port : Nat) :
    v.mbxTake port p = (v.mboxOp t i (le p.data 0 1) (BitVec.ofNat 64 (le p.data 8 8)) (BitVec.ofNat 64 (le p.data 16 8))).2.sendPkt
      (v.mbxAnswer p t i) := by
  have hserved : ¬ (le p.data 0 1 ≠ 1 ∧ (v.tile t).marking = true) := by
    rintro ⟨hop, hmark⟩
    exact hopen.elim hop fun h => Bool.false_ne_true (h.symm.trans hmark)
  unfold State.mbxTake
  rw [hbox]
  exact if_neg hserved

theorem mbxPacket_performs {t i : Nat} (harr : s.arrives port p 5) (hbox : mboxAt p.addr = some (t, i))
    (hopen : le p.data 0 1 = 1 ∨ (s.tile t).marking = false) :
    Gives (exec (.mbxPacket port p) s) fun u =>
      u.reg (aTMBX t i)
          = mbxNew (le p.data 0 1) (s.reg (aTMBX t i)) (BitVec.ofNat 64 (le p.data 8 8)) (BitVec.ofNat 64 (le p.data 16 8))
        ∧ s.sameRegs u [aTMBX t i] ∧ s.sameMem u ∧ answers s (s.mbxAnswer p t i) u := by
  have htaken := s.onlySent_rxTake port p
  obtain ⟨v, hv⟩ : ∃ v, v = s.rxTake port p := ⟨_, rfl⟩
  rw [← hv] at htaken
  obtain ⟨ht, hi⟩ := mboxAt_spec hbox
  have hanswer : v.mbxAnswer p t i = s.mbxAnswer p t i := by rw [State.mbxAnswer, State.mbxAnswer, htaken.reg]
  refine ⟨_, exec_mbxPacket s port p, ?_⟩
  rw [State.rxPacket_taken harr, ← hv, State.mbxTake_word hbox (by rwa [htaken.tile]), hanswer]
  obtain ⟨hword, hset⟩ := v.mboxOp_spec t i (le p.data 0 1) (BitVec.ofNat 64 (le p.data 8 8)) (BitVec.ofNat 64 (le p.data 16 8))
  obtain ⟨w, hw⟩ : ∃ w, w = (v.mboxOp t i (le p.data 0 1) (BitVec.ofNat 64 (le p.data 8 8)) (BitVec.ofNat 64 (le p.data 16 8))).2 := ⟨_, rfl⟩
  rw [← hw] at hword hset ⊢
  have hsent := w.onlySent_sendPkt (s.mbxAnswer p t i)
  have hregs : s.sameRegs w [aTMBX t i] := fun a ha => (hset.2 a ha).trans (htaken.reg a)
  have hlow : ∀ a ∈ [aTMBX t i], a < 0x020000000000 := fun a ha => List.mem_singleton.mp ha ▸ aTMBX_lt ht hi
  exact ⟨by rw [hsent.reg, hword, htaken.reg], fun a ha => (hsent.reg a).trans (hregs a ha),
    htaken.sameMem.trans (hset.sameMem.trans hsent.sameMem), State.answers_sendPkt hregs hlow rfl⟩

/-! ## Remote reset (R276, R277, R498) -/

theorem State.someOf_reg (s u : State) (a : Nat) : (s.someOf u).reg a = s.reg a := by
  unfold State.someOf
  dsimp only
  refine (State.each_same (State.reg · a) (fun _ _ _ => ?_) _).trans ?_
  · rfl
  · rfl

/-- An engine that stops writes no register but its own. -/
theorem State.engEnd_reg (s : State) (st e status detail : Nat) {a : Nat} (h : a ≠ aBESTAT st e) : (s.engEnd st e status detail).reg a = s.reg a := by
  unfold State.engEnd State.engShow
  dsimp only
  rw [State.reg_setFld_other _ (BESTAT_WAITSEM st e) _ a h, State.reg_setFld_other _ (BESTAT_BUSY st e) _ a h]
  rfl

theorem State.engStop_reg (s : State) (st e : Nat) {a : Nat} (h : a ≠ aBESTAT st e) : (s.engStop st e).reg a = s.reg a := by
  unfold State.engStop
  split
  · exact s.engEnd_reg st e _ _ h
  · rw [State.engEnd_reg _ st e _ _ h]
    split
    · exact s.someOf_reg _ a
    · rfl
  · rfl

theorem State.stageSettle_reg (s : State) {a : Nat} (h : ∀ st n, a ≠ aSSTAGE st n) : s.stageSettle.reg a = s.reg a := by
  rw [State.stageSettle_eq]
  refine State.each_same (State.reg · a) (fun s x _ => ?_) _
  unfold State.stagePut
  split
  · exact State.reg_setReg_other _ _ _ _ (h _ _)
  · rfl

/-- The counter of remote resets outlasts a warm reset, whatever that stops. -/
theorem State.resetWarm_frrctr (s : State) : s.resetWarm.reg aFRRCTR = s.reg aFRRCTR := by
  obtain ⟨fl, fr, hbreak, -⟩ := s.flashBreak_spec
  have hengine : ∀ st e, aFRRCTR ≠ aBESTAT st e := fun st e => by simp only [aFRRCTR, aBESTAT]; omega
  have hstage : ∀ st n, aFRRCTR ≠ aSSTAGE st n := fun st n => by simp only [aFRRCTR, aSSTAGE]; omega
  have hstack : ∀ st, aFRRCTR ≠ aSSTAT st := fun st => by simp only [aFRRCTR, aSSTAT]; omega
  have hstopped : s.warmStopped.reg aFRRCTR = s.reg aFRRCTR := by
    rw [State.warmStopped, State.stageSettle_reg _ hstage, State.each_same (State.reg · aFRRCTR) fun s e _ => s.engStop_reg _ _ (hengine _ _), hbreak]
    rfl
  have htests : s.warmStopped.warmKept.testsEnded.reg aFRRCTR = s.warmStopped.warmKept.reg aFRRCTR :=
    State.each_same (State.reg · aFRRCTR) (fun s st _ => s.testStep_other (hstack st)) _
  rw [State.resetWarm_eq, State.showLock, State.reg_setFld_other _ GSTAT_TBLOCK _ _ (by decide), State.reg_resetCore, htests, State.reg_warmKept,
    if_pos (by decide), hstopped]

theorem exec_rresetPacket (s : State) (port : Nat) (p : Pkt) :
    exec (.rresetPacket port p) s = .next (s.rxPacket port p 8 fun s => s.rrTake port p) := rfl

theorem State.rrTake_refused (h : v.rrFail p ≠ 0) (port : Nat) :
    v.rrTake port p = v.portReport port 0x49 1 (v.rrFail p + p.srank * 65536) := if_pos h

/-- The counter that a remote reset leaves, and its report. -/
def State.rrNoted (s : State) (port : Nat) (p : Pkt) : State :=
  (s.setFld FRRCTR_CTR (le p.data 0 8)).portReport port 0x48 1 (le p.data 16 1 + le p.data 17 1 * 256 + p.srank * 65536)

theorem State.rrTake_reset (h : v.rrFail p = 0) (hkind : le p.data 16 1 = 1) (port : Nat) :
    v.rrTake port p = (v.rrNoted port p).deviceReset 6 := by
  unfold State.rrTake
  dsimp only
  rw [h, if_neg (not_not_intro rfl), if_pos hkind]
  rfl

/-- The conditions of R277 do not hang on what is taken from the port. -/
theorem State.rrFail_rxTake (s : State) (port : Nat) (p q : Pkt) : (s.rxTake port q).rrFail p = s.rrFail p := by
  obtain ⟨ps, ms, htaken⟩ := s.rxTake_eq port q
  rw [htaken]
  rfl

theorem rresetPacket_refused (harr : s.arrives port p 8) (hfail : s.rrFail p ≠ 0) :
    Gives (exec (.rresetPacket port p) s) fun u =>
      u.reports = s.reports ++ [⟨halfOfPort port, 0x49, 1, srcOf 3 port, 0, s.rrFail p + p.srank * 65536, s.now⟩] ∧ s.sameRegs u [] ∧ s.sameMem u
        ∧ u.boot = s.boot ∧ u.ctxs = s.ctxs := by
  have hfail' : (s.rxTake port p).rrFail p = s.rrFail p := s.rrFail_rxTake port p p
  refine ⟨_, exec_rresetPacket s port p, ?_⟩
  rw [State.rxPacket_taken harr, State.rrTake_refused (hfail' ▸ hfail), hfail']
  obtain ⟨ps, ms, htaken⟩ := s.rxTake_eq port p
  rw [htaken]
  exact ⟨rfl, State.sameRegs_of_regs rfl _, State.sameMem_of_stores rfl rfl rfl, rfl, rfl⟩

/-- A device that is up and takes source src, other than power-on. -/
theorem State.deviceReset_up {src : Nat} (hup : s.boot = .up) (hsrc : src ≠ 1) (hlt : src < 16) :
    (s.deviceReset src).boot = .inReset ∧ (s.deviceReset src).held = s.heldWith src ∧ (s.deviceReset src).fld CRSTCAUSE_LAST = src
      ∧ (s.deviceReset src).reg aFRRCTR = s.reg aFRRCTR := by
  have hhold : s.boot ≠ .hold := hup ▸ nofun
  have hwarm : s.deviceReset src = s.resetWarm.warmCaused (s.heldWith src) src :=
    (State.deviceReset_warm hhold hsrc).trans (if_neg (by simp [State.inResetNow, hup]))
  obtain ⟨honly, hlast⟩ := s.resetWarm.warmCaused_spec (s.heldWith src) hlt
  rw [hwarm]
  exact ⟨(honly.done s.resetWarm_done).1, honly.held, hlast, (honly.reg (by decide)).trans s.resetWarm_frrctr⟩

theorem rresetPacket_resets (harr : s.arrives port p 8) (hpass : s.rrFail p = 0) (hkind : le p.data 16 1 = 1) (hup : s.boot = .up) :
    Gives (exec (.rresetPacket port p) s) fun u =>
      u.boot = .inReset ∧ u.held = s.heldWith 6 ∧ u.fld CRSTCAUSE_LAST = 6 ∧ u.fld FRRCTR_CTR = le p.data 0 8 % 2 ^ 64 := by
  obtain ⟨ps, ms, htaken⟩ := s.rxTake_eq port p
  obtain ⟨v, hv⟩ : ∃ v, v = s.rxTake port p := ⟨_, rfl⟩
  have hpass' : v.rrFail p = 0 := hv ▸ (s.rrFail_rxTake port p p).trans hpass
  rw [← hv] at htaken
  have hup' : (v.rrNoted port p).boot = .up := htaken ▸ hup
  have hheld : (v.rrNoted port p).heldWith 6 = s.heldWith 6 := by rw [htaken]; rfl
  have hcount : (v.rrNoted port p).fld FRRCTR_CTR = le p.data 0 8 % 2 ^ 64 := v.fld_setFld_same FRRCTR_CTR _ (by decide)
  obtain ⟨hboot, hholds, hlast, hctr⟩ := State.deviceReset_up (src := 6) hup' (by decide) (by decide)
  refine ⟨_, exec_rresetPacket s port p, ?_⟩
  rw [State.rxPacket_taken harr, ← hv, State.rrTake_reset hpass' hkind]
  exact ⟨hboot, hholds.trans hheld, hlast, (State.fld_of_reg (f := FRRCTR_CTR) hctr).trans hcount⟩

/-! ## Packets for another device (R257, R269, R270) -/

/-- The packet rows of O38 with their operations. -/
def servedRows : List ((Nat → Pkt → Instr) × Nat) :=
  [(.writePacket, 1), (.readPacket, 2), (.rdcpl, 3), (.wrack, 4), (.mbxPacket, 5), (.mbxrsp, 6), (.rresetPacket, 8)]

/-- Each of these rows does no more than what every packet meets, before its own operation. -/
theorem exec_servedRows {r : (Nat → Pkt → Instr) × Nat} (hr : r ∈ servedRows) (s : State) (port : Nat) (p : Pkt) :
    ∃ f, exec (r.1 port p) s = .next (s.rxPacket port p r.2 f) := by
  simp only [servedRows, List.mem_cons, List.not_mem_nil, or_false] at hr
  rcases hr with rfl | rfl | rfl | rfl | rfl | rfl | rfl
  all_goals exact ⟨_, rfl⟩

theorem servedRows_forward {r : (Nat → Pkt → Instr) × Nat} {k : Nat} (hr : r ∈ servedRows) (hopc : p.opc = r.2) (hmesh : s.mesh.contains p = false)
    (hturn : s.rxTurn port p = true) (hsound : pktMalformed p = false) (hrank : p.drank ≠ s.rank) (hhops : p.hops ≠ 0)
    (hroute : s.routePort p.drank = some k) (hminor : pktMinor p ≤ s.fld (FPSTAT_VER k)) :
    Gives (exec (r.1 port p) s) fun u =>
      Out.pkt k { p with hops := p.hops - 1 } ∈ u.sent ∧ s.sameRegs u [] ∧ s.sameMem u ∧ u.reports = s.reports := by
  obtain ⟨f, hexec⟩ := exec_servedRows hr s port p
  have htaken := s.onlySent_rxTake port p
  have hreports : (s.rxTake port p).reports = s.reports := by
    obtain ⟨ps, ms, h⟩ := s.rxTake_eq port p
    rw [h]
  obtain ⟨-, -, hroutes, hver⟩ := State.sameRoutes (l := []) (fun a _ => htaken.reg a) nofun
  obtain ⟨hsent, hleaves, hquiet⟩ := State.forward_spec hhops ((hroutes _).trans hroute) ((hver k).symm ▸ hminor) port
  refine ⟨_, hexec, ?_⟩
  rw [State.rxPacket_forward hopc hmesh hturn hsound hrank]
  have hall := htaken.trans hsent
  exact ⟨hleaves, fun a _ => hall.reg a, hall.sameMem, hquiet.trans hreports⟩

end Sys2Proof.Machine

namespace Sys2Proof.Proofs
open Sys2Proof Sys2Proof.Machine

/-- Settles O38: each packet row taken for this device, and the seven forwarded. -/
theorem packetsAreServed : Obligations.PacketsAreServed := by
  unfold Obligations.PacketsAreServed
  exact ⟨fun _ _ _ harr hwin haddr hlen hmask hmem hlast hmark hpend hdtk =>
      writePacket_serves harr hwin haddr hlen hmask hmem hlast hmark hpend hdtk,
    fun _ _ _ harr hwin haddr hmem hclean => readPacket_answers harr hwin haddr hmem hclean,
    fun _ _ _ _ _ harr hbox hopen => mbxPacket_performs harr hbox hopen,
    fun _ _ _ harr => ⟨rresetPacket_refused harr, fun hpass hkind hup _ => rresetPacket_resets harr hpass hkind hup⟩,
    fun _ hr _ _ _ _ hopc hmesh hturn hsound hrank hhops hroute hminor =>
      servedRows_forward hr hopc hmesh hturn hsound hrank hhops hroute hminor⟩

end Sys2Proof.Proofs
end

section
/-! SUPPORT. Tables of registers: bytes put into a table are read back from it, and no register outside it changes. -/

namespace Sys2Proof.Machine

theorem lt_of_mem_leBytes {b n x : Nat} (h : b ∈ leBytes n x) : b < 256 := by
  obtain ⟨i, -, rfl⟩ := List.mem_map.mp h
  exact Nat.mod_lt _ (by decide)

/-- Bytes are read back from their number. -/
theorem leBytes_ofLE {bs : List Nat} {n : Nat} (hn : bs.length = n) (h : ∀ b ∈ bs, b < 256) : leBytes n (ofLE bs) = bs := by
  subst hn
  induction bs with
  | nil => rfl
  | cons b bs ih =>
    have hb : b < 256 := h b List.mem_cons_self
    have hcons : ofLE (b :: bs) = b % 256 + 256 * ofLE bs := rfl
    have hlow : ofLE (b :: bs) % 256 = b := by omega
    have hhigh : ofLE (b :: bs) / 256 = ofLE bs := by omega
    rw [List.length_cons, leBytes_succ, hlow, hhigh, ih fun c hc => h c (List.mem_cons_of_mem b hc)]

theorem le_lt (bs : List Nat) (o n : Nat) : le bs o n < 2 ^ (8 * n) :=
  (ofLE_lt _).trans_le (Nat.pow_le_pow_right (by decide) (Nat.mul_le_mul_left 8 (List.length_take_le _ _)))

/-- The words of a list, one after the other, are the list. -/
theorem flatMap_words {α : Type} (bs : List α) (n : Nat) : ((List.range n).flatMap fun i => (bs.drop (8 * i)).take 8) = bs.take (8 * n) := by
  induction n with
  | zero => rfl
  | succ n ih => rw [List.range_succ, List.flatMap_append, List.flatMap_singleton, ih, Nat.mul_succ, List.take_add]

/-- The addresses of n words of a table from address a. -/
def tblWords (a n : Nat) : List Nat := (List.range n).map fun i => a + 8 * i

theorem State.onlySet_tblPut (s : State) (a : Nat) (bs : List Nat) : State.OnlySet (tblWords a (bs.length / 8)) s (s.tblPut a bs) :=
  foldl_rel (State.OnlySet.refl _) State.OnlySet.trans (fun s _ hi => (State.OnlySet.refl _ s).setReg (List.mem_map_of_mem hi) _) s

theorem State.reg_each_setReg (s : State) (a : Nat) (f : Nat → BitVec 64) {n i : Nat} (hi : i < n) :
    (s.each (List.range n) fun s i => s.setReg (a + 8 * i) (f i)).reg (a + 8 * i) = f i := by
  induction n with
  | zero => omega
  | succ n ih =>
    rw [State.each, List.range_succ, List.foldl_append, List.foldl_cons, List.foldl_nil, State.reg_setReg]
    split
    · next h => rw [show i = n by omega]
    · next h => exact ih (by omega)

theorem State.reg_tblPut (s : State) (a : Nat) {bs : List Nat} {i : Nat} (hi : i < bs.length / 8) :
    (s.tblPut a bs).reg (a + 8 * i) = BitVec.ofNat 64 (le bs (8 * i) 8) :=
  s.reg_each_setReg a (fun i => BitVec.ofNat 64 (le bs (8 * i) 8)) hi

/-- Whole words put into a table are read back. -/
theorem State.tblBytes_tblPut (s : State) (a : Nat) {bs : List Nat} {n : Nat} (hlen : bs.length = 8 * n) (hbyte : ∀ b ∈ bs, b < 256) :
    (s.tblPut a bs).tblBytes a (8 * n) = bs := by
  have hword : ∀ i ∈ List.range (8 * n / 8), leBytes 8 ((s.tblPut a bs).reg (a + 8 * i)).toNat = (bs.drop (8 * i)).take 8 := by
    intro i hi
    have hi : i < n := by have := List.mem_range.mp hi; omega
    have height : ((bs.drop (8 * i)).take 8).length = 8 := by rw [List.length_take, List.length_drop]; omega
    rw [s.reg_tblPut a (by omega), BitVec.toNat_ofNat, Nat.mod_eq_of_lt (le_lt bs (8 * i) 8)]
    exact leBytes_ofLE height fun b hb => hbyte b (List.mem_of_mem_drop (List.mem_of_mem_take hb))
  rw [State.tblBytes, List.flatMap_congr hword, flatMap_words, List.take_of_length_le (by omega)]

theorem State.tblBytes_congr {s u : State} {a n : Nat} (h : ∀ i < n / 8, u.reg (a + 8 * i) = s.reg (a + 8 * i)) :
    u.tblBytes a n = s.tblBytes a n :=
  List.flatMap_congr fun i hi => by rw [h i (List.mem_range.mp hi)]

end Sys2Proof.Machine
end

section
/-! SUPPORT. The error log: a report enters, joins an entry or is lost, a bucket's overflow raises the error interrupt, and leak ticks lower
the buckets; O28 (R210, R211, R213, R215, R216, R220). -/

namespace Sys2Proof.Machine

variable {s u v : State} {r : Report} {rs : List Report} {h i : Nat}

/-! ## Entries (R220, Table 6.6) -/

theorem length_errBytes (r : Report) (count lastdt : Nat) : (errBytes r count lastdt).length = 32 := by
  simp [errBytes, length_leBytes]

theorem lt_of_mem_errBytes (htyp : r.typ < 256) (hsev : r.sev < 256) {count lastdt : Nat} : ∀ b ∈ errBytes r count lastdt, b < 256 := by
  intro b hb
  simp only [errBytes, List.mem_append, List.mem_cons, List.not_mem_nil, or_false] at hb
  obtain ((((((hb | hb) | rfl | rfl) | hb) | hb) | rfl | rfl) | hb) | hb := hb
  exacts [lt_of_mem_leBytes hb, lt_of_mem_leBytes hb, htyp, hsev, lt_of_mem_leBytes hb, lt_of_mem_leBytes hb, by decide, by decide,
    lt_of_mem_leBytes hb, lt_of_mem_leBytes hb]

/-- FIRST of an entry. -/
theorem le_errBytes_first (r : Report) (count lastdt : Nat) : le (errBytes r count lastdt) 0 8 = r.time % 2 ^ 64 := ofLE_leBytes 8 r.time

/-- COUNT of an entry. -/
theorem le_errBytes_count (r : Report) (count lastdt : Nat) : le (errBytes r count lastdt) 20 2 = count % 2 ^ 16 := ofLE_leBytes 2 count

/-- The words of an entry. -/
def errWords (h i : Nat) : List Nat := tblWords (aERRLOG (errWord h i)) 4

theorem errWords_eq (h i : Nat) :
    errWords h i = [aERRLOG (errWord h i), aERRLOG (errWord h i + 1), aERRLOG (errWord h i + 2), aERRLOG (errWord h i + 3)] := by
  simp [errWords, tblWords, List.range_succ, aERRLOG]
  omega

theorem errWords_bounds {a : Nat} (hh : h < 2) (ha : a ∈ errWords h i) : aERRLOG 0 ≤ a ∧ a < aERRLOG 4096 := by
  obtain ⟨j, hj, rfl⟩ := List.mem_map.mp ha
  have hj : j < 4 := List.mem_range.mp hj
  simp only [aERRLOG, errWord]
  omega

/-- An entry reads alike where its words do. -/
theorem State.errEntry_congr (hreg : ∀ a ∈ errWords h i, u.reg a = s.reg a) : u.errEntry h i = s.errEntry h i :=
  State.tblBytes_congr fun _ hj => hreg _ (List.mem_map_of_mem (List.mem_range.mpr hj))

/-- The state with an entry put into its ring. -/
def State.entryPut (s : State) (h i : Nat) (bs : List Nat) : State := s.tblPut (aERRLOG (errWord h i)) bs

theorem State.onlySet_entryPut (s : State) (h i : Nat) {bs : List Nat} (hlen : bs.length = 32) :
    State.OnlySet (errWords h i) s (s.entryPut h i bs) := by
  have hset := s.onlySet_tblPut (aERRLOG (errWord h i)) bs
  rwa [hlen] at hset

theorem State.errEntry_entryPut (s : State) (h i : Nat) {bs : List Nat} (hlen : bs.length = 32) (hbyte : ∀ b ∈ bs, b < 256) :
    (s.entryPut h i bs).errEntry h i = bs :=
  s.tblBytes_tblPut (n := 4) _ hlen hbyte

/-! ## The three ends of a report (R213, R215, R216) -/

/-- The newest recent entry that is the same as the report (R215). -/
def State.errHit (s : State) (r : Report) : Option Nat := (s.errNewest r.half).find? fun i => errSame r (s.errEntry r.half i)

/-- Ring h is full (R216). -/
def State.errFull (s : State) (h : Nat) : Prop := (s.fld (ERRPTR_WP h) + 1024 - s.fld (ERRPTR_RP h)) % 1024 = 512

/-- Entry i after a report has joined it: FIRST as it was, COUNT one up, LASTDT the time between the two (R215). -/
def State.errJoined (s : State) (r : Report) (i : Nat) : List Nat :=
  errBytes { r with time := le (s.errEntry r.half i) 0 8 } (satAdd 65535 (le (s.errEntry r.half i) 20 2) 1)
    (min 4294967295 ((r.time - le (s.errEntry r.half i) 0 8) / 1000))

theorem State.enterReport_new (hhit : s.errHit r = none) (hroom : ¬ s.errFull r.half) :
    s.enterReport r =
      (s.entryPut r.half (s.fld (ERRPTR_WP r.half)) (errBytes r 1 0)).setFld (ERRPTR_WP r.half) ((s.fld (ERRPTR_WP r.half) + 1) % 1024) := by
  unfold State.errHit at hhit
  simp only [State.enterReport, hhit]
  exact if_neg hroom

theorem State.enterReport_lost (hhit : s.errHit r = none) (hfull : s.errFull r.half) :
    s.enterReport r = if r.half = 0 then (s.bump ERRLOST_LOST0 1).setFld GERRSTAT_OVF0 1 else (s.bump ERRLOST_LOST1 1).setFld GERRSTAT_OVF1 1 := by
  unfold State.errHit at hhit
  unfold State.errFull at hfull
  simp only [State.enterReport, hhit, if_pos hfull]
  split <;> rfl

theorem State.enterReport_joins (hhit : s.errHit r = some i) : s.enterReport r = s.entryPut r.half i (s.errJoined r i) := by
  unfold State.errHit at hhit
  simp only [State.enterReport, hhit]
  rfl

/-- A report that takes the next entry: WP and that entry are written. -/
theorem State.enterReport_new_spec (hhit : s.errHit r = none) (hroom : ¬ s.errFull r.half) (hhalf : r.half < 2) (htyp : r.typ < 256)
    (hsev : r.sev < 256) :
    let wp := s.fld (ERRPTR_WP r.half)
    let u := s.enterReport r
    State.OnlySet (aERRPTR r.half :: errWords r.half wp) s u ∧ u.errEntry r.half wp = errBytes r 1 0
      ∧ u.fld (ERRPTR_WP r.half) = (wp + 1) % 1024 ∧ u.fld (ERRPTR_RP r.half) = s.fld (ERRPTR_RP r.half) := by
  intro wp
  have hlen := length_errBytes r 1 0
  have hput := s.onlySet_entryPut r.half wp hlen
  have hptr : ∀ a ∈ errWords r.half wp, a ≠ aERRPTR r.half := by
    intro a ha
    have := errWords_bounds hhalf ha
    simp only [aERRLOG, aERRPTR] at this ⊢
    omega
  dsimp only
  rw [State.enterReport_new hhit hroom]
  refine ⟨(hput.mono (List.subset_cons_self _ _)).setFld (f := ERRPTR_WP r.half) List.mem_cons_self _, ?_, ?_, ?_⟩
  · rw [State.errEntry_congr fun a ha => State.reg_setFld_other _ (ERRPTR_WP r.half) _ a (hptr a ha)]
    exact s.errEntry_entryPut _ _ hlen (lt_of_mem_errBytes htyp hsev)
  · rw [State.fld_setFld_same _ _ _ (by simp [ERRPTR_WP])]
    exact Nat.mod_mod _ _
  · rw [State.fld_setFld_other _ (ERRPTR_WP r.half) (ERRPTR_RP r.half) _ (by simp [ERRPTR_WP]) (.inr (.inl (by simp [ERRPTR_WP, ERRPTR_RP])))]
    exact hput.fld fun hin => hptr _ hin rfl

/-- A loss counted in a field of ERRLOST and shown by a flag of GERRSTAT. -/
theorem State.bump_shown (s : State) {f g : Fld} (hf : f.addr = aERRLOST) (hg : g.addr = aGERRSTAT) (hfw : f.lo + f.w ≤ 64) (hgw : g.lo + g.w ≤ 64)
    (hone : g.w = 1) :
    let u := (s.bump f 1).setFld g 1
    State.OnlySet [aERRLOST, aGERRSTAT] s u ∧ u.fld f = min (2 ^ f.w - 1) (s.fld f + 1) ∧ u.flag g = true := by
  refine ⟨((State.OnlySet.refl _ s).setFld (by simp [hf]) _).setFld (by simp [hg]) _, ?_, ?_⟩
  · rw [State.fld_setFld_other _ g f _ hgw (.inl (by rw [hf, hg]; decide)), State.fld_bump _ _ _ hfw]
  · rw [State.flag_setFld_same _ _ _ hgw, hone]
    rfl

/-- A report that is lost: it is counted, and the overflow shown. -/
theorem State.enterReport_lost_spec (hhit : s.errHit r = none) (hfull : s.errFull r.half) :
    let u := s.enterReport r
    State.OnlySet [aERRLOST, aGERRSTAT] s u
      ∧ (r.half = 0 → u.fld ERRLOST_LOST0 = min (2 ^ 32 - 1) (s.fld ERRLOST_LOST0 + 1) ∧ u.flag GERRSTAT_OVF0 = true)
      ∧ (r.half = 1 → u.fld ERRLOST_LOST1 = min (2 ^ 32 - 1) (s.fld ERRLOST_LOST1 + 1) ∧ u.flag GERRSTAT_OVF1 = true) := by
  dsimp only
  rw [State.enterReport_lost hhit hfull]
  split
  · next h0 =>
    obtain ⟨honly, hcount, hshown⟩ := s.bump_shown (f := ERRLOST_LOST0) (g := GERRSTAT_OVF0) rfl rfl (by decide) (by decide) rfl
    exact ⟨honly, fun _ => ⟨hcount, hshown⟩, fun h1 => by omega⟩
  · next h0 =>
    obtain ⟨honly, hcount, hshown⟩ := s.bump_shown (f := ERRLOST_LOST1) (g := GERRSTAT_OVF1) rfl rfl (by decide) (by decide) rfl
    exact ⟨honly, fun h => absurd h h0, fun _ => ⟨hcount, hshown⟩⟩

/-- A report that joins an entry: that entry alone is written, its COUNT one up and its FIRST as it was. -/
theorem State.enterReport_joins_spec (hhit : s.errHit r = some i) (htyp : r.typ < 256) (hsev : r.sev < 256) :
    let u := s.enterReport r
    State.OnlySet (errWords r.half i) s u ∧ le (u.errEntry r.half i) 20 2 = min 65535 (le (s.errEntry r.half i) 20 2 + 1)
      ∧ le (u.errEntry r.half i) 0 8 = le (s.errEntry r.half i) 0 8 := by
  have hlen : (s.errJoined r i).length = 32 := length_errBytes _ _ _
  have hbyte : ∀ b ∈ s.errJoined r i, b < 256 := lt_of_mem_errBytes (r := { r with time := le (s.errEntry r.half i) 0 8 }) htyp hsev
  have hback := s.errEntry_entryPut r.half i hlen hbyte
  dsimp only
  rw [State.enterReport_joins hhit, hback]
  refine ⟨s.onlySet_entryPut _ _ hlen, ?_, ?_⟩
  · rw [State.errJoined, le_errBytes_count, satAdd]
    omega
  · rw [State.errJoined, le_errBytes_first]
    exact Nat.mod_eq_of_lt (le_lt _ 0 8)

/-! ## The error interrupt (R211, R465) -/

theorem State.reg_msix (s : State) (fn vec a : Nat) : (s.msix fn vec).reg a = s.reg a := by
  unfold State.msix
  dsimp only
  split
  · split <;> rfl
  · rfl

/-- An event writes no register below the host's counts of lost events. -/
theorem State.reg_event (s : State) (c typ src aux data : Nat) {a : Nat} (ha : a < aHEVLOST 0) : (s.event c typ src aux data).reg a = s.reg a := by
  have hne : a ≠ aHEVLOST c := by simp only [aHEVLOST] at ha ⊢; omega
  have hlost : (s.bump (HEVLOST_LOST c) 1).reg a = s.reg a := State.reg_setFld_other _ _ _ _ hne
  unfold State.event
  dsimp only
  split
  · rfl
  · split
    · split <;> exact hlost
    · exact State.reg_msix _ c 1 a

theorem State.reg_devError (s : State) (ring idx : Nat) {a : Nat} (ha : a < aHEVLOST 0) : (s.devError ring idx).reg a = s.reg a :=
  State.each_same (State.reg · a) (fun s c _ => s.reg_event c 4 0 (ring * 65536 + idx) 0 ha) s

theorem State.Noted.sameMem (h : State.Noted s u) : s.sameMem u := State.sameMem_of_stores h.tiles h.stk h.stkMark

theorem State.msix_mem_devError (s : State) (ring idx : Nat) : Out.msix 0 2 ∈ (s.devError ring idx).sent := by
  rw [State.devError, State.emit_sent]
  exact List.mem_append_right _ List.mem_cons_self

/-- The oldest report, with rs behind it, has left those that wait and has entered in its ring. -/
def State.entered (s : State) (r : Report) (rs : List Report) : State := ({ s with reports := rs } : State).enterReport r

theorem exec_errorReport (hrep : s.reports = r :: rs) :
    ∃ i, exec .errorReport s = .next (if r.typ = 4 then (s.entered r rs).devError r.half i else s.entered r rs) :=
  ⟨({ s with reports := rs } : State).errSlot r, by simp only [exec, execErrorReport, hrep]; rfl⟩

/-- A property of the answer to the oldest report is had from the state in which the report has entered: below the host's registers the answer
reads as that state, it has sent the interrupt where the report is a bucket's overflow, and it is that state where it is not. -/
theorem errorReport_gives {l : List Nat} {P : State → Prop} (hrep : s.reports = r :: rs)
    (honly : State.OnlySet l { s with reports := rs } (s.entered r rs))
    (hP : ∀ u, (∀ a < aHEVLOST 0, u.reg a = (s.entered r rs).reg a) → (r.typ = 4 → Out.msix 0 2 ∈ u.sent) →
      (r.typ ≠ 4 → u.reports = rs ∧ u.sent = s.sent ∧ s.sameRegs u l) → s.sameMem u → P u) :
    Gives (exec .errorReport s) P := by
  obtain ⟨i, hexec⟩ := exec_errorReport hrep
  have hmem : s.sameMem (s.entered r rs) := honly.sameMem
  refine ⟨_, hexec, ?_⟩
  split
  · next h4 =>
    exact hP _ (fun a ha => State.reg_devError _ _ _ ha) (fun _ => State.msix_mem_devError _ _ _) (fun h => absurd h4 h)
      (hmem.trans (State.noted_told _ _ _ _ _ _ _ _).sameMem)
  · next h4 =>
    obtain ⟨⟨regs, hu⟩, hregs⟩ := honly
    exact hP _ (fun a _ => rfl) (fun h => absurd h h4) (fun _ => ⟨by rw [hu], by rw [hu], hregs⟩) hmem

/-! ## RP (R216) -/

theorem exec_errorLogRpWrite (hh : h < 2) {rp : Nat} (hrp : rp < 1024) (s : State) : exec (.errorLogRpWrite h rp) s = .next (s.errRp h rp) := by
  simp only [exec, execErrorLogRpWrite, if_pos hh, Nat.mod_eq_of_lt hrp]

theorem errorLogRpWrite_frees (hh : h < 2) {rp : Nat} (hrp : rp < 1024) (s : State) :
    let old := s.fld (ERRPTR_RP h)
    let wp := s.fld (ERRPTR_WP h)
    Gives (exec (.errorLogRpWrite h rp) s) fun u =>
      ((rp + 1024 - old) % 1024 ≤ (wp + 1024 - old) % 1024 → u.fld (ERRPTR_RP h) = rp) ∧
      ((wp + 1024 - old) % 1024 < (rp + 1024 - old) % 1024 → u.fld (ERRPTR_RP h) = wp) ∧
      u.fld (ERRPTR_WP h) = wp ∧ s.sameRegs u [aERRPTR h] ∧ s.sameMem u := by
  intro old wp
  have hwp : wp < 1024 := s.fld_lt (ERRPTR_WP h)
  have hback : ∀ n < 1024, (s.setFld (ERRPTR_RP h) n).fld (ERRPTR_RP h) = n := fun n hn =>
    (s.fld_setFld_same (ERRPTR_RP h) n (by simp [ERRPTR_RP])).trans (Nat.mod_eq_of_lt hn)
  have honly : ∀ n, State.OnlySet [aERRPTR h] s (s.setFld (ERRPTR_RP h) n) := fun n =>
    (State.OnlySet.refl _ s).setFld (f := ERRPTR_RP h) List.mem_cons_self n
  refine ⟨_, exec_errorLogRpWrite hh hrp s, fun hle => ?_, fun hlt => ?_, ?_, (honly _).2, (honly _).sameMem⟩
  · rw [State.errRp, if_pos hle, Nat.mod_eq_of_lt hrp, hback rp hrp]
  · rw [State.errRp, if_neg (Nat.not_le.mpr hlt), hback wp hwp]
  · exact s.fld_setFld_other (ERRPTR_RP h) (ERRPTR_WP h) _ (by simp [ERRPTR_RP]) (.inr (.inr (by simp [ERRPTR_RP, ERRPTR_WP])))

/-! ## Leak ticks (R210) -/

/-- Bucket n leaks by one. -/
def State.leakBucket (s : State) (n : Nat) : State := s.setFld (GECCBKT_LEVEL n) (s.fld (GECCBKT_LEVEL n) - 1)

/-- The buckets of class k: 0 the halves', 1 the stacks'. -/
def bucketsOf (k : Nat) : List Nat := if k = 0 then [0, 1] else [2, 3, 4, 5, 6, 7, 8, 9]

theorem State.leakOne_eq (s : State) (k : Nat) : s.leakOne k = (bucketsOf k).foldl State.leakBucket s := rfl

theorem nodup_bucketsOf (k : Nat) : (bucketsOf k).Nodup := by
  unfold bucketsOf
  split <;> decide

theorem mem_bucketsOf {k n : Nat} (hn : n < 10) : n ∈ bucketsOf k ↔ (k = 0 ↔ n < 2) := by
  unfold bucketsOf
  split <;> simp only [List.mem_cons, List.not_mem_nil, or_false] <;> omega

theorem State.level_leakBucket (s : State) (m n : Nat) :
    (s.leakBucket m).fld (GECCBKT_LEVEL n) = if n = m then s.fld (GECCBKT_LEVEL n) - 1 else s.fld (GECCBKT_LEVEL n) := by
  split
  · next hn =>
    subst hn
    have hlt : s.fld (GECCBKT_LEVEL n) < 2 ^ 16 := s.fld_lt (GECCBKT_LEVEL n)
    exact (s.fld_setFld_same (GECCBKT_LEVEL n) _ (by simp [GECCBKT_LEVEL])).trans (Nat.mod_eq_of_lt (by simp only [GECCBKT_LEVEL] at hlt ⊢; omega))
  · next hn =>
    refine s.fld_setFld_other (GECCBKT_LEVEL m) (GECCBKT_LEVEL n) _ (by simp [GECCBKT_LEVEL]) (.inl ?_)
    simp only [GECCBKT_LEVEL, aGECCBKT]
    omega

/-- Buckets that leak once each are one lower, and no other one is. -/
theorem State.level_leakBuckets (s : State) {l : List Nat} (hl : l.Nodup) (n : Nat) :
    (l.foldl State.leakBucket s).fld (GECCBKT_LEVEL n) = if n ∈ l then s.fld (GECCBKT_LEVEL n) - 1 else s.fld (GECCBKT_LEVEL n) := by
  induction l generalizing s with
  | nil => rfl
  | cons m l ih =>
    obtain ⟨hm, hl⟩ := List.nodup_cons.mp hl
    rw [List.foldl_cons, ih _ hl, State.level_leakBucket]
    by_cases hn : n = m
    · subst hn
      simp [hm]
    · simp [hn]

theorem State.ovfcnt_leakOne (s : State) (k n : Nat) : (s.leakOne k).fld (GECCBKT_OVFCNT n) = s.fld (GECCBKT_OVFCNT n) :=
  State.each_same (State.fld · (GECCBKT_OVFCNT n)) (fun s m _ => s.fld_setFld_other (GECCBKT_LEVEL m) (GECCBKT_OVFCNT n) _
    (by simp [GECCBKT_LEVEL]) (.inr (.inl (by simp [GECCBKT_LEVEL, GECCBKT_OVFCNT])))) s

theorem State.tsync_leakOne (s : State) (k : Nat) : (s.leakOne k).tsync = s.tsync :=
  State.each_same (f := State.leakBucket) State.tsync (fun _ _ _ => rfl) s

theorem exec_leakTick (s : State) (k : Nat) : exec (.leakTick k) s = .next (s.leakDue k) := rfl

/-- No tick of the class waits. -/
theorem State.leakDue_none {k : Nat} (hk : k ∉ s.tsync.leak) : s.leakDue k = s := if_neg (by simpa using hk)

/-- A tick of the class waits: it is taken, and the class's buckets leak. -/
theorem State.leakDue_taken {k : Nat} (hk : k ∈ s.tsync.leak) :
    s.leakDue k = (s.withLeak (s.tsync.leak.filter (· != k))).leakOne k := if_pos (by simpa using hk)

theorem leakTick_lowers {k : Nat} (hk : k ∈ s.tsync.leak) :
    Gives (exec (.leakTick k) s) fun u => k ∉ u.tsync.leak ∧
      (∀ n < 10, u.fld (GECCBKT_LEVEL n) = if (k = 0 ↔ n < 2) then s.fld (GECCBKT_LEVEL n) - 1 else s.fld (GECCBKT_LEVEL n)) ∧
      (∀ n < 10, u.fld (GECCBKT_OVFCNT n) = s.fld (GECCBKT_OVFCNT n)) ∧ s.sameRegs u ((List.range 10).map aGECCBKT) ∧ s.sameMem u := by
  have hdue := State.leakDue_taken hk
  have honly := s.onlyTime_leakDue k
  refine ⟨_, exec_leakTick s k, ?_, fun n hn => ?_, fun n _ => ?_, honly.2, honly.sameMem⟩
  · rw [hdue, State.tsync_leakOne]
    simp [State.withLeak]
  · rw [hdue, State.leakOne_eq, State.level_leakBuckets _ (nodup_bucketsOf k)]
    simp only [mem_bucketsOf hn]
    rfl
  · rw [hdue, State.ovfcnt_leakOne]
    rfl

end Sys2Proof.Machine

namespace Sys2Proof.Proofs
open Sys2Proof Sys2Proof.Machine

variable {s : State} {r : Report} {rs : List Report}

theorem errorReport_enters (hrep : s.reports = r :: rs) (hhalf : r.half < 2) (htyp : r.typ < 256) (hsev : r.sev < 256) (hhit : s.errHit r = none)
    (hroom : ¬ s.errFull r.half) :
    let h := r.half
    let wp := s.fld (ERRPTR_WP h)
    Gives (exec .errorReport s) fun u => u.errEntry h wp = errBytes r 1 0 ∧ u.fld (ERRPTR_WP h) = (wp + 1) % 1024
      ∧ u.fld (ERRPTR_RP h) = s.fld (ERRPTR_RP h) ∧ s.sameMem u ∧ (r.typ = 4 → Out.msix 0 2 ∈ u.sent)
      ∧ (r.typ ≠ 4 → u.reports = rs ∧ u.sent = s.sent
          ∧ s.sameRegs u [aERRPTR h, aERRLOG (errWord h wp), aERRLOG (errWord h wp + 1), aERRLOG (errWord h wp + 2), aERRLOG (errWord h wp + 3)]) := by
  intro h wp
  obtain ⟨honly, hentry, hwp, hrp⟩ := State.enterReport_new_spec (s := { s with reports := rs }) hhit hroom hhalf htyp hsev
  refine errorReport_gives hrep honly fun u hreg hmsix hplain hmem => ?_
  have hptr : aERRPTR h < aHEVLOST 0 := by simp only [h, aERRPTR, aHEVLOST]; omega
  refine ⟨(State.errEntry_congr fun a ha => hreg a ?_).trans hentry, (State.fld_of_reg (hreg _ hptr)).trans hwp,
    (State.fld_of_reg (hreg _ hptr)).trans hrp, hmem, hmsix, fun h4 => ?_⟩
  · exact (errWords_bounds hhalf ha).2.trans (by decide)
  · rw [← errWords_eq]
    exact hplain h4

theorem errorReport_isLost (hrep : s.reports = r :: rs) (hhalf : r.half < 2) (hhit : s.errHit r = none) (hfull : s.errFull r.half) :
    let h := r.half
    let wp := s.fld (ERRPTR_WP h)
    Gives (exec .errorReport s) fun u => (r.typ = 4 → Out.msix 0 2 ∈ u.sent) ∧ (r.typ ≠ 4 → u.reports = rs ∧ u.sent = s.sent)
      ∧ (∀ k i, k < 2 → u.errEntry k i = s.errEntry k i) ∧ u.fld (ERRPTR_WP h) = wp
      ∧ (h = 0 → u.fld ERRLOST_LOST0 = min (2 ^ 32 - 1) (s.fld ERRLOST_LOST0 + 1) ∧ u.flag GERRSTAT_OVF0 = true)
      ∧ (h = 1 → u.fld ERRLOST_LOST1 = min (2 ^ 32 - 1) (s.fld ERRLOST_LOST1 + 1) ∧ u.flag GERRSTAT_OVF1 = true) ∧ s.sameMem u := by
  intro h wp
  obtain ⟨honly, hlost0, hlost1⟩ := State.enterReport_lost_spec (s := { s with reports := rs }) hhit hfull
  refine errorReport_gives hrep honly fun u hreg hmsix hplain hmem => ?_
  have hlost : aERRLOST < aHEVLOST 0 ∧ aGERRSTAT < aHEVLOST 0 := by decide
  have hsame : ∀ a < aHEVLOST 0, a ∉ [aERRLOST, aGERRSTAT] → u.reg a = s.reg a := fun a ha hnot => (hreg a ha).trans (honly.2 a hnot)
  refine ⟨hmsix, fun h4 => ⟨(hplain h4).1, (hplain h4).2.1⟩, fun k i hk => ?_, State.fld_of_reg (hsame _ ?_ ?_), fun h0 => ?_, fun h1 => ?_, hmem⟩
  · refine State.errEntry_congr fun a ha => ?_
    obtain ⟨hlow, hhigh⟩ := errWords_bounds hk ha
    refine hsame a (hhigh.trans (by decide)) ?_
    simp only [aERRLOG, aERRLOST, aGERRSTAT, List.mem_cons, List.not_mem_nil, or_false] at hlow ⊢
    omega
  · simp only [ERRPTR_WP, aERRPTR, aHEVLOST, h]
    omega
  · simp only [ERRPTR_WP, aERRPTR, aERRLOST, aGERRSTAT, List.mem_cons, List.not_mem_nil, or_false, h]
    omega
  · exact ⟨(State.fld_of_reg (hreg _ hlost.1)).trans (hlost0 h0).1, (State.flag_of_reg (hreg _ hlost.2)).trans (hlost0 h0).2⟩
  · exact ⟨(State.fld_of_reg (hreg _ hlost.1)).trans (hlost1 h1).1, (State.flag_of_reg (hreg _ hlost.2)).trans (hlost1 h1).2⟩

theorem errorReport_joins {i : Nat} (hrep : s.reports = r :: rs) (hhalf : r.half < 2) (htyp : r.typ < 256) (hsev : r.sev < 256)
    (hhit : s.errHit r = some i) :
    let h := r.half
    let wp := s.fld (ERRPTR_WP h)
    Gives (exec .errorReport s) fun u => (r.typ = 4 → Out.msix 0 2 ∈ u.sent) ∧ (r.typ ≠ 4 → u.reports = rs ∧ u.sent = s.sent)
      ∧ u.fld (ERRPTR_WP h) = wp ∧ le (u.errEntry h i) 20 2 = min 65535 (le (s.errEntry h i) 20 2 + 1)
      ∧ le (u.errEntry h i) 0 8 = le (s.errEntry h i) 0 8 ∧ s.sameMem u := by
  intro h wp
  obtain ⟨honly, hcount, hfirst⟩ := State.enterReport_joins_spec (s := { s with reports := rs }) hhit htyp hsev
  refine errorReport_gives hrep honly fun u hreg hmsix hplain hmem => ?_
  have hptr : (ERRPTR_WP h).addr < aHEVLOST 0 := by simp only [h, ERRPTR_WP, aERRPTR, aHEVLOST]; omega
  have hnot : (ERRPTR_WP h).addr ∉ errWords r.half i := by
    intro hin
    have := errWords_bounds hhalf hin
    simp only [h, ERRPTR_WP, aERRPTR, aERRLOG] at this
    omega
  have hentry := State.errEntry_congr (i := i) fun a ha => hreg a ((errWords_bounds hhalf ha).2.trans (by decide))
  exact ⟨hmsix, fun h4 => ⟨(hplain h4).1, (hplain h4).2.1⟩, State.fld_of_reg ((hreg _ hptr).trans (honly.2 _ hnot)),
    hentry ▸ hcount, hentry ▸ hfirst, hmem⟩

/-- Settles O28: the three ends of the oldest report, the write of RP, and the leak ticks. -/
theorem errorLogCommands : Obligations.ErrorLogCommands := by
  unfold Obligations.ErrorLogCommands
  refine ⟨fun s r rs hrep hhalf htyp hsev => ⟨?_, ?_, ?_⟩, fun s h rp hh hrp => errorLogRpWrite_frees hh hrp s,
    fun s k hk => congrArg Host.Outcome.next (State.leakDue_none hk), fun s k _ hk => leakTick_lowers hk⟩
  · exact fun hhit hroom => errorReport_enters hrep hhalf htyp hsev hhit hroom
  · exact fun hhit hfull => errorReport_isLost hrep hhalf hhit hfull
  · exact fun i hhit => errorReport_joins hrep hhalf htyp hsev hhit

end Sys2Proof.Proofs
end

section
/-! SUPPORT. A stack's channels and half-granules: which channel holds a byte, what a read of sound or poisoned half-granules gives, what a
write of whole half-granules leaves, and O30 (R222, R223, R224, R226, R227, R230). -/

namespace Sys2Proof.Machine

variable {s u v : State}

/-! ## Channels (R222, R230) -/

/-- Bytes of one 4 KiB page of a stack lie in one channel. -/
theorem State.channelOf_page (s : State) (st : Nat) {off off' : Nat} (h : off' / 4096 = off / 4096) : s.channelOf st off' = s.channelOf st off := by
  simp only [State.channelOf, h]

theorem State.chanFailed_page (s : State) (st : Nat) {off off' : Nat} (h : off' / 4096 = off / 4096) : s.chanFailed st off' = s.chanFailed st off := by
  rw [State.chanFailed, State.channelOf_page s st h, ← State.chanFailed]

theorem State.liveList_pairwise (s : State) (st : Nat) : (s.liveList st).Pairwise (· < ·) := List.pairwise_lt_range.filter _

/-- The channel of an offset is the live one at the offset's page, counted round. -/
theorem State.channelOf_live {st : Nat} (off : Nat) (h : s.liveList st ≠ []) :
    (s.liveList st)[(off / 4096) % (s.liveList st).length]? = some (s.channelOf st off)
      ∧ bitOf (s.fld (SCHMAP_LIVEMAP st)) (s.channelOf st off) = true := by
  have hpos : 0 < (s.liveList st).length := List.length_pos_of_ne_nil h
  have hmod : (off / 4096) % (s.liveList st).length < (s.liveList st).length := Nat.mod_lt _ hpos
  have hchan : s.channelOf st off = (s.liveList st)[(off / 4096) % (s.liveList st).length] := by
    simp only [State.channelOf, nth, Nat.max_eq_right (Nat.one_le_iff_ne_zero.mpr hpos.ne'), List.getElem?_eq_getElem hmod, Option.getD_some]
  rw [hchan, List.getElem?_eq_getElem hmod]
  exact ⟨rfl, (List.mem_filter.mp (List.getElem_mem hmod)).2⟩

theorem State.chanOffset_live {st : Nat} (off : Nat) (h : s.liveList st ≠ []) :
    s.chanOffset st off = off / 4096 / (s.liveList st).length * 4096 + off % 4096 := by
  rw [State.chanOffset, Nat.max_eq_right (Nat.one_le_iff_ne_zero.mpr (List.length_pos_of_ne_nil h).ne')]

/-- The failure of a channel is read from two registers of its stack. -/
theorem State.chanFailed_congr {st : Nat} (hfail : u.reg (aSFAIL st) = s.reg (aSFAIL st)) (hmap : u.reg (aSCHMAP st) = s.reg (aSCHMAP st)) (off : Nat) :
    u.chanFailed st off = s.chanFailed st off := by
  have hfail' : u.fld (SFAIL_FAILMAP st) = s.fld (SFAIL_FAILMAP st) := State.fld_of_reg hfail
  have hmap' : u.fld (SCHMAP_LIVEMAP st) = s.fld (SCHMAP_LIVEMAP st) := State.fld_of_reg hmap
  rw [State.chanFailed, State.chanFailed, State.channelOf, State.channelOf, State.liveList, State.liveList, hfail', hmap']

/-- The channel of the byte at a device address has failed. -/
def State.deadAt (s : State) (d : Nat) : Bool := s.chanFailed (d / 0x1000000000) (d % 0x1000000000)

/-- Bytes of one page share their channel's fate. -/
theorem State.deadAt_page (s : State) {d d' : Nat} (h : d' / 4096 = d / 4096) : s.deadAt d' = s.deadAt d := by
  have hstack : d' / 0x1000000000 = d / 0x1000000000 := by omega
  rw [State.deadAt, State.deadAt, hstack]
  exact State.chanFailed_page s _ (by omega)

/-- Where no granule of a range within one stack hits a failed channel, no byte of it does. -/
theorem State.deadAt_of_hitsFailed {d n : Nat} (hspan : d % 0x1000000000 + n ≤ 0x1000000000) (h : s.hitsFailed d n = false) {a : Nat}
    (hlo : d ≤ a) (hhi : a < d + n) : s.deadAt a = false := by
  have hn : (n != 0) = true := bne_iff_ne.mpr (by omega)
  rw [State.hitsFailed, hn, Bool.true_and, List.any_eq_false] at h
  have hpage := h (a / 4096 - d / 4096) (List.mem_range.mpr (by omega))
  have hstack : d / 0x1000000000 = a / 0x1000000000 := by omega
  rw [Bool.not_eq_true, hstack] at hpage
  rw [State.deadAt, ← hpage]
  exact State.chanFailed_page s _ (by omega)

/-! ## Reading half-granules (R224, R226) -/

theorem State.checkHalf_dead {d : Nat} (h : s.deadAt d = true) : s.checkHalf d = (true, s) := if_pos h

/-- A half-granule without an error reads poisoned where the poison marker stands. -/
theorem State.checkHalf_sound {d : Nat} (hlive : s.deadAt d = false) (hmark : s.markOf d = 0 ∨ s.markOf d = 3) :
    s.checkHalf d = (s.markOf d == 3, s) := by
  have hlive' : s.chanFailed (d / 0x1000000000) (d % 0x1000000000) = false := hlive
  obtain h | h := hmark <;> simp only [State.checkHalf, hlive', h, Bool.false_eq_true, if_false] <;> rfl

/-- Granules whose half-granules are checked without a trace: p tells which of these read poisoned. -/
theorem State.stkGranules_halves {p : Nat → Bool} (n : Nat) {g : Nat} (h : ∀ j < 2 * n, s.checkHalf ((2 * g + j) * 32) = (p (2 * g + j), s)) :
    s.stkGranules g n = ((List.range (64 * n)).map fun i => (s.stkByte (g * 64 + i), p ((g * 64 + i) / 32)), s) := by
  induction n generalizing g with
  | zero => rfl
  | succ n ih =>
    have hlow : s.checkHalf (g * 64) = (p (2 * g), s) := by rw [show g * 64 = (2 * g + 0) * 32 by ring]; exact h 0 (by omega)
    have hhigh : s.checkHalf (g * 64 + 32) = (p (2 * g + 1), s) := by rw [show g * 64 + 32 = (2 * g + 1) * 32 by ring]; exact h 1 (by omega)
    have hrest := ih (g := g + 1) fun j hj => by
      rw [show 2 * (g + 1) + j = 2 * g + (j + 2) by ring]
      exact h (j + 2) (by omega)
    have hbytes : ∀ i, (g + 1) * 64 + i = g * 64 + (64 + i) := fun i => by ring
    simp only [State.stkGranules, State.stkGranule, hlow, hhigh, hrest]
    rw [show 64 * (n + 1) = 64 + 64 * n by ring, List.range_add, List.map_append, List.map_map]
    simp only [hbytes, Function.comp_def]
    congr 2
    refine List.map_congr_left fun i hi => ?_
    have hi := List.mem_range.mp hi
    split
    · rw [show (g * 64 + i) / 32 = 2 * g by omega]
    · rw [show (g * 64 + i) / 32 = 2 * g + 1 by omega]

/-- A read of whole granules that are checked without a trace. -/
theorem State.stkRead_halves {p : Nat → Bool} {d n : Nat} (hd : d % 64 = 0) (hn : n % 64 = 0)
    (h : ∀ k, d ≤ k * 32 → k * 32 < d + n → s.checkHalf (k * 32) = (p k, s)) :
    s.stkRead d n = ((List.range n).map fun i => (s.stkByte (d + i), p ((d + i) / 32)), s) := by
  by_cases hzero : n = 0
  · rw [State.stkRead, if_pos hzero, hzero]
    rfl
  · have hfirst : d / 64 * 64 = d := by omega
    have hcount : (d + n - 1) / 64 - d / 64 + 1 = n / 64 := by omega
    have hwhole : 64 * (n / 64) = n := by omega
    have hread := State.stkGranules_halves (s := s) (p := p) (n / 64) (g := d / 64) fun j hj => h _ (by omega) (by omega)
    rw [State.stkRead, if_neg hzero]
    dsimp only
    rw [hcount, hread, hd, hfirst, hwhole, List.drop_zero, List.take_of_length_le (by simp)]

/-! ## Writing half-granules (R223, R226, R227) -/

/-- The bytes bs have gone into the stack at d, by whole half-granules: one with a poisoned byte takes the marker, and nothing else changes. -/
structure State.PutAt (d : Nat) (bs : List (Nat × Bool)) (s u : State) : Prop where
  only : ∃ sk sm, u = { s with stk := sk, stkMark := sm }
  outside : ∀ x, x < d ∨ d + bs.length ≤ x → u.stkByte x = s.stkByte x ∧ u.markOf x = s.markOf x
  marks : ∀ i < bs.length, u.markOf (d + i) = if anyPois ((bs.drop (i / 32 * 32)).take 32) then 3 else 0
  bytes : ∀ i < bs.length, anyPois ((bs.drop (i / 32 * 32)).take 32) = false → u.stkByte (d + i) = (nth (0, false) bs i).1 % 256

theorem State.PutAt.reg {d : Nat} {bs : List (Nat × Bool)} (h : State.PutAt d bs s u) (a : Nat) : u.reg a = s.reg a := by
  obtain ⟨_, _, rfl⟩ := h.only
  rfl

theorem State.PutAt.deadAt {d : Nat} {bs : List (Nat × Bool)} (h : State.PutAt d bs s u) (x : Nat) : u.deadAt x = s.deadAt x :=
  State.chanFailed_congr (h.reg _) (h.reg _) _

theorem State.putAt_nil (s : State) (d : Nat) : State.PutAt d [] s s where
  only := ⟨s.stk, s.stkMark, rfl⟩
  outside _ _ := ⟨rfl, rfl⟩
  marks _ h := absurd h (Nat.not_lt_zero _)
  bytes _ h := absurd h (Nat.not_lt_zero _)

/-- One half-granule is replaced. -/
theorem State.putAt_half {d : Nat} {bs : List (Nat × Bool)} (hd : d % 32 = 0) (hlen : bs.length = 32) (hlive : s.deadAt d = false) :
    State.PutAt d bs s (s.stkPutHalf d bs) := by
  have hlive' : s.chanFailed (d / 0x1000000000) (d % 0x1000000000) = false := hlive
  have hhalf : ∀ i < 32, (bs.drop (i / 32 * 32)).take 32 = bs := fun i hi => by
    rw [show i / 32 * 32 = 0 by omega, List.drop_zero, List.take_of_length_le (by omega)]
  have hsame : ∀ i < 32, (d + i) / 32 = d / 32 := fun i hi => by omega
  have hother : ∀ x, x < d ∨ d + bs.length ≤ x → x / 32 ≠ d / 32 := fun x hx => by omega
  rw [State.stkPutHalf, hlive', if_neg Bool.false_ne_true]
  split
  next hpois =>
    refine ⟨⟨s.stk, _, rfl⟩, fun x hx => ⟨rfl, by rw [State.markOf, SMap.get_set_other _ _ _ _ _ (hother x hx)]; rfl⟩, fun i hi => ?_, fun i hi hclean => ?_⟩
    · rw [hhalf i (by omega), if_pos hpois, State.markOf, hsame i (by omega), SMap.get_set_same]
    · rw [hhalf i (by omega), hpois] at hclean
      cases hclean
  next hclean =>
    refine ⟨⟨_, _, rfl⟩, fun x hx => ⟨?_, by rw [State.markOf, SMap.get_set_other _ _ _ _ _ (hother x hx)]; rfl⟩, fun i hi => ?_, fun i hi _ => ?_⟩
    · simp only [State.stkByte, SMap.get_setList]
      split
      next hle => rw [List.getElem?_eq_none (by simp only [List.length_map]; omega), Option.getD_none]
      next => rfl
    · rw [hhalf i (by omega), if_neg hclean, State.markOf, hsame i (by omega), SMap.get_set_same]
    · simp only [State.stkByte, SMap.get_setList, Nat.le_add_right, if_true, Nat.add_sub_cancel_left, List.getElem?_map, nth,
        List.getElem?_eq_getElem hi, Option.map_some, Option.getD_some, BitVec.toNat_ofNat]

/-- A half-granule and what is written behind it. -/
theorem State.PutAt.append {d : Nat} {bs cs : List (Nat × Bool)} (h : State.PutAt d bs s u) (k : State.PutAt (d + 32) cs u v)
    (hd : d % 32 = 0) (hlen : bs.length = 32) : State.PutAt d (bs ++ cs) s v := by
  have hlow : ∀ i < 32, ((bs ++ cs).drop (i / 32 * 32)).take 32 = (bs.drop (i / 32 * 32)).take 32 := fun i hi => by
    rw [show i / 32 * 32 = 0 by omega, List.drop_zero, List.drop_zero, List.take_append_of_le_length (by omega)]
  have hhigh : ∀ i, ((bs ++ cs).drop ((i + 32) / 32 * 32)).take 32 = (cs.drop (i / 32 * 32)).take 32 := fun i => by
    rw [show (i + 32) / 32 * 32 = bs.length + i / 32 * 32 by omega, List.drop_append,
      List.drop_eq_nil_of_le (Nat.le_add_right _ _), List.nil_append, Nat.add_sub_cancel_left]
  have hkeep := fun i (hi : i < 32) => k.outside (d + i) (.inl (by omega))
  have hcut : ∀ i < (bs ++ cs).length, i < 32 ∨ ∃ j, i = j + 32 ∧ j < cs.length := fun i hi => by
    rw [List.length_append] at hi
    by_cases hi' : i < 32
    · exact .inl hi'
    · exact .inr ⟨i - 32, by omega, by omega⟩
  refine ⟨?_, fun x hx => ?_, fun i hi => ?_, fun i hi hclean => ?_⟩
  · obtain ⟨_, _, rfl⟩ := h.only
    obtain ⟨sk, sm, rfl⟩ := k.only
    exact ⟨sk, sm, rfl⟩
  · rw [List.length_append] at hx
    obtain ⟨hb, hm⟩ := h.outside x (by omega)
    obtain ⟨hb', hm'⟩ := k.outside x (by omega)
    exact ⟨hb'.trans hb, hm'.trans hm⟩
  · obtain hi | ⟨j, rfl, hj⟩ := hcut i hi
    · rw [hlow i hi, (hkeep i hi).2, h.marks i (by omega)]
    · rw [hhigh j, show d + (j + 32) = d + 32 + j by ring, k.marks j hj]
  · obtain hi | ⟨j, rfl, hj⟩ := hcut i hi
    · rw [hlow i hi] at hclean
      rw [(hkeep i hi).1, h.bytes i (by omega) hclean, nth, nth, List.getElem?_append_left (by omega)]
    · rw [hhigh j] at hclean
      rw [show d + (j + 32) = d + 32 + j by ring, k.bytes j hj hclean, nth, nth, List.getElem?_append_right (by omega), hlen, Nat.add_sub_cancel]

theorem State.putAt_halves (n : Nat) {d : Nat} {bs : List (Nat × Bool)} (hd : d % 32 = 0) (hlen : bs.length = 32 * n)
    (hlive : ∀ k < n, s.deadAt (d + 32 * k) = false) : State.PutAt d bs s (s.stkPut d n bs) := by
  induction n generalizing s d bs with
  | zero =>
    rw [List.eq_nil_of_length_eq_zero hlen]
    exact s.putAt_nil d
  | succ n ih =>
    have htake : (bs.take 32).length = 32 := by rw [List.length_take]; omega
    have hfirst := State.putAt_half hd htake (hlive 0 (Nat.succ_pos n))
    have hrest := ih (s := s.stkPutHalf d (bs.take 32)) (d := d + 32) (bs := bs.drop 32) (by omega) (by rw [List.length_drop]; omega) fun k hk => by
      rw [hfirst.deadAt, show d + 32 + 32 * k = d + 32 * (k + 1) by ring]
      exact hlive (k + 1) (by omega)
    have hall := hfirst.append hrest hd htake
    rw [List.take_append_drop] at hall
    exact hall

/-- A write of whole granules to channels that have not failed. -/
theorem State.putAt_stkWrite {d : Nat} {bs : List (Nat × Bool)} (hd : d % 64 = 0) (hlen : bs.length % 64 = 0)
    (hspan : d % 0x1000000000 + bs.length ≤ 0x1000000000) (hopen : s.hitsFailed d bs.length = false) : State.PutAt d bs s (s.stkWrite d bs) :=
  State.putAt_halves _ (by omega) (by omega) fun _ _ => State.deadAt_of_hitsFailed hspan hopen (by omega) (by omega)

/-- What was put is read back: a half-granule with a poisoned byte all poisoned. -/
theorem State.PutAt.stkRead {d : Nat} {bs : List (Nat × Bool)} (h : State.PutAt d bs s u) (hd : d % 64 = 0) (hlen : bs.length % 64 = 0)
    (hlive : ∀ a, d ≤ a → a < d + bs.length → s.deadAt a = false) :
    u.stkRead d bs.length = ((List.range bs.length).map fun i => (u.stkByte (d + i), anyPois ((bs.drop (i / 32 * 32)).take 32)), u) := by
  have hmark : ∀ k, d ≤ k * 32 → k * 32 < d + bs.length →
      u.markOf (k * 32) = if anyPois ((bs.drop (k * 32 - d)).take 32) then 3 else 0 := fun k hlo hhi => by
    have hk := h.marks (k * 32 - d) (by omega)
    rw [show d + (k * 32 - d) = k * 32 by omega, show (k * 32 - d) / 32 * 32 = k * 32 - d by omega] at hk
    exact hk
  rw [State.stkRead_halves (p := fun k => anyPois ((bs.drop (k * 32 - d)).take 32)) hd hlen]
  · congr 1
    refine List.map_congr_left fun i _ => ?_
    rw [show (d + i) / 32 * 32 - d = i / 32 * 32 by omega]
  · intro k hlo hhi
    have hk := hmark k hlo hhi
    rw [State.checkHalf_sound ((h.deadAt _).trans (hlive _ hlo hhi)) (by rw [hk]; split <;> simp), hk]
    split <;> simp_all

/-- Bytes that lie at d, without a mark and in channels that have not failed, read clean. -/
theorem State.stkHolds_of_bytes {d : Nat} {bs : List Nat} (hd : d % 64 = 0) (hlen : bs.length % 64 = 0)
    (hlive : ∀ a, d ≤ a → a < d + bs.length → u.deadAt a = false) (hmark : ∀ i < bs.length, u.markOf (d + i) = 0)
    (hbyte : ∀ i < bs.length, u.stkByte (d + i) = nth 0 bs i) : u.stkHolds d bs := by
  rw [State.stkHolds, State.stkRead_halves (p := fun _ => false) hd hlen]
  · congr 1
    refine List.ext_getElem (by simp) fun i hi _ => ?_
    have hi : i < bs.length := by simpa using hi
    simp [hbyte i hi, nth, hi]
  · intro k hlo hhi
    have hzero : u.markOf (k * 32) = 0 := by
      rw [show k * 32 = d + (k * 32 - d) by omega]
      exact hmark _ (by omega)
    rw [State.checkHalf_sound (hlive _ hlo hhi) (.inl hzero), hzero]
    rfl

/-! ## A granule of a failed channel (R230) -/

theorem State.deadAt_granule {g : Nat} (h : s.deadAt (g * 64) = true) : s.deadAt (g * 64 + 32) = true := by
  rw [State.deadAt_page s (d := g * 64) (by omega)]
  exact h

theorem State.stkGranule_dead {g : Nat} (h : s.deadAt (g * 64) = true) :
    s.stkGranule g = ((List.range 64).map fun i => (s.stkByte (g * 64 + i), true), s) := by
  simp only [State.stkGranule, State.checkHalf_dead h, State.checkHalf_dead (State.deadAt_granule h), ite_self]

theorem State.stkPutHalf_dead {d : Nat} (h : s.deadAt d = true) (bs : List (Nat × Bool)) : s.stkPutHalf d bs = s := if_pos h

theorem State.stkWrite_dead {g : Nat} {bs : List (Nat × Bool)} (h : s.deadAt (g * 64) = true) (hlen : bs.length = 64) :
    s.stkWrite (g * 64) bs = s := by
  rw [State.stkWrite, hlen, show 64 / 32 = 2 from rfl, State.stkPut, State.stkPutHalf_dead h, State.stkPut, State.stkPutHalf_dead (State.deadAt_granule h),
    State.stkPut]

end Sys2Proof.Machine

namespace Sys2Proof.Proofs
open Sys2Proof Sys2Proof.Machine

/-- A write of whole granules and its read back. -/
theorem granules_read_back {s : State} {d : Nat} {bs : List (Nat × Bool)} (hd : d % 64 = 0) (hlen : bs.length % 64 = 0)
    (hspan : d % 0x1000000000 + bs.length ≤ 0x1000000000) (hbyte : ∀ b ∈ bs, b.1 < 256) (hopen : s.hitsFailed d bs.length = false) :
    let u := s.stkWrite d bs
    (∀ x, x < d ∨ d + bs.length ≤ x → u.stkByte x = s.stkByte x ∧ u.markOf x = s.markOf x) ∧ (u.stkRead d bs.length).2 = u ∧
    ∀ i < bs.length,
      ((u.stkRead d bs.length).1[i]?.map (·.2)) = some (anyPois ((bs.drop (i / 32 * 32)).take 32)) ∧
      (anyPois ((bs.drop (i / 32 * 32)).take 32) = false → (u.stkRead d bs.length).1[i]? = bs[i]?) := by
  intro u
  have hput : State.PutAt d bs s u := State.putAt_stkWrite hd hlen hspan hopen
  rw [hput.stkRead hd hlen fun _ => State.deadAt_of_hitsFailed hspan hopen]
  refine ⟨hput.outside, rfl, fun i hi => ?_⟩
  have hget : ((List.range bs.length).map fun i => (u.stkByte (d + i), anyPois ((bs.drop (i / 32 * 32)).take 32)))[i]?
      = some (u.stkByte (d + i), anyPois ((bs.drop (i / 32 * 32)).take 32)) := by
    rw [List.getElem?_map, List.getElem?_range hi, Option.map_some]
  dsimp only
  rw [hget]
  refine ⟨rfl, fun hclean => ?_⟩
  have hmem : bs[i] ∈ (bs.drop (i / 32 * 32)).take 32 := by
    rw [List.mem_take_iff_getElem]
    exact ⟨i % 32, by rw [List.length_drop]; omega, by rw [List.getElem_drop]; congr 1; omega⟩
  have hflag : bs[i].2 = false := by
    rw [anyPois, List.any_eq_false] at hclean
    simpa using hclean _ hmem
  rw [hput.bytes i hi hclean, hclean, nth, List.getElem?_eq_getElem hi, Option.getD_some, Nat.mod_eq_of_lt (hbyte _ (List.getElem_mem hi)), ← hflag]

/-- A granule of a failed channel. -/
theorem dead_granule_keeps {s : State} {g : Nat} {bs : List (Nat × Bool)} (hdead : s.deadAt (g * 64) = true) (hlen : bs.length = 64) :
    (∀ b ∈ (s.stkGranule g).1, b.2 = true) ∧ (s.stkGranule g).2 = s ∧ s.stkWrite (g * 64) bs = s := by
  rw [State.stkGranule_dead hdead]
  refine ⟨fun b hb => ?_, rfl, State.stkWrite_dead hdead hlen⟩
  obtain ⟨i, -, rfl⟩ := List.mem_map.mp hb
  rfl

/-- Settles O30: the live list indexed by pages, whole half-granules written and checked, and a failed channel that does neither. -/
theorem stackAddressesAndGranules : Obligations.StackAddressesAndGranules := by
  unfold Obligations.StackAddressesAndGranules
  refine ⟨fun s st off hlive => ?_, fun s d bs => granules_read_back, fun s g bs => dead_granule_keeps⟩
  obtain ⟨hat, hbit⟩ := State.channelOf_live off hlive
  exact ⟨hat, hbit, State.chanOffset_live off hlive, s.liveList_pairwise st, fun off' => State.channelOf_page s st⟩

end Sys2Proof.Proofs
end

section
/-! SUPPORT. What the device may change when it tells of an error or of a completion: nothing of the stacks, the engines, their registers, the
ports' states and the TAP (R210, R213, R438, R465, R470). -/

namespace Sys2Proof.Machine

variable {s u v : State}

/-- A register of the stacks, of the bindery engines, or of a Miltum port's state. -/
def toldApart (a : Nat) : Prop := (0x020000100000 ≤ a ∧ a < 0x020000300000) ∨ (0x020000031000 ≤ a ∧ a < 0x020000031800)

/-- u is s but for what telling changes: memory, stacks, engines, ports' states and the TAP stay, the clock too, and reports are only added. -/
structure State.Told (s u : State) : Prop where
  tiles : u.tiles = s.tiles
  stk : u.stk = s.stk
  stkMark : u.stkMark = s.stkMark
  stx : u.stx = s.stx
  engines : u.engines = s.engines
  clk : u.clk = s.clk
  tap : u.tap = s.tap
  reports : s.reports <+: u.reports
  regs : ∀ a, toldApart a → u.reg a = s.reg a

theorem State.Told.refl (s : State) : State.Told s s := ⟨rfl, rfl, rfl, rfl, rfl, rfl, rfl, List.prefix_refl _, fun _ _ => rfl⟩

theorem State.Told.trans (h : State.Told s u) (k : State.Told u v) : State.Told s v where
  tiles := k.tiles.trans h.tiles
  stk := k.stk.trans h.stk
  stkMark := k.stkMark.trans h.stkMark
  stx := k.stx.trans h.stx
  engines := k.engines.trans h.engines
  clk := k.clk.trans h.clk
  tap := k.tap.trans h.tap
  reports := h.reports.trans k.reports
  regs a ha := (k.regs a ha).trans (h.regs a ha)

theorem State.Told.sameMem (h : State.Told s u) : s.sameMem u := State.sameMem_of_stores h.tiles h.stk h.stkMark

theorem State.Told.fld (h : State.Told s u) {f : Fld} (hf : toldApart f.addr) : u.fld f = s.fld f := State.fld_of_reg (h.regs _ hf)

theorem State.Told.flag (h : State.Told s u) {f : Fld} (hf : toldApart f.addr) : u.flag f = s.flag f := State.flag_of_reg (h.regs _ hf)

theorem State.Told.mem (h : State.Told s u) {r : Report} (hr : r ∈ s.reports) : r ∈ u.reports := h.reports.subset hr

theorem State.OnlySet.told {l : List Nat} (h : State.OnlySet l s u) (hl : ∀ a ∈ l, ¬ toldApart a) : State.Told s u := by
  obtain ⟨⟨rs, rfl⟩, hregs⟩ := h
  exact ⟨rfl, rfl, rfl, rfl, rfl, rfl, rfl, List.prefix_refl _, fun a ha => hregs a fun hin => hl a hin ha⟩

theorem State.told_setFld (s : State) {f : Fld} (h : ¬ toldApart f.addr) (n : Nat) : State.Told s (s.setFld f n) :=
  ((State.OnlySet.refl [f.addr] s).setFld List.mem_cons_self n).told (by simpa using h)

theorem State.told_report (s : State) (half typ sev src addr detail : Nat) : State.Told s (s.report half typ sev src addr detail) :=
  ⟨rfl, rfl, rfl, rfl, rfl, rfl, rfl, List.prefix_append _ _, fun _ _ => rfl⟩

theorem State.told_emit (s : State) (o : Out) : State.Told s (s.emit o) := ⟨rfl, rfl, rfl, rfl, rfl, rfl, rfl, List.prefix_refl _, fun _ _ => rfl⟩

theorem State.told_modCtx (s : State) (c : Nat) (f : Ctx → Ctx) : State.Told s (s.modCtx c f) :=
  ⟨rfl, rfl, rfl, rfl, rfl, rfl, rfl, List.prefix_refl _, fun _ _ => rfl⟩

theorem State.told_msix (s : State) (fn vec : Nat) : State.Told s (s.msix fn vec) := by
  unfold State.msix
  dsimp only
  split
  · split
    · exact s.told_modCtx fn _
    · exact (s.told_emit _).trans (State.told_modCtx _ fn _)
  · exact s.told_emit _

/-- An event is written, or counted as lost. -/
theorem State.told_event (s : State) (c typ src aux data : Nat) : State.Told s (s.event c typ src aux data) := by
  have hlost : State.Told s (s.bump (HEVLOST_LOST c) 1) := by
    refine s.told_setFld (f := HEVLOST_LOST c) ?_ _
    simp only [toldApart, HEVLOST_LOST, aHEVLOST]
    omega
  unfold State.event
  dsimp only
  split
  · exact State.Told.refl s
  · split
    · split
      · exact hlost
      · exact (hlost.trans (State.told_modCtx _ c _)).trans (State.told_report _ _ _ _ _ _ _)
    · exact ((s.told_emit _).trans (State.told_modCtx _ c _)).trans (State.told_msix _ c 1)

theorem State.OnlySent.told (h : State.OnlySent s u) (hrep : s.reports <+: u.reports) : State.Told s u := by
  obtain ⟨_, _, _, _, rfl⟩ := h
  exact ⟨rfl, rfl, rfl, rfl, rfl, rfl, rfl, hrep, fun _ _ => rfl⟩

theorem State.told_txPacket (s : State) (port : Nat) (p : Pkt) : State.Told s (s.txPacket port p) := by
  obtain ⟨hsent, -, hreports⟩ := s.txPacket_spec port p
  exact hsent.told (hreports ▸ List.prefix_refl _)

theorem State.told_sendPkt (s : State) (p : Pkt) : State.Told s (s.sendPkt p) := by
  unfold State.sendPkt State.routeOut State.noRoute
  dsimp only
  split
  · exact ⟨rfl, rfl, rfl, rfl, rfl, rfl, rfl, List.prefix_refl _, fun _ _ => rfl⟩
  · split
    · split
      · exact s.told_txPacket _ _
      · exact (s.told_emit _).trans (State.told_report _ _ _ _ _ _ _)
    · exact (s.told_emit _).trans (State.told_report _ _ _ _ _ _ _)

/-- A token or a mailbox word of a tile is added to, or a packet does it elsewhere. -/
theorem State.told_deliverAdd (s : State) (a n : Nat) : State.Told s (s.deliverAdd a n) := by
  have htok : ∀ k i, k < 2048 → i < 32 → ∀ b ∈ [aTSQSTAT k, aTTOK k i], ¬ toldApart b := by
    intro k i hk hi b hb
    simp only [List.mem_cons, List.not_mem_nil, or_false] at hb
    obtain rfl | rfl := hb <;> simp only [toldApart, aTSQSTAT, aTTOK] <;> omega
  have hbox : ∀ k i, k < 2048 → i < 16 → ∀ b ∈ [aTMBX k i], ¬ toldApart b := by
    intro k i hk hi b hb
    rw [List.mem_singleton.mp hb]
    simp only [toldApart, aTMBX]
    omega
  unfold State.deliverAdd
  split
  · split
    · exact s.told_report _ _ _ _ _ _
    · split
      · next h => exact (s.onlySet_tokAdd _ _ n).told (htok _ _ (tokenAt_spec h).1 (tokenAt_spec h).2)
      · next h => exact (s.mboxOp_spec _ _ 2 _ 0).2.told (hbox _ _ (mboxAt_spec h).1 (mboxAt_spec h).2)
      · exact State.Told.refl s
  · exact s.told_sendPkt _

theorem State.told_deliverCtx (s : State) (c a n : Nat) : State.Told s (s.deliverCtx c a n) := by
  unfold State.deliverCtx
  dsimp only
  split
  · exact s.told_modCtx c _
  · exact s.told_deliverAdd a n

theorem State.told_failWarn (s : State) (bit : Nat) : State.Told s (s.failWarn bit) := by
  have hhint : ¬ toldApart aGCKHINT := by simp only [toldApart, aGCKHINT]; omega
  have hset : State.Told s (s.orFld ⟨aGCKHINT, 0, 4⟩ (2 ^ bit)) := s.told_setFld hhint _
  have hhold : ∀ v : State, State.Told v { v.bump GCKHINT_COUNT 1 with hintHold := true } := fun v =>
    (v.told_setFld (f := GCKHINT_COUNT) hhint _).trans ⟨rfl, rfl, rfl, rfl, rfl, rfl, rfl, List.prefix_refl _, fun _ _ => rfl⟩
  have hevents : ∀ (v : State) (l : List Nat) (aux : Nat), State.Told v ((v.each l fun s c => s.event c 3 0 aux 0).emit (.msix 0 3)) := fun v l aux =>
    (foldl_rel (R := State.Told) State.Told.refl State.Told.trans (fun s c _ => s.told_event c 3 0 aux 0) v).trans (State.told_emit _ _)
  unfold State.failWarn
  dsimp only
  split
  · exact hset
  · split
    · exact ((hset.trans (hhold _)).trans (hevents _ _ _)).trans (State.told_deliverAdd _ _ 1)
    · exact (hset.trans (hhold _)).trans (hevents _ _ _)

theorem State.told_leakDue (s : State) (k : Nat) : State.Told s (s.leakDue k) := by
  obtain ⟨⟨rs, lk, hu⟩, hregs⟩ := s.onlyTime_leakDue k
  refine ⟨by rw [hu], by rw [hu], by rw [hu], by rw [hu], by rw [hu], by rw [hu], by rw [hu], by rw [hu], fun a ha => hregs a fun hin => ?_⟩
  obtain ⟨n, hn, rfl⟩ := List.mem_map.mp hin
  have hn := List.mem_range.mp hn
  simp only [toldApart, aGECCBKT] at ha
  omega

/-- One correctable error is counted; k may lie beyond the buckets there are. -/
theorem State.told_bucket (s : State) {k : Nat} (hk : k < 1024) : State.Told s (s.bucket k) := by
  have hbkt : ¬ toldApart (aGECCBKT k) := by simp only [toldApart, aGECCBKT]; omega
  have hfull : ∀ v : State, State.Told v (((v.setFld (GECCBKT_LEVEL k) 0).bump (GECCBKT_OVFCNT k) 1).setFld (GECCBKT_OVF k) 1) := fun v =>
    ((v.told_setFld (f := GECCBKT_LEVEL k) hbkt _).trans (State.told_setFld _ (f := GECCBKT_OVFCNT k) hbkt _)).trans
      (State.told_setFld _ (f := GECCBKT_OVF k) hbkt _)
  unfold State.bucket
  dsimp only
  generalize (if k < 2 then 0 else 1) = c
  generalize (if k < 2 then k else halfOfStack (k - 2)) = half
  generalize (if (s.leakDue c).fld (GECCCFG_INC c) = 0 then 16 else (s.leakDue c).fld (GECCCFG_INC c)) = inc
  split
  · refine (((s.told_leakDue c).trans (hfull _)).trans ?_).trans (State.told_failWarn _ 0)
    exact State.told_report _ _ _ _ _ _ _
  · exact (s.told_leakDue c).trans (State.told_setFld _ (f := GECCBKT_LEVEL k) hbkt _)

theorem State.told_binderyIrq (s : State) (st e c : Nat) : State.Told s (s.binderyIrq st e c) := by
  unfold State.binderyIrq
  extract_lets own pf
  split
  · exact s.told_msix 0 4
  · exact s.told_msix c 2

end Sys2Proof.Machine
end

section
/-! SUPPORT. Stacks: an initialisation and what it maps out, a channel that is lost, and the test state; O29 (R228 to R231). -/

namespace Sys2Proof.Machine

variable {s u : State}

/-! ## Initialisation ends (R228, R229) -/

/-- The report of a channel that is mapped out, with its causes. -/
def State.mapOutReport (s : State) (st tst img fus c : Nat) : Report :=
  ⟨halfOfStack st, 0x22, 1, srcOf 1 st, 0,
    c + (if bitOf tst c then 256 else 0) + (if bitOf img c then 512 else 0) + (if bitOf fus c then 1024 else 0), s.now⟩

theorem State.mapOutReport_detail (s : State) (st tst img fus : Nat) {c : Nat} (hc : c < 32) :
    (s.mapOutReport st tst img fus c).detail % 256 = c := by
  simp only [State.mapOutReport]
  split <;> split <;> split <;> omega

theorem State.mapOutReports_eq (s : State) (st tst img fus : Nat) :
    s.mapOutReports st tst img fus
      = { s with reports := s.reports ++ ((List.range 32).filter fun c => bitOf (tst ||| img ||| fus) c).map (s.mapOutReport st tst img fus) } := by
  unfold State.mapOutReports
  generalize List.range 32 = l
  induction l generalizing s with
  | nil => exact congrArg (fun r => { s with reports := r }) (List.append_nil _).symm
  | cons c l ih =>
    rw [State.each_cons]
    split
    next h =>
      rw [ih, List.filter_cons_of_pos h, List.map_cons, List.append_cons]
      rfl
    next h => rw [ih, List.filter_cons_of_neg h]

/-- A byte lies outside stack st. -/
def outOfStack (st d : Nat) : Bool := decide (d < stackBase st) || decide (stackBase (st + 1) ≤ d)

/-- The bytes of stack st, their marks and its stage words are cleared. -/
def State.stackCleared (s : State) (st : Nat) : State :=
  { s with
    stk := SMap.keep (outOfStack st) s.stk
    stkMark := SMap.keep (fun k => outOfStack st (k * 32)) s.stkMark
    regs := SMap.keep (fun a => decide (a < aSSTAGE st 0) || decide (aSSTAGE st 4096 ≤ a)) s.regs }

/-- The stack's registers show its channels, those in gone left out. -/
def State.stackShown (s : State) (st gone : Nat) : State :=
  let live := 32 - popcount 32 gone
  let s := (s.setFld (SCHMAP_LIVEMAP st) (2 ^ 32 - 1 - gone)).setFld (SFAIL_FAILMAP st) 0
  ((s.setFld (SSTAT_LIVE st) live).setFld (SSTAT_TOPGB st) (2 * live)).setFld (SSTAT_INITD st) 1

/-- The stack serves; one without a channel is reported. -/
def State.stackServes (s : State) (st gone : Nat) : State :=
  let s := s.modStack st fun x => { x with initing := false }
  if 32 - popcount 32 gone = 0 then s.report (halfOfStack st) 0x23 3 (srcOf 1 st) 0 st else s

theorem exec_stackInitDone {st : Nat} (failed : BitVec 32) (hst : st < 8) (hinit : (s.stackU st).initing = true) (hboot : s.boot ≠ .hold) :
    let img := SMap.get (fun _ => 0) s.img.mapouts st
    let fus := (s.stackU st).mapFuse
    let gone := (failed.toNat ||| img ||| fus) % 2 ^ 32
    exec (.stackInitDone st failed) s = .next ((((s.mapOutReports st failed.toNat img fus).stackCleared st).stackShown st gone).stackServes st gone) :=
  congrArg Host.Outcome.next (if_pos ⟨hst, hinit, hboot⟩)

theorem State.stkByte_stackCleared (s : State) (st d : Nat) : (s.stackCleared st).stkByte d = if outOfStack st d then s.stkByte d else 0 := by
  simp only [State.stkByte, State.stackCleared, SMap.get_keep]
  split <;> rfl

theorem State.markOf_stackCleared (s : State) (st d : Nat) : (s.stackCleared st).markOf d = if outOfStack st d then s.markOf d else 0 := by
  have hhalf : outOfStack st (d / 32 * 32) = outOfStack st d := by
    simp only [outOfStack, stackBase]
    exact congrArg₂ (· || ·) (decide_eq_decide.mpr (by omega)) (decide_eq_decide.mpr (by omega))
  simp only [State.markOf, State.stackCleared, SMap.get_keep, hhalf]

/-- What the stack's registers show. -/
theorem State.stackShown_spec (s : State) (st gone : Nat) :
    (s.stackShown st gone).fld (SCHMAP_LIVEMAP st) = (2 ^ 32 - 1 - gone) % 2 ^ 32 ∧ (s.stackShown st gone).fld (SFAIL_FAILMAP st) = 0
      ∧ (s.stackShown st gone).fld (SSTAT_LIVE st) = 32 - popcount 32 gone ∧ (s.stackShown st gone).fld (SSTAT_TOPGB st) = 2 * (32 - popcount 32 gone)
      ∧ (s.stackShown st gone).flag (SSTAT_INITD st) = true := by
  have hinitMap : (SSTAT_INITD st).apart (SCHMAP_LIVEMAP st) = true := by simp [Fld.apart, SSTAT_INITD, SCHMAP_LIVEMAP, aSSTAT, aSCHMAP]
  have htopMap : (SSTAT_TOPGB st).apart (SCHMAP_LIVEMAP st) = true := by simp [Fld.apart, SSTAT_TOPGB, SCHMAP_LIVEMAP, aSSTAT, aSCHMAP]
  have hliveMap : (SSTAT_LIVE st).apart (SCHMAP_LIVEMAP st) = true := by simp [Fld.apart, SSTAT_LIVE, SCHMAP_LIVEMAP, aSSTAT, aSCHMAP]
  have hfailMap : (SFAIL_FAILMAP st).apart (SCHMAP_LIVEMAP st) = true := by simp [Fld.apart, SFAIL_FAILMAP, SCHMAP_LIVEMAP, aSFAIL, aSCHMAP]
  have hinitFail : (SSTAT_INITD st).apart (SFAIL_FAILMAP st) = true := by simp [Fld.apart, SSTAT_INITD, SFAIL_FAILMAP, aSSTAT, aSFAIL]
  have htopFail : (SSTAT_TOPGB st).apart (SFAIL_FAILMAP st) = true := by simp [Fld.apart, SSTAT_TOPGB, SFAIL_FAILMAP, aSSTAT, aSFAIL]
  have hliveFail : (SSTAT_LIVE st).apart (SFAIL_FAILMAP st) = true := by simp [Fld.apart, SSTAT_LIVE, SFAIL_FAILMAP, aSSTAT, aSFAIL]
  have hinitLive : (SSTAT_INITD st).apart (SSTAT_LIVE st) = true := by simp [Fld.apart, SSTAT_INITD, SSTAT_LIVE]
  have htopLive : (SSTAT_TOPGB st).apart (SSTAT_LIVE st) = true := by simp [Fld.apart, SSTAT_TOPGB, SSTAT_LIVE]
  have hinitTop : (SSTAT_INITD st).apart (SSTAT_TOPGB st) = true := by simp [Fld.apart, SSTAT_INITD, SSTAT_TOPGB]
  unfold State.stackShown
  refine ⟨?_, ?_, ?_, ?_, ?_⟩
  · rw [State.fld_setFld_apart _ _ hinitMap, State.fld_setFld_apart _ _ htopMap, State.fld_setFld_apart _ _ hliveMap,
      State.fld_setFld_apart _ _ hfailMap, State.fld_setFld_same _ _ _ (by decide : 0 + 32 ≤ 64)]
    rfl
  · rw [State.fld_setFld_apart _ _ hinitFail, State.fld_setFld_apart _ _ htopFail, State.fld_setFld_apart _ _ hliveFail,
      State.fld_setFld_same _ _ _ (by decide : 0 + 32 ≤ 64), Nat.zero_mod]
  · rw [State.fld_setFld_apart _ _ hinitLive, State.fld_setFld_apart _ _ htopLive, State.fld_setFld_same _ _ _ (by decide : 0 + 6 ≤ 64)]
    exact Nat.mod_eq_of_lt (show 32 - popcount 32 gone < 64 by omega)
  · rw [State.fld_setFld_apart _ _ hinitTop, State.fld_setFld_same _ _ _ (by decide : 16 + 7 ≤ 64)]
    exact Nat.mod_eq_of_lt (show 2 * (32 - popcount 32 gone) < 128 by omega)
  · rw [State.flag_setFld_same _ _ _ (by decide : 6 + 1 ≤ 64)]
    rfl

/-- Of registers, memory and reports only the report of a stack without a channel is new; the initialisation is over. -/
theorem State.stackServes_spec (s : State) (st gone : Nat) :
    (s.stackServes st gone).regs = s.regs ∧ (s.stackServes st gone).stk = s.stk ∧ (s.stackServes st gone).stkMark = s.stkMark
      ∧ s.reports <+: (s.stackServes st gone).reports ∧ ((s.stackServes st gone).stackU st).initing = false := by
  have hover : ((s.modStack st fun x => { x with initing := false }).stackU st).initing = false :=
    congrArg Stack.initing (s.stackU_modStack_same st fun x => { x with initing := false })
  unfold State.stackServes
  dsimp only
  split
  · exact ⟨rfl, rfl, rfl, List.prefix_append _ _, hover⟩
  · exact ⟨rfl, rfl, rfl, List.prefix_refl _, hover⟩

theorem bitOf_complement {gone c : Nat} (hgone : gone < 2 ^ 32) (hc : c < 32) : bitOf ((2 ^ 32 - 1 - gone) % 2 ^ 32) c = !bitOf gone c := by
  rw [bitOf_eq_testBit, bitOf_eq_testBit, Nat.mod_eq_of_lt (by omega), show 2 ^ 32 - 1 - gone = 2 ^ 32 - (gone + 1) by omega,
    Nat.testBit_two_pow_sub_succ hgone, decide_eq_true hc, Bool.true_and]

theorem bitOf_mod_two_pow {x c n : Nat} (hc : c < n) : bitOf (x % 2 ^ n) c = bitOf x c := by
  rw [bitOf_eq_testBit, bitOf_eq_testBit, Nat.testBit_mod_two_pow, decide_eq_true hc, Bool.true_and]

/-! ## A channel fails (R230) -/

/-- The time stays while another register is written. -/
theorem State.now_setFld (s : State) {f : Fld} (h : f.addr ≠ aTBTIME) (v : Nat) : (s.setFld f v).now = s.now :=
  State.fld_of_reg (s.reg_setFld_other f v aTBTIME h.symm)

theorem State.now_modStack (s : State) (st : Nat) (f : Stack → Stack) : (s.modStack st f).now = s.now := State.fld_congr (State.modStack_regs _ _ _) _

theorem State.sameMem_modStack (s : State) (st : Nat) (f : Stack → Stack) : s.sameMem (s.modStack st f) :=
  State.sameMem_of_stores (State.modStack_tiles _ _ _) (State.modStack_stk _ _ _) (State.modStack_stkMark _ _ _)

/-- A channel that had not failed is marked and reported; memory stays. -/
theorem State.failChannel_spec (s : State) {st ch : Nat} (hst : st < 32) (hch : ch < 32) (cause : Nat) (hlive : bitOf (s.fld (SFAIL_FAILMAP st)) ch = false) :
    (s.failChannel st ch cause).fld (SFAIL_FAILMAP st) = s.fld (SFAIL_FAILMAP st) ||| 2 ^ ch
      ∧ ⟨halfOfStack st, 0x21, 2, srcOf 1 st, 0, ch + cause * 256, s.now⟩ ∈ (s.failChannel st ch cause).reports
      ∧ s.sameMem (s.failChannel st ch cause) := by
  have hfail : s.failChannel st ch cause
      = ((s.orFld (SFAIL_FAILMAP st) (2 ^ ch)).report (halfOfStack st) 0x21 2 (srcOf 1 st) 0 (ch + cause * 256)).failWarn 2 := by
    rw [State.failChannel, hlive, if_neg Bool.false_ne_true]
  have htold := State.told_failWarn ((s.orFld (SFAIL_FAILMAP st) (2 ^ ch)).report (halfOfStack st) 0x21 2 (srcOf 1 st) 0 (ch + cause * 256)) 2
  have hapart : toldApart (SFAIL_FAILMAP st).addr := by simp only [toldApart, SFAIL_FAILMAP, aSFAIL]; omega
  have hset : (s.orFld (SFAIL_FAILMAP st) (2 ^ ch)).fld (SFAIL_FAILMAP st) = s.fld (SFAIL_FAILMAP st) ||| 2 ^ ch := by
    rw [State.orFld, State.fld_setFld_same _ _ _ (by decide : 0 + 32 ≤ 64)]
    exact Nat.mod_eq_of_lt (Nat.or_lt_two_pow (s.fld_lt _) (Nat.pow_lt_pow_right (by decide) hch))
  rw [← hfail] at htold
  refine ⟨(htold.fld hapart).trans hset, htold.mem ?_, ?_⟩
  · have hnow : (s.orFld (SFAIL_FAILMAP st) (2 ^ ch)).now = s.now := s.now_setFld (by simp only [SFAIL_FAILMAP, aSFAIL, aTBTIME]; omega) _
    rw [State.report_reports, hnow]
    exact List.mem_append_right _ List.mem_cons_self
  · have hset : s.sameMem (s.orFld (SFAIL_FAILMAP st) (2 ^ ch)) := ((State.OnlySet.refl _ s).setFld (f := SFAIL_FAILMAP st) List.mem_cons_self _).sameMem (l := [aSFAIL st])
    exact (hset.trans (State.told_report _ _ _ _ _ _ _).sameMem).trans htold.sameMem

/-! ## Test state (R231) -/

/-- Determinism is forced while a stack is in test state. -/
theorem State.syncDetm_test {st : Nat} (hst : st < 8) (h : s.flag (SSTAT_TEST st) = true) : s.syncDetm.flag GCTL_DETMF = true := by
  have hany : ((List.range 8).any fun k => s.flag (SSTAT_TEST k)) = true := List.any_eq_true.mpr ⟨st, List.mem_range.mpr hst, h⟩
  rw [State.syncDetm, State.flag_setFld_same _ _ _ (by decide), hany, Bool.or_true, Bool.true_or]
  rfl

theorem State.stackU_congr (h : u.stx = s.stx) (st : Nat) : u.stackU st = s.stackU st := congrArg (SMap.get (fun _ => Stack.reset) · st) h

theorem State.stx_syncDetm (s : State) : s.syncDetm.stx = s.stx := State.setFld_stx _ _ _

theorem State.sameMem_syncDetm (s : State) : s.sameMem s.syncDetm :=
  State.sameMem_of_stores (State.setFld_tiles _ _ _) (State.setFld_stk _ _ _) (State.setFld_stkMark _ _ _)

theorem State.regs_stackInit (s : State) (st : Nat) : (s.stackInit st).regs = (s.setFld (SSTAT_INITD st) 0).regs :=
  State.modStack_regs _ _ _

theorem State.sameMem_stackInit (s : State) (st : Nat) : s.sameMem (s.stackInit st) := by
  refine State.sameMem_of_stores ?_ ?_ ?_ <;> simp [State.stackInit]

/-- Stack st shows test state on or off in its two registers. -/
def State.testShown (s : State) (st n : Nat) : State := (s.setFld (SCTL_TEST st) n).setFld (SSTAT_TEST st) n

theorem State.testShown_spec (s : State) (st : Nat) {n : Nat} (hn : n < 2) :
    (s.testShown st n).flag (SSTAT_TEST st) = (n != 0) ∧ (s.testShown st n).flag (SCTL_TEST st) = (n != 0)
      ∧ State.OnlySet [aSCTL st, aSSTAT st] s (s.testShown st n) := by
  have happart : (SSTAT_TEST st).apart (SCTL_TEST st) = true := by simp [Fld.apart, SSTAT_TEST, SCTL_TEST, aSSTAT, aSCTL]
  have hmod : n % 2 ^ 1 = n := Nat.mod_eq_of_lt hn
  refine ⟨?_, ?_, ?_⟩
  · rw [State.testShown, State.flag_setFld_same _ _ _ (by decide : 7 + 1 ≤ 64)]
    exact congrArg (· != 0) hmod
  · rw [State.testShown, State.flag_setFld_apart _ _ happart, State.flag_setFld_same _ _ _ (by decide : 0 + 1 ≤ 64)]
    exact congrArg (· != 0) hmod
  · exact ((State.OnlySet.refl _ s).setFld (f := SCTL_TEST st) List.mem_cons_self n).setFld (f := SSTAT_TEST st) (List.mem_cons_of_mem _ List.mem_cons_self) n

/-- The stack is in test state: its request is done, and it is reported. -/
def State.testEntered (s : State) (st : Nat) : State :=
  ((s.testShown st 1).modStack st fun x => { x with testReq := false }).report (halfOfStack st) 0x27 0 (srcOf 1 st) 0 st

theorem State.regs_testEntered (s : State) (st : Nat) : (s.testEntered st).regs = (s.testShown st 1).regs := by
  rw [State.testEntered, State.report_regs, State.modStack_regs]

theorem State.reports_testEntered (s : State) (st : Nat) : (s.testEntered st).reports
    = s.reports ++ [⟨halfOfStack st, 0x27, 0, srcOf 1 st, 0, st, (s.testShown st 1).now⟩] := by
  rw [State.testEntered, State.report_reports, State.modStack_reports, State.testShown, State.setFld_reports, State.setFld_reports, State.now_modStack]

theorem State.sameMem_testEntered (s : State) (st : Nat) : (s.testShown st 1).sameMem (s.testEntered st) := by
  refine State.sameMem_of_stores ?_ ?_ ?_ <;> simp [State.testEntered]

theorem exec_testStateEntry {st : Nat} (hst : st < 8) (hreq : (s.stackU st).testReq = true) (hinit : s.flag (SSTAT_INITD st) = true)
    (hidle : s.enginesIdle st = true) (hbusy : s.stackBusy st = false) : exec (.testStateEntry st) s = .next (s.testEntered st).syncDetm :=
  congrArg Host.Outcome.next (if_pos ⟨hst, hreq, hinit, hidle, by rw [hbusy]; rfl⟩)

theorem exec_sctlTestExit {st : Nat} (hst : st < 8) (htest : s.flag (SSTAT_TEST st) = true) :
    exec (.sctlTestExit st) s = .next ((s.testShown st 0).stackInit st).syncDetm :=
  congrArg Host.Outcome.next ((if_pos hst).trans (if_pos htest))

/-- A stack's test and initialisation flags are not in GCTL. -/
theorem aGCTL_not_stack (st : Nat) : aSSTAT st ∉ [aGCTL] ∧ aSCTL st ∉ [aGCTL] := by
  simp only [List.mem_singleton, aSSTAT, aSCTL, aGCTL]
  omega

end Sys2Proof.Machine

namespace Sys2Proof.Proofs
open Sys2Proof Sys2Proof.Machine

/-- The end of an initialisation. -/
theorem stack_init_done (s : State) (st : Nat) (failed : BitVec 32) (hst : st < 8) (hinit : (s.stackU st).initing = true) (hboot : s.boot ≠ .hold) :
    let gone := (failed.toNat ||| SMap.get (fun _ => 0) s.img.mapouts st ||| (s.stackU st).mapFuse) % 2 ^ 32
    Gives (exec (.stackInitDone st failed) s) fun u =>
      (∀ c < 32, bitOf (u.fld (SCHMAP_LIVEMAP st)) c = !bitOf gone c) ∧ u.fld (SSTAT_LIVE st) = 32 - popcount 32 gone
        ∧ u.fld (SSTAT_TOPGB st) = 2 * (32 - popcount 32 gone) ∧ u.flag (SSTAT_INITD st) = true ∧ u.fld (SFAIL_FAILMAP st) = 0
        ∧ (u.stackU st).initing = false ∧ (∀ d, stackBase st ≤ d → d < stackBase (st + 1) → u.stkByte d = 0 ∧ u.markOf d = 0)
        ∧ (∀ d, d < stackBase st ∨ stackBase (st + 1) ≤ d → u.stkByte d = s.stkByte d ∧ u.markOf d = s.markOf d)
        ∧ (∀ c < 32, bitOf gone c = true → ∃ r ∈ u.reports, r.typ = 0x22 ∧ r.src = srcOf 1 st ∧ r.detail % 256 = c) := by
  intro gone
  refine ⟨_, exec_stackInitDone failed hst hinit hboot, ?_⟩
  rw [State.mapOutReports_eq]
  set v : State := { s with reports := _ } with hv
  obtain ⟨hregs, hstk, hmark, hreps, hover⟩ := ((v.stackCleared st).stackShown st gone).stackServes_spec st gone
  obtain ⟨hmap, hfail, hlive, htop, hdone⟩ := (v.stackCleared st).stackShown_spec st gone
  have hfld : ∀ f, (((v.stackCleared st).stackShown st gone).stackServes st gone).fld f = ((v.stackCleared st).stackShown st gone).fld f :=
    fun f => State.fld_congr hregs f
  have hbyte : ∀ d, (((v.stackCleared st).stackShown st gone).stackServes st gone).stkByte d = if outOfStack st d then s.stkByte d else 0 :=
    fun d => (congrArg (fun m => (SMap.get (fun _ => 0) m d : BitVec 8).toNat) hstk).trans (v.stkByte_stackCleared st d)
  have hmarks : ∀ d, (((v.stackCleared st).stackShown st gone).stackServes st gone).markOf d = if outOfStack st d then s.markOf d else 0 :=
    fun d => (congrArg (fun m => SMap.get (fun _ => 0) m (d / 32)) hmark).trans (v.markOf_stackCleared st d)
  refine ⟨fun c hc => ?_, (hfld _).trans hlive, (hfld _).trans htop, (State.flag_of_fld (hfld _)).trans hdone, (hfld _).trans hfail, hover,
    fun d hlo hhi => ?_, fun d hout => ?_, fun c hc hgone => ?_⟩
  · rw [hfld, hmap]
    exact bitOf_complement (Nat.mod_lt _ (by decide)) hc
  · have hin : outOfStack st d = false := by simp [outOfStack, hlo, hhi]
    rw [hbyte, hmarks, hin]
    exact ⟨rfl, rfl⟩
  · have hout : outOfStack st d = true := by simpa [outOfStack] using hout
    rw [hbyte, hmarks, hout]
    exact ⟨rfl, rfl⟩
  · refine ⟨_, hreps.subset (List.mem_append_right _ (List.mem_map_of_mem (List.mem_filter.mpr ⟨List.mem_range.mpr hc, ?_⟩))), rfl, rfl,
      State.mapOutReport_detail _ _ _ _ _ hc⟩
    rw [← bitOf_mod_two_pow hc]
    exact hgone

theorem test_state_entry (s : State) (st : Nat) (hst : st < 8) (hreq : (s.stackU st).testReq = true) (hinit : s.flag (SSTAT_INITD st) = true)
    (hidle : s.enginesIdle st = true) (hbusy : s.stackBusy st = false) :
    Gives (exec (.testStateEntry st) s) fun u =>
      u.flag (SSTAT_TEST st) = true ∧ u.flag (SCTL_TEST st) = true ∧ (u.stackU st).testReq = false ∧ u.detm = true
        ∧ u.reports = s.reports ++ [⟨halfOfStack st, 0x27, 0, srcOf 1 st, 0, st, s.now⟩] ∧ s.sameRegs u [aSCTL st, aSSTAT st, aGCTL] ∧ s.sameMem u := by
  obtain ⟨hstat, hctl, honly⟩ := s.testShown_spec st (n := 1) (by decide)
  obtain ⟨hnstat, hnctl⟩ := aGCTL_not_stack st
  have hstat' : (s.testEntered st).flag (SSTAT_TEST st) = true := (State.flag_congr (s.regs_testEntered st) _).trans hstat
  have hnow : (s.testShown st 1).now = s.now := honly.fld (f := TBTIME_TIME) (by simp [TBTIME_TIME, aTBTIME, aSCTL, aSSTAT]; omega)
  have hrep : (s.testEntered st).reports = s.reports ++ [⟨halfOfStack st, 0x27, 0, srcOf 1 st, 0, st, s.now⟩] := by
    rw [State.reports_testEntered, hnow]
  have hforced := State.syncDetm_test hst hstat'
  have hsync := (s.testEntered st).sameRegs_syncDetm
  refine ⟨_, exec_testStateEntry hst hreq hinit hidle hbusy, ?_, ?_, ?_, ?_, hrep, ?_, ?_⟩
  · rw [State.flag_of_sameRegs hsync hnstat, hstat']
  · exact (State.flag_of_sameRegs hsync hnctl).trans ((State.flag_congr (s.regs_testEntered st) _).trans hctl)
  · rw [State.stackU_congr (State.stx_syncDetm _), State.testEntered, State.stackU_congr (State.report_stx _ _ _ _ _ _ _), State.stackU_modStack_same]
  · rw [State.detm, hforced, Bool.or_true]
  · refine State.sameRegs_trans (u := s.testEntered st) ?_ (State.sameRegs_mono hsync (List.subset_append_right [aSCTL st, aSSTAT st] _))
    exact State.sameRegs_trans (State.sameRegs_mono honly.2 (List.subset_append_left _ [aGCTL])) (State.sameRegs_of_regs (s.regs_testEntered st) _)
  · exact (honly.sameMem.trans (s.sameMem_testEntered st)).trans (State.sameMem_syncDetm (s.testEntered st))

theorem test_state_exit (s : State) (st : Nat) (hst : st < 8) (htest : s.flag (SSTAT_TEST st) = true) :
    Gives (exec (.sctlTestExit st) s) fun u =>
      u.flag (SSTAT_TEST st) = false ∧ u.flag (SCTL_TEST st) = false ∧ u.flag (SSTAT_INITD st) = false ∧ (u.stackU st).initing = true
        ∧ s.sameRegs u [aSCTL st, aSSTAT st, aGCTL] ∧ s.sameMem u := by
  obtain ⟨hstat, hctl, honly⟩ := s.testShown_spec st (n := 0) (by decide)
  obtain ⟨hnstat, hnctl⟩ := aGCTL_not_stack st
  have hinitTest : (SSTAT_INITD st).apart (SSTAT_TEST st) = true := by simp [Fld.apart, SSTAT_INITD, SSTAT_TEST]
  have hinitCtl : (SSTAT_INITD st).apart (SCTL_TEST st) = true := by simp [Fld.apart, SSTAT_INITD, SCTL_TEST, aSSTAT, aSCTL]
  have hsync := ((s.testShown st 0).stackInit st).sameRegs_syncDetm
  have hbegun := (s.testShown st 0).regs_stackInit st
  have hmem : s.sameMem ((s.testShown st 0).stackInit st) := honly.sameMem.trans (State.sameMem_stackInit _ st)
  refine ⟨_, exec_sctlTestExit hst htest, ?_, ?_, ?_, ?_, ?_, hmem.trans (State.sameMem_syncDetm _)⟩
  · rw [State.flag_of_sameRegs hsync hnstat, State.flag_congr hbegun, State.flag_setFld_apart _ _ hinitTest, hstat]
    rfl
  · rw [State.flag_of_sameRegs hsync hnctl, State.flag_congr hbegun, State.flag_setFld_apart _ _ hinitCtl, hctl]
    rfl
  · rw [State.flag_of_sameRegs hsync hnstat, State.flag_congr hbegun, State.flag_setFld_same _ _ _ (by decide : 6 + 1 ≤ 64)]
    rfl
  · rw [State.stackU_congr (State.stx_syncDetm _), State.stackU_stackInit, if_pos rfl, Stack.begun]
  · obtain ⟨-, hregs⟩ := honly.setFld (f := SSTAT_INITD st) (List.mem_cons_of_mem _ List.mem_cons_self) 0
    exact State.sameRegs_trans (State.sameRegs_trans (State.sameRegs_mono hregs (List.subset_append_left _ [aGCTL]))
      (State.sameRegs_of_regs hbegun _)) (State.sameRegs_mono hsync (List.subset_append_right [aSCTL st, aSSTAT st] _))

/-- Settles O29: the end of an initialisation, the two steps of a channel that is lost, and the test state's request, entry and exit. -/
theorem stackInitialisationAndLoss : Obligations.StackInitialisationAndLoss := by
  unfold Obligations.StackInitialisationAndLoss
  refine ⟨fun s st failed hst hinit hboot => stack_init_done s st failed hst hinit hboot, fun s st ch hst hch hinit hlive => ?_,
    fun s st ch hst hch hlost hok => ?_, fun s st hst htest => ?_, fun s st hst hreq hinit hidle hbusy => test_state_entry s st hst hreq hinit hidle hbusy,
    fun s st hst htest => test_state_exit s st hst htest⟩
  · refine ⟨_, congrArg Host.Outcome.next (if_pos ⟨hst, hinit, hlive, hch⟩), ?_, State.sameRegs_of_regs (State.modStack_regs _ _ _) _, s.sameMem_modStack st _⟩
    rw [State.stackU_modStack_same]
    split
    next h => exact List.contains_iff_mem.mp h
    next => exact List.mem_append_right _ List.mem_cons_self
  · let v := s.modStack st fun x => { x with lost := x.lost.erase ch }
    have hmap : v.fld (SFAIL_FAILMAP st) = s.fld (SFAIL_FAILMAP st) := State.fld_congr (State.modStack_regs _ _ _) _
    obtain ⟨hset, hrep, hmem⟩ := State.failChannel_spec v (by omega : st < 32) hch 0 (hmap ▸ hok)
    rw [hmap] at hset
    rw [State.now_modStack, Nat.zero_mul, Nat.add_zero] at hrep
    have hexec : exec (.channelRetrainTimeout st ch) s = .next (v.failChannel st ch 0) :=
      congrArg Host.Outcome.next (if_pos ⟨hst, List.contains_iff_mem.mpr hlost⟩)
    exact ⟨_, hexec, hset, hrep, (s.sameMem_modStack st _).trans hmem⟩
  · refine ⟨_, congrArg Host.Outcome.next (if_pos hst), ?_⟩
    rw [State.testRequest, htest, if_neg Bool.false_ne_true]
    exact ⟨congrArg Stack.testReq (s.stackU_modStack_same st fun x => { x with testReq := true }), State.sameRegs_of_regs (State.modStack_regs _ _ _) _,
      s.sameMem_modStack st _⟩

end Sys2Proof.Proofs
end

section
/-! SUPPORT. Bindery engines: what an operation of an engine may change, a descriptor's stage and its end, semaphores, and that a descriptor is
judged alike whatever its queue pointer holds (R236 to R239, R544). -/

namespace Sys2Proof.Machine

variable {s u v : State}

/-! ## What an engine's operation may change -/

/-- u is s but for stack units, engines, and registers among a list. -/
def State.OnlyEng (l : List Nat) (s u : State) : Prop := (∃ rs sx en, u = { s with regs := rs, stx := sx, engines := en }) ∧ s.sameRegs u l

theorem State.OnlyEng.refl (l : List Nat) (s : State) : State.OnlyEng l s s := ⟨⟨s.regs, s.stx, s.engines, rfl⟩, s.sameRegs_refl l⟩

theorem State.OnlyEng.trans {l : List Nat} (h : State.OnlyEng l s u) (k : State.OnlyEng l u v) : State.OnlyEng l s v := by
  obtain ⟨⟨_, _, _, rfl⟩, hregs⟩ := h
  obtain ⟨⟨rs, sx, en, rfl⟩, hregs'⟩ := k
  exact ⟨⟨rs, sx, en, rfl⟩, State.sameRegs_trans hregs hregs'⟩

theorem State.OnlyEng.mono {l l' : List Nat} (h : State.OnlyEng l s u) (hsub : l ⊆ l') : State.OnlyEng l' s u := ⟨h.1, State.sameRegs_mono h.2 hsub⟩

theorem State.OnlyEng.sameMem {l : List Nat} (h : State.OnlyEng l s u) : s.sameMem u := by
  obtain ⟨⟨_, _, _, rfl⟩, -⟩ := h
  exact State.sameMem_of_stores rfl rfl rfl

theorem State.OnlyEng.fld {l : List Nat} (h : State.OnlyEng l s u) {f : Fld} (hf : f.addr ∉ l) : u.fld f = s.fld f := State.fld_of_sameRegs h.2 hf

theorem State.OnlyEng.flag {l : List Nat} (h : State.OnlyEng l s u) {f : Fld} (hf : f.addr ∉ l) : u.flag f = s.flag f := State.flag_of_sameRegs h.2 hf

theorem State.OnlyEng.reports {l : List Nat} (h : State.OnlyEng l s u) : u.reports = s.reports := by
  obtain ⟨⟨_, _, _, rfl⟩, -⟩ := h
  rfl

theorem State.OnlySet.onlyEng {l : List Nat} (h : State.OnlySet l s u) : State.OnlyEng l s u := by
  obtain ⟨⟨rs, rfl⟩, hregs⟩ := h
  exact ⟨⟨rs, s.stx, s.engines, rfl⟩, hregs⟩

theorem State.onlyEng_setFld (s : State) (f : Fld) (n : Nat) : State.OnlyEng [f.addr] s (s.setFld f n) :=
  ((State.OnlySet.refl _ s).setFld List.mem_cons_self n).onlyEng

theorem State.onlyEng_modStack (s : State) (st : Nat) (f : Stack → Stack) (l : List Nat) : State.OnlyEng l s (s.modStack st f) :=
  ⟨⟨s.regs, _, s.engines, rfl⟩, State.sameRegs_of_regs (State.modStack_regs _ _ _) _⟩

theorem State.onlyEng_modEngine (s : State) (st e : Nat) (f : Engine → Engine) (l : List Nat) : State.OnlyEng l s (s.modEngine st e f) :=
  ⟨⟨s.regs, s.stx, _, rfl⟩, State.sameRegs_of_regs (State.modEngine_regs _ _ _ _) _⟩

/-- Engines and stack units are read through one field each. -/
theorem State.engine_congr (h : u.engines = s.engines) (st e : Nat) : u.engine st e = s.engine st e :=
  congrArg (SMap.get (fun _ => Engine.reset) · (st * 8 + e)) h

/-! ## An engine's stage (R240) -/

/-- BESTAT shows the stage; only BESTAT is written. -/
theorem State.engShow_spec (s : State) (st e : Nat) :
    State.OnlySet [aBESTAT st e] s (s.engShow st e) ∧ (s.engShow st e).flag (BESTAT_BUSY st e) = ((s.engine st e).stage != .idle)
      ∧ (s.engShow st e).flag (BESTAT_WAITSEM st e) = ((s.engine st e).stage == .waitSem) := by
  have happart : (BESTAT_WAITSEM st e).apart (BESTAT_BUSY st e) = true := by simp [Fld.apart, BESTAT_WAITSEM, BESTAT_BUSY]
  unfold State.engShow
  refine ⟨((State.OnlySet.refl _ s).setFld (f := BESTAT_BUSY st e) List.mem_cons_self _).setFld (f := BESTAT_WAITSEM st e) List.mem_cons_self _, ?_, ?_⟩
  · rw [State.flag_setFld_apart _ _ happart, State.flag_setFld_same _ _ _ (by decide : 0 + 1 ≤ 64), show ((s.engine st e).stage != .idle) = !((s.engine st e).stage == .idle) from rfl]
    cases (s.engine st e).stage == .idle <;> rfl
  · rw [State.flag_setFld_same _ _ _ (by decide : 1 + 1 ≤ 64)]
    cases (s.engine st e).stage == .waitSem <;> rfl

theorem State.OnlySet.engines {l : List Nat} (h : State.OnlySet l s u) : u.engines = s.engines := by
  obtain ⟨⟨_, rfl⟩, -⟩ := h
  rfl

theorem State.OnlySet.stx {l : List Nat} (h : State.OnlySet l s u) : u.stx = s.stx := by
  obtain ⟨⟨_, rfl⟩, -⟩ := h
  rfl

/-- An engine is changed and shows its stage. -/
def State.engTurn (s : State) (st e : Nat) (f : Engine → Engine) : State := (s.modEngine st e f).engShow st e

theorem State.engTurn_spec (s : State) (st e : Nat) (f : Engine → Engine) :
    State.OnlyEng [aBESTAT st e] s (s.engTurn st e f) ∧ (s.engTurn st e f).engine st e = f (s.engine st e) ∧ (s.engTurn st e f).stx = s.stx
      ∧ (s.engTurn st e f).flag (BESTAT_BUSY st e) = ((f (s.engine st e)).stage != .idle)
      ∧ (s.engTurn st e f).flag (BESTAT_WAITSEM st e) = ((f (s.engine st e)).stage == .waitSem) := by
  obtain ⟨honly, hbusy, hwait⟩ := (s.modEngine st e f).engShow_spec st e
  rw [State.engine_modEngine_same] at hbusy hwait
  unfold State.engTurn
  refine ⟨(s.onlyEng_modEngine st e f _).trans honly.onlyEng, ?_, ?_, hbusy, hwait⟩
  · exact (State.engine_congr honly.engines st e).trans (State.engine_modEngine_same _ _ _ _)
  · exact honly.stx.trans (State.modEngine_stx _ _ _ _)

theorem State.engEnd_eq (s : State) (st e status detail : Nat) : s.engEnd st e status detail
    = (s.modStack st fun x => { x with semq := x.semq.filter fun k => k != e }).engTurn st e
        fun x => { x with stage := .ended status detail, tend := (s.modStack st fun x => { x with semq := x.semq.filter fun k => k != e }).now } := rfl

/-- A descriptor that ends: it keeps its bytes, waits for no semaphore, and nothing but BESTAT changes. -/
theorem State.engEnd_spec (s : State) (st e status detail : Nat) :
    State.OnlyEng [aBESTAT st e] s (s.engEnd st e status detail) ∧ ((s.engEnd st e status detail).engine st e).stage = .ended status detail
      ∧ ((s.engEnd st e status detail).engine st e).desc = (s.engine st e).desc ∧ e ∉ ((s.engEnd st e status detail).stackU st).semq
      ∧ (s.engEnd st e status detail).flag (BESTAT_BUSY st e) = true := by
  rw [State.engEnd_eq]
  generalize (s.modStack st fun x => { x with semq := x.semq.filter fun k => k != e }).now = n
  obtain ⟨v, hv⟩ : ∃ v, v = s.modStack st fun x => { x with semq := x.semq.filter fun k => k != e } := ⟨_, rfl⟩
  have honly : State.OnlyEng [aBESTAT st e] s v := hv ▸ s.onlyEng_modStack st _ _
  have hengine : v.engine st e = s.engine st e := State.engine_congr (hv ▸ State.modStack_engines _ _ _) st e
  have hunit : (v.stackU st).semq = (s.stackU st).semq.filter fun k => k != e := by rw [hv, State.stackU_modStack_same]
  obtain ⟨hturn, heng, hstx, hbusy, -⟩ := v.engTurn_spec st e fun x => { x with stage := .ended status detail, tend := n }
  rw [← hv, heng, State.stackU_congr hstx, hunit, hengine]
  exact ⟨honly.trans hturn, rfl, rfl, by simp, hbusy⟩

/-! ## Stacks that read alike -/

/-- Two states whose stacks read alike: bytes, marks, units, the time, and the registers that tell failed channels. -/
structure State.AlikeStk (s u : State) : Prop where
  stk : u.stk = s.stk
  stkMark : u.stkMark = s.stkMark
  stx : u.stx = s.stx
  clk : u.clk = s.clk
  fail : ∀ st < 16, u.reg (aSFAIL st) = s.reg (aSFAIL st)
  map : ∀ st < 16, u.reg (aSCHMAP st) = s.reg (aSCHMAP st)

theorem toldApart_channels {st : Nat} (hst : st < 16) : toldApart (aSFAIL st) ∧ toldApart (aSCHMAP st) := by
  simp only [toldApart, aSFAIL, aSCHMAP]
  omega

theorem State.AlikeStk.told {s' u' : State} (h : State.AlikeStk s u) (hs : State.Told s s') (hu : State.Told u u') : State.AlikeStk s' u' where
  stk := hu.stk.trans (h.stk.trans hs.stk.symm)
  stkMark := hu.stkMark.trans (h.stkMark.trans hs.stkMark.symm)
  stx := hu.stx.trans (h.stx.trans hs.stx.symm)
  clk := hu.clk.trans (h.clk.trans hs.clk.symm)
  fail st hst := (hu.regs _ (toldApart_channels hst).1).trans ((h.fail st hst).trans (hs.regs _ (toldApart_channels hst).1).symm)
  map st hst := (hu.regs _ (toldApart_channels hst).2).trans ((h.map st hst).trans (hs.regs _ (toldApart_channels hst).2).symm)

/-- A field apart from the channels' registers is set, on either side to what it will. -/
theorem State.AlikeStk.setFld (h : State.AlikeStk s u) {f : Fld} (hf : ∀ st < 16, aSFAIL st ≠ f.addr ∧ aSCHMAP st ≠ f.addr) (n m : Nat) :
    State.AlikeStk (s.setFld f n) (u.setFld f m) where
  stk := by simpa using h.stk
  stkMark := by simpa using h.stkMark
  stx := by simpa using h.stx
  clk := by simpa using h.clk
  fail st hst := by rw [State.reg_setFld_other _ _ _ _ (hf st hst).1, State.reg_setFld_other _ _ _ _ (hf st hst).1, h.fail st hst]
  map st hst := by rw [State.reg_setFld_other _ _ _ _ (hf st hst).2, State.reg_setFld_other _ _ _ _ (hf st hst).2, h.map st hst]

theorem State.AlikeStk.modStack (h : State.AlikeStk s u) (st : Nat) (f : Stack → Stack) : State.AlikeStk (s.modStack st f) (u.modStack st f) where
  stk := h.stk
  stkMark := h.stkMark
  stx := by rw [State.modStack, State.modStack, h.stx, State.stackU_congr h.stx]
  clk := h.clk
  fail := h.fail
  map := h.map

theorem State.AlikeStk.failmap (h : State.AlikeStk s u) {st : Nat} (hst : st < 16) : u.fld (SFAIL_FAILMAP st) = s.fld (SFAIL_FAILMAP st) :=
  State.fld_of_reg (h.fail st hst)

theorem State.AlikeStk.channelOf (h : State.AlikeStk s u) {st : Nat} (hst : st < 16) (off : Nat) : u.channelOf st off = s.channelOf st off := by
  have hmap : u.fld (SCHMAP_LIVEMAP st) = s.fld (SCHMAP_LIVEMAP st) := State.fld_of_reg (h.map st hst)
  rw [State.channelOf, State.channelOf, State.liveList, State.liveList, hmap]

/-- A channel fails on both sides. -/
theorem State.AlikeStk.failChannel (h : State.AlikeStk s u) {st : Nat} (hst : st < 16) (ch cause : Nat) :
    State.AlikeStk (s.failChannel st ch cause) (u.failChannel st ch cause) := by
  rw [State.failChannel, State.failChannel, h.failmap hst]
  split
  · exact h
  · have hset : State.AlikeStk (s.orFld (SFAIL_FAILMAP st) (2 ^ ch)) (u.orFld (SFAIL_FAILMAP st) (2 ^ ch)) := by
      refine ⟨by simpa using h.stk, by simpa using h.stkMark, by simpa using h.stx, by simpa using h.clk, fun k hk => ?_, fun k hk => ?_⟩
      · by_cases hkst : k = st
        · subst hkst
          have haddr : aSFAIL k = (SFAIL_FAILMAP k).addr := rfl
          have hreg := h.fail k hk
          rw [haddr] at hreg ⊢
          rw [State.orFld, State.orFld, h.failmap hk, State.reg_setFld_same, State.reg_setFld_same, hreg]
        · have hne : aSFAIL k ≠ (SFAIL_FAILMAP st).addr := by simp only [SFAIL_FAILMAP, aSFAIL]; omega
          rw [State.orFld, State.orFld, State.reg_setFld_other _ _ _ _ hne, State.reg_setFld_other _ _ _ _ hne, h.fail k hk]
      · have hne : aSCHMAP k ≠ (SFAIL_FAILMAP st).addr := by simp only [SFAIL_FAILMAP, aSCHMAP, aSFAIL]; omega
        rw [State.orFld, State.orFld, State.reg_setFld_other _ _ _ _ hne, State.reg_setFld_other _ _ _ _ hne, h.map k hk]
    exact hset.told ((State.told_report _ _ _ _ _ _ _).trans (State.told_failWarn _ 2)) ((State.told_report _ _ _ _ _ _ _).trans (State.told_failWarn _ 2))

/-- The time of an uncorrectable error of a channel is kept; the sixteenth within a second fails the channel. -/
def State.ueTimed (s : State) (st ch : Nat) : State :=
  let times := (s.clk :: SMap.get (fun _ => []) (s.stackU st).ue ch).take 16
  let s := s.modStack st fun x => { x with ue := SMap.set (fun _ => []) x.ue ch times }
  if times.length = 16 ∧ s.clk - nth 0 times 15 ≤ 1000000000 then s.failChannel st ch 1 else s

theorem State.checkHalf_ue {d : Nat} (hlive : s.deadAt d = false) (hmark : s.markOf d = 2) :
    s.checkHalf d = (true, ((s.bump (SCECNT_UE (d / 0x1000000000)) 1).report (halfOfStack (d / 0x1000000000)) 0x20 2 (srcOf 1 (d / 0x1000000000))
      (d / 32 * 32) (s.channelOf (d / 0x1000000000) (d % 0x1000000000))).ueTimed (d / 0x1000000000) (s.channelOf (d / 0x1000000000) (d % 0x1000000000))) := by
  have hlive' : s.chanFailed (d / 0x1000000000) (d % 0x1000000000) = false := hlive
  simp only [State.checkHalf, hlive', hmark, Bool.false_eq_true, if_false, State.ueTimed]

theorem State.checkHalf_ce {d : Nat} (hlive : s.deadAt d = false) (hmark : s.markOf d = 1) :
    s.checkHalf d = (false, (s.bump (SCECNT_CE (d / 0x1000000000)) 1).bucket (2 + d / 0x1000000000)) := by
  have hlive' : s.chanFailed (d / 0x1000000000) (d % 0x1000000000) = false := hlive
  simp only [State.checkHalf, hlive', hmark, Bool.false_eq_true, if_false]

theorem State.checkHalf_other {d : Nat} (hlive : s.deadAt d = false) (hmark : 3 ≤ s.markOf d) : s.checkHalf d = (true, s) := by
  have hlive' : s.chanFailed (d / 0x1000000000) (d % 0x1000000000) = false := hlive
  obtain ⟨m, hm⟩ : ∃ m, s.markOf d = m + 3 := ⟨s.markOf d - 3, by omega⟩
  simp only [State.checkHalf, hlive', hm, Bool.false_eq_true, if_false]

theorem State.AlikeStk.ueTimed (h : State.AlikeStk s u) {st : Nat} (hst : st < 16) (ch : Nat) : State.AlikeStk (s.ueTimed st ch) (u.ueTimed st ch) := by
  rw [State.ueTimed, State.ueTimed, h.clk, State.stackU_congr h.stx]
  generalize (s.clk :: SMap.get (fun _ => []) (s.stackU st).ue ch).take 16 = times
  have hkept := h.modStack st fun x => { x with ue := SMap.set (fun _ => []) x.ue ch times }
  rw [hkept.clk]
  split
  · exact hkept.failChannel hst ch 1
  · exact hkept

/-- A half-granule is checked alike, and the stacks still read alike. -/
theorem State.AlikeStk.checkHalf (h : State.AlikeStk s u) {d : Nat} (hd : d / 0x1000000000 < 16) :
    (u.checkHalf d).1 = (s.checkHalf d).1 ∧ State.AlikeStk (s.checkHalf d).2 (u.checkHalf d).2 := by
  have hdead : u.deadAt d = s.deadAt d := State.chanFailed_congr (h.fail _ hd) (h.map _ hd) _
  have hmark : u.markOf d = s.markOf d := congrArg (SMap.get (fun _ => 0) · (d / 32)) h.stkMark
  have hce : ∀ k < 16, aSFAIL k ≠ (SCECNT_CE (d / 0x1000000000)).addr ∧ aSCHMAP k ≠ (SCECNT_CE (d / 0x1000000000)).addr := by
    intro k hk
    simp only [SCECNT_CE, aSCECNT, aSFAIL, aSCHMAP]
    omega
  have hue : ∀ k < 16, aSFAIL k ≠ (SCECNT_UE (d / 0x1000000000)).addr ∧ aSCHMAP k ≠ (SCECNT_UE (d / 0x1000000000)).addr := by
    intro k hk
    simp only [SCECNT_UE, aSCECNT, aSFAIL, aSCHMAP]
    omega
  cases hlive : s.deadAt d with
  | true =>
    rw [State.checkHalf_dead hlive, State.checkHalf_dead (hdead.trans hlive)]
    exact ⟨rfl, h⟩
  | false =>
    obtain hm | hm | hm | hm : s.markOf d = 0 ∨ s.markOf d = 1 ∨ s.markOf d = 2 ∨ 3 ≤ s.markOf d := by omega
    · rw [State.checkHalf_sound hlive (.inl hm), State.checkHalf_sound (hdead.trans hlive) (.inl (hmark.trans hm)), hmark]
      exact ⟨rfl, h⟩
    · rw [State.checkHalf_ce hlive hm, State.checkHalf_ce (hdead.trans hlive) (hmark.trans hm)]
      exact ⟨rfl, (h.setFld hce _ _).told (State.told_bucket _ (by omega)) (State.told_bucket _ (by omega))⟩
    · rw [State.checkHalf_ue hlive hm, State.checkHalf_ue (hdead.trans hlive) (hmark.trans hm), h.channelOf hd]
      exact ⟨rfl, ((h.setFld hue _ _).told (State.told_report _ _ _ _ _ _ _) (State.told_report _ _ _ _ _ _ _)).ueTimed hd _⟩
    · rw [State.checkHalf_other hlive hm, State.checkHalf_other (hdead.trans hlive) (hm.trans_eq hmark.symm)]
      exact ⟨rfl, h⟩

theorem State.AlikeStk.stkGranule (h : State.AlikeStk s u) {g : Nat} (hg : g < 2 ^ 34) :
    (u.stkGranule g).1 = (s.stkGranule g).1 ∧ State.AlikeStk (s.stkGranule g).2 (u.stkGranule g).2 := by
  obtain ⟨hlow, hmid⟩ := h.checkHalf (d := g * 64) (by omega)
  obtain ⟨hhigh, hend⟩ := hmid.checkHalf (d := g * 64 + 32) (by omega)
  have hbyte : ∀ d, u.stkByte d = s.stkByte d := fun d => by rw [State.stkByte, State.stkByte, h.stk]
  unfold State.stkGranule
  refine ⟨?_, hend⟩
  simp only [hlow, hhigh, hbyte]

theorem State.AlikeStk.stkGranules (n : Nat) : ∀ {s u : State} {g : Nat}, State.AlikeStk s u → g + n ≤ 2 ^ 34 → (u.stkGranules g n).1 = (s.stkGranules g n).1 := by
  induction n with
  | zero => exact fun _ _ => rfl
  | succ n ih =>
    intro s u g h hg
    obtain ⟨hfirst, hnext⟩ := h.stkGranule (g := g) (by omega)
    simp only [State.stkGranules, hfirst, ih hnext (by omega : g + 1 + n ≤ 2 ^ 34)]

/-- Stacks that read alike give the same bytes. -/
theorem State.AlikeStk.stkRead (h : State.AlikeStk s u) {d n : Nat} (hd : d + n ≤ 2 ^ 40) : (u.stkRead d n).1 = (s.stkRead d n).1 := by
  rw [State.stkRead, State.stkRead]
  split
  · rfl
  · dsimp only
    rw [State.AlikeStk.stkGranules _ h (by omega)]

end Sys2Proof.Machine
end

section
/-! SUPPORT. A bindery descriptor from its fetch to its start: queue writes, the static checks, semaphores; O32 (R236 to R239, R544). -/

namespace Sys2Proof.Machine

variable {s u v : State}

/-! ## The static checks (R238, R544) -/

section
variable {l : List Nat}

theorem State.OnlyEng.fld_below (h : State.OnlyEng l s u) (hl : ∀ a ∈ l, 0x020000200000 ≤ a) {f : Fld} (hf : f.addr < 0x020000200000) : u.fld f = s.fld f :=
  h.fld fun hin => absurd (hl _ hin) (by omega)

theorem State.OnlyEng.inTop (h : State.OnlyEng l s u) (hl : ∀ a ∈ l, 0x020000200000 ≤ a) {st : Nat} (hst : st < 16) (off len : Nat) :
    u.inTop st off len = s.inTop st off len := by
  have hlive : u.fld (SSTAT_LIVE st) = s.fld (SSTAT_LIVE st) := h.fld_below hl (by simp only [SSTAT_LIVE, aSSTAT]; omega)
  rw [State.inTop, State.inTop, hlive]

theorem State.OnlyEng.alikeStk (h : State.OnlyEng l s u) (hl : ∀ a ∈ l, 0x020000200000 ≤ a) (hstx : u.stx = s.stx) : State.AlikeStk s u := by
  obtain ⟨⟨rs, sx, en, hu⟩, hregs⟩ := h
  refine ⟨by rw [hu], by rw [hu], hstx, by rw [hu], fun st hst => hregs _ fun hin => ?_, fun st hst => hregs _ fun hin => ?_⟩
  · have := hl _ hin
    simp only [aSFAIL] at this
    omega
  · have := hl _ hin
    simp only [aSCHMAP] at this
    omega

theorem State.OnlyEng.pubTargetOk (h : State.OnlyEng l s u) (hl : ∀ a ∈ l, 0x020000200000 ≤ a) (st e : Nat) (d L : List Nat) :
    u.pubTargetOk st e d L = s.pubTargetOk st e d L := by
  have hrank : u.fld FCFG_RANK = s.fld FCFG_RANK := h.fld_below hl (by decide)
  have hlink : u.fld GBRIDGE_LINKOK = s.fld GBRIDGE_LINKOK := h.fld_below hl (by decide)
  obtain ⟨⟨rs, sx, en, hu⟩, -⟩ := h
  have himg : u.img = s.img := by rw [hu]
  have hdone : u.bridgeDone = s.bridgeDone := by rw [hu]
  simp only [State.pubTargetOk, State.isLocal, State.rank, State.engTile, State.half1Gone, State.partOfTile, hrank, hlink, himg, hdone]

/-- A descriptor is judged alike, whatever stands in the engines' registers. -/
theorem State.OnlyEng.bdAddrBad (h : State.OnlyEng l s u) (hl : ∀ a ∈ l, 0x020000200000 ≤ a) (hstx : u.stx = s.stx) {st : Nat} (hst : st < 8)
    (e : Nat) (d : List Nat) : u.bdAddrBad st e d = s.bdAddrBad st e d := by
  have hrank : u.isLocal (bdA1 d) = s.isLocal (bdA1 d) := by
    rw [State.isLocal, State.isLocal, State.rank, State.rank, h.fld_below hl (f := FCFG_RANK) (by decide)]
  have hread : s.inTop st (bdA2 d) 64 = true → (u.stkRead (stackBase st + bdA2 d) 64).1 = (s.stkRead (stackBase st + bdA2 d) 64).1 := by
    intro hin
    have hlive : s.fld (SSTAT_LIVE st) < 64 := s.fld_lt _
    rw [State.inTop, Bool.or_eq_true] at hin
    have hbelow := of_decide_eq_true (hin.resolve_left (by decide))
    refine (h.alikeStk hl hstx).stkRead ?_
    rw [stackBase]
    omega
  unfold State.bdAddrBad
  simp only [h.inTop hl (by omega : st < 16), hrank, h.pubTargetOk hl]
  split
  case h_4 =>
    cases hin : s.inTop st (bdA2 d) 64 with
    | false => rw [Bool.not_false, Bool.or_true, Bool.true_or, Bool.true_or, Bool.true_or]
    | true => rw [hread hin]
  all_goals rfl

theorem State.OnlyEng.bdStatic (h : State.OnlyEng l s u) (hl : ∀ a ∈ l, 0x020000200000 ≤ a) (hstx : u.stx = s.stx) {st : Nat} (hst : st < 8)
    (e : Nat) (d : List Nat) : u.bdStatic st e d = s.bdStatic st e d := by
  have hslot : u.slotKind st (bdProg d) = s.slotKind st (bdProg d) := by
    obtain ⟨⟨rs, sx, en, hu⟩, -⟩ := h
    have himg : u.img = s.img := by rw [hu]
    rw [State.slotKind, State.slotKind, State.slotRec, State.slotRec, himg]
  rw [State.bdStatic, State.bdStatic, h.bdAddrBad hl hstx hst, hslot]

end

/-! ## The fetch (R237) -/

/-- A fetched descriptor ends, waits or runs. -/
def State.descJudged (s : State) (st e : Nat) (d : List Nat) : State :=
  match s.bdStatic st e d with
  | some f => s.engEnd st e f.1 f.2
  | none =>
    if bdDep d then (s.modStack st fun x => { x with semq := x.semq ++ [e] }).engTurn st e fun x => { x with stage := .waitSem }
    else s.engTurn st e fun x => { x with stage := .running }

theorem State.fetchDesc_eq {st e : Nat} {d : List Nat} (h : s.nextDesc st e d) :
    ∃ f : Engine → Engine, (∀ x, (f x).desc = some ⟨d, false, s.fld (BQPTR_CI st e)⟩) ∧ s.fetchDesc st e
      = ((s.setFld (BQPTR_CI st e) ((s.fld (BQPTR_CI st e) + 1) % 512)).modEngine st e f).descJudged st e d := by
  obtain ⟨-, -, -, habort, hlen, htop, hread⟩ := h
  rw [State.stkHolds, hlen] at hread
  have hclean : anyPois (d.map fun b => (b, false)) = false := by simp [anyPois]
  have hbytes : (d.map fun b => (b, false)).map (·.1) = d := by simp [Function.comp_def]
  unfold State.fetchDesc
  simp only [htop, if_true, hread, hclean, hbytes, habort, Option.isSome_none, Bool.not_true, Bool.or_false, Bool.false_eq_true, if_false]
  exact ⟨_, fun x => rfl, rfl⟩

theorem exec_descriptorFetch {st e : Nat} {d : List Nat} (h : s.nextDesc st e d) : exec (.descriptorFetch st e) s = .next (s.fetchDesc st e) := by
  obtain ⟨hst, he, hcan, -⟩ := h
  exact congrArg Host.Outcome.next (if_pos ⟨hst, he, hcan⟩)

theorem aBQPTR_ne_aBESTAT (st e : Nat) : aBQPTR st e ≠ aBESTAT st e := by simp only [aBQPTR, aBESTAT]; omega

/-- The queue pointer has moved on by one. -/
theorem State.ciMoved_spec (s : State) (st e : Nat) :
    (s.setFld (BQPTR_CI st e) ((s.fld (BQPTR_CI st e) + 1) % 512)).fld (BQPTR_CI st e) = (s.fld (BQPTR_CI st e) + 1) % 512
      ∧ (s.setFld (BQPTR_CI st e) ((s.fld (BQPTR_CI st e) + 1) % 512)).fld (BQPTR_PI st e) = s.fld (BQPTR_PI st e) := by
  have happart : (BQPTR_CI st e).apart (BQPTR_PI st e) = true := by simp [Fld.apart, BQPTR_CI, BQPTR_PI]
  refine ⟨?_, s.fld_setFld_apart _ happart⟩
  rw [State.fld_setFld_same _ _ _ (by decide : 16 + 9 ≤ 64)]
  exact Nat.mod_mod _ 512

/-- After the pointer has moved, a change of the engine that shows in BESTAT alone leaves the descriptor at its stage. -/
theorem State.descAt_of {w : State} {st e : Nat} {d : List Nat} {g : EStage} {f : Engine → Engine} {i : Nat}
    (hw : w = (s.setFld (BQPTR_CI st e) ((s.fld (BQPTR_CI st e) + 1) % 512)).modEngine st e f)
    (honly : State.OnlyEng [aBESTAT st e] w u) (hstage : (u.engine st e).stage = g) (hdesc : (u.engine st e).desc = some ⟨d, false, i⟩)
    (hbusy : u.flag (BESTAT_BUSY st e) = true) : descAt st e d g s u := by
  obtain ⟨hci, hpi⟩ := s.ciMoved_spec st e
  have hne : aBQPTR st e ∉ [aBESTAT st e] := by simpa using aBQPTR_ne_aBESTAT st e
  have hfirst : State.OnlyEng [aBQPTR st e, aBESTAT st e] s w :=
    hw ▸ ((s.onlyEng_setFld (BQPTR_CI st e) _).mono (List.subset_append_left _ [aBESTAT st e])).trans (State.onlyEng_modEngine _ st e f _)
  have hall := hfirst.trans (honly.mono (List.subset_append_right [aBQPTR st e] _))
  have hregs : w.regs = (s.setFld (BQPTR_CI st e) ((s.fld (BQPTR_CI st e) + 1) % 512)).regs := hw ▸ State.modEngine_regs _ _ _ _
  refine ⟨?_, ?_, hstage, ⟨i, hdesc⟩, hbusy, hall.sameMem, hall.2⟩
  · rw [honly.fld hne, State.fld_congr hregs, hci]
  · rw [honly.fld hne, State.fld_congr hregs, hpi]

/-! ## Semaphores (R239, R247) -/

theorem aBSEM_ne_aBESTAT (st n : Nat) {e : Nat} (he : e < 8) : aBSEM st n ≠ aBESTAT st e := by simp only [aBSEM, aBESTAT]; omega

/-- Engines show that a semaphore has overflowed; a flag that is set stays. -/
theorem State.semovf_each (st : Nat) (l : List Nat) (s : State) {e : Nat} (h : e ∈ l ∨ s.flag (BESTAT_SEMOVF st e) = true) :
    (s.each l fun s e => s.setFld (BESTAT_SEMOVF st e) 1).flag (BESTAT_SEMOVF st e) = true := by
  induction l generalizing s with
  | nil => exact h.resolve_left List.not_mem_nil
  | cons k l ih =>
    rw [State.each_cons]
    refine ih _ ?_
    by_cases hek : e = k
    · subst hek
      refine .inr ?_
      rw [State.flag_setFld_same _ _ _ (by decide : 4 + 1 ≤ 64)]
      rfl
    · have happart : (BESTAT_SEMOVF st k).apart (BESTAT_SEMOVF st e) = true := by
        simp [Fld.apart, BESTAT_SEMOVF, aBESTAT]
        omega
      rw [State.flag_setFld_apart _ _ happart]
      exact h.imp_left fun hin => (List.mem_cons.mp hin).resolve_left hek

theorem State.onlySet_semovf (st : Nat) (s : State) :
    State.OnlySet ((List.range 8).map (aBESTAT st)) s (s.each (List.range 8) fun s e => s.setFld (BESTAT_SEMOVF st e) 1) :=
  foldl_rel (State.OnlySet.refl _) State.OnlySet.trans
    (fun s e he => (State.OnlySet.refl _ s).setFld (f := BESTAT_SEMOVF st e) (List.mem_map_of_mem (f := aBESTAT st) he) 1) s

/-- A semaphore counts up to its largest value; passing it is shown by every engine of the stack. -/
theorem State.semAdd_spec (s : State) (st n v : Nat) :
    (s.semAdd st n v).fld (BSEM_COUNT st n) = min 65535 (s.fld (BSEM_COUNT st n) + v % 65536)
      ∧ (65535 < s.fld (BSEM_COUNT st n) + v % 65536 → ∀ e < 8, (s.semAdd st n v).flag (BESTAT_SEMOVF st e) = true)
      ∧ State.OnlySet (aBSEM st n :: (List.range 8).map (aBESTAT st)) s (s.semAdd st n v) := by
  have hset : ∀ m, State.OnlySet (aBSEM st n :: (List.range 8).map (aBESTAT st)) s (s.setFld (BSEM_COUNT st n) m) := fun m =>
    (State.OnlySet.refl _ s).setFld (f := BSEM_COUNT st n) List.mem_cons_self m
  have hread : ∀ m < 65536, (s.setFld (BSEM_COUNT st n) m).fld (BSEM_COUNT st n) = m := fun m hm =>
    (s.fld_setFld_same (BSEM_COUNT st n) m (by decide : 0 + 16 ≤ 64)).trans (Nat.mod_eq_of_lt hm)
  unfold State.semAdd
  dsimp only
  split
  next hover =>
    have hovf := State.onlySet_semovf st (s.setFld (BSEM_COUNT st n) 65535)
    have hne : (BSEM_COUNT st n).addr ∉ (List.range 8).map (aBESTAT st) := fun hin => by
      obtain ⟨e, he, heq⟩ := List.mem_map.mp hin
      exact aBSEM_ne_aBESTAT st n (List.mem_range.mp he) heq.symm
    refine ⟨?_, fun _ e he => State.semovf_each st _ _ (.inl (List.mem_range.mpr he)), (hset _).trans (hovf.mono (List.subset_cons_self _ _))⟩
    rw [hovf.fld hne, hread _ (by decide)]
    omega
  next hfit => exact ⟨by rw [hread _ (by omega)]; omega, fun h => absurd h hfit, hset _⟩

end Sys2Proof.Machine

namespace Sys2Proof.Proofs
open Sys2Proof Sys2Proof.Machine

/-- A PI write by a context that may make it. -/
theorem pi_write {s : State} {c st e p : Nat} (hst : st < 8) (he : e < 8) (hp : p < 512) (hmay : s.engineMay c st e = true) :
    let n := (p + 512 - s.fld (BQPTR_CI st e)) % 512
    (n ≤ 256 → Gives (exec (.piWrite c st e p) s) fun u =>
      u.fld (BQPTR_PI st e) = p ∧ u.fld (BQPTR_CI st e) = s.fld (BQPTR_CI st e) ∧ s.sameRegs u [aBQPTR st e] ∧ s.sameMem u) ∧
    (256 < n → Gives (exec (.piWrite c st e p) s) fun u =>
      u.flag (BESTAT_QERR st e) = true ∧ s.sameRegs u [aBESTAT st e] ∧ s.sameMem u
        ∧ u.reports = s.reports ++ [⟨halfOfStack st, 0x25, 1, srcOf 2 (st * 8 + e), 0, e, s.now⟩]) := by
  have hexec : exec (.piWrite c st e p) s = .next (s.piWrite c st e p) :=
    congrArg Host.Outcome.next ((if_neg (by omega)).trans (if_pos hmay))
  have hmod : p % 512 = p := Nat.mod_eq_of_lt hp
  intro n
  refine ⟨fun hn => ⟨_, hexec, ?_⟩, fun hn => ⟨_, hexec, ?_⟩⟩
  · rw [State.piWrite, hmod, if_neg (Nat.not_lt.mpr hn)]
    have happart : (BQPTR_PI st e).apart (BQPTR_CI st e) = true := by simp [Fld.apart, BQPTR_CI, BQPTR_PI]
    have honly := (s.onlyEng_setFld (BQPTR_PI st e) p).trans (State.onlyEng_modEngine _ st e (fun x => { x with whose := x.whose ++ [(p, c)] }) _)
    refine ⟨?_, ?_, honly.2, honly.sameMem⟩
    · rw [State.fld_congr (State.modEngine_regs _ _ _ _), State.fld_setFld_same _ _ _ (by decide : 0 + 9 ≤ 64)]
      exact hmod
    · rw [State.fld_congr (State.modEngine_regs _ _ _ _), State.fld_setFld_apart _ _ happart]
  · rw [State.piWrite, hmod, if_pos hn]
    have honly : State.OnlySet [aBESTAT st e] s (s.setFld (BESTAT_QERR st e) 1) :=
      (State.OnlySet.refl _ s).setFld (f := BESTAT_QERR st e) List.mem_cons_self 1
    have hnow : (s.setFld (BESTAT_QERR st e) 1).now = s.now := s.now_setFld (by simp only [BESTAT_QERR, aBESTAT, aTBTIME]; omega) 1
    refine ⟨?_, State.sameRegs_trans honly.2 (State.sameRegs_of_regs (State.report_regs _ _ _ _ _ _ _) _), honly.sameMem.trans (State.told_report _ _ _ _ _ _ _).sameMem, ?_⟩
    · rw [State.flag_congr (State.report_regs _ _ _ _ _ _ _), State.flag_setFld_same _ _ _ (by decide : 3 + 1 ≤ 64)]
      rfl
    · rw [State.report_reports, State.setFld_reports, hnow]

theorem pi_write_refused {s : State} {c st e p : Nat} (hst : st < 8) (he : e < 8) (hmay : s.engineMay c st e = false) :
    Gives (exec (.piWrite c st e p) s) fun u => s.sameRegs u [] ∧ s.sameMem u ∧ u.engines = s.engines
      ∧ ∃ r, u.reports = s.reports ++ [r] ∧ r.typ = 0x05 := by
  have hexec : exec (.piWrite c st e p) s = .next (s.extFault (aBQPTR st e) 5 (srcOf 5 c)) :=
    congrArg Host.Outcome.next ((if_neg (by omega)).trans (if_neg (by rw [hmay]; exact Bool.false_ne_true)))
  have htold := s.told_report (srcHalf (srcOf 5 c)) 0x05 1 (srcOf 5 c) (aBQPTR st e) 5
  exact ⟨_, hexec, State.sameRegs_of_regs (State.report_regs _ _ _ _ _ _ _) _, htold.sameMem, htold.engines, _, rfl, rfl⟩

theorem cq_tail_write {s : State} {st e v : Nat} (hst : st < 8) (he : e < 8) (hv : v < 512) :
    let head := s.fld (BCQPTR_HEAD st e)
    let old := s.fld (BCQPTR_TAIL st e)
    Gives (exec (.bcqptrTailWrite st e v) s) fun u =>
      u.fld (BCQPTR_TAIL st e) = (if (v + 512 - old) % 512 ≤ (head + 512 - old) % 512 then v else head)
        ∧ u.fld (BCQPTR_HEAD st e) = head ∧ s.sameRegs u [aBCQPTR st e] ∧ s.sameMem u := by
  intro head old
  have happart : (BCQPTR_TAIL st e).apart (BCQPTR_HEAD st e) = true := by simp [Fld.apart, BCQPTR_TAIL, BCQPTR_HEAD]
  have hhead : head < 512 := s.fld_lt (BCQPTR_HEAD st e)
  have honly := s.onlyEng_setFld (BCQPTR_TAIL st e) (if (v + 512 - old) % 512 ≤ (head + 512 - old) % 512 then v else head)
  refine ⟨s.cqTail st e v, congrArg Host.Outcome.next (if_pos ⟨hst, he⟩), ?_⟩
  rw [State.cqTail, Nat.mod_eq_of_lt hv]
  refine ⟨?_, s.fld_setFld_apart _ happart, honly.2, honly.sameMem⟩
  rw [State.fld_setFld_same _ _ _ (by decide : 16 + 9 ≤ 64)]
  exact Nat.mod_eq_of_lt (show _ < 512 by split <;> assumption)

/-- A descriptor that is fetched. -/
theorem descriptor_fetch {s : State} {st e : Nat} {d : List Nat} (h : s.nextDesc st e d) :
    (∀ f, s.bdStatic st e d = some f → Gives (exec (.descriptorFetch st e) s) (descAt st e d (.ended f.1 f.2) s)) ∧
    (s.bdStatic st e d = none → bdDep d = true → Gives (exec (.descriptorFetch st e) s) fun u =>
      descAt st e d .waitSem s u ∧ (u.stackU st).semq = (s.stackU st).semq ++ [e] ∧ u.flag (BESTAT_WAITSEM st e) = true) ∧
    (s.bdStatic st e d = none → bdDep d = false → Gives (exec (.descriptorFetch st e) s) (descAt st e d .running s)) := by
  obtain ⟨f, hf, hfetch⟩ := State.fetchDesc_eq h
  obtain ⟨w, hw⟩ : ∃ w, w = (s.setFld (BQPTR_CI st e) ((s.fld (BQPTR_CI st e) + 1) % 512)).modEngine st e f := ⟨_, rfl⟩
  have hexec := exec_descriptorFetch h
  rw [hfetch, ← hw] at hexec
  have honly : State.OnlyEng [aBQPTR st e] s w := hw ▸ (s.onlyEng_setFld (BQPTR_CI st e) _).trans (State.onlyEng_modEngine _ st e f _)
  have hstx : w.stx = s.stx := by rw [hw, State.modEngine_stx, State.setFld_stx]
  have hdesc : (w.engine st e).desc = some ⟨d, false, s.fld (BQPTR_CI st e)⟩ := by rw [hw, State.engine_modEngine_same, hf]
  have hstatic : w.bdStatic st e d = s.bdStatic st e d :=
    honly.bdStatic (fun a ha => by rw [List.mem_singleton.mp ha, aBQPTR]; omega) hstx h.1 e d
  refine ⟨fun g hg => ⟨_, hexec, ?_⟩, fun hnone hdep => ⟨_, hexec, ?_⟩, fun hnone hdep => ⟨_, hexec, ?_⟩⟩
  · obtain ⟨hend, hstage, hkept, -, hbusy⟩ := w.engEnd_spec st e g.1 g.2
    simp only [State.descJudged, hstatic, hg]
    exact State.descAt_of hw hend hstage (hkept.trans hdesc) hbusy
  · obtain ⟨v, hv⟩ : ∃ v, v = w.modStack st fun x => { x with semq := x.semq ++ [e] } := ⟨_, rfl⟩
    obtain ⟨hturn, heng, hsame, hbusy, hwait⟩ := v.engTurn_spec st e fun x => { x with stage := .waitSem }
    have hqueued : State.OnlyEng [aBESTAT st e] w v := hv ▸ w.onlyEng_modStack st _ _
    have hengine : v.engine st e = w.engine st e := State.engine_congr (hv ▸ State.modStack_engines _ _ _) st e
    simp only [State.descJudged, hstatic, hnone, hdep, if_true, ← hv]
    refine ⟨State.descAt_of hw (hqueued.trans hturn) (by rw [heng]) (by rw [heng, hengine]; exact hdesc) hbusy, ?_, hwait⟩
    rw [State.stackU_congr hsame, hv, State.stackU_modStack_same, State.stackU_congr hstx]
  · obtain ⟨hturn, heng, -, hbusy, -⟩ := w.engTurn_spec st e fun x => { x with stage := .running }
    simp only [State.descJudged, hstatic, hnone, hdep, Bool.false_eq_true, if_false]
    exact State.descAt_of hw hturn (by rw [heng]) (by rw [heng]; exact hdesc) hbusy

/-- The first waiter whose count is covered. -/
theorem semaphore_acquire {s : State} {st e : Nat} {d : Desc} (he : e < 8) (hstage : (s.engine st e).stage = .waitSem)
    (hdesc : (s.engine st e).desc = some d) (hfirst : s.firstWaiter st e = true) (hcovered : bdWcnt d.bytes ≤ s.fld (BSEM_COUNT st (bdSemw d.bytes))) :
    Gives (exec (.semaphoreAcquire st e) s) fun u =>
      u.fld (BSEM_COUNT st (bdSemw d.bytes)) + bdWcnt d.bytes = s.fld (BSEM_COUNT st (bdSemw d.bytes)) ∧ (u.engine st e).stage = .running
        ∧ (u.engine st e).desc = some d ∧ e ∉ (u.stackU st).semq ∧ s.sameMem u := by
  obtain ⟨n, hn⟩ : ∃ n, n = bdSemw d.bytes := ⟨_, rfl⟩
  rw [← hn] at hcovered ⊢
  have htaken : (s.setFld (BSEM_COUNT st n) (s.fld (BSEM_COUNT st n) - bdWcnt d.bytes)).fld (BSEM_COUNT st n) = s.fld (BSEM_COUNT st n) - bdWcnt d.bytes := by
    have hlt : s.fld (BSEM_COUNT st n) < 65536 := s.fld_lt _
    rw [State.fld_setFld_same _ _ _ (by decide : 0 + 16 ≤ 64)]
    exact Nat.mod_eq_of_lt (show _ < 65536 by omega)
  obtain ⟨w, hw⟩ : ∃ w, w = s.setFld (BSEM_COUNT st n) (s.fld (BSEM_COUNT st n) - bdWcnt d.bytes) := ⟨_, rfl⟩
  obtain ⟨v, hv⟩ : ∃ v, v = w.modStack st fun x => { x with semq := x.semq.filter fun k => k != e } := ⟨_, rfl⟩
  have hexec : exec (.semaphoreAcquire st e) s = .next (v.engTurn st e fun x => { x with stage := .running }) := by
    rw [hv, hw, hn]
    show execSemaphoreAcquire st e s = _
    simp only [execSemaphoreAcquire, hstage, hdesc, ← hn, hfirst, hcovered, and_self, if_true]
    rfl
  obtain ⟨hturn, heng, hsame, -, -⟩ := v.engTurn_spec st e fun x => { x with stage := .running }
  have honly : State.OnlySet [aBSEM st n] s w := hw ▸ (State.OnlySet.refl _ s).setFld (f := BSEM_COUNT st n) List.mem_cons_self _
  have hengine : v.engine st e = s.engine st e := (State.engine_congr (hv ▸ State.modStack_engines _ _ _) st e).trans (State.engine_congr honly.engines st e)
  have hne : (BSEM_COUNT st n).addr ∉ [aBESTAT st e] := fun hin => aBSEM_ne_aBESTAT st n he (List.mem_singleton.mp hin)
  refine ⟨_, hexec, ?_, by rw [heng], by rw [heng, hengine]; exact hdesc, ?_, ?_⟩
  · rw [hturn.fld hne, hv, State.fld_congr (State.modStack_regs _ _ _), hw, htaken]
    omega
  · rw [State.stackU_congr hsame, hv, State.stackU_modStack_same]
    simp
  · exact honly.sameMem.trans ((hv ▸ w.sameMem_modStack st _ : w.sameMem v).trans hturn.sameMem)

/-- Settles O32: queue writes, the fetch through the first static check that fails, and semaphores taken, timed out and added to. -/
theorem binderyDescriptorsStart : Obligations.BinderyDescriptorsStart := by
  unfold Obligations.BinderyDescriptorsStart
  refine ⟨⟨fun s c st e p hst he hp hmay => pi_write hst he hp hmay, fun s c st e p hst he hmay => pi_write_refused hst he hmay,
    fun s st e v hst he hv => cq_tail_write hst he hv⟩, fun s st e d h => descriptor_fetch h,
    fun s st e d hst he hstage hdesc hfirst hcovered => semaphore_acquire he hstage hdesc hfirst hcovered, fun s st e hwait => ?_,
    fun s st n v hst hn hv => ?_⟩
  · obtain ⟨hend, hstage, -, hsemq, -⟩ := s.engEnd_spec st e bsTimeout 0
    exact ⟨_, congrArg Host.Outcome.next (if_pos hwait), hstage, hsemq, hend.2, hend.sameMem⟩
  · obtain ⟨hsum, hovf, honly⟩ := s.semAdd_spec st n v
    rw [Nat.mod_eq_of_lt hv] at hsum hovf
    exact ⟨_, congrArg Host.Outcome.next (if_pos ⟨hst, hn⟩), hsum, hovf, honly.2, honly.sameMem⟩

end Sys2Proof.Proofs
end

section
/-! SUPPORT. A bindery descriptor from its run to its completion: the operations inside a stack, the record, and the abort; O33 (R238, R240 to
R242). -/

namespace Sys2Proof.Machine

variable {s u v : State}

/-! ## Operations inside a stack (R238) -/

theorem anyPois_part {bs : List (Nat × Bool)} (h : ∀ b ∈ bs, b.2 = false) (i n : Nat) : anyPois ((bs.drop i).take n) = false :=
  List.any_eq_false.mpr fun b hb => by rw [h b (List.mem_of_mem_drop (List.mem_of_mem_take hb))]; exact Bool.false_ne_true

theorem mem_clean {bs : List Nat} : ∀ b ∈ bs.map fun b => (b, false), b.2 = false := fun b hb => by
  obtain ⟨_, -, rfl⟩ := List.mem_map.mp hb
  rfl

theorem anyPois_clean (bs : List Nat) : anyPois (bs.map fun b => (b, false)) = false :=
  List.any_eq_false.mpr fun b hb => by rw [mem_clean b hb]; exact Bool.false_ne_true

theorem State.OnlyEng.stores {l : List Nat} (h : State.OnlyEng l s u) : u.stk = s.stk ∧ u.stkMark = s.stkMark := by
  obtain ⟨⟨_, _, _, rfl⟩, -⟩ := h
  exact ⟨rfl, rfl⟩

/-- An engine's state register tells nothing of channels. -/
theorem State.OnlyEng.deadAt {st e : Nat} (h : State.OnlyEng [aBESTAT st e] s u) (d : Nat) : u.deadAt d = s.deadAt d := by
  refine State.chanFailed_congr (h.2 _ fun hin => ?_) (h.2 _ fun hin => ?_) _ <;> have heq := List.mem_singleton.mp hin
  · simp only [aSFAIL, aBESTAT] at heq
    omega
  · simp only [aSCHMAP, aBESTAT] at heq
    omega

theorem State.hitsFailed_congr (h : u.regs = s.regs) (d n : Nat) : u.hitsFailed d n = s.hitsFailed d n := by
  have hdead : ∀ st off, u.chanFailed st off = s.chanFailed st off := fun st off =>
    State.chanFailed_congr (State.reg_congr h _) (State.reg_congr h _) off
  simp only [State.hitsFailed, hdead]

/-- A descriptor writes clean whole granules at D and ends with status 0. -/
def State.wroteAndEnded (s : State) (st e D : Nat) (bs : List (Nat × Bool)) : State := (s.stkWrite D bs).engEnd st e 0 0

/-- Its destination, and nothing else but BESTAT, has changed. -/
theorem State.wroteAndEnded_spec {st e D : Nat} {bs : List (Nat × Bool)} (hD : D % 64 = 0) (hlen : bs.length % 64 = 0)
    (hspan : D % 0x1000000000 + bs.length ≤ 0x1000000000) (hopen : s.hitsFailed D bs.length = false) (hclean : ∀ b ∈ bs, b.2 = false) :
    let u := s.wroteAndEnded st e D bs
    (u.engine st e).stage = .ended 0 0 ∧ s.sameRegs u [aBESTAT st e]
      ∧ (∀ x, x < D ∨ D + bs.length ≤ x → u.stkByte x = s.stkByte x ∧ u.markOf x = s.markOf x)
      ∧ (∀ a, D ≤ a → a < D + bs.length → u.deadAt a = false) ∧ (∀ i < bs.length, u.markOf (D + i) = 0)
      ∧ ∀ i < bs.length, u.stkByte (D + i) = (nth (0, false) bs i).1 % 256 := by
  intro u
  have hput : State.PutAt D bs s (s.stkWrite D bs) := State.putAt_stkWrite hD hlen hspan hopen
  obtain ⟨hend, hstage, -⟩ := (s.stkWrite D bs).engEnd_spec st e 0 0
  obtain ⟨hstk, hmark⟩ := hend.stores
  have hbyte : ∀ x, u.stkByte x = (s.stkWrite D bs).stkByte x := fun x => congrArg (fun m => (SMap.get (fun _ => 0) m x : BitVec 8).toNat) hstk
  have hmarks : ∀ x, u.markOf x = (s.stkWrite D bs).markOf x := fun x => congrArg (SMap.get (fun _ => 0) · (x / 32)) hmark
  refine ⟨hstage, State.sameRegs_trans (fun a _ => hput.reg a) hend.2, fun x hx => ?_, fun a hlo hhi => ?_, fun i hi => ?_, fun i hi => ?_⟩
  · rw [hbyte, hmarks]
    exact hput.outside x hx
  · exact (hend.deadAt a).trans ((hput.deadAt a).trans (State.deadAt_of_hitsFailed hspan hopen hlo hhi))
  · rw [hmarks, hput.marks i hi, anyPois_part hclean, if_neg Bool.false_ne_true]
  · rw [hbyte]
    exact hput.bytes i hi (anyPois_part hclean _ _)

theorem State.PutAt.regs {d : Nat} {bs : List (Nat × Bool)} (h : State.PutAt d bs s u) : u.regs = s.regs := by
  obtain ⟨_, _, rfl⟩ := h.only
  rfl

/-- Whole granules of a destination within the stack. -/
theorem stackBase_add_mod (st : Nat) {a n : Nat} (ha : a % 64 = 0) (hn : a + n ≤ 0x1000000000) :
    (stackBase st + a) % 64 = 0 ∧ (stackBase st + a) % 0x1000000000 + n ≤ 0x1000000000 := by
  rw [stackBase]
  omega

theorem State.copyRun_eq {st e : Nat} {d bs : List Nat} (hlen : bs.length = bdLen d) (hsrc : s.stkHolds (stackBase st + bdA0 d) bs)
    (hwhole : bdLen d % 64 = 0) (hdst : bdA1 d % 64 = 0) (hspan : bdA1 d + bdLen d ≤ 0x1000000000)
    (hopen : s.hitsFailed (stackBase st + bdA1 d) (bdLen d) = false) :
    s.copyRun st e d = s.wroteAndEnded st e (stackBase st + bdA1 d) (bs.map fun b => (b, false)) := by
  obtain ⟨hD, hfit⟩ := stackBase_add_mod st hdst hspan
  rw [State.stkHolds, hlen] at hsrc
  rw [← hlen] at hwhole hfit hopen
  rw [← List.length_map (f := fun b => (b, false)) (as := bs)] at hwhole hfit hopen
  have hput := State.putAt_stkWrite hD hwhole hfit hopen
  have hstatus : (s.stkWrite (stackBase st + bdA1 d) (bs.map fun b => (b, false))).hitsFailed (stackBase st + bdA1 d) (bdLen d) = false := by
    rw [State.hitsFailed_congr hput.regs, ← hlen, ← List.length_map (f := fun b => (b, false)) (as := bs)]
    exact hopen
  simp only [State.copyRun, hsrc, hstatus, anyPois_clean]
  rfl

/-- The bytes of a fill: its pattern over and over. -/
def fillBytes (n : Nat) (bs : List Nat) : List (Nat × Bool) := (List.range n).flatMap fun _ => bs.map fun b => (b, false)

theorem length_fillBytes (n : Nat) {bs : List Nat} (h : bs.length = 64) : (fillBytes n bs).length = n * 64 :=
  length_flatMap_range fun _ _ => by rw [List.length_map, h]

theorem nth_fillBytes {n i : Nat} {bs : List Nat} (h : bs.length = 64) (hi : i < n * 64) : (nth (0, false) (fillBytes n bs) i).1 = nth 0 bs (i % 64) := by
  have hget := getElem?_flatMap_range (f := fun _ : Nat => bs.map fun b => (b, false)) (n := n) (L := 64) (fun _ _ => by rw [List.length_map, h])
    (r := i / 64) (i := i % 64) (by omega) (by omega)
  rw [show i / 64 * 64 + i % 64 = i by omega, List.getElem?_map] at hget
  have hin : i % 64 < bs.length := by omega
  rw [nth, nth, fillBytes, hget, List.getElem?_eq_getElem hin]
  rfl

theorem mem_fillBytes {n : Nat} {bs : List Nat} : ∀ b ∈ fillBytes n bs, b.2 = false := fun b hb => by
  obtain ⟨_, -, hb⟩ := List.mem_flatMap.mp hb
  exact mem_clean b hb

theorem State.fillRun_eq {st e : Nat} {d bs : List Nat} (hlen : bs.length = 64) (hsrc : s.stkHolds (stackBase st + bdA0 d) bs)
    (hwhole : bdLen d % 64 = 0) (hdst : bdA1 d % 64 = 0) (hspan : bdA1 d + bdLen d ≤ 0x1000000000)
    (hopen : s.hitsFailed (stackBase st + bdA1 d) (bdLen d) = false) :
    s.fillRun st e d = s.wroteAndEnded st e (stackBase st + bdA1 d) (fillBytes (bdLen d / 64) bs) := by
  obtain ⟨hD, hfit⟩ := stackBase_add_mod st hdst hspan
  have hcount : (fillBytes (bdLen d / 64) bs).length = bdLen d := (length_fillBytes _ hlen).trans (by omega)
  rw [State.stkHolds, hlen] at hsrc
  have hput := State.putAt_stkWrite (s := s) (bs := fillBytes (bdLen d / 64) bs) hD (by rw [hcount, hwhole]) (by rw [hcount]; exact hfit) (by rw [hcount]; exact hopen)
  have hstatus : (s.stkWrite (stackBase st + bdA1 d) (fillBytes (bdLen d / 64) bs)).hitsFailed (stackBase st + bdA1 d) (bdLen d) = false := by
    rw [State.hitsFailed_congr hput.regs]
    exact hopen
  rw [fillBytes] at hstatus
  simp only [State.fillRun, hsrc, hstatus, anyPois_clean]
  rfl

/-! ## Completion (R240, R241) -/

/-- Stacks' bytes and the registers of stacks and engines but those listed stay, and reports are only added. -/
structure State.Kept (l : List Nat) (s u : State) : Prop where
  stk : u.stk = s.stk
  reports : s.reports <+: u.reports
  regs : ∀ a, toldApart a → a ∉ l → u.reg a = s.reg a

theorem State.Kept.trans {l : List Nat} (h : State.Kept l s u) (k : State.Kept l u v) : State.Kept l s v :=
  ⟨k.stk.trans h.stk, h.reports.trans k.reports, fun a ha hl => (k.regs a ha hl).trans (h.regs a ha hl)⟩

theorem State.Kept.fld {l : List Nat} (h : State.Kept l s u) {f : Fld} (ha : toldApart f.addr) (hl : f.addr ∉ l) : u.fld f = s.fld f :=
  State.fld_of_reg (h.regs _ ha hl)

theorem State.Kept.mono {l l' : List Nat} (h : State.Kept l s u) (hsub : l ⊆ l') : State.Kept l' s u :=
  ⟨h.stk, h.reports, fun a ha hl => h.regs a ha fun hin => hl (hsub hin)⟩

theorem State.Told.kept (h : State.Told s u) (l : List Nat) : State.Kept l s u := ⟨h.stk, h.reports, fun a ha _ => h.regs a ha⟩

theorem State.OnlyEng.kept {l : List Nat} (h : State.OnlyEng l s u) : State.Kept l s u :=
  ⟨h.stores.1, h.reports ▸ List.prefix_refl _, fun a _ hl => h.2 a hl⟩

/-- The record is in place, and HEAD has moved on. -/
def State.recordPut (s : State) (st e : Nat) (x : Engine) (d : Desc) (status detail : Nat) : State :=
  (s.putRecord st (s.fld (BCQBASE_BASE st e) * 4096 + s.fld (BCQPTR_HEAD st e) % 256 * 16)
    (bdRecord (if d.poisoned then 0 else bdId d.bytes) status (if status = bsProg then detail else 0) x.tend)).setFld (BCQPTR_HEAD st e)
      (s.fld (BCQPTR_HEAD st e) + 1)

/-- The semaphore of a descriptor that succeeded is posted. -/
def State.semPosted (s : State) (st : Nat) (d : Desc) (status : Nat) : State :=
  if status = 0 ∧ bdSpost d.bytes ≠ 0 then s.semAdd st (bdSemp d.bytes) (bdSpost d.bytes) else s

/-- The completion is told: to its target, by an interrupt, by a report. -/
def State.completionTold (s : State) (st e : Nat) (x : Engine) (d : Desc) (status detail : Nat) : State :=
  let f := le d.bytes 1 1
  let s := if bitOf f 0 || bitOf f 1 then s.deliverCtx x.ctx (bdCtgt d.bytes) (bdCval d.bytes) else s
  let s := if bitOf f 2 then s.binderyIrq st e x.ctx else s
  if status = 0 then s else s.report (halfOfStack st) 0x24 1 (srcOf 2 (st * 8 + e)) (bdA0 d.bytes) (status + 16 * e + 256 * detail)

/-- An engine that has completed its descriptor: its queue's writers and an abort stay. -/
def Engine.cleared (y : Engine) : Engine := { Engine.reset with whose := y.whose, abortTo := y.abortTo }

theorem State.engComplete_eq (s : State) (st e : Nat) (x : Engine) (d : Desc) (status detail : Nat) :
    s.engComplete st e x d status detail
      = (((((s.recordPut st e x d status detail).semPosted st d status).completionTold st e x d status detail).setFld (BESTAT_CQFULL st e) 0).engTurn st e
          Engine.cleared) := rfl

theorem State.putRecord_spec (s : State) (st off : Nat) (bs : List Nat) :
    (s.putRecord st off bs).regs = s.regs ∧ (s.putRecord st off bs).reports = s.reports
      ∧ (s.inTop st off 16 = true → s.chanFailed st off = false → ∀ i < bs.length, (s.putRecord st off bs).stkByte (stackBase st + off + i) = nth 0 bs i % 256) := by
  by_cases h : (!s.inTop st off 16 || s.chanFailed st off) = true
  · rw [State.putRecord, if_pos h]
    refine ⟨rfl, rfl, fun htop hlive => ?_⟩
    rw [htop, hlive] at h
    exact absurd h Bool.false_ne_true
  · rw [State.putRecord, if_neg h]
    refine ⟨rfl, rfl, fun _ _ i hi => ?_⟩
    simp only [State.stkByte, SMap.get_setList, Nat.le_add_right, if_true, Nat.add_sub_cancel_left, List.getElem?_map, nth,
      List.getElem?_eq_getElem hi, Option.map_some, Option.getD_some, BitVec.toNat_ofNat]

theorem length_bdRecord (id status detail tend : Nat) : (bdRecord id status detail tend).length = 16 := by simp [bdRecord, leBytes]

theorem State.told_completionTold (s : State) (st e : Nat) (x : Engine) (d : Desc) (status detail : Nat) :
    State.Told s (s.completionTold st e x d status detail) := by
  have hdeliver : ∀ (b : Bool) (v : State), State.Told v (if b then v.deliverCtx x.ctx (bdCtgt d.bytes) (bdCval d.bytes) else v) := fun b v => by
    cases b
    · exact State.Told.refl v
    · exact v.told_deliverCtx _ _ _
  have hirq : ∀ (b : Bool) (v : State), State.Told v (if b then v.binderyIrq st e x.ctx else v) := fun b v => by
    cases b
    · exact State.Told.refl v
    · exact v.told_binderyIrq _ _ _
  unfold State.completionTold
  dsimp only
  split
  · exact (hdeliver _ s).trans (hirq _ _)
  · exact ((hdeliver _ s).trans (hirq _ _)).trans (State.told_report _ _ _ _ _ _ _)

/-- A failed descriptor is reported. -/
theorem State.completionTold_report (s : State) (st e : Nat) (x : Engine) (d : Desc) {status : Nat} (detail : Nat) (h : status ≠ 0) :
    ∃ r ∈ (s.completionTold st e x d status detail).reports, r.typ = 0x24 ∧ r.src = srcOf 2 (st * 8 + e) ∧ r.detail = status + 16 * e + 256 * detail := by
  unfold State.completionTold
  dsimp only
  rw [if_neg h, State.report_reports]
  exact ⟨_, List.mem_append_right _ List.mem_cons_self, rfl, rfl, rfl⟩

/-- The registers that a posted semaphore of stack st may write. -/
def postRegs (st n : Nat) : List Nat := aBSEM st n :: (List.range 8).map (aBESTAT st)

theorem State.kept_semPosted (s : State) (st : Nat) (d : Desc) (status : Nat) :
    State.Kept (postRegs st (bdSemp d.bytes)) s (s.semPosted st d status) := by
  unfold State.semPosted
  split
  · exact (s.semAdd_spec st _ _).2.2.onlyEng.kept
  · exact ⟨rfl, List.prefix_refl _, fun _ _ _ => rfl⟩

/-- From the posted semaphore on only the engine's own register is written. -/
theorem State.kept_finish (s : State) (st e : Nat) (x : Engine) (d : Desc) (status detail : Nat) (f : Engine → Engine) :
    State.Kept [aBESTAT st e] s (((s.completionTold st e x d status detail).setFld (BESTAT_CQFULL st e) 0).engTurn st e f) := by
  have hset := (s.completionTold st e x d status detail).onlyEng_setFld (BESTAT_CQFULL st e) 0
  have hturn := ((s.completionTold st e x d status detail).setFld (BESTAT_CQFULL st e) 0).engTurn_spec st e f
  exact ((s.told_completionTold st e x d status detail).kept _).trans (hset.kept.trans hturn.1.kept)

theorem aBCQPTR_not_post {st e n : Nat} (he : e < 8) : aBCQPTR st e ∉ postRegs st n := by
  intro hin
  obtain heq | hin := List.mem_cons.mp hin
  · simp only [aBCQPTR, aBSEM] at heq
    omega
  · obtain ⟨k, -, heq⟩ := List.mem_map.mp hin
    simp only [aBCQPTR, aBESTAT] at heq
    omega

/-! ## ABORT (R242) -/

theorem SMap.get_mix {α : Type} [DecidableEq α] (d : Nat → α) (p : Nat → Bool) (old new : SMap α) (k : Nat) :
    SMap.get d (SMap.mix d p old new) k = SMap.get d old k ∨ SMap.get d (SMap.mix d p old new) k = SMap.get d new k := by
  unfold SMap.mix
  generalize (new ++ old).map (·.1) = keys
  suffices h : ∀ m, SMap.get d (keys.foldl (fun m k => if p k then SMap.set d m k (SMap.get d new k) else m) m) k = SMap.get d m k
      ∨ SMap.get d (keys.foldl (fun m k => if p k then SMap.set d m k (SMap.get d new k) else m) m) k = SMap.get d new k from h old
  induction keys with
  | nil => exact fun m => .inl rfl
  | cons j keys ih =>
    intro m
    rw [List.foldl_cons]
    refine (ih _).elim (fun h => ?_) .inr
    rw [h]
    split
    · rw [SMap.get_set]
      split
      next hkj => exact .inr (by rw [hkj])
      next => exact .inl rfl
    · exact .inl rfl

/-- An abort covers the descriptors up to PI. -/
def Engine.abortUpTo (ci pi : Nat) (x : Engine) : Engine := { x with abortTo := if ci = pi then none else some pi }

/-- A byte of a stack was written, or was not. -/
theorem State.stkByte_someOf (s u : State) (a : Nat) : (s.someOf u).stkByte a = s.stkByte a ∨ (s.someOf u).stkByte a = u.stkByte a := by
  have hstk : (s.someOf u).stk = SMap.mix (fun _ => 0) (fun a => Config.subset s.fresh (a / 32)) s.stk u.stk :=
    State.each_same State.stk (fun _ _ _ => State.modTile_stk _ _ _) _
  rw [State.stkByte, State.stkByte, State.stkByte, hstk]
  exact (SMap.get_mix (fun _ => (0 : BitVec 8)) _ s.stk u.stk a).imp (congrArg BitVec.toNat) (congrArg BitVec.toNat)

/-- An engine that waits or runs ends with ABORT; its memory is as it was, or has some of the writes of what it ran. -/
theorem State.engStop_busy {st e : Nat} (h : (s.engine st e).stage = .waitSem ∨ (s.engine st e).stage = .running) :
    ((s.engStop st e).engine st e).stage = .ended bsAbort 0 ∧ (s.engWhole st e = none → s.sameMem (s.engStop st e))
      ∧ ∀ a, (s.engStop st e).stkByte a = s.stkByte a ∨ ∃ w, s.engWhole st e = some w ∧ (s.engStop st e).stkByte a = w.stkByte a := by
  have hend : ∀ v : State, ((v.engEnd st e bsAbort 0).engine st e).stage = .ended bsAbort 0 ∧ v.sameMem (v.engEnd st e bsAbort 0) := fun v => by
    obtain ⟨honly, hstage, -⟩ := v.engEnd_spec st e bsAbort 0
    exact ⟨hstage, honly.sameMem⟩
  rw [State.engStop]
  obtain hwait | hrun := h
  · rw [hwait]
    obtain ⟨hstage, hmem⟩ := hend s
    exact ⟨hstage, fun _ => hmem, fun a => .inl (hmem.2.1 a)⟩
  · rw [hrun]
    cases hwhole : s.engWhole st e with
    | none =>
      obtain ⟨hstage, hmem⟩ := hend s
      exact ⟨hstage, fun _ => hmem, fun a => .inl (hmem.2.1 a)⟩
    | some w =>
      obtain ⟨hstage, hmem⟩ := hend (s.someOf w)
      refine ⟨hstage, nofun, fun a => ?_⟩
      exact (s.stkByte_someOf w a).imp (fun h => (hmem.2.1 a).trans h) fun h => ⟨w, rfl, (hmem.2.1 a).trans h⟩

/-- One that is idle, or has ended, is left alone. -/
theorem State.engStop_rest {st e : Nat} (hwait : (s.engine st e).stage ≠ .waitSem) (hrun : (s.engine st e).stage ≠ .running) : s.engStop st e = s := by
  rw [State.engStop]
  split
  · next h => exact absurd h hwait
  · next h => exact absurd h hrun
  · rfl

/-- Stage writes that settle write registers alone. -/
theorem State.stageSettle_only (s : State) : ∃ rs sw, s.stageSettle = { s with regs := rs, stageWait := sw } := by
  rw [State.stageSettle_eq]
  refine foldl_rel (R := fun s u => ∃ rs sw, u = { s with regs := rs, stageWait := sw }) (fun s => ⟨s.regs, s.stageWait, rfl⟩) ?_ (fun s x _ => ?_) _ |>.elim
    fun rs h => h.elim fun sw h => ⟨rs, sw, h⟩
  · rintro s u v ⟨_, _, rfl⟩ ⟨rs, sw, rfl⟩
    exact ⟨rs, sw, rfl⟩
  · unfold State.stagePut
    split
    · exact ⟨_, s.stageWait, rfl⟩
    · exact ⟨s.regs, s.stageWait, rfl⟩

end Sys2Proof.Machine

namespace Sys2Proof.Proofs
open Sys2Proof Sys2Proof.Machine

theorem bindery_nop_fence {s : State} {st e : Nat} {d : List Nat} {r : (Nat → Nat → Instr) × Nat} (hr : r ∈ [(.binderyNop, 0), (.binderyFence, 6)])
    (hrun : s.engRun st e r.2 = some d) :
    Gives (exec (r.1 st e) s) fun u => (u.engine st e).stage = .ended 0 0 ∧ s.sameMem u ∧ s.sameRegs u [aBESTAT st e] := by
  obtain ⟨hend, hstage, -⟩ := s.engEnd_spec st e 0 0
  have hexec : exec (r.1 st e) s = .next (s.engEnd st e 0 0) := by
    simp only [List.mem_cons, List.not_mem_nil, or_false] at hr
    obtain rfl | rfl := hr
    · show execBinderyNop st e s = _
      rw [execBinderyNop, hrun]
    · show execBinderyFence st e s = _
      rw [execBinderyFence, hrun]
  exact ⟨_, hexec, hstage, hend.sameMem, hend.2⟩

theorem bindery_copy {s : State} {st e : Nat} {d bs : List Nat} (hrun : s.engRun st e 2 = some d) (hlen : bs.length = bdLen d) (hbyte : ∀ b ∈ bs, b < 256)
    (hsrc : s.stkHolds (stackBase st + bdA0 d) bs) (hwhole : bdLen d % 64 = 0) (hdst : bdA1 d % 64 = 0) (hspan : bdA1 d + bdLen d ≤ 0x1000000000)
    (hopen : s.hitsFailed (stackBase st + bdA1 d) (bdLen d) = false) :
    Gives (exec (.copy st e) s) fun u =>
      (u.engine st e).stage = .ended 0 0 ∧ u.stkHolds (stackBase st + bdA1 d) bs ∧ s.sameRegs u [aBESTAT st e] ∧
      ∀ x, x < stackBase st + bdA1 d ∨ stackBase st + bdA1 d + bdLen d ≤ x → u.stkByte x = s.stkByte x ∧ u.markOf x = s.markOf x := by
  have hexec : exec (.copy st e) s = .next (s.copyRun st e d) := by
    show execCopy st e s = _
    rw [execCopy, hrun]
  rw [State.copyRun_eq hlen hsrc hwhole hdst hspan hopen] at hexec
  obtain ⟨hD, hfit⟩ := stackBase_add_mod st hdst hspan
  have hcount : (bs.map fun b => (b, false)).length = bdLen d := by rw [List.length_map, hlen]
  obtain ⟨hstage, hregs, hout, hlive, hmark, hput⟩ := s.wroteAndEnded_spec (st := st) (e := e) (bs := bs.map fun b => (b, false)) hD (by rw [hcount, hwhole])
    (by rw [hcount]; exact hfit) (by rw [hcount]; exact hopen) mem_clean
  rw [hcount] at hout hlive hmark hput
  rw [← hlen] at hlive hmark hput
  refine ⟨_, hexec, hstage, State.stkHolds_of_bytes hD (by rw [hlen, hwhole]) hlive hmark fun i hi => ?_, hregs, hout⟩
  rw [hput i hi, nth, nth, List.getElem?_map, List.getElem?_eq_getElem hi]
  exact Nat.mod_eq_of_lt (hbyte _ (List.getElem_mem hi))

theorem bindery_fill {s : State} {st e : Nat} {d bs : List Nat} (hrun : s.engRun st e 3 = some d) (hlen : bs.length = 64) (hbyte : ∀ b ∈ bs, b < 256)
    (hsrc : s.stkHolds (stackBase st + bdA0 d) bs) (hwhole : bdLen d % 64 = 0) (hdst : bdA1 d % 64 = 0) (hspan : bdA1 d + bdLen d ≤ 0x1000000000)
    (hopen : s.hitsFailed (stackBase st + bdA1 d) (bdLen d) = false) :
    Gives (exec (.fill st e) s) fun u =>
      (u.engine st e).stage = .ended 0 0 ∧ (∀ i < bdLen d, u.stkByte (stackBase st + bdA1 d + i) = nth 0 bs (i % 64))
        ∧ s.sameRegs u [aBESTAT st e] ∧
      ∀ x, x < stackBase st + bdA1 d ∨ stackBase st + bdA1 d + bdLen d ≤ x → u.stkByte x = s.stkByte x ∧ u.markOf x = s.markOf x := by
  have hexec : exec (.fill st e) s = .next (s.fillRun st e d) := by
    show execFill st e s = _
    rw [execFill, hrun]
  rw [State.fillRun_eq hlen hsrc hwhole hdst hspan hopen] at hexec
  obtain ⟨hD, hfit⟩ := stackBase_add_mod st hdst hspan
  have hcount : (fillBytes (bdLen d / 64) bs).length = bdLen d := (length_fillBytes _ hlen).trans (by omega)
  obtain ⟨hstage, hregs, hout, -, -, hput⟩ := s.wroteAndEnded_spec (st := st) (e := e) (bs := fillBytes (bdLen d / 64) bs) hD (by rw [hcount, hwhole])
    (by rw [hcount]; exact hfit) (by rw [hcount]; exact hopen) mem_fillBytes
  rw [hcount] at hout hput
  refine ⟨_, hexec, hstage, fun i hi => ?_, hregs, hout⟩
  have hin : i % 64 < bs.length := by omega
  rw [hput i hi, nth_fillBytes hlen (by omega), nth, List.getElem?_eq_getElem hin]
  exact Nat.mod_eq_of_lt (hbyte _ (List.getElem_mem hin))

/-- A descriptor completes while its ring has room. -/
theorem descriptor_completes {s : State} {st e status detail : Nat} {d : Desc} (hst : st < 8) (he : e < 8)
    (hstage : (s.engine st e).stage = .ended status detail) (hdesc : (s.engine st e).desc = some d)
    (hroom : (s.fld (BCQPTR_HEAD st e) + 512 - s.fld (BCQPTR_TAIL st e)) % 512 ≠ 256) :
    let head := s.fld (BCQPTR_HEAD st e)
    let off := s.fld (BCQBASE_BASE st e) * 4096 + head % 256 * 16
    Gives (exec (.descriptorComplete st e) s) fun u =>
      u.fld (BCQPTR_HEAD st e) = (head + 1) % 512 ∧ (u.engine st e).stage = .idle ∧ (u.engine st e).desc = none
        ∧ u.flag (BESTAT_BUSY st e) = false
        ∧ (s.inTop st off 16 = true → s.chanFailed st off = false → status < 256 → ∀ i < 16,
            u.stkByte (stackBase st + off + i) = nth 0 (bdRecord (if d.poisoned then 0 else bdId d.bytes) status
              (if status = bsProg then detail else 0) (s.engine st e).tend) i % 256)
        ∧ (status = 0 → bdSpost d.bytes ≠ 0 → u.fld (BSEM_COUNT st (bdSemp d.bytes))
            = min 65535 (s.fld (BSEM_COUNT st (bdSemp d.bytes)) + bdSpost d.bytes))
        ∧ (status ≠ 0 → (∀ n, n < 64 → u.fld (BSEM_COUNT st n) = s.fld (BSEM_COUNT st n))
            ∧ ∃ r ∈ u.reports, r.typ = 0x24 ∧ r.src = srcOf 2 (st * 8 + e) ∧ r.detail = status + 16 * e + 256 * detail) := by
  intro head off
  have hexec : exec (.descriptorComplete st e) s = .next (s.engComplete st e (s.engine st e) d status detail) := by
    show execDescriptorComplete st e s = _
    simp only [execDescriptorComplete, hstage, hdesc, hroom, if_false]
  rw [State.engComplete_eq] at hexec
  obtain ⟨a, ha⟩ : ∃ a, a = s.recordPut st e (s.engine st e) d status detail := ⟨_, rfl⟩
  obtain ⟨b, hb⟩ : ∃ b, b = a.semPosted st d status := ⟨_, rfl⟩
  rw [← ha, ← hb] at hexec
  obtain ⟨hregs, -, hrecord⟩ := s.putRecord_spec st off (bdRecord (if d.poisoned then 0 else bdId d.bytes) status (if status = bsProg then detail else 0)
    (s.engine st e).tend)
  have hpost : State.Kept (postRegs st (bdSemp d.bytes)) a b := hb ▸ a.kept_semPosted st d status
  have hfinish := b.kept_finish st e (s.engine st e) d status detail Engine.cleared
  obtain ⟨-, heng, -, hbusy, -⟩ := ((b.completionTold st e (s.engine st e) d status detail).setFld (BESTAT_CQFULL st e) 0).engTurn_spec st e
    Engine.cleared
  have hsemApart : ∀ n < 64, toldApart (BSEM_COUNT st n).addr ∧ (BSEM_COUNT st n).addr ∉ [aBESTAT st e] := fun n hn =>
    ⟨by simp only [toldApart, BSEM_COUNT, aBSEM]; omega, fun hin => aBSEM_ne_aBESTAT st n he (List.mem_singleton.mp hin)⟩
  have hsemBefore : ∀ n < 64, a.fld (BSEM_COUNT st n) = s.fld (BSEM_COUNT st n) := fun n hn => by
    have hne : (BSEM_COUNT st n).addr ≠ (BCQPTR_HEAD st e).addr := by simp only [BSEM_COUNT, BCQPTR_HEAD, aBSEM, aBCQPTR]; omega
    rw [ha, State.recordPut, State.fld_of_reg (State.reg_setFld_other _ _ _ _ hne), State.fld_congr hregs]
  have hsemp : bdSemp d.bytes < 64 := Nat.mod_lt _ (by decide)
  refine ⟨_, hexec, ?_, by rw [heng]; rfl, by rw [heng]; rfl, hbusy, fun htop hlive _ i hi => ?_, fun hzero hspost => ?_, fun hfailed => ⟨fun n hn => ?_, ?_⟩⟩
  · have hapart : toldApart (BCQPTR_HEAD st e).addr := by simp only [toldApart, BCQPTR_HEAD, aBCQPTR]; omega
    have hown : (BCQPTR_HEAD st e).addr ∉ [aBESTAT st e] := fun hin => by
      have heq := List.mem_singleton.mp hin
      simp only [BCQPTR_HEAD, aBCQPTR, aBESTAT] at heq
      omega
    rw [hfinish.fld hapart hown, hpost.fld hapart (aBCQPTR_not_post he), ha, State.recordPut, State.fld_setFld_same _ _ _ (by decide : 0 + 9 ≤ 64)]
    rfl
  · have hstk := hfinish.stk.trans hpost.stk
    rw [ha, State.recordPut, State.setFld_stk] at hstk
    rw [State.stkByte, hstk]
    exact hrecord htop hlive i (by rwa [length_bdRecord])
  · obtain ⟨hapart, hown⟩ := hsemApart _ hsemp
    have hposted : b = a.semAdd st (bdSemp d.bytes) (bdSpost d.bytes) := by rw [hb, State.semPosted, if_pos ⟨hzero, hspost⟩]
    have hcount : bdSpost d.bytes < 65536 := le_lt d.bytes 56 2
    rw [hfinish.fld hapart hown, hposted, (a.semAdd_spec st _ _).1, hsemBefore _ hsemp, Nat.mod_eq_of_lt hcount]
  · obtain ⟨hapart, hown⟩ := hsemApart n hn
    have hnone : b = a := by rw [hb, State.semPosted, if_neg fun h => hfailed h.1]
    rw [hfinish.fld hapart hown, hnone, hsemBefore n hn]
  · obtain ⟨r, hr, hrest⟩ := b.completionTold_report st e (s.engine st e) d detail hfailed
    have hturn := ((b.completionTold st e (s.engine st e) d status detail).setFld (BESTAT_CQFULL st e) 0).engTurn_spec st e
      Engine.cleared
    refine ⟨r, ?_, hrest⟩
    rw [hturn.1.reports, State.setFld_reports]
    exact hr

theorem descriptor_waits {s : State} {st e status detail : Nat} {d : Desc} (hstage : (s.engine st e).stage = .ended status detail)
    (hdesc : (s.engine st e).desc = some d) (hfull : (s.fld (BCQPTR_HEAD st e) + 512 - s.fld (BCQPTR_TAIL st e)) % 512 = 256) :
    Gives (exec (.descriptorComplete st e) s) fun u =>
      u.flag (BESTAT_CQFULL st e) = true ∧ u.engine st e = s.engine st e ∧ s.sameRegs u [aBESTAT st e] ∧ s.sameMem u := by
  have hexec : exec (.descriptorComplete st e) s = .next (s.setFld (BESTAT_CQFULL st e) 1) := by
    show execDescriptorComplete st e s = _
    simp only [execDescriptorComplete, hstage, hdesc, hfull, if_true]
  have honly : State.OnlySet [aBESTAT st e] s (s.setFld (BESTAT_CQFULL st e) 1) := (State.OnlySet.refl _ s).setFld (f := BESTAT_CQFULL st e) List.mem_cons_self 1
  refine ⟨_, hexec, ?_, State.engine_congr honly.engines st e, honly.2, honly.sameMem⟩
  rw [State.flag_setFld_same _ _ _ (by decide : 2 + 1 ≤ 64)]
  rfl

/-- An abort: the descriptor in progress ends, later ones up to PI are covered. -/
theorem bindery_abort {s : State} {st e : Nat} (hst : st < 8) (he : e < 8) :
    Gives (exec (.binderyAbort st e) s) fun u =>
      ((s.engine st e).stage = .waitSem ∨ (s.engine st e).stage = .running → (u.engine st e).stage = .ended bsAbort 0) ∧
      ((s.engine st e).stage = .idle → (u.engine st e).stage = .idle) ∧ (s.engWhole st e = none → s.sameMem u) ∧
      (∀ a, u.stkByte a = s.stkByte a ∨ ∃ w, s.engWhole st e = some w ∧ u.stkByte a = w.stkByte a) ∧
      (u.engine st e).abortTo = if s.fld (BQPTR_CI st e) = s.fld (BQPTR_PI st e) then none else some (s.fld (BQPTR_PI st e)) := by
  obtain ⟨v, hv⟩ : ∃ v, v = s.engStop st e := ⟨_, rfl⟩
  have hci : v.fld (BQPTR_CI st e) = s.fld (BQPTR_CI st e) := hv ▸ State.fld_of_reg (s.engStop_reg st e (aBQPTR_ne_aBESTAT st e))
  have hpi : v.fld (BQPTR_PI st e) = s.fld (BQPTR_PI st e) := hv ▸ State.fld_of_reg (s.engStop_reg st e (aBQPTR_ne_aBESTAT st e))
  obtain ⟨w, hw⟩ : ∃ w, w = v.modEngine st e (Engine.abortUpTo (v.fld (BQPTR_CI st e)) (v.fld (BQPTR_PI st e))) := ⟨_, rfl⟩
  have hexec : exec (.binderyAbort st e) s = .next w.stageSettle := by
    rw [hw, hv]
    exact congrArg Host.Outcome.next (if_pos ⟨hst, he⟩)
  obtain ⟨rs, sw, hsettle⟩ := w.stageSettle_only
  have hengine : w.stageSettle.engine st e = Engine.abortUpTo (v.fld (BQPTR_CI st e)) (v.fld (BQPTR_PI st e)) (v.engine st e) := by
    rw [State.engine_congr (u := w.stageSettle) (s := w) (by rw [hsettle]), hw, State.engine_modEngine_same]
  have hmem : v.sameMem w.stageSettle :=
    (hw ▸ (v.onlyEng_modEngine st e _ []).sameMem : v.sameMem w).trans (State.sameMem_of_stores (by rw [hsettle]) (by rw [hsettle]) (by rw [hsettle]))
  refine ⟨_, hexec, ?_⟩
  beta_reduce
  rw [hengine, hci, hpi]
  by_cases hbusy : (s.engine st e).stage = .waitSem ∨ (s.engine st e).stage = .running
  · obtain ⟨hstop, hkept, hbyte⟩ := State.engStop_busy hbusy
    rw [← hv] at hstop hkept hbyte
    refine ⟨fun _ => hstop, fun hidle => ?_, fun hnone => (hkept hnone).trans hmem, fun a => ?_, rfl⟩
    · rw [hidle] at hbusy
      exact absurd hbusy (by simp)
    · rw [hmem.2.1 a]
      exact hbyte a
  · obtain ⟨hwait, hrun⟩ := not_or.mp hbusy
    rw [State.engStop_rest hwait hrun] at hv
    subst hv
    exact ⟨fun h => absurd h hbusy, id, fun _ => hmem, fun a => .inl (hmem.2.1 a), rfl⟩

/-- Settles O33: the operations inside a stack as one write of whole clean granules, the completion as a record, a post and what is told, and the abort
by what an engine's stop leaves. -/
theorem binderyDescriptorsEnd : Obligations.BinderyDescriptorsEnd := by
  unfold Obligations.BinderyDescriptorsEnd
  exact ⟨⟨fun s st e d r hr hrun => bindery_nop_fence hr hrun,
      fun s st e d bs hrun hlen hbyte hsrc hwhole hdst hspan hopen => bindery_copy hrun hlen hbyte hsrc hwhole hdst hspan hopen,
      fun s st e d bs hrun hlen hbyte hsrc hwhole hdst hspan hopen => bindery_fill hrun hlen hbyte hsrc hwhole hdst hspan hopen⟩,
    fun s st e status detail d hst he hstage hdesc =>
      ⟨fun hroom => descriptor_completes hst he hstage hdesc hroom, fun hfull => descriptor_waits hstage hdesc hfull⟩,
    fun s st e hst he => bindery_abort hst he⟩

end Sys2Proof.Proofs
end

section
/-! SUPPORT. What leaves the TAP and the ports' states alone: memory read and written, packets sent, signals and collectives that go on or are
abandoned (R253, R262, R287 to R308, R536). -/

namespace Sys2Proof.Machine

variable {s u v : State}

/-! ## The relation -/

/-- A state register of a Miltum port. -/
def linkReg (a : Nat) : Prop := 0x020000031000 ≤ a ∧ a < 0x020000031800

/-- The TAP and the ports' state registers are in u as they were in s. -/
structure State.LinksKept (s u : State) : Prop where
  tap : u.tap = s.tap
  regs : ∀ a, linkReg a → u.reg a = s.reg a

theorem State.LinksKept.refl (s : State) : State.LinksKept s s := ⟨rfl, fun _ _ => rfl⟩

theorem State.LinksKept.trans (h : State.LinksKept s u) (k : State.LinksKept u v) : State.LinksKept s v :=
  ⟨k.tap.trans h.tap, fun a ha => (k.regs a ha).trans (h.regs a ha)⟩

theorem State.LinksKept.of_eq (ht : u.tap = s.tap) (hr : u.regs = s.regs) : State.LinksKept s u := ⟨ht, fun a _ => State.reg_congr hr a⟩

theorem State.LinksKept.ite {c : Prop} [Decidable c] (hu : State.LinksKept s u) (hv : State.LinksKept s v) : State.LinksKept s (if c then u else v) := by
  split
  · exact hu
  · exact hv

theorem State.Told.linksKept (h : State.Told s u) : State.LinksKept s u := ⟨h.tap, fun a ha => h.regs a (.inr ha)⟩

theorem State.OnlySent.linksKept (h : State.OnlySent s u) : State.LinksKept s u := by
  obtain ⟨_, _, _, _, rfl⟩ := h
  exact .of_eq rfl rfl

theorem State.linksKept_setReg (s : State) {a : Nat} (h : ¬ linkReg a) (w : BitVec 64) : State.LinksKept s (s.setReg a w) :=
  ⟨State.setReg_tap _ _ _, fun b hb => s.reg_setReg_other a b w fun hba => h (hba ▸ hb)⟩

theorem State.linksKept_setFld (s : State) {f : Fld} (h : ¬ linkReg f.addr) (n : Nat) : State.LinksKept s (s.setFld f n) := s.linksKept_setReg h _

theorem State.linksKept_each {α : Type} {f : State → α → State} (step : ∀ s x, State.LinksKept s (f s x)) (l : List α) (s : State) :
    State.LinksKept s (s.each l f) := foldl_rel State.LinksKept.refl State.LinksKept.trans (fun s x _ => step s x) s

/-- A loop that carries a value along. -/
theorem State.linksKept_foldl {α β : Type} {f : β × State → α → β × State} (step : ∀ a x, State.LinksKept a.2 (f a x).2) (l : List α) (a : β × State) :
    State.LinksKept a.2 (l.foldl f a).2 := by
  induction l generalizing a with
  | nil => exact .refl _
  | cons x l ih => exact (step a x).trans (ih _)

theorem State.linksKept_modTile (s : State) (t : Nat) (f : Tile → Tile) : State.LinksKept s (s.modTile t f) := .of_eq rfl rfl

theorem State.linksKept_modGrp (s : State) (g : Nat) (f : SigGrp → SigGrp) : State.LinksKept s (s.modGrp g f) := .of_eq rfl rfl

theorem State.linksKept_report (s : State) (half typ sev src addr detail : Nat) : State.LinksKept s (s.report half typ sev src addr detail) :=
  (s.told_report _ _ _ _ _ _).linksKept

theorem State.linksKept_primReport (s : State) (typ sev addr detail : Nat) : State.LinksKept s (s.primReport typ sev addr detail) :=
  s.linksKept_report _ _ _ _ _ _

/-! ## Memory written -/

theorem State.linksKept_bankPut (s : State) (t off : Nat) (b : Nat × Bool) : State.LinksKept s (s.bankPut t off b) := by
  have hflip : ¬ linkReg (TFLIP_PEND t).addr := by simp only [linkReg, TFLIP_PEND, aTFLIP]; omega
  unfold State.bankPut
  exact .ite ((s.linksKept_modTile t _).trans (State.linksKept_setFld _ hflip 0)) (s.linksKept_modTile t _)

theorem State.linksKept_accWrite (s : State) (t off : Nat) (bs : List (Nat × Bool)) : State.LinksKept s (s.accWrite t off bs) := by
  have hpois : ¬ linkReg (TMXSTAT_ACCPOIS t).addr := by simp only [linkReg, TMXSTAT_ACCPOIS, aTMXSTAT]; omega
  have hput : ∀ x, State.LinksKept s ((s.setTile t x).syncPois t) := fun x =>
    (State.LinksKept.of_eq rfl rfl : State.LinksKept s (s.setTile t x)).trans (State.linksKept_setFld _ hpois _)
  unfold State.accWrite
  exact .ite (.refl s) (hput _)

theorem State.linksKept_winWrite (s : State) (t off : Nat) (bs : List (Nat × Bool)) : State.LinksKept s (s.winWrite t off bs) := by
  unfold State.winWrite
  split
  · exact (s.linksKept_modTile t _).trans (State.linksKept_each (fun s (b : (Nat × Bool) × Nat) => s.linksKept_bankPut t (off + b.2) b.1) _ _)
  · exact s.linksKept_accWrite t _ bs

theorem State.linksKept_stkPut (n : Nat) (s : State) (d : Nat) (bs : List (Nat × Bool)) : State.LinksKept s (s.stkPut d n bs) := by
  induction n generalizing s d bs with
  | zero => exact .refl s
  | succ n ih =>
    refine State.LinksKept.trans ?_ (ih _ _ _)
    unfold State.stkPutHalf
    split
    · exact .refl s
    · split <;> exact .of_eq rfl rfl

theorem State.linksKept_memWrite (s : State) (d : Nat) (bs : List (Nat × Bool)) : State.LinksKept s (s.memWrite d bs) := by
  unfold State.memWrite
  split
  · exact State.linksKept_stkPut _ s d bs
  · exact .ite ((s.linksKept_winWrite _ _ _).trans (State.linksKept_winWrite _ _ _ _)) (s.linksKept_winWrite _ _ _)

theorem State.linksKept_countBurst (s : State) (d n : Nat) : State.LinksKept s (s.countBurst d n) := by
  have hburst : ∀ st, ¬ linkReg (SBURST_BURSTS st).addr ∧ ¬ linkReg (SBURST_GRANS st).addr := fun st => by
    simp only [linkReg, SBURST_BURSTS, SBURST_GRANS, aSBURST]
    omega
  unfold State.countBurst
  exact .ite (.refl s) (State.linksKept_each (fun s k =>
    (s.linksKept_setFld (hburst (d / 0x1000000000 + k)).1 _).trans (State.linksKept_setFld _ (hburst (d / 0x1000000000 + k)).2 _)) _ s)

theorem State.linksKept_collWrite (s : State) (a : Nat) (bs : List (Nat × Bool)) : State.LinksKept s (s.collWrite a bs) := by
  unfold State.collWrite
  exact .ite (.refl s) (.ite (s.linksKept_report _ _ _ _ _ _) (.ite (.ite ((s.linksKept_countBurst _ _).trans (State.linksKept_memWrite _ _ _)) (.refl s))
    (s.linksKept_memWrite _ _)))

/-! ## Memory read -/

theorem State.linksKept_failChannel (s : State) (st ch cause : Nat) : State.LinksKept s (s.failChannel st ch cause) := by
  have hfail : ¬ linkReg (SFAIL_FAILMAP st).addr := by simp only [linkReg, SFAIL_FAILMAP, aSFAIL]; omega
  unfold State.failChannel
  exact .ite (.refl s) (((s.linksKept_setFld hfail _).trans (State.linksKept_report _ _ _ _ _ _ _)).trans (State.told_failWarn _ 2).linksKept)

theorem State.linksKept_checkHalf (s : State) {d : Nat} (hd : d < 2 ^ 45) : State.LinksKept s (s.checkHalf d).2 := by
  have hcnt : ¬ linkReg (aSCECNT (d / 0x1000000000)) := by simp only [linkReg, aSCECNT]; omega
  cases hlive : s.deadAt d with
  | true => rw [State.checkHalf_dead hlive]; exact .refl s
  | false =>
    obtain hm | hm | hm | hm : s.markOf d = 0 ∨ s.markOf d = 1 ∨ s.markOf d = 2 ∨ 3 ≤ s.markOf d := by omega
    · rw [State.checkHalf_sound hlive (.inl hm)]
      exact .refl s
    · rw [State.checkHalf_ce hlive hm]
      exact (s.linksKept_setFld (f := SCECNT_CE _) hcnt _).trans (State.told_bucket _ (by omega)).linksKept
    · rw [State.checkHalf_ue hlive hm, State.ueTimed]
      have hkept : ∀ st f, State.LinksKept s (((s.bump (SCECNT_UE (d / 0x1000000000)) 1).report (halfOfStack (d / 0x1000000000)) 0x20 2
          (srcOf 1 (d / 0x1000000000)) (d / 32 * 32) (s.channelOf (d / 0x1000000000) (d % 0x1000000000))).modStack st f) := fun st f =>
        ((s.linksKept_setFld (f := SCECNT_UE _) hcnt _).trans (State.linksKept_report _ _ _ _ _ _ _)).trans
          (.of_eq (State.modStack_tap _ _ _) (State.modStack_regs _ _ _))
      exact .ite ((hkept _ _).trans (State.linksKept_failChannel _ _ _ _)) (hkept _ _)
    · rw [State.checkHalf_other hlive hm]
      exact .refl s

theorem State.linksKept_stkGranules (n : Nat) (s : State) {g : Nat} (hg : g + n ≤ 2 ^ 39) : State.LinksKept s (s.stkGranules g n).2 := by
  induction n generalizing s g with
  | zero => exact .refl s
  | succ n ih =>
    have hgranule : State.LinksKept s (s.stkGranule g).2 := by
      unfold State.stkGranule
      exact (s.linksKept_checkHalf (by omega)).trans (State.linksKept_checkHalf _ (by omega))
    unfold State.stkGranules
    exact hgranule.trans (ih _ (by omega))

theorem State.linksKept_stkRead (s : State) {d n : Nat} (hd : d + n ≤ 2 ^ 45) : State.LinksKept s (s.stkRead d n).2 := by
  unfold State.stkRead
  split
  · exact .refl s
  · exact State.linksKept_stkGranules _ s (by omega)

theorem State.linksKept_noteByte (s : State) {t : Nat} (ht : t < 2048) (off unit : Nat) (c : ByteClass) : State.LinksKept s (s.noteByte t off unit c) := by
  have hcnt : ¬ linkReg (aTECCCNT t) := by simp only [linkReg, aTECCCNT]; omega
  have hhalf : halfOfTile t < 1024 := by rw [halfOfTile]; omega
  cases c with
  | good _ => exact .refl s
  | poison => exact .refl s
  | corrected _ => exact (s.linksKept_setFld (f := TECCCNT_CE t) hcnt _).trans (State.told_bucket _ hhalf).linksKept
  | unwritten => exact (s.linksKept_setFld (f := TECCCNT_UE t) hcnt _).trans (State.linksKept_report _ _ _ _ _ _ _)
  | uncorrectable _ => exact (s.linksKept_setFld (f := TECCCNT_UE t) hcnt _).trans (State.linksKept_report _ _ _ _ _ _ _)

theorem State.linksKept_winByte (s : State) {t : Nat} (ht : t < 2048) (off unit : Nat) : State.LinksKept s (s.winByte t off unit).2 := by
  have hcnt : ¬ linkReg (aTECCCNT t) := by simp only [linkReg, aTECCCNT]; omega
  unfold State.winByte
  split
  · exact s.linksKept_noteByte ht _ _ _
  · split
    · exact .ite ((s.linksKept_setFld (f := TECCCNT_UE t) hcnt _).trans (State.linksKept_report _ _ _ _ _ _ _)) (.refl s)
    · exact .refl s

theorem State.linksKept_readMany {f : State → Nat → (Nat × Bool) × State} (os : List Nat) (s : State)
    (step : ∀ s, ∀ o ∈ os, ∀ b u, f s o = (b, u) → State.LinksKept s u) : State.LinksKept s (readMany f s os).2 := by
  induction os generalizing s with
  | nil => exact .refl s
  | cons o os ih => exact (step s o List.mem_cons_self _ _ rfl).trans (ih _ fun s o ho => step s o (List.mem_cons_of_mem _ ho))

/-- A range of memory lies in the stacks or in one tile's window. -/
theorem State.isMem_bounds {d n : Nat} (h : s.isMem d n = true) :
    (d < 0x8000000000 → d + n ≤ 0x8000000000) ∧ (¬ d < 0x8000000000 → tileBase 0 ≤ d ∧ d + n ≤ tileBase 2048) := by
  unfold State.isMem at h
  dsimp only at h
  split at h
  next hd =>
    have hfit := of_decide_eq_true (Bool.and_eq_true_iff.mp h).1
    exact ⟨fun _ => by omega, fun hnot => absurd hd hnot⟩
  next hd =>
    split at h
    next htile =>
      have hfit := of_decide_eq_true (Bool.and_eq_true_iff.mp (Bool.and_eq_true_iff.mp h).1).2
      simp only [tileBase] at htile hfit ⊢
      omega
    next => cases h

/-- The tile whose window holds a byte below the end of the last window. -/
theorem tileIn_lt {x : Nat} (h : x < tileBase 2048) : (x - tileBase 0) / 0x400000 < 2048 := by
  simp only [tileBase] at *
  omega

theorem State.linksKept_winBytes (s : State) {d n : Nat} (unit : Nat) (h : d + n ≤ tileBase 2048) :
    State.LinksKept s (readMany (fun s x => s.winByte ((x - tileBase 0) / 0x400000) ((x - tileBase 0) % 0x400000) unit) s
      ((List.range n).map fun i => d + i)).2 := by
  refine State.linksKept_readMany _ s fun s x hx b u hbyte => ?_
  obtain ⟨i, hi, hix⟩ := List.mem_map.mp hx
  have hlt := List.mem_range.mp hi
  have hin : x < tileBase 2048 := by omega
  have hkept := s.linksKept_winByte (tileIn_lt hin) ((x - tileBase 0) % 0x400000) unit
  rwa [hbyte] at hkept

theorem State.linksKept_memRead (s : State) {d n : Nat} (unit : Nat) (hstk : d < 0x8000000000 → d + n ≤ 0x8000000000)
    (htile : ¬ d < 0x8000000000 → tileBase 0 ≤ d ∧ d + n ≤ tileBase 2048) : State.LinksKept s (s.memRead d n unit).2 := by
  unfold State.memRead
  split
  next hd => exact s.linksKept_stkRead (Nat.le_trans (hstk hd) (by omega))
  next hd => exact s.linksKept_winBytes unit (htile hd).2

theorem State.linksKept_collRead (s : State) (a n : Nat) : State.LinksKept s (s.collRead a n).2 := by
  unfold State.collRead
  dsimp only
  split
  next hmem =>
    obtain ⟨hstk, htile⟩ := State.isMem_bounds hmem
    exact (State.LinksKept.ite (s.linksKept_countBurst _ n) (.refl s)).trans (State.linksKept_memRead _ _ hstk htile)
  next => exact .refl s

/-! ## Packets sent -/

theorem State.linksKept_sendPkt (s : State) (p : Pkt) : State.LinksKept s (s.sendPkt p) := (s.onlySent_sendPkt p).linksKept

theorem State.linksKept_collOut (s : State) (port : Option Nat) (p : Pkt) : State.LinksKept s (s.collOut port p) := by
  unfold State.collOut
  split
  · exact .of_eq rfl rfl
  · split
    · exact (s.txPacket_spec _ p).1.linksKept
    · exact s.linksKept_sendPkt p

theorem State.linksKept_farWrite (s : State) (src tile kind dst addr : Nat) (bs : List (Nat × Bool)) (dtk : Nat) (dtken : Bool) :
    State.LinksKept s (s.farWrite src tile kind dst addr bs dtk dtken).2 := by
  have hid : State.LinksKept s s.newId.2 := .of_eq rfl rfl
  have hkept : ∀ ws, State.LinksKept s { s.newId.2 with writes := ws } := fun ws => hid.trans (.of_eq rfl rfl)
  unfold State.farWrite
  dsimp only
  split
  · exact .ite ((hkept _).trans (State.linksKept_collOut _ none _)) ((hkept _).trans (State.linksKept_sendPkt _ _))
  · exact hid.trans (State.linksKept_sendPkt _ _)

theorem State.linksKept_farWrites (src tile kind dst dtk : Nat) (dtken : Bool) (ps : List (Nat × Nat)) (s : State) (bs : List (Nat × Bool)) :
    State.LinksKept s (s.farWrites src tile kind dst dtk dtken ps bs).2 := by
  induction ps generalizing s bs with
  | nil => exact .refl s
  | cons p ps ih => exact (s.linksKept_farWrite src tile kind dst p.1 _ dtk _).trans (ih _ _)

/-! ## Signals (R287 to R291) -/

theorem State.linksKept_sendSig (s : State) (dst : Nat) (r : List Nat) : State.LinksKept s (s.sendSig dst r) := s.linksKept_sendPkt _

theorem not_linkReg_collate : ¬ linkReg aFCOLLATE := by simp [linkReg, aFCOLLATE]

theorem State.linksKept_lateSig (s : State) (g gen : Nat) : State.LinksKept s (s.lateSig g gen) := by
  unfold State.lateSig
  exact (State.LinksKept.ite ((s.linksKept_primReport _ _ _ _).trans (State.linksKept_modGrp _ _ _)) (.refl s)).trans
    (State.linksKept_setFld _ (f := FCOLLATE_LATE) not_linkReg_collate _)

theorem State.linksKept_sigDeliver (s : State) (t gen w : Nat) : State.LinksKept s (s.sigDeliver t gen w) := by
  unfold State.sigDeliver
  split
  · exact s.linksKept_modTile t _
  · exact .refl s

theorem State.linksKept_sigEnd (s : State) (g : Nat) (p : SigPend) (w : Nat) : State.LinksKept s (s.sigEnd g p w).2 := by
  unfold State.sigEnd
  dsimp only
  exact ((State.linksKept_each (fun s r => s.linksKept_sendSig r _) _ s).trans
    (State.linksKept_each (fun s t => s.linksKept_sigDeliver t _ w) _ _)).trans (State.linksKept_modGrp _ _ _)

theorem State.linksKept_sigAdvance (s : State) (g : Nat) : State.LinksKept s (s.sigAdvance g).2 := by
  unfold State.sigAdvance
  split
  · exact .refl s
  · split
    · exact .refl s
    · dsimp only
      split
      · exact s.linksKept_sigEnd g _ _
      · dsimp only
        exact (s.linksKept_sendSig _ _).trans (State.linksKept_modGrp _ _ _)

theorem State.linksKept_sigAbandon (s : State) (g : Nat) : State.LinksKept s (s.sigAbandon g) := by
  unfold State.sigAbandon
  split
  · exact .refl s
  · refine ((((State.linksKept_each (fun s r => s.linksKept_sendSig r _) _ s).trans (State.linksKept_each (fun s t => ?_) _ _)).trans
      (State.linksKept_primReport _ _ _ _ _)).trans (State.linksKept_setFld _ (f := FCOLLATE_ABNDN) not_linkReg_collate _)).trans (State.linksKept_modGrp _ _ _)
    split
    · exact (s.linksKept_modTile t _).trans (State.linksKept_modTile _ t _)
    · exact .refl s

theorem State.linksKept_sigOpen (s : State) (g : Nat) (bar : Bool) (opk : Nat) (w64 : Bool) : State.LinksKept s (s.sigOpen g bar opk w64) := by
  unfold State.sigOpen
  exact .ite (.refl s) (s.linksKept_modGrp g _)

theorem State.linksKept_sigPermute (s : State) (g cid : Nat) : State.LinksKept s (s.sigPermute g cid).2 := by
  unfold State.sigPermute
  dsimp only
  split
  · exact s.linksKept_sigOpen g _ _ _
  · have hin := fun f => (s.linksKept_sigOpen g true 0 false).trans (State.linksKept_modGrp _ g f)
    split
    · exact (hin _).trans (State.linksKept_sigAdvance _ g)
    · exact (hin _).trans (State.linksKept_sigAbandon _ g)

theorem State.linksKept_sigUpNow (s : State) (src : Nat) (r : List Nat) : State.LinksKept s (s.sigUpNow src r).2 := by
  unfold State.sigUpNow
  dsimp only
  split
  · exact (s.linksKept_primReport _ _ _ _).trans (State.linksKept_lateSig _ _ _)
  · have hopen := s.linksKept_sigOpen (rGid r) (rBar r) (rOpk r) (rW64 r)
    split
    · exact hopen
    · split
      · exact hopen.trans (State.linksKept_sigAbandon _ _)
      · exact (hopen.trans (State.linksKept_modGrp _ _ _)).trans (State.linksKept_sigAdvance _ _)

theorem State.linksKept_sigDownNow (s : State) (r : List Nat) : State.LinksKept s (s.sigDownNow r).2 := by
  unfold State.sigDownNow
  dsimp only
  split
  · exact s.linksKept_lateSig _ _
  · split
    · exact s.linksKept_sigEnd _ _ _
    · exact s.linksKept_sigAbandon _

theorem State.linksKept_sigHold (s : State) (src : Nat) (r : List Nat) : State.LinksKept s (s.sigHold src r) := by
  unfold State.sigHold
  exact .ite (s.linksKept_modGrp _ _) (s.linksKept_sigAbandon _)

theorem State.linksKept_sigTake (s : State) (src : Nat) (r : List Nat) : State.LinksKept s (s.sigTake src r).2 := by
  unfold State.sigTake
  dsimp only
  split
  · split
    · exact s.linksKept_sigUpNow src r
    · split
      · exact s.linksKept_sigDownNow r
      · exact .ite (s.linksKept_sigAbandon _) (s.linksKept_sigHold src r)
  · split
    · exact s.linksKept_sigHold src r
    · split
      · exact s.linksKept_lateSig _ _
      · exact s.linksKept_sigAbandon _

theorem State.linksKept_sigDrain (n : Nat) (s : State) (g : Nat) : State.LinksKept s (s.sigDrain g n).2 := by
  induction n generalizing s with
  | zero => exact .refl s
  | succ n ih =>
    unfold State.sigDrain
    dsimp only
    split
    · exact .refl s
    · exact ((s.linksKept_modGrp g _).trans (State.linksKept_sigTake _ _ _)).trans (ih _)

theorem linksKept_sigThen (g : Nat) (a : Option Nat × State) : State.LinksKept a.2 (sigThen g a).2 := State.linksKept_sigDrain 5 a.2 g

end Sys2Proof.Machine
end

section
/-! SUPPORT. Collectives that go on or are abandoned leave the TAP and the ports' states alone (R296 to R312, R536). -/

namespace Sys2Proof.Machine

variable {s u v : State}

/-! ## Results that carry a collective -/

theorem State.LinksKept.snd_ite {α : Type} {c : Prop} [Decidable c] {a b : α × State} (ha : State.LinksKept s a.2) (hb : State.LinksKept s b.2) :
    State.LinksKept s (if c then a else b).2 := by
  split
  · exact ha
  · exact hb

/-- A packet that is taken keeps the TAP and the ports' states. -/
def State.TakeKeeps (s : State) (o : Option (Coll × State)) : Prop := ∀ a, o = some a → State.LinksKept s a.2

theorem State.takeKeeps_none (s : State) : s.TakeKeeps none := fun _ h => nomatch h

theorem State.LinksKept.takeKeeps {a : Coll × State} (h : State.LinksKept s a.2) : s.TakeKeeps (some a) := fun _ hb => Option.some.inj hb ▸ h

theorem State.TakeKeeps.ite {c : Prop} [Decidable c] {a b : Option (Coll × State)} (ha : s.TakeKeeps a) (hb : s.TakeKeeps b) :
    s.TakeKeeps (if c then a else b) := by
  split
  · exact ha
  · exact hb

/-! ## A collective's record and its end (R299, R307, R308) -/

theorem State.linksKept_putColl (s : State) (x : Coll) : State.LinksKept s (s.putColl x) := .of_eq rfl rfl

theorem State.linksKept_syncColl (s : State) : State.LinksKept s s.syncColl := by
  have hstat : ¬ linkReg aFCOLSTAT := by simp [linkReg, aFCOLSTAT]
  exact (s.linksKept_setFld (f := FCOLSTAT_ACTIVE) hstat _).trans (State.linksKept_setFld _ (f := FCOLSTAT_UBUSY) hstat _)

theorem State.linksKept_collEnd (s : State) (x : Coll) (st : Nat) : State.LinksKept s (s.collEnd x st) := by
  unfold State.collEnd
  extract_lets d circ rec a b c e
  have ha : State.LinksKept s a := .ite (s.linksKept_collWrite _ _) (.refl s)
  have hb : State.LinksKept a b := .ite (a.told_deliverCtx _ _ _).linksKept (.refl a)
  have hc : State.LinksKept b c := .ite (b.told_msix _ _).linksKept (.refl b)
  have he : State.LinksKept c e := .ite (.refl c) (c.linksKept_primReport _ _ _ _)
  refine (((ha.trans hb).trans hc).trans he).trans (State.LinksKept.trans ?_ (State.linksKept_syncColl _))
  exact .of_eq rfl rfl

theorem State.linksKept_collAbandon (s : State) (x : Coll) (st : Nat) : State.LinksKept s (s.collAbandon x st) := by
  unfold State.collAbandon
  extract_lets near a b
  have ha : State.LinksKept s a := State.linksKept_each (fun s r => s.linksKept_sendSig r _) _ s
  have hb : State.LinksKept a b := by
    refine State.LinksKept.trans ?_ (State.linksKept_setFld _ (f := FCOLLATE_ABNDN) not_linkReg_collate _)
    exact .of_eq rfl rfl
  exact (ha.trans hb).trans (b.linksKept_collEnd _ _)

theorem State.linksKept_collLate (s : State) (cid : Nat) : State.LinksKept s (s.collLate cid) := by
  unfold State.collLate
  refine State.LinksKept.trans (.ite ?_ (.refl s)) (State.linksKept_setFld _ (f := FCOLLATE_LATE) not_linkReg_collate _)
  refine State.LinksKept.trans ?_ (State.linksKept_primReport _ _ _ _ _)
  exact .of_eq rfl rfl

/-- An abandonment when the collective met LINK in sending. -/
theorem State.linksKept_dropped {c : Prop} [Decidable c] (h : State.LinksKept s u) (x : Coll) : State.LinksKept s (if c then u.collAbandon x 4 else u) :=
  .ite (h.trans (u.linksKept_collAbandon x 4)) h

/-! ## Circulation (R296 to R298) -/

theorem State.linksKept_collSend (s : State) (x : Coll) (kind pkt chunk : Nat) (bs : List (Nat × Bool)) :
    State.LinksKept s (s.collSend x kind pkt chunk bs).2 := by
  unfold State.collSend
  extract_lets k p a id b w q₀ q
  have hb : State.LinksKept s b := .of_eq rfl rfl
  have hkept : State.LinksKept b { b with writes := b.writes ++ [w] } := .of_eq rfl rfl
  exact .snd_ite (hb.trans (hkept.trans (State.linksKept_collOut { b with writes := b.writes ++ [w] } (some p) q))) hb

theorem State.linksKept_collSends (kind chunk : Nat) (bss : List (List (Nat × Bool))) (s : State) (x : Coll) (p : Nat) :
    State.LinksKept s (s.collSends x kind chunk p bss).2 := by
  induction bss generalizing s x p with
  | nil => exact .refl s
  | cons b bss ih => exact (s.linksKept_collSend x kind p chunk b).trans (ih _ _ _)

theorem State.linksKept_entryBytes (s : State) (x : Coll) (A : List Nat) (c p : Nat) : State.LinksKept s (s.entryBytes x A c p).2 :=
  (s.linksKept_collRead _ _).trans (State.linksKept_collRead _ _ _)

theorem State.linksKept_exitChunk (s : State) (x : Coll) (c : Nat) : State.LinksKept s (s.exitChunk x c).2 := by
  unfold State.exitChunk
  extract_lets k n r a y z e
  refine .snd_ite (.refl s) ?_
  have ha : State.LinksKept s a := (s.linksKept_collWrite _ _).trans (State.linksKept_collWrite _ _ _)
  exact .snd_ite ha ((ha.trans (a.linksKept_collSends _ _ _ _ _)).trans (State.linksKept_collSend _ _ _ _ _ _))

theorem State.linksKept_addPacket (s : State) (x : Coll) (c p : Nat) (bs : List (Nat × Bool)) : State.LinksKept s (s.addPacket x c p bs).2 := by
  have hsat : ¬ linkReg aFCOLSAT := by simp [linkReg, aFCOLSAT]
  unfold State.addPacket
  extract_lets k e r a b y z w
  refine .snd_ite (.refl s) ?_
  have ha : State.LinksKept s a := (s.linksKept_entryBytes x _ c p).trans (State.linksKept_each (fun s _ => s.linksKept_primReport _ _ _ _) _ _)
  have hb : State.LinksKept s b := ha.trans (a.linksKept_setFld (f := FCOLSAT_COUNT) hsat _)
  exact .snd_ite hb (hb.trans (b.linksKept_collSend _ _ _ _ _))

theorem State.linksKept_startChunk (s : State) (x : Coll) (c : Nat) : State.LinksKept s (s.startChunk x c).2 := by
  unfold State.startChunk
  extract_lets A
  refine .snd_ite (.refl s) (State.linksKept_foldl (fun a _ => ?_) _ (x, s))
  extract_lets e y k
  have he : State.LinksKept a.2 e.2 := a.2.linksKept_entryBytes _ _ _ _
  exact .snd_ite he (he.trans (e.2.linksKept_collSend _ _ _ _ _))

theorem State.linksKept_gatherPacket (s : State) (x : Coll) (c kind p : Nat) (bs : List (Nat × Bool)) :
    State.LinksKept s (s.gatherPacket x c kind p bs).2 := by
  unfold State.gatherPacket
  extract_lets k a b y z
  refine .snd_ite (.refl s) ?_
  have hb : State.LinksKept s b := s.linksKept_collWrite _ _
  exact .snd_ite hb (hb.trans (b.linksKept_collSend _ _ _ _ _))

theorem State.takeKeeps_circPacket (s : State) (x : Coll) (p : Pkt) : s.TakeKeeps (s.circPacket x p) := by
  unfold State.circPacket
  extract_lets c n kind i okLen
  refine .ite s.takeKeeps_none (.ite (.ite s.takeKeeps_none ?_) (.ite s.takeKeeps_none (s.linksKept_gatherPacket _ _ _ _ _).takeKeeps))
  cases (x.chunk c).agreed with
  | none => exact (State.LinksKept.refl s).takeKeeps
  | some A => exact ((s.linksKept_addPacket _ _ _ _).trans (State.linksKept_exitChunk _ _ _)).takeKeeps

/-! ## Pre-rounds (R296) -/

theorem State.linksKept_addPackets (c : Nat) (ps : List Pkt) (a : Coll × State) :
    State.LinksKept a.2 (ps.foldl (fun (q : Coll × State) p => q.2.addPacket q.1 c (caPkt p.addr) (pktData p)) a).2 :=
  State.linksKept_foldl (fun q _ => q.2.linksKept_addPacket q.1 c _ _) ps a

theorem State.linksKept_preDeliver (s : State) (x : Coll) (c : Nat) (A : List Nat) (ovf : Bool) : State.LinksKept s (s.preDeliver x c A ovf).2 := by
  unfold State.preDeliver
  extract_lets x₁ k x₂ v w a early k₂ x₃ b
  have hv : State.LinksKept s v := State.linksKept_each (fun s r => s.linksKept_sendSig r _) _ s
  have ha : State.LinksKept w a.2 := w.linksKept_startChunk x₂ c
  have hb : State.LinksKept a.2 b.2 := State.linksKept_addPackets c early (x₃, a.2)
  exact (((hv.trans (v.linksKept_collWrite _ _)).trans ha).trans hb).trans (b.2.linksKept_exitChunk b.1 c)

theorem State.linksKept_expBytes (s : State) (x : Coll) (c : Nat) : State.LinksKept s (s.expBytes x c).2 := by
  refine State.LinksKept.trans (s.linksKept_collRead (cdSrcx x.desc + 2048 * c) (x.blksOf c)) ?_
  exact .of_eq rfl rfl

theorem State.linksKept_preAdvance (s : State) (x : Coll) (c : Nat) : State.LinksKept s (s.preAdvance x c).2 := by
  unfold State.preAdvance
  extract_lets k kidsIn e up ovf y
  refine .snd_ite (.refl s) ?_
  have he : State.LinksKept s e.2 := s.linksKept_expBytes x c
  exact .snd_ite (he.trans (e.2.linksKept_preDeliver _ _ _ _)) (he.trans (e.2.linksKept_sendSig _ _))

theorem State.linksKept_enterFrom (n : Nat) (s : State) (x : Coll) (c : Nat) : State.LinksKept s (s.enterFrom x c n).2 := by
  induction n generalizing s x c with
  | zero => exact .refl s
  | succ n ih =>
    unfold State.enterFrom
    extract_lets k a
    refine .snd_ite (.refl s) (.snd_ite (ih s x (c + 1)) ?_)
    exact (s.linksKept_preAdvance _ _).trans (ih a.2 a.1 (c + 1))

theorem State.linksKept_collKeep (s : State) (a : Coll) : State.LinksKept s (s.collKeep a) := by
  unfold State.collKeep
  extract_lets r v
  have hr : State.LinksKept s r.2 := .snd_ite (s.linksKept_enterFrom _ _ _) (.refl s)
  exact State.linksKept_dropped (hr.trans (r.2.linksKept_putColl _)) _

/-! ## All-gather, broadcast and permute (R301 to R303) -/

theorem State.linksKept_bytesStart (s : State) (x : Coll) : State.LinksKept s (s.bytesStart x).2 := by
  unfold State.bytesStart
  refine .snd_ite (.refl s) ?_
  extract_lets r lo v y
  have hv : State.LinksKept s v := (s.linksKept_collRead _ _).trans (r.2.linksKept_collWrite _ _)
  exact .snd_ite hv (hv.trans (State.linksKept_foldl (fun a _ => a.2.linksKept_collSend _ _ _ _ _) _ (y, v)))

theorem State.takeKeeps_bytesPacket (s : State) (x : Coll) (p : Pkt) : s.TakeKeeps (s.bytesPacket x p) := by
  unfold State.bytesPacket
  extract_lets u up hit
  cases hit with
  | none => exact s.takeKeeps_none
  | some h =>
    refine .ite s.takeKeeps_none ?_
    extract_lets v y z
    have hv : State.LinksKept s v := s.linksKept_collWrite _ _
    exact .ite hv.takeKeeps (hv.trans (v.linksKept_collSend _ _ _ _ _)).takeKeeps

theorem State.linksKept_moves (s : State) (d : List Nat) : State.LinksKept s (s.moves d).2 := s.linksKept_collRead _ _

theorem State.linksKept_stageMoves (ms : List (Nat × Nat × Nat × Nat)) (s : State) (a : Nat) : State.LinksKept s (s.stageMoves a ms).2 := by
  induction ms generalizing s a with
  | nil => exact .refl s
  | cons m ms ih => exact ((s.linksKept_collRead _ _).trans (State.linksKept_collWrite _ _ _)).trans (ih _ _)

theorem State.linksKept_sendMoves (ms : List (Nat × Nat × Nat × Nat)) (s : State) (x : Coll) (a : Nat) : State.LinksKept s (s.sendMoves x a ms).2 := by
  induction ms generalizing s x a with
  | nil => exact .refl s
  | cons m ms ih =>
    unfold State.sendMoves
    dsimp only
    split
    · exact ((s.linksKept_collRead _ _).trans (State.linksKept_collWrite _ _ _)).trans (ih _ _ _)
    · exact ((s.linksKept_collRead _ _).trans (State.linksKept_farWrites _ _ _ _ _ _ _ _ _)).trans (ih _ _ _)

/-- A permute's barrier is entered. -/
theorem State.linksKept_barrier (s : State) (x : Coll) (g cid : Nat) : State.LinksKept s (sigThen g ((s.putColl x).sigPermute g cid)).2 :=
  ((s.linksKept_putColl x).trans (State.linksKept_sigPermute _ g cid)).trans (linksKept_sigThen g _)

theorem State.linksKept_permuteOn (s : State) (x : Coll) : State.LinksKept s (s.permuteOn x).2 := by
  have hmoved : ∀ y a ms z, State.LinksKept s (((s.moves x.desc).2.sendMoves y a ms).2.putColl z) := fun y a ms z =>
    ((s.linksKept_moves _).trans (State.linksKept_sendMoves ms _ y a)).trans (State.linksKept_putColl _ z)
  unfold State.permuteOn
  dsimp only
  split
  · split
    · exact (hmoved _ _ _ _).trans (State.linksKept_collAbandon _ _ _)
    · split
      · exact (hmoved _ _ _ _).trans (State.linksKept_barrier _ _ _ _)
      · exact hmoved _ _ _ _
  · split
    · split
      · exact s.linksKept_barrier _ _ _
      · exact .refl s
    · exact s.linksKept_putColl _

theorem State.linksKept_permutes (n : Nat) (s : State) (cids : List Nat) : State.LinksKept s (s.permutes n cids) := by
  induction n generalizing s cids with
  | zero => exact .refl s
  | succ n ih =>
    unfold State.permutes
    split
    · exact .refl s
    · split
      · exact ih _ _
      · exact (s.linksKept_permuteOn _).trans (ih _ _)

theorem linksKept_sigRun (a : List Nat × State) : State.LinksKept a.2 (State.sigRun a) := State.linksKept_permutes 64 a.2 a.1

/-! ## Submission (R297, R304, R306) -/

theorem State.linksKept_preTake (s : State) (x : Coll) (src : Nat) (r : List Nat) : State.LinksKept s (s.preTake x src r) := by
  unfold State.preTake
  dsimp only
  split
  · exact s.linksKept_collAbandon _ _
  · split
    · split
      · exact .refl s
      · exact (s.linksKept_preAdvance _ _).trans (State.linksKept_collKeep _ _)
    · split
      · exact .refl s
      · exact (s.linksKept_preDeliver _ _ _ _).trans (State.linksKept_collKeep _ _)

theorem State.linksKept_taken (s : State) (x : Coll) (o : Option (Coll × State)) :
    s.TakeKeeps o → State.LinksKept s (match o with | none => s.collAbandon x 1 | some a => a.2.collKeep a.1) := by
  intro h
  cases o with
  | none => exact s.linksKept_collAbandon _ _
  | some a => exact (h a rfl).trans (a.2.linksKept_collKeep _)

theorem State.linksKept_collTake (s : State) (x : Coll) (p : Pkt) : State.LinksKept s (s.collTake x p) := by
  unfold State.collTake
  extract_lets r
  refine s.linksKept_taken x r ?_
  unfold r
  split
  · exact s.takeKeeps_circPacket x p
  · exact s.takeKeeps_bytesPacket x p
  · exact s.takeKeeps_bytesPacket x p
  · exact s.takeKeeps_none

theorem State.linksKept_takeHeld (s : State) (cid : Nat) : State.LinksKept s (s.takeHeld cid) := by
  unfold State.takeHeld
  extract_lets ps rs v w
  have hv : State.LinksKept s v := .of_eq rfl rfl
  have hw : State.LinksKept v w := by
    refine State.linksKept_each (fun s r => ?_) _ _
    split
    · exact s.linksKept_preTake _ _ _
    · exact s.linksKept_collLate _
  refine (hv.trans hw).trans (State.linksKept_each (fun s p => ?_) _ _)
  split
  · exact (s.linksKept_collTake _ _).trans (State.linksKept_sendPkt _ _)
  · exact (s.linksKept_collLate _).trans (State.linksKept_sendPkt _ _)

theorem State.linksKept_collStart (s : State) (c : Nat) (d : List Nat) (fused : Bool) : State.LinksKept s (s.collStart c d fused) := by
  unfold State.collStart
  extract_lets x a m r q b
  have ha : State.LinksKept s a := by
    refine State.LinksKept.trans ?_ (State.linksKept_syncColl _)
    exact .of_eq rfl rfl
  have hb : State.LinksKept a b := by
    unfold b
    split
    · exact a.linksKept_collKeep _
    · exact (((a.linksKept_moves _).trans (State.linksKept_stageMoves _ _ _)).trans (State.linksKept_barrier _ _ _ _)).trans (linksKept_sigRun _)
    · exact (a.linksKept_bytesStart _).trans (State.linksKept_collKeep _ _)
  exact (ha.trans hb).trans (State.linksKept_takeHeld _ _)

theorem State.linksKept_primReport_if (s : State) (c : Bool) (typ sev addr detail : Nat) :
    State.LinksKept s (if c then s.primReport typ sev addr detail else s) := .ite (s.linksKept_primReport _ _ _ _) (.refl s)

theorem State.linksKept_collSubmit (s : State) (c path d : Nat) : State.LinksKept s (s.collSubmit c path d).2 := by
  unfold State.collSubmit
  refine .snd_ite (.refl s) (.snd_ite (.refl s) ?_)
  extract_lets r ds a st imp b used e f x live v
  have ha : State.LinksKept s a := s.linksKept_collRead d 128
  refine .snd_ite ha ?_
  have hb : State.LinksKept s b := ha.trans (a.linksKept_primReport_if _ _ _ _ _)
  have he : State.LinksKept s e := hb.trans (b.linksKept_primReport_if _ _ _ _ _)
  have hf : State.LinksKept s f := he.trans (e.linksKept_primReport_if _ _ _ _ _)
  have hv : State.LinksKept s v := hf.trans (f.linksKept_collEnd x st)
  clear_value v f
  have hlive : State.LinksKept v { v with colls := live } := .of_eq rfl rfl
  exact .snd_ite (hf.trans (f.linksKept_collStart _ _ _)) ((hv.trans hlive).trans (State.linksKept_syncColl _))

theorem State.linksKept_collNext (n : Nat) (s : State) : State.LinksKept s (s.collNext n) := by
  induction n generalizing s with
  | zero => exact .refl s
  | succ n ih =>
    unfold State.collNext
    split
    · exact .refl s
    · split
      · exact .refl s
      · refine (State.LinksKept.trans ?_ (State.linksKept_collSubmit _ _ _ _)).trans (ih _)
        exact .of_eq rfl rfl

theorem State.linksKept_collPortDown (s : State) (p : Nat) : State.LinksKept s (s.collPortDown p) :=
  (State.linksKept_each (fun s x => s.linksKept_collAbandon x 4) _ s).trans (State.linksKept_collNext 16 _)

end Sys2Proof.Machine
end

section
/-! SUPPORT. Ports that go down, the debug port's instructions, and the wrapper of a stack in and outside test state (R231, R253, R262, R536). -/

namespace Sys2Proof.Machine

variable {s u v : State}

/-! ## A port goes down (R253, R262) -/

theorem linkReg_aFPSTAT {p : Nat} (hp : p < 8) : linkReg (aFPSTAT p) := by
  simp only [linkReg, aFPSTAT]
  omega

theorem State.LinksKept.state (h : State.LinksKept s u) {p : Nat} (hp : p < 8) : u.fld (FPSTAT_STATE p) = s.fld (FPSTAT_STATE p) :=
  State.fld_of_reg (h.regs _ (linkReg_aFPSTAT hp))

theorem State.portUp_eq_false_iff (s : State) (p : Nat) : s.portUp p = false ↔ s.fld (FPSTAT_STATE p) ≠ 4 := by
  rw [State.portUp, beq_eq_false_iff_ne]

theorem State.LinksKept.portUp (h : State.LinksKept s u) {p : Nat} (hp : p < 8) : u.portUp p = s.portUp p := by
  rw [State.portUp, State.portUp, h.state hp]

theorem State.portUp_congr (h : u.regs = s.regs) (p : Nat) : u.portUp p = s.portUp p := by
  rw [State.portUp, State.portUp, State.fld_of_reg (State.reg_congr h _)]

/-- What follows the change of a port's state when it leaves service. -/
theorem State.linksKept_portStop (s : State) (p st : Nat) : State.LinksKept (s.setFld (FPSTAT_STATE p) st) (s.portStop p st) := by
  have hcleared : ∀ v : State, State.LinksKept v (v.modPort p Port.clear) := fun v => .of_eq rfl rfl
  unfold State.portStop
  exact ((hcleared _).trans (State.linksKept_each (fun v q => (v.onlySent_routeOut q).linksKept) _ _)).trans (State.linksKept_collPortDown _ p)

/-- What a port tells when it goes down without a cause. -/
def State.downTold (s : State) (p : Nat) : State :=
  if s.fld (FPSTAT_STATE p) == 4 || s.fld (FPSTAT_STATE p) == 5 then s.portReport p 0x40 2 (min 65535 (s.port p).unacked.length) else s

theorem State.portDown_zero (s : State) (p : Nat) : s.portDown p 0 = ((s.downTold p).setFld (FPSTAT_DCAUSE p) 0).portStop p 6 := by
  unfold State.portDown
  extract_lets was lost a b c
  have hb : b = a := if_pos (.inl rfl)
  have hc : c = b := if_pos rfl
  rw [hc, hb]
  rfl

theorem State.linksKept_downTold (s : State) (p : Nat) : State.LinksKept s (s.downTold p) := .ite (s.linksKept_report _ _ _ _ _ _) (.refl s)

theorem State.tap_portDown (s : State) (p : Nat) : (s.portDown p 0).tap = s.tap := by
  rw [State.portDown_zero, (State.linksKept_portStop _ p 6).tap, State.setFld_tap, State.setFld_tap, (s.linksKept_downTold p).tap]

theorem State.portUp_portDown_same (s : State) {p : Nat} (hp : p < 8) : (s.portDown p 0).portUp p = false := by
  rw [State.portDown_zero, (State.linksKept_portStop _ p 6).portUp hp, State.portUp_eq_false_iff, State.fld_setFld_same _ _ _ (by decide : 0 + 3 ≤ 64)]
  exact (by decide : 6 % 2 ^ 3 ≠ 4)

theorem State.portUp_portDown_ne (s : State) {p q : Nat} (hq : q < 8) (hne : q ≠ p) : (s.portDown p 0).portUp q = s.portUp q := by
  have hstate : (FPSTAT_STATE p).apart (FPSTAT_STATE q) = true := by
    simp [Fld.apart, FPSTAT_STATE, aFPSTAT]
    omega
  have hcause : (FPSTAT_DCAUSE p).apart (FPSTAT_STATE q) = true := by simp [Fld.apart, FPSTAT_STATE, FPSTAT_DCAUSE]
  rw [State.portDown_zero, (State.linksKept_portStop _ p 6).portUp hq, State.portUp, State.fld_setFld_apart _ _ hstate,
    State.fld_setFld_apart _ _ hcause, (s.linksKept_downTold p).state hq, State.portUp]

/-! ## The pins are taken (R536) -/

/-- A link goes down unless it is disabled or down. -/
def State.dropLink (s : State) (p : Nat) : State := if s.fld (FPSTAT_STATE p) = 0 ∨ s.fld (FPSTAT_STATE p) = 6 then s else s.portDown p 0

theorem State.tap_dropLink (s : State) (p : Nat) : (s.dropLink p).tap = s.tap := by
  unfold State.dropLink
  split
  · rfl
  · exact s.tap_portDown p

theorem State.portUp_dropLink_same (s : State) {p : Nat} (hp : p < 8) : (s.dropLink p).portUp p = false := by
  unfold State.dropLink
  split
  next h =>
    rw [State.portUp_eq_false_iff]
    omega
  next => exact s.portUp_portDown_same hp

theorem State.portUp_dropLink_ne (s : State) {p q : Nat} (hq : q < 8) (hne : q ≠ p) : (s.dropLink p).portUp q = s.portUp q := by
  unfold State.dropLink
  split
  · rfl
  · exact s.portUp_portDown_ne hq hne

theorem State.tap_dropLinks (l : List Nat) (s : State) : (s.each l State.dropLink).tap = s.tap := by
  induction l generalizing s with
  | nil => rfl
  | cons p l ih => rw [State.each_cons, ih, State.tap_dropLink]

/-- A link that is down stays down while others are dropped. -/
theorem State.portUp_dropLinks (l : List Nat) (s : State) {q : Nat} (hq : q < 8) (h : q ∈ l ∨ s.portUp q = false) :
    (s.each l State.dropLink).portUp q = false := by
  induction l generalizing s with
  | nil => exact h.resolve_left List.not_mem_nil
  | cons p l ih =>
    rw [State.each_cons]
    refine ih _ ?_
    by_cases hqp : q = p
    · subst hqp
      exact .inr (s.portUp_dropLink_same hq)
    · rw [State.portUp_dropLink_ne _ hq hqp]
      exact h.imp_left fun hin => (List.mem_cons.mp hin).resolve_left hqp

theorem State.linksKept_farLink (s : State) {p : Nat} (hp : p < 2) (up : Bool) : State.LinksKept s (s.farLink p up) := by
  have hfar : ¬ linkReg (aXPSTAT p) := by simp only [linkReg, aXPSTAT]; omega
  unfold State.farLink
  exact .ite (.refl s) (.ite ((s.linksKept_setFld (f := XPSTAT_UP p) hfar _).trans (State.linksKept_report _ _ _ _ _ _ _))
    ((s.linksKept_setFld (f := XPSTAT_UP p) hfar _).trans (State.linksKept_report _ _ _ _ _ _ _)))

theorem State.linksKept_pcieDown (s : State) : State.LinksKept s s.pcieDown := by
  have hlink : ¬ linkReg aHLINK := by simp [linkReg, aHLINK]
  unfold State.pcieDown
  exact .ite (((s.linksKept_setFld (f := HLINK_UP) hlink _).trans (State.linksKept_setFld _ (f := HLINK_DOWNS) hlink _)).trans
    (State.linksKept_report _ _ _ _ _ _ _)) (.refl s)

/-! ## TAP instructions -/

/-- The TAP with another instruction. -/
def State.withIr (s : State) (ir : Nat) : State := { s with tap := { s.tap with ir := ir } }

theorem State.tapIr_of_quiet (s : State) {ir : Nat} (h : ir < 4 ∨ 8 < ir) : s.tapIr ir = s.withIr ir := by
  have hpins : (s.withIr ir).pinsOff = false := by
    rw [State.pinsOff, State.withIr]
    simp only [Bool.and_eq_false_iff, decide_eq_false_iff_not]
    omega
  exact if_neg (ne_true_of_eq_false hpins)

theorem State.tapIr_of_pins (s : State) {ir : Nat} (h : 4 ≤ ir ∧ ir ≤ 8) :
    s.tapIr ir = (((((s.withIr ir).each (List.range 8) State.dropLink).farLink 0 false).farLink 1 false).pcieDown) := by
  have hpins : (s.withIr ir).pinsOff = true := by
    rw [State.pinsOff, State.withIr]
    simpa using h
  exact if_pos hpins

theorem State.tapIr_pins_spec (s : State) {ir : Nat} (h : 4 ≤ ir ∧ ir ≤ 8) :
    (s.tapIr ir).tap = { s.tap with ir := ir } ∧ ∀ p < 8, (s.tapIr ir).portUp p = false := by
  have hlast : State.LinksKept ((s.withIr ir).each (List.range 8) State.dropLink) (s.tapIr ir) := by
    rw [State.tapIr_of_pins s h]
    exact ((State.linksKept_farLink _ (by decide) false).trans (State.linksKept_farLink _ (by decide) false)).trans (State.linksKept_pcieDown _)
  refine ⟨by rw [hlast.tap, State.tap_dropLinks]; rfl, fun p hp => ?_⟩
  rw [hlast.portUp hp]
  exact State.portUp_dropLinks _ _ hp (.inl (List.mem_range.mpr hp))

theorem State.sent_tdo (s : State) (n k : Nat) : (s.tdo n k).sent = s.sent ++ [.tdo (tdoBits n k)] := s.emit_sent _

theorem State.tapAnswers_tdo (s : State) {ir : Nat} (h : ir < 4 ∨ 8 < ir) (n k : Nat) : tapAnswers ir (tdoBits n k) s ((s.tapIr ir).tdo n k) := by
  rw [s.tapIr_of_quiet h]
  exact ⟨rfl, rfl, State.sameRegs_of_regs rfl _, State.sameMem_of_stores rfl rfl rfl, rfl, rfl⟩

theorem State.boundary_spec (s : State) {ir : Nat} (h : 4 ≤ ir ∧ ir ≤ 8) (a w : BitVec 918) :
    (s.boundary ir a w).tap = ⟨ir, s.tap.sel, w.toNat⟩ ∧ (s.boundary ir a w).sent.getLast? = some (.tdo (tdoBits 918 a.toNat))
      ∧ ∀ p < 8, (s.boundary ir a w).portUp p = false := by
  obtain ⟨htap, hdown⟩ := s.tapIr_pins_spec h
  unfold State.boundary
  generalize s.tapIr ir = v at htap hdown ⊢
  refine ⟨?_, List.getLast?_concat .., fun p hp => (State.portUp_congr rfl p).trans (hdown p hp)⟩
  show (⟨v.tap.ir, v.tap.sel, w.toNat⟩ : Tap) = _
  rw [htap]

/-- CLAMP and HIGHZ. -/
theorem State.tapIr_bypassed_spec (s : State) {ir : Nat} (h : 4 ≤ ir ∧ ir ≤ 8) :
    ((s.tapIr ir).tdo 1 0).tap = { s.tap with ir := ir } ∧ ((s.tapIr ir).tdo 1 0).sent.getLast? = some (.tdo [0])
      ∧ ∀ p < 8, ((s.tapIr ir).tdo 1 0).portUp p = false := by
  obtain ⟨htap, hdown⟩ := s.tapIr_pins_spec h
  generalize s.tapIr ir = v at htap hdown ⊢
  exact ⟨htap, List.getLast?_concat .., fun p hp => (State.portUp_congr rfl p).trans (hdown p hp)⟩

/-! ## A stack's wrapper -/

/-- The wrapper of stack st holds instruction w. -/
def State.wired (s : State) (st w : Nat) : State := s.modStack st fun x => { x with wir := w }

theorem State.stackU_wired (s : State) (st w : Nat) : (s.wired st w).stackU st = { s.stackU st with wir := w } := s.stackU_modStack_same st _

theorem State.flag_wired (s : State) (st w : Nat) (f : Fld) : (s.wired st w).flag f = s.flag f :=
  State.flag_of_reg (State.reg_congr (State.modStack_regs _ _ _) _)

theorem State.wrap_in {st : Nat} (h : s.wrapAt st true) (wir : Nat) (f : State → Nat → State) : s.wrap wir f = f (s.wired st (wirCode wir)) st := by
  obtain ⟨hir, rfl, htest⟩ := h
  have hflag : (s.wired s.tap.sel (wirCode wir)).flag (SSTAT_TEST s.tap.sel) = true := (s.flag_wired _ _ _).trans htest
  exact (if_neg (not_not_intro hir)).trans (if_pos hflag)

theorem State.wrap_out {st : Nat} (h : s.wrapAt st false) (wir : Nat) (f : State → Nat → State) :
    s.wrap wir f = (s.wired st (wirCode wir)).tdo 1 0 := by
  obtain ⟨hir, rfl, htest⟩ := h
  have hflag : ¬ (s.wired s.tap.sel (wirCode wir)).flag (SSTAT_TEST s.tap.sel) = true := by
    rw [s.flag_wired, htest]
    decide
  exact (if_neg (not_not_intro hir)).trans (if_neg hflag)

/-- The wrappers changed the stacks' units and shifted bits out, no more. -/
def State.WrapOnly (s u : State) : Prop := s.sameRegs u [] ∧ s.sameMem u

theorem State.WrapOnly.trans (h : State.WrapOnly s u) (k : State.WrapOnly u v) : State.WrapOnly s v := ⟨State.sameRegs_trans h.1 k.1, h.2.trans k.2⟩

theorem State.wrapOnly_modStack (s : State) (st : Nat) (f : Stack → Stack) : State.WrapOnly s (s.modStack st f) :=
  ⟨State.sameRegs_of_regs (State.modStack_regs _ _ _) _, s.sameMem_modStack st f⟩

theorem State.wrapOnly_emit (s : State) (o : Out) : State.WrapOnly s (s.emit o) := (s.emit_spec o).2

theorem State.wrapOnly_wired (s : State) (st w : Nat) : State.WrapOnly s (s.wired st w) := s.wrapOnly_modStack st _

theorem State.stackU_emit (s : State) (o : Out) (st : Nat) : (s.emit o).stackU st = s.stackU st := State.stackU_congr (s.emit_stx o) st

end Sys2Proof.Machine

namespace Sys2Proof.Proofs
open Sys2Proof Sys2Proof.Machine

theorem gives_preload (s : State) (w : BitVec 918) : Gives (exec (.preload w) s) fun u =>
    u.tap = ⟨3, s.tap.sel, w.toNat⟩ ∧ u.sent = s.sent ∧ s.sameRegs u [] ∧ s.sameMem u := by
  have hexec : exec (.preload w) s = .next { s.tapIr 3 with tap := { (s.tapIr 3).tap with bsr := w.toNat } } := rfl
  rw [hexec, s.tapIr_of_quiet (.inl (by decide))]
  exact ⟨_, rfl, rfl, rfl, State.sameRegs_of_regs rfl _, State.sameMem_of_stores rfl rfl rfl⟩

theorem gives_stkwrap (s : State) (sel : BitVec 3) : Gives (exec (.stkwrap sel) s) fun u =>
    u.tap = ⟨0x10, sel.toNat, s.tap.bsr⟩ ∧ u.sent = s.sent ∧ s.sameRegs u [] ∧ s.sameMem u := by
  have hexec : exec (.stkwrap sel) s = .next { s.tapIr 0x10 with tap := { (s.tapIr 0x10).tap with sel := sel.toNat } } := rfl
  rw [hexec, s.tapIr_of_quiet (.inr (by decide))]
  exact ⟨_, rfl, rfl, rfl, State.sameRegs_of_regs rfl _, State.sameMem_of_stores rfl rfl rfl⟩

/-! ## The wrapper of a stack in test state (R231, R232) -/

section
variable {s : State} {st : Nat} (h : s.wrapAt st true)
include h

theorem gives_wsBypass : Gives (exec .wsBypass s) fun u =>
    u.sent = s.sent ++ [.tdo [0]] ∧ u.stackU st = { s.stackU st with wir := 0 } ∧ s.sameRegs u [] ∧ s.sameMem u :=
  ⟨_, congrArg Host.Outcome.next (State.wrap_in h 0 _), rfl, (State.stackU_emit _ _ _).trans (s.stackU_wired st 0),
    (s.wrapOnly_wired st 0).trans (State.wrapOnly_emit _ _)⟩

theorem gives_wsExtest (v : WScan) : Gives (exec (.wsExtest v) s) fun u =>
    u.stackU st = { s.stackU st with wir := 1, wbr := v.drive } ∧ u.sent = s.sent ++ [.tdo v.pins] ∧ s.sameRegs u [] ∧ s.sameMem u := by
  refine ⟨_, congrArg Host.Outcome.next (State.wrap_in h 1 _), ?_, rfl,
    ((s.wrapOnly_wired st _).trans (State.wrapOnly_emit _ _)).trans (State.wrapOnly_modStack _ st _)⟩
  rw [State.stackU_modStack_same, State.stackU_emit, State.stackU_wired]
  rfl

theorem gives_rpRead (ch : BitVec 5) (set : BitVec 7) : Gives (exec (.rpRead ch set) s) fun u =>
    u.stackU st = { s.stackU st with wir := 0x10 } ∧ s.sameRegs u [] ∧ s.sameMem u ∧ u.sent = s.sent ++ [.tdo (tdoBits 64
      (Config.repairWord (ch.toNat * 128 + set.toNat) ((s.stackU st).spares ch.toNat true) ((s.stackU st).spares ch.toNat false)).toNat)] := by
  have hframe := fun o => (s.wrapOnly_wired st 0x10).trans (State.wrapOnly_emit _ o)
  refine ⟨_, congrArg Host.Outcome.next (State.wrap_in h 0x10 _), (State.stackU_emit _ _ _).trans (s.stackU_wired st 0x10), (hframe _).1, (hframe _).2, ?_⟩
  rw [State.sent_tdo, State.stackU_wired]
  rfl

theorem gives_rpStage (ch : BitVec 5) (addr : Nat) (row : Bool) (hspare : (s.stackU st).spares ch.toNat row ≠ 0) :
    Gives (exec (.rpStage ch addr row) s) fun u =>
      u.stackU st = { s.stackU st with wir := 0x11, staged := (s.stackU st).staged ++ [(ch.toNat, addr, row)] } ∧ s.sameRegs u [] ∧ s.sameMem u := by
  have hleft : ¬ ((s.wired st (wirCode 0x11)).stackU st).spares ch.toNat row = 0 := by
    rw [State.stackU_wired]
    exact hspare
  refine ⟨_, congrArg Host.Outcome.next ((State.wrap_in h 0x11 _).trans (if_neg hleft)), ?_,
    (s.wrapOnly_wired st _).trans (State.wrapOnly_modStack _ st _)⟩
  rw [State.stackU_modStack_same, State.stackU_wired]
  rfl

theorem gives_rpFuse (ch : BitVec 5) (hidle : (s.stackU st).fusing = none) : Gives (exec (.rpFuse ch) s) fun u =>
    u.stackU st = { s.stackU st with wir := 0x12, fusing := some ch.toNat, fuseFail := false }
      ∧ u.sent = s.sent ++ [.tdo (tdoBits 64 (Config.burnWord (s.stackU st).fuseFail).toNat)] ∧ s.sameRegs u [] ∧ s.sameMem u := by
  have hunit : ∀ o, ((s.wired st (wirCode 0x12)).emit o).stackU st = { s.stackU st with wir := wirCode 0x12 } := fun o =>
    (State.stackU_emit _ _ _).trans (s.stackU_wired st _)
  have hfree : ∀ o, ¬ (((s.wired st (wirCode 0x12)).emit o).stackU st).fusing.isSome = true := fun o => by
    rw [hunit, hidle]
    decide
  refine ⟨_, congrArg Host.Outcome.next ((State.wrap_in h 0x12 _).trans (if_neg (hfree _))), ?_, ?_,
    ((s.wrapOnly_wired st _).trans (State.wrapOnly_emit _ _)).trans (State.wrapOnly_modStack _ st _)⟩
  · rw [State.stackU_modStack_same]
    exact (congrArg (fun x : Stack => { x with fusing := some ch.toNat, fuseFail := false }) (hunit _)).trans rfl
  · rw [State.modStack_sent, State.sent_tdo, State.stackU_wired]
    rfl

theorem gives_rpMapout (ch : BitVec 5) : Gives (exec (.rpMapout ch) s) fun u =>
    u.stackU st = { s.stackU st with wir := 0x13, mapFuse := (s.stackU st).mapFuse ||| 2 ^ ch.toNat } ∧ s.sameRegs u [] ∧ s.sameMem u := by
  refine ⟨_, congrArg Host.Outcome.next (State.wrap_in h 0x13 _), ?_, (s.wrapOnly_wired st _).trans (State.wrapOnly_modStack _ st _)⟩
  rw [State.stackU_modStack_same, State.stackU_wired]
  rfl

theorem gives_mbRun (mask : BitVec 32) : Gives (exec (.mbRun mask) s) fun u =>
    u.stackU st = { s.stackU st with wir := 0x20, mbrun := some mask.toNat } ∧ s.sameRegs u [] ∧ s.sameMem u := by
  refine ⟨_, congrArg Host.Outcome.next (State.wrap_in h 0x20 _), ?_, (s.wrapOnly_wired st _).trans (State.wrapOnly_modStack _ st _)⟩
  rw [State.stackU_modStack_same, State.stackU_wired]
  rfl

theorem gives_mbResult : Gives (exec .mbResult s) fun u =>
    u.stackU st = { s.stackU st with wir := 0x21 }
      ∧ u.sent = s.sent ++ [.tdo (tdoBits 128 (Config.arrayWord (s.stackU st).mbres (s.stackU st).mbaddr).toNat)] ∧ s.sameRegs u [] ∧ s.sameMem u := by
  refine ⟨_, congrArg Host.Outcome.next (State.wrap_in h 0x21 _), (State.stackU_emit _ _ _).trans (s.stackU_wired st 0x21), ?_,
    (s.wrapOnly_wired st _).trans (State.wrapOnly_emit _ _)⟩
  rw [State.sent_tdo, State.stackU_wired]
  rfl

end

/-! ## Outside test state, and what ends later -/

theorem gives_bypassed {s : State} {st : Nat} (h : s.wrapAt st false) (wir : Nat) (f : State → Nat → State) :
    Gives (.next (s.wrap wir f)) fun u => u.sent = s.sent ++ [.tdo [0]] ∧ (∃ w, u.stackU st = { s.stackU st with wir := w }) ∧ s.sameRegs u [] ∧ s.sameMem u := by
  rw [s.wrap_out h]
  exact ⟨_, rfl, rfl, ⟨wirCode wir, (State.stackU_emit _ _ _).trans (s.stackU_wired st _)⟩, (s.wrapOnly_wired st _).trans (State.wrapOnly_emit _ _)⟩

theorem exec_rpFuseDone {s : State} {st ch : Nat} (h : (s.stackU st).fusing = some ch) (ok : Bool) :
    exec (.rpFuseDone st ok) s = .next (if ok then s.modStack st fun x => { x with
        fusing := none
        repaired := x.repaired ++ x.staged.filter fun (r : Nat × Nat × Bool) => r.1 == ch
        staged := x.staged.filter fun (r : Nat × Nat × Bool) => r.1 != ch }
      else s.modStack st fun x => { x with fusing := none, fuseFail := true }) := by
  show execRpFuseDone st ok s = _
  unfold execRpFuseDone
  rw [h]

theorem gives_rpFuseDone_ok {s : State} {st ch : Nat} (h : (s.stackU st).fusing = some ch) : Gives (exec (.rpFuseDone st true) s) fun u =>
    (u.stackU st).fusing = none ∧ (∀ r, r ∈ (u.stackU st).repaired ↔ r ∈ (s.stackU st).repaired ∨ (r ∈ (s.stackU st).staged ∧ r.1 = ch))
      ∧ (∀ r, r ∈ (u.stackU st).staged ↔ r ∈ (s.stackU st).staged ∧ r.1 ≠ ch) ∧ s.sameRegs u [] ∧ s.sameMem u := by
  rw [exec_rpFuseDone h, if_pos rfl]
  refine ⟨_, rfl, ?_, fun r => ?_, fun r => ?_, s.wrapOnly_modStack st _⟩ <;> rw [State.stackU_modStack_same]
  · rw [List.mem_append, List.mem_filter, beq_iff_eq]
  · rw [List.mem_filter, bne_iff_ne]

theorem gives_rpFuseDone_failed {s : State} {st ch : Nat} (h : (s.stackU st).fusing = some ch) : Gives (exec (.rpFuseDone st false) s) fun u =>
    u.stackU st = { s.stackU st with fusing := none, fuseFail := true } ∧ s.sameRegs u [] ∧ s.sameMem u := by
  rw [exec_rpFuseDone h, if_neg Bool.false_ne_true]
  exact ⟨_, rfl, State.stackU_modStack_same _ st _, s.wrapOnly_modStack st _⟩

theorem gives_mbRunDone {s : State} {st m : Nat} (h : (s.stackU st).mbrun = some m) (fails : BitVec 32) (addr : Nat) :
    Gives (exec (.mbRunDone st fails addr) s) fun u =>
      u.stackU st = { s.stackU st with mbrun := none, mbres := m &&& fails.toNat, mbaddr := addr } ∧ s.sameRegs u [] ∧ s.sameMem u := by
  show Gives (execMbRunDone st fails addr s) _
  unfold execMbRunDone
  rw [h]
  exact ⟨_, rfl, State.stackU_modStack_same _ st _, s.wrapOnly_modStack st _⟩

/-- Settles O31: an instruction that takes the pins brings the ports down one after another, and what is abandoned with them touches neither the TAP
nor a port's state. -/
theorem tapAndStackWrapper : Obligations.TapAndStackWrapper := by
  refine ⟨fun s => ⟨⟨_, rfl, rfl, rfl, State.sameRegs_of_regs rfl _, State.sameMem_of_stores rfl rfl rfl⟩,
      ⟨_, rfl, s.tapAnswers_tdo (.inl (by decide)) 32 _⟩, fun v => ⟨_, rfl, s.tapAnswers_tdo (.inl (by decide)) 918 _⟩, gives_preload s,
      gives_stkwrap s, ⟨_, rfl, s.tapAnswers_tdo (.inr (by decide)) 1 0⟩, ?_, ?_⟩,
    fun s st h => ⟨gives_wsBypass h, gives_wsExtest h, gives_rpRead h, gives_rpStage h, gives_rpFuse h, gives_rpMapout h, gives_mbRun h, gives_mbResult h⟩,
    ?_, fun s st ch h => ⟨gives_rpFuseDone_ok h, gives_rpFuseDone_failed h⟩, fun s st m fails addr h => gives_mbRunDone h fails addr⟩
  · intro r hr v w
    simp only [List.mem_cons, List.not_mem_nil, or_false] at hr
    obtain rfl | rfl | rfl := hr <;> exact ⟨_, rfl, s.boundary_spec (by decide) v w⟩
  · intro r hr
    simp only [List.mem_cons, List.not_mem_nil, or_false] at hr
    obtain rfl | rfl := hr <;> exact ⟨_, rfl, s.tapIr_bypassed_spec (by decide)⟩
  · intro s st v addr ch set row mask h c hc
    simp only [List.mem_cons, List.not_mem_nil, or_false] at hc
    obtain rfl | rfl | rfl | rfl | rfl | rfl | rfl | rfl := hc <;> exact gives_bypassed h _ _

end Sys2Proof.Proofs
end
